-- ==== Sys2Proof/Word.lean ====
section
/-!
DEFINITION. The plain word types of the FM-68: 64-bit scalars (spec R1), bytes and 512-byte vector rows (R6, R28).
-/

namespace Sys2Proof

/-- A byte of any memory, little-endian wherever wider values are stored (R6). -/
abbrev Byte := BitVec 8

/-- A scalar register's value (R1: s0 to s63 are 64-bit). -/
abbrev Word := BitVec 64

/-- A vector row, 512 bytes; byte i is bits 8i + 7 down to 8i (R6, R28). -/
abbrev Row := BitVec 4096

/-- A sparse map from numbers: keys strictly rising, and no entry equal to the map's default value. -/
abbrev Map (α : Type) := List (Nat × α)

end Sys2Proof
end

