-- ==== Sys2Proof/Config.lean ====
section
/-!
DEFINITION. What an implementation fixes and what the spec leaves open: constants with no body, so that no proof can see
their values. Each is named in the assumption log.
-/

namespace Sys2Proof.Config

/-- A free choice each time it is asked, by the counter `State.fresh` (log 1). -/
opaque freeBool : Nat → Bool

/-- A free number each time it is asked (log 1). -/
opaque freeNat : Nat → Nat

/-- What an advance makes of position plus carry in a dimension whose count is 0: the position and the carry on (log 109). -/
opaque countZero : Nat → BitVec 32 × Nat

/-- The set of the host-line cache that a line lies in (R345, R405, log 130). -/
opaque hostSet : Nat → Nat

/-- What an audit record holds for a third run where none took place (R393, R404, log 134). -/
opaque noThirdRun : Nat

/-- Whether the host, ringing the mailbox's doorbell in a module cycle, has the mailbox interrupt enabled (R418, log 135). -/
opaque mailboxIrq : Nat → Bool

/-- The mean module power that csr.power reports at a module cycle, in watts: a measured quantity (R412, log 21). -/
opaque powerAt : Nat → Nat

/-- Whether the measured module power is above csr.pcap at a module cycle (R427, log 21). -/
opaque overCap : Nat → Bool

/-- The device secret in the fuses (R415, log 22). -/
opaque deviceSecret : List Byte

/-- The module serial that Delheop gave the identity certificate (R415, R417, log 22). -/
opaque serial : List Byte

/-- The four key-hash fuse slots, and whether each is revoked (R414, log 22). -/
opaque keyFuse : Nat → List Byte
/-- Whether a key-hash fuse slot is revoked (R414, log 22). -/
opaque keyRevoked : Nat → Bool

/-- SLH-DSA-SHA2-192s verification under FIPS 205: key, message, signature (R414, log 23). -/
opaque slhVerify : List Byte → List Byte → List Byte → Bool
/-- SLH-DSA-SHA2-192s signing under FIPS 205: the three seeds, message (R415, R417, log 23). -/
opaque slhSign : List Byte → List Byte → List Byte

/-- The service reserve in GiB that an image's configuration section asks for (R412, log 24). -/
opaque imageReserve : List Byte → Nat
/-- The site that an image's configuration section maps a logical Yard to, if it maps it (R15, R425, log 24). -/
opaque imageSite : List Byte → Nat → Option Nat

/-- The answer of the CXL standard to one of its own mailbox opcodes, with the payload sent: return code and output (R418, log 25). -/
opaque standardAnswer : Nat → List Byte → Nat × List Byte
/-- Whether the CXL standard makes an opcode mandatory for a primary mailbox (R418, log 25). -/
opaque standardOpcode : Nat → Bool

/-- Where in the service reserve the verified image is copied (R425, log 24). -/
opaque imageOffset : Nat

/-- How a quote's bytes 56 to 63 hold a security version and a build identifier (R417, log 22). -/
opaque svnBuild : Nat → Nat → List Byte

/-- The length of the identity certificate (R415, R419, log 22). -/
opaque certLength : Nat
/-- Whether the certificate area of the flash can be read (R419, log 22). -/
opaque certReadable : Bool
/-- Whether recovery writes image slot B; else slot A (R419, log 22). -/
opaque recoverySlot : Bool

end Sys2Proof.Config
end

