-- ==== Sys2Proof/Machine/Bits.lean ====
section
/-!
DEFINITION. Bit fields (R5), little-endian byte strings (R6), dense element packing (R43), and the one sparse-map
operation set that every memory and register file of the model uses.
-/

namespace Sys2Proof.Machine

/-- The field of `len` bits whose lowest bit is bit `lo` (R5). -/
def bits {w : Nat} (x : BitVec w) (lo len : Nat) : BitVec len := x.extractLsb' lo len

/-- The same field as a number. -/
def fld {w : Nat} (x : BitVec w) (lo len : Nat) : Nat := (x.extractLsb' lo len).toNat

/-- Bit `i` (R5). -/
def bit {w : Nat} (x : BitVec w) (i : Nat) : Bool := x.getLsbD i

/-- `x` with the field of `len` bits at `lo` replaced by `v`. -/
def setField {w : Nat} (x : BitVec w) (lo len : Nat) (v : Nat) : BitVec w :=
  (x &&& ~~~(BitVec.ofNat w ((2 ^ len - 1) <<< lo))) ||| BitVec.ofNat w ((v % 2 ^ len) <<< lo)

/-- The two's-complement value of the low `w` bits of `n`. -/
def signed (w n : Nat) : Int :=
  let m := n % 2 ^ w
  if 2 * m < 2 ^ w then (m : Int) else (m : Int) - (2 ^ w : Nat)

/-- The low `w` bits of an integer. -/
def lowBits (w : Nat) (i : Int) : Nat := (i % ((2 ^ w : Nat) : Int)).toNat

/-- Element `j` of width `c` bits of a packed value (R43). -/
def elem (c x j : Nat) : Nat := (x >>> (c * j)) % 2 ^ c

/-- The packed value whose elements 0 to n − 1 of width `c` are `f 0 … f (n − 1)` (R43). -/
def pack (c : Nat) : Nat → (Nat → Nat) → Nat
  | 0, _ => 0
  | n + 1, f => (pack c n (fun j => f (j + 1))) <<< c ||| f 0 % 2 ^ c

/-- The packed value of a list of elements of width `c` (R43). -/
def packList (c : Nat) : List Nat → Nat
  | [] => 0
  | x :: r => (packList c r) <<< c ||| x % 2 ^ c

/-- A row from its packed elements. -/
def rowOf (c n : Nat) (f : Nat → Nat) : Row := BitVec.ofNat 4096 (pack c n f)

/-- 32-bit lane `j` of a row (R6). -/
def lane (r : Row) (j : Nat) : BitVec 32 := r.extractLsb' (32 * j) 32

/-- A row from its 128 lanes. -/
def rowOfLanes (f : Nat → BitVec 32) : Row := rowOf 32 128 (fun j => (f j).toNat)

/-- The little-endian number held by a byte string (R6). -/
def leNat : List Byte → Nat
  | [] => 0
  | b :: bs => b.toNat + 256 * leNat bs

/-- The low `n` bytes of a number, lowest first (R6). -/
def leBytes : Nat → Nat → List Byte
  | 0, _ => []
  | n + 1, x => BitVec.ofNat 8 x :: leBytes n (x / 256)

/-- Bytes of a row, lowest first. -/
def rowBytes (r : Row) : List Byte := leBytes 512 r.toNat

/-- A row from bytes; missing bytes are zero. -/
def bytesRow (bs : List Byte) : Row := BitVec.ofNat 4096 (leNat bs)

/-- The value at key `k`, or `d`. -/
def mget {α : Type} (m : Map α) (k : Nat) (d : α) : α :=
  match m with
  | [] => d
  | (j, v) :: r => if j = k then v else mget r k d

/-- The value at key `k`, if listed. -/
def mfind {α : Type} (m : Map α) (k : Nat) : Option α :=
  match m with
  | [] => none
  | (j, v) :: r => if j = k then some v else mfind r k

/-- The map without key `k`. -/
def mdel {α : Type} (m : Map α) (k : Nat) : Map α := m.filter (fun e => e.1 != k)

/-- The map with `v` at key `k`, in order. -/
def mput {α : Type} (m : Map α) (k : Nat) (v : α) : Map α :=
  match m with
  | [] => [(k, v)]
  | (j, u) :: r => if j = k then (k, v) :: r else if k < j then (k, v) :: (j, u) :: r else (j, u) :: mput r k v

/-- The map with `v` at key `k`, keeping no entry equal to the default `d`. -/
def mset {α : Type} [DecidableEq α] (m : Map α) (k : Nat) (v d : α) : Map α :=
  if v = d then mdel m k else mput m k v

/-- A map's canonical form: keys strictly rising, no entry equal to the default. -/
def mwf {α : Type} [DecidableEq α] (d : α) : Map α → Bool
  | [] => true
  | [(_, v)] => v != d
  | (j, v) :: (k, u) :: r => v != d && decide (j < k) && mwf d ((k, u) :: r)

/-- The value at `k` changed by `f`, where the key is listed. -/
def mmod {α : Type} (m : Map α) (k : Nat) (f : α → α) : Map α :=
  match m with
  | [] => []
  | (j, u) :: r => if j = k then (j, f u) :: r else (j, u) :: mmod r k f

/-- `n` bytes from address `a`; an unlisted byte reads 0. -/
def readBytes (m : Map Byte) (a : Nat) : Nat → List Byte
  | 0 => []
  | n + 1 => mget m a 0 :: readBytes m (a + 1) n

/-- Bytes stored from address `a` upwards. -/
def writeBytes (m : Map Byte) (a : Nat) : List Byte → Map Byte
  | [] => m
  | b :: bs => writeBytes (mset m a b 0) (a + 1) bs

/-- Bytes stored from `a` upwards under a bit mask for each byte: mask bits 1 take the new value. -/
def writeMasked (m : Map Byte) (a : Nat) : List Byte → List Byte → Map Byte
  | b :: bs, k :: ks =>
    writeMasked (if k = 0 then m else mset m a ((mget m a 0 &&& ~~~k) ||| (b &&& k)) 0) (a + 1) bs ks
  | _, _ => m

/-- `n` bytes from address `a` as a little-endian number. -/
def readLe (m : Map Byte) (a n : Nat) : Nat := leNat (readBytes m a n)

/-- The map with every key in `[a, a + n)` removed. -/
def mclear {α : Type} (m : Map α) (a n : Nat) : Map α := m.filter (fun e => e.1 < a || a + n ≤ e.1)

/-- List element `i`, or `d`. -/
def nth {α : Type} (l : List α) (i : Nat) (d : α) : α := l.getD i d

/-- Insertion by a key, keeping earlier equal elements first. -/
def insertBy {α : Type} (key : α → Nat) (x : α) : List α → List α
  | [] => [x]
  | y :: r => if key x < key y then x :: y :: r else y :: insertBy key x r

/-- Stable sort by a key. -/
def sortBy {α : Type} (key : α → Nat) (l : List α) : List α := l.foldl (fun acc x => insertBy key x acc) []

/-- ⌈a ÷ b⌉. -/
def ceilDiv (a b : Nat) : Nat := (a + b - 1) / b

end Sys2Proof.Machine
end

