-- ==== Sys2Proof/Syntax.lean ====
section
/-!
DEFINITION. The instructions of the FM-68: one constructor for each row of the opcode table. The first 256 are the slot
operations (R100 to R114), whose arguments are the predicate field and the operand fields of their form, as bits; the
others are the events of the table (spec/95_what_each_step_holds.md), whose arguments name what the event falls on.
-/

namespace Sys2Proof

/-- A slot operation or an event. `p` is the predicate field (R75). -/
inductive Instr where
  -- Y slot (R107)
  | nop (p : BitVec 3)
  | bar (p : BitVec 3) (group : BitVec 4)
  | rdv (p : BitVec 3) (group : BitVec 4)
  | waitdImm (p : BitVec 3) (count : BitVec 16)
  | waitdScalar (p : BitVec 3) (a : BitVec 6)
  | fence (p : BitVec 3) (scope : BitVec 4)
  | semsig (p : BitVec 3) (c sem : BitVec 6)
  | semsigScalar (p : BitVec 3) (c a : BitVec 6)
  | semwait (p : BitVec 3) (c sem : BitVec 6)
  | yield (p : BitVec 3)
  | svc (p : BitVec 3) (code : BitVec 12)
  | trap (p : BitVec 3) (code : BitVec 12)
  | halt (p : BitVec 3)
  | probe (p : BitVec 3) (b a : BitVec 6)
  | discard (p : BitVec 3) (b a : BitVec 6)
  | exit (p : BitVec 3)
  -- S slot (R105)
  | add (p : BitVec 5) (d a b : BitVec 6)
  | sub (p : BitVec 5) (d a b : BitVec 6)
  | mul (p : BitVec 5) (d a b : BitVec 6)
  | mulh (p : BitVec 5) (d a b : BitVec 6)
  | mulhs (p : BitVec 5) (d a b : BitVec 6)
  | div (p : BitVec 5) (d a b : BitVec 6)
  | divs (p : BitVec 5) (d a b : BitVec 6)
  | rem (p : BitVec 5) (d a b : BitVec 6)
  | and (p : BitVec 5) (d a b : BitVec 6)
  | or (p : BitVec 5) (d a b : BitVec 6)
  | xor (p : BitVec 5) (d a b : BitVec 6)
  | andn (p : BitVec 5) (d a b : BitVec 6)
  | shl (p : BitVec 5) (d a b : BitVec 6)
  | shr (p : BitVec 5) (d a b : BitVec 6)
  | sar (p : BitVec 5) (d a b : BitVec 6)
  | rotl (p : BitVec 5) (d a b : BitVec 6)
  | min (p : BitVec 5) (d a b : BitVec 6)
  | max (p : BitVec 5) (d a b : BitVec 6)
  | mins (p : BitVec 5) (d a b : BitVec 6)
  | maxs (p : BitVec 5) (d a b : BitVec 6)
  | addsh (p : BitVec 5) (d a b : BitVec 6) (sh : BitVec 3)
  | clz (p : BitVec 5) (d a : BitVec 6)
  | popc (p : BitVec 5) (d a : BitVec 6)
  | sel (p : BitVec 5) (d a b : BitVec 6) (pc : BitVec 4)
  | addi (p : BitVec 5) (d a : BitVec 6) (psel : BitVec 2) (imm : BitVec 22)
  | mulImm (p : BitVec 5) (d a : BitVec 6) (psel : BitVec 2) (imm : BitVec 22)
  | andImm (p : BitVec 5) (d a : BitVec 6) (psel : BitVec 2) (imm : BitVec 22)
  | orImm (p : BitVec 5) (d a : BitVec 6) (psel : BitVec 2) (imm : BitVec 22)
  | xorImm (p : BitVec 5) (d a : BitVec 6) (psel : BitVec 2) (imm : BitVec 22)
  | shlImm (p : BitVec 5) (d a : BitVec 6) (psel : BitVec 2) (imm : BitVec 22)
  | shrImm (p : BitVec 5) (d a : BitVec 6) (psel : BitVec 2) (imm : BitVec 22)
  | sarImm (p : BitVec 5) (d a : BitVec 6) (psel : BitVec 2) (imm : BitVec 22)
  | rotlImm (p : BitVec 5) (d a : BitVec 6) (psel : BitVec 2) (imm : BitVec 22)
  | minImm (p : BitVec 5) (d a : BitVec 6) (psel : BitVec 2) (imm : BitVec 22)
  | maxImm (p : BitVec 5) (d a : BitVec 6) (psel : BitVec 2) (imm : BitVec 22)
  | minsImm (p : BitVec 5) (d a : BitVec 6) (psel : BitVec 2) (imm : BitVec 22)
  | maxsImm (p : BitVec 5) (d a : BitVec 6) (psel : BitVec 2) (imm : BitVec 22)
  | cmpeq (p : BitVec 5) (pd : BitVec 4) (a b : BitVec 6)
  | cmpne (p : BitVec 5) (pd : BitVec 4) (a b : BitVec 6)
  | cmplt (p : BitVec 5) (pd : BitVec 4) (a b : BitVec 6)
  | cmplts (p : BitVec 5) (pd : BitVec 4) (a b : BitVec 6)
  | cmple (p : BitVec 5) (pd : BitVec 4) (a b : BitVec 6)
  | cmples (p : BitVec 5) (pd : BitVec 4) (a b : BitVec 6)
  | cmpeqImm (p : BitVec 5) (pd : BitVec 4) (a : BitVec 6) (psel : BitVec 2) (imm : BitVec 22)
  | cmpneImm (p : BitVec 5) (pd : BitVec 4) (a : BitVec 6) (psel : BitVec 2) (imm : BitVec 22)
  | cmpltImm (p : BitVec 5) (pd : BitVec 4) (a : BitVec 6) (psel : BitVec 2) (imm : BitVec 22)
  | cmpltsImm (p : BitVec 5) (pd : BitVec 4) (a : BitVec 6) (psel : BitVec 2) (imm : BitVec 22)
  | cmpleImm (p : BitVec 5) (pd : BitVec 4) (a : BitVec 6) (psel : BitVec 2) (imm : BitVec 22)
  | cmplesImm (p : BitVec 5) (pd : BitVec 4) (a : BitVec 6) (psel : BitVec 2) (imm : BitVec 22)
  | li (p : BitVec 5) (d : BitVec 6) (psel : BitVec 2) (imm : BitVec 28)
  | liLong (p : BitVec 5) (d : BitVec 6) (imm : BitVec 64)
  | pset (p : BitVec 5) (pd : BitVec 4) (a : BitVec 6)
  | pand (p : BitVec 5) (pd pa pb : BitVec 4) (inva invb : BitVec 1)
  | por (p : BitVec 5) (pd pa pb : BitVec 4) (inva invb : BitVec 1)
  | pxor (p : BitVec 5) (pd pa pb : BitVec 4) (inva invb : BitVec 1)
  | pnot (p : BitVec 5) (pd pa : BitVec 4)
  | br (p : BitVec 5) (target : BitVec 12)
  | brScalar (p : BitVec 5) (a : BitVec 6)
  | bc (p : BitVec 5) (a b : BitVec 6) (cond : BitVec 3) (target : BitVec 12)
  | call (p : BitVec 5) (d : BitVec 6) (target : BitVec 12)
  | ret (p : BitVec 5) (a : BitVec 6)
  | loopScalar (p : BitVec 5) (a : BitVec 6) (len : BitVec 12)
  | loopNbound (p : BitVec 5) (n : BitVec 4) (len : BitVec 12)
  | loopImm (p : BitVec 5) (count : BitVec 16) (len : BitVec 12)
  | lexit (p : BitVec 5)
  | lidx (p : BitVec 5) (d : BitVec 6) (idx : BitVec 3)
  | csrr (p : BitVec 5) (d : BitVec 6) (csr : BitVec 12)
  | csrw (p : BitVec 5) (a : BitVec 6) (csr : BitVec 12)
  | csrwImm (p : BitVec 5) (imm : BitVec 16) (csr : BitVec 12)
  | nbnd (p : BitVec 5) (n : BitVec 4) (a : BitVec 6)
  | nbndImm (p : BitVec 5) (n : BitVec 4) (imm : BitVec 32)
  -- VA and VB slots (R109)
  | vadd (p : BitVec 5) (vd va vb : BitVec 13)
  | vsub (p : BitVec 5) (vd va vb : BitVec 13)
  | vmul (p : BitVec 5) (vd va vb : BitVec 13)
  | vmin (p : BitVec 5) (vd va vb : BitVec 13)
  | vmax (p : BitVec 5) (vd va vb : BitVec 13)
  | vfma (p : BitVec 5) (vd va vb vc : BitVec 13)
  | vfms (p : BitVec 5) (vd va vb vc : BitVec 13)
  | vfnma (p : BitVec 5) (vd va vb vc : BitVec 13)
  | vaddScalar (p : BitVec 5) (vd va : BitVec 13) (sb : BitVec 6)
  | vsubScalar (p : BitVec 5) (vd va : BitVec 13) (sb : BitVec 6)
  | vmulScalar (p : BitVec 5) (vd va : BitVec 13) (sb : BitVec 6)
  | vminScalar (p : BitVec 5) (vd va : BitVec 13) (sb : BitVec 6)
  | vmaxScalar (p : BitVec 5) (vd va : BitVec 13) (sb : BitVec 6)
  | vfmaScalar (p : BitVec 5) (vd va : BitVec 13) (sb : BitVec 6) (vc : BitVec 13)
  | vfmsScalar (p : BitVec 5) (vd va : BitVec 13) (sb : BitVec 6) (vc : BitVec 13)
  | vfnmaScalar (p : BitVec 5) (vd va : BitVec 13) (sb : BitVec 6) (vc : BitVec 13)
  | vabs (p : BitVec 5) (vd va : BitVec 13)
  | vneg (p : BitVec 5) (vd va : BitVec 13)
  | vrcp (p : BitVec 5) (vd va : BitVec 13)
  | vrsq (p : BitVec 5) (vd va : BitVec 13)
  | vexp2 (p : BitVec 5) (vd va : BitVec 13)
  | vlog2 (p : BitVec 5) (vd va : BitVec 13)
  | vclamp (p : BitVec 5) (vd va : BitVec 13) (slo shi : BitVec 6)
  | vsel (p : BitVec 5) (vd va vb vc : BitVec 13)
  | vcmpeqF (p : BitVec 5) (vd va vb : BitVec 13)
  | vcmpeqI (p : BitVec 5) (vd va vb : BitVec 13)
  | vcmpltF (p : BitVec 5) (vd va vb : BitVec 13)
  | vcmpltSi (p : BitVec 5) (vd va vb : BitVec 13)
  | vcmpltUi (p : BitVec 5) (vd va vb : BitVec 13)
  | vcmpleF (p : BitVec 5) (vd va vb : BitVec 13)
  | vcmpleSi (p : BitVec 5) (vd va vb : BitVec 13)
  | vcmpleUi (p : BitVec 5) (vd va vb : BitVec 13)
  | viaddB (p : BitVec 5) (vd va vb : BitVec 13)
  | viaddH (p : BitVec 5) (vd va vb : BitVec 13)
  | viaddW (p : BitVec 5) (vd va vb : BitVec 13)
  | visubB (p : BitVec 5) (vd va vb : BitVec 13)
  | visubH (p : BitVec 5) (vd va vb : BitVec 13)
  | visubW (p : BitVec 5) (vd va vb : BitVec 13)
  | vimulB (p : BitVec 5) (vd va vb : BitVec 13)
  | vimulH (p : BitVec 5) (vd va vb : BitVec 13)
  | vimulW (p : BitVec 5) (vd va vb : BitVec 13)
  | vimacB (p : BitVec 5) (vd va vb vc : BitVec 13)
  | vimacH (p : BitVec 5) (vd va vb vc : BitVec 13)
  | vimacW (p : BitVec 5) (vd va vb vc : BitVec 13)
  | vand (p : BitVec 5) (vd va vb : BitVec 13)
  | vor (p : BitVec 5) (vd va vb : BitVec 13)
  | vxor (p : BitVec 5) (vd va vb : BitVec 13)
  | vpopc (p : BitVec 5) (vd va : BitVec 13)
  | viaddBScalar (p : BitVec 5) (vd va : BitVec 13) (sb : BitVec 6)
  | viaddHScalar (p : BitVec 5) (vd va : BitVec 13) (sb : BitVec 6)
  | viaddWScalar (p : BitVec 5) (vd va : BitVec 13) (sb : BitVec 6)
  | visubBScalar (p : BitVec 5) (vd va : BitVec 13) (sb : BitVec 6)
  | visubHScalar (p : BitVec 5) (vd va : BitVec 13) (sb : BitVec 6)
  | visubWScalar (p : BitVec 5) (vd va : BitVec 13) (sb : BitVec 6)
  | vimulBScalar (p : BitVec 5) (vd va : BitVec 13) (sb : BitVec 6)
  | vimulHScalar (p : BitVec 5) (vd va : BitVec 13) (sb : BitVec 6)
  | vimulWScalar (p : BitVec 5) (vd va : BitVec 13) (sb : BitVec 6)
  | vimacBScalar (p : BitVec 5) (vd va : BitVec 13) (sb : BitVec 6) (vc : BitVec 13)
  | vimacHScalar (p : BitVec 5) (vd va : BitVec 13) (sb : BitVec 6) (vc : BitVec 13)
  | vimacWScalar (p : BitVec 5) (vd va : BitVec 13) (sb : BitVec 6) (vc : BitVec 13)
  | vshlB (p : BitVec 5) (vd va : BitVec 13) (amt : BitVec 5)
  | vshlH (p : BitVec 5) (vd va : BitVec 13) (amt : BitVec 5)
  | vshlW (p : BitVec 5) (vd va : BitVec 13) (amt : BitVec 5)
  | vshrB (p : BitVec 5) (vd va : BitVec 13) (amt : BitVec 5)
  | vshrH (p : BitVec 5) (vd va : BitVec 13) (amt : BitVec 5)
  | vshrW (p : BitVec 5) (vd va : BitVec 13) (amt : BitVec 5)
  | vsarB (p : BitVec 5) (vd va : BitVec 13) (amt : BitVec 5)
  | vsarH (p : BitVec 5) (vd va : BitVec 13) (amt : BitVec 5)
  | vsarW (p : BitVec 5) (vd va : BitVec 13) (amt : BitVec 5)
  | vcvt (p : BitVec 5) (vd va : BitVec 13) (sfmt dfmt : BitVec 5)
  | vcvtK (p : BitVec 5) (vd va : BitVec 13) (sfmt dfmt : BitVec 5)
  | vpack (p : BitVec 5) (vd va vb : BitVec 13) (ew3 : BitVec 3)
  | vunpk (p : BitVec 5) (vd va : BitVec 13) (ew3 : BitVec 3) (part : BitVec 4)
  | vperm (p : BitVec 5) (vd va vb : BitVec 13)
  | vshuf (p : BitVec 5) (vd va vb : BitVec 13) (pattern : BitVec 5)
  | vbcastScalar (p : BitVec 5) (vd : BitVec 13) (sa : BitVec 6) (ew : BitVec 2)
  | vbcastElement (p : BitVec 5) (vd va : BitVec 13) (idx : BitVec 9) (ew : BitVec 2)
  | vextrImm (p : BitVec 5) (sd : BitVec 6) (va : BitVec 13) (idx : BitVec 9) (ew : BitVec 2)
  | vextrScalar (p : BitVec 5) (sd : BitVec 6) (va : BitVec 13) (si : BitVec 6) (ew : BitVec 2)
  | vinsImm (p : BitVec 5) (vd va : BitVec 13) (sa : BitVec 6) (idx : BitVec 9) (ew : BitVec 2)
  | vinsScalar (p : BitVec 5) (vd va : BitVec 13) (sa si : BitVec 6) (ew : BitVec 2)
  | vmov (p : BitVec 5) (vd va : BitVec 13)
  | vrng (p : BitVec 5) (vd : BitVec 13) (sseed sseq spos : BitVec 6) (draw : BitVec 16)
  | vrngF (p : BitVec 5) (vd : BitVec 13) (sseed sseq spos : BitVec 6) (draw : BitVec 16)
  | tapp (p : BitVec 5) (tap seq : BitVec 3) (va : BitVec 13) (rows : BitVec 11)
  | taps (p : BitVec 5) (tap seq : BitVec 3) (va : BitVec 13) (rows : BitVec 11) (sc : BitVec 6)
  | tapld (p : BitVec 5) (tap : BitVec 3) (sa : BitVec 6)
  | taprd (p : BitVec 5) (sd : BitVec 6) (tap : BitVec 3) (what : BitVec 1)
  | vredsumF (p : BitVec 5) (vd va : BitVec 13)
  | vredsumI (p : BitVec 5) (vd va : BitVec 13)
  | vredmaxF (p : BitVec 5) (vd va : BitVec 13)
  | vredmaxSi (p : BitVec 5) (vd va : BitVec 13)
  | vredminF (p : BitVec 5) (vd va : BitVec 13)
  | vredminSi (p : BitVec 5) (vd va : BitVec 13)
  | vargmax (p : BitVec 5) (vd va : BitVec 13)
  | vscanF (p : BitVec 5) (vd va : BitVec 13)
  | vscanI (p : BitVec 5) (vd va : BitVec 13)
  | ksetImm (p : BitVec 5) (kd : BitVec 8) (axis : BitVec 1) (format : BitVec 2) (block : BitVec 4) (value : BitVec 16)
  | ksetScalar (p : BitVec 5) (kd : BitVec 8) (axis : BitVec 1) (format : BitVec 2) (block : BitVec 4) (sa : BitVec 6)
  | kmov (p : BitVec 5) (kd ka : BitVec 8)
  | kmul (p : BitVec 5) (kd ka kb : BitVec 8)
  | kaddeImm (p : BitVec 5) (kd ka step : BitVec 8)
  | kaddeScalar (p : BitVec 5) (kd ka : BitVec 8) (sb : BitVec 6)
  | kmaxe (p : BitVec 5) (kd ka kb : BitVec 8)
  | kcvtBf16 (p : BitVec 5) (kd ka : BitVec 8)
  | kcvtE8m0 (p : BitVec 5) (kd ka : BitVec 8)
  | kbindTile (p tile : BitVec 5) (ks : BitVec 8) (axis : BitVec 1) (block : BitVec 4)
  | kbindBank (p : BitVec 5) (cm : BitVec 3) (bank : BitVec 1) (ks : BitVec 8) (axis : BitVec 1) (block : BitVec 4)
  | kunbindTile (p tile : BitVec 5)
  | kunbindBank (p : BitVec 5) (cm : BitVec 3) (bank : BitVec 1)
  | krdRow (p : BitVec 5) (vd : BitVec 13) (ks : BitVec 8)
  | krdScalar (p : BitVec 5) (sd : BitVec 6) (ks : BitVec 8) (entry : BitVec 6) (sel : BitVec 1)
  | kwrRow (p : BitVec 5) (kd : BitVec 8) (va : BitVec 13)
  | kwrScalar (p : BitVec 5) (kd : BitVec 8) (sa entry : BitVec 6)
  | kgen (p : BitVec 5) (kd : BitVec 8) (va : BitVec 13) (axis : BitVec 1) (block : BitVec 4) (format : BitVec 2)
  -- M slot (R111)
  | mmaL6 (p : BitVec 5) (vd : BitVec 11) (abay : BitVec 3) (aoff : BitVec 12) (bbay : BitVec 3) (boff : BitVec 12) (alane blane : BitVec 4) (sg : BitVec 2) (sc : BitVec 1)
  | mmaI8 (p : BitVec 5) (vd : BitVec 11) (abay : BitVec 3) (aoff : BitVec 12) (bbay : BitVec 3) (boff : BitVec 12) (alane blane : BitVec 4) (sg : BitVec 2) (sc : BitVec 1)
  | mmaE4m3 (p : BitVec 5) (vd : BitVec 11) (abay : BitVec 3) (aoff : BitVec 12) (bbay : BitVec 3) (boff : BitVec 12) (alane blane : BitVec 4) (sg : BitVec 2) (sc : BitVec 1)
  | mmaE5m2 (p : BitVec 5) (vd : BitVec 11) (abay : BitVec 3) (aoff : BitVec 12) (bbay : BitVec 3) (boff : BitVec 12) (alane blane : BitVec 4) (sg : BitVec 2) (sc : BitVec 1)
  | mmaE4e5 (p : BitVec 5) (vd : BitVec 11) (abay : BitVec 3) (aoff : BitVec 12) (bbay : BitVec 3) (boff : BitVec 12) (alane blane : BitVec 4) (sg : BitVec 2) (sc : BitVec 1)
  | mmaE5e4 (p : BitVec 5) (vd : BitVec 11) (abay : BitVec 3) (aoff : BitVec 12) (bbay : BitVec 3) (boff : BitVec 12) (alane blane : BitVec 4) (sg : BitVec 2) (sc : BitVec 1)
  | mmaBf16 (p : BitVec 5) (vd : BitVec 11) (abay : BitVec 3) (aoff : BitVec 12) (bbay : BitVec 3) (boff : BitVec 12) (alane blane : BitVec 4) (sg : BitVec 2) (sc : BitVec 1)
  | mmaFp16 (p : BitVec 5) (vd : BitVec 11) (abay : BitVec 3) (aoff : BitVec 12) (bbay : BitVec 3) (boff : BitVec 12) (alane blane : BitVec 4) (sg : BitVec 2) (sc : BitVec 1)
  | mmazL6 (p : BitVec 5) (vd : BitVec 11) (abay : BitVec 3) (aoff : BitVec 12) (bbay : BitVec 3) (boff : BitVec 12) (alane blane : BitVec 4) (sg : BitVec 2) (sc : BitVec 1)
  | mmazI8 (p : BitVec 5) (vd : BitVec 11) (abay : BitVec 3) (aoff : BitVec 12) (bbay : BitVec 3) (boff : BitVec 12) (alane blane : BitVec 4) (sg : BitVec 2) (sc : BitVec 1)
  | mmazE4m3 (p : BitVec 5) (vd : BitVec 11) (abay : BitVec 3) (aoff : BitVec 12) (bbay : BitVec 3) (boff : BitVec 12) (alane blane : BitVec 4) (sg : BitVec 2) (sc : BitVec 1)
  | mmazE5m2 (p : BitVec 5) (vd : BitVec 11) (abay : BitVec 3) (aoff : BitVec 12) (bbay : BitVec 3) (boff : BitVec 12) (alane blane : BitVec 4) (sg : BitVec 2) (sc : BitVec 1)
  | mmazE4e5 (p : BitVec 5) (vd : BitVec 11) (abay : BitVec 3) (aoff : BitVec 12) (bbay : BitVec 3) (boff : BitVec 12) (alane blane : BitVec 4) (sg : BitVec 2) (sc : BitVec 1)
  | mmazE5e4 (p : BitVec 5) (vd : BitVec 11) (abay : BitVec 3) (aoff : BitVec 12) (bbay : BitVec 3) (boff : BitVec 12) (alane blane : BitVec 4) (sg : BitVec 2) (sc : BitVec 1)
  | mmazBf16 (p : BitVec 5) (vd : BitVec 11) (abay : BitVec 3) (aoff : BitVec 12) (bbay : BitVec 3) (boff : BitVec 12) (alane blane : BitVec 4) (sg : BitVec 2) (sc : BitVec 1)
  | mmazFp16 (p : BitVec 5) (vd : BitVec 11) (abay : BitVec 3) (aoff : BitVec 12) (bbay : BitVec 3) (boff : BitVec 12) (alane blane : BitVec 4) (sg : BitVec 2) (sc : BitVec 1)
  | mxhint (p : BitVec 5) (burst : BitVec 16)
  | cmode (p : BitVec 5) (mode : BitVec 1) (mask : BitVec 8)
  | cloadRow (p : BitVec 5) (vs : BitVec 13) (cm : BitVec 3) (first : BitVec 8) (wfmt : BitVec 5)
  | cloadRound (p : BitVec 5) (bay : BitVec 3) (off : BitVec 12) (lane : BitVec 4) (cm : BitVec 3) (first : BitVec 8) (wfmt : BitVec 5)
  | cswap (p : BitVec 5) (mask : BitVec 8)
  | cmacRow (p : BitVec 5) (mask : BitVec 8) (va : BitVec 13) (abits : BitVec 3) (asigned : BitVec 1) (wacc : BitVec 5)
  | cmacRound (p : BitVec 5) (mask : BitVec 8) (bay : BitVec 3) (off : BitVec 12) (lane : BitVec 4) (abits : BitVec 3) (asigned : BitVec 1) (wacc : BitVec 5)
  | cread (p : BitVec 5) (vd : BitVec 13) (cm : BitVec 3) (half : BitVec 1)
  | creadK (p : BitVec 5) (vd : BitVec 13) (cm : BitVec 3) (half : BitVec 1)
  | cclr (p : BitVec 5) (mask : BitVec 8)
  | cchk (p : BitVec 5) (bank : BitVec 1) (cm : BitVec 3)
  -- L slot (R112)
  | ld (p : BitVec 5) (vd : BitVec 13) (w : BitVec 5) (kd : BitVec 8) (delay : BitVec 12)
  | ldr (p : BitVec 5) (vd : BitVec 13) (bay : BitVec 3) (off : BitVec 12) (lane : BitVec 4)
  | ldkStream (p : BitVec 5) (kd : BitVec 8) (w : BitVec 5) (delay : BitVec 12)
  | ldkRound (p : BitVec 5) (kd : BitVec 8) (bay : BitVec 3) (off : BitVec 12) (lane : BitVec 4)
  | ldsRound (p : BitVec 5) (sd : BitVec 6) (bay : BitVec 3) (off8 : BitVec 15) (lane : BitVec 4)
  | ldsStream (p : BitVec 5) (sd : BitVec 6) (w : BitVec 5) (delay : BitVec 12)
  | popVector (p : BitVec 5) (vd : BitVec 13) (q : BitVec 5) (delay : BitVec 12)
  | popScalar (p : BitVec 5) (sd : BitVec 6) (q : BitVec 5) (delay : BitVec 12)
  | fill (p : BitVec 5) (tok : BitVec 6) (tile w : BitVec 5)
  -- W slot (R113)
  | st (p w : BitVec 5) (vs : BitVec 13) (ks : BitVec 8)
  | str (p : BitVec 5) (bay : BitVec 3) (off : BitVec 12) (lane : BitVec 4) (vs : BitVec 13)
  | stkStream (p w : BitVec 5) (ks : BitVec 8)
  | stkRound (p : BitVec 5) (bay : BitVec 3) (off : BitVec 12) (lane : BitVec 4) (ks : BitVec 8)
  | stsRound (p : BitVec 5) (bay : BitVec 3) (off8 : BitVec 15) (lane : BitVec 4) (a : BitVec 6)
  | stsStream (p w : BitVec 5) (a : BitVec 6)
  | pushVector (p q : BitVec 5) (vs : BitVec 13)
  | pushScalar (p q : BitVec 5) (a : BitVec 6)
  | spill (p : BitVec 5) (tok : BitVec 6) (tile w : BitVec 5)
  -- C slot (R114)
  | movpRound (p : BitVec 5) (bay : BitVec 3) (off : BitVec 12) (lane : BitVec 4) (port : BitVec 8)
  | movpScalar (p : BitVec 5) (a : BitVec 6) (port : BitVec 8) (lane : BitVec 4)
  | xfer (p : BitVec 5) (frm dest lane : BitVec 4) (fromaddr toaddr : BitVec 12)
  | redsVector (p : BitVec 5) (vs : BitVec 13) (t : BitVec 6) (op : BitVec 3) (ty : BitVec 1) (sem : BitVec 6)
  | redsScalar (p : BitVec 5) (a t : BitVec 6) (op : BitVec 3) (ty : BitVec 1) (sem : BitVec 6)
  | scfgTable (p w : BitVec 5) (entry : BitVec 12)
  | scfgScalar (p w : BitVec 5) (word : BitVec 4) (a : BitVec 6)
  | sadv (p w : BitVec 5) (dim : BitVec 2) (steps : BitVec 16)
  | srst (p w : BitVec 5)
  -- events (R18 and the rules that spec/95_what_each_step_holds.md names)
  | yardCycle
  | rewindRestore (c : Nat)
  | segmentEntry (c : Nat)
  | yieldBundle (c : Nat)
  | deadlineExpiry (c : Nat)
  | checkRetest (c : Nat)
  | offdieLoadLanding (c : Nat) (id : Nat)
  | offcoreAccessPerform (c : Nat) (id : Nat)
  | pushAccepted (c : Nat) (id : Nat)
  | tokenComplete (c : Nat) (id : Nat)
  | probeAnswer (c : Nat) (id : Nat)
  | rendezvousRelease (l : Nat) (group : Nat)
  | barrierRelease (l : Nat) (group : Nat) (yard : Nat)
  | redsApply (stable : Nat)
  | mxwinWrite (c : Nat) (code : Nat)
  | mxwinTakesEffect (stable : Nat)
  | dxBackref (c : Nat)
  | dxCopy (c : Nat)
  | txTranspose (c : Nat)
  | hxSha256 (c : Nat)
  | qxConvert (c : Nat)
  | stationJobEnd (stable : Nat) (id : Nat)
  | arrayCold (stable : Nat)
  | shadowFillAccept (c : Nat) (cm : Nat)
  | shadowFillEnd (c : Nat) (cm : Nat)
  | hangTimeout (c : Nat)
  | hostWrite (addr : Nat) (data : List Byte)
  | hostRead (addr : Nat) (len : Nat) (excl : Bool)
  | queueResume (q : Nat) (seq : Nat)
  | queueEnd (q : Nat) (seq : Nat)
  | queueCancel (q : Nat) (seq : Nat)
  | placementDecision
  | launchRunStart (l : Nat)
  | contextRelease (c : Nat)
  | launchCompletion (l : Nat)
  | swapOut (l : Nat) (yard : Nat)
  | swapOutSave (l : Nat) (yard : Nat)
  | dramMeterWindow (l : Nat)
  | auditVerdict (stall : Nat) (replay : Nat) (sig : Nat)
  | scrubPass
  | sieveAgeing
  | linkCrcError (struct : Nat) (owner : Nat) (retries : Nat)
  | repairRequest (v : Nat)
  | repairCopy
  | yardLost (yard : Nat) (cause : Nat)
  | thermalTrip (yard : Nat)
  | yardActivate (site : Nat) (yard : Nat)
  | yardDeclareLost (yard : Nat)
  | yardSelfTestDone (yard : Nat) (passed : Bool)
  | degrArrayFailed (stall : Nat)
  | degrMacroFailed (stall : Nat) (cm : Nat) (partner : Nat)
  | degrClear (stall : Nat)
  | rqCompact
  | rqExpand
  | rqMove
  | rqMakeAbsent
  | rqMakeResident
  | rqJobEnd
  | hostMemwr (addr : Nat) (data : List Byte)
  | birsp (region : Nat)
  | regionWindowEnd (region : Nat)
  | hostSnoop (line : Nat) (inval : Bool)
  | gpfPhase1
  | hostHotReset
  | hostLinkDown
  | tableSweep
  | linkRetrained
  | tokenElementAccept (l : Nat) (reads : Nat)
  | commitElementDelivery (l : Nat)
  | ringRecordWrite (l : Nat)
  | freeFaultEntry
  | firmwareRequestPost (v : Nat)
  | openQueues (v : Nat)
  | eventClear (v : Nat)
  | fbstatOverflowClear (v : Nat)
  | suspectClear (n : Nat) (v : Nat)
  | regionEntryWrite (v : Nat)
  | svdataAccess (c : Nat) (wr : Bool) (v : Nat)
  | measurementExtend (v : Nat)
  | hashRegistration (addr : Nat)
  | clockFloorChange (yard : Nat)
  | privCsrWrite (c : Nat) (n : Nat) (v : Nat)
  | eventTimer
  | controlContextEntry
  | quote (data : List Byte)
  | certificate (data : List Byte)
  | writeImageChunk (data : List Byte)
  | commitImage (data : List Byte)
  | advanceSecurityVersion (data : List Byte)
  | readErrorLog (data : List Byte)
  | readHangRecord (data : List Byte)
  | readLostLineRing (data : List Byte)
  | mailboxStandardCommand (opcode : Nat) (data : List Byte)
  | mailboxUnsupported (opcode : Nat)
  | moduleReset
  | memoryTrained
  | trainingFailure (sub : Nat)
  | imageVerify
  | bringupSelfTestDone (failed : Nat)
  | tapldCopyComplete (c : Nat)
  | registrationEnd
  deriving DecidableEq, Repr

end Sys2Proof
end

