-- ==== Sys2Proof/WellFormed.lean ====
section
/-!
DEFINITION. Which instructions an encoding can hold: the limits of R101 to R114 on predicates, registers, formats,
immediates and ports. What depends on the context (its grant, its Stall, the service store) is checked at issue.
-/

namespace Sys2Proof

/-- R75: every predicate field but invert with p0. -/
def predOk (p : BitVec 5) : Bool := p != 16#5

/-- R76, R28: register below 1,536 and direction not 0b11. -/
def vregOk (v : BitVec 13) : Bool := (v.extractLsb' 2 11).toNat < 1536 && v.extractLsb' 0 2 != 3#2

/-- R203: the assigned station ports: source, destination, length, options, the triggers and the status of DX, TX, HX, QX. -/
def portOk (p : BitVec 8) : Bool :=
  let n := (p.extractLsb' 0 5).toNat
  let st := (p.extractLsb' 5 3).toNat
  st < 4 && (n < 4 || n == 0x10 || n == 0x1F || (n == 0x11 && st == 0))

/-- The station at a round position: DX 5, TX 7, HX 11, QX 13 (R19, R203). -/
def stationAt (pos : Nat) : Option Nat :=
  match pos with
  | 5 => some 0
  | 7 => some 1
  | 11 => some 2
  | 13 => some 3
  | _ => none

/-- R114: one end of an XFER: a bay, a Stall port with a row below 1,536, or an assigned station port. -/
def xferEndOk (pos : BitVec 4) (addr : BitVec 12) : Bool :=
  if pos.toNat % 2 = 0 then true
  else if pos.toNat = 1 ∨ pos.toNat = 9 then addr.toNat < 1536
  else
    match stationAt pos.toNat with
    | some st => addr.toNat < 32 && portOk (BitVec.ofNat 8 (32 * st + addr.toNat))
    | none => false

/-- R114, R202: the two ends differ and each is legal. -/
def xferOk (frm dest : BitVec 4) (fromaddr toaddr : BitVec 12) : Bool :=
  frm != dest && xferEndOk frm fromaddr && xferEndOk dest toaddr

/-- R164: the expansion ratio that VUNPK's width allows. -/
def unpackRatio (ew3 : BitVec 3) : Nat :=
  match ew3.toNat with
  | 0 => 8
  | 1 => 4
  | 2 => 2
  | 3 => 4
  | _ => 2

/-- R166: op 7 is illegal, and op 6 with a width other than 0. -/
def patternOk (x : BitVec 5) : Bool :=
  x.extractLsb' 2 3 != 7#3 && (x.extractLsb' 2 3 != 6#3 || x.extractLsb' 0 2 == 0#2)

/-- R37: the CSR numbers of user code that are written as well as read. -/
def csrUserWritable (n : Nat) : Bool := n == 0x020 || n == 0x021 || (0x022 ≤ n && n ≤ 0x029) || n == 0x030

/-- R37: the CSR numbers of user code. -/
def csrUser (n : Nat) : Bool :=
  n ≤ 3 || (0x010 ≤ n && n ≤ 0x012) || csrUserWritable n || n == 0x040 || n == 0x041 || n == 0x050

/-- R412: the privileged CSR numbers (log 107). -/
def csrPriv (n : Nat) : Bool :=
  (0x800 ≤ n && n ≤ 0x803) || n == 0x808 || (0x810 ≤ n && n ≤ 0x817) || (0x820 ≤ n && n ≤ 0x825) ||
  (0x828 ≤ n && n ≤ 0x829) || (0x830 ≤ n && n ≤ 0x836) || (0x840 ≤ n && n ≤ 0x849) || (0x850 ≤ n && n ≤ 0x852) ||
  n == 0x858 || (0x860 ≤ n && n ≤ 0x873) || (0x880 ≤ n && n ≤ 0x883) || (0x890 ≤ n && n ≤ 0x8B1) ||
  (0x8C0 ≤ n && n ≤ 0x8C2)

/-- R412: the privileged CSRs of access write, which no CSRR names. -/
def csrPrivWriteOnly (n : Nat) : Bool :=
  n == 0x808 || n == 0x849 || n == 0x881 || n == 0x882 || n == 0x8B0

/-- R412: the privileged CSRs of access read, which no CSRW names (log 107). -/
def csrPrivReadOnly (n : Nat) : Bool :=
  n == 0x802 || n == 0x803 || n == 0x813 || n == 0x829 || (0x845 ≤ n && n ≤ 0x848) || n == 0x880 ||
  (0x890 ≤ n && n ≤ 0x8AF) || n == 0x8C2


/-- A CSR number a CSRR can name (R37, R103). -/
def csrReadable (n : BitVec 12) : Bool := csrUser n.toNat || (csrPriv n.toNat && !csrPrivWriteOnly n.toNat)

/-- A CSR number a CSRW can name (R37, R103). -/
def csrWritable (n : BitVec 12) : Bool := csrUserWritable n.toNat || (csrPriv n.toNat && !csrPrivReadOnly n.toNat)

/-- The operations of the W and C slots as the decoder hands them on. They are the last constructors of `Instr` that hold
operands, and Lean's runtime cannot build a constructor with operands past number 244; so the machine runs them in this
form, and `XOp.instr` names the instruction each one is. -/
inductive XOp where
  | st (p w : BitVec 5) (vs : BitVec 13) (ks : BitVec 8)
  | str (p : BitVec 5) (bay : BitVec 3) (off : BitVec 12) (lane : BitVec 4) (vs : BitVec 13)
  | stkStream (p w : BitVec 5) (ks : BitVec 8)
  | stkRound (p : BitVec 5) (bay : BitVec 3) (off : BitVec 12) (lane : BitVec 4) (ks : BitVec 8)
  | stsRound (p : BitVec 5) (bay : BitVec 3) (off8 : BitVec 15) (lane : BitVec 4) (a : BitVec 6)
  | stsStream (p w : BitVec 5) (a : BitVec 6)
  | pushVector (p q : BitVec 5) (vs : BitVec 13)
  | pushScalar (p q : BitVec 5) (a : BitVec 6)
  | spill (p : BitVec 5) (tok : BitVec 6) (tile w : BitVec 5)
  | movpRound (p : BitVec 5) (bay : BitVec 3) (off : BitVec 12) (lane : BitVec 4) (port : BitVec 8)
  | movpScalar (p : BitVec 5) (a : BitVec 6) (port : BitVec 8) (lane : BitVec 4)
  | xfer (p : BitVec 5) (frm dest lane : BitVec 4) (fromaddr toaddr : BitVec 12)
  | redsVector (p : BitVec 5) (vs : BitVec 13) (t : BitVec 6) (op : BitVec 3) (ty : BitVec 1) (sem : BitVec 6)
  | redsScalar (p : BitVec 5) (a t : BitVec 6) (op : BitVec 3) (ty : BitVec 1) (sem : BitVec 6)
  | scfgTable (p w : BitVec 5) (entry : BitVec 12)
  | scfgScalar (p w : BitVec 5) (word : BitVec 4) (a : BitVec 6)
  | sadv (p w : BitVec 5) (dim : BitVec 2) (steps : BitVec 16)
  | srst (p w : BitVec 5)
  deriving DecidableEq, Repr

/-- The instruction that an operation of W or C is. -/
noncomputable def XOp.instr : XOp → Instr
  | .st p w vs ks => .st p w vs ks
  | .str p bay off lane vs => .str p bay off lane vs
  | .stkStream p w ks => .stkStream p w ks
  | .stkRound p bay off lane ks => .stkRound p bay off lane ks
  | .stsRound p bay off8 lane a => .stsRound p bay off8 lane a
  | .stsStream p w a => .stsStream p w a
  | .pushVector p q vs => .pushVector p q vs
  | .pushScalar p q a => .pushScalar p q a
  | .spill p tok tile w => .spill p tok tile w
  | .movpRound p bay off lane port => .movpRound p bay off lane port
  | .movpScalar p a port lane => .movpScalar p a port lane
  | .xfer p frm dest lane fromaddr toaddr => .xfer p frm dest lane fromaddr toaddr
  | .redsVector p vs t op ty sem => .redsVector p vs t op ty sem
  | .redsScalar p a t op ty sem => .redsScalar p a t op ty sem
  | .scfgTable p w entry => .scfgTable p w entry
  | .scfgScalar p w word a => .scfgScalar p w word a
  | .sadv p w dim steps => .sadv p w dim steps
  | .srst p w => .srst p w

/-- R101, R113, R114: the field values of a W or C operation are legal. -/
def XOp.wf : XOp → Bool
  | .st p _ vs _ => predOk p && vregOk vs
  | .str p _ _ _ vs => predOk p && vregOk vs
  | .stkStream p _ _ => predOk p
  | .stkRound p _ _ _ _ => predOk p
  | .stsRound p _ _ _ _ => predOk p
  | .stsStream p _ _ => predOk p
  | .pushVector p _ vs => predOk p && vregOk vs
  | .pushScalar p _ _ => predOk p
  | .spill p _ tile _ => predOk p && tile.toNat < 24
  | .movpRound p _ _ _ port => predOk p && portOk port
  | .movpScalar p _ port _ => predOk p && portOk port
  | .xfer p frm dest _ fromaddr toaddr => predOk p && xferOk frm dest fromaddr toaddr
  | .redsVector p vs _ op ty _ => predOk p && vregOk vs && (ty == 0 || op == 3 || op == 4)
  | .redsScalar p _ _ op ty _ => predOk p && (ty == 0 || op == 3 || op == 4)
  | .scfgTable p _ _ => predOk p
  | .scfgScalar p _ word _ => predOk p && word.toNat < 11
  | .sadv p _ _ _ => predOk p
  | .srst p _ => predOk p

/-- R101 to R114: the field values of an instruction are legal. -/
def Instr.wf : Instr → Bool
  | .nop _ => true
  | .bar p _ => p == 0
  | .rdv p _ => p == 0
  | .waitdImm _ _ => true
  | .waitdScalar _ _ => true
  | .fence _ scope => scope.toNat < 10
  | .semsig _ _ _ => true
  | .semsigScalar _ _ _ => true
  | .semwait _ _ _ => true
  | .yield p => p == 0
  | .svc _ _ => true
  | .trap _ _ => true
  | .halt _ => true
  | .probe _ _ _ => true
  | .discard _ _ _ => true
  | .exit _ => true
  | .add p _ _ _ => predOk p
  | .sub p _ _ _ => predOk p
  | .mul p _ _ _ => predOk p
  | .mulh p _ _ _ => predOk p
  | .mulhs p _ _ _ => predOk p
  | .div p _ _ _ => predOk p
  | .divs p _ _ _ => predOk p
  | .rem p _ _ _ => predOk p
  | .and p _ _ _ => predOk p
  | .or p _ _ _ => predOk p
  | .xor p _ _ _ => predOk p
  | .andn p _ _ _ => predOk p
  | .shl p _ _ _ => predOk p
  | .shr p _ _ _ => predOk p
  | .sar p _ _ _ => predOk p
  | .rotl p _ _ _ => predOk p
  | .min p _ _ _ => predOk p
  | .max p _ _ _ => predOk p
  | .mins p _ _ _ => predOk p
  | .maxs p _ _ _ => predOk p
  | .addsh p _ _ _ _ => predOk p
  | .clz p _ _ => predOk p
  | .popc p _ _ => predOk p
  | .sel p _ _ _ _ => predOk p
  | .addi p _ _ psel imm => predOk p && (psel == 0 || imm == 0)
  | .mulImm p _ _ psel imm => predOk p && (psel == 0 || imm == 0)
  | .andImm p _ _ psel imm => predOk p && (psel == 0 || imm == 0)
  | .orImm p _ _ psel imm => predOk p && (psel == 0 || imm == 0)
  | .xorImm p _ _ psel imm => predOk p && (psel == 0 || imm == 0)
  | .shlImm p _ _ psel imm => predOk p && (psel == 0 || imm == 0) && psel == 0 && imm.toNat < 64
  | .shrImm p _ _ psel imm => predOk p && (psel == 0 || imm == 0) && psel == 0 && imm.toNat < 64
  | .sarImm p _ _ psel imm => predOk p && (psel == 0 || imm == 0) && psel == 0 && imm.toNat < 64
  | .rotlImm p _ _ psel imm => predOk p && (psel == 0 || imm == 0) && psel == 0 && imm.toNat < 64
  | .minImm p _ _ psel imm => predOk p && (psel == 0 || imm == 0)
  | .maxImm p _ _ psel imm => predOk p && (psel == 0 || imm == 0)
  | .minsImm p _ _ psel imm => predOk p && (psel == 0 || imm == 0)
  | .maxsImm p _ _ psel imm => predOk p && (psel == 0 || imm == 0)
  | .cmpeq p _ _ _ => predOk p
  | .cmpne p _ _ _ => predOk p
  | .cmplt p _ _ _ => predOk p
  | .cmplts p _ _ _ => predOk p
  | .cmple p _ _ _ => predOk p
  | .cmples p _ _ _ => predOk p
  | .cmpeqImm p _ _ psel imm => predOk p && (psel == 0 || imm == 0)
  | .cmpneImm p _ _ psel imm => predOk p && (psel == 0 || imm == 0)
  | .cmpltImm p _ _ psel imm => predOk p && (psel == 0 || imm == 0)
  | .cmpltsImm p _ _ psel imm => predOk p && (psel == 0 || imm == 0)
  | .cmpleImm p _ _ psel imm => predOk p && (psel == 0 || imm == 0)
  | .cmplesImm p _ _ psel imm => predOk p && (psel == 0 || imm == 0)
  | .li p _ psel imm => predOk p && (psel == 0 || imm == 0)
  | .liLong p _ _ => predOk p
  | .pset p _ _ => predOk p
  | .pand p _ _ _ _ _ => predOk p
  | .por p _ _ _ _ _ => predOk p
  | .pxor p _ _ _ _ _ => predOk p
  | .pnot p _ _ => predOk p
  | .br p _ => predOk p
  | .brScalar p _ => predOk p
  | .bc p _ _ cond _ => predOk p && cond.toNat < 6
  | .call p _ _ => predOk p
  | .ret p _ => predOk p
  | .loopScalar p _ len => predOk p && len != 0
  | .loopNbound p _ len => predOk p && len != 0
  | .loopImm p _ len => predOk p && len != 0
  | .lexit p => predOk p
  | .lidx p _ idx => predOk p && idx.toNat < 6
  | .csrr p _ csr => predOk p && csrReadable csr
  | .csrw p _ csr => predOk p && csrWritable csr
  | .csrwImm p _ csr => predOk p && csrWritable csr
  | .nbnd p _ _ => predOk p
  | .nbndImm p _ _ => predOk p
  | .vadd p vd va vb => predOk p && vregOk vd && vregOk va && vregOk vb
  | .vsub p vd va vb => predOk p && vregOk vd && vregOk va && vregOk vb
  | .vmul p vd va vb => predOk p && vregOk vd && vregOk va && vregOk vb
  | .vmin p vd va vb => predOk p && vregOk vd && vregOk va && vregOk vb
  | .vmax p vd va vb => predOk p && vregOk vd && vregOk va && vregOk vb
  | .vfma p vd va vb vc => predOk p && vregOk vd && vregOk va && vregOk vb && vregOk vc
  | .vfms p vd va vb vc => predOk p && vregOk vd && vregOk va && vregOk vb && vregOk vc
  | .vfnma p vd va vb vc => predOk p && vregOk vd && vregOk va && vregOk vb && vregOk vc
  | .vaddScalar p vd va _ => predOk p && vregOk vd && vregOk va
  | .vsubScalar p vd va _ => predOk p && vregOk vd && vregOk va
  | .vmulScalar p vd va _ => predOk p && vregOk vd && vregOk va
  | .vminScalar p vd va _ => predOk p && vregOk vd && vregOk va
  | .vmaxScalar p vd va _ => predOk p && vregOk vd && vregOk va
  | .vfmaScalar p vd va _ vc => predOk p && vregOk vd && vregOk va && vregOk vc
  | .vfmsScalar p vd va _ vc => predOk p && vregOk vd && vregOk va && vregOk vc
  | .vfnmaScalar p vd va _ vc => predOk p && vregOk vd && vregOk va && vregOk vc
  | .vabs p vd va => predOk p && vregOk vd && vregOk va
  | .vneg p vd va => predOk p && vregOk vd && vregOk va
  | .vrcp p vd va => predOk p && vregOk vd && vregOk va
  | .vrsq p vd va => predOk p && vregOk vd && vregOk va
  | .vexp2 p vd va => predOk p && vregOk vd && vregOk va
  | .vlog2 p vd va => predOk p && vregOk vd && vregOk va
  | .vclamp p vd va _ _ => predOk p && vregOk vd && vregOk va
  | .vsel p vd va vb vc => predOk p && vregOk vd && vregOk va && vregOk vb && vregOk vc
  | .vcmpeqF p vd va vb => predOk p && vregOk vd && vregOk va && vregOk vb
  | .vcmpeqI p vd va vb => predOk p && vregOk vd && vregOk va && vregOk vb
  | .vcmpltF p vd va vb => predOk p && vregOk vd && vregOk va && vregOk vb
  | .vcmpltSi p vd va vb => predOk p && vregOk vd && vregOk va && vregOk vb
  | .vcmpltUi p vd va vb => predOk p && vregOk vd && vregOk va && vregOk vb
  | .vcmpleF p vd va vb => predOk p && vregOk vd && vregOk va && vregOk vb
  | .vcmpleSi p vd va vb => predOk p && vregOk vd && vregOk va && vregOk vb
  | .vcmpleUi p vd va vb => predOk p && vregOk vd && vregOk va && vregOk vb
  | .viaddB p vd va vb => predOk p && vregOk vd && vregOk va && vregOk vb
  | .viaddH p vd va vb => predOk p && vregOk vd && vregOk va && vregOk vb
  | .viaddW p vd va vb => predOk p && vregOk vd && vregOk va && vregOk vb
  | .visubB p vd va vb => predOk p && vregOk vd && vregOk va && vregOk vb
  | .visubH p vd va vb => predOk p && vregOk vd && vregOk va && vregOk vb
  | .visubW p vd va vb => predOk p && vregOk vd && vregOk va && vregOk vb
  | .vimulB p vd va vb => predOk p && vregOk vd && vregOk va && vregOk vb
  | .vimulH p vd va vb => predOk p && vregOk vd && vregOk va && vregOk vb
  | .vimulW p vd va vb => predOk p && vregOk vd && vregOk va && vregOk vb
  | .vimacB p vd va vb vc => predOk p && vregOk vd && vregOk va && vregOk vb && vregOk vc
  | .vimacH p vd va vb vc => predOk p && vregOk vd && vregOk va && vregOk vb && vregOk vc
  | .vimacW p vd va vb vc => predOk p && vregOk vd && vregOk va && vregOk vb && vregOk vc
  | .vand p vd va vb => predOk p && vregOk vd && vregOk va && vregOk vb
  | .vor p vd va vb => predOk p && vregOk vd && vregOk va && vregOk vb
  | .vxor p vd va vb => predOk p && vregOk vd && vregOk va && vregOk vb
  | .vpopc p vd va => predOk p && vregOk vd && vregOk va
  | .viaddBScalar p vd va _ => predOk p && vregOk vd && vregOk va
  | .viaddHScalar p vd va _ => predOk p && vregOk vd && vregOk va
  | .viaddWScalar p vd va _ => predOk p && vregOk vd && vregOk va
  | .visubBScalar p vd va _ => predOk p && vregOk vd && vregOk va
  | .visubHScalar p vd va _ => predOk p && vregOk vd && vregOk va
  | .visubWScalar p vd va _ => predOk p && vregOk vd && vregOk va
  | .vimulBScalar p vd va _ => predOk p && vregOk vd && vregOk va
  | .vimulHScalar p vd va _ => predOk p && vregOk vd && vregOk va
  | .vimulWScalar p vd va _ => predOk p && vregOk vd && vregOk va
  | .vimacBScalar p vd va _ vc => predOk p && vregOk vd && vregOk va && vregOk vc
  | .vimacHScalar p vd va _ vc => predOk p && vregOk vd && vregOk va && vregOk vc
  | .vimacWScalar p vd va _ vc => predOk p && vregOk vd && vregOk va && vregOk vc
  | .vshlB p vd va amt => predOk p && vregOk vd && vregOk va && amt.toNat < 8
  | .vshlH p vd va amt => predOk p && vregOk vd && vregOk va && amt.toNat < 16
  | .vshlW p vd va amt => predOk p && vregOk vd && vregOk va && amt.toNat < 32
  | .vshrB p vd va amt => predOk p && vregOk vd && vregOk va && amt.toNat < 8
  | .vshrH p vd va amt => predOk p && vregOk vd && vregOk va && amt.toNat < 16
  | .vshrW p vd va amt => predOk p && vregOk vd && vregOk va && amt.toNat < 32
  | .vsarB p vd va amt => predOk p && vregOk vd && vregOk va && amt.toNat < 8
  | .vsarH p vd va amt => predOk p && vregOk vd && vregOk va && amt.toNat < 16
  | .vsarW p vd va amt => predOk p && vregOk vd && vregOk va && amt.toNat < 32
  | .vcvt p vd va sfmt dfmt => predOk p && vregOk vd && vregOk va && sfmt.toNat < 28 && dfmt.toNat < 28
  | .vcvtK p vd va sfmt dfmt => predOk p && vregOk vd && vregOk va && sfmt.toNat < 28 && dfmt.toNat < 28
  | .vpack p vd va vb ew3 => predOk p && vregOk vd && vregOk va && vregOk vb && ew3.toNat < 5
  | .vunpk p vd va ew3 part => predOk p && vregOk vd && vregOk va && ew3.toNat < 5 && part.toNat < unpackRatio ew3
  | .vperm p vd va vb => predOk p && vregOk vd && vregOk va && vregOk vb
  | .vshuf p vd va vb pattern => predOk p && vregOk vd && vregOk va && vregOk vb && patternOk pattern
  | .vbcastScalar p vd _ ew => predOk p && vregOk vd && ew.toNat < 3
  | .vbcastElement p vd va idx ew => predOk p && vregOk vd && vregOk va && ew.toNat < 3 && idx.toNat * 2 ^ ew.toNat < 512
  | .vextrImm p _ va idx ew => predOk p && vregOk va && ew.toNat < 3 && idx.toNat * 2 ^ ew.toNat < 512
  | .vextrScalar p _ va _ ew => predOk p && vregOk va && ew.toNat < 3
  | .vinsImm p vd va _ idx ew => predOk p && vregOk vd && vregOk va && ew.toNat < 3 && idx.toNat * 2 ^ ew.toNat < 512
  | .vinsScalar p vd va _ _ ew => predOk p && vregOk vd && vregOk va && ew.toNat < 3
  | .vmov p vd va => predOk p && vregOk vd && vregOk va
  | .vrng p vd _ _ _ _ => predOk p && vregOk vd
  | .vrngF p vd _ _ _ _ => predOk p && vregOk vd
  | .tapp p _ _ va rows => predOk p && vregOk va && va.extractLsb' 0 2 == 0 && rows.toNat < 64
  | .taps p _ _ va rows _ => predOk p && vregOk va && va.extractLsb' 0 2 == 0 && rows.toNat < 64
  | .tapld p _ _ => predOk p
  | .taprd p _ _ _ => predOk p
  | .vredsumF p vd va => predOk p && vregOk vd && vregOk va
  | .vredsumI p vd va => predOk p && vregOk vd && vregOk va
  | .vredmaxF p vd va => predOk p && vregOk vd && vregOk va
  | .vredmaxSi p vd va => predOk p && vregOk vd && vregOk va
  | .vredminF p vd va => predOk p && vregOk vd && vregOk va
  | .vredminSi p vd va => predOk p && vregOk vd && vregOk va
  | .vargmax p vd va => predOk p && vregOk vd && vregOk va
  | .vscanF p vd va => predOk p && vregOk vd && vregOk va
  | .vscanI p vd va => predOk p && vregOk vd && vregOk va
  | .ksetImm p _ _ format block _ => predOk p && format != 0 && block.toNat < 8
  | .ksetScalar p _ _ format block _ => predOk p && format != 0 && block.toNat < 8
  | .kmov p _ _ => predOk p
  | .kmul p _ _ _ => predOk p
  | .kaddeImm p _ _ _ => predOk p
  | .kaddeScalar p _ _ _ => predOk p
  | .kmaxe p _ _ _ => predOk p
  | .kcvtBf16 p _ _ => predOk p
  | .kcvtE8m0 p _ _ => predOk p
  | .kbindTile p tile _ _ block => predOk p && tile.toNat < 24 && block.toNat < 8
  | .kbindBank p _ _ _ _ block => predOk p && block.toNat < 8
  | .kunbindTile p tile => predOk p && tile.toNat < 24
  | .kunbindBank p _ _ => predOk p
  | .krdRow p vd _ => predOk p && vregOk vd
  | .krdScalar p _ _ _ _ => predOk p
  | .kwrRow p _ va => predOk p && vregOk va
  | .kwrScalar p _ _ _ => predOk p
  | .kgen p _ va _ block format => predOk p && vregOk va && block.toNat < 8 && format != 0
  | .mmaL6 p vd _ _ _ _ _ _ sg _ => predOk p && vd.toNat < 1536 && sg == 0
  | .mmaI8 p vd _ _ _ _ _ _ _ _ => predOk p && vd.toNat < 1536
  | .mmaE4m3 p vd _ _ _ _ _ _ sg _ => predOk p && vd.toNat < 1536 && sg == 0
  | .mmaE5m2 p vd _ _ _ _ _ _ sg _ => predOk p && vd.toNat < 1536 && sg == 0
  | .mmaE4e5 p vd _ _ _ _ _ _ sg _ => predOk p && vd.toNat < 1536 && sg == 0
  | .mmaE5e4 p vd _ _ _ _ _ _ sg _ => predOk p && vd.toNat < 1536 && sg == 0
  | .mmaBf16 p vd _ _ _ _ _ _ sg _ => predOk p && vd.toNat < 1536 && sg == 0
  | .mmaFp16 p vd _ _ _ _ _ _ sg _ => predOk p && vd.toNat < 1536 && sg == 0
  | .mmazL6 p vd _ _ _ _ _ _ sg _ => predOk p && vd.toNat < 1536 && sg == 0
  | .mmazI8 p vd _ _ _ _ _ _ _ _ => predOk p && vd.toNat < 1536
  | .mmazE4m3 p vd _ _ _ _ _ _ sg _ => predOk p && vd.toNat < 1536 && sg == 0
  | .mmazE5m2 p vd _ _ _ _ _ _ sg _ => predOk p && vd.toNat < 1536 && sg == 0
  | .mmazE4e5 p vd _ _ _ _ _ _ sg _ => predOk p && vd.toNat < 1536 && sg == 0
  | .mmazE5e4 p vd _ _ _ _ _ _ sg _ => predOk p && vd.toNat < 1536 && sg == 0
  | .mmazBf16 p vd _ _ _ _ _ _ sg _ => predOk p && vd.toNat < 1536 && sg == 0
  | .mmazFp16 p vd _ _ _ _ _ _ sg _ => predOk p && vd.toNat < 1536 && sg == 0
  | .mxhint p _ => predOk p
  | .cmode p _ _ => predOk p
  | .cloadRow p vs _ _ wfmt => predOk p && vregOk vs && wfmt.toNat < 16
  | .cloadRound p _ _ _ _ _ wfmt => predOk p && wfmt.toNat < 16
  | .cswap p _ => predOk p
  | .cmacRow p _ va _ _ wacc => predOk p && vregOk va && wacc.toNat < 21
  | .cmacRound p _ _ _ _ _ _ wacc => predOk p && wacc.toNat < 21
  | .cread p vd _ _ => predOk p && vregOk vd
  | .creadK p vd _ _ => predOk p && vregOk vd
  | .cclr p _ => predOk p
  | .cchk p _ _ => predOk p
  | .ld p vd _ _ _ => predOk p && vregOk vd
  | .ldr p vd _ _ _ => predOk p && vregOk vd
  | .ldkStream p _ _ _ => predOk p
  | .ldkRound p _ _ _ _ => predOk p
  | .ldsRound p _ _ _ _ => predOk p
  | .ldsStream p _ _ _ => predOk p
  | .popVector p vd _ _ => predOk p && vregOk vd
  | .popScalar p _ _ _ => predOk p
  | .fill p _ tile _ => predOk p && tile.toNat < 24
  | .st p w vs ks => XOp.wf (.st p w vs ks)
  | .str p bay off lane vs => XOp.wf (.str p bay off lane vs)
  | .stkStream p w ks => XOp.wf (.stkStream p w ks)
  | .stkRound p bay off lane ks => XOp.wf (.stkRound p bay off lane ks)
  | .stsRound p bay off8 lane a => XOp.wf (.stsRound p bay off8 lane a)
  | .stsStream p w a => XOp.wf (.stsStream p w a)
  | .pushVector p q vs => XOp.wf (.pushVector p q vs)
  | .pushScalar p q a => XOp.wf (.pushScalar p q a)
  | .spill p tok tile w => XOp.wf (.spill p tok tile w)
  | .movpRound p bay off lane port => XOp.wf (.movpRound p bay off lane port)
  | .movpScalar p a port lane => XOp.wf (.movpScalar p a port lane)
  | .xfer p frm dest lane fromaddr toaddr => XOp.wf (.xfer p frm dest lane fromaddr toaddr)
  | .redsVector p vs t op ty sem => XOp.wf (.redsVector p vs t op ty sem)
  | .redsScalar p a t op ty sem => XOp.wf (.redsScalar p a t op ty sem)
  | .scfgTable p w entry => XOp.wf (.scfgTable p w entry)
  | .scfgScalar p w word a => XOp.wf (.scfgScalar p w word a)
  | .sadv p w dim steps => XOp.wf (.sadv p w dim steps)
  | .srst p w => XOp.wf (.srst p w)
  | .yardCycle => true
  | .rewindRestore _ => true
  | .segmentEntry _ => true
  | .yieldBundle _ => true
  | .deadlineExpiry _ => true
  | .checkRetest _ => true
  | .offdieLoadLanding _ _ => true
  | .offcoreAccessPerform _ _ => true
  | .pushAccepted _ _ => true
  | .tokenComplete _ _ => true
  | .probeAnswer _ _ => true
  | .rendezvousRelease _ _ => true
  | .barrierRelease _ _ _ => true
  | .redsApply _ => true
  | .mxwinWrite _ _ => true
  | .mxwinTakesEffect _ => true
  | .dxBackref _ => true
  | .dxCopy _ => true
  | .txTranspose _ => true
  | .hxSha256 _ => true
  | .qxConvert _ => true
  | .stationJobEnd _ _ => true
  | .arrayCold _ => true
  | .shadowFillAccept _ _ => true
  | .shadowFillEnd _ _ => true
  | .hangTimeout _ => true
  | .hostWrite _ _ => true
  | .hostRead _ _ _ => true
  | .queueResume _ _ => true
  | .queueEnd _ _ => true
  | .queueCancel _ _ => true
  | .placementDecision => true
  | .launchRunStart _ => true
  | .contextRelease _ => true
  | .launchCompletion _ => true
  | .swapOut _ _ => true
  | .swapOutSave _ _ => true
  | .dramMeterWindow _ => true
  | .auditVerdict _ _ _ => true
  | .scrubPass => true
  | .sieveAgeing => true
  | .linkCrcError _ _ _ => true
  | .repairRequest _ => true
  | .repairCopy => true
  | .yardLost _ _ => true
  | .thermalTrip _ => true
  | .yardActivate _ _ => true
  | .yardDeclareLost _ => true
  | .yardSelfTestDone _ _ => true
  | .degrArrayFailed _ => true
  | .degrMacroFailed _ _ _ => true
  | .degrClear _ => true
  | .rqCompact => true
  | .rqExpand => true
  | .rqMove => true
  | .rqMakeAbsent => true
  | .rqMakeResident => true
  | .rqJobEnd => true
  | .hostMemwr _ _ => true
  | .birsp _ => true
  | .regionWindowEnd _ => true
  | .hostSnoop _ _ => true
  | .gpfPhase1 => true
  | .hostHotReset => true
  | .hostLinkDown => true
  | .tableSweep => true
  | .linkRetrained => true
  | .tokenElementAccept _ _ => true
  | .commitElementDelivery _ => true
  | .ringRecordWrite _ => true
  | .freeFaultEntry => true
  | .firmwareRequestPost _ => true
  | .openQueues _ => true
  | .eventClear _ => true
  | .fbstatOverflowClear _ => true
  | .suspectClear _ _ => true
  | .regionEntryWrite _ => true
  | .svdataAccess _ _ _ => true
  | .measurementExtend _ => true
  | .hashRegistration _ => true
  | .clockFloorChange _ => true
  | .privCsrWrite _ _ _ => true
  | .eventTimer => true
  | .controlContextEntry => true
  | .quote _ => true
  | .certificate _ => true
  | .writeImageChunk _ => true
  | .commitImage _ => true
  | .advanceSecurityVersion _ => true
  | .readErrorLog _ => true
  | .readHangRecord _ => true
  | .readLostLineRing _ => true
  | .mailboxStandardCommand _ _ => true
  | .mailboxUnsupported _ => true
  | .moduleReset => true
  | .memoryTrained => true
  | .trainingFailure _ => true
  | .imageVerify => true
  | .bringupSelfTestDone _ => true
  | .tapldCopyComplete _ => true
  | .registrationEnd => true

end Sys2Proof
end

