-- ==== Sys2Proof/Decode.lean ====
section
/-!
DEFINITION. The decoder of slot fields and bundles (R72 to R75, R100 to R114), total on any bits and rejecting by name,
and after it the encoder, written from the same forms.
-/

namespace Sys2Proof

/-- Why bits are not an instruction (R94, R100, R101). -/
inductive Reject where
  | unassignedOpcode
  | vaOnly
  | reservedBits
  | illegalField
  deriving DecidableEq, Repr

/-- The seven slot maps (R100); VA and VB share one. -/
inductive SlotMap where
  | s
  | v
  | m
  | l
  | w
  | c
  | y
  deriving DecidableEq, Repr

/-- An encoded slot operation: its map, its field in the low bits, and the surrendered field that LI long extends (R106). -/
structure Encoded where
  map : SlotMap
  field : BitVec 64
  ext : BitVec 64
  deriving DecidableEq, Repr

/-- The S codes (R104 to R106); `ext` is the VA field, which LI long extends. -/
def rawS (x : BitVec 48) (ext : BitVec 64) : Option Instr :=
  match (x.extractLsb' 41 7).toNat with
  | 0x00 => some (.add (x.extractLsb' 36 5) (x.extractLsb' 30 6) (x.extractLsb' 24 6) (x.extractLsb' 18 6))
  | 0x01 => some (.sub (x.extractLsb' 36 5) (x.extractLsb' 30 6) (x.extractLsb' 24 6) (x.extractLsb' 18 6))
  | 0x02 => some (.mul (x.extractLsb' 36 5) (x.extractLsb' 30 6) (x.extractLsb' 24 6) (x.extractLsb' 18 6))
  | 0x03 => some (.mulh (x.extractLsb' 36 5) (x.extractLsb' 30 6) (x.extractLsb' 24 6) (x.extractLsb' 18 6))
  | 0x04 => some (.mulhs (x.extractLsb' 36 5) (x.extractLsb' 30 6) (x.extractLsb' 24 6) (x.extractLsb' 18 6))
  | 0x05 => some (.div (x.extractLsb' 36 5) (x.extractLsb' 30 6) (x.extractLsb' 24 6) (x.extractLsb' 18 6))
  | 0x06 => some (.divs (x.extractLsb' 36 5) (x.extractLsb' 30 6) (x.extractLsb' 24 6) (x.extractLsb' 18 6))
  | 0x07 => some (.rem (x.extractLsb' 36 5) (x.extractLsb' 30 6) (x.extractLsb' 24 6) (x.extractLsb' 18 6))
  | 0x08 => some (.and (x.extractLsb' 36 5) (x.extractLsb' 30 6) (x.extractLsb' 24 6) (x.extractLsb' 18 6))
  | 0x09 => some (.or (x.extractLsb' 36 5) (x.extractLsb' 30 6) (x.extractLsb' 24 6) (x.extractLsb' 18 6))
  | 0x0A => some (.xor (x.extractLsb' 36 5) (x.extractLsb' 30 6) (x.extractLsb' 24 6) (x.extractLsb' 18 6))
  | 0x0B => some (.andn (x.extractLsb' 36 5) (x.extractLsb' 30 6) (x.extractLsb' 24 6) (x.extractLsb' 18 6))
  | 0x0C => some (.shl (x.extractLsb' 36 5) (x.extractLsb' 30 6) (x.extractLsb' 24 6) (x.extractLsb' 18 6))
  | 0x0D => some (.shr (x.extractLsb' 36 5) (x.extractLsb' 30 6) (x.extractLsb' 24 6) (x.extractLsb' 18 6))
  | 0x0E => some (.sar (x.extractLsb' 36 5) (x.extractLsb' 30 6) (x.extractLsb' 24 6) (x.extractLsb' 18 6))
  | 0x0F => some (.rotl (x.extractLsb' 36 5) (x.extractLsb' 30 6) (x.extractLsb' 24 6) (x.extractLsb' 18 6))
  | 0x10 => some (.min (x.extractLsb' 36 5) (x.extractLsb' 30 6) (x.extractLsb' 24 6) (x.extractLsb' 18 6))
  | 0x11 => some (.max (x.extractLsb' 36 5) (x.extractLsb' 30 6) (x.extractLsb' 24 6) (x.extractLsb' 18 6))
  | 0x12 => some (.mins (x.extractLsb' 36 5) (x.extractLsb' 30 6) (x.extractLsb' 24 6) (x.extractLsb' 18 6))
  | 0x13 => some (.maxs (x.extractLsb' 36 5) (x.extractLsb' 30 6) (x.extractLsb' 24 6) (x.extractLsb' 18 6))
  | 0x14 => some (.addsh (x.extractLsb' 36 5) (x.extractLsb' 30 6) (x.extractLsb' 24 6) (x.extractLsb' 18 6) (x.extractLsb' 15 3))
  | 0x15 => some (.clz (x.extractLsb' 36 5) (x.extractLsb' 30 6) (x.extractLsb' 24 6))
  | 0x16 => some (.popc (x.extractLsb' 36 5) (x.extractLsb' 30 6) (x.extractLsb' 24 6))
  | 0x17 => some (.sel (x.extractLsb' 36 5) (x.extractLsb' 30 6) (x.extractLsb' 24 6) (x.extractLsb' 18 6) (x.extractLsb' 14 4))
  | 0x20 => some (.addi (x.extractLsb' 36 5) (x.extractLsb' 30 6) (x.extractLsb' 24 6) (x.extractLsb' 22 2) (x.extractLsb' 0 22))
  | 0x22 => some (.mulImm (x.extractLsb' 36 5) (x.extractLsb' 30 6) (x.extractLsb' 24 6) (x.extractLsb' 22 2) (x.extractLsb' 0 22))
  | 0x28 => some (.andImm (x.extractLsb' 36 5) (x.extractLsb' 30 6) (x.extractLsb' 24 6) (x.extractLsb' 22 2) (x.extractLsb' 0 22))
  | 0x29 => some (.orImm (x.extractLsb' 36 5) (x.extractLsb' 30 6) (x.extractLsb' 24 6) (x.extractLsb' 22 2) (x.extractLsb' 0 22))
  | 0x2A => some (.xorImm (x.extractLsb' 36 5) (x.extractLsb' 30 6) (x.extractLsb' 24 6) (x.extractLsb' 22 2) (x.extractLsb' 0 22))
  | 0x2C => some (.shlImm (x.extractLsb' 36 5) (x.extractLsb' 30 6) (x.extractLsb' 24 6) (x.extractLsb' 22 2) (x.extractLsb' 0 22))
  | 0x2D => some (.shrImm (x.extractLsb' 36 5) (x.extractLsb' 30 6) (x.extractLsb' 24 6) (x.extractLsb' 22 2) (x.extractLsb' 0 22))
  | 0x2E => some (.sarImm (x.extractLsb' 36 5) (x.extractLsb' 30 6) (x.extractLsb' 24 6) (x.extractLsb' 22 2) (x.extractLsb' 0 22))
  | 0x2F => some (.rotlImm (x.extractLsb' 36 5) (x.extractLsb' 30 6) (x.extractLsb' 24 6) (x.extractLsb' 22 2) (x.extractLsb' 0 22))
  | 0x30 => some (.minImm (x.extractLsb' 36 5) (x.extractLsb' 30 6) (x.extractLsb' 24 6) (x.extractLsb' 22 2) (x.extractLsb' 0 22))
  | 0x31 => some (.maxImm (x.extractLsb' 36 5) (x.extractLsb' 30 6) (x.extractLsb' 24 6) (x.extractLsb' 22 2) (x.extractLsb' 0 22))
  | 0x32 => some (.minsImm (x.extractLsb' 36 5) (x.extractLsb' 30 6) (x.extractLsb' 24 6) (x.extractLsb' 22 2) (x.extractLsb' 0 22))
  | 0x33 => some (.maxsImm (x.extractLsb' 36 5) (x.extractLsb' 30 6) (x.extractLsb' 24 6) (x.extractLsb' 22 2) (x.extractLsb' 0 22))
  | 0x40 => some (.cmpeq (x.extractLsb' 36 5) (x.extractLsb' 32 4) (x.extractLsb' 24 6) (x.extractLsb' 18 6))
  | 0x41 => some (.cmpne (x.extractLsb' 36 5) (x.extractLsb' 32 4) (x.extractLsb' 24 6) (x.extractLsb' 18 6))
  | 0x42 => some (.cmplt (x.extractLsb' 36 5) (x.extractLsb' 32 4) (x.extractLsb' 24 6) (x.extractLsb' 18 6))
  | 0x43 => some (.cmplts (x.extractLsb' 36 5) (x.extractLsb' 32 4) (x.extractLsb' 24 6) (x.extractLsb' 18 6))
  | 0x44 => some (.cmple (x.extractLsb' 36 5) (x.extractLsb' 32 4) (x.extractLsb' 24 6) (x.extractLsb' 18 6))
  | 0x45 => some (.cmples (x.extractLsb' 36 5) (x.extractLsb' 32 4) (x.extractLsb' 24 6) (x.extractLsb' 18 6))
  | 0x48 => some (.cmpeqImm (x.extractLsb' 36 5) (x.extractLsb' 32 4) (x.extractLsb' 24 6) (x.extractLsb' 22 2) (x.extractLsb' 0 22))
  | 0x49 => some (.cmpneImm (x.extractLsb' 36 5) (x.extractLsb' 32 4) (x.extractLsb' 24 6) (x.extractLsb' 22 2) (x.extractLsb' 0 22))
  | 0x4A => some (.cmpltImm (x.extractLsb' 36 5) (x.extractLsb' 32 4) (x.extractLsb' 24 6) (x.extractLsb' 22 2) (x.extractLsb' 0 22))
  | 0x4B => some (.cmpltsImm (x.extractLsb' 36 5) (x.extractLsb' 32 4) (x.extractLsb' 24 6) (x.extractLsb' 22 2) (x.extractLsb' 0 22))
  | 0x4C => some (.cmpleImm (x.extractLsb' 36 5) (x.extractLsb' 32 4) (x.extractLsb' 24 6) (x.extractLsb' 22 2) (x.extractLsb' 0 22))
  | 0x4D => some (.cmplesImm (x.extractLsb' 36 5) (x.extractLsb' 32 4) (x.extractLsb' 24 6) (x.extractLsb' 22 2) (x.extractLsb' 0 22))
  | 0x50 => some (.li (x.extractLsb' 36 5) (x.extractLsb' 30 6) (x.extractLsb' 28 2) (x.extractLsb' 0 28))
  | 0x51 => some (.liLong (x.extractLsb' 36 5) (x.extractLsb' 30 6) (ext.extractLsb' 0 34 ++ x.extractLsb' 0 30))
  | 0x54 => some (.pset (x.extractLsb' 36 5) (x.extractLsb' 32 4) (x.extractLsb' 24 6))
  | 0x55 => some (.pand (x.extractLsb' 36 5) (x.extractLsb' 32 4) (x.extractLsb' 28 4) (x.extractLsb' 24 4) (x.extractLsb' 23 1) (x.extractLsb' 22 1))
  | 0x56 => some (.por (x.extractLsb' 36 5) (x.extractLsb' 32 4) (x.extractLsb' 28 4) (x.extractLsb' 24 4) (x.extractLsb' 23 1) (x.extractLsb' 22 1))
  | 0x57 => some (.pxor (x.extractLsb' 36 5) (x.extractLsb' 32 4) (x.extractLsb' 28 4) (x.extractLsb' 24 4) (x.extractLsb' 23 1) (x.extractLsb' 22 1))
  | 0x58 => some (.pnot (x.extractLsb' 36 5) (x.extractLsb' 32 4) (x.extractLsb' 28 4))
  | 0x60 => some (.br (x.extractLsb' 36 5) (x.extractLsb' 0 12))
  | 0x61 => some (.brScalar (x.extractLsb' 36 5) (x.extractLsb' 24 6))
  | 0x62 => some (.bc (x.extractLsb' 36 5) (x.extractLsb' 24 6) (x.extractLsb' 18 6) (x.extractLsb' 15 3) (x.extractLsb' 0 12))
  | 0x63 => some (.call (x.extractLsb' 36 5) (x.extractLsb' 30 6) (x.extractLsb' 0 12))
  | 0x64 => some (.ret (x.extractLsb' 36 5) (x.extractLsb' 24 6))
  | 0x65 => some (.loopScalar (x.extractLsb' 36 5) (x.extractLsb' 24 6) (x.extractLsb' 0 12))
  | 0x66 => some (.loopNbound (x.extractLsb' 36 5) (x.extractLsb' 26 4) (x.extractLsb' 0 12))
  | 0x67 => some (.loopImm (x.extractLsb' 36 5) (x.extractLsb' 12 16) (x.extractLsb' 0 12))
  | 0x68 => some (.lexit (x.extractLsb' 36 5))
  | 0x69 => some (.lidx (x.extractLsb' 36 5) (x.extractLsb' 30 6) (x.extractLsb' 0 3))
  | 0x70 => some (.csrr (x.extractLsb' 36 5) (x.extractLsb' 30 6) (x.extractLsb' 0 12))
  | 0x71 => some (.csrw (x.extractLsb' 36 5) (x.extractLsb' 24 6) (x.extractLsb' 0 12))
  | 0x72 => some (.csrwImm (x.extractLsb' 36 5) (x.extractLsb' 12 16) (x.extractLsb' 0 12))
  | 0x73 => some (.nbnd (x.extractLsb' 36 5) (x.extractLsb' 32 4) (x.extractLsb' 24 6))
  | 0x74 => some (.nbndImm (x.extractLsb' 36 5) (x.extractLsb' 32 4) (x.extractLsb' 0 32))
  | _ => none

/-- The VA and VB codes (R108, R109). -/
def rawV (x : BitVec 64) : Option Instr :=
  match (x.extractLsb' 57 7).toNat with
  | 0x00 => some (.vadd (x.extractLsb' 52 5) (x.extractLsb' 39 13) (x.extractLsb' 26 13) (x.extractLsb' 13 13))
  | 0x01 => some (.vsub (x.extractLsb' 52 5) (x.extractLsb' 39 13) (x.extractLsb' 26 13) (x.extractLsb' 13 13))
  | 0x02 => some (.vmul (x.extractLsb' 52 5) (x.extractLsb' 39 13) (x.extractLsb' 26 13) (x.extractLsb' 13 13))
  | 0x03 => some (.vmin (x.extractLsb' 52 5) (x.extractLsb' 39 13) (x.extractLsb' 26 13) (x.extractLsb' 13 13))
  | 0x04 => some (.vmax (x.extractLsb' 52 5) (x.extractLsb' 39 13) (x.extractLsb' 26 13) (x.extractLsb' 13 13))
  | 0x05 => some (.vfma (x.extractLsb' 52 5) (x.extractLsb' 39 13) (x.extractLsb' 26 13) (x.extractLsb' 13 13) (x.extractLsb' 0 13))
  | 0x06 => some (.vfms (x.extractLsb' 52 5) (x.extractLsb' 39 13) (x.extractLsb' 26 13) (x.extractLsb' 13 13) (x.extractLsb' 0 13))
  | 0x07 => some (.vfnma (x.extractLsb' 52 5) (x.extractLsb' 39 13) (x.extractLsb' 26 13) (x.extractLsb' 13 13) (x.extractLsb' 0 13))
  | 0x08 => some (.vaddScalar (x.extractLsb' 52 5) (x.extractLsb' 39 13) (x.extractLsb' 26 13) (x.extractLsb' 20 6))
  | 0x09 => some (.vsubScalar (x.extractLsb' 52 5) (x.extractLsb' 39 13) (x.extractLsb' 26 13) (x.extractLsb' 20 6))
  | 0x0A => some (.vmulScalar (x.extractLsb' 52 5) (x.extractLsb' 39 13) (x.extractLsb' 26 13) (x.extractLsb' 20 6))
  | 0x0B => some (.vminScalar (x.extractLsb' 52 5) (x.extractLsb' 39 13) (x.extractLsb' 26 13) (x.extractLsb' 20 6))
  | 0x0C => some (.vmaxScalar (x.extractLsb' 52 5) (x.extractLsb' 39 13) (x.extractLsb' 26 13) (x.extractLsb' 20 6))
  | 0x0D => some (.vfmaScalar (x.extractLsb' 52 5) (x.extractLsb' 39 13) (x.extractLsb' 26 13) (x.extractLsb' 20 6) (x.extractLsb' 7 13))
  | 0x0E => some (.vfmsScalar (x.extractLsb' 52 5) (x.extractLsb' 39 13) (x.extractLsb' 26 13) (x.extractLsb' 20 6) (x.extractLsb' 7 13))
  | 0x0F => some (.vfnmaScalar (x.extractLsb' 52 5) (x.extractLsb' 39 13) (x.extractLsb' 26 13) (x.extractLsb' 20 6) (x.extractLsb' 7 13))
  | 0x10 => some (.vabs (x.extractLsb' 52 5) (x.extractLsb' 39 13) (x.extractLsb' 26 13))
  | 0x11 => some (.vneg (x.extractLsb' 52 5) (x.extractLsb' 39 13) (x.extractLsb' 26 13))
  | 0x12 => some (.vrcp (x.extractLsb' 52 5) (x.extractLsb' 39 13) (x.extractLsb' 26 13))
  | 0x13 => some (.vrsq (x.extractLsb' 52 5) (x.extractLsb' 39 13) (x.extractLsb' 26 13))
  | 0x14 => some (.vexp2 (x.extractLsb' 52 5) (x.extractLsb' 39 13) (x.extractLsb' 26 13))
  | 0x15 => some (.vlog2 (x.extractLsb' 52 5) (x.extractLsb' 39 13) (x.extractLsb' 26 13))
  | 0x16 => some (.vclamp (x.extractLsb' 52 5) (x.extractLsb' 39 13) (x.extractLsb' 26 13) (x.extractLsb' 20 6) (x.extractLsb' 14 6))
  | 0x17 => some (.vsel (x.extractLsb' 52 5) (x.extractLsb' 39 13) (x.extractLsb' 26 13) (x.extractLsb' 13 13) (x.extractLsb' 0 13))
  | 0x18 => some (.vcmpeqF (x.extractLsb' 52 5) (x.extractLsb' 39 13) (x.extractLsb' 26 13) (x.extractLsb' 13 13))
  | 0x19 => some (.vcmpeqI (x.extractLsb' 52 5) (x.extractLsb' 39 13) (x.extractLsb' 26 13) (x.extractLsb' 13 13))
  | 0x1A => some (.vcmpltF (x.extractLsb' 52 5) (x.extractLsb' 39 13) (x.extractLsb' 26 13) (x.extractLsb' 13 13))
  | 0x1B => some (.vcmpltSi (x.extractLsb' 52 5) (x.extractLsb' 39 13) (x.extractLsb' 26 13) (x.extractLsb' 13 13))
  | 0x1C => some (.vcmpltUi (x.extractLsb' 52 5) (x.extractLsb' 39 13) (x.extractLsb' 26 13) (x.extractLsb' 13 13))
  | 0x1D => some (.vcmpleF (x.extractLsb' 52 5) (x.extractLsb' 39 13) (x.extractLsb' 26 13) (x.extractLsb' 13 13))
  | 0x1E => some (.vcmpleSi (x.extractLsb' 52 5) (x.extractLsb' 39 13) (x.extractLsb' 26 13) (x.extractLsb' 13 13))
  | 0x1F => some (.vcmpleUi (x.extractLsb' 52 5) (x.extractLsb' 39 13) (x.extractLsb' 26 13) (x.extractLsb' 13 13))
  | 0x20 => some (.viaddB (x.extractLsb' 52 5) (x.extractLsb' 39 13) (x.extractLsb' 26 13) (x.extractLsb' 13 13))
  | 0x21 => some (.viaddH (x.extractLsb' 52 5) (x.extractLsb' 39 13) (x.extractLsb' 26 13) (x.extractLsb' 13 13))
  | 0x22 => some (.viaddW (x.extractLsb' 52 5) (x.extractLsb' 39 13) (x.extractLsb' 26 13) (x.extractLsb' 13 13))
  | 0x23 => some (.visubB (x.extractLsb' 52 5) (x.extractLsb' 39 13) (x.extractLsb' 26 13) (x.extractLsb' 13 13))
  | 0x24 => some (.visubH (x.extractLsb' 52 5) (x.extractLsb' 39 13) (x.extractLsb' 26 13) (x.extractLsb' 13 13))
  | 0x25 => some (.visubW (x.extractLsb' 52 5) (x.extractLsb' 39 13) (x.extractLsb' 26 13) (x.extractLsb' 13 13))
  | 0x26 => some (.vimulB (x.extractLsb' 52 5) (x.extractLsb' 39 13) (x.extractLsb' 26 13) (x.extractLsb' 13 13))
  | 0x27 => some (.vimulH (x.extractLsb' 52 5) (x.extractLsb' 39 13) (x.extractLsb' 26 13) (x.extractLsb' 13 13))
  | 0x28 => some (.vimulW (x.extractLsb' 52 5) (x.extractLsb' 39 13) (x.extractLsb' 26 13) (x.extractLsb' 13 13))
  | 0x29 => some (.vimacB (x.extractLsb' 52 5) (x.extractLsb' 39 13) (x.extractLsb' 26 13) (x.extractLsb' 13 13) (x.extractLsb' 0 13))
  | 0x2A => some (.vimacH (x.extractLsb' 52 5) (x.extractLsb' 39 13) (x.extractLsb' 26 13) (x.extractLsb' 13 13) (x.extractLsb' 0 13))
  | 0x2B => some (.vimacW (x.extractLsb' 52 5) (x.extractLsb' 39 13) (x.extractLsb' 26 13) (x.extractLsb' 13 13) (x.extractLsb' 0 13))
  | 0x2C => some (.vand (x.extractLsb' 52 5) (x.extractLsb' 39 13) (x.extractLsb' 26 13) (x.extractLsb' 13 13))
  | 0x2D => some (.vor (x.extractLsb' 52 5) (x.extractLsb' 39 13) (x.extractLsb' 26 13) (x.extractLsb' 13 13))
  | 0x2E => some (.vxor (x.extractLsb' 52 5) (x.extractLsb' 39 13) (x.extractLsb' 26 13) (x.extractLsb' 13 13))
  | 0x2F => some (.vpopc (x.extractLsb' 52 5) (x.extractLsb' 39 13) (x.extractLsb' 26 13))
  | 0x30 => some (.viaddBScalar (x.extractLsb' 52 5) (x.extractLsb' 39 13) (x.extractLsb' 26 13) (x.extractLsb' 20 6))
  | 0x31 => some (.viaddHScalar (x.extractLsb' 52 5) (x.extractLsb' 39 13) (x.extractLsb' 26 13) (x.extractLsb' 20 6))
  | 0x32 => some (.viaddWScalar (x.extractLsb' 52 5) (x.extractLsb' 39 13) (x.extractLsb' 26 13) (x.extractLsb' 20 6))
  | 0x33 => some (.visubBScalar (x.extractLsb' 52 5) (x.extractLsb' 39 13) (x.extractLsb' 26 13) (x.extractLsb' 20 6))
  | 0x34 => some (.visubHScalar (x.extractLsb' 52 5) (x.extractLsb' 39 13) (x.extractLsb' 26 13) (x.extractLsb' 20 6))
  | 0x35 => some (.visubWScalar (x.extractLsb' 52 5) (x.extractLsb' 39 13) (x.extractLsb' 26 13) (x.extractLsb' 20 6))
  | 0x36 => some (.vimulBScalar (x.extractLsb' 52 5) (x.extractLsb' 39 13) (x.extractLsb' 26 13) (x.extractLsb' 20 6))
  | 0x37 => some (.vimulHScalar (x.extractLsb' 52 5) (x.extractLsb' 39 13) (x.extractLsb' 26 13) (x.extractLsb' 20 6))
  | 0x38 => some (.vimulWScalar (x.extractLsb' 52 5) (x.extractLsb' 39 13) (x.extractLsb' 26 13) (x.extractLsb' 20 6))
  | 0x39 => some (.vimacBScalar (x.extractLsb' 52 5) (x.extractLsb' 39 13) (x.extractLsb' 26 13) (x.extractLsb' 20 6) (x.extractLsb' 7 13))
  | 0x3A => some (.vimacHScalar (x.extractLsb' 52 5) (x.extractLsb' 39 13) (x.extractLsb' 26 13) (x.extractLsb' 20 6) (x.extractLsb' 7 13))
  | 0x3B => some (.vimacWScalar (x.extractLsb' 52 5) (x.extractLsb' 39 13) (x.extractLsb' 26 13) (x.extractLsb' 20 6) (x.extractLsb' 7 13))
  | 0x40 => some (.vshlB (x.extractLsb' 52 5) (x.extractLsb' 39 13) (x.extractLsb' 26 13) (x.extractLsb' 21 5))
  | 0x41 => some (.vshlH (x.extractLsb' 52 5) (x.extractLsb' 39 13) (x.extractLsb' 26 13) (x.extractLsb' 21 5))
  | 0x42 => some (.vshlW (x.extractLsb' 52 5) (x.extractLsb' 39 13) (x.extractLsb' 26 13) (x.extractLsb' 21 5))
  | 0x43 => some (.vshrB (x.extractLsb' 52 5) (x.extractLsb' 39 13) (x.extractLsb' 26 13) (x.extractLsb' 21 5))
  | 0x44 => some (.vshrH (x.extractLsb' 52 5) (x.extractLsb' 39 13) (x.extractLsb' 26 13) (x.extractLsb' 21 5))
  | 0x45 => some (.vshrW (x.extractLsb' 52 5) (x.extractLsb' 39 13) (x.extractLsb' 26 13) (x.extractLsb' 21 5))
  | 0x46 => some (.vsarB (x.extractLsb' 52 5) (x.extractLsb' 39 13) (x.extractLsb' 26 13) (x.extractLsb' 21 5))
  | 0x47 => some (.vsarH (x.extractLsb' 52 5) (x.extractLsb' 39 13) (x.extractLsb' 26 13) (x.extractLsb' 21 5))
  | 0x48 => some (.vsarW (x.extractLsb' 52 5) (x.extractLsb' 39 13) (x.extractLsb' 26 13) (x.extractLsb' 21 5))
  | 0x49 => some (.vcvt (x.extractLsb' 52 5) (x.extractLsb' 39 13) (x.extractLsb' 26 13) (x.extractLsb' 21 5) (x.extractLsb' 16 5))
  | 0x4A => some (.vcvtK (x.extractLsb' 52 5) (x.extractLsb' 39 13) (x.extractLsb' 26 13) (x.extractLsb' 21 5) (x.extractLsb' 16 5))
  | 0x4B => some (.vpack (x.extractLsb' 52 5) (x.extractLsb' 39 13) (x.extractLsb' 26 13) (x.extractLsb' 13 13) (x.extractLsb' 10 3))
  | 0x4C => some (.vunpk (x.extractLsb' 52 5) (x.extractLsb' 39 13) (x.extractLsb' 26 13) (x.extractLsb' 23 3) (x.extractLsb' 19 4))
  | 0x50 => some (.vperm (x.extractLsb' 52 5) (x.extractLsb' 39 13) (x.extractLsb' 26 13) (x.extractLsb' 13 13))
  | 0x51 => some (.vshuf (x.extractLsb' 52 5) (x.extractLsb' 39 13) (x.extractLsb' 26 13) (x.extractLsb' 13 13) (x.extractLsb' 8 5))
  | 0x52 => some (.vbcastScalar (x.extractLsb' 52 5) (x.extractLsb' 39 13) (x.extractLsb' 33 6) (x.extractLsb' 31 2))
  | 0x53 => some (.vbcastElement (x.extractLsb' 52 5) (x.extractLsb' 39 13) (x.extractLsb' 26 13) (x.extractLsb' 17 9) (x.extractLsb' 15 2))
  | 0x54 => some (.vextrImm (x.extractLsb' 52 5) (x.extractLsb' 46 6) (x.extractLsb' 33 13) (x.extractLsb' 24 9) (x.extractLsb' 22 2))
  | 0x55 => some (.vextrScalar (x.extractLsb' 52 5) (x.extractLsb' 46 6) (x.extractLsb' 33 13) (x.extractLsb' 27 6) (x.extractLsb' 25 2))
  | 0x56 => some (.vinsImm (x.extractLsb' 52 5) (x.extractLsb' 39 13) (x.extractLsb' 26 13) (x.extractLsb' 20 6) (x.extractLsb' 11 9) (x.extractLsb' 9 2))
  | 0x57 => some (.vinsScalar (x.extractLsb' 52 5) (x.extractLsb' 39 13) (x.extractLsb' 26 13) (x.extractLsb' 20 6) (x.extractLsb' 14 6) (x.extractLsb' 12 2))
  | 0x58 => some (.vmov (x.extractLsb' 52 5) (x.extractLsb' 39 13) (x.extractLsb' 26 13))
  | 0x59 => some (.vrng (x.extractLsb' 52 5) (x.extractLsb' 39 13) (x.extractLsb' 33 6) (x.extractLsb' 27 6) (x.extractLsb' 21 6) (x.extractLsb' 5 16))
  | 0x5A => some (.vrngF (x.extractLsb' 52 5) (x.extractLsb' 39 13) (x.extractLsb' 33 6) (x.extractLsb' 27 6) (x.extractLsb' 21 6) (x.extractLsb' 5 16))
  | 0x5C => some (.tapp (x.extractLsb' 52 5) (x.extractLsb' 49 3) (x.extractLsb' 46 3) (x.extractLsb' 33 13) (x.extractLsb' 22 11))
  | 0x5D => some (.taps (x.extractLsb' 52 5) (x.extractLsb' 49 3) (x.extractLsb' 46 3) (x.extractLsb' 33 13) (x.extractLsb' 22 11) (x.extractLsb' 16 6))
  | 0x5E => some (.tapld (x.extractLsb' 52 5) (x.extractLsb' 49 3) (x.extractLsb' 43 6))
  | 0x5F => some (.taprd (x.extractLsb' 52 5) (x.extractLsb' 46 6) (x.extractLsb' 43 3) (x.extractLsb' 42 1))
  | 0x60 => some (.vredsumF (x.extractLsb' 52 5) (x.extractLsb' 39 13) (x.extractLsb' 26 13))
  | 0x61 => some (.vredsumI (x.extractLsb' 52 5) (x.extractLsb' 39 13) (x.extractLsb' 26 13))
  | 0x62 => some (.vredmaxF (x.extractLsb' 52 5) (x.extractLsb' 39 13) (x.extractLsb' 26 13))
  | 0x63 => some (.vredmaxSi (x.extractLsb' 52 5) (x.extractLsb' 39 13) (x.extractLsb' 26 13))
  | 0x64 => some (.vredminF (x.extractLsb' 52 5) (x.extractLsb' 39 13) (x.extractLsb' 26 13))
  | 0x65 => some (.vredminSi (x.extractLsb' 52 5) (x.extractLsb' 39 13) (x.extractLsb' 26 13))
  | 0x66 => some (.vargmax (x.extractLsb' 52 5) (x.extractLsb' 39 13) (x.extractLsb' 26 13))
  | 0x67 => some (.vscanF (x.extractLsb' 52 5) (x.extractLsb' 39 13) (x.extractLsb' 26 13))
  | 0x68 => some (.vscanI (x.extractLsb' 52 5) (x.extractLsb' 39 13) (x.extractLsb' 26 13))
  | 0x6A => some (.ksetImm (x.extractLsb' 52 5) (x.extractLsb' 44 8) (x.extractLsb' 43 1) (x.extractLsb' 41 2) (x.extractLsb' 37 4) (x.extractLsb' 21 16))
  | 0x6B => some (.ksetScalar (x.extractLsb' 52 5) (x.extractLsb' 44 8) (x.extractLsb' 43 1) (x.extractLsb' 41 2) (x.extractLsb' 37 4) (x.extractLsb' 31 6))
  | 0x6C => some (.kmov (x.extractLsb' 52 5) (x.extractLsb' 44 8) (x.extractLsb' 36 8))
  | 0x6D => some (.kmul (x.extractLsb' 52 5) (x.extractLsb' 44 8) (x.extractLsb' 36 8) (x.extractLsb' 28 8))
  | 0x6E => some (.kaddeImm (x.extractLsb' 52 5) (x.extractLsb' 44 8) (x.extractLsb' 36 8) (x.extractLsb' 28 8))
  | 0x6F => some (.kaddeScalar (x.extractLsb' 52 5) (x.extractLsb' 44 8) (x.extractLsb' 36 8) (x.extractLsb' 30 6))
  | 0x70 => some (.kmaxe (x.extractLsb' 52 5) (x.extractLsb' 44 8) (x.extractLsb' 36 8) (x.extractLsb' 28 8))
  | 0x71 => some (.kcvtBf16 (x.extractLsb' 52 5) (x.extractLsb' 44 8) (x.extractLsb' 36 8))
  | 0x72 => some (.kcvtE8m0 (x.extractLsb' 52 5) (x.extractLsb' 44 8) (x.extractLsb' 36 8))
  | 0x73 => some (.kbindTile (x.extractLsb' 52 5) (x.extractLsb' 47 5) (x.extractLsb' 39 8) (x.extractLsb' 38 1) (x.extractLsb' 34 4))
  | 0x74 => some (.kbindBank (x.extractLsb' 52 5) (x.extractLsb' 49 3) (x.extractLsb' 48 1) (x.extractLsb' 40 8) (x.extractLsb' 39 1) (x.extractLsb' 35 4))
  | 0x75 => some (.kunbindTile (x.extractLsb' 52 5) (x.extractLsb' 47 5))
  | 0x76 => some (.kunbindBank (x.extractLsb' 52 5) (x.extractLsb' 49 3) (x.extractLsb' 48 1))
  | 0x77 => some (.krdRow (x.extractLsb' 52 5) (x.extractLsb' 39 13) (x.extractLsb' 31 8))
  | 0x78 => some (.krdScalar (x.extractLsb' 52 5) (x.extractLsb' 46 6) (x.extractLsb' 38 8) (x.extractLsb' 32 6) (x.extractLsb' 31 1))
  | 0x79 => some (.kwrRow (x.extractLsb' 52 5) (x.extractLsb' 44 8) (x.extractLsb' 31 13))
  | 0x7A => some (.kwrScalar (x.extractLsb' 52 5) (x.extractLsb' 44 8) (x.extractLsb' 38 6) (x.extractLsb' 32 6))
  | 0x7B => some (.kgen (x.extractLsb' 52 5) (x.extractLsb' 44 8) (x.extractLsb' 31 13) (x.extractLsb' 30 1) (x.extractLsb' 26 4) (x.extractLsb' 24 2))
  | _ => none

/-- The M codes (R110, R111). -/
def rawM (x : BitVec 64) : Option Instr :=
  match (x.extractLsb' 59 5).toNat with
  | 0x00 => some (.mmaL6 (x.extractLsb' 54 5) (x.extractLsb' 43 11) (x.extractLsb' 40 3) (x.extractLsb' 28 12) (x.extractLsb' 25 3) (x.extractLsb' 13 12) (x.extractLsb' 9 4) (x.extractLsb' 5 4) (x.extractLsb' 3 2) (x.extractLsb' 2 1))
  | 0x01 => some (.mmaI8 (x.extractLsb' 54 5) (x.extractLsb' 43 11) (x.extractLsb' 40 3) (x.extractLsb' 28 12) (x.extractLsb' 25 3) (x.extractLsb' 13 12) (x.extractLsb' 9 4) (x.extractLsb' 5 4) (x.extractLsb' 3 2) (x.extractLsb' 2 1))
  | 0x02 => some (.mmaE4m3 (x.extractLsb' 54 5) (x.extractLsb' 43 11) (x.extractLsb' 40 3) (x.extractLsb' 28 12) (x.extractLsb' 25 3) (x.extractLsb' 13 12) (x.extractLsb' 9 4) (x.extractLsb' 5 4) (x.extractLsb' 3 2) (x.extractLsb' 2 1))
  | 0x03 => some (.mmaE5m2 (x.extractLsb' 54 5) (x.extractLsb' 43 11) (x.extractLsb' 40 3) (x.extractLsb' 28 12) (x.extractLsb' 25 3) (x.extractLsb' 13 12) (x.extractLsb' 9 4) (x.extractLsb' 5 4) (x.extractLsb' 3 2) (x.extractLsb' 2 1))
  | 0x04 => some (.mmaE4e5 (x.extractLsb' 54 5) (x.extractLsb' 43 11) (x.extractLsb' 40 3) (x.extractLsb' 28 12) (x.extractLsb' 25 3) (x.extractLsb' 13 12) (x.extractLsb' 9 4) (x.extractLsb' 5 4) (x.extractLsb' 3 2) (x.extractLsb' 2 1))
  | 0x05 => some (.mmaE5e4 (x.extractLsb' 54 5) (x.extractLsb' 43 11) (x.extractLsb' 40 3) (x.extractLsb' 28 12) (x.extractLsb' 25 3) (x.extractLsb' 13 12) (x.extractLsb' 9 4) (x.extractLsb' 5 4) (x.extractLsb' 3 2) (x.extractLsb' 2 1))
  | 0x06 => some (.mmaBf16 (x.extractLsb' 54 5) (x.extractLsb' 43 11) (x.extractLsb' 40 3) (x.extractLsb' 28 12) (x.extractLsb' 25 3) (x.extractLsb' 13 12) (x.extractLsb' 9 4) (x.extractLsb' 5 4) (x.extractLsb' 3 2) (x.extractLsb' 2 1))
  | 0x07 => some (.mmaFp16 (x.extractLsb' 54 5) (x.extractLsb' 43 11) (x.extractLsb' 40 3) (x.extractLsb' 28 12) (x.extractLsb' 25 3) (x.extractLsb' 13 12) (x.extractLsb' 9 4) (x.extractLsb' 5 4) (x.extractLsb' 3 2) (x.extractLsb' 2 1))
  | 0x08 => some (.mmazL6 (x.extractLsb' 54 5) (x.extractLsb' 43 11) (x.extractLsb' 40 3) (x.extractLsb' 28 12) (x.extractLsb' 25 3) (x.extractLsb' 13 12) (x.extractLsb' 9 4) (x.extractLsb' 5 4) (x.extractLsb' 3 2) (x.extractLsb' 2 1))
  | 0x09 => some (.mmazI8 (x.extractLsb' 54 5) (x.extractLsb' 43 11) (x.extractLsb' 40 3) (x.extractLsb' 28 12) (x.extractLsb' 25 3) (x.extractLsb' 13 12) (x.extractLsb' 9 4) (x.extractLsb' 5 4) (x.extractLsb' 3 2) (x.extractLsb' 2 1))
  | 0x0A => some (.mmazE4m3 (x.extractLsb' 54 5) (x.extractLsb' 43 11) (x.extractLsb' 40 3) (x.extractLsb' 28 12) (x.extractLsb' 25 3) (x.extractLsb' 13 12) (x.extractLsb' 9 4) (x.extractLsb' 5 4) (x.extractLsb' 3 2) (x.extractLsb' 2 1))
  | 0x0B => some (.mmazE5m2 (x.extractLsb' 54 5) (x.extractLsb' 43 11) (x.extractLsb' 40 3) (x.extractLsb' 28 12) (x.extractLsb' 25 3) (x.extractLsb' 13 12) (x.extractLsb' 9 4) (x.extractLsb' 5 4) (x.extractLsb' 3 2) (x.extractLsb' 2 1))
  | 0x0C => some (.mmazE4e5 (x.extractLsb' 54 5) (x.extractLsb' 43 11) (x.extractLsb' 40 3) (x.extractLsb' 28 12) (x.extractLsb' 25 3) (x.extractLsb' 13 12) (x.extractLsb' 9 4) (x.extractLsb' 5 4) (x.extractLsb' 3 2) (x.extractLsb' 2 1))
  | 0x0D => some (.mmazE5e4 (x.extractLsb' 54 5) (x.extractLsb' 43 11) (x.extractLsb' 40 3) (x.extractLsb' 28 12) (x.extractLsb' 25 3) (x.extractLsb' 13 12) (x.extractLsb' 9 4) (x.extractLsb' 5 4) (x.extractLsb' 3 2) (x.extractLsb' 2 1))
  | 0x0E => some (.mmazBf16 (x.extractLsb' 54 5) (x.extractLsb' 43 11) (x.extractLsb' 40 3) (x.extractLsb' 28 12) (x.extractLsb' 25 3) (x.extractLsb' 13 12) (x.extractLsb' 9 4) (x.extractLsb' 5 4) (x.extractLsb' 3 2) (x.extractLsb' 2 1))
  | 0x0F => some (.mmazFp16 (x.extractLsb' 54 5) (x.extractLsb' 43 11) (x.extractLsb' 40 3) (x.extractLsb' 28 12) (x.extractLsb' 25 3) (x.extractLsb' 13 12) (x.extractLsb' 9 4) (x.extractLsb' 5 4) (x.extractLsb' 3 2) (x.extractLsb' 2 1))
  | 0x10 => some (.mxhint (x.extractLsb' 54 5) (x.extractLsb' 0 16))
  | 0x11 => some (.cmode (x.extractLsb' 54 5) (x.extractLsb' 8 1) (x.extractLsb' 0 8))
  | 0x12 => some (.cloadRow (x.extractLsb' 54 5) (x.extractLsb' 41 13) (x.extractLsb' 38 3) (x.extractLsb' 30 8) (x.extractLsb' 25 5))
  | 0x13 => some (.cloadRound (x.extractLsb' 54 5) (x.extractLsb' 51 3) (x.extractLsb' 39 12) (x.extractLsb' 35 4) (x.extractLsb' 32 3) (x.extractLsb' 24 8) (x.extractLsb' 19 5))
  | 0x14 => some (.cswap (x.extractLsb' 54 5) (x.extractLsb' 0 8))
  | 0x15 => some (.cmacRow (x.extractLsb' 54 5) (x.extractLsb' 46 8) (x.extractLsb' 33 13) (x.extractLsb' 30 3) (x.extractLsb' 29 1) (x.extractLsb' 24 5))
  | 0x16 => some (.cmacRound (x.extractLsb' 54 5) (x.extractLsb' 46 8) (x.extractLsb' 43 3) (x.extractLsb' 31 12) (x.extractLsb' 27 4) (x.extractLsb' 24 3) (x.extractLsb' 23 1) (x.extractLsb' 18 5))
  | 0x17 => some (.cread (x.extractLsb' 54 5) (x.extractLsb' 41 13) (x.extractLsb' 38 3) (x.extractLsb' 37 1))
  | 0x18 => some (.creadK (x.extractLsb' 54 5) (x.extractLsb' 41 13) (x.extractLsb' 38 3) (x.extractLsb' 37 1))
  | 0x19 => some (.cclr (x.extractLsb' 54 5) (x.extractLsb' 0 8))
  | 0x1A => some (.cchk (x.extractLsb' 54 5) (x.extractLsb' 3 1) (x.extractLsb' 0 3))
  | _ => none

/-- The L codes (R112). -/
def rawL (x : BitVec 56) : Option Instr :=
  match (x.extractLsb' 52 4).toNat with
  | 0x00 => some (.ld (x.extractLsb' 47 5) (x.extractLsb' 34 13) (x.extractLsb' 29 5) (x.extractLsb' 21 8) (x.extractLsb' 9 12))
  | 0x01 => some (.ldr (x.extractLsb' 47 5) (x.extractLsb' 34 13) (x.extractLsb' 31 3) (x.extractLsb' 19 12) (x.extractLsb' 15 4))
  | 0x02 => some (.ldkStream (x.extractLsb' 47 5) (x.extractLsb' 39 8) (x.extractLsb' 34 5) (x.extractLsb' 22 12))
  | 0x03 => some (.ldkRound (x.extractLsb' 47 5) (x.extractLsb' 39 8) (x.extractLsb' 36 3) (x.extractLsb' 24 12) (x.extractLsb' 20 4))
  | 0x04 => some (.ldsRound (x.extractLsb' 47 5) (x.extractLsb' 41 6) (x.extractLsb' 38 3) (x.extractLsb' 23 15) (x.extractLsb' 19 4))
  | 0x05 => some (.ldsStream (x.extractLsb' 47 5) (x.extractLsb' 41 6) (x.extractLsb' 36 5) (x.extractLsb' 24 12))
  | 0x06 => some (.popVector (x.extractLsb' 47 5) (x.extractLsb' 34 13) (x.extractLsb' 29 5) (x.extractLsb' 17 12))
  | 0x07 => some (.popScalar (x.extractLsb' 47 5) (x.extractLsb' 41 6) (x.extractLsb' 36 5) (x.extractLsb' 24 12))
  | 0x08 => some (.fill (x.extractLsb' 47 5) (x.extractLsb' 41 6) (x.extractLsb' 36 5) (x.extractLsb' 31 5))
  | _ => none

/-- The W codes (R113). -/
def rawW (x : BitVec 48) : Option XOp :=
  match (x.extractLsb' 44 4).toNat with
  | 0x00 => some (.st (x.extractLsb' 39 5) (x.extractLsb' 34 5) (x.extractLsb' 21 13) (x.extractLsb' 13 8))
  | 0x01 => some (.str (x.extractLsb' 39 5) (x.extractLsb' 36 3) (x.extractLsb' 24 12) (x.extractLsb' 20 4) (x.extractLsb' 7 13))
  | 0x02 => some (.stkStream (x.extractLsb' 39 5) (x.extractLsb' 34 5) (x.extractLsb' 26 8))
  | 0x03 => some (.stkRound (x.extractLsb' 39 5) (x.extractLsb' 36 3) (x.extractLsb' 24 12) (x.extractLsb' 20 4) (x.extractLsb' 12 8))
  | 0x04 => some (.stsRound (x.extractLsb' 39 5) (x.extractLsb' 36 3) (x.extractLsb' 21 15) (x.extractLsb' 17 4) (x.extractLsb' 11 6))
  | 0x05 => some (.stsStream (x.extractLsb' 39 5) (x.extractLsb' 34 5) (x.extractLsb' 28 6))
  | 0x06 => some (.pushVector (x.extractLsb' 39 5) (x.extractLsb' 34 5) (x.extractLsb' 21 13))
  | 0x07 => some (.pushScalar (x.extractLsb' 39 5) (x.extractLsb' 34 5) (x.extractLsb' 28 6))
  | 0x08 => some (.spill (x.extractLsb' 39 5) (x.extractLsb' 33 6) (x.extractLsb' 28 5) (x.extractLsb' 23 5))
  | _ => none

/-- The C codes (R114). -/
def rawC (x : BitVec 48) : Option XOp :=
  match (x.extractLsb' 44 4).toNat with
  | 0x00 => some (.movpRound (x.extractLsb' 39 5) (x.extractLsb' 36 3) (x.extractLsb' 24 12) (x.extractLsb' 20 4) (x.extractLsb' 12 8))
  | 0x01 => some (.movpScalar (x.extractLsb' 39 5) (x.extractLsb' 33 6) (x.extractLsb' 25 8) (x.extractLsb' 21 4))
  | 0x02 => some (.xfer (x.extractLsb' 39 5) (x.extractLsb' 35 4) (x.extractLsb' 31 4) (x.extractLsb' 27 4) (x.extractLsb' 15 12) (x.extractLsb' 3 12))
  | 0x03 => some (.redsVector (x.extractLsb' 39 5) (x.extractLsb' 26 13) (x.extractLsb' 20 6) (x.extractLsb' 17 3) (x.extractLsb' 16 1) (x.extractLsb' 10 6))
  | 0x04 => some (.redsScalar (x.extractLsb' 39 5) (x.extractLsb' 33 6) (x.extractLsb' 27 6) (x.extractLsb' 24 3) (x.extractLsb' 23 1) (x.extractLsb' 17 6))
  | 0x05 => some (.scfgTable (x.extractLsb' 39 5) (x.extractLsb' 34 5) (x.extractLsb' 22 12))
  | 0x06 => some (.scfgScalar (x.extractLsb' 39 5) (x.extractLsb' 34 5) (x.extractLsb' 30 4) (x.extractLsb' 24 6))
  | 0x07 => some (.sadv (x.extractLsb' 39 5) (x.extractLsb' 34 5) (x.extractLsb' 32 2) (x.extractLsb' 16 16))
  | 0x08 => some (.srst (x.extractLsb' 39 5) (x.extractLsb' 34 5))
  | _ => none

/-- The Y codes (R107). -/
def rawY (x : BitVec 24) : Option Instr :=
  match (x.extractLsb' 19 5).toNat with
  | 0x00 => some (.nop (x.extractLsb' 16 3))
  | 0x01 => some (.bar (x.extractLsb' 16 3) (x.extractLsb' 0 4))
  | 0x02 => some (.rdv (x.extractLsb' 16 3) (x.extractLsb' 0 4))
  | 0x03 => some (.waitdImm (x.extractLsb' 16 3) (x.extractLsb' 0 16))
  | 0x04 => some (.waitdScalar (x.extractLsb' 16 3) (x.extractLsb' 0 6))
  | 0x05 => some (.fence (x.extractLsb' 16 3) (x.extractLsb' 0 4))
  | 0x06 => some (.semsig (x.extractLsb' 16 3) (x.extractLsb' 6 6) (x.extractLsb' 0 6))
  | 0x07 => some (.semsigScalar (x.extractLsb' 16 3) (x.extractLsb' 6 6) (x.extractLsb' 0 6))
  | 0x08 => some (.semwait (x.extractLsb' 16 3) (x.extractLsb' 6 6) (x.extractLsb' 0 6))
  | 0x09 => some (.yield (x.extractLsb' 16 3))
  | 0x0A => some (.svc (x.extractLsb' 16 3) (x.extractLsb' 0 12))
  | 0x0B => some (.trap (x.extractLsb' 16 3) (x.extractLsb' 0 12))
  | 0x0C => some (.halt (x.extractLsb' 16 3))
  | 0x0D => some (.probe (x.extractLsb' 16 3) (x.extractLsb' 6 6) (x.extractLsb' 0 6))
  | 0x0E => some (.discard (x.extractLsb' 16 3) (x.extractLsb' 6 6) (x.extractLsb' 0 6))
  | 0x0F => some (.exit (x.extractLsb' 16 3))
  | _ => none

/-- The encoder of the W and C forms (R113, R114). -/
def encodeX : XOp → Encoded
  | .st p w vs ks => ⟨.w, (0#4 ++ p ++ w ++ vs ++ ks ++ 0#13).setWidth 64, 0⟩
  | .str p bay off lane vs => ⟨.w, (1#4 ++ p ++ bay ++ off ++ lane ++ vs ++ 0#7).setWidth 64, 0⟩
  | .stkStream p w ks => ⟨.w, (2#4 ++ p ++ w ++ ks ++ 0#26).setWidth 64, 0⟩
  | .stkRound p bay off lane ks => ⟨.w, (3#4 ++ p ++ bay ++ off ++ lane ++ ks ++ 0#12).setWidth 64, 0⟩
  | .stsRound p bay off8 lane a => ⟨.w, (4#4 ++ p ++ bay ++ off8 ++ lane ++ a ++ 0#11).setWidth 64, 0⟩
  | .stsStream p w a => ⟨.w, (5#4 ++ p ++ w ++ a ++ 0#28).setWidth 64, 0⟩
  | .pushVector p q vs => ⟨.w, (6#4 ++ p ++ q ++ vs ++ 0#21).setWidth 64, 0⟩
  | .pushScalar p q a => ⟨.w, (7#4 ++ p ++ q ++ a ++ 0#28).setWidth 64, 0⟩
  | .spill p tok tile w => ⟨.w, (8#4 ++ p ++ tok ++ tile ++ w ++ 0#23).setWidth 64, 0⟩
  | .movpRound p bay off lane port => ⟨.c, (0#4 ++ p ++ bay ++ off ++ lane ++ port ++ 0#12).setWidth 64, 0⟩
  | .movpScalar p a port lane => ⟨.c, (1#4 ++ p ++ a ++ port ++ lane ++ 0#21).setWidth 64, 0⟩
  | .xfer p frm dest lane fromaddr toaddr => ⟨.c, (2#4 ++ p ++ frm ++ dest ++ lane ++ fromaddr ++ toaddr ++ 0#3).setWidth 64, 0⟩
  | .redsVector p vs t op ty sem => ⟨.c, (3#4 ++ p ++ vs ++ t ++ op ++ ty ++ sem ++ 0#10).setWidth 64, 0⟩
  | .redsScalar p a t op ty sem => ⟨.c, (4#4 ++ p ++ a ++ t ++ op ++ ty ++ sem ++ 0#17).setWidth 64, 0⟩
  | .scfgTable p w entry => ⟨.c, (5#4 ++ p ++ w ++ entry ++ 0#22).setWidth 64, 0⟩
  | .scfgScalar p w word a => ⟨.c, (6#4 ++ p ++ w ++ word ++ a ++ 0#24).setWidth 64, 0⟩
  | .sadv p w dim steps => ⟨.c, (7#4 ++ p ++ w ++ dim ++ steps ++ 0#16).setWidth 64, 0⟩
  | .srst p w => ⟨.c, (8#4 ++ p ++ w ++ 0#34).setWidth 64, 0⟩

/-- The encoder: each form's fields, highest bit first, with zeros in the reserved bits (R104 to R114). Events have no
encoding. -/
def encode : Instr → Option Encoded
  | .nop p => some ⟨.y, (0#5 ++ p ++ 0#16).setWidth 64, 0⟩
  | .bar p group => some ⟨.y, (1#5 ++ p ++ 0#12 ++ group).setWidth 64, 0⟩
  | .rdv p group => some ⟨.y, (2#5 ++ p ++ 0#12 ++ group).setWidth 64, 0⟩
  | .waitdImm p count => some ⟨.y, (3#5 ++ p ++ count).setWidth 64, 0⟩
  | .waitdScalar p a => some ⟨.y, (4#5 ++ p ++ 0#10 ++ a).setWidth 64, 0⟩
  | .fence p scope => some ⟨.y, (5#5 ++ p ++ 0#12 ++ scope).setWidth 64, 0⟩
  | .semsig p c sem => some ⟨.y, (6#5 ++ p ++ 0#4 ++ c ++ sem).setWidth 64, 0⟩
  | .semsigScalar p c a => some ⟨.y, (7#5 ++ p ++ 0#4 ++ c ++ a).setWidth 64, 0⟩
  | .semwait p c sem => some ⟨.y, (8#5 ++ p ++ 0#4 ++ c ++ sem).setWidth 64, 0⟩
  | .yield p => some ⟨.y, (9#5 ++ p ++ 0#16).setWidth 64, 0⟩
  | .svc p code => some ⟨.y, (10#5 ++ p ++ 0#4 ++ code).setWidth 64, 0⟩
  | .trap p code => some ⟨.y, (11#5 ++ p ++ 0#4 ++ code).setWidth 64, 0⟩
  | .halt p => some ⟨.y, (12#5 ++ p ++ 0#16).setWidth 64, 0⟩
  | .probe p b a => some ⟨.y, (13#5 ++ p ++ 0#4 ++ b ++ a).setWidth 64, 0⟩
  | .discard p b a => some ⟨.y, (14#5 ++ p ++ 0#4 ++ b ++ a).setWidth 64, 0⟩
  | .exit p => some ⟨.y, (15#5 ++ p ++ 0#16).setWidth 64, 0⟩
  | .add p d a b => some ⟨.s, (0#7 ++ p ++ d ++ a ++ b ++ 0#18).setWidth 64, 0⟩
  | .sub p d a b => some ⟨.s, (1#7 ++ p ++ d ++ a ++ b ++ 0#18).setWidth 64, 0⟩
  | .mul p d a b => some ⟨.s, (2#7 ++ p ++ d ++ a ++ b ++ 0#18).setWidth 64, 0⟩
  | .mulh p d a b => some ⟨.s, (3#7 ++ p ++ d ++ a ++ b ++ 0#18).setWidth 64, 0⟩
  | .mulhs p d a b => some ⟨.s, (4#7 ++ p ++ d ++ a ++ b ++ 0#18).setWidth 64, 0⟩
  | .div p d a b => some ⟨.s, (5#7 ++ p ++ d ++ a ++ b ++ 0#18).setWidth 64, 0⟩
  | .divs p d a b => some ⟨.s, (6#7 ++ p ++ d ++ a ++ b ++ 0#18).setWidth 64, 0⟩
  | .rem p d a b => some ⟨.s, (7#7 ++ p ++ d ++ a ++ b ++ 0#18).setWidth 64, 0⟩
  | .and p d a b => some ⟨.s, (8#7 ++ p ++ d ++ a ++ b ++ 0#18).setWidth 64, 0⟩
  | .or p d a b => some ⟨.s, (9#7 ++ p ++ d ++ a ++ b ++ 0#18).setWidth 64, 0⟩
  | .xor p d a b => some ⟨.s, (10#7 ++ p ++ d ++ a ++ b ++ 0#18).setWidth 64, 0⟩
  | .andn p d a b => some ⟨.s, (11#7 ++ p ++ d ++ a ++ b ++ 0#18).setWidth 64, 0⟩
  | .shl p d a b => some ⟨.s, (12#7 ++ p ++ d ++ a ++ b ++ 0#18).setWidth 64, 0⟩
  | .shr p d a b => some ⟨.s, (13#7 ++ p ++ d ++ a ++ b ++ 0#18).setWidth 64, 0⟩
  | .sar p d a b => some ⟨.s, (14#7 ++ p ++ d ++ a ++ b ++ 0#18).setWidth 64, 0⟩
  | .rotl p d a b => some ⟨.s, (15#7 ++ p ++ d ++ a ++ b ++ 0#18).setWidth 64, 0⟩
  | .min p d a b => some ⟨.s, (16#7 ++ p ++ d ++ a ++ b ++ 0#18).setWidth 64, 0⟩
  | .max p d a b => some ⟨.s, (17#7 ++ p ++ d ++ a ++ b ++ 0#18).setWidth 64, 0⟩
  | .mins p d a b => some ⟨.s, (18#7 ++ p ++ d ++ a ++ b ++ 0#18).setWidth 64, 0⟩
  | .maxs p d a b => some ⟨.s, (19#7 ++ p ++ d ++ a ++ b ++ 0#18).setWidth 64, 0⟩
  | .addsh p d a b sh => some ⟨.s, (20#7 ++ p ++ d ++ a ++ b ++ sh ++ 0#15).setWidth 64, 0⟩
  | .clz p d a => some ⟨.s, (21#7 ++ p ++ d ++ a ++ 0#24).setWidth 64, 0⟩
  | .popc p d a => some ⟨.s, (22#7 ++ p ++ d ++ a ++ 0#24).setWidth 64, 0⟩
  | .sel p d a b pc => some ⟨.s, (23#7 ++ p ++ d ++ a ++ b ++ pc ++ 0#14).setWidth 64, 0⟩
  | .addi p d a psel imm => some ⟨.s, (32#7 ++ p ++ d ++ a ++ psel ++ imm).setWidth 64, 0⟩
  | .mulImm p d a psel imm => some ⟨.s, (34#7 ++ p ++ d ++ a ++ psel ++ imm).setWidth 64, 0⟩
  | .andImm p d a psel imm => some ⟨.s, (40#7 ++ p ++ d ++ a ++ psel ++ imm).setWidth 64, 0⟩
  | .orImm p d a psel imm => some ⟨.s, (41#7 ++ p ++ d ++ a ++ psel ++ imm).setWidth 64, 0⟩
  | .xorImm p d a psel imm => some ⟨.s, (42#7 ++ p ++ d ++ a ++ psel ++ imm).setWidth 64, 0⟩
  | .shlImm p d a psel imm => some ⟨.s, (44#7 ++ p ++ d ++ a ++ psel ++ imm).setWidth 64, 0⟩
  | .shrImm p d a psel imm => some ⟨.s, (45#7 ++ p ++ d ++ a ++ psel ++ imm).setWidth 64, 0⟩
  | .sarImm p d a psel imm => some ⟨.s, (46#7 ++ p ++ d ++ a ++ psel ++ imm).setWidth 64, 0⟩
  | .rotlImm p d a psel imm => some ⟨.s, (47#7 ++ p ++ d ++ a ++ psel ++ imm).setWidth 64, 0⟩
  | .minImm p d a psel imm => some ⟨.s, (48#7 ++ p ++ d ++ a ++ psel ++ imm).setWidth 64, 0⟩
  | .maxImm p d a psel imm => some ⟨.s, (49#7 ++ p ++ d ++ a ++ psel ++ imm).setWidth 64, 0⟩
  | .minsImm p d a psel imm => some ⟨.s, (50#7 ++ p ++ d ++ a ++ psel ++ imm).setWidth 64, 0⟩
  | .maxsImm p d a psel imm => some ⟨.s, (51#7 ++ p ++ d ++ a ++ psel ++ imm).setWidth 64, 0⟩
  | .cmpeq p pd a b => some ⟨.s, (64#7 ++ p ++ pd ++ 0#2 ++ a ++ b ++ 0#18).setWidth 64, 0⟩
  | .cmpne p pd a b => some ⟨.s, (65#7 ++ p ++ pd ++ 0#2 ++ a ++ b ++ 0#18).setWidth 64, 0⟩
  | .cmplt p pd a b => some ⟨.s, (66#7 ++ p ++ pd ++ 0#2 ++ a ++ b ++ 0#18).setWidth 64, 0⟩
  | .cmplts p pd a b => some ⟨.s, (67#7 ++ p ++ pd ++ 0#2 ++ a ++ b ++ 0#18).setWidth 64, 0⟩
  | .cmple p pd a b => some ⟨.s, (68#7 ++ p ++ pd ++ 0#2 ++ a ++ b ++ 0#18).setWidth 64, 0⟩
  | .cmples p pd a b => some ⟨.s, (69#7 ++ p ++ pd ++ 0#2 ++ a ++ b ++ 0#18).setWidth 64, 0⟩
  | .cmpeqImm p pd a psel imm => some ⟨.s, (72#7 ++ p ++ pd ++ 0#2 ++ a ++ psel ++ imm).setWidth 64, 0⟩
  | .cmpneImm p pd a psel imm => some ⟨.s, (73#7 ++ p ++ pd ++ 0#2 ++ a ++ psel ++ imm).setWidth 64, 0⟩
  | .cmpltImm p pd a psel imm => some ⟨.s, (74#7 ++ p ++ pd ++ 0#2 ++ a ++ psel ++ imm).setWidth 64, 0⟩
  | .cmpltsImm p pd a psel imm => some ⟨.s, (75#7 ++ p ++ pd ++ 0#2 ++ a ++ psel ++ imm).setWidth 64, 0⟩
  | .cmpleImm p pd a psel imm => some ⟨.s, (76#7 ++ p ++ pd ++ 0#2 ++ a ++ psel ++ imm).setWidth 64, 0⟩
  | .cmplesImm p pd a psel imm => some ⟨.s, (77#7 ++ p ++ pd ++ 0#2 ++ a ++ psel ++ imm).setWidth 64, 0⟩
  | .li p d psel imm => some ⟨.s, (80#7 ++ p ++ d ++ psel ++ imm).setWidth 64, 0⟩
  | .liLong p d imm => some ⟨.s, (81#7 ++ p ++ d ++ imm.extractLsb' 0 30).setWidth 64, (0#30 ++ imm.extractLsb' 30 34)⟩
  | .pset p pd a => some ⟨.s, (84#7 ++ p ++ pd ++ 0#2 ++ a ++ 0#24).setWidth 64, 0⟩
  | .pand p pd pa pb inva invb => some ⟨.s, (85#7 ++ p ++ pd ++ pa ++ pb ++ inva ++ invb ++ 0#22).setWidth 64, 0⟩
  | .por p pd pa pb inva invb => some ⟨.s, (86#7 ++ p ++ pd ++ pa ++ pb ++ inva ++ invb ++ 0#22).setWidth 64, 0⟩
  | .pxor p pd pa pb inva invb => some ⟨.s, (87#7 ++ p ++ pd ++ pa ++ pb ++ inva ++ invb ++ 0#22).setWidth 64, 0⟩
  | .pnot p pd pa => some ⟨.s, (88#7 ++ p ++ pd ++ pa ++ 0#28).setWidth 64, 0⟩
  | .br p target => some ⟨.s, (96#7 ++ p ++ 0#24 ++ target).setWidth 64, 0⟩
  | .brScalar p a => some ⟨.s, (97#7 ++ p ++ 0#6 ++ a ++ 0#24).setWidth 64, 0⟩
  | .bc p a b cond target => some ⟨.s, (98#7 ++ p ++ 0#6 ++ a ++ b ++ cond ++ 0#3 ++ target).setWidth 64, 0⟩
  | .call p d target => some ⟨.s, (99#7 ++ p ++ d ++ 0#18 ++ target).setWidth 64, 0⟩
  | .ret p a => some ⟨.s, (100#7 ++ p ++ 0#6 ++ a ++ 0#24).setWidth 64, 0⟩
  | .loopScalar p a len => some ⟨.s, (101#7 ++ p ++ 0#6 ++ a ++ 0#12 ++ len).setWidth 64, 0⟩
  | .loopNbound p n len => some ⟨.s, (102#7 ++ p ++ 0#6 ++ n ++ 0#14 ++ len).setWidth 64, 0⟩
  | .loopImm p count len => some ⟨.s, (103#7 ++ p ++ 0#8 ++ count ++ len).setWidth 64, 0⟩
  | .lexit p => some ⟨.s, (104#7 ++ p ++ 0#36).setWidth 64, 0⟩
  | .lidx p d idx => some ⟨.s, (105#7 ++ p ++ d ++ 0#27 ++ idx).setWidth 64, 0⟩
  | .csrr p d csr => some ⟨.s, (112#7 ++ p ++ d ++ 0#18 ++ csr).setWidth 64, 0⟩
  | .csrw p a csr => some ⟨.s, (113#7 ++ p ++ 0#6 ++ a ++ 0#12 ++ csr).setWidth 64, 0⟩
  | .csrwImm p imm csr => some ⟨.s, (114#7 ++ p ++ 0#8 ++ imm ++ csr).setWidth 64, 0⟩
  | .nbnd p n a => some ⟨.s, (115#7 ++ p ++ n ++ 0#2 ++ a ++ 0#24).setWidth 64, 0⟩
  | .nbndImm p n imm => some ⟨.s, (116#7 ++ p ++ n ++ imm).setWidth 64, 0⟩
  | .vadd p vd va vb => some ⟨.v, (0#7 ++ p ++ vd ++ va ++ vb ++ 0#13).setWidth 64, 0⟩
  | .vsub p vd va vb => some ⟨.v, (1#7 ++ p ++ vd ++ va ++ vb ++ 0#13).setWidth 64, 0⟩
  | .vmul p vd va vb => some ⟨.v, (2#7 ++ p ++ vd ++ va ++ vb ++ 0#13).setWidth 64, 0⟩
  | .vmin p vd va vb => some ⟨.v, (3#7 ++ p ++ vd ++ va ++ vb ++ 0#13).setWidth 64, 0⟩
  | .vmax p vd va vb => some ⟨.v, (4#7 ++ p ++ vd ++ va ++ vb ++ 0#13).setWidth 64, 0⟩
  | .vfma p vd va vb vc => some ⟨.v, (5#7 ++ p ++ vd ++ va ++ vb ++ vc).setWidth 64, 0⟩
  | .vfms p vd va vb vc => some ⟨.v, (6#7 ++ p ++ vd ++ va ++ vb ++ vc).setWidth 64, 0⟩
  | .vfnma p vd va vb vc => some ⟨.v, (7#7 ++ p ++ vd ++ va ++ vb ++ vc).setWidth 64, 0⟩
  | .vaddScalar p vd va sb => some ⟨.v, (8#7 ++ p ++ vd ++ va ++ sb ++ 0#20).setWidth 64, 0⟩
  | .vsubScalar p vd va sb => some ⟨.v, (9#7 ++ p ++ vd ++ va ++ sb ++ 0#20).setWidth 64, 0⟩
  | .vmulScalar p vd va sb => some ⟨.v, (10#7 ++ p ++ vd ++ va ++ sb ++ 0#20).setWidth 64, 0⟩
  | .vminScalar p vd va sb => some ⟨.v, (11#7 ++ p ++ vd ++ va ++ sb ++ 0#20).setWidth 64, 0⟩
  | .vmaxScalar p vd va sb => some ⟨.v, (12#7 ++ p ++ vd ++ va ++ sb ++ 0#20).setWidth 64, 0⟩
  | .vfmaScalar p vd va sb vc => some ⟨.v, (13#7 ++ p ++ vd ++ va ++ sb ++ vc ++ 0#7).setWidth 64, 0⟩
  | .vfmsScalar p vd va sb vc => some ⟨.v, (14#7 ++ p ++ vd ++ va ++ sb ++ vc ++ 0#7).setWidth 64, 0⟩
  | .vfnmaScalar p vd va sb vc => some ⟨.v, (15#7 ++ p ++ vd ++ va ++ sb ++ vc ++ 0#7).setWidth 64, 0⟩
  | .vabs p vd va => some ⟨.v, (16#7 ++ p ++ vd ++ va ++ 0#26).setWidth 64, 0⟩
  | .vneg p vd va => some ⟨.v, (17#7 ++ p ++ vd ++ va ++ 0#26).setWidth 64, 0⟩
  | .vrcp p vd va => some ⟨.v, (18#7 ++ p ++ vd ++ va ++ 0#26).setWidth 64, 0⟩
  | .vrsq p vd va => some ⟨.v, (19#7 ++ p ++ vd ++ va ++ 0#26).setWidth 64, 0⟩
  | .vexp2 p vd va => some ⟨.v, (20#7 ++ p ++ vd ++ va ++ 0#26).setWidth 64, 0⟩
  | .vlog2 p vd va => some ⟨.v, (21#7 ++ p ++ vd ++ va ++ 0#26).setWidth 64, 0⟩
  | .vclamp p vd va slo shi => some ⟨.v, (22#7 ++ p ++ vd ++ va ++ slo ++ shi ++ 0#14).setWidth 64, 0⟩
  | .vsel p vd va vb vc => some ⟨.v, (23#7 ++ p ++ vd ++ va ++ vb ++ vc).setWidth 64, 0⟩
  | .vcmpeqF p vd va vb => some ⟨.v, (24#7 ++ p ++ vd ++ va ++ vb ++ 0#13).setWidth 64, 0⟩
  | .vcmpeqI p vd va vb => some ⟨.v, (25#7 ++ p ++ vd ++ va ++ vb ++ 0#13).setWidth 64, 0⟩
  | .vcmpltF p vd va vb => some ⟨.v, (26#7 ++ p ++ vd ++ va ++ vb ++ 0#13).setWidth 64, 0⟩
  | .vcmpltSi p vd va vb => some ⟨.v, (27#7 ++ p ++ vd ++ va ++ vb ++ 0#13).setWidth 64, 0⟩
  | .vcmpltUi p vd va vb => some ⟨.v, (28#7 ++ p ++ vd ++ va ++ vb ++ 0#13).setWidth 64, 0⟩
  | .vcmpleF p vd va vb => some ⟨.v, (29#7 ++ p ++ vd ++ va ++ vb ++ 0#13).setWidth 64, 0⟩
  | .vcmpleSi p vd va vb => some ⟨.v, (30#7 ++ p ++ vd ++ va ++ vb ++ 0#13).setWidth 64, 0⟩
  | .vcmpleUi p vd va vb => some ⟨.v, (31#7 ++ p ++ vd ++ va ++ vb ++ 0#13).setWidth 64, 0⟩
  | .viaddB p vd va vb => some ⟨.v, (32#7 ++ p ++ vd ++ va ++ vb ++ 0#13).setWidth 64, 0⟩
  | .viaddH p vd va vb => some ⟨.v, (33#7 ++ p ++ vd ++ va ++ vb ++ 0#13).setWidth 64, 0⟩
  | .viaddW p vd va vb => some ⟨.v, (34#7 ++ p ++ vd ++ va ++ vb ++ 0#13).setWidth 64, 0⟩
  | .visubB p vd va vb => some ⟨.v, (35#7 ++ p ++ vd ++ va ++ vb ++ 0#13).setWidth 64, 0⟩
  | .visubH p vd va vb => some ⟨.v, (36#7 ++ p ++ vd ++ va ++ vb ++ 0#13).setWidth 64, 0⟩
  | .visubW p vd va vb => some ⟨.v, (37#7 ++ p ++ vd ++ va ++ vb ++ 0#13).setWidth 64, 0⟩
  | .vimulB p vd va vb => some ⟨.v, (38#7 ++ p ++ vd ++ va ++ vb ++ 0#13).setWidth 64, 0⟩
  | .vimulH p vd va vb => some ⟨.v, (39#7 ++ p ++ vd ++ va ++ vb ++ 0#13).setWidth 64, 0⟩
  | .vimulW p vd va vb => some ⟨.v, (40#7 ++ p ++ vd ++ va ++ vb ++ 0#13).setWidth 64, 0⟩
  | .vimacB p vd va vb vc => some ⟨.v, (41#7 ++ p ++ vd ++ va ++ vb ++ vc).setWidth 64, 0⟩
  | .vimacH p vd va vb vc => some ⟨.v, (42#7 ++ p ++ vd ++ va ++ vb ++ vc).setWidth 64, 0⟩
  | .vimacW p vd va vb vc => some ⟨.v, (43#7 ++ p ++ vd ++ va ++ vb ++ vc).setWidth 64, 0⟩
  | .vand p vd va vb => some ⟨.v, (44#7 ++ p ++ vd ++ va ++ vb ++ 0#13).setWidth 64, 0⟩
  | .vor p vd va vb => some ⟨.v, (45#7 ++ p ++ vd ++ va ++ vb ++ 0#13).setWidth 64, 0⟩
  | .vxor p vd va vb => some ⟨.v, (46#7 ++ p ++ vd ++ va ++ vb ++ 0#13).setWidth 64, 0⟩
  | .vpopc p vd va => some ⟨.v, (47#7 ++ p ++ vd ++ va ++ 0#26).setWidth 64, 0⟩
  | .viaddBScalar p vd va sb => some ⟨.v, (48#7 ++ p ++ vd ++ va ++ sb ++ 0#20).setWidth 64, 0⟩
  | .viaddHScalar p vd va sb => some ⟨.v, (49#7 ++ p ++ vd ++ va ++ sb ++ 0#20).setWidth 64, 0⟩
  | .viaddWScalar p vd va sb => some ⟨.v, (50#7 ++ p ++ vd ++ va ++ sb ++ 0#20).setWidth 64, 0⟩
  | .visubBScalar p vd va sb => some ⟨.v, (51#7 ++ p ++ vd ++ va ++ sb ++ 0#20).setWidth 64, 0⟩
  | .visubHScalar p vd va sb => some ⟨.v, (52#7 ++ p ++ vd ++ va ++ sb ++ 0#20).setWidth 64, 0⟩
  | .visubWScalar p vd va sb => some ⟨.v, (53#7 ++ p ++ vd ++ va ++ sb ++ 0#20).setWidth 64, 0⟩
  | .vimulBScalar p vd va sb => some ⟨.v, (54#7 ++ p ++ vd ++ va ++ sb ++ 0#20).setWidth 64, 0⟩
  | .vimulHScalar p vd va sb => some ⟨.v, (55#7 ++ p ++ vd ++ va ++ sb ++ 0#20).setWidth 64, 0⟩
  | .vimulWScalar p vd va sb => some ⟨.v, (56#7 ++ p ++ vd ++ va ++ sb ++ 0#20).setWidth 64, 0⟩
  | .vimacBScalar p vd va sb vc => some ⟨.v, (57#7 ++ p ++ vd ++ va ++ sb ++ vc ++ 0#7).setWidth 64, 0⟩
  | .vimacHScalar p vd va sb vc => some ⟨.v, (58#7 ++ p ++ vd ++ va ++ sb ++ vc ++ 0#7).setWidth 64, 0⟩
  | .vimacWScalar p vd va sb vc => some ⟨.v, (59#7 ++ p ++ vd ++ va ++ sb ++ vc ++ 0#7).setWidth 64, 0⟩
  | .vshlB p vd va amt => some ⟨.v, (64#7 ++ p ++ vd ++ va ++ amt ++ 0#21).setWidth 64, 0⟩
  | .vshlH p vd va amt => some ⟨.v, (65#7 ++ p ++ vd ++ va ++ amt ++ 0#21).setWidth 64, 0⟩
  | .vshlW p vd va amt => some ⟨.v, (66#7 ++ p ++ vd ++ va ++ amt ++ 0#21).setWidth 64, 0⟩
  | .vshrB p vd va amt => some ⟨.v, (67#7 ++ p ++ vd ++ va ++ amt ++ 0#21).setWidth 64, 0⟩
  | .vshrH p vd va amt => some ⟨.v, (68#7 ++ p ++ vd ++ va ++ amt ++ 0#21).setWidth 64, 0⟩
  | .vshrW p vd va amt => some ⟨.v, (69#7 ++ p ++ vd ++ va ++ amt ++ 0#21).setWidth 64, 0⟩
  | .vsarB p vd va amt => some ⟨.v, (70#7 ++ p ++ vd ++ va ++ amt ++ 0#21).setWidth 64, 0⟩
  | .vsarH p vd va amt => some ⟨.v, (71#7 ++ p ++ vd ++ va ++ amt ++ 0#21).setWidth 64, 0⟩
  | .vsarW p vd va amt => some ⟨.v, (72#7 ++ p ++ vd ++ va ++ amt ++ 0#21).setWidth 64, 0⟩
  | .vcvt p vd va sfmt dfmt => some ⟨.v, (73#7 ++ p ++ vd ++ va ++ sfmt ++ dfmt ++ 0#16).setWidth 64, 0⟩
  | .vcvtK p vd va sfmt dfmt => some ⟨.v, (74#7 ++ p ++ vd ++ va ++ sfmt ++ dfmt ++ 0#16).setWidth 64, 0⟩
  | .vpack p vd va vb ew3 => some ⟨.v, (75#7 ++ p ++ vd ++ va ++ vb ++ ew3 ++ 0#10).setWidth 64, 0⟩
  | .vunpk p vd va ew3 part => some ⟨.v, (76#7 ++ p ++ vd ++ va ++ ew3 ++ part ++ 0#19).setWidth 64, 0⟩
  | .vperm p vd va vb => some ⟨.v, (80#7 ++ p ++ vd ++ va ++ vb ++ 0#13).setWidth 64, 0⟩
  | .vshuf p vd va vb pattern => some ⟨.v, (81#7 ++ p ++ vd ++ va ++ vb ++ pattern ++ 0#8).setWidth 64, 0⟩
  | .vbcastScalar p vd sa ew => some ⟨.v, (82#7 ++ p ++ vd ++ sa ++ ew ++ 0#31).setWidth 64, 0⟩
  | .vbcastElement p vd va idx ew => some ⟨.v, (83#7 ++ p ++ vd ++ va ++ idx ++ ew ++ 0#15).setWidth 64, 0⟩
  | .vextrImm p sd va idx ew => some ⟨.v, (84#7 ++ p ++ sd ++ va ++ idx ++ ew ++ 0#22).setWidth 64, 0⟩
  | .vextrScalar p sd va si ew => some ⟨.v, (85#7 ++ p ++ sd ++ va ++ si ++ ew ++ 0#25).setWidth 64, 0⟩
  | .vinsImm p vd va sa idx ew => some ⟨.v, (86#7 ++ p ++ vd ++ va ++ sa ++ idx ++ ew ++ 0#9).setWidth 64, 0⟩
  | .vinsScalar p vd va sa si ew => some ⟨.v, (87#7 ++ p ++ vd ++ va ++ sa ++ si ++ ew ++ 0#12).setWidth 64, 0⟩
  | .vmov p vd va => some ⟨.v, (88#7 ++ p ++ vd ++ va ++ 0#26).setWidth 64, 0⟩
  | .vrng p vd sseed sseq spos draw => some ⟨.v, (89#7 ++ p ++ vd ++ sseed ++ sseq ++ spos ++ draw ++ 0#5).setWidth 64, 0⟩
  | .vrngF p vd sseed sseq spos draw => some ⟨.v, (90#7 ++ p ++ vd ++ sseed ++ sseq ++ spos ++ draw ++ 0#5).setWidth 64, 0⟩
  | .tapp p tap seq va rows => some ⟨.v, (92#7 ++ p ++ tap ++ seq ++ va ++ rows ++ 0#22).setWidth 64, 0⟩
  | .taps p tap seq va rows sc => some ⟨.v, (93#7 ++ p ++ tap ++ seq ++ va ++ rows ++ sc ++ 0#16).setWidth 64, 0⟩
  | .tapld p tap sa => some ⟨.v, (94#7 ++ p ++ tap ++ sa ++ 0#43).setWidth 64, 0⟩
  | .taprd p sd tap what => some ⟨.v, (95#7 ++ p ++ sd ++ tap ++ what ++ 0#42).setWidth 64, 0⟩
  | .vredsumF p vd va => some ⟨.v, (96#7 ++ p ++ vd ++ va ++ 0#26).setWidth 64, 0⟩
  | .vredsumI p vd va => some ⟨.v, (97#7 ++ p ++ vd ++ va ++ 0#26).setWidth 64, 0⟩
  | .vredmaxF p vd va => some ⟨.v, (98#7 ++ p ++ vd ++ va ++ 0#26).setWidth 64, 0⟩
  | .vredmaxSi p vd va => some ⟨.v, (99#7 ++ p ++ vd ++ va ++ 0#26).setWidth 64, 0⟩
  | .vredminF p vd va => some ⟨.v, (100#7 ++ p ++ vd ++ va ++ 0#26).setWidth 64, 0⟩
  | .vredminSi p vd va => some ⟨.v, (101#7 ++ p ++ vd ++ va ++ 0#26).setWidth 64, 0⟩
  | .vargmax p vd va => some ⟨.v, (102#7 ++ p ++ vd ++ va ++ 0#26).setWidth 64, 0⟩
  | .vscanF p vd va => some ⟨.v, (103#7 ++ p ++ vd ++ va ++ 0#26).setWidth 64, 0⟩
  | .vscanI p vd va => some ⟨.v, (104#7 ++ p ++ vd ++ va ++ 0#26).setWidth 64, 0⟩
  | .ksetImm p kd axis format block value => some ⟨.v, (106#7 ++ p ++ kd ++ axis ++ format ++ block ++ value ++ 0#21).setWidth 64, 0⟩
  | .ksetScalar p kd axis format block sa => some ⟨.v, (107#7 ++ p ++ kd ++ axis ++ format ++ block ++ sa ++ 0#31).setWidth 64, 0⟩
  | .kmov p kd ka => some ⟨.v, (108#7 ++ p ++ kd ++ ka ++ 0#36).setWidth 64, 0⟩
  | .kmul p kd ka kb => some ⟨.v, (109#7 ++ p ++ kd ++ ka ++ kb ++ 0#28).setWidth 64, 0⟩
  | .kaddeImm p kd ka step => some ⟨.v, (110#7 ++ p ++ kd ++ ka ++ step ++ 0#28).setWidth 64, 0⟩
  | .kaddeScalar p kd ka sb => some ⟨.v, (111#7 ++ p ++ kd ++ ka ++ sb ++ 0#30).setWidth 64, 0⟩
  | .kmaxe p kd ka kb => some ⟨.v, (112#7 ++ p ++ kd ++ ka ++ kb ++ 0#28).setWidth 64, 0⟩
  | .kcvtBf16 p kd ka => some ⟨.v, (113#7 ++ p ++ kd ++ ka ++ 0#36).setWidth 64, 0⟩
  | .kcvtE8m0 p kd ka => some ⟨.v, (114#7 ++ p ++ kd ++ ka ++ 0#36).setWidth 64, 0⟩
  | .kbindTile p tile ks axis block => some ⟨.v, (115#7 ++ p ++ tile ++ ks ++ axis ++ block ++ 0#34).setWidth 64, 0⟩
  | .kbindBank p cm bank ks axis block => some ⟨.v, (116#7 ++ p ++ cm ++ bank ++ ks ++ axis ++ block ++ 0#35).setWidth 64, 0⟩
  | .kunbindTile p tile => some ⟨.v, (117#7 ++ p ++ tile ++ 0#47).setWidth 64, 0⟩
  | .kunbindBank p cm bank => some ⟨.v, (118#7 ++ p ++ cm ++ bank ++ 0#48).setWidth 64, 0⟩
  | .krdRow p vd ks => some ⟨.v, (119#7 ++ p ++ vd ++ ks ++ 0#31).setWidth 64, 0⟩
  | .krdScalar p sd ks entry sel => some ⟨.v, (120#7 ++ p ++ sd ++ ks ++ entry ++ sel ++ 0#31).setWidth 64, 0⟩
  | .kwrRow p kd va => some ⟨.v, (121#7 ++ p ++ kd ++ va ++ 0#31).setWidth 64, 0⟩
  | .kwrScalar p kd sa entry => some ⟨.v, (122#7 ++ p ++ kd ++ sa ++ entry ++ 0#32).setWidth 64, 0⟩
  | .kgen p kd va axis block format => some ⟨.v, (123#7 ++ p ++ kd ++ va ++ axis ++ block ++ format ++ 0#24).setWidth 64, 0⟩
  | .mmaL6 p vd abay aoff bbay boff alane blane sg sc => some ⟨.m, (0#5 ++ p ++ vd ++ abay ++ aoff ++ bbay ++ boff ++ alane ++ blane ++ sg ++ sc ++ 0#2).setWidth 64, 0⟩
  | .mmaI8 p vd abay aoff bbay boff alane blane sg sc => some ⟨.m, (1#5 ++ p ++ vd ++ abay ++ aoff ++ bbay ++ boff ++ alane ++ blane ++ sg ++ sc ++ 0#2).setWidth 64, 0⟩
  | .mmaE4m3 p vd abay aoff bbay boff alane blane sg sc => some ⟨.m, (2#5 ++ p ++ vd ++ abay ++ aoff ++ bbay ++ boff ++ alane ++ blane ++ sg ++ sc ++ 0#2).setWidth 64, 0⟩
  | .mmaE5m2 p vd abay aoff bbay boff alane blane sg sc => some ⟨.m, (3#5 ++ p ++ vd ++ abay ++ aoff ++ bbay ++ boff ++ alane ++ blane ++ sg ++ sc ++ 0#2).setWidth 64, 0⟩
  | .mmaE4e5 p vd abay aoff bbay boff alane blane sg sc => some ⟨.m, (4#5 ++ p ++ vd ++ abay ++ aoff ++ bbay ++ boff ++ alane ++ blane ++ sg ++ sc ++ 0#2).setWidth 64, 0⟩
  | .mmaE5e4 p vd abay aoff bbay boff alane blane sg sc => some ⟨.m, (5#5 ++ p ++ vd ++ abay ++ aoff ++ bbay ++ boff ++ alane ++ blane ++ sg ++ sc ++ 0#2).setWidth 64, 0⟩
  | .mmaBf16 p vd abay aoff bbay boff alane blane sg sc => some ⟨.m, (6#5 ++ p ++ vd ++ abay ++ aoff ++ bbay ++ boff ++ alane ++ blane ++ sg ++ sc ++ 0#2).setWidth 64, 0⟩
  | .mmaFp16 p vd abay aoff bbay boff alane blane sg sc => some ⟨.m, (7#5 ++ p ++ vd ++ abay ++ aoff ++ bbay ++ boff ++ alane ++ blane ++ sg ++ sc ++ 0#2).setWidth 64, 0⟩
  | .mmazL6 p vd abay aoff bbay boff alane blane sg sc => some ⟨.m, (8#5 ++ p ++ vd ++ abay ++ aoff ++ bbay ++ boff ++ alane ++ blane ++ sg ++ sc ++ 0#2).setWidth 64, 0⟩
  | .mmazI8 p vd abay aoff bbay boff alane blane sg sc => some ⟨.m, (9#5 ++ p ++ vd ++ abay ++ aoff ++ bbay ++ boff ++ alane ++ blane ++ sg ++ sc ++ 0#2).setWidth 64, 0⟩
  | .mmazE4m3 p vd abay aoff bbay boff alane blane sg sc => some ⟨.m, (10#5 ++ p ++ vd ++ abay ++ aoff ++ bbay ++ boff ++ alane ++ blane ++ sg ++ sc ++ 0#2).setWidth 64, 0⟩
  | .mmazE5m2 p vd abay aoff bbay boff alane blane sg sc => some ⟨.m, (11#5 ++ p ++ vd ++ abay ++ aoff ++ bbay ++ boff ++ alane ++ blane ++ sg ++ sc ++ 0#2).setWidth 64, 0⟩
  | .mmazE4e5 p vd abay aoff bbay boff alane blane sg sc => some ⟨.m, (12#5 ++ p ++ vd ++ abay ++ aoff ++ bbay ++ boff ++ alane ++ blane ++ sg ++ sc ++ 0#2).setWidth 64, 0⟩
  | .mmazE5e4 p vd abay aoff bbay boff alane blane sg sc => some ⟨.m, (13#5 ++ p ++ vd ++ abay ++ aoff ++ bbay ++ boff ++ alane ++ blane ++ sg ++ sc ++ 0#2).setWidth 64, 0⟩
  | .mmazBf16 p vd abay aoff bbay boff alane blane sg sc => some ⟨.m, (14#5 ++ p ++ vd ++ abay ++ aoff ++ bbay ++ boff ++ alane ++ blane ++ sg ++ sc ++ 0#2).setWidth 64, 0⟩
  | .mmazFp16 p vd abay aoff bbay boff alane blane sg sc => some ⟨.m, (15#5 ++ p ++ vd ++ abay ++ aoff ++ bbay ++ boff ++ alane ++ blane ++ sg ++ sc ++ 0#2).setWidth 64, 0⟩
  | .mxhint p burst => some ⟨.m, (16#5 ++ p ++ 0#38 ++ burst).setWidth 64, 0⟩
  | .cmode p mode mask => some ⟨.m, (17#5 ++ p ++ 0#45 ++ mode ++ mask).setWidth 64, 0⟩
  | .cloadRow p vs cm first wfmt => some ⟨.m, (18#5 ++ p ++ vs ++ cm ++ first ++ wfmt ++ 0#25).setWidth 64, 0⟩
  | .cloadRound p bay off lane cm first wfmt => some ⟨.m, (19#5 ++ p ++ bay ++ off ++ lane ++ cm ++ first ++ wfmt ++ 0#19).setWidth 64, 0⟩
  | .cswap p mask => some ⟨.m, (20#5 ++ p ++ 0#46 ++ mask).setWidth 64, 0⟩
  | .cmacRow p mask va abits asigned wacc => some ⟨.m, (21#5 ++ p ++ mask ++ va ++ abits ++ asigned ++ wacc ++ 0#24).setWidth 64, 0⟩
  | .cmacRound p mask bay off lane abits asigned wacc => some ⟨.m, (22#5 ++ p ++ mask ++ bay ++ off ++ lane ++ abits ++ asigned ++ wacc ++ 0#18).setWidth 64, 0⟩
  | .cread p vd cm half => some ⟨.m, (23#5 ++ p ++ vd ++ cm ++ half ++ 0#37).setWidth 64, 0⟩
  | .creadK p vd cm half => some ⟨.m, (24#5 ++ p ++ vd ++ cm ++ half ++ 0#37).setWidth 64, 0⟩
  | .cclr p mask => some ⟨.m, (25#5 ++ p ++ 0#46 ++ mask).setWidth 64, 0⟩
  | .cchk p bank cm => some ⟨.m, (26#5 ++ p ++ 0#50 ++ bank ++ cm).setWidth 64, 0⟩
  | .ld p vd w kd delay => some ⟨.l, (0#4 ++ p ++ vd ++ w ++ kd ++ delay ++ 0#9).setWidth 64, 0⟩
  | .ldr p vd bay off lane => some ⟨.l, (1#4 ++ p ++ vd ++ bay ++ off ++ lane ++ 0#15).setWidth 64, 0⟩
  | .ldkStream p kd w delay => some ⟨.l, (2#4 ++ p ++ kd ++ w ++ delay ++ 0#22).setWidth 64, 0⟩
  | .ldkRound p kd bay off lane => some ⟨.l, (3#4 ++ p ++ kd ++ bay ++ off ++ lane ++ 0#20).setWidth 64, 0⟩
  | .ldsRound p sd bay off8 lane => some ⟨.l, (4#4 ++ p ++ sd ++ bay ++ off8 ++ lane ++ 0#19).setWidth 64, 0⟩
  | .ldsStream p sd w delay => some ⟨.l, (5#4 ++ p ++ sd ++ w ++ delay ++ 0#24).setWidth 64, 0⟩
  | .popVector p vd q delay => some ⟨.l, (6#4 ++ p ++ vd ++ q ++ delay ++ 0#17).setWidth 64, 0⟩
  | .popScalar p sd q delay => some ⟨.l, (7#4 ++ p ++ sd ++ q ++ delay ++ 0#24).setWidth 64, 0⟩
  | .fill p tok tile w => some ⟨.l, (8#4 ++ p ++ tok ++ tile ++ w ++ 0#31).setWidth 64, 0⟩
  | .st p w vs ks => some (encodeX (.st p w vs ks))
  | .str p bay off lane vs => some (encodeX (.str p bay off lane vs))
  | .stkStream p w ks => some (encodeX (.stkStream p w ks))
  | .stkRound p bay off lane ks => some (encodeX (.stkRound p bay off lane ks))
  | .stsRound p bay off8 lane a => some (encodeX (.stsRound p bay off8 lane a))
  | .stsStream p w a => some (encodeX (.stsStream p w a))
  | .pushVector p q vs => some (encodeX (.pushVector p q vs))
  | .pushScalar p q a => some (encodeX (.pushScalar p q a))
  | .spill p tok tile w => some (encodeX (.spill p tok tile w))
  | .movpRound p bay off lane port => some (encodeX (.movpRound p bay off lane port))
  | .movpScalar p a port lane => some (encodeX (.movpScalar p a port lane))
  | .xfer p frm dest lane fromaddr toaddr => some (encodeX (.xfer p frm dest lane fromaddr toaddr))
  | .redsVector p vs t op ty sem => some (encodeX (.redsVector p vs t op ty sem))
  | .redsScalar p a t op ty sem => some (encodeX (.redsScalar p a t op ty sem))
  | .scfgTable p w entry => some (encodeX (.scfgTable p w entry))
  | .scfgScalar p w word a => some (encodeX (.scfgScalar p w word a))
  | .sadv p w dim steps => some (encodeX (.sadv p w dim steps))
  | .srst p w => some (encodeX (.srst p w))
  | .yardCycle => none
  | .rewindRestore _ => none
  | .segmentEntry _ => none
  | .yieldBundle _ => none
  | .deadlineExpiry _ => none
  | .checkRetest _ => none
  | .offdieLoadLanding _ _ => none
  | .offcoreAccessPerform _ _ => none
  | .pushAccepted _ _ => none
  | .tokenComplete _ _ => none
  | .probeAnswer _ _ => none
  | .rendezvousRelease _ _ => none
  | .barrierRelease _ _ _ => none
  | .redsApply _ => none
  | .mxwinWrite _ _ => none
  | .mxwinTakesEffect _ => none
  | .dxBackref _ => none
  | .dxCopy _ => none
  | .txTranspose _ => none
  | .hxSha256 _ => none
  | .qxConvert _ => none
  | .stationJobEnd _ _ => none
  | .arrayCold _ => none
  | .shadowFillAccept _ _ => none
  | .shadowFillEnd _ _ => none
  | .hangTimeout _ => none
  | .hostWrite _ _ => none
  | .hostRead _ _ _ => none
  | .queueResume _ _ => none
  | .queueEnd _ _ => none
  | .queueCancel _ _ => none
  | .placementDecision => none
  | .launchRunStart _ => none
  | .contextRelease _ => none
  | .launchCompletion _ => none
  | .swapOut _ _ => none
  | .swapOutSave _ _ => none
  | .dramMeterWindow _ => none
  | .auditVerdict _ _ _ => none
  | .scrubPass => none
  | .sieveAgeing => none
  | .linkCrcError _ _ _ => none
  | .repairRequest _ => none
  | .repairCopy => none
  | .yardLost _ _ => none
  | .thermalTrip _ => none
  | .yardActivate _ _ => none
  | .yardDeclareLost _ => none
  | .yardSelfTestDone _ _ => none
  | .degrArrayFailed _ => none
  | .degrMacroFailed _ _ _ => none
  | .degrClear _ => none
  | .rqCompact => none
  | .rqExpand => none
  | .rqMove => none
  | .rqMakeAbsent => none
  | .rqMakeResident => none
  | .rqJobEnd => none
  | .hostMemwr _ _ => none
  | .birsp _ => none
  | .regionWindowEnd _ => none
  | .hostSnoop _ _ => none
  | .gpfPhase1 => none
  | .hostHotReset => none
  | .hostLinkDown => none
  | .tableSweep => none
  | .linkRetrained => none
  | .tokenElementAccept _ _ => none
  | .commitElementDelivery _ => none
  | .ringRecordWrite _ => none
  | .freeFaultEntry => none
  | .firmwareRequestPost _ => none
  | .openQueues _ => none
  | .eventClear _ => none
  | .fbstatOverflowClear _ => none
  | .suspectClear _ _ => none
  | .regionEntryWrite _ => none
  | .svdataAccess _ _ _ => none
  | .measurementExtend _ => none
  | .hashRegistration _ => none
  | .clockFloorChange _ => none
  | .privCsrWrite _ _ _ => none
  | .eventTimer => none
  | .controlContextEntry => none
  | .quote _ => none
  | .certificate _ => none
  | .writeImageChunk _ => none
  | .commitImage _ => none
  | .advanceSecurityVersion _ => none
  | .readErrorLog _ => none
  | .readHangRecord _ => none
  | .readLostLineRing _ => none
  | .mailboxStandardCommand _ _ => none
  | .mailboxUnsupported _ => none
  | .moduleReset => none
  | .memoryTrained => none
  | .trainingFailure _ => none
  | .imageVerify => none
  | .bringupSelfTestDone _ => none
  | .tapldCopyComplete _ => none
  | .registrationEnd => none

/-- The predicate field of a slot operation; Y's three bits name p0 to p7 (R75). -/
def Instr.predField : Instr → BitVec 5
  | .nop p => 0#2 ++ p
  | .bar p _ => 0#2 ++ p
  | .rdv p _ => 0#2 ++ p
  | .waitdImm p _ => 0#2 ++ p
  | .waitdScalar p _ => 0#2 ++ p
  | .fence p _ => 0#2 ++ p
  | .semsig p _ _ => 0#2 ++ p
  | .semsigScalar p _ _ => 0#2 ++ p
  | .semwait p _ _ => 0#2 ++ p
  | .yield p => 0#2 ++ p
  | .svc p _ => 0#2 ++ p
  | .trap p _ => 0#2 ++ p
  | .halt p => 0#2 ++ p
  | .probe p _ _ => 0#2 ++ p
  | .discard p _ _ => 0#2 ++ p
  | .exit p => 0#2 ++ p
  | .add p _ _ _ => p
  | .sub p _ _ _ => p
  | .mul p _ _ _ => p
  | .mulh p _ _ _ => p
  | .mulhs p _ _ _ => p
  | .div p _ _ _ => p
  | .divs p _ _ _ => p
  | .rem p _ _ _ => p
  | .and p _ _ _ => p
  | .or p _ _ _ => p
  | .xor p _ _ _ => p
  | .andn p _ _ _ => p
  | .shl p _ _ _ => p
  | .shr p _ _ _ => p
  | .sar p _ _ _ => p
  | .rotl p _ _ _ => p
  | .min p _ _ _ => p
  | .max p _ _ _ => p
  | .mins p _ _ _ => p
  | .maxs p _ _ _ => p
  | .addsh p _ _ _ _ => p
  | .clz p _ _ => p
  | .popc p _ _ => p
  | .sel p _ _ _ _ => p
  | .addi p _ _ _ _ => p
  | .mulImm p _ _ _ _ => p
  | .andImm p _ _ _ _ => p
  | .orImm p _ _ _ _ => p
  | .xorImm p _ _ _ _ => p
  | .shlImm p _ _ _ _ => p
  | .shrImm p _ _ _ _ => p
  | .sarImm p _ _ _ _ => p
  | .rotlImm p _ _ _ _ => p
  | .minImm p _ _ _ _ => p
  | .maxImm p _ _ _ _ => p
  | .minsImm p _ _ _ _ => p
  | .maxsImm p _ _ _ _ => p
  | .cmpeq p _ _ _ => p
  | .cmpne p _ _ _ => p
  | .cmplt p _ _ _ => p
  | .cmplts p _ _ _ => p
  | .cmple p _ _ _ => p
  | .cmples p _ _ _ => p
  | .cmpeqImm p _ _ _ _ => p
  | .cmpneImm p _ _ _ _ => p
  | .cmpltImm p _ _ _ _ => p
  | .cmpltsImm p _ _ _ _ => p
  | .cmpleImm p _ _ _ _ => p
  | .cmplesImm p _ _ _ _ => p
  | .li p _ _ _ => p
  | .liLong p _ _ => p
  | .pset p _ _ => p
  | .pand p _ _ _ _ _ => p
  | .por p _ _ _ _ _ => p
  | .pxor p _ _ _ _ _ => p
  | .pnot p _ _ => p
  | .br p _ => p
  | .brScalar p _ => p
  | .bc p _ _ _ _ => p
  | .call p _ _ => p
  | .ret p _ => p
  | .loopScalar p _ _ => p
  | .loopNbound p _ _ => p
  | .loopImm p _ _ => p
  | .lexit p => p
  | .lidx p _ _ => p
  | .csrr p _ _ => p
  | .csrw p _ _ => p
  | .csrwImm p _ _ => p
  | .nbnd p _ _ => p
  | .nbndImm p _ _ => p
  | .vadd p _ _ _ => p
  | .vsub p _ _ _ => p
  | .vmul p _ _ _ => p
  | .vmin p _ _ _ => p
  | .vmax p _ _ _ => p
  | .vfma p _ _ _ _ => p
  | .vfms p _ _ _ _ => p
  | .vfnma p _ _ _ _ => p
  | .vaddScalar p _ _ _ => p
  | .vsubScalar p _ _ _ => p
  | .vmulScalar p _ _ _ => p
  | .vminScalar p _ _ _ => p
  | .vmaxScalar p _ _ _ => p
  | .vfmaScalar p _ _ _ _ => p
  | .vfmsScalar p _ _ _ _ => p
  | .vfnmaScalar p _ _ _ _ => p
  | .vabs p _ _ => p
  | .vneg p _ _ => p
  | .vrcp p _ _ => p
  | .vrsq p _ _ => p
  | .vexp2 p _ _ => p
  | .vlog2 p _ _ => p
  | .vclamp p _ _ _ _ => p
  | .vsel p _ _ _ _ => p
  | .vcmpeqF p _ _ _ => p
  | .vcmpeqI p _ _ _ => p
  | .vcmpltF p _ _ _ => p
  | .vcmpltSi p _ _ _ => p
  | .vcmpltUi p _ _ _ => p
  | .vcmpleF p _ _ _ => p
  | .vcmpleSi p _ _ _ => p
  | .vcmpleUi p _ _ _ => p
  | .viaddB p _ _ _ => p
  | .viaddH p _ _ _ => p
  | .viaddW p _ _ _ => p
  | .visubB p _ _ _ => p
  | .visubH p _ _ _ => p
  | .visubW p _ _ _ => p
  | .vimulB p _ _ _ => p
  | .vimulH p _ _ _ => p
  | .vimulW p _ _ _ => p
  | .vimacB p _ _ _ _ => p
  | .vimacH p _ _ _ _ => p
  | .vimacW p _ _ _ _ => p
  | .vand p _ _ _ => p
  | .vor p _ _ _ => p
  | .vxor p _ _ _ => p
  | .vpopc p _ _ => p
  | .viaddBScalar p _ _ _ => p
  | .viaddHScalar p _ _ _ => p
  | .viaddWScalar p _ _ _ => p
  | .visubBScalar p _ _ _ => p
  | .visubHScalar p _ _ _ => p
  | .visubWScalar p _ _ _ => p
  | .vimulBScalar p _ _ _ => p
  | .vimulHScalar p _ _ _ => p
  | .vimulWScalar p _ _ _ => p
  | .vimacBScalar p _ _ _ _ => p
  | .vimacHScalar p _ _ _ _ => p
  | .vimacWScalar p _ _ _ _ => p
  | .vshlB p _ _ _ => p
  | .vshlH p _ _ _ => p
  | .vshlW p _ _ _ => p
  | .vshrB p _ _ _ => p
  | .vshrH p _ _ _ => p
  | .vshrW p _ _ _ => p
  | .vsarB p _ _ _ => p
  | .vsarH p _ _ _ => p
  | .vsarW p _ _ _ => p
  | .vcvt p _ _ _ _ => p
  | .vcvtK p _ _ _ _ => p
  | .vpack p _ _ _ _ => p
  | .vunpk p _ _ _ _ => p
  | .vperm p _ _ _ => p
  | .vshuf p _ _ _ _ => p
  | .vbcastScalar p _ _ _ => p
  | .vbcastElement p _ _ _ _ => p
  | .vextrImm p _ _ _ _ => p
  | .vextrScalar p _ _ _ _ => p
  | .vinsImm p _ _ _ _ _ => p
  | .vinsScalar p _ _ _ _ _ => p
  | .vmov p _ _ => p
  | .vrng p _ _ _ _ _ => p
  | .vrngF p _ _ _ _ _ => p
  | .tapp p _ _ _ _ => p
  | .taps p _ _ _ _ _ => p
  | .tapld p _ _ => p
  | .taprd p _ _ _ => p
  | .vredsumF p _ _ => p
  | .vredsumI p _ _ => p
  | .vredmaxF p _ _ => p
  | .vredmaxSi p _ _ => p
  | .vredminF p _ _ => p
  | .vredminSi p _ _ => p
  | .vargmax p _ _ => p
  | .vscanF p _ _ => p
  | .vscanI p _ _ => p
  | .ksetImm p _ _ _ _ _ => p
  | .ksetScalar p _ _ _ _ _ => p
  | .kmov p _ _ => p
  | .kmul p _ _ _ => p
  | .kaddeImm p _ _ _ => p
  | .kaddeScalar p _ _ _ => p
  | .kmaxe p _ _ _ => p
  | .kcvtBf16 p _ _ => p
  | .kcvtE8m0 p _ _ => p
  | .kbindTile p _ _ _ _ => p
  | .kbindBank p _ _ _ _ _ => p
  | .kunbindTile p _ => p
  | .kunbindBank p _ _ => p
  | .krdRow p _ _ => p
  | .krdScalar p _ _ _ _ => p
  | .kwrRow p _ _ => p
  | .kwrScalar p _ _ _ => p
  | .kgen p _ _ _ _ _ => p
  | .mmaL6 p _ _ _ _ _ _ _ _ _ => p
  | .mmaI8 p _ _ _ _ _ _ _ _ _ => p
  | .mmaE4m3 p _ _ _ _ _ _ _ _ _ => p
  | .mmaE5m2 p _ _ _ _ _ _ _ _ _ => p
  | .mmaE4e5 p _ _ _ _ _ _ _ _ _ => p
  | .mmaE5e4 p _ _ _ _ _ _ _ _ _ => p
  | .mmaBf16 p _ _ _ _ _ _ _ _ _ => p
  | .mmaFp16 p _ _ _ _ _ _ _ _ _ => p
  | .mmazL6 p _ _ _ _ _ _ _ _ _ => p
  | .mmazI8 p _ _ _ _ _ _ _ _ _ => p
  | .mmazE4m3 p _ _ _ _ _ _ _ _ _ => p
  | .mmazE5m2 p _ _ _ _ _ _ _ _ _ => p
  | .mmazE4e5 p _ _ _ _ _ _ _ _ _ => p
  | .mmazE5e4 p _ _ _ _ _ _ _ _ _ => p
  | .mmazBf16 p _ _ _ _ _ _ _ _ _ => p
  | .mmazFp16 p _ _ _ _ _ _ _ _ _ => p
  | .mxhint p _ => p
  | .cmode p _ _ => p
  | .cloadRow p _ _ _ _ => p
  | .cloadRound p _ _ _ _ _ _ => p
  | .cswap p _ => p
  | .cmacRow p _ _ _ _ _ => p
  | .cmacRound p _ _ _ _ _ _ _ => p
  | .cread p _ _ _ => p
  | .creadK p _ _ _ => p
  | .cclr p _ => p
  | .cchk p _ _ => p
  | .ld p _ _ _ _ => p
  | .ldr p _ _ _ _ => p
  | .ldkStream p _ _ _ => p
  | .ldkRound p _ _ _ _ => p
  | .ldsRound p _ _ _ _ => p
  | .ldsStream p _ _ _ => p
  | .popVector p _ _ _ => p
  | .popScalar p _ _ _ => p
  | .fill p _ _ _ => p
  | .st p _ _ _ => p
  | .str p _ _ _ _ => p
  | .stkStream p _ _ => p
  | .stkRound p _ _ _ _ => p
  | .stsRound p _ _ _ _ => p
  | .stsStream p _ _ => p
  | .pushVector p _ _ => p
  | .pushScalar p _ _ => p
  | .spill p _ _ _ => p
  | .movpRound p _ _ _ _ => p
  | .movpScalar p _ _ _ => p
  | .xfer p _ _ _ _ _ => p
  | .redsVector p _ _ _ _ _ => p
  | .redsScalar p _ _ _ _ _ => p
  | .scfgTable p _ _ => p
  | .scfgScalar p _ _ _ => p
  | .sadv p _ _ _ => p
  | .srst p _ => p
  | .yardCycle => 0
  | .rewindRestore _ => 0
  | .segmentEntry _ => 0
  | .yieldBundle _ => 0
  | .deadlineExpiry _ => 0
  | .checkRetest _ => 0
  | .offdieLoadLanding _ _ => 0
  | .offcoreAccessPerform _ _ => 0
  | .pushAccepted _ _ => 0
  | .tokenComplete _ _ => 0
  | .probeAnswer _ _ => 0
  | .rendezvousRelease _ _ => 0
  | .barrierRelease _ _ _ => 0
  | .redsApply _ => 0
  | .mxwinWrite _ _ => 0
  | .mxwinTakesEffect _ => 0
  | .dxBackref _ => 0
  | .dxCopy _ => 0
  | .txTranspose _ => 0
  | .hxSha256 _ => 0
  | .qxConvert _ => 0
  | .stationJobEnd _ _ => 0
  | .arrayCold _ => 0
  | .shadowFillAccept _ _ => 0
  | .shadowFillEnd _ _ => 0
  | .hangTimeout _ => 0
  | .hostWrite _ _ => 0
  | .hostRead _ _ _ => 0
  | .queueResume _ _ => 0
  | .queueEnd _ _ => 0
  | .queueCancel _ _ => 0
  | .placementDecision => 0
  | .launchRunStart _ => 0
  | .contextRelease _ => 0
  | .launchCompletion _ => 0
  | .swapOut _ _ => 0
  | .swapOutSave _ _ => 0
  | .dramMeterWindow _ => 0
  | .auditVerdict _ _ _ => 0
  | .scrubPass => 0
  | .sieveAgeing => 0
  | .linkCrcError _ _ _ => 0
  | .repairRequest _ => 0
  | .repairCopy => 0
  | .yardLost _ _ => 0
  | .thermalTrip _ => 0
  | .yardActivate _ _ => 0
  | .yardDeclareLost _ => 0
  | .yardSelfTestDone _ _ => 0
  | .degrArrayFailed _ => 0
  | .degrMacroFailed _ _ _ => 0
  | .degrClear _ => 0
  | .rqCompact => 0
  | .rqExpand => 0
  | .rqMove => 0
  | .rqMakeAbsent => 0
  | .rqMakeResident => 0
  | .rqJobEnd => 0
  | .hostMemwr _ _ => 0
  | .birsp _ => 0
  | .regionWindowEnd _ => 0
  | .hostSnoop _ _ => 0
  | .gpfPhase1 => 0
  | .hostHotReset => 0
  | .hostLinkDown => 0
  | .tableSweep => 0
  | .linkRetrained => 0
  | .tokenElementAccept _ _ => 0
  | .commitElementDelivery _ => 0
  | .ringRecordWrite _ => 0
  | .freeFaultEntry => 0
  | .firmwareRequestPost _ => 0
  | .openQueues _ => 0
  | .eventClear _ => 0
  | .fbstatOverflowClear _ => 0
  | .suspectClear _ _ => 0
  | .regionEntryWrite _ => 0
  | .svdataAccess _ _ _ => 0
  | .measurementExtend _ => 0
  | .hashRegistration _ => 0
  | .clockFloorChange _ => 0
  | .privCsrWrite _ _ _ => 0
  | .eventTimer => 0
  | .controlContextEntry => 0
  | .quote _ => 0
  | .certificate _ => 0
  | .writeImageChunk _ => 0
  | .commitImage _ => 0
  | .advanceSecurityVersion _ => 0
  | .readErrorLog _ => 0
  | .readHangRecord _ => 0
  | .readLostLineRing _ => 0
  | .mailboxStandardCommand _ _ => 0
  | .mailboxUnsupported _ => 0
  | .moduleReset => 0
  | .memoryTrained => 0
  | .trainingFailure _ => 0
  | .imageVerify => 0
  | .bringupSelfTestDone _ => 0
  | .tapldCopyComplete _ => 0
  | .registrationEnd => 0

/-- The predicate field of a W or C operation (R75). -/
def XOp.predField : XOp → BitVec 5
  | .st p _ _ _ => p
  | .str p _ _ _ _ => p
  | .stkStream p _ _ => p
  | .stkRound p _ _ _ _ => p
  | .stsRound p _ _ _ _ => p
  | .stsStream p _ _ => p
  | .pushVector p _ _ => p
  | .pushScalar p _ _ => p
  | .spill p _ _ _ => p
  | .movpRound p _ _ _ _ => p
  | .movpScalar p _ _ _ => p
  | .xfer p _ _ _ _ _ => p
  | .redsVector p _ _ _ _ _ => p
  | .redsScalar p _ _ _ _ _ => p
  | .scfgTable p _ _ => p
  | .scfgScalar p _ _ _ => p
  | .sadv p _ _ _ => p
  | .srst p _ => p

/-- The vector-file reads of a W or C operation (R113, R114). -/
def XOp.ports : XOp → Nat
  | .st _ _ _ _ => 1
  | .str _ _ _ _ _ => 1
  | .stkStream _ _ _ => 0
  | .stkRound _ _ _ _ _ => 0
  | .stsRound _ _ _ _ _ => 0
  | .stsStream _ _ _ => 0
  | .pushVector _ _ _ => 1
  | .pushScalar _ _ _ => 0
  | .spill _ _ _ _ => 0
  | .movpRound _ _ _ _ _ => 0
  | .movpScalar _ _ _ _ => 0
  | .xfer _ frm _ _ _ _ => if frm.toNat = 1 ∨ frm.toNat = 9 then 1 else 0
  | .redsVector _ _ _ _ _ _ => 1
  | .redsScalar _ _ _ _ _ _ => 0
  | .scfgTable _ _ _ => 0
  | .scfgScalar _ _ _ _ => 0
  | .sadv _ _ _ _ => 0
  | .srst _ _ => 0

/-- The vector-file reads a slot operation makes through its ports (R86, R108, R110 to R114). -/
def Instr.ports : Instr → Nat
  | .nop _ => 0
  | .bar _ _ => 0
  | .rdv _ _ => 0
  | .waitdImm _ _ => 0
  | .waitdScalar _ _ => 0
  | .fence _ _ => 0
  | .semsig _ _ _ => 0
  | .semsigScalar _ _ _ => 0
  | .semwait _ _ _ => 0
  | .yield _ => 0
  | .svc _ _ => 0
  | .trap _ _ => 0
  | .halt _ => 0
  | .probe _ _ _ => 0
  | .discard _ _ _ => 0
  | .exit _ => 0
  | .add _ _ _ _ => 0
  | .sub _ _ _ _ => 0
  | .mul _ _ _ _ => 0
  | .mulh _ _ _ _ => 0
  | .mulhs _ _ _ _ => 0
  | .div _ _ _ _ => 0
  | .divs _ _ _ _ => 0
  | .rem _ _ _ _ => 0
  | .and _ _ _ _ => 0
  | .or _ _ _ _ => 0
  | .xor _ _ _ _ => 0
  | .andn _ _ _ _ => 0
  | .shl _ _ _ _ => 0
  | .shr _ _ _ _ => 0
  | .sar _ _ _ _ => 0
  | .rotl _ _ _ _ => 0
  | .min _ _ _ _ => 0
  | .max _ _ _ _ => 0
  | .mins _ _ _ _ => 0
  | .maxs _ _ _ _ => 0
  | .addsh _ _ _ _ _ => 0
  | .clz _ _ _ => 0
  | .popc _ _ _ => 0
  | .sel _ _ _ _ _ => 0
  | .addi _ _ _ _ _ => 0
  | .mulImm _ _ _ _ _ => 0
  | .andImm _ _ _ _ _ => 0
  | .orImm _ _ _ _ _ => 0
  | .xorImm _ _ _ _ _ => 0
  | .shlImm _ _ _ _ _ => 0
  | .shrImm _ _ _ _ _ => 0
  | .sarImm _ _ _ _ _ => 0
  | .rotlImm _ _ _ _ _ => 0
  | .minImm _ _ _ _ _ => 0
  | .maxImm _ _ _ _ _ => 0
  | .minsImm _ _ _ _ _ => 0
  | .maxsImm _ _ _ _ _ => 0
  | .cmpeq _ _ _ _ => 0
  | .cmpne _ _ _ _ => 0
  | .cmplt _ _ _ _ => 0
  | .cmplts _ _ _ _ => 0
  | .cmple _ _ _ _ => 0
  | .cmples _ _ _ _ => 0
  | .cmpeqImm _ _ _ _ _ => 0
  | .cmpneImm _ _ _ _ _ => 0
  | .cmpltImm _ _ _ _ _ => 0
  | .cmpltsImm _ _ _ _ _ => 0
  | .cmpleImm _ _ _ _ _ => 0
  | .cmplesImm _ _ _ _ _ => 0
  | .li _ _ _ _ => 0
  | .liLong _ _ _ => 0
  | .pset _ _ _ => 0
  | .pand _ _ _ _ _ _ => 0
  | .por _ _ _ _ _ _ => 0
  | .pxor _ _ _ _ _ _ => 0
  | .pnot _ _ _ => 0
  | .br _ _ => 0
  | .brScalar _ _ => 0
  | .bc _ _ _ _ _ => 0
  | .call _ _ _ => 0
  | .ret _ _ => 0
  | .loopScalar _ _ _ => 0
  | .loopNbound _ _ _ => 0
  | .loopImm _ _ _ => 0
  | .lexit _ => 0
  | .lidx _ _ _ => 0
  | .csrr _ _ _ => 0
  | .csrw _ _ _ => 0
  | .csrwImm _ _ _ => 0
  | .nbnd _ _ _ => 0
  | .nbndImm _ _ _ => 0
  | .vadd _ _ _ _ => 2
  | .vsub _ _ _ _ => 2
  | .vmul _ _ _ _ => 2
  | .vmin _ _ _ _ => 2
  | .vmax _ _ _ _ => 2
  | .vfma _ _ _ _ _ => 3
  | .vfms _ _ _ _ _ => 3
  | .vfnma _ _ _ _ _ => 3
  | .vaddScalar _ _ _ _ => 1
  | .vsubScalar _ _ _ _ => 1
  | .vmulScalar _ _ _ _ => 1
  | .vminScalar _ _ _ _ => 1
  | .vmaxScalar _ _ _ _ => 1
  | .vfmaScalar _ _ _ _ _ => 2
  | .vfmsScalar _ _ _ _ _ => 2
  | .vfnmaScalar _ _ _ _ _ => 2
  | .vabs _ _ _ => 1
  | .vneg _ _ _ => 1
  | .vrcp _ _ _ => 1
  | .vrsq _ _ _ => 1
  | .vexp2 _ _ _ => 1
  | .vlog2 _ _ _ => 1
  | .vclamp _ _ _ _ _ => 1
  | .vsel _ _ _ _ _ => 3
  | .vcmpeqF _ _ _ _ => 2
  | .vcmpeqI _ _ _ _ => 2
  | .vcmpltF _ _ _ _ => 2
  | .vcmpltSi _ _ _ _ => 2
  | .vcmpltUi _ _ _ _ => 2
  | .vcmpleF _ _ _ _ => 2
  | .vcmpleSi _ _ _ _ => 2
  | .vcmpleUi _ _ _ _ => 2
  | .viaddB _ _ _ _ => 2
  | .viaddH _ _ _ _ => 2
  | .viaddW _ _ _ _ => 2
  | .visubB _ _ _ _ => 2
  | .visubH _ _ _ _ => 2
  | .visubW _ _ _ _ => 2
  | .vimulB _ _ _ _ => 2
  | .vimulH _ _ _ _ => 2
  | .vimulW _ _ _ _ => 2
  | .vimacB _ _ _ _ _ => 3
  | .vimacH _ _ _ _ _ => 3
  | .vimacW _ _ _ _ _ => 3
  | .vand _ _ _ _ => 2
  | .vor _ _ _ _ => 2
  | .vxor _ _ _ _ => 2
  | .vpopc _ _ _ => 1
  | .viaddBScalar _ _ _ _ => 1
  | .viaddHScalar _ _ _ _ => 1
  | .viaddWScalar _ _ _ _ => 1
  | .visubBScalar _ _ _ _ => 1
  | .visubHScalar _ _ _ _ => 1
  | .visubWScalar _ _ _ _ => 1
  | .vimulBScalar _ _ _ _ => 1
  | .vimulHScalar _ _ _ _ => 1
  | .vimulWScalar _ _ _ _ => 1
  | .vimacBScalar _ _ _ _ _ => 2
  | .vimacHScalar _ _ _ _ _ => 2
  | .vimacWScalar _ _ _ _ _ => 2
  | .vshlB _ _ _ _ => 1
  | .vshlH _ _ _ _ => 1
  | .vshlW _ _ _ _ => 1
  | .vshrB _ _ _ _ => 1
  | .vshrH _ _ _ _ => 1
  | .vshrW _ _ _ _ => 1
  | .vsarB _ _ _ _ => 1
  | .vsarH _ _ _ _ => 1
  | .vsarW _ _ _ _ => 1
  | .vcvt _ _ _ _ _ => 1
  | .vcvtK _ _ _ _ _ => 1
  | .vpack _ _ _ _ _ => 2
  | .vunpk _ _ _ _ _ => 1
  | .vperm _ _ _ _ => 2
  | .vshuf _ _ _ _ _ => 2
  | .vbcastScalar _ _ _ _ => 0
  | .vbcastElement _ _ _ _ _ => 1
  | .vextrImm _ _ _ _ _ => 1
  | .vextrScalar _ _ _ _ _ => 1
  | .vinsImm _ _ _ _ _ _ => 1
  | .vinsScalar _ _ _ _ _ _ => 1
  | .vmov _ _ _ => 1
  | .vrng _ _ _ _ _ _ => 0
  | .vrngF _ _ _ _ _ _ => 0
  | .tapp _ _ _ _ _ => 1
  | .taps _ _ _ _ _ _ => 1
  | .tapld _ _ _ => 0
  | .taprd _ _ _ _ => 0
  | .vredsumF _ _ _ => 1
  | .vredsumI _ _ _ => 1
  | .vredmaxF _ _ _ => 1
  | .vredmaxSi _ _ _ => 1
  | .vredminF _ _ _ => 1
  | .vredminSi _ _ _ => 1
  | .vargmax _ _ _ => 1
  | .vscanF _ _ _ => 1
  | .vscanI _ _ _ => 1
  | .ksetImm _ _ _ _ _ _ => 0
  | .ksetScalar _ _ _ _ _ _ => 0
  | .kmov _ _ _ => 0
  | .kmul _ _ _ _ => 0
  | .kaddeImm _ _ _ _ => 0
  | .kaddeScalar _ _ _ _ => 0
  | .kmaxe _ _ _ _ => 0
  | .kcvtBf16 _ _ _ => 0
  | .kcvtE8m0 _ _ _ => 0
  | .kbindTile _ _ _ _ _ => 0
  | .kbindBank _ _ _ _ _ _ => 0
  | .kunbindTile _ _ => 0
  | .kunbindBank _ _ _ => 0
  | .krdRow _ _ _ => 0
  | .krdScalar _ _ _ _ _ => 0
  | .kwrRow _ _ _ => 1
  | .kwrScalar _ _ _ _ => 0
  | .kgen _ _ _ _ _ _ => 1
  | .mmaL6 _ _ _ _ _ _ _ _ _ _ => 0
  | .mmaI8 _ _ _ _ _ _ _ _ _ _ => 0
  | .mmaE4m3 _ _ _ _ _ _ _ _ _ _ => 0
  | .mmaE5m2 _ _ _ _ _ _ _ _ _ _ => 0
  | .mmaE4e5 _ _ _ _ _ _ _ _ _ _ => 0
  | .mmaE5e4 _ _ _ _ _ _ _ _ _ _ => 0
  | .mmaBf16 _ _ _ _ _ _ _ _ _ _ => 0
  | .mmaFp16 _ _ _ _ _ _ _ _ _ _ => 0
  | .mmazL6 _ _ _ _ _ _ _ _ _ _ => 0
  | .mmazI8 _ _ _ _ _ _ _ _ _ _ => 0
  | .mmazE4m3 _ _ _ _ _ _ _ _ _ _ => 0
  | .mmazE5m2 _ _ _ _ _ _ _ _ _ _ => 0
  | .mmazE4e5 _ _ _ _ _ _ _ _ _ _ => 0
  | .mmazE5e4 _ _ _ _ _ _ _ _ _ _ => 0
  | .mmazBf16 _ _ _ _ _ _ _ _ _ _ => 0
  | .mmazFp16 _ _ _ _ _ _ _ _ _ _ => 0
  | .mxhint _ _ => 0
  | .cmode _ _ _ => 0
  | .cloadRow _ _ _ _ _ => 1
  | .cloadRound _ _ _ _ _ _ _ => 0
  | .cswap _ _ => 0
  | .cmacRow _ _ _ _ _ _ => 1
  | .cmacRound _ _ _ _ _ _ _ _ => 0
  | .cread _ _ _ _ => 0
  | .creadK _ _ _ _ => 0
  | .cclr _ _ => 0
  | .cchk _ _ _ => 0
  | .ld _ _ _ _ _ => 0
  | .ldr _ _ _ _ _ => 0
  | .ldkStream _ _ _ _ => 0
  | .ldkRound _ _ _ _ _ => 0
  | .ldsRound _ _ _ _ _ => 0
  | .ldsStream _ _ _ _ => 0
  | .popVector _ _ _ _ => 0
  | .popScalar _ _ _ _ => 0
  | .fill _ _ _ _ => 0
  | .st p w vs ks => XOp.ports (.st p w vs ks)
  | .str p bay off lane vs => XOp.ports (.str p bay off lane vs)
  | .stkStream p w ks => XOp.ports (.stkStream p w ks)
  | .stkRound p bay off lane ks => XOp.ports (.stkRound p bay off lane ks)
  | .stsRound p bay off8 lane a => XOp.ports (.stsRound p bay off8 lane a)
  | .stsStream p w a => XOp.ports (.stsStream p w a)
  | .pushVector p q vs => XOp.ports (.pushVector p q vs)
  | .pushScalar p q a => XOp.ports (.pushScalar p q a)
  | .spill p tok tile w => XOp.ports (.spill p tok tile w)
  | .movpRound p bay off lane port => XOp.ports (.movpRound p bay off lane port)
  | .movpScalar p a port lane => XOp.ports (.movpScalar p a port lane)
  | .xfer p frm dest lane fromaddr toaddr => XOp.ports (.xfer p frm dest lane fromaddr toaddr)
  | .redsVector p vs t op ty sem => XOp.ports (.redsVector p vs t op ty sem)
  | .redsScalar p a t op ty sem => XOp.ports (.redsScalar p a t op ty sem)
  | .scfgTable p w entry => XOp.ports (.scfgTable p w entry)
  | .scfgScalar p w word a => XOp.ports (.scfgScalar p w word a)
  | .sadv p w dim steps => XOp.ports (.sadv p w dim steps)
  | .srst p w => XOp.ports (.srst p w)
  | .yardCycle => 0
  | .rewindRestore _ => 0
  | .segmentEntry _ => 0
  | .yieldBundle _ => 0
  | .deadlineExpiry _ => 0
  | .checkRetest _ => 0
  | .offdieLoadLanding _ _ => 0
  | .offcoreAccessPerform _ _ => 0
  | .pushAccepted _ _ => 0
  | .tokenComplete _ _ => 0
  | .probeAnswer _ _ => 0
  | .rendezvousRelease _ _ => 0
  | .barrierRelease _ _ _ => 0
  | .redsApply _ => 0
  | .mxwinWrite _ _ => 0
  | .mxwinTakesEffect _ => 0
  | .dxBackref _ => 0
  | .dxCopy _ => 0
  | .txTranspose _ => 0
  | .hxSha256 _ => 0
  | .qxConvert _ => 0
  | .stationJobEnd _ _ => 0
  | .arrayCold _ => 0
  | .shadowFillAccept _ _ => 0
  | .shadowFillEnd _ _ => 0
  | .hangTimeout _ => 0
  | .hostWrite _ _ => 0
  | .hostRead _ _ _ => 0
  | .queueResume _ _ => 0
  | .queueEnd _ _ => 0
  | .queueCancel _ _ => 0
  | .placementDecision => 0
  | .launchRunStart _ => 0
  | .contextRelease _ => 0
  | .launchCompletion _ => 0
  | .swapOut _ _ => 0
  | .swapOutSave _ _ => 0
  | .dramMeterWindow _ => 0
  | .auditVerdict _ _ _ => 0
  | .scrubPass => 0
  | .sieveAgeing => 0
  | .linkCrcError _ _ _ => 0
  | .repairRequest _ => 0
  | .repairCopy => 0
  | .yardLost _ _ => 0
  | .thermalTrip _ => 0
  | .yardActivate _ _ => 0
  | .yardDeclareLost _ => 0
  | .yardSelfTestDone _ _ => 0
  | .degrArrayFailed _ => 0
  | .degrMacroFailed _ _ _ => 0
  | .degrClear _ => 0
  | .rqCompact => 0
  | .rqExpand => 0
  | .rqMove => 0
  | .rqMakeAbsent => 0
  | .rqMakeResident => 0
  | .rqJobEnd => 0
  | .hostMemwr _ _ => 0
  | .birsp _ => 0
  | .regionWindowEnd _ => 0
  | .hostSnoop _ _ => 0
  | .gpfPhase1 => 0
  | .hostHotReset => 0
  | .hostLinkDown => 0
  | .tableSweep => 0
  | .linkRetrained => 0
  | .tokenElementAccept _ _ => 0
  | .commitElementDelivery _ => 0
  | .ringRecordWrite _ => 0
  | .freeFaultEntry => 0
  | .firmwareRequestPost _ => 0
  | .openQueues _ => 0
  | .eventClear _ => 0
  | .fbstatOverflowClear _ => 0
  | .suspectClear _ _ => 0
  | .regionEntryWrite _ => 0
  | .svdataAccess _ _ _ => 0
  | .measurementExtend _ => 0
  | .hashRegistration _ => 0
  | .clockFloorChange _ => 0
  | .privCsrWrite _ _ _ => 0
  | .eventTimer => 0
  | .controlContextEntry => 0
  | .quote _ => 0
  | .certificate _ => 0
  | .writeImageChunk _ => 0
  | .commitImage _ => 0
  | .advanceSecurityVersion _ => 0
  | .readErrorLog _ => 0
  | .readHangRecord _ => 0
  | .readLostLineRing _ => 0
  | .mailboxStandardCommand _ _ => 0
  | .mailboxUnsupported _ => 0
  | .moduleReset => 0
  | .memoryTrained => 0
  | .trainingFailure _ => 0
  | .imageVerify => 0
  | .bringupSelfTestDone _ => 0
  | .tapldCopyComplete _ => 0
  | .registrationEnd => 0

/-- The one long-immediate form (R106). -/
def Instr.long : Instr → Bool
  | .liLong _ _ _ => true
  | _ => false

/-- Whether the operation is RDV (R136). -/
def Instr.isRdv : Instr → Bool
  | .rdv _ _ => true
  | _ => false

/-- Whether the operation is YIELD (R144). -/
def Instr.isYield : Instr → Bool
  | .yield _ => true
  | _ => false

/-- A decoded slot operation: an instruction, or a W or C operation in the form the machine runs it in. -/
inductive SlotOp where
  | ins (i : Instr)
  | wc (x : XOp)
  deriving DecidableEq, Repr

/-- The instruction a decoded slot operation is. -/
noncomputable def SlotOp.instr : SlotOp → Instr
  | .ins i => i
  | .wc x => x.instr

/-- Legal field values (R101). -/
def SlotOp.wf : SlotOp → Bool
  | .ins i => i.wf
  | .wc x => x.wf

/-- The encoding (R104 to R114). -/
def SlotOp.enc : SlotOp → Option Encoded
  | .ins i => encode i
  | .wc x => some (encodeX x)

/-- The predicate field (R75). -/
def SlotOp.predField : SlotOp → BitVec 5
  | .ins i => i.predField
  | .wc x => x.predField

/-- The port count (R86). -/
def SlotOp.ports : SlotOp → Nat
  | .ins i => i.ports
  | .wc x => x.ports

/-- The operation of a slot field before its field values are checked: slot 0 to 7 (R74), the field in the low bits,
and the next slot's field for the long form. -/
def rawField (slot : Nat) (x ext : BitVec 64) : Option SlotOp :=
  match slot with
  | 0 => (rawS (x.setWidth 48) ext).map .ins
  | 1 => (rawV x).map .ins
  | 2 => (rawV x).map .ins
  | 3 => (rawM x).map .ins
  | 4 => (rawL (x.setWidth 56)).map .ins
  | 5 => (rawW (x.setWidth 48)).map .wc
  | 6 => (rawC (x.setWidth 48)).map .wc
  | _ => (rawY (x.setWidth 24)).map .ins

/-- Whether the operation is the long-immediate form (R106). -/
def SlotOp.isLong : SlotOp → Bool
  | .ins i => i.long
  | .wc _ => false

/-- The opcode codes that exist only in VA (R109). -/
def vaOnlyCode (op : Nat) : Bool := (0x5C ≤ op && op ≤ 0x5F) || (0x6A ≤ op && op ≤ 0x7B)

/-- The width of a slot's field (R72). -/
def slotWidth (slot : Nat) : Nat :=
  match slot with
  | 0 => 48
  | 1 => 64
  | 2 => 64
  | 3 => 64
  | 4 => 56
  | 5 => 48
  | 6 => 48
  | _ => 24

/-- The lowest bundle bit of a slot's field (R72). -/
def slotLow (slot : Nat) : Nat :=
  match slot with
  | 0 => 64
  | 1 => 112
  | 2 => 176
  | 3 => 240
  | 4 => 304
  | 5 => 360
  | 6 => 408
  | _ => 456

/-- The slot operation a field holds, or why it holds none (R94, R100, R101): an unassigned opcode, a VA-only opcode in VB,
a field value out of its range, or a non-zero bit that the form reserves. -/
def decodeField (slot : Nat) (x ext : BitVec 64) : Except Reject SlotOp :=
  if slot = 2 ∧ vaOnlyCode (x.extractLsb' 57 7).toNat then .error .vaOnly
  else
    match rawField slot x ext with
    | none => .error .unassignedOpcode
    | some i =>
      if !i.wf then .error .illegalField
      else
        match i.enc with
        | none => .error .illegalField
        | some e =>
          if e.field.setWidth (slotWidth slot) ≠ x.setWidth (slotWidth slot) then .error .reservedBits
          else if i.isLong && e.ext ≠ ext then .error .reservedBits
          else .ok i

/-- The host's question: a Y-slot word of 24 bits (R107). -/
def decodeTableWord (nbits w : Nat) : Option Instr :=
  if nbits = 24 then
    match decodeField 7 (BitVec.ofNat 64 w) 0 with
    | .ok (.ins i) => some i
    | _ => none
  else none

/-- A bundle as the store holds it: 512 bits, byte 0 lowest (R72). -/
abbrev BundleBits := BitVec 512

/-- A header field (R73). -/
def hdr (b : BundleBits) (lo len : Nat) : Nat := (b.extractLsb' lo len).toNat

/-- Stamp (R73). -/
def bStamp (b : BundleBits) : Nat := hdr b 0 12
/-- Present mask (R73). -/
def bPresent (b : BundleBits) (n : Nat) : Bool := b.getLsbD (12 + n)
/-- Surrender mask (R73). -/
def bSurrender (b : BundleBits) (n : Nat) : Bool := b.getLsbD (20 + n)
/-- Slot served by read port n, 0 unused (R73). -/
def bPort (b : BundleBits) (n : Nat) : Nat := hdr b (28 + 3 * n) 3
/-- Yield mark (R73). -/
def bYield (b : BundleBits) : Bool := b.getLsbD 46
/-- Segment-entry mark (R73). -/
def bSeg (b : BundleBits) : Bool := b.getLsbD 47
/-- Rendezvous mark (R73). -/
def bRdv (b : BundleBits) : Bool := b.getLsbD 48
/-- Barrier mark (R73). -/
def bBarrier (b : BundleBits) : Bool := b.getLsbD 49
/-- Skip field (R73). -/
def bSkip (b : BundleBits) : Nat := hdr b 50 4
/-- Pool format (R73). -/
def bPoolFmt (b : BundleBits) : Nat := hdr b 54 2
/-- The literal pool (R72). -/
def bPool (b : BundleBits) : BitVec 32 := b.extractLsb' 480 32
/-- A slot's field in the low bits of 64 (R72, R74). -/
def bField (b : BundleBits) (slot : Nat) : BitVec 64 :=
  (b.extractLsb' (slotLow slot) 64) &&& BitVec.ofNat 64 (2 ^ slotWidth slot - 1)

/-- The operation of a present slot; LI long takes the VA field as its extension (R84, R106). -/
def slotInstr (b : BundleBits) (slot : Nat) : Except Reject SlotOp :=
  decodeField slot (bField b slot) (if slot = 0 then bField b 1 else 0)

/-- The present slots in ascending order with their operations, or the first reason for refusal (R94). -/
def bundleSlots (b : BundleBits) : Except Reject (List (Nat × SlotOp)) :=
  (List.range 8).foldr
    (fun n acc =>
      if bPresent b n then
        match slotInstr b n, acc with
        | .error e, _ => .error e
        | .ok i, .ok l => .ok ((n, i) :: l)
        | .ok _, .error e => .error e
      else acc)
    (.ok [])

/-- The literal-pool selector an operation names, 0 for none (R85). -/
def Instr.poolSel : Instr → Nat
  | .addi _ _ _ s _ | .mulImm _ _ _ s _ | .andImm _ _ _ s _ | .orImm _ _ _ s _ | .xorImm _ _ _ s _
  | .shlImm _ _ _ s _ | .shrImm _ _ _ s _ | .sarImm _ _ _ s _ | .rotlImm _ _ _ s _ | .minImm _ _ _ s _
  | .maxImm _ _ _ s _ | .minsImm _ _ _ s _ | .maxsImm _ _ _ s _ => s.toNat
  | .cmpeqImm _ _ _ s _ | .cmpneImm _ _ _ s _ | .cmpltImm _ _ _ s _ | .cmpltsImm _ _ _ s _
  | .cmpleImm _ _ _ s _ | .cmplesImm _ _ _ s _ => s.toNat
  | .li _ _ s _ => s.toNat
  | _ => 0

/-- The selector of a decoded operation (R85). -/
def SlotOp.poolSel : SlotOp → Nat
  | .ins i => i.poolSel
  | .wc _ => 0

/-- Whether a decoded operation is RDV. -/
def SlotOp.isRdv : SlotOp → Bool
  | .ins i => i.isRdv
  | .wc _ => false

/-- Whether a decoded operation is YIELD. -/
def SlotOp.isYield : SlotOp → Bool
  | .ins i => i.isYield
  | .wc _ => false

/-- A pool selector matches the pool format (R85). -/
def poolSelOk (fmt sel : Nat) : Bool :=
  sel == 0 || (fmt == 1 && sel == 1) || (fmt == 2 && (sel == 2 || sel == 3))

/-- The rules of R84 to R86, R80, R82, R94, R136 and R144 that a bundle keeps on its own; `tprev` is the stamp before it in
its frame, −1 for a frame's first. -/
def bundleLegal (b : BundleBits) (tprev : Int) : Bool :=
  match bundleSlots b with
  | .error _ => false
  | .ok sl =>
    let longAt (n : Nat) : Bool := sl.any (fun e => e.1 == n && e.2.isLong)
    let ports (n : Nat) : Nat := ((List.range 6).filter (fun k => bPort b k == n)).length
    hdr b 56 8 == 0 && bPoolFmt b != 3 && (bPoolFmt b != 0 || bPool b == 0) &&
    sl.all (fun e => poolSelOk (bPoolFmt b) e.2.poolSel) &&
    (decide (tprev < (bStamp b : Int))) &&
    (bSkip b == 0 || !(bBarrier b || bRdv b || bSeg b || bYield b)) &&
    !bSurrender b 0 &&
    (List.range 8).all (fun n =>
      (n == 0 || bSurrender b n == longAt (n - 1)) && !(bPresent b n && bSurrender b n) &&
      (bPresent b n || bSurrender b n || bField b n == 0)) &&
    (List.range 8).all (fun n =>
      n == 0 || ports n == (sl.find? (fun e => e.1 == n)).elim 0 (fun e => e.2.ports)) &&
    (bRdv b == sl.any (fun e => e.2.isRdv)) && (bYield b || !sl.any (fun e => e.2.isYield))

end Sys2Proof
end

