-- ==== Sys2Proof/Machine/Number.lean ====
section
/-!
DEFINITION. Number formats and exact arithmetic (spec 02, R41 to R62): every value is an exact dyadic number until one
stated rounding turns it into a code, with the flags of R57.
-/

namespace Sys2Proof.Machine

/-- A decoded value (R42 to R50): a NaN with its signalling mark, an infinity, or (−1)^neg × m × 2^e. -/
inductive FVal where
  | nan (sig : Bool)
  | inf (neg : Bool)
  | fin (neg : Bool) (m : Nat) (e : Int)
  deriving DecidableEq, Repr

/-- The five sticky flags of csr.fflags (R38): NV, DZ, OF, UF, NX from bit 4 down. -/
abbrev Flags5 := BitVec 5

/-- Invalid operation (R38). -/
def fNV : Flags5 := 16#5
/-- Division by zero (R38). -/
def fDZ : Flags5 := 8#5
/-- Overflow (R38). -/
def fOF : Flags5 := 4#5
/-- Underflow (R38). -/
def fUF : Flags5 := 2#5
/-- Inexact (R38). -/
def fNX : Flags5 := 1#5

/-- A flag where a condition holds. -/
def flagIf (c : Bool) (f : Flags5) : Flags5 := if c then f else 0#5

/-- A code with the flags that forming it raised. -/
structure Rounded where
  code : Nat
  flags : Flags5
  deriving DecidableEq, Repr

/-- The two rounding rules of R12. -/
inductive RMode where
  | rne
  | rna
  deriving DecidableEq, Repr

/-- The layout of a floating-point format (R45): mantissa bits, bias, the largest finite code without sign, the code of
infinity (none where the format has none), and the rounding of R56. -/
structure FloatFmt where
  ebits : Nat
  mbits : Nat
  bias : Int
  maxFin : Nat
  inf : Option Nat
  nan : Nat
  mode : RMode
  deriving DecidableEq, Repr

/-- E2M1 (R45, R47). Its NaN result is the largest positive code (R56). -/
def fmtE2M1 : FloatFmt := ⟨2, 1, 1, 0x7, none, 0x7, .rna⟩
/-- E4M3 (R45). -/
def fmtE4M3 : FloatFmt := ⟨4, 3, 7, 0x7E, none, 0x7F, .rna⟩
/-- E5M2 (R45). -/
def fmtE5M2 : FloatFmt := ⟨5, 2, 15, 0x7B, some 0x7C, 0x7E, .rna⟩
/-- BF16 (R45). -/
def fmtBF16 : FloatFmt := ⟨8, 7, 127, 0x7F7F, some 0x7F80, 0x7FC0, .rne⟩
/-- FP16 (R45). -/
def fmtFP16 : FloatFmt := ⟨5, 10, 15, 0x7BFF, some 0x7C00, 0x7E00, .rne⟩
/-- FP32 (R45). -/
def fmtFP32 : FloatFmt := ⟨8, 23, 127, 0x7F7FFFFF, some 0x7F800000, 0x7FC00000, .rne⟩

/-- The value of a code of a floating-point format (R45, R46). -/
def decodeFloat (f : FloatFmt) (x : Nat) : FVal :=
  let w := f.ebits + f.mbits
  let neg := x / 2 ^ w % 2 == 1
  let mag := x % 2 ^ w
  if mag > f.maxFin then
    if f.inf = some mag then .inf neg
    else .nan (f.inf.isSome && mag / 2 ^ (f.mbits - 1) % 2 == 0)
  else
    let E := mag / 2 ^ f.mbits
    let M := mag % 2 ^ f.mbits
    if E = 0 then .fin neg M (1 - f.bias - f.mbits)
    else .fin neg (2 ^ f.mbits + M) (E - f.bias - f.mbits)

/-- `m × 2^e` rounded to a multiple of `2^q`: the multiple, and whether it is inexact (R12: rne, rna). -/
def roundTo (mode : RMode) (m : Nat) (e q : Int) : Nat × Bool :=
  if q ≤ e then (m <<< (e - q).toNat, false)
  else
    let sh := (q - e).toNat
    let n := m >>> sh
    let r := m % 2 ^ sh
    let half := 2 ^ (sh - 1)
    let up := match mode with
      | .rne => half < r || (r == half && n % 2 == 1)
      | .rna => half ≤ r
    (if up then n + 1 else n, r != 0)

/-- The exponent of the leading bit of `m × 2^e`, `m ≠ 0`. -/
def leadExp (m : Nat) (e : Int) : Int := (Nat.log2 m : Int) + e

/-- A value rounded into a floating-point format, with its flags (R56, R57). -/
def roundFloat (f : FloatFmt) (v : FVal) : Rounded :=
  let sgn (neg : Bool) : Nat := if neg then 2 ^ (f.ebits + f.mbits) else 0
  match v with
  | .nan sig => ⟨f.nan, flagIf (sig || f == fmtE2M1) fNV⟩
  | .inf neg =>
    match f.inf with
    | some c => ⟨sgn neg + c, 0⟩
    | none => ⟨sgn neg + f.maxFin, fNV⟩
  | .fin neg 0 _ => ⟨sgn neg, 0⟩
  | .fin neg m e =>
    let base := 1 - f.bias - f.mbits
    let q := max (leadExp m e - f.mbits) base
    let r := roundTo f.mode m e q
    let code := (q - base).toNat * 2 ^ f.mbits + r.1
    if code > f.maxFin then ⟨sgn neg + f.inf.getD f.maxFin, fOF ||| fNX⟩
    else ⟨sgn neg + code, flagIf r.2 fNX ||| flagIf (r.2 && code < 2 ^ f.mbits) fUF⟩

/-- Whether `m × 2^e ≤ n × 2^k`. -/
def magLe (m : Nat) (e : Int) (n : Nat) (k : Int) : Bool :=
  if e ≤ k then decide (m ≤ n <<< (k - e).toNat) else decide (m <<< (e - k).toNat ≤ n)

/-- Whether `m × 2^e < n × 2^k`. -/
def magLt (m : Nat) (e : Int) (n : Nat) (k : Int) : Bool := !magLe n k m e

/-- The magnitude table of R50. -/
def tableT (j : Nat) : Nat :=
  match j % 4 with
  | 0 => 32768
  | 1 => 38968
  | 2 => 46341
  | _ => 55109

/-- D(e) of R50 in units of 2^−19. -/
def magD (e : Nat) : Nat := tableT e <<< (e / 4)

/-- The value of an L6 code (R49, R50). -/
def decodeL6 (x : Nat) : FVal :=
  let e := x % 32
  let s := x / 32 % 2 == 1
  if s && e == 0 then .fin false 0 0 else .fin s (magD e) (-19)

/-- The largest L6 code at or below `e` that a magnitude `m × 2^k` reaches at or above the midpoint below it (R51). -/
def pickL6 (lowest m : Nat) (k : Int) : Nat → Option Nat
  | 0 => if lowest = 0 && magLe (magD 0) (-20) m k then some 0 else none
  | e + 1 =>
    let below := if e + 1 = lowest then 0 else magD e
    if e + 1 < lowest then none
    else if magLe (magD (e + 1) + below) (-20) m k then some (e + 1)
    else pickL6 lowest m k e

/-- A value rounded into L6 (R51, R56, R57). -/
def roundL6 (v : FVal) : Rounded :=
  match v with
  | .nan _ => ⟨0x1F, fNV⟩
  | .inf neg => ⟨(if neg then 32 else 0) + 31, fNV⟩
  | .fin _ 0 _ => ⟨0x20, 0⟩
  | .fin neg m k =>
    match pickL6 (if neg then 1 else 0) m k 31 with
    | none => ⟨0x20, fNX ||| fUF⟩
    | some e =>
      let exact := magLe (magD e) (-19) m k && magLe m k (magD e) (-19)
      let past := magLe (magD 31 + magD 32) (-20) m k
      ⟨(if neg then 32 else 0) + e, flagIf past fOF ||| flagIf (!exact) fNX⟩

/-- A value rounded into the integers from `lo` to `hi` in units of `2^unit`, as a two's-complement code of `w` bits; `nanV`
is the result for NaN (R56, R57, log 38). -/
def roundInt (mode : RMode) (w : Nat) (lo hi nanV unit : Int) (v : FVal) : Rounded :=
  match v with
  | .nan _ => ⟨lowBits w nanV, fNV⟩
  | .inf neg => ⟨lowBits w (if neg then lo else hi), fNV⟩
  | .fin neg m e =>
    let r := roundTo mode m e unit
    let i : Int := if neg then -(r.1 : Int) else r.1
    if i < lo then ⟨lowBits w lo, fOF ||| fNX⟩
    else if hi < i then ⟨lowBits w hi, fOF ||| fNX⟩
    else ⟨lowBits w i, flagIf r.2 fNX ||| flagIf (r.2 && i == 0) fUF⟩

/-- A value rounded into E8M0 (R48, R56, R57). -/
def roundE8M0 (v : FVal) : Rounded :=
  match v with
  | .nan sig => ⟨0xFF, flagIf sig fNV⟩
  | .inf false => ⟨0xFE, fNV⟩
  | .inf true => ⟨0xFF, fNV⟩
  | .fin _ 0 _ => ⟨0, fUF ||| fNX⟩
  | .fin true _ _ => ⟨0xFF, fNV⟩
  | .fin false m e =>
    let E := leadExp m e
    if E < -127 then ⟨0, fUF ||| fNX⟩
    else
      let exact := magLe m e 1 E
      let k := if magLe 3 (E - 1) m e then E + 1 else E
      if 127 < k then ⟨0xFE, fOF ||| fNX⟩ else ⟨(k + 127).toNat, flagIf (!exact) fNX⟩

/-- A value rounded into INT1 bipolar (R42, R56). -/
def roundBip (v : FVal) : Rounded :=
  match v with
  | .nan _ => ⟨0, fNV⟩
  | .inf neg => ⟨if neg then 1 else 0, 0⟩
  | .fin neg m e =>
    let exact := magLe m e 1 0 && magLe 1 0 m e
    ⟨if neg && m != 0 then 1 else 0, flagIf (!exact) fNX⟩

/-- Value bits of a format code (R41). -/
def valueBits (f : Nat) : Nat :=
  match f with
  | 0x00 | 0x01 => 1
  | 0x02 | 0x03 => 2
  | 0x04 | 0x05 => 3
  | 0x06 | 0x07 => 4
  | 0x08 | 0x09 => 5
  | 0x0A | 0x0B => 6
  | 0x0C | 0x0D => 7
  | 0x0E | 0x0F => 8
  | 0x10 => 6
  | 0x11 | 0x12 | 0x14 => 8
  | 0x13 => 4
  | 0x15 | 0x16 => 16
  | 0x17 | 0x18 => 32
  | _ => 48

/-- Container bits of a format code (R41). -/
def containerBits (f : Nat) : Nat :=
  match f with
  | 0x00 | 0x01 => 1
  | 0x02 | 0x03 => 2
  | 0x04 | 0x05 | 0x06 | 0x07 | 0x13 => 4
  | 0x15 | 0x16 => 16
  | 0x17 | 0x18 => 32
  | 0x19 | 0x1A | 0x1B => 64
  | _ => 8

/-- Whether a format code is assigned (R41). -/
def fmtOk (f : Nat) : Bool := f < 0x1C

/-- Whether a format is a signed integer format (R42). -/
def fmtSigned (f : Nat) : Bool := (f ≤ 0x0F && f % 2 == 1 && f != 1) || f == 0x18

/-- The unit exponent of an accumulator format (R41). -/
def accUnit (f : Nat) : Int := match f with | 0x1A => -18 | 0x1B => -23 | _ => 0

/-- An integer as an exact value in units of `2^u`. -/
def ofInt (i u : Int) : FVal := .fin (i < 0) i.natAbs u

/-- The exact value of a container's bits in a format (R42 to R50). -/
def decodeElem (f x : Nat) : FVal :=
  match f with
  | 0x00 => .fin false (x % 2) 0
  | 0x01 => .fin (x % 2 == 1) 1 0
  | 0x10 => decodeL6 x
  | 0x11 => decodeFloat fmtE4M3 (x % 2 ^ 8)
  | 0x12 => decodeFloat fmtE5M2 (x % 2 ^ 8)
  | 0x13 => decodeFloat fmtE2M1 (x % 2 ^ 4)
  | 0x14 => if x % 256 = 255 then .nan false else .fin false 1 ((x % 256 : Nat) - 127)
  | 0x15 => decodeFloat fmtBF16 (x % 2 ^ 16)
  | 0x16 => decodeFloat fmtFP16 (x % 2 ^ 16)
  | 0x17 => decodeFloat fmtFP32 (x % 2 ^ 32)
  | 0x18 => ofInt (signed 32 x) 0
  | 0x19 | 0x1A | 0x1B => ofInt (signed 48 x) (accUnit f)
  | _ => if f % 2 = 1 then ofInt (signed (valueBits f) x) 0 else .fin false (x % 2 ^ valueBits f) 0

/-- A value rounded into a format, as container bits, with its flags (R43, R44, R56, R57, log 38). -/
def encodeElem (f : Nat) (v : FVal) : Rounded :=
  match f with
  | 0x01 => roundBip v
  | 0x10 => roundL6 v
  | 0x11 => roundFloat fmtE4M3 v
  | 0x12 => roundFloat fmtE5M2 v
  | 0x13 => roundFloat fmtE2M1 v
  | 0x14 => roundE8M0 v
  | 0x15 => roundFloat fmtBF16 v
  | 0x16 => roundFloat fmtFP16 v
  | 0x17 => roundFloat fmtFP32 v
  | 0x18 => roundInt .rne 32 (-(2 ^ 31)) (2 ^ 31 - 1) (2 ^ 31 - 1) 0 v
  | 0x19 | 0x1A | 0x1B => roundInt .rne 64 (-(2 ^ 47)) (2 ^ 47 - 1) (2 ^ 47 - 1) (accUnit f) v
  | _ =>
    let n := valueBits f
    if f % 2 = 1 then
      roundInt .rna (containerBits f) (-(2 ^ (n - 1) : Nat)) ((2 ^ (n - 1) : Nat) - 1) ((2 ^ (n - 1) : Nat) - 1) 0 v
    else roundInt .rna (containerBits f) 0 ((2 ^ n : Nat) - 1) ((2 ^ n : Nat) - 1) 0 v

/-- The exact product of two values; NaN where R57 or R58 gives one. -/
def mulV (a b : FVal) : FVal :=
  match a, b with
  | .nan s, .nan t => .nan (s || t)
  | .nan s, _ => .nan s
  | _, .nan t => .nan t
  | .inf s, .inf t => .inf (s != t)
  | .inf s, .fin t m _ => if m = 0 then .nan true else .inf (s != t)
  | .fin s m _, .inf t => if m = 0 then .nan true else .inf (s != t)
  | .fin s m e, .fin t n k => .fin (s != t) (m * n) (e + k)

/-- The exact sum of two values; an exact zero from operands of opposite sign is +0 (R58); ∞ − ∞ is invalid (R57). -/
def addV (a b : FVal) : FVal :=
  match a, b with
  | .nan s, .nan t => .nan (s || t)
  | .nan s, _ => .nan s
  | _, .nan t => .nan t
  | .inf s, .inf t => if s = t then .inf s else .nan true
  | .inf s, .fin _ _ _ => .inf s
  | .fin _ _ _, .inf t => .inf t
  | .fin s m e, .fin t n k =>
    let q := min e k
    let x : Int := ((m <<< (e - q).toNat : Nat) : Int) * (if s then -1 else 1)
    let y : Int := ((n <<< (k - q).toNat : Nat) : Int) * (if t then -1 else 1)
    if x + y = 0 then .fin (s && t) 0 0 else .fin (x + y < 0) (x + y).natAbs q

/-- The value with its sign inverted. -/
def negV (a : FVal) : FVal :=
  match a with
  | .nan s => .nan s
  | .inf s => .inf (!s)
  | .fin s m e => .fin (!s) m e

/-- The magnitude of a value. -/
def absV (a : FVal) : FVal :=
  match a with
  | .nan s => .nan s
  | .inf _ => .inf false
  | .fin _ m e => .fin false m e

/-- Whether a value is a NaN. -/
def isNan (a : FVal) : Bool := match a with | .nan _ => true | _ => false

/-- Whether a value is a signalling NaN (R46). -/
def isSNan (a : FVal) : Bool := match a with | .nan s => s | _ => false

/-- Numeric a < b for values that are not NaN; both zeros are equal (R157). -/
def ltV (a b : FVal) : Bool :=
  match a, b with
  | .inf true, .inf true => false
  | .inf true, .fin _ _ _ => true
  | .inf true, .inf false => true
  | .inf false, _ => false
  | .fin _ _ _, .inf s => !s
  | .fin s m e, .fin t n k =>
    if m = 0 then n != 0 && !t
    else if n = 0 then s
    else if s != t then s
    else if s then magLt n k m e else magLt m e n k
  | _, _ => false

/-- The scale entry's value in a scale format: 1 E8M0, 2 BF16, 3 FP16 (R30, R59). -/
def scaleVal (fmt e : Nat) : FVal :=
  match fmt with
  | 1 => decodeElem 0x14 e
  | 2 => decodeElem 0x15 e
  | _ => decodeElem 0x16 e

/-- A value rounded into a scale entry of a scale format (R59, R176). -/
def roundScale (fmt : Nat) (v : FVal) : Rounded :=
  match fmt with
  | 1 => encodeElem 0x14 v
  | 2 => encodeElem 0x15 v
  | _ => encodeElem 0x16 v

/-- An FP32 lane's value. -/
def f32 (x : BitVec 32) : FVal := decodeFloat fmtFP32 x.toNat

/-- A value rounded to FP32 by rne, with flags (R58). -/
def r32 (v : FVal) : BitVec 32 × Flags5 :=
  let r := roundFloat fmtFP32 v
  (BitVec.ofNat 32 r.code, r.flags)

end Sys2Proof.Machine
end

