-- ==== Sys2Proof/Machine/State.lean ====
section
/-!
DEFINITION. The whole architectural state of the FM-68 as plain data, the reasons to stop, and the state after reset.
Every field names the rule of the spec that gives it. Counters are natural numbers; registers that software reads as
words are bit vectors. A context is keyed by Stall × 4 + slot × 2 + service (R2, R23, R328).
-/

namespace Sys2Proof.Machine

/-- Why the machine stops with a fault. -/
inductive Fault where
  /-- A host access that reaches beyond the HDM range, the 512 GiB of device memory less the service reserve (R1, R303, R412): raised
  by HOST_WRITE, HOST_READ and HOST_MEMWR. Safe: the spec gives such an address no meaning. -/
  | noSuchAddress
  deriving DecidableEq, Repr

/-- Why an instruction has no meaning here. -/
inductive Refusal where
  /-- No meaning has been written for the instruction: raised by its arm of exec only. Safe. -/
  | notModelled (mnemonic : String)
  deriving DecidableEq, Repr

/-- The off-core queues of a context (R254); link queues are numbered by kernel-local target Stable. -/
inductive QId where
  | device
  | host
  | fifo (q : Nat)
  | link (stable : Nat)
  | station
  deriving DecidableEq, Repr

/-- A reduce-send packet (R210 to R212): target global Stable, bay, offset, operation, lanes, semaphore, sending context, whether
a link damaged it on its way (R383), and the sender's off-core access that it ends when RX applies it (R255). -/
structure Packet where
  stable : Nat
  bay : Nat
  off : Nat
  op : Nat
  ty : Bool
  vec : Bool
  data : Row
  sem : Nat
  sender : Nat
  poison : Bool
  access : Option Nat
  deriving DecidableEq, Repr

/-- The scale half of a stream access: the tensor id, and the byte offset of its 128-byte record (R240). -/
structure ScaleRef where
  tid : Nat
  off : Int
  deriving DecidableEq, Repr

/-- What a round read does with its bytes (R188): a row, scale entries, a scalar, a stream load, a station port (with the access
of a DX job that its trigger may start), macro rows, or activations. -/
inductive RdUse where
  | row (reg : Nat) (dir : Nat)
  | scale (k : Nat)
  | scalar (s : Nat)
  | stream (dst : Nat) (reg dir : Nat) (k : Nat) (w0 w1 : Word) (o : Int)
  | port (p : Nat) (op : Option Nat)
  | cload (cm first wfmt : Nat)
  | cmac (mask abits : Nat) (asigned : Bool) (wacc : Nat)
  deriving DecidableEq, Repr

/-- What an entry in flight does when its context cycle comes (R10, R89, R188, R250): it lands a result or performs an access. -/
inductive Eff where
  | sreg (n : Nat) (v : Word)
  | preg (n : Nat) (v : Bool)
  | nreg (n : Nat) (v : BitVec 32)
  | row (reg dir : Nat) (v : Row) (mask : BitVec 512)
  | flags (f : BitVec 5)
  | csr (n : Nat) (v : Word)
  | cov (m : Nat) (cols : Word)
  | scale (k : Nat) (data : BitVec 1024) (mask : BitVec 64) (desc : Option (BitVec 7))
  | tag (t : Nat) (v : BitVec 32)
  | bind (t k : Nat) (geom : BitVec 5)
  | advance (w dim steps : Nat)
  | wload (w : Nat) (words : List Word)
  | wword (w i : Nat) (v : Word)
  | wreset (w : Nat)
  | read (bay off n : Nat) (lands : Nat) (use : RdUse)
  | write (bay off : Nat) (data mask : List Byte)
  | sem (n count : Nat)
  | move (port : Nat) (v : Word) (op : Option Nat)
  | packet (p : Packet)
  | mma (vd : Nat) (kind : Nat) (parts : List (BitVec 48)) (nan : List Bool) (add : Bool) (f : BitVec 5)
  | cmode (mask : Nat) (scratch : Bool)
  | cswap (mask : Nat)
  | cload (cm first wfmt : Nat) (data : Row)
  | csum (cm wacc g l : Nat) (sums : List Int)
  | cclr (mask : Nat)
  | offcore (id : Nat)
  | tapp (tap seq : Nat) (acc : BitVec 32) (crossed : Bool) (stamp : Nat)
  deriving DecidableEq, Repr

/-- A result or access in flight: the context cycle it falls due in, its slot, its issue order and its bundle. -/
structure Flight where
  due : Nat
  slot : Nat
  ord : Nat
  pc : Nat
  eff : Eff
  deriving DecidableEq, Repr

/-- What an off-core access does (R192 to R202, R205, R210, R255); a DX access knows its job once the trigger has arrived. -/
inductive OffKind where
  | load (tid : Nat) (o : Int) (n : Nat) (data : Bool) (scale : Option ScaleRef)
  | store (tid : Nat) (o : Int) (n : Nat) (data : Bool) (codes : Nat) (scale : Option (ScaleRef × BitVec 1024))
  | push (v : Row)
  | fillReq (v : Row)
  | pop
  | spill (tok tile tid : Nat) (offs : List Int) (rows : List Row)
  | fill (tok tile tid : Nat) (offs : List Int)
  | probe (tid off len : Nat)
  | discard (tid off len : Nat)
  | reds (p : Packet)
  | dx (job : Option Nat)
  deriving DecidableEq, Repr

/-- What a landing off-core access writes (R192 to R194, R196, R200). -/
inductive OffDst where
  | none
  | row (reg dir : Nat) (w0 w1 : Word) (k : Nat)
  | scale (k : Nat) (w0 w1 : Word)
  | scalar (s : Nat) (w0 : Word)
  | popRow (reg dir : Nat)
  | popScalar (s : Nat)
  deriving DecidableEq, Repr

/-- The answer an access got: none yet; under way (the first half of a host store made, the packet at RX, the input of a DX job
arrived); the element codes packed in storage format and the scale record; or a fault code. -/
inductive OffAns where
  | waiting
  | under
  | data (codes : Nat) (scale : BitVec 1024)
  | failed (code : Nat) (tile : Nat)
  deriving DecidableEq, Repr

/-- One off-core access of a context (R254): its queue, issue cycle and bundle, whether it has performed, and whether it
still holds a scoreboard entry until it lands, whether trap mode has reported it late (R194, R274). -/
structure OffOp where
  id : Nat
  q : QId
  kind : OffKind
  dst : OffDst
  issue : Nat
  slot : Nat
  opc : Nat
  pc : Nat
  seg : Nat
  since : Nat
  performed : Bool
  landed : Bool
  trapped : Bool
  ans : OffAns
  deriving DecidableEq, Repr

/-- A loop-stack entry (R25, R128). -/
structure LoopEntry where
  index : BitVec 32
  trip : BitVec 32
  start : Nat
  len : Nat
  deriving DecidableEq, Repr

/-- A scale register: 64 entries of 16 bits and its descriptor (R30). -/
structure KReg where
  entries : BitVec 1024
  desc : BitVec 32
  deriving DecidableEq, Repr

/-- A stream register: descriptor words 0 to 10 (R34, R237). -/
structure WReg where
  words : List Word
  deriving DecidableEq, Repr

/-- One bank of a CIM macro: 256 rows of 64 cells, a checksum column, the weight format, rows with bad parity, and each row's
source: 1 CLOAD, 2 + i the i-th fill request kept (R36, R234, R396). -/
structure Bank where
  rows : Map (BitVec 512)
  sums : Map Byte
  wfmt : Nat
  badRows : List Nat
  src : Map Nat
  reqs : List (BitVec 128)
  deriving DecidableEq, Repr

/-- What a macro's instructions in flight hold: the block split (R223), the context cycles from which its parts are free
again and the operations that hold them (R219, R406), and the exchanges of its banks that have issued and not landed (R280). -/
structure MacroTime where
  split : Option (Nat × Nat)
  busyActive : Nat × Nat
  busyShadow : Nat × Nat
  busyAcc : Nat × Nat
  swapsDue : Nat
  deriving DecidableEq, Repr

/-- A CIM macro of a context (R36, R219 to R226, R280): `active` is the physical bank that is active; `fillActive` says that the
bank a fill is writing has become the active one, as the undoing of an exchange makes it (R281). -/
structure Macro where
  active : Bank
  shadow : Bank
  scratch : Bool
  acc : Map Int
  fillOn : Option (Nat × Row)
  fillActive : Bool
  fillFailed : Option Nat
  activeRead : Bool
  shadowRead : Bool
  time : MacroTime
  deriving DecidableEq, Repr

/-- A tap register (R35, R180 to R183): configuration word, crossing bits and the stamp of its first crossing, scores (none: never
evaluated), and the hidden probe and steering vectors. -/
structure Tap where
  cfg : Word
  dim : Nat
  cross : BitVec 8
  stamp : BitVec 12
  score : Map (BitVec 32)
  probe : Map (BitVec 16)
  steer : Map (BitVec 16)
  deriving DecidableEq, Repr

/-- What a launch grants one context, and where its tiles, scale registers and streams begin on its Stall (R22, R24, R38). -/
structure Grant where
  tileBase : Nat
  kregBase : Nat
  streamBase : Nat
  tiles : Nat
  kregs : Nat
  streams : Nat
  macros : BitVec 8
  loops : Nat
  taps : BitVec 8
  sems : BitVec 64
  codeBase : Nat
  codeLen : Nat
  entry : Nat
  segbudget : Nat
  deriving DecidableEq, Repr

/-- A unit's old contents in the undo log (R285), with the elements that the segment took from FIFOs, which a rerun must meet again
(R200, R387). -/
inductive Undo where
  | row (n : Nat) (v : Row)
  | granule (stable bay g : Nat) (v : BitVec 512)
  | kreg (k : Nat) (v : KReg)
  | tag (t : Nat) (v : BitVec 32)
  | bankRow (cm : Nat) (shadow : Bool) (row : Nat) (v : BitVec 512) (sum : Byte) (wfmt : Nat) (src : Nat × BitVec 128)
  | swap (cm : Nat)
  | mode (cm : Nat) (scratch : Bool)
  | acc (cm : Nat) (acc : Map Int) (split : Option (Nat × Nat))
  | signalled (stable sem count : Nat)
  | taken (sem count : Nat)
  | popped (fifo : Nat) (v : Row)
  deriving DecidableEq, Repr

/-- A fault found before the bundle it falls on: code, first context cycle it may fall in, slot of its operation, detail or
second operation, and, for a checksum, the context cycle and bundle of its CCHK, the mismatching rows and the syndrome (R91,
R194, R223, R226, R406), the last plus 4,096 where the physical bank had no source copy (R396). -/
structure LateFault where
  code : Nat
  cycle : Nat
  slot : Nat
  info : Nat
  at0 : Nat
  pc0 : Nat
  count : Nat
  synd : Nat
  deriving DecidableEq, Repr

/-- A train on a lane (R229): owning context, lane, path start position, hops, context cycle of segment 1, flits, its operation, and
whether it runs on as the Yard's, its context having been released since or waiting, when segment 1 is a Yard cycle (R147, R231, log 136). -/
structure Train where
  ctx : Nat
  lane : Nat
  start : Nat
  hops : Nat
  first : Nat
  flits : Nat
  src : Nat
  out : Bool
  deriving DecidableEq, Repr

/-- A bay access (R216): owning context, bay, context cycle, operation, and the Yard cycle it was made in, once it has been. -/
structure BayUse where
  ctx : Nat
  bay : Nat
  cycle : Nat
  src : Nat
  made : Option Nat
  deriving DecidableEq, Repr

/-- A station job running (R205 to R207): station, triggering context, the Yard cycle E of its end, which moves on with each cycle that
holds its context (R250, log 113; in a snapshot, the context cycle that it had then), whether it waits for its input, writes, produced,
flags, error, signal, and whether its source held poison (R384). -/
structure Job where
  id : Nat
  station : Nat
  ctx : Nat
  ends : Nat
  waits : Bool
  bay : Nat
  off : Nat
  chunks : List (Nat × List Byte)
  produced : Nat
  flags : BitVec 5
  error : Nat
  signal : Option Nat
  poison : Bool
  args : List Word
  deriving DecidableEq, Repr

/-- What a segment entry records (R284). -/
structure Snapshot where
  pc : Nat
  base : Int
  tprev : Int
  ccycle : Nat
  loops : List LoopEntry
  sregs : Map Word
  pregs : BitVec 16
  nregs : Map (BitVec 32)
  wregs : Map WReg
  mode : BitVec 2
  fflags : BitVec 5
  cov : Map Word
  taps : Map Tap
  tapstat : BitVec 28
  macros : Map MacroTime
  flight : List Flight
  ops : List OffOp
  late : List LateFault
  bar : Map Nat
  trains : List Train
  uses : List BayUse
  jobs : List Job
  deriving DecidableEq, Repr

/-- What a frozen context waits for at its due bundle or landing (R274, R276, R277). -/
inductive Wait where
  | none
  | late
  | landing (id : Nat)
  | lock (tok : Nat)
  | fill (cm : Nat)
  | sem (n : Nat)
  | rdv (group : Nat)
  | bar (group : Nat)
  | probe (tid off len : Nat)
  | full
  | copy
  | csr
  deriving DecidableEq, Repr

/-- A check's outcome on one slot operation: passed, a fault with its code and detail, a fault that only the bundle's issue in this
Yard cycle would make (R215, R216, R231), or a wait (R268 step 3). -/
inductive Check where
  | ok
  | fault (code info : Nat)
  | clash (code info : Nat)
  | wait (w : Wait)
  deriving DecidableEq, Repr

/-- The life of a context in its slot (R25, R145 to R147, R318, R331, R385). -/
inductive CStatus where
  | absent
  | placed
  | running
  | held (code : Nat)
  | halted
  | exiting
  | ended
  | rewound
  | lost
  deriving DecidableEq, Repr

/-- What a Y operation of the bundle does once the bundle has committed (R144 to R147); `swap` is an offer that has been taken, whose
launch is swapped out when the service context returns (R329). -/
inductive After where
  | none
  | offer
  | swap
  | svc (code : Nat)
  | trap (code : Nat)
  | halt
  | exit
  deriving DecidableEq, Repr

/-- A fault of R331 as raised: the context, the code, where it falls, its detail, the second operation of R406, the structure, count and
syndrome of R403, the module cycle, and the context's launch with its queue and sequence number; `entry` is the record of a fault that is a
Yard's, not a context's (R404, R408). -/
structure Raised where
  ctx : Nat
  code : Nat
  slot : Nat
  pc : Nat
  cycle : Nat
  info : Nat
  second : Nat
  struct : Nat
  count : Nat
  synd : Nat
  mc : Nat
  launch : Nat
  queue : Nat
  seq : Nat
  entry : Option (BitVec 128)
  deriving DecidableEq, Repr

/-- A context and all it owns (R25); `consumed` is the fault 0x30 that a rewind in hand follows (R385, R388), `missed` the first tile that a
PROBE missed or the bank row that a CCHK found (R148, R226, log 121), `raised` the faults it has raised in this module cycle, which are
delivered in the order of R354 (log 125), `ranAt` the Yard cycle in which it last reached a context cycle, 0 for none (R77, R322), and
`spare` the bytes of its block that the layout leaves unused (R327, log 20). -/
structure Ctx where
  status : CStatus
  launch : Nat
  k : Nat
  grant : Grant
  pc : Nat
  base : Int
  tprev : Int
  ccycle : Nat
  lastIssue : Nat
  lastPc : Nat
  yielded : Bool
  seenYard : Nat
  ranAt : Nat
  landedNow : Bool
  wait : Wait
  waited : Nat
  hung : Bool
  loops : List LoopEntry
  sregs : Map Word
  pregs : BitVec 16
  nregs : Map (BitVec 32)
  vrows : Map Row
  kregs : Map KReg
  tags : Map (BitVec 32)
  wregs : Map WReg
  macros : Map Macro
  taps : Map Tap
  tapstat : BitVec 28
  mode : BitVec 2
  fflags : BitVec 5
  cov : Map Word
  deadline : Nat
  expired : Bool
  after : After
  station : Map Word
  stationStatus : Map Word
  flight : List Flight
  ord : Nat
  late : List LateFault
  heldRows : Bool
  ops : List OffOp
  opId : Nat
  fences : List (Nat × Nat)
  seg : Nat
  segEntry : Nat
  undo : List Undo
  charge : Nat
  snap : Option Snapshot
  segRewound : Bool
  rdv : Map Nat
  bar : Map Nat
  barOpen : Map Nat
  pins : List (Nat × Nat)
  probeOk : Bool
  missed : Option Nat
  request : Nat
  inSvc : Bool
  frozen : Bool
  rewind : Nat
  restores : Nat
  consumed : Option Raised
  raised : List Raised
  spare : Map Word
  deriving DecidableEq, Repr

/-- A write from a Stall to a bay that performs in the current Yard cycle, kept for the order of R190: slot, Stall, place,
bytes, mask. -/
structure BayWrite where
  slot : Nat
  stall : Nat
  bay : Nat
  off : Nat
  data : List Byte
  mask : List Byte
  deriving DecidableEq, Repr

/-- A semaphore signal (R143, R211): semaphore, count, the Yard cycle it performs in, and 1 + the context whose undo log it
charges on performing, or 0. -/
structure Signal where
  sem : Nat
  count : Nat
  due : Nat
  charged : Nat
  deriving DecidableEq, Repr

/-- A reservation of two bays by an MMA (R216): owning context, bays, first and last Yard cycle, operation. -/
structure Reserve where
  ctx : Nat
  abay : Nat
  bbay : Nat
  first : Nat
  last : Nat
  src : Nat
  deriving DecidableEq, Repr

/-- The state of a Stable (R19 to R22, R38, R143, R190, R205, R211, R272); `hints` holds the last Yard cycle of each context's MXHINT
in force (R273). -/
structure Stable where
  mxwin : BitVec 2
  mxPending : Option (BitVec 2)
  sems : Map (BitVec 32)
  writes : List BayWrite
  signals : List Signal
  packets : List (Nat × Packet)
  trains : List Train
  uses : List BayUse
  reserves : List Reserve
  jobs : List Job
  lastMma : Option Nat
  warm : Bool
  hints : Map Nat
  arrayFailed : Bool
  failed : Bool
  draining : Bool
  deriving DecidableEq, Repr

/-- A Yard's status (R15, R16, R399). -/
inductive YStatus where
  | inactive
  | activating
  | running
  | lost
  deriving DecidableEq, Repr

/-- A logical Yard: site, counters (R18), clock floor, a new one with the module
cycle it was written in (R429), pulses still to be swallowed, ramps as (one pulse in n, reference periods
left, whether the present n periods have lost their pulse), and whether each of the last reference periods gave a cycle, newest
first (R271 to R273), whether a cycle spans two periods (R400), and which ring ports have failed: bit 0 towards the next site, bit 1
towards the one before (R399). -/
structure Yard where
  site : Nat
  status : YStatus
  ycycle : Nat
  yslip : Nat
  since : Nat
  floor : Nat
  floorNext : Option (Nat × Nat)
  owed : Nat
  ramps : List (Nat × Nat × Bool)
  history : List Bool
  doubled : Bool
  ports : BitVec 2
  deriving DecidableEq, Repr

/-- A resident image of a class extent on a Stall (R316, R317): class, address, tag, base, length, launch start. -/
structure Resident where
  cls : Bool
  addr : Nat
  tag : Nat
  base : Nat
  len : Nat
  started : Nat
  deriving DecidableEq, Repr

/-- Stall-wide state outside the contexts (R316, R393, R397, R401, R412). -/
structure Stall where
  images : List Resident
  suspect : Bool
  failedMacros : BitVec 8
  partners : Map Nat
  remap : Map (BitVec 32)
  svoff : Map Nat
  svcause : Map Nat
  entries : Nat
  issuedSlots : BitVec 8
  issuedPorts : BitVec 6
  issuedAt : Nat
  rowsAt : Nat
  rowsNow : Nat
  deriving DecidableEq, Repr

/-- A tensor of a kernel's table (R235) with its tile table (R307). -/
structure Tensor where
  id : Nat
  kind : Nat
  fmt : Nat
  bay : Nat
  flags : Nat
  len : Nat
  off : Nat
  tiles : Nat
  table : Nat
  deriving DecidableEq, Repr

/-- The life of a launch (R318). -/
inductive LState where
  | queued
  | head
  | ready
  | starting
  | running
  | swapping
  | swapped
  | ending
  | ended
  deriving DecidableEq, Repr

/-- One batch slot of a sequence unit: the version and half it read last, its state (0 idle, 1 running, 2 held, 3 stopped), its
sequence, position and hold-back buffer, and `last` the state after the last snapshot (R359, R361). -/
structure SlotUnit where
  version : Nat
  half : List Byte
  state : Nat
  last : Nat
  seq : Nat
  pos : Nat
  held : List Nat
  deriving DecidableEq, Repr

/-- A launch's sequence unit (R356 to R370): its slots, the token elements queued, the count of elements accepted, the withhold mask,
records waiting for ring room with produced, snapshots completed, the snapshot in progress (reads done, seals, halves, flips), and
copies of the commit element waiting for FIFO room, and whether the batch table's counts have been written 0. -/
structure GenUnit where
  slots : List SlotUnit
  tokens : List Row
  n : Nat
  w : BitVec 16
  records : List (List Byte)
  produced : Nat
  snaps : Nat
  reading : Option Nat
  seals : Map Nat
  halves : Map (List Byte)
  flips : BitVec 16
  commits : List (Nat × Row)
  opened : Bool
  ending : Bool
  deriving DecidableEq, Repr

/-- A posted launch (R304 to R309, R318): its record and parsed image, its placement and its times. -/
structure Launch where
  queue : Nat
  seq : Nat
  openCls : Bool
  state : LState
  record : List Byte
  header : List Byte
  tensors : List Tensor
  streams : List (List Word)
  groups : List (Nat × Nat × Nat)
  segments : List (Nat × Bool)
  fifos : List (List Nat)
  images : List (Nat × Nat × List Byte)
  yards : List Nat
  m0 : Nat
  p0 : Nat
  semmask : BitVec 64
  since : Nat
  started : Nat
  status : Nat
  fault : Nat
  faultStall : Nat
  faultSlot : Nat
  faultPc : Nat
  maxCycle : Nat
  fifoData : Map (List Row)
  pushed : Map Nat
  popped : Map Nat
  traffic : Nat
  taploads : List Nat
  gen : Option GenUnit
  desc : List Byte
  saved : Map Ctx
  savedTrains : List (Nat × Train)
  savedUses : List (Nat × BayUse)
  swapAsked : List Nat
  swapDone : List Nat
  prepared : Bool
  silent : Bool
  deriving DecidableEq, Repr

/-- A fault-buffer entry: the 128-bit record and its detail (R402, R403, R406). -/
structure Entry where
  record : BitVec 128
  detail : BitVec 128
  deriving DecidableEq, Repr

/-- The slot operation being run: context, slot, bundle index, stamp, issue context cycle, literal pool, marks (R72 to R75,
R85), where control goes next (R127 to R131), and what follows its commit. -/
structure Cur where
  ctx : Nat
  slot : Nat
  pc : Nat
  stamp : Nat
  cycle : Nat
  poolfmt : Nat
  pool : BitVec 32
  yieldMark : Bool
  rdvMark : Bool
  segMark : Bool
  next : Option (Nat × Int)
  after : After
  undo : Nat
  deriving DecidableEq, Repr

/-- Something the module sends out: the answer to a read, a completion, a back-invalidate snoop, the answer to a snoop, a flush
answer, a completion message, a mailbox answer and its MSI-X message, a service-log line of a launch that ends unreported (R264, R318,
R345, R349, R351, R418). -/
inductive Out where
  | readData (addr : Nat) (data : List Byte)
  | writeDone (addr : Nat)
  | bisnp (base lines : Nat)
  | snooped (line : Nat) (data : Option (BitVec 512)) (poison : Bool)
  | flushed
  | message (queue seq : Nat)
  | mailbox (opcode code : Nat) (data : List Byte)
  | interrupt
  | logged (queue seq status : Nat)
  deriving DecidableEq, Repr

/-- A request that waits in a port queue during a flip (R347, R349): an access of a launch's sequence unit, a requantisation job, a device
access of a context, a host write, a host read. -/
inductive PortWait where
  | unit (l : Nat)
  | job
  | device (c id : Nat)
  | write (addr : Nat) (data : List Byte)
  | read (addr len : Nat) (excl : Bool)
  deriving DecidableEq, Repr

/-- A flip towards the device in progress: its region, the line where the flip is at line scale, and what waits behind it (R348,
R349). -/
structure Flip where
  region : Nat
  line : Option Nat
  waiting : List PortWait
  deriving DecidableEq, Repr

/-- The host link's state (R350). -/
inductive Link where
  | down
  | linked
  | flushing
  | restarting
  | retraining
  deriving DecidableEq, Repr

/-- The CXL attachment: region-table entries, the contested-line directory (line, state 1 or 2, oldest change first), contested
regions with a line flip in this window, flips in progress, modified host lines held, and the link (R345 to R350). -/
structure Cxl where
  regions : Map Word
  directory : List (Nat × Nat)
  active : List Nat
  flips : List Flip
  cache : List (Nat × BitVec 512)
  link : Link
  deriving DecidableEq, Repr

/-- A damaged word (R383, R384, R407): structure code, owner (context, Stall, Stable or 0), unit, 64-bit word of the unit, whether it is
uncorrectable, the one bit that is wrong where it is not (64 to 71 are the check bits c0 to c7), and the syndrome it reads with, 0x7F once
it is poison. -/
structure Mark where
  struct : Nat
  owner : Nat
  unit : Nat
  word : Nat
  bad : Bool
  bit : Nat
  synd : Nat
  deriving DecidableEq, Repr

/-- A tracked row (R395). -/
structure Tracked where
  key : Nat
  record : BitVec 128
  count : Nat
  first : Nat
  last : Nat
  rose : Bool
  deriving DecidableEq, Repr

/-- A captured segment of a Stall (R390 to R393): its context, entry bundle and Yard cycle; its input log, with the bytes it holds, of
loads and POPs by issue cycle and slot; once it has ended, its signature, its launch, its entry state and the Stable's extents by bay; the
runs of replays so far as Stalls with their signatures, the context that a replay runs in, and a run that has ended and is not judged. -/
structure Capture where
  ctx : Nat
  entry : Nat
  at0 : Nat
  inputs : Nat
  answers : List (Nat × Nat × OffAns)
  sig : Option Word
  launch : Option Launch
  start : Option Ctx
  rounds : List (Nat × List Byte)
  runs : List (Nat × Word)
  run : Option Nat
  ended : Option (Nat × Word)
  deriving DecidableEq, Repr

/-- Reliability state of the module: sieves by logical Yard, 7 the I/O die, the tracked rows, captures by Stall, segments skipped,
and the repair in hand: its state, target, the spare it took and whether none was left (R389 to R398). -/
structure Rel where
  sieve : Map Nat
  tracked : List Tracked
  captures : Map Capture
  skipped : Nat
  repair : Nat
  target : Word
  spare : Nat
  noSpare : Bool
  deriving DecidableEq, Repr

/-- The stages of bring-up (R425). -/
inductive Boot where
  | memory
  | verify
  | yards
  | loaded
  | linked
  | opened
  | recovery
  deriving DecidableEq, Repr

/-- A registered hashed tensor: tile table, leaf table, tiles, register (R420 to R422). -/
structure Tree where
  table : Nat
  leaves : Nat
  tiles : Nat
  reg : Nat
  deriving DecidableEq, Repr

/-- The security block: stage, flash, security-version fuse, the slot booted with its svn, build and length, measurement registers,
registered trees, the registration in progress and the last result, the mailbox's last command, and the error records that bring-up
placed in flash, the mailbox's command register, payload area and interrupt enable, and the nonce of a quote being formed (R413 to R422,
R425). -/
structure Sec where
  boot : Boot
  flash : List Host.Cell
  svnFuse : Nat
  slot : Nat
  svn : Nat
  build : Nat
  length : Nat
  meas : Map (BitVec 256)
  trees : List Tree
  job : Option Nat
  result : Nat
  opcode : Nat
  code : Nat
  output : List Byte
  records : List Entry
  command : Word
  payload : List Byte
  irq : Bool
  quote : Option (List Byte)
  deriving DecidableEq, Repr

/-- An entry of a Stall's tile-translation cache (R247): its context, tensor id, tile, the address of its tile-table entry, and whether its
frame lies in device memory. -/
structure Cached where
  ctx : Nat
  tid : Nat
  tile : Nat
  at0 : Nat
  device : Bool
  deriving DecidableEq, Repr

/-- What moves next within a Yard cycle (the model's own): the station jobs of a class, a context's landing and skip steps, its checks and
issue, one slot of its bundle, the end of its bundle, the end of a Yard's cycle, a hang and its record, a swap-out, a cycle of a rewind, the
end of a reference period. -/
inductive Work where
  | jobs (yard slot : Nat)
  | land (c : Nat)
  | issue (c : Nat)
  | fetch (c : Nat) (slot : Nat)
  | commit (c : Nat)
  | close (yard : Nat)
  | hang (c : Nat)
  | record (c slot : Nat)
  | swap (l : Nat)
  | rewind (c : Nat)
  | period
  deriving DecidableEq, Repr

/-- The whole machine. -/
structure State where
  agenda : List Work
  inbox : List Instr
  cur : Cur
  fresh : Nat
  mcycle : Nat
  yards : Map Yard
  stables : Map Stable
  stalls : Map Stall
  ctxs : Map Ctx
  round : List Host.Cell
  istore : List Host.Cell
  sstore : List Host.Cell
  dev : List Host.Cell
  hostMem : List Host.Cell
  launches : Map Launch
  expected : Map Nat
  lastCmd : Map Nat
  tokens : Map (BitVec 6)
  residents : List (Nat × Nat × Nat)
  pinned : List (Nat × Nat)
  iocsr : Map Word
  ioWrites : List (Nat × Nat × Word)
  fbuf : List Entry
  heldFaults : List Raised
  fbOverflow : Bool
  heldTotal : Nat
  out : List Out
  cxl : Cxl
  strikes : List (Nat × Mark)
  marks : List Mark
  rqJob : Option Nat
  rqDone : Option Nat
  rqResult : Nat
  hangSlot : Nat
  tcache : List Cached
  rel : Rel
  sec : Sec
  control : Bool
  deriving DecidableEq, Repr

/-- The registers of the I/O die with a reset value other than zero: the hang time-out, and the partition registers, every resource
primary (R276, R314, R412, log 9). -/
def resetIo : Map Word :=
  [(0x832, 24#64), (0x871, BitVec.ofNat 64 (24 + 256 * 2 ^ 5 + 32 * 2 ^ 14 + 255 * 2 ^ 20 + 4096 * 2 ^ 28 + 768 * 2 ^ 41)),
    (0x872, BitVec.ofNat 64 (64 * (1 + 2 ^ 7 + 2 ^ 14 + 2 ^ 21 + 2 ^ 28 + 2 ^ 35 + 2 ^ 42 + 2 ^ 49))),
    (0x873, BitVec.allOnes 64)]

/-- The machine right after module reset: no Yard runs, no context is placed, every memory lists nothing (R15, R25, R310, R424). -/
def State.reset : State :=
  { agenda := [], inbox := [],
    cur := { ctx := 0, slot := 0, pc := 0, stamp := 0, cycle := 0, poolfmt := 0, pool := 0, yieldMark := false, rdvMark := false,
             segMark := false, next := none, after := .none, undo := 0 },
    fresh := 0, mcycle := 0, yards := [], stables := [], stalls := [], ctxs := [], round := [], istore := [], sstore := [],
    dev := [], hostMem := [], launches := [], expected := [], lastCmd := [], tokens := [], residents := [], pinned := [], iocsr := resetIo, ioWrites := [],
    fbuf := [], heldFaults := [], fbOverflow := false, heldTotal := 0, out := [],
    cxl := { regions := [], directory := [], active := [], flips := [], cache := [], link := .down },
    strikes := [], marks := [], rqJob := none, rqDone := none, rqResult := 0, hangSlot := 0, tcache := [],
    rel := { sieve := [], tracked := [], captures := [], skipped := 0, repair := 0, target := 0, spare := 0, noSpare := false },
    sec := { boot := .memory, flash := [], svnFuse := 0, slot := 0, svn := 0, build := 0, length := 0, meas := [], trees := [],
             job := none, result := 0, opcode := 0, code := 0, output := [], records := [], command := 0, payload := [], irq := false,
             quote := none },
    control := false }

end Sys2Proof.Machine
end

