-- ==== Sys2Proof/Machine/Ops.lean ====
section
/-!
DEFINITION. The named operations over the machine's parts: contexts, registers, the vector file's three views, results in
flight, streams and tensors, and taking an exception (R331, R332, R353).
-/

namespace Sys2Proof.Machine

/-- A context that no launch has placed (R25, log 106). -/
def ctxInit : Ctx :=
  { status := .absent, launch := 0, k := 0,
    grant := { tileBase := 0, kregBase := 0, streamBase := 0, tiles := 0, kregs := 0, streams := 0, macros := 0, loops := 0, taps := 0, sems := 0, codeBase := 0,
               codeLen := 0, entry := 0, segbudget := 0 },
    pc := 0, base := 0, tprev := -1, ccycle := 0, lastIssue := 0, lastPc := 0, yielded := false, seenYard := 0, ranAt := 0, landedNow := false, wait := .none,
    waited := 0, hung := false, loops := [], sregs := [], pregs := 1, nregs := [], vrows := [], kregs := [], tags := [],
    wregs := [], macros := [], taps := [], tapstat := 0, mode := 0, fflags := 0, cov := [],
    deadline := 0, expired := false, after := .none, station := [], stationStatus := [], flight := [], ord := 0, late := [], heldRows := false, ops := [],
    opId := 0, fences := [], seg := 0, segEntry := 0, undo := [], charge := 0, snap := none,
    segRewound := false, rdv := [], bar := [], barOpen := [], pins := [], probeOk := false, missed := none, request := 0, inSvc := false,
    frozen := false, rewind := 0, restores := 0, consumed := none, raised := [], spare := [] }

/-- A Stable before its Yard is activated (log 106). -/
def stableInit : Stable :=
  { mxwin := 0, mxPending := none, sems := [], writes := [], signals := [], packets := [], trains := [], uses := [],
    reserves := [], jobs := [], lastMma := none, warm := false, hints := [], arrayFailed := false,
    failed := false, draining := false }

/-- A Yard that is not active (R15, log 9). -/
def yardInit : Yard :=
  { site := 0, status := .inactive, ycycle := 0, yslip := 0, since := 0, floor := 512, floorNext := none, owed := 0,
    ramps := [], history := [], doubled := false, ports := 0 }

/-- A Stall with nothing resident (R316, log 106). -/
def stallInit : Stall :=
  { images := [], suspect := false, failedMacros := 0, partners := [], remap := [], svoff := [],
    svcause := [], entries := 0, issuedSlots := 0, issuedPorts := 0, issuedAt := 0, rowsAt := 0,
    rowsNow := 0 }

/-- An empty bank (R25, R27, log 7). -/
def bankInit : Bank := { rows := [], sums := [], wfmt := 0, badRows := [], src := [], reqs := [] }

/-- A macro at placement (R25, R36): both banks zero, mode weights (log 7). -/
def macroInit : Macro :=
  { active := bankInit, shadow := bankInit, scratch := false, acc := [], fillOn := none, fillActive := false, fillFailed := none,
    activeRead := false, shadowRead := false,
    time := { split := none, busyActive := (0, 0), busyShadow := (0, 0), busyAcc := (0, 0), swapsDue := 0 } }

/-- A tap with no configuration (R25, R35). -/
def tapInit : Tap := { cfg := 0, dim := 0, cross := 0, stamp := 0, score := [], probe := [], steer := [] }

/-- A launch slot that holds none. -/
def launchInit : Launch :=
  { queue := 0, seq := 0, openCls := false, state := .ended, record := [], header := [], tensors := [], streams := [],
    groups := [], segments := [], fifos := [], images := [], yards := [], m0 := 0, p0 := 0, semmask := 0, since := 0,
    started := 0, status := 0, fault := 0, faultStall := 0, faultSlot := 0, faultPc := 0, maxCycle := 0, fifoData := [],
    pushed := [], popped := [], traffic := 0, taploads := [], gen := none, desc := [], saved := [], savedTrains := [], savedUses := [],
    swapAsked := [], swapDone := [],
    prepared := false, silent := false }

/-- The global Stall of a context key (R2). -/
def stallOf (c : Nat) : Nat := c / 4
/-- The context slot of a key: 0 primary, 1 secondary (R23). -/
def slotOf (c : Nat) : Nat := c / 2 % 2
/-- Whether the key names a service context (R328). -/
def isSvc (c : Nat) : Bool := c % 2 == 1
/-- The global Stable of a key: Yard × 16 + Stable (R2). -/
def stableOf (c : Nat) : Nat := c / 8
/-- The logical Yard of a key (R2). -/
def yardOf (c : Nat) : Nat := c / 128
/-- The key of the context a service context serves (R328). -/
def served (c : Nat) : Nat := c / 2 * 2
/-- The round position of the Stall's port (R19). -/
def portPos (c : Nat) : Nat := if stallOf c % 2 = 0 then 1 else 9
/-- The round position of a bay (R19). -/
def bayPos (b : Nat) : Nat := 2 * b
/-- The hop count of a lane from one position to another (R20). -/
def hops (lane a b : Nat) : Nat := if lane < 8 then (b + 16 - a) % 16 else (a + 16 - b) % 16

/-- The context at a key. -/
def ctxOf (s : State) (c : Nat) : Ctx := mget s.ctxs c ctxInit
/-- The state with the context at a key changed. -/
def modCtx (s : State) (c : Nat) (f : Ctx → Ctx) : State := { s with ctxs := mput s.ctxs c (f (ctxOf s c)) }
/-- The context whose slot operation runs. -/
def me (s : State) : Ctx := ctxOf s s.cur.ctx
/-- The state with the running context changed. -/
def modMe (s : State) (f : Ctx → Ctx) : State := modCtx s s.cur.ctx f
/-- A Stable. -/
def stableAt (s : State) (n : Nat) : Stable := mget s.stables n stableInit
/-- The state with a Stable changed. -/
def modStable (s : State) (n : Nat) (f : Stable → Stable) : State := { s with stables := mput s.stables n (f (stableAt s n)) }
/-- A logical Yard. -/
def yardAt (s : State) (n : Nat) : Yard := mget s.yards n yardInit
/-- The state with a Yard changed. -/
def modYard (s : State) (n : Nat) (f : Yard → Yard) : State := { s with yards := mput s.yards n (f (yardAt s n)) }
/-- A Stall. -/
def stallAt (s : State) (n : Nat) : Stall := mget s.stalls n stallInit
/-- The state with a Stall changed. -/
def modStall (s : State) (n : Nat) (f : Stall → Stall) : State := { s with stalls := mput s.stalls n (f (stallAt s n)) }
/-- A launch. -/
def launchAt (s : State) (n : Nat) : Launch := mget s.launches n launchInit
/-- The state with a launch changed. -/
def modLaunch (s : State) (n : Nat) (f : Launch → Launch) : State :=
  { s with launches := mput s.launches n (f (launchAt s n)) }
/-- The launch of the running context. -/
def myLaunch (s : State) : Launch := launchAt s (me s).launch
/-- The Yard cycle of a context's Yard (R18). -/
def yardNow (s : State) (c : Nat) : Nat := (yardAt s (yardOf c)).ycycle
/-- An I/O-die CSR (R412). -/
def ioCsr (s : State) (n : Nat) : Word := mget s.iocsr n 0
/-- The state with an I/O-die CSR written. -/
def setIo (s : State) (n : Nat) (v : Word) : State := { s with iocsr := mput s.iocsr n v }

/-- A scalar register; s0 reads zero (R1, R76). -/
def sreg (c : Ctx) (n : Nat) : Word := if n = 0 then 0 else mget c.sregs n 0
/-- The context with a scalar written; a write to s0 is discarded (R76). -/
def setSreg (c : Ctx) (n : Nat) (v : Word) : Ctx := if n = 0 then c else { c with sregs := mput c.sregs n v }
/-- A predicate; p0 reads true (R76). -/
def preg (c : Ctx) (n : Nat) : Bool := n == 0 || bit c.pregs n
/-- The context with a predicate written; a write to p0 is discarded (R76). -/
def setPreg (c : Ctx) (n : Nat) (v : Bool) : Ctx :=
  if n = 0 then c else { c with pregs := setField c.pregs n 1 (if v then 1 else 0) }
/-- A loop-bound register (R25). -/
def nreg (c : Ctx) (n : Nat) : BitVec 32 := mget c.nregs n 0
/-- A vector row; a row nothing has written reads zero (R27). -/
def vrow (c : Ctx) (n : Nat) : Row := mget c.vrows n 0
/-- Scale format of a register: 0 unset, 1 E8M0, 2 BF16, 3 FP16 (R30). -/
def kfmt (k : KReg) : Nat := fld k.desc 20 2
/-- A scale register as it reads: with the format E8M0, bits 15:8 of every entry are zero (R30, log 111). -/
def trimScale (k : KReg) : KReg :=
  if kfmt k = 1 then { k with entries := k.entries &&& BitVec.ofNat 1024 (pack 16 64 (fun _ => 255)) } else k
/-- A scale register (R30). -/
def kreg (c : Ctx) (k : Nat) : KReg := trimScale (mget c.kregs k ⟨0, 0⟩)
/-- A binding tag: tile t at t, bank b of macro m at 32 + 2m + b (R32). -/
def tagOf (c : Ctx) (t : Nat) : BitVec 32 := mget c.tags t 0
/-- The number of a macro bank's tag. -/
def bankTag (m b : Nat) : Nat := 32 + 2 * m + b
/-- A stream register (R34, R237). -/
def wreg (c : Ctx) (w : Nat) : WReg := mget c.wregs w ⟨[]⟩
/-- A CIM macro of the context (R36). -/
def macroOf (c : Ctx) (m : Nat) : Macro := mget c.macros m macroInit
/-- The context with a macro changed. -/
def modMacro (c : Ctx) (m : Nat) (f : Macro → Macro) : Ctx := { c with macros := mput c.macros m (f (macroOf c m)) }
/-- A tap register (R35). -/
def tapOf (c : Ctx) (t : Nat) : Tap := mget c.taps t tapInit

/-- Register number of a vector operand (R76). -/
def vnum (v : BitVec 13) : Nat := fld v 2 11
/-- Direction of a vector operand (R28). -/
def vdir (v : BitVec 13) : Nat := fld v 0 2

/-- The 512-byte value that register `n` and direction `d` name (R28): row, column or diagonal. -/
def readView (c : Ctx) (n d : Nat) : Row :=
  match d with
  | 0 => vrow c n
  | 1 => rowOf 64 64 (fun e => elem 64 (vrow c (n / 64 * 64 + e)).toNat (n % 64))
  | _ => rowOf 64 64 (fun e => elem 64 (vrow c (n / 64 * 64 + e)).toNat ((e + n % 64) % 64))

/-- A vector source operand (R152). -/
def readVec (c : Ctx) (v : BitVec 13) : Row := readView c (vnum v) (vdir v)

/-- A byte mask of 512 bits widened to a mask of the row's 4,096 bits. -/
def byteMask (m : BitVec 512) : Row := rowOf 8 512 (fun i => if m.getLsbD i then 255 else 0)

/-- Old bytes with the masked bytes of a new value. -/
def blend (old new : Row) (m : BitVec 512) : Row := (old &&& ~~~(byteMask m)) ||| (new &&& byteMask m)

/-- A row with its 8-byte cell `j` replaced under an 8-bit byte mask. -/
def setCell (r : Row) (j v m : Nat) : Row :=
  let k := pack 8 8 (fun i => if m.testBit i then 255 else 0)
  BitVec.ofNat 4096 ((r.toNat &&& ((2 ^ 4096 - 1) - (k <<< (64 * j)))) ||| ((v &&& k) <<< (64 * j)))

/-- A vector destination written through its own view, byte by byte under a mask (R28, R29, R152). -/
def writeView (c : Ctx) (n d : Nat) (v : Row) (m : BitVec 512) : Ctx :=
  match d with
  | 0 => { c with vrows := mset c.vrows n (blend (vrow c n) v m) 0 }
  | _ =>
    let put (rs : Map Row) (e : Nat) : Map Row :=
      let i := n / 64 * 64 + e
      let col := if d = 1 then n % 64 else (e + n % 64) % 64
      mset rs i (setCell (mget rs i 0) col (elem 64 v.toNat e) (fld m (8 * e) 8)) 0
    { c with vrows := (List.range 64).foldl put c.vrows }

/-- Every byte of a row. -/
def allBytes : BitVec 512 := BitVec.allOnes 512

/-- The rows a destination in a view touches (R285). -/
def viewRows (n d : Nat) : List Nat := if d = 0 then [n] else (List.range 64).map (fun e => n / 64 * 64 + e)

/-- Whether a slot operation executes: pn XOR invert (R75). -/
def predTrue (c : Ctx) (p : BitVec 5) : Bool := preg c (fld p 0 4) != bit p 4

/-- An operation as a fault record's second operation: 1 + bundle × 256 + slot (R406). -/
def srcOf (pc slot : Nat) : Nat := 1 + pc * 256 + slot
/-- The running operation itself. -/
def hereSrc (s : State) : Nat := srcOf s.cur.pc s.cur.slot

/-- A result or access that falls due `lat` context cycles after issue (R10, R88). -/
def emit (s : State) (lat : Nat) (e : Eff) : State :=
  modMe s (fun c =>
    { c with flight := c.flight ++ [{ due := s.cur.cycle + lat, slot := s.cur.slot, ord := c.ord, pc := s.cur.pc, eff := e }],
             ord := c.ord + 1 })

/-- A whole vector row landing in a destination. -/
def emitVec (s : State) (lat : Nat) (vd : BitVec 13) (v : Row) : State := emit s lat (.row (vnum vd) (vdir vd) v allBytes)

/-- Flags landing with a result; none where no flag is raised (R57, R153). -/
def emitFlags (s : State) (lat : Nat) (f : BitVec 5) : State := if f = 0 then s else emit s lat (.flags f)

/-- A scalar landing. -/
def emitS (s : State) (lat : Nat) (d : BitVec 6) (v : Word) : State := emit s lat (.sreg d.toNat v)

/-- A predicate landing. -/
def emitP (s : State) (lat : Nat) (d : BitVec 4) (v : Bool) : State := emit s lat (.preg d.toNat v)

/-- Generation of a register (R30). -/
def kgen (k : KReg) : Nat := fld k.desc 0 16
/-- Axis and block of a register as a tag's geometry field: axis bit 4, block bits 3:0 (R30, R32). -/
def kgeom (k : KReg) : BitVec 5 := bits k.desc 22 1 ++ bits k.desc 16 4
/-- Entry j of a register; a register with the format E8M0 has zero in its bits 15:8 (`kreg`, R30). -/
def kentry (k : KReg) (j : Nat) : Nat := elem 16 k.entries.toNat j

/-- A tag's word: bound, geometry, register, generation (R32). -/
def tagWord (geom : BitVec 5) (k gen : Nat) : BitVec 32 := 1#1 ++ 0#2 ++ geom ++ BitVec.ofNat 8 k ++ BitVec.ofNat 16 gen

/-- Whether a tag is bound and current: the named register's generation and geometry match it and its format is set (R33,
R59). -/
def tagCurrent (c : Ctx) (t : Nat) : Bool :=
  let g := tagOf c t
  let k := kreg c (fld g 16 8)
  bit g 31 && kgen k == fld g 0 16 && kgeom k == bits g 24 5 && kfmt k != 0

/-- The assigned bits of a tag's word: bits 30:29 are reserved (R7, R32). -/
def tagMask : BitVec 32 := 0x9FFFFFFF#32

/-- The register a tag names (R32). -/
def tagReg (c : Ctx) (t : Nat) : KReg := kreg c (fld (tagOf c t) 16 8)
/-- The axis of a tag (R32). -/
def tagAxis (c : Ctx) (t : Nat) : Nat := fld (tagOf c t) 28 1
/-- The block length of a tag (R30, R32). -/
def tagBlock (c : Ctx) (t : Nat) : Nat := 2 ^ (fld (tagOf c t) 24 4 + 3)

/-- Word `i` of a stream descriptor (R237). -/
def wword (w : WReg) (i : Nat) : Word := nth w.words i 0
/-- The number of dimensions D (R237). -/
def sDims (w : WReg) : Nat := fld (wword w 0) 32 3 + 1
/-- The stream's element format (R237). -/
def sFmt (w : WReg) : Nat := fld (wword w 0) 16 5
/-- The stream's tensor id (R237). -/
def sTensor (w : WReg) : Nat := fld (wword w 0) 0 16
/-- The stream's lane (R237). -/
def sLane (w : WReg) : Nat := fld (wword w 0) 40 4
/-- Data elements per scale record, 0 for none (R237). -/
def sStride (w : WReg) : Nat := fld (wword w 1) 32 32
/-- The scale tensor id (R237). -/
def sScaleT (w : WReg) : Nat := fld (wword w 1) 0 16
/-- The descriptor bits a split load gives its scale register: axis, format, block (R193). -/
def sScaleDesc (w0 w1 : Word) : BitVec 7 := bits w0 24 1 ++ bits w1 16 2 ++ bits w0 25 4
/-- count(d) (R237). -/
def sCount (w : WReg) (d : Nat) : Nat := fld (wword w (2 + d)) 0 32
/-- The signed stride(d) (R237). -/
def sStep (w : WReg) (d : Nat) : Int := signed 32 (fld (wword w (2 + d)) 32 32)
/-- pos(d) (R237). -/
def sPos (w : WReg) (d : Nat) : Nat := fld (wword w (6 + d)) 0 32

/-- The current element offset o (R240). -/
def sOffset (w : WReg) : Int :=
  (List.range (sDims w)).foldl (fun o d => o + (sPos w d : Int) * sStep w d) (signed 48 (fld (wword w 10) 0 48))

/-- The assigned bits of descriptor word `i` (R7, R237). -/
def wordMask (i : Nat) : Word :=
  match i with
  | 0 => 0x00000F07_1F1FFFFF#64
  | 1 => 0xFFFFFFFF_0003FFFF#64
  | 6 | 7 | 8 | 9 => 0x00000000_FFFFFFFF#64
  | 10 => 0x0000FFFF_FFFFFFFF#64
  | _ => BitVec.allOnes 64

/-- A descriptor of eleven words, its reserved bits dropped (R7, R237). -/
def wregOf (ws : List Word) : WReg := ⟨(List.range 11).map (fun j => nth ws j 0 &&& wordMask j)⟩

/-- A descriptor with one word replaced, reserved bits dropped (R7, R238). -/
def setWWord (w : WReg) (i : Nat) (v : Word) : WReg :=
  ⟨(List.range 11).map (fun j => if j = i then v &&& wordMask i else wword w j)⟩

/-- One dimension of an advance: the position that `t`, position plus carry, leaves and the carry on (R239); what a count of 0 gives is
open (log 109). -/
def stepDim (count t : Nat) : Nat × Nat := if count = 0 then ((Config.countZero t).1.toNat, (Config.countZero t).2) else (t % count, t / count)

/-- The advance of R239 from dimension `d`, `fuel` dimensions at most: every dimension it comes to is stepped, and a carry of 0 ends it (log
109, log 110). -/
def advanceFrom : Nat → WReg → Nat → Nat → WReg
  | 0, w, _, _ => w
  | fuel + 1, w, d, carry =>
    if sDims w ≤ d then w
    else
      let r := stepDim (sCount w d) (sPos w d + carry)
      let w := setWWord w (6 + d) (BitVec.ofNat 64 r.1)
      if r.2 = 0 then w else advanceFrom fuel w (d + 1) r.2

/-- advance(dim, steps) of R239, over the four dimensions that a descriptor has words for whatever its dims field says (log 110). -/
def advance (w : WReg) (dim steps : Nat) : WReg := advanceFrom (4 - dim) w dim steps

/-- A stream with every position zero (R198). -/
def resetPos (w : WReg) : WReg := ⟨(List.range 11).map (fun j => if 6 ≤ j ∧ j ≤ 9 then 0 else wword w j)⟩

/-- A tensor of the running context's kernel (R235). -/
def tensorOf (l : Launch) (id : Nat) : Option Tensor := l.tensors.find? (fun t => t.id == id)

/-- A byte of a launch's copied record or header. -/
def byteAt (b : List Byte) (i : Nat) : Nat := (nth b i 0).toNat
/-- A little-endian field of a byte string. -/
def leAt (b : List Byte) (i n : Nat) : Nat := leNat ((b.drop i).take n)

/-- The extent a launch holds in a bay: first byte and length (R22, R228). -/
def extent (l : Launch) (bay : Nat) : Nat × Nat :=
  let n := byteAt l.header (24 + bay) * 4096
  if l.openCls then (262144 - n, n) else (0, n)

/-- Whether n bytes at an offset lie inside the bay and inside the launch's extent there (R189). -/
def inExtent (l : Launch) (bay : Nat) (off : Int) (n : Nat) : Bool :=
  let e := extent l bay
  decide (bay < 8 ∧ 0 ≤ off ∧ off + n ≤ 262144 ∧ (e.1 : Int) ≤ off ∧ off + n ≤ (e.1 + e.2 : Nat))

/-- The key of a round byte in the module's list of round bytes. -/
def roundKey (stable bay off : Nat) : Nat := stable * 2 ^ 21 + bay * 2 ^ 18 + off

/-- n bytes of a Stable's round (R21, R27, log 98). -/
def roundRead (s : State) (stable bay off n : Nat) : List Byte := readBytes s.round (roundKey stable bay off) n

/-- Whether the eight bytes of a word, at byte `a` of a space, are all written by a range that begins at `lo` (R384). -/
def wordWritten (a lo : Nat) (mask : List Byte) : Bool := decide (lo ≤ a) && (List.range 8).all (fun i => nth mask (a + i - lo) 0 == 255)

/-- Bytes of a Stable's round written under a bit mask; words written whole lose their poison (R384). -/
def roundWrite (s : State) (stable bay off : Nat) (data mask : List Byte) : State :=
  { s with round := writeMasked s.round (roundKey stable bay off) data mask,
           marks := s.marks.filter (fun m =>
             !(m.struct == 0x0B && m.owner == stable && wordWritten (512 * m.unit + 8 * m.word) (bay * 2 ^ 18 + off) mask)) }

/-- The kernel's shape: Yards, meshes, Stables, Stalls (R98). -/
def shapeOf (l : Launch) : Nat × Nat × Nat × Nat :=
  (byteAt l.header 32, byteAt l.header 33, byteAt l.header 34, byteAt l.header 35)

/-- The number of kernel-local Stalls (R97). -/
def stallCount (l : Launch) : Nat := let h := shapeOf l; h.1 * h.2.1 * h.2.2.1 * h.2.2.2
/-- The number of kernel-local Stables (R210). -/
def stableCount (l : Launch) : Nat := let h := shapeOf l; h.1 * h.2.1 * h.2.2.1

/-- The global Stable of a kernel-local Stable under the launch's placement (R97, R315). -/
def stableOfLocal (l : Launch) (j : Nat) : Nat :=
  let h := shapeOf l
  let st := j % h.2.2.1
  let me := j / h.2.2.1 % h.2.1
  let ya := j / h.2.2.1 / h.2.1
  nth l.yards ya 0 * 16 + (l.m0 + me) % 4 * 4 + (l.p0 + st) % 4

/-- The key of the context of a kernel-local Stall (R97, R313, R315). -/
def ctxOfLocal (l : Launch) (k : Nat) : Nat :=
  let t := (shapeOf l).2.2.2
  (stableOfLocal l (k / t) * 2 + k % t) * 4 + (if l.openCls then 2 else 0)

/-- The contexts of a launch in ascending kernel-local Stall. -/
def launchCtxs (l : Launch) : List Nat := (List.range (stallCount l)).map (ctxOfLocal l)

/-- The mode bit dctrap (R38). -/
def dctrap (c : Ctx) : Bool := bit c.mode 0
/-- The mode bit covtrap (R38). -/
def covtrap (c : Ctx) : Bool := bit c.mode 1

/-- Where a damaged word lay, as one number: structure code, row, bit (R403, R405, log 59). -/
def errInfo (struct row bit synd : Nat) : Nat := synd * 2 ^ 34 + struct % 64 * 2 ^ 28 + row % 2 ^ 16 * 2 ^ 12 + bit % 2 ^ 12

/-- The row of a structure that a damaged word lies in, as its context numbers it (R405): the sub-channel of a line of LPDDR6, the set of a
line of the host-line cache (log 130), 0 in the Yardmaster and the sequence unit. -/
def markRow (m : Mark) : Nat :=
  match m.struct with
  | 0x18 => m.unit % 32
  | 0x19 => Sys2Proof.Config.hostSet m.unit
  | 0x1C | 0x1D => 0
  | _ => m.unit

/-- Where an uncorrectable word lies, as a fault's detail: structure, row, 64 times the index of the word, and its syndrome (R403 to R405). -/
def markInfo (m : Mark) : Nat := errInfo m.struct (markRow m) (64 * m.word) m.synd

/-- Where a context's own vector rows, scale registers or lines of the undo log begin on its Stall (R24, R314, R405). -/
def physBase (s : State) (struct c : Nat) : Nat :=
  match struct with
  | 1 => 64 * (ctxOf s c).grant.tileBase
  | 2 => (ctxOf s c).grant.kregBase
  | 6 => if slotOf c = 1 then fld (ioCsr s 0x871) 41 10 / 8 else 0
  | _ => 0

/-- The 128-bit record of a context fault: class 1, or class 2 for an uncorrectable error (R402 to R404). -/
def recordOf (s : State) (f : Raised) : BitVec 128 :=
  let g := stallOf f.ctx
  let cls : BitVec 4 := if f.code = 0x30 ∨ f.code = 0x31 then 2 else if f.code = 0x09 then 3 else 1
  let kind : BitVec 2 := if cls = 1 then 3 else 1
  let row := if cls = 1 then f.seq else if cls = 2 then f.info / 2 ^ 12 % 2 ^ 16 + physBase s f.struct f.ctx else f.info % 4096
  let count := if f.code = 0x21 ∨ f.code = 0x22 ∨ f.code = 0x40 then f.info else if cls = 1 then 0 else if cls = 2 then 1 else f.count
  cls ++ BitVec.ofNat 8 f.code ++ BitVec.ofNat 3 (g / 32) ++ BitVec.ofNat 3 (yardAt s (g / 32)).site ++
    BitVec.ofNat 4 (g / 2 % 16) ++ BitVec.ofNat 1 (g % 2) ++ BitVec.ofNat 1 (slotOf f.ctx) ++
    BitVec.ofNat 6 f.struct ++ kind ++ BitVec.ofNat 16 row ++
    BitVec.ofNat 12 (if cls = 1 then f.queue else if cls = 2 then f.info % 2 ^ 12 else 0xFFF) ++ BitVec.ofNat 12 (min count 4095) ++
    BitVec.ofNat 48 (f.mc / 1024) ++ BitVec.ofNat 8 f.synd

/-- The detail bytes of a context fault (R406): context cycle, bundle index and slot, the second operation, and for a checksum
the bank (log 43, log 93). -/
def detailOf (f : Raised) : BitVec 128 :=
  let two : BitVec 24 :=
    if f.second = 0 then 0xFFFFFF#24 else BitVec.ofNat 8 ((f.second - 1) % 256) ++ BitVec.ofNat 16 ((f.second - 1) / 256)
  if f.code = 0x09 then 0#32 ++ BitVec.ofNat 8 (f.info / 256 % 2) ++ BitVec.ofNat 8 f.slot ++ BitVec.ofNat 16 f.pc ++ BitVec.ofNat 64 f.cycle
  else 0#8 ++ two ++ 0#8 ++ BitVec.ofNat 8 f.slot ++ BitVec.ofNat 16 f.pc ++ BitVec.ofNat 64 f.cycle

/-- The fault-buffer entry of a fault: a context's, or a Yard's record with the stamp of its placing (R354, R402, R404, R406). -/
def entryOf (s : State) (f : Raised) : Entry :=
  match f.entry with
  | none => ⟨recordOf s f, detailOf f⟩
  | some r => ⟨bits r 56 72 ++ BitVec.ofNat 48 (f.mc / 1024) ++ bits r 0 8, 0⟩

/-- Whether a fault is one of the launch that its context still holds (R353, log 137). -/
def ownFault (s : State) (f : Raised) : Bool :=
  let l := launchAt s f.launch
  f.entry.isNone && (ctxOf s f.ctx).launch == f.launch && l.queue == f.queue && l.seq == f.seq

/-- Whether a fault of a context is held for a free entry, or raised and not delivered yet (R353, log 56, log 125). -/
def heldFor (s : State) (c : Nat) : Bool :=
  s.heldFaults.any (fun f => f.ctx == c && ownFault s f) || !(ctxOf s c).raised.isEmpty

/-- The word that a bundle consumed at its issue is rewritten as poison (R384). -/
def foundHere (s : State) (f : Raised) : State :=
  if s.marks.isEmpty ∨ f.code ≠ 0x30 ∧ f.code ≠ 0x31 then s
  else
    let own (m : Mark) : Bool := match m.struct with | 1 | 2 => m.owner == f.ctx | 3 | 4 => m.owner == stallOf f.ctx | _ => false
    { s with marks := s.marks.map (fun m => if m.bad && own m && markInfo m == f.info then { m with synd := 0x7F } else m) }

/-- The fault codes whose default handling ends the launch (R331). -/
def endsLaunch (code : Nat) : Bool :=
  (1 ≤ code && code ≤ 6) || code == 0x08 || (0x11 ≤ code && code ≤ 0x14) || code == 0x31 || code == 0x32

/-- An event bit of csr.evpend set (R409). -/
def postEvent (s : State) (b : Nat) : State := setIo s 0x8C0 (ioCsr s 0x8C0 ||| BitVec.ofNat 64 (2 ^ b))

/-- The accesses a launch's end discards: held PUSHes and REDS towards other Yards of the uncommitted segment (R318), and the
unperformed accesses that write nothing outside the context, on which the completion of R318 does not wait. -/
def dropHeld (c : Ctx) : Ctx :=
  { c with ops := c.ops.filter (fun o => o.performed ||
      !(match o.kind with
        | .push _ | .reds _ => o.seg == c.seg
        | .fillReq _ | .load _ _ _ _ _ | .pop | .fill _ _ _ _ | .probe _ _ _ | .dx none => true
        | _ => false)) }

/-- The Yard-cycle offset of a context's cycles: its next unprocessed cycle falls now or in the next Yard cycle, and it runs on from
there (log 112). -/
def yardShift (s : State) (c : Nat) : Int :=
  let x := ctxOf s c
  let now := yardNow s c
  ((if x.seenYard = now ∧ !x.landedNow then now + 1 else now : Nat) : Int) - x.ccycle

/-- The trains of a context that is released run on as the Yard's; what it had not begun is gone (R147, R231, R232). -/
def outTrains (s : State) (c : Nat) : State :=
  let x := ctxOf s c
  let k := yardShift s c
  modStable s (stableOf c) (fun t =>
    { t with trains := (t.trains.filter (fun e => e.ctx != c || e.out || decide (e.first ≤ x.ccycle))).map (fun e =>
        if e.ctx = c ∧ e.out = false then { e with out := true, first := (k + e.first).toNat } else e) })

/-- The contexts of a launch that are in their slots. -/
def launchHeld (s : State) (n : Nat) : List Nat :=
  (launchCtxs (launchAt s n)).filter (fun c => (ctxOf s c).launch == n && (ctxOf s c).status != .absent)

/-- The pending capture of a Stall dropped and counted as skipped, where it is the context's (R390, R391). -/
def dropCapture (s : State) (c : Nat) : State :=
  match mfind s.rel.captures (stallOf c) with
  | some k =>
    if k.ctx = c ∧ k.sig = none then
      { s with rel := { s.rel with captures := mdel s.rel.captures (stallOf c), skipped := s.rel.skipped + 1 } }
    else s
  | none => s

/-- What an off-die load, a POP or a FILL brings added to the input log of its context's capture, with its bytes; past 64 KiB the capture
drops (R390, log 39). -/
def logInputs (s : State) (c n : Nat) (answers : List (Nat × Nat × OffAns)) : State :=
  match mfind s.rel.captures (stallOf c) with
  | some k =>
    if k.ctx = c ∧ k.sig = none then
      if 65536 < k.inputs + n then dropCapture s c
      else
        { s with rel := { s.rel with captures := mput s.rel.captures (stallOf c) { k with inputs := k.inputs + n, answers := k.answers ++ answers } } }
    else s
  | none => s

/-- The capture that a context replays, with the Stall it is of (R391). -/
def replayOf (s : State) (c : Nat) : Option (Nat × Capture) := s.rel.captures.find? (fun e => e.2.run == some c)

/-- Whether a context is a replay of the auditor's (R391). -/
def replaying (s : State) (c : Nat) : Bool := (replayOf s c).isSome

/-- The context that a replay is of, or the context itself: what csr.self tells (R38, R391, log 134). -/
def homeOf (s : State) (c : Nat) : Nat := (replayOf s c).elim c (fun e => e.2.ctx)

/-- A replay is over, with its signature or dropped without one: its slot is free again (R391, R392). -/
def endRun (s : State) (c : Nat) (sig : Option Word) : State :=
  match replayOf s c with
  | none => s
  | some (g, k) =>
    let s := { s with rel := { s.rel with captures := mput s.rel.captures g { k with run := none, ended := sig.map (fun w => (stallOf c, w)) } },
                      launches := mdel s.launches (ctxOf s c).launch }
    let s := modStable (outTrains s c) (stableOf c) (fun t =>
      { t with uses := t.uses.filter (fun x => x.ctx != c),
               reserves := t.reserves.filter (fun x => x.ctx != c) })
    modCtx s c (fun x => { ctxInit with taps := x.taps })

/-- A launch moved to ending with a status and, where a fault ends it, that fault's place; its contexts freeze and their
uncommitted segments do not commit (R318, R332). -/
def endLaunch (s : State) (n status code stall slot pc : Nat) : State :=
  let l := launchAt s n
  if l.state = .ended ∨ l.state = .ending then s
  else
    let top := l.saved.foldl (fun m e => max m e.2.ccycle) ((launchHeld s n).foldl (fun m c => max m (ctxOf s c).ccycle) l.maxCycle)
    let s := (launchHeld s n).foldl (fun s c => modCtx (dropCapture s c) c (fun x => { dropHeld x with status := .ended })) s
    modLaunch s n (fun l =>
      { l with state := .ending, status := status, fault := code, faultStall := stall, faultSlot := slot, faultPc := pc, maxCycle := top })

/-- A service context entered for the context at `c`: cause, SVC code and request code for csr.svcause; its first bundle
issues in the second Yard cycle after the entry, and results it still had in flight keep their remaining offsets (R328, R412, log 28, log 40). -/
def enterService (s : State) (c cause code request : Nat) : State :=
  let y := yardNow s c
  let s := modCtx s c (fun x => { x with inSvc := true, seenYard := y })
  let s := modStall s (stallOf c) (fun t =>
    { t with svcause := mput t.svcause (slotOf c) (cause + code % 4096 * 256 + request % 256 * 2 ^ 20) })
  modCtx s (c + 1) (fun x =>
    { ctxInit with
      status := .running, launch := (ctxOf s c).launch, k := (ctxOf s c).k,
      grant := { ctxInit.grant with loops := 2, codeLen := 1024 }, seenYard := y,
      flight := x.flight.map (fun f => { f with due := f.due - x.ccycle }), ord := x.ord,
      sregs := x.sregs, pregs := x.pregs, nregs := x.nregs, base := 1, raised := x.raised })

/-- The context no longer held at a fault: it runs on, or drains towards its EXIT or HALT (R145 to R147, R333). -/
def unhold (c : Ctx) : Ctx :=
  { c with status := match c.after with | .halt => .exiting | .exit => .exiting | _ => .running }

/-- A context frozen for a rewind: everything of it in flight is discarded, a trigger that has not arrived among it, with the accesses held
for its segment's commit and the loads of the segment not yet landed; applied packets and running jobs are waited for (R385 steps 1 and 2,
log 77). -/
def freezeRun (f : Raised) (c : Ctx) : Ctx :=
  { c with status := .rewound, rewind := 1, flight := [], heldRows := false, wait := .none, waited := 0, hung := false,
           ops := c.ops.filter (fun o => o.seg != c.seg || !o.performed &&
             (match o.kind with
              | .push _ | .fillReq _ | .reds _ | .load _ _ _ _ _ | .fill _ _ _ _ | .pop | .probe _ _ _ | .dx none => false
              | _ => true)),
           after := .none, yielded := false, expired := false, consumed := some f }

/-- An access performed with an answer; one that has also landed leaves the queue. One that the segment's snapshot holds keeps its
answer there too, so that a rerun lands the same bytes (R284). -/
def opDone (s : State) (c id : Nat) (a : OffAns) : State :=
  let done (o : OffOp) : OffOp := if o.id = id then { o with performed := true, ans := a } else o
  modCtx s c (fun x =>
    { x with ops := (x.ops.map done).filter (fun o => !(o.performed && o.landed)),
             snap := x.snap.map (fun n => { n with ops := n.ops.map done }) })

/-- An access under way: its first half has been made, but it has not performed; the segment's snapshot holds it so too (R205,
R211, R255, R256, R284). -/
def opUnder (s : State) (c id : Nat) : State :=
  let mark (o : OffOp) : OffOp := if o.id = id then { o with ans := .under } else o
  modCtx s c (fun x => { x with ops := x.ops.map mark, snap := x.snap.map (fun n => { n with ops := n.ops.map mark }) })

/-- An access that has performed without an answer: a trigger's that starts no job from a tensor, or a packet's that RX has applied or lost
(R140, R255). -/
def dropAccess (s : State) (c : Nat) (op : Option Nat) : State :=
  match op with
  | some id =>
    opDone (modCtx s c (fun x => { x with ops := x.ops.map (fun o => if o.id = id then { o with landed := true } else o) })) c id (.data 0 0)
  | none => s

/-- A tap trap of a launch with a sequence unit ORs the crossing slots into the withhold mask: the sequences that crossed, or with
tapmap 1 the context's own slot (R369). -/
def withhold (s : State) (c : Nat) : State :=
  let x := ctxOf s c
  modLaunch s x.launch (fun l =>
    match l.gen with
    | none => l
    | some g =>
      let m : BitVec 16 := if byteAt l.desc 31 = 0 then (bits x.tapstat 0 8).setWidth 16
        else if x.k < byteAt l.desc 25 then BitVec.ofNat 16 (2 ^ x.k) else 0
      { l with gen := some { g with w := g.w ||| m } })

/-- A context held on a fault that firmware mends; a request that firmware has posted for it already is served (R329, R331, R412,
log 56). -/
def holdMended (s : State) (f : Raised) : State :=
  let r := (ctxOf s f.ctx).request
  let s := modCtx s f.ctx (fun x => { x with status := .held f.code, missed := if f.code = 0x09 then some f.info else x.missed })
  if (f.code = 0x09 ∨ f.code = 0x10) ∧ r ≠ 0 then enterService (modCtx s f.ctx (fun x => { x with request := 0 })) f.ctx 0x02 0 r else s

/-- What happens once a fault has its fault-buffer entry: the default handling of R331. A hang has its record written next, into the slot
that its fault names (R276); a checksum fault whose bank had no source copy at its CCHK (detail of 4,096 or more) ends the launch (R396, log
92, log 93). -/
def handleFault (s : State) (f : Raised) : State :=
  let x := ctxOf s f.ctx
  if f.code = 0x20 then enterService (withhold (modCtx s f.ctx unhold) f.ctx) f.ctx 0x20 0 0
  else if f.code = 0x21 then enterService (modCtx s f.ctx unhold) f.ctx 0x21 f.info 0
  else if f.code = 0x40 then
    { modCtx s f.ctx (fun x => match x.status with | .held 0x40 => unhold x | _ => x) with
      agenda := .record f.ctx f.info :: s.agenda, hangSlot := (f.info + 1) % 16 }
  else if endsLaunch f.code ∨ f.code = 0x09 ∧ 4096 ≤ f.info then
    endLaunch (modCtx s f.ctx (fun x => { x with status := .held f.code })) x.launch 1 f.code (stallOf f.ctx)
      (slotOf f.ctx) (if f.code = 0x09 then x.pc else f.pc)
  else if f.code = 0x30 then modCtx s f.ctx (freezeRun f)
  else holdMended s f

/-- A consumed error that cannot be rewound: no segment budget, a second one in one segment, or a service context (R287, R388, log 75); a
hang's fault names the next slot of the ring (R276). -/
def exhausted (s : State) (f : Raised) : Raised :=
  let x := ctxOf s f.ctx
  if f.code = 0x30 ∧ (x.grant.segbudget = 0 ∨ x.segRewound ∨ isSvc f.ctx) then { f with code := 0x31 }
  else if f.code = 0x40 then { f with info := s.hangSlot }
  else f

/-- A fault delivered (R332, R353): with a free entry it takes it and is handled; with a full buffer it is held and nothing of its handling
starts and its context freezes. A tap-position mismatch found at a load refuses the launch and has no entry (R181, R332). A replay that
meets a fault is dropped (R391, log 134). -/
def takeFault (s : State) (g : Raised) : State :=
  if replaying s g.ctx then endRun s g.ctx none
  else
  let f := exhausted s g
  let s := if f.code = 0x20 ∨ f.code = 0x21 ∨ f.code = 0x22 ∨ f.code = 0x30 then dropCapture s f.ctx else s
  let s := foundHere s f
  if f.code = 0x14 then endLaunch s (ctxOf s f.ctx).launch 2 0x14 0 0 0
  else if s.fbuf.length < 1024 then
    handleFault (postEvent { s with fbuf := s.fbuf ++ [entryOf s f] } 0) f
  else
    let s := { s with heldFaults := s.heldFaults ++ [f], fbOverflow := true, heldTotal := min 65535 (s.heldTotal + 1) }
    modCtx s f.ctx (fun x => { x with status := .held f.code })

/-- A fault of a context whose launch has ended, or of a Yard, takes an entry or is held for one, and has no handling (R353, R354, R408). -/
def placeFault (s : State) (f : Raised) : State :=
  if s.fbuf.length < 1024 then postEvent { s with fbuf := s.fbuf ++ [entryOf s f] } 0
  else { s with heldFaults := s.heldFaults ++ [f], fbOverflow := true, heldTotal := min 65535 (s.heldTotal + 1) }

/-- Whether a context is out of its launch: it ended, or its Yard is lost. -/
def outOf (x : Ctx) : Bool := match x.status with | .absent | .ended | .lost => true | _ => false

/-- A fault of a context whose Yard is lost: once it has an entry, a code that ends the launch ends it, and with a full buffer it is held
(R331, R353, R354, R399). -/
def lostFault (s : State) (f : Raised) : State :=
  let t := placeFault s f
  if s.fbuf.length < 1024 ∧ endsLaunch f.code = true then endLaunch t f.launch 1 f.code (stallOf f.ctx) (slotOf f.ctx) f.pc else t

/-- A fault that is due: with its context still in its launch it is delivered (R332, R353, R354, log 137). -/
def dueFault (s : State) (f : Raised) : State :=
  if ownFault s f = false then placeFault s f
  else match (ctxOf s f.ctx).status with
    | .lost => lostFault s f
    | .absent | .ended => placeFault s f
    | _ => takeFault s f

/-- A fault raised in a module cycle: its context holds, and the fault is delivered at the end of the cycle, in the order of R354 (log 125). -/
def postFault (s : State) (f : Raised) : State :=
  modCtx s f.ctx (fun x => { x with status := if outOf x then x.status else .held f.code, raised := x.raised ++ [f] })

/-- A fault of a context at a bundle and slot: its second operation where the code has one, and its structure (R405, R406). -/
def raisedAt (s : State) (c code info slot pc cycle : Nat) : Raised :=
  { ctx := c, code := code, slot := slot, pc := pc, cycle := cycle, info := info,
    second := if code = 3 ∨ code = 7 then info else 0, struct := if code = 0x30 ∨ code = 0x31 then info / 2 ^ 28 % 64 else 0,
    count := 0, synd := if code = 0x30 ∨ code = 0x31 then info / 2 ^ 34 else 0, mc := s.mcycle,
    launch := (ctxOf s c).launch, queue := (launchAt s (ctxOf s c).launch).queue, seq := (launchAt s (ctxOf s c).launch).seq, entry := none }

/-- A fault of the bundle being run, at the running slot. -/
def raiseHere (s : State) (code info : Nat) : State :=
  takeFault s (raisedAt s s.cur.ctx code info s.cur.slot s.cur.pc s.cur.cycle)

/-- The return from an exception whose handler ran: the served context resumes at its frozen context cycle in the next Yard cycle; after a
tap trap csr.tapstat and every crossing bit are cleared; a context held on a fault that firmware mends runs on from its held bundle, and a
halted one from its next; a launch that waited for its taps has one load less; the control context has returned (R145, R183, R308, R328,
R331, R146, R409, log 28, log 56). -/
def resumeServed (s : State) (c : Nat) : State :=
  let cause := mget (stallAt s (stallOf c)).svcause (slotOf c) 0 % 256
  let s := modLaunch s (ctxOf s c).launch (fun l => { l with taploads := l.taploads.filter (fun d => d != c) })
  let s := if cause = 0x03 then { s with control := false } else s
  modCtx s c (fun (x : Ctx) =>
    let x : Ctx := { x with inSvc := false, seenYard := yardNow s c,
                            tapstat := if cause = 0x20 then 0 else x.tapstat,
                            taps := if cause = 0x20 then x.taps.map (fun e => (e.1, { e.2 with cross := 0, stamp := 0 })) else x.taps }
    match x.status with
    | .held 0x09 | .held 0x10 | .halted => unhold x
    | _ => x)

end Sys2Proof.Machine
end

