-- ==== Sys2Proof/Machine/Operands.lean ====
section
/-!
DEFINITION. The operand forms: immediates and the literal pool (R85, R105, R121), element widths and indices (R108), the tile
and the scale entry of a vector element (R60, R162).
-/

namespace Sys2Proof.Machine

/-- The pool value that a selector names: the 32-bit value, half 0 or half 1, with its width (R85). -/
def poolValue (s : State) (sel : Nat) : Nat × Nat :=
  match sel with
  | 1 => (s.cur.pool.toNat, 32)
  | 2 => (fld s.cur.pool 0 16, 16)
  | _ => (fld s.cur.pool 16 16, 16)

/-- An immediate operand: the field, or the pool value that the selector names, extended to 64 bits (R105, R121). -/
def immOf {w : Nat} (s : State) (sel : BitVec 2) (imm : BitVec w) (sext : Bool) : Word :=
  let v := if sel = 0 then (imm.toNat, w) else poolValue s sel.toNat
  if sext then BitVec.ofInt 64 (signed v.2 v.1) else BitVec.ofNat 64 v.1

/-- The tile of a vector operand. -/
def vtile (v : BitVec 13) : Nat := vnum v / 64

/-- Elements of width w in a 512-byte value. -/
def elems (w : Nat) : Nat := 4096 / w

/-- The element width that an ew field or a .b, .h, .w suffix names: 8, 16 or 32 bits (R108). -/
def ewBits (ew : BitVec 2) : Nat := 8 <<< ew.toNat

/-- A scalar index taken modulo the element count (R108). -/
def idxOf (ew : BitVec 2) (x : Word) : Nat := x.toNat % elems (ewBits ew)

/-- The element width that ew3 names (R108). -/
def ew3Bits (e : BitVec 3) : Nat := 1 <<< e.toNat

/-- The width that VUNPK widens to (R164). -/
def unpkWide (e : BitVec 3) : Nat := if e.toNat < 3 then 8 else 32

/-- The position along the binding's axis of element `e`, `cs` bits wide, of a vector operand (R60, R162): for axis 0 its index
within its row of the tile, for axis 1 its row. -/
def scalePos (c : Ctx) (va : BitVec 13) (cs e : Nat) : Nat :=
  let cell := e * cs / 64
  let i := if vdir va = 0 then vnum va % 64 else cell
  let j := match vdir va with | 0 => cell | 1 => vnum va % 64 | _ => (cell + vnum va % 64) % 64
  if tagAxis c (vtile va) = 0 then (64 * j + e * cs % 64) / cs else i

/-- The scale entry of that element (R60). -/
def scaleEntry (c : Ctx) (va : BitVec 13) (cs e : Nat) : Nat := scalePos c va cs e / tagBlock c (vtile va)

/-- The integer of a weight cell in a bank's format (R42, R223). -/
def weightInt (fmt x : Nat) : Int :=
  match decodeElem fmt x with
  | .fin s m e => (if s then -1 else 1) * ((m <<< e.toNat : Nat) : Int)
  | _ => 0

/-- A weight served in nibble mode: 2^(n−4) times its value divided by 2^(n−4), ties away from zero, saturated to a nibble (R401). -/
def nibbleInt (wfmt : Nat) (w : Int) : Int :=
  let n := valueBits wfmt
  if n ≤ 4 then w
  else
    let d := 2 ^ (n - 4)
    let q : Int := ((w.natAbs + d / 2) / d : Nat)
    let r := if w < 0 then -q else q
    (d : Int) * (if fmtSigned wfmt then max (-8) (min 7 r) else max 0 (min 15 r))

/-- Whether a macro's weights are kept in nibbles: it is marked failed, or it is the partner that holds those of a failed one in the context's
mask, for a kernel that opts in (R401). -/
def nibbled (s : State) (c m : Nat) : Bool :=
  let t := stallAt s (stallOf c)
  (byteAt (launchAt s (ctxOf s c).launch).header 6).testBit 1 &&
    (bit t.failedMacros m || t.partners.any (fun e => e.2 == m && bit t.failedMacros e.1 && bit (ctxOf s c).grant.macros e.1))

/-- The checksum of a bank row: the sum of its 64 cells mod 256, or where weights are kept in nibbles that of its nibbles (R221, R401,
log 132). -/
def rowSum (nib : Bool) (wfmt : Nat) (r : BitVec 512) : Nat :=
  let n := valueBits wfmt
  let cell (x : Nat) : Nat :=
    if nib then lowBits 4 (if n ≤ 4 then weightInt wfmt x else nibbleInt wfmt (weightInt wfmt x) / 2 ^ (n - 4)) else x
  ((List.range 64).map (fun c => cell (elem 8 r.toNat c))).foldl (· + ·) 0 % 256

/-- A bank's checksums carried over from one form of its weights to another, with their mismatches (R401, log 132). -/
def reformSums (was is : Bool) (b : Bank) : Bank :=
  { b with sums := b.rows.foldl (fun m e =>
      mset m e.1 (BitVec.ofNat 8 ((mget b.sums e.1 0).toNat + rowSum is b.wfmt e.2 + 256 - rowSum was b.wfmt e.2)) 0) b.sums }

/-- A context whose macros' checksums are carried over to another form of their weights (R401, log 132). -/
def reformMacros (was is : Nat → Bool) (x : Ctx) : Ctx :=
  { x with macros := x.macros.map (fun m =>
      if was m.1 = is m.1 then m
      else (m.1, { m.2 with active := reformSums (was m.1) (is m.1) m.2.active, shadow := reformSums (was m.1) (is m.1) m.2.shadow })) }

end Sys2Proof.Machine
end

