-- ==== Sys2Proof/Machine/Errors.lean ====
section
/-!
DEFINITION. Damaged words and their records: storage-error, row-prediction, audit, yard-event and service-action records, the
sieves and the tracked rows (R383, R384, R394, R395, R402 to R408).
-/

namespace Sys2Proof.Machine

/-- A record with code 0 placed in the fault buffer, or counted as dropped where the buffer is full (R402, R408, R409). -/
def putRecord (s : State) (r d : BitVec 128) : State :=
  if s.fbuf.length < 1024 then postEvent { s with fbuf := s.fbuf ++ [⟨r, d⟩] } 0
  else setIo s 0x844 (ioCsr s 0x844 + 1)

/-- The stamp of the present module cycle (R403). -/
def stampNow (s : State) : Nat := s.mcycle / 1024

/-- The site field of a logical Yard: 0 for the I/O die (R403). -/
def siteOf (s : State) (y : Nat) : Nat := if y = 7 then 0 else (yardAt s y).site

/-- A record of class `cls` from its fields (R403). `place` is logical Yard, Stable, Stall and context slot. -/
def recordFor (s : State) (cls code : Nat) (place : Nat × Nat × Nat × Nat) (struct kind row bit count synd : Nat) : BitVec 128 :=
  BitVec.ofNat 4 cls ++ BitVec.ofNat 8 code ++ BitVec.ofNat 3 place.1 ++ BitVec.ofNat 3 (siteOf s place.1) ++
    BitVec.ofNat 4 place.2.1 ++ BitVec.ofNat 1 place.2.2.1 ++ BitVec.ofNat 1 place.2.2.2 ++ BitVec.ofNat 6 struct ++
    BitVec.ofNat 2 kind ++ BitVec.ofNat 16 row ++ BitVec.ofNat 12 bit ++ BitVec.ofNat 12 (min count 4095) ++
    BitVec.ofNat 48 (stampNow s) ++ BitVec.ofNat 8 synd

/-- The place fields of a global Stall and slot (R403). -/
def placeOf (g slot : Nat) : Nat × Nat × Nat × Nat := (g / 32, g / 2 % 16, g % 2, slot)

/-- The position of data bit d in the SEC-DED code (R407). -/
def secPos (d : Nat) : Nat :=
  if d = 0 then 3 else if d < 4 then d + 4 else if d < 11 then d + 5 else if d < 26 then d + 6 else if d < 57 then d + 7 else d + 8

/-- The check bits c0 to c7 of a 64-bit word (R407). -/
def secCheck (w : Word) : BitVec 8 :=
  let par (f : Nat → Bool) : Bool := (List.range 64).foldl (fun b d => b != (f d && bit w d)) false
  let c := BitVec.ofNat 7 (pack 1 7 (fun i => if par (fun d => (secPos d).testBit i) then 1 else 0))
  let all := par (fun _ => true) != (List.range 7).foldl (fun b i => b != bit c i) false
  BitVec.ofBool all ++ c

/-- What a syndrome says (R407): no error, a data bit, a check bit, uncorrectable. -/
inductive Synd where
  | clean
  | data (d : Nat)
  | check (i : Nat)
  | uncorrectable
  deriving DecidableEq, Repr

/-- The decoding of a syndrome (R407). -/
def secDecode (s : BitVec 8) : Synd :=
  let n := fld s 0 7
  if !bit s 7 then (if n = 0 then .clean else .uncorrectable)
  else if n = 0 then .check 7
  else match (List.range 7).find? (fun i => n == 2 ^ i) with
    | some i => .check i
    | none => match (List.range 64).find? (fun d => secPos d == n) with
      | some d => .data d
      | none => .uncorrectable

/-- The syndrome of one wrong bit of a SEC-DED word: a data bit, or from 64 on a check bit c0 to c7 (R407). -/
def bitSynd (d : Nat) : Nat := 128 + (if d < 64 then secPos d else if d < 71 then 2 ^ (d - 64) else 0)

/-- The three sieve positions of a key (R394). -/
def sieveBits (k : Nat) : List Nat := [0x6C8E9CF5, 0xA54FF53B, 0xD1B54A33].map (fun m => k * m % 2 ^ 32 / 2 ^ 16)

/-- The tracked threshold T (R395, R412). -/
def trackLimit (s : State) : Nat := max 2 (fld (ioCsr s 0x833) 5 12)

/-- A repeat offender enters the tracked-row table: counted, or given a free entry, or the entry of lowest count and oldest last
stamp; a row-prediction record at each multiple of the threshold (R395). -/
def trackRow (s : State) (key : Nat) (rec : BitVec 128) : State :=
  let now := stampNow s
  let t := s.rel.tracked
  match t.find? (fun e => e.key == key) with
  | some e =>
    let n := e.count + 1
    let s := { s with rel := { s.rel with tracked := t.map (fun x =>
      if x.key = key then { x with record := rec, count := n, last := now, rose := true } else x) } }
    if n % trackLimit s = 0 then
      putRecord s (7#4 ++ 0#8 ++ bits rec 98 18 ++ 0#2 ++ bits rec 68 28 ++ BitVec.ofNat 12 (min n 4095) ++ bits rec 0 56)
        (BitVec.ofNat 64 now ++ BitVec.ofNat 64 e.first)
    else s
  | none =>
    let new : Tracked := { key := key, record := rec, count := 2, first := now, last := now, rose := true }
    let keep := if t.length < 512 then t
      else
        let low := t.foldl (fun (a : Option Tracked) x => match a with
          | none => some x
          | some y => if x.count < y.count ∨ x.count = y.count ∧ x.last < y.last then some x else a) none
        t.filter (fun x => some x != low)
    let s := { s with rel := { s.rel with tracked := keep ++ [new] } }
    if trackLimit s = 2 then
      putRecord s (7#4 ++ 0#8 ++ bits rec 98 18 ++ 0#2 ++ bits rec 68 28 ++ BitVec.ofNat 12 2 ++ bits rec 0 56)
        (BitVec.ofNat 64 now ++ BitVec.ofNat 64 now)
    else s

/-- A corrected error: through its die's sieve to a storage-error record, or to the tracked rows (R394, R395). `addr` is the
device address of a line, where it has one (R406). -/
def corrected (s : State) (place : Nat × Nat × Nat × Nat) (struct row bit synd addr : Nat) : State :=
  let key := struct * 2 ^ 21 + place.2.1 * 2 ^ 17 + place.2.2.1 * 2 ^ 16 + row
  let die := place.1
  let sv := mget s.rel.sieve die 0
  let r := recordFor s 2 0 place struct 0 row bit 1 synd
  if (sieveBits key).all (fun i => sv.testBit i) then trackRow s (die * 2 ^ 32 + key) r
  else
    let s := { s with rel := { s.rel with sieve := mput s.rel.sieve die ((sieveBits key).foldl (fun v i => v ||| 2 ^ i) sv) } }
    putRecord s r (BitVec.ofNat 128 addr)

/-- The place fields of the record of a damaged word (R403, R405). -/
def markPlace (m : Mark) : Nat × Nat × Nat × Nat :=
  match m.struct with
  | 1 | 2 | 5 | 6 | 8 | 9 | 0x0A => placeOf (stallOf m.owner) (slotOf m.owner)
  | 3 | 4 => placeOf m.owner 0
  | 0x0B => (m.owner / 16, m.owner % 16, 0, 0)
  | _ => (7, 0, 0, 0)

/-- The row field of the record of a damaged word (R405). -/
def physRow (s : State) (m : Mark) : Nat := markRow m + physBase s m.struct m.owner

/-- The device address a record of a line names (R406). -/
def markAddr (m : Mark) : Nat := if m.struct = 0x18 ∨ m.struct = 0x19 then m.unit * 64 else 0

/-- An uncorrectable word found and not consumed: a record of kind poison (R383, R384, R405, R406). -/
def poisonRecord (s : State) (m : Mark) : State :=
  putRecord s (recordFor s 2 0 (markPlace m) m.struct 2 (physRow s m) (64 * m.word) 1 m.synd) (BitVec.ofNat 128 (markAddr m))

/-- The bit field of the record of a corrected word: the data bit that its syndrome names, unknown where it names a check bit (R403, R405,
R407, log 131). -/
def correctedBit (m : Mark) : Nat := match secDecode (BitVec.ofNat 8 m.synd) with | .data d => 64 * m.word + d | _ => 0xFFF

/-- A read word with one wrong bit is corrected and written back, and sorted by the sieve (R383, R394). -/
def correctMark (s : State) (m : Mark) : State :=
  let s := { s with marks := s.marks.filter (fun x => x != m) }
  corrected s (markPlace m) m.struct (physRow s m) (correctedBit m) m.synd (markAddr m)

/-- The single-bit errors among words that an access reads, corrected in turn (R383). -/
def correctAll (s : State) (hit : Mark → Bool) : State :=
  (s.marks.filter (fun m => !m.bad && hit m)).foldl correctMark s

/-- Whether two marks are of one word. -/
def sameWord (x m : Mark) : Bool := x.struct == m.struct && x.owner == m.owner && x.unit == m.unit && x.word == m.word

/-- A line of LPDDR6 with an uncorrectable word is poisoned in memory, all of it (R383). -/
def poisonLine (ms : List Mark) (line : Nat) : List Mark :=
  ms.filter (fun m => !(m.struct == 0x18 && m.unit == line)) ++
    (List.range 8).map (fun w => { struct := 0x18, owner := 0, unit := line, word := w, bad := true, bit := 0, synd := 0x7F })

/-- Words that a read finds uncorrectable are rewritten as poison, and a line of LPDDR6 whole; `told` where no context reads them, which is
recorded (R383, R384). -/
def findBad (s : State) (hit : Mark → Bool) (told : Bool) : State :=
  let new := s.marks.filter (fun m => m.bad && m.synd != 0x7F && hit m)
  if new.isEmpty then s
  else
    let ms := s.marks.map (fun m => if new.any (· == m) then { m with synd := 0x7F } else m)
    let s := { s with marks := ((new.filter (fun m => m.struct == 0x18)).map (·.unit)).foldl poisonLine ms }
    if told then new.foldl poisonRecord s else s

/-- Marks of words written whole are gone: bytes lo to hi − 1 of a unit of `size` bytes (R384). -/
def clearMarks (s : State) (struct owner size lo hi : Nat) : State :=
  { s with marks := s.marks.filter (fun m =>
      !(m.struct == struct && m.owner == owner && decide (lo ≤ m.unit * size + 8 * m.word ∧ m.unit * size + 8 * m.word + 8 ≤ hi))) }

/-- Whether a byte range of a structure holds a marked word (R384): its marks. -/
def marksIn (s : State) (struct owner size lo n : Nat) : List Mark :=
  s.marks.filter (fun m => m.struct == struct && m.owner == owner &&
    decide (m.unit * size + 8 * m.word < lo + n ∧ lo < m.unit * size + 8 * m.word + 8))

/-- Poison among a byte range, as a fault's place (R384). -/
def poisonIn (s : State) (struct owner size lo n : Nat) : Option Nat :=
  ((marksIn s struct owner size lo n).find? (·.bad)).map markInfo

/-- Whether a damaged word lies in one of the byte ranges of a structure's units (R384). -/
def markHit (struct owner size : Nat) (rs : List (Nat × Nat)) (m : Mark) : Bool :=
  m.struct == struct && m.owner == owner &&
    rs.any (fun r => decide (m.unit * size + 8 * m.word < r.1 + r.2 ∧ r.1 < m.unit * size + 8 * m.word + 8))

/-- The words of ranges read where a context does not consume them: single-bit errors corrected, uncorrectable words rewritten as poison
and recorded (R383, R384). -/
def readWords (s : State) (struct owner size : Nat) (rs : List (Nat × Nat)) : State :=
  if s.marks.isEmpty then s else findBad (correctAll s (markHit struct owner size rs)) (markHit struct owner size rs) true

/-- Words of a range made poison (R384). -/
def poisonRange (s : State) (struct owner size lo n : Nat) : State :=
  let w0 := lo / 8
  let w1 := (lo + n + 7) / 8
  let new := (List.range (w1 - w0)).map (fun i =>
    ({ struct := struct, owner := owner, unit := (w0 + i) * 8 / size, word := (w0 + i) * 8 % size / 8, bad := true, bit := 0, synd := 0x7F } : Mark))
  { s with marks := s.marks.filter (fun m => !new.any (fun x => sameWord x m)) ++ new }

end Sys2Proof.Machine
end

