-- ==== Sys2Proof/Machine/Tiles.lean ====
section
/-!
DEFINITION. Tile tables, link frames, the compact encoding, hashed tiles and pins: where a tensor's byte lies beyond the
boundary and what an access finds there (R242 to R246, R336 to R344, R420, R421).
-/

namespace Sys2Proof.Machine

/-- Device memory wraps at its 512 GiB (R1, log 45). -/
def devAddr (a : Nat) : Nat := a % 2 ^ 39

/-- Bytes of device memory (log 98). -/
def devRead (s : State) (a n : Nat) : List Byte := readBytes s.dev (devAddr a) n
/-- A little-endian number of device memory (R6). -/
def devLe (s : State) (a n : Nat) : Nat := leNat (devRead s a n)
/-- Whether the tile-table entry at an address is the same in two states, its pins field apart (R247, R336). -/
def sameEntry (s t : State) (a : Nat) : Bool :=
  let e (s : State) : Nat := readLe s.dev (devAddr a) 16
  e s % 2 ^ 4 == e t % 2 ^ 4 && e s / 2 ^ 12 == e t / 2 ^ 12

/-- Whether a byte of device memory lies in the leaf table of a registered tree, which is locked against every write (R422). -/
def leafLocked (s : State) (a : Nat) : Bool := s.sec.trees.any (fun t => decide (t.leaves ≤ a ∧ a < t.leaves + 32 * t.tiles))

/-- A write's bit mask without the bytes that are locked (R422). -/
def openMask (s : State) (a : Nat) (mask : List Byte) : List Byte :=
  if s.sec.trees.isEmpty then mask else (List.range mask.length).map (fun i => if leafLocked s (devAddr a + i) then 0 else nth mask i 0)

/-- Device memory written under a bit mask, locked leaf tables apart (R422); words written whole lose their poison (R384), and a tile-table
entry that changes leaves the tile-translation caches (R247). -/
def devWrite (s : State) (a : Nat) (data mask : List Byte) : State :=
  let mask := openMask s a mask
  let s := if s.sec.trees.isEmpty then clearMarks s 0x18 0 64 (devAddr a) (devAddr a + data.length)
    else { s with marks := s.marks.filter (fun m => !(m.struct == 0x18 && wordWritten (64 * m.unit + 8 * m.word) (devAddr a) mask)) }
  let t := { s with dev := writeMasked s.dev (devAddr a) data mask }
  { t with tcache := s.tcache.filter (fun e => sameEntry s t e.at0) }
/-- Device memory written whole. -/
def devPut (s : State) (a : Nat) (data : List Byte) : State := devWrite s a data (List.replicate data.length 255#8)

/-- A line of host memory as the device sees it: the line it holds modified, else the host's (R345, log 2). -/
def hostLine (s : State) (line : Nat) : BitVec 512 :=
  match s.cxl.cache.find? (fun e => e.1 == line) with
  | some e => e.2
  | none => BitVec.ofNat 512 (readLe s.hostMem (64 * line) 64)

/-- The lines a byte range touches. -/
def linesOf (a n : Nat) : List Nat := if n = 0 then [] else (List.range ((a + n - 1) / 64 + 1 - a / 64)).map (fun i => a / 64 + i)

/-- Bytes of host memory through the host-line cache (R345, log 2). -/
def hostRead (s : State) (a n : Nat) : List Byte :=
  (((linesOf a n).flatMap (fun l => leBytes 64 (hostLine s l).toNat)).drop (a % 64)).take n

/-- A host line written back to host memory, no longer held; its words are read, and what was wrong in the cache goes with it (R345, R383). -/
def writeBack (s : State) (line : Nat) : State :=
  match s.cxl.cache.find? (fun e => e.1 == line) with
  | some e =>
    let s := readWords s 0x19 0 64 [(64 * line, 64)]
    { s with hostMem := writeBytes s.hostMem (64 * line) (leBytes 64 e.2.toNat),
             cxl := { s.cxl with cache := s.cxl.cache.filter (fun x => x.1 != line) },
             marks := s.marks.filter (fun m => !(m.struct == 0x19 && m.unit == line)) }
  | none => s

/-- A host line held modified with new contents; past 32,768 lines the one held longest is written back (R345, log 48). -/
def holdLine (s : State) (line : Nat) (v : BitVec 512) : State :=
  let c := s.cxl.cache.filter (fun x => x.1 != line) ++ [(line, v)]
  let s := { s with cxl := { s.cxl with cache := c } }
  if c.length ≤ 32768 then s else match c with | e :: _ => writeBack s e.1 | [] => s

/-- Bytes of host memory written by the device under a bit mask; words of the host-line cache written whole lose their poison (R345, R384). -/
def hostWrite (s : State) (a : Nat) (data mask : List Byte) : State :=
  let s := { s with marks := s.marks.filter (fun m => !(m.struct == 0x19 && wordWritten (64 * m.unit + 8 * m.word) a mask)) }
  (linesOf a data.length).foldl (fun s l =>
    let lo := 64 * l
    let part (b : List Byte) (i : Nat) : Nat := if lo + i < a then 0 else (nth b (lo + i - a) 0).toNat
    let v := BitVec.ofNat 512 (pack 8 64 (part data))
    let m := BitVec.ofNat 512 (pack 8 64 (part mask))
    if m = 0 then s else holdLine s l ((hostLine s l &&& ~~~m) ||| (v &&& m))) s

/-- Bytes of a tensor's memory: host memory for a host tensor, else device memory (R242). -/
def memRead (s : State) (t : Tensor) (a n : Nat) : List Byte := if t.kind = 2 then hostRead s a n else devRead s a n
/-- Bytes written there. -/
def memWrite (s : State) (t : Tensor) (a : Nat) (data mask : List Byte) : State :=
  if t.kind = 2 then hostWrite s a data mask else devWrite s a data mask

/-- Whether a tensor is framed (R235). -/
def framed (t : Tensor) : Bool := t.flags.testBit 0
/-- Whether a tensor is hashed (R235). -/
def hashed (t : Tensor) : Bool := t.flags.testBit 1

/-- Word `k` of the tile-table entry of tile `i` (R336, log 44). -/
def entryWord (s : State) (table i k : Nat) : Word := BitVec.ofNat 64 (devLe s (table + 64 + 16 * i + 8 * k) 8)
/-- The entry's two words written. -/
def putEntry (s : State) (table i : Nat) (w0 w1 : Word) : State :=
  devPut s (table + 64 + 16 * i) (leBytes 8 w0.toNat ++ leBytes 8 w1.toNat)

/-- Whether a table's header has a reserved bit set (R336). -/
def headerBad (s : State) (table : Nat) : Bool :=
  match devRead s table 64 with
  | b :: r => decide (2 ≤ b.toNat) || r.any (fun x => x != 0)
  | [] => true

/-- Whether a table's header allows the compact encoding (R336). -/
def requantisable (s : State) (table : Nat) : Bool := devLe s table 1 % 2 == 1

/-- Whether a tensor may be requantisable: an unframed device tensor of E4M3 or E5M2 (R336). -/
def mayCompact (t : Tensor) : Bool := t.kind == 1 && (t.fmt == 0x11 || t.fmt == 0x12) && !framed t

/-- Whether the header is wrong for the tensor (R336, R337). -/
def headerWrong (s : State) (t : Tensor) : Bool := headerBad s t.table || (requantisable s t.table && !mayCompact t)

/-- The state field of an entry word. -/
def entState (w0 : Word) : Nat := fld w0 0 2
/-- The encoding field. -/
def entEnc (w0 : Word) : Nat := fld w0 2 2
/-- The pins field. -/
def entPins (w0 : Word) : Nat := fld w0 4 8
/-- The frame's address. -/
def entFrame (w0 : Word) : Nat := fld w0 15 49 * 32768
/-- The scale slot's address. -/
def entScales (w1 : Word) : Nat := fld w1 11 53 * 2048
/-- The link frame's length in units of 64 bytes. -/
def entLen (w1 : Word) : Nat := fld w1 0 11

/-- The defects of an entry that make it absent (R337). -/
def entryBad (s : State) (t : Tensor) (w0 w1 : Word) : Bool :=
  fld w0 12 3 != 0 || decide (2 ≤ entEnc w0) || (entEnc w0 == 1 && !requantisable s t.table) ||
    (entEnc w0 == 0 && entFrame w0 % 65536 != 0) || (entState w0 == 3 && t.kind == 1) || decide (1024 < entLen w1) ||
    (entLen w1 != 0 && !framed t) || (entScales w1 != 0 && entEnc w0 == 0) || headerWrong s t

/-- The state of a tile as an access finds it: 0 absent, 1 resident, 2 dead, 3 lost (R336, R337, log 44). -/
def tileState (s : State) (t : Tensor) (i : Nat) : Nat :=
  if entryBad s t (entryWord s t.table i 0) (entryWord s t.table i 1) then 0 else entState (entryWord s t.table i 0)

/-- The bytes of a chunk of a link frame by its method (R246). -/
def chunkBytes (method : Nat) (p : List Byte) : Option (List Byte) :=
  match method with
  | 0 => if p = [] then some (List.replicate 1024 0) else none
  | 1 => if p.length = 1024 then some p else none
  | 2 =>
    if p.length = 528 then
      some ((List.range 1024).map (fun j => nth p ((nth p (16 + j / 2) 0).toNat / (if j % 2 = 0 then 1 else 16) % 16) 0))
    else none
  | _ =>
    let rec runs : List Byte → Option (List Byte)
      | [] => some []
      | n :: v :: r => (runs r).map (fun x => List.replicate (n.toNat + 1) v ++ x)
      | _ => none
    if p.length < 2 ∨ 1022 < p.length then none
    else (runs p).bind (fun b => if b.length = 1024 then some b else none)

/-- The chunks of an encoded frame: map entries against the payloads that follow (R246). -/
def expandChunks : List Nat → List Byte → Option (List Byte)
  | [], _ => some []
  | m :: ms, r =>
    if r.length < m % 2 ^ 14 then none
    else
      match chunkBytes (m / 2 ^ 14) (r.take (m % 2 ^ 14)), expandChunks ms (r.drop (m % 2 ^ 14)) with
      | some b, some x => some (b ++ x)
      | _, _ => none

/-- The storage bytes of a link frame of `flen` units; none where it is malformed (R246). -/
def expandFrame (s : State) (frame flen : Nat) : Option (List Byte) :=
  if flen = 0 then some (List.replicate 65536 0)
  else if flen = 1024 then some (devRead s frame 65536)
  else
    let b := devRead s frame (64 * flen)
    if b.length < 128 then none else expandChunks ((List.range 64).map (fun c => leNat ((b.drop (2 * c)).take 2))) (b.drop 128)

/-- The view of a compact element: value(nibble) × 2^(scale − 127) rounded by rna into the storage format (R343). -/
def compactView (fmt scale nib : Nat) : Nat :=
  (encodeElem fmt (match decodeElem 0x13 nib with
    | .fin neg m e => .fin neg m (e + (scale : Int) - 127)
    | v => v)).code

/-- The view of elements `off` to `off + n − 1` of a compact tile (R341, R343). -/
def compactRead (s : State) (fmt frame scales off n : Nat) : List Byte :=
  (List.range n).map (fun i =>
    let e := off + i
    let b := devLe s (frame + e / 2) 1
    BitVec.ofNat 8 (compactView fmt (devLe s (scales + e / 32) 1) (b / (if e % 2 = 0 then 1 else 16) % 16)))

/-- The larger of two magnitudes given as mantissa and exponent. -/
def bigger (a b : Nat × Int) : Nat × Int := if magLe b.1 b.2 a.1 a.2 then a else b

/-- A block of 32 elements encoded: scale byte and nibbles; amax over the finite values, an infinity as ±6, a NaN as 0x7 (R342,
R344). -/
def compactBlock (vs : List FVal) : Nat × List Nat :=
  let amax := vs.foldl (fun a v => match v with | .fin _ m e => bigger a (m, e) | _ => a) (0, 0)
  let x : Int := if amax.1 = 0 then 0x7F else leadExp amax.1 amax.2 + 125
  (x.toNat, vs.map (fun v => match v with
    | .nan _ => 0x7
    | .inf neg => if neg then 0xF else 0x7
    | .fin neg m e => (encodeElem 0x13 (.fin neg m (e - (x - 127)))).code))

/-- Whether a value is a NaN or an infinity. -/
def notFinite (v : FVal) : Bool := match v with | .fin _ _ _ => false | _ => true

/-- One block of a compact tile stored: 16 bytes of nibbles and a scale byte (R341, R342). -/
def putBlock (s : State) (frame scales k : Nat) (vs : List FVal) : State :=
  let r := compactBlock vs
  devPut (devPut s (frame + 16 * k) (leBytes 16 (packList 4 r.2))) (scales + k) [BitVec.ofNat 8 r.1]

/-- A write to a compact tile: each touched block decoded, replaced, and encoded again; a block with a NaN or an infinity adds 1 to
csr.rqlossy (R344). -/
def compactWrite (s : State) (fmt frame scales off : Nat) (data mask : List Byte) : State :=
  if data = [] then s
  else
    (List.range ((off + data.length - 1) / 32 + 1 - off / 32)).foldl (fun s i =>
      let k := off / 32 + i
      let old := compactRead s fmt frame scales (32 * k) 32
      let touched := (List.range 32).any (fun j => decide (off ≤ 32 * k + j) && nth mask (32 * k + j - off) 0 != 0)
      let vs := (List.range 32).map (fun j =>
        let e := 32 * k + j
        let b := if off ≤ e ∧ nth mask (e - off) 0 ≠ 0 then nth data (e - off) 0 else nth old j 0
        decodeElem fmt b.toNat)
      if touched then
        let s := putBlock s frame scales k vs
        if vs.any notFinite then setIo s 0x841 (ioCsr s 0x841 + 1) else s
      else s) s

/-- The registered tree of a tile table (R421, R422). -/
def treeOf (s : State) (table : Nat) : Option Tree := s.sec.trees.find? (fun t => t.table == table)

/-- The leaf of a tile (R420): bytes past the tensor's length count as zero. -/
def leafOf (t : Tensor) (i : Nat) (b : List Byte) : List Byte :=
  let len := (t.len * containerBits t.fmt + 7) / 8
  let keep := len - 65536 * i
  sha256 ((0 : Byte) :: (leBytes 8 i ++ (b.take keep ++ List.replicate (65536 - min keep 65536) 0)))

/-- Whether a tile meets its registered leaf (R245, R421). -/
def leafOk (s : State) (t : Tensor) (i : Nat) (b : List Byte) : Bool :=
  match treeOf s t.table with
  | some r => decide (i < r.tiles) && leafOf t i b == devRead s (r.leaves + 32 * i) 32
  | none => false

/-- The worse of two outcomes of one access (R338): fault 0x11, then an error of the data, then success (log 46). -/
def worse (a b : Except Nat (List Byte)) : Except Nat (List Byte) :=
  match a, b with
  | .ok x, .ok y => .ok (x ++ y)
  | .error c, .ok _ => .error c
  | .ok _, .error c => .error c
  | .error c, .error d => if c % 2 ^ 8 = 0x11 then .error c else if d % 2 ^ 8 = 0x11 then .error d else .error c

/-- An error code with the place of a damaged word (R384): the code in bits 7:0 (log 46). -/
def errCode (code info : Nat) : Nat := code + 256 * info

/-- The device memory behind `n` bytes at `off` of a tile: a link frame, codes and scales of the compact encoding by whole blocks, a hashed
tile whole with its leaf, or the bytes themselves (R242, R246, R341, R421). -/
def tileRanges (s : State) (t : Tensor) (i off n : Nat) : List (Nat × Nat) :=
  let w0 := entryWord s t.table i 0
  let w1 := entryWord s t.table i 1
  let leaf := if hashed t then (treeOf s t.table).elim [] (fun r => [(r.leaves + 32 * i, 32)]) else []
  if framed t then (entFrame w0, 64 * entLen w1) :: leaf
  else
    let a := if hashed t then 0 else off
    let k := if hashed t then 65536 else n
    if k = 0 then []
    else if entEnc w0 = 1 then
      let b0 := a / 32
      let b1 := (a + k - 1) / 32 + 1
      (entFrame w0 + 16 * b0, 16 * (b1 - b0)) :: (entScales w1 + b0, b1 - b0) :: leaf
    else (entFrame w0 + a, k) :: leaf

/-- The first uncorrectable word among what serves `n` bytes at `off` of a tile, as a fault's detail (R384). -/
def tilePoison (s : State) (t : Tensor) (i off n : Nat) : Option Nat :=
  (tileRanges s t i off n).findSome? (fun r => if t.kind = 1 then poisonIn s 0x18 0 64 (devAddr r.1) r.2 else poisonIn s 0x19 0 64 r.1 r.2)

/-- `n` bytes at `off` of a tile as the layout unit serves them: data, zeros of a dead tile, fault 0x11 for an absent or lost one,
0x12 for a malformed frame or a failed leaf, 0x30 for poisoned words, 0x31 for those of a host line (R244 to R246, R338, R383, R384). -/
def tileRead (s : State) (t : Tensor) (i off n : Nat) : Except Nat (List Byte) :=
  let w0 := entryWord s t.table i 0
  let w1 := entryWord s t.table i 1
  match tileState s t i with
  | 1 =>
    match tilePoison s t i off n with
    | some p => .error (errCode (if t.kind = 2 then 0x31 else 0x30) p)
    | none =>
    if framed t || hashed t then
      match (if framed t then expandFrame s (entFrame w0) (entLen w1)
             else if entEnc w0 = 1 then some (compactRead s t.fmt (entFrame w0) (entScales w1) 0 65536)
             else some (memRead s t (entFrame w0) 65536)) with
      | none => .error 0x12
      | some b => if hashed t && !leafOk s t i b then .error 0x12 else .ok ((b.drop off).take n)
    else if entEnc w0 = 1 then .ok (compactRead s t.fmt (entFrame w0) (entScales w1) off n)
    else .ok (memRead s t (entFrame w0 + off) n)
  | 2 => .ok (List.replicate n 0)
  | _ => .error 0x11

/-- A tensor byte range cut at tile boundaries: tile, offset, length (R242). -/
def tilePieces : Nat → Nat → Nat → List (Nat × Nat × Nat)
  | 0, _, _ => []
  | fuel + 1, b, n =>
    if n = 0 then []
    else
      let k := min n (65536 - b % 65536)
      (b / 65536, b % 65536, k) :: tilePieces fuel (b + k) (n - k)

/-- The pieces of a range of `n` bytes from byte `b`. -/
def piecesOf (b n : Nat) : List (Nat × Nat × Nat) := tilePieces (n / 65536 + 2) b n

/-- `n` bytes of a tensor from byte `b` (R242, R338). -/
def tensorRead (s : State) (t : Tensor) (b n : Nat) : Except Nat (List Byte) :=
  (piecesOf b n).foldl (fun r p => worse r (tileRead s t p.1 p.2.1 p.2.2)) (.ok [])

/-- Whether a store to a range finds every tile resident or dead (R338). -/
def storeOk (s : State) (t : Tensor) (b n : Nat) : Bool :=
  (piecesOf b n).all (fun p => let st := tileState s t p.1; st == 1 || st == 2)

/-- A dead tile zero-filled in its encoding and made resident (R338, R344). -/
def reviveTile (s : State) (t : Tensor) (i : Nat) : State :=
  let w0 := entryWord s t.table i 0
  let w1 := entryWord s t.table i 1
  if tileState s t i = 2 then
    let s := if entEnc w0 = 1 then
        devPut (devPut s (entFrame w0) (List.replicate 32768 0)) (entScales w1) (List.replicate 2048 0x7F)
      else memWrite s t (entFrame w0) (List.replicate 65536 0) (List.replicate 65536 255)
    putEntry s t.table i (setField w0 0 2 1) w1
  else s

/-- A write to one tile (R338, R344). -/
def tileWrite (s : State) (t : Tensor) (i off : Nat) (data mask : List Byte) : State :=
  let s := reviveTile s t i
  let w0 := entryWord s t.table i 0
  let w1 := entryWord s t.table i 1
  if entEnc w0 = 1 then compactWrite s t.fmt (entFrame w0) (entScales w1) off data mask
  else memWrite s t (entFrame w0 + off) data mask

/-- A write of bytes from tensor byte `b` under a bit mask (R242, R338, log 122). -/
def tensorWrite (s : State) (t : Tensor) (b : Nat) (data mask : List Byte) : State :=
  (piecesOf b data.length).foldl (fun s p =>
    let skip := p.1 * 65536 + p.2.1 - b
    tileWrite s t p.1 p.2.1 ((data.drop skip).take p.2.2) ((mask.drop skip).take p.2.2)) s

/-- The tiles that overlap a byte range, or with `whole` those wholly inside it (R148, R149). -/
def tilesIn (off len : Nat) (whole : Bool) : List Nat :=
  if len = 0 then []
  else if whole then (List.range ((off + len) / 65536 - (off + 65535) / 65536)).map (fun i => (off + 65535) / 65536 + i)
  else (List.range ((off + len - 1) / 65536 + 1 - off / 65536)).map (fun i => off / 65536 + i)

/-- The pins field of an entry changed (R336, R339). -/
def setPins (s : State) (table i n : Nat) : State :=
  putEntry s table i (setField (entryWord s table i 0) 4 8 n) (entryWord s table i 1)

/-- Whether the tile-translation cache of a context's Stall holds a tile (R247). -/
def cached (s : State) (c tid tile : Nat) : Bool := s.tcache.any (fun e => e.ctx == c && e.tid == tid && e.tile == tile)

/-- The queue of a tensor's kind (R243). -/
def kindQueue (t : Tensor) : QId := if t.kind = 2 then .host else .device

/-- The tile-translation caches lose the tiles whose table entry or frame lies between two addresses of device memory, as an ownership flip of
that memory makes them (R247). -/
def uncache (s : State) (lo hi : Nat) : State :=
  let inside (a n : Nat) : Bool := decide (a < hi ∧ lo < a + n)
  { s with tcache := s.tcache.filter (fun e =>
      !(inside (devAddr e.at0) 16 || e.device && inside (devAddr (fld (BitVec.ofNat 64 (devLe s e.at0 8)) 15 49 * 32768)) 65536)) }

/-- The tile-translation cache forgets a context: its slot is taken or freed (R247). -/
def uncacheCtx (s : State) (c : Nat) : State := { s with tcache := s.tcache.filter (fun e => e.ctx != c) }

/-- A tile used: it becomes the most recent of its Stall's cache, whose oldest entry past 128 leaves (R247, log 44). -/
def cacheTile (s : State) (c : Nat) (t : Tensor) (i : Nat) : State :=
  let l := s.tcache.filter (fun e => !(e.ctx == c && e.tid == t.id && e.tile == i)) ++
    [{ ctx := c, tid := t.id, tile := i, at0 := t.table + 64 + 16 * i, device := t.kind == 1 }]
  let mine := l.filter (fun e => stallOf e.ctx == stallOf c)
  { s with tcache := match mine with | e :: _ => (if 128 < mine.length then l.filter (fun x => x != e) else l) | [] => l }

/-- The tiles of byte ranges that an off-die access or a PROBE finds resident or dead enter the cache (R247, log 44). -/
def cacheRanges (s : State) (c : Nat) (rs : List (Tensor × Nat × Nat)) : State :=
  rs.foldl (fun s r =>
    if r.1.kind = 0 then s
    else (tilesIn r.2.1 r.2.2 false).foldl
      (fun s i => if tileState s r.1 i = 1 ∨ tileState s r.1 i = 2 then cacheTile s c r.1 i else s) s) s

/-- The tiles a PROBE pins, added to the context's list with their pins fields raised; none where the list or a field would overflow
(R339). -/
def pinTiles (s : State) (c table : Nat) : List Nat → Option State
  | [] => some s
  | i :: r =>
    if (ctxOf s c).pins.any (· == (table, i)) then pinTiles s c table r
    else
      let n := entPins (entryWord s table i 0)
      if 256 ≤ (ctxOf s c).pins.length ∨ 255 ≤ n then none
      else pinTiles (modCtx (setPins s table i (n + 1)) c (fun x => { x with pins := x.pins ++ [(table, i)] })) c table r

/-- Every tile a context still pins has its pins field lowered by one (R339). -/
def releasePins (s : State) (c : Nat) : State :=
  let s := (ctxOf s c).pins.foldl (fun s p => setPins s p.1 p.2 (entPins (entryWord s p.1 p.2 0) - 1)) s
  modCtx s c (fun x => { x with pins := [] })

end Sys2Proof.Machine
end

