-- ==== Sys2Proof/Machine/Checks.lean ====
section
/-!
DEFINITION. The checks a slot operation passes before its bundle issues (R268 step 3): dispatch (R26), round port (R189),
lanes and bays (R216, R231), occupation (R219), streams (R238, R240), scoreboard (R274), and the faults each instruction
names. R93 orders them.
-/

namespace Sys2Proof.Machine

/-- What a slot operation's checks find: faults, and waits, each with the operation it names besides the faulting one (R275,
R406): 0 for none, else 1 + bundle × 256 + slot. -/
abbrev Found := List (Nat × Nat) × List (Wait × Nat)

/-- Nothing found. -/
def fine : Found := ([], [])

/-- A fault unless a condition holds. -/
def need (ok : Bool) (code : Nat) : Found := if ok then ([], []) else ([(code, 0)], [])

/-- A fault 0x03 or 0x04 that only the bundle's issue makes, coded 256 above, with its second operation (R215, R216, R231). -/
def clash (code second : Nat) : Found := ([(256 + code, second)], [])

/-- A fault naming a second operation unless a condition holds. -/
def needBy (ok : Bool) (code second : Nat) : Found := if ok then ([], []) else ([(code, second)], [])

/-- A wait for another operation where a condition holds. -/
def waitIf (c : Bool) (w : Wait) (second : Nat) : Found := if c then ([], [(w, second)]) else ([], [])

/-- Two findings together. -/
def both (a b : Found) : Found := (a.1 ++ b.1, a.2 ++ b.2)

/-- Every finding of a list. -/
def allOf (l : List Found) : Found := l.foldr both fine

/-- The lowest fault code found (R93). -/
def lowest : List (Nat × Nat) → Option (Nat × Nat)
  | [] => none
  | f :: r =>
    match lowest r with
    | none => some f
    | some g => if g.1 < f.1 then some g else some f

/-- Whether a wait is a delay-count check of R274; rendezvous, barriers, probe answers and tap copies are not. -/
def isBoard (w : Wait) : Bool :=
  match w with
  | .rdv _ | .bar _ | .probe _ _ _ | .copy | .csr | .none => false
  | _ => true

/-- The outcome of faults, of faults that only an issue makes, and of waits: where the operation waits it does not issue, and the latter
are not met; else the lowest code of all (R93, R231, R268). -/
def outcome (hard soft : List (Nat × Nat)) (waits : List (Wait × Nat)) : Check :=
  match waits, lowest hard, lowest soft with
  | _ :: _, some g, _ => .fault g.1 g.2
  | w :: _, none, _ => .wait w.1
  | [], some g, some h => if h.1 < g.1 then .clash h.1 h.2 else .fault g.1 g.2
  | [], some g, none => .fault g.1 g.2
  | [], none, some h => .clash h.1 h.2
  | [], none, none => .ok

/-- The outcome of an operation's findings: a delay-count wait counts as fault 0x07 in trap mode (R139, R274). -/
def settle (c : Ctx) (f : Found) : Check :=
  let soft := (f.1.filter (fun g => 256 ≤ g.1)).map (fun g => (g.1 - 256, g.2))
  let hard := f.1.filter (fun g => g.1 < 256)
  if dctrap c then outcome (hard ++ (f.2.filter (fun w => isBoard w.1)).map (fun w => (7, w.2))) soft (f.2.filter (fun w => !isBoard w.1))
  else outcome hard soft f.2

/-- Rows in the grant, whatever the direction (R26). -/
def vOk (c : Ctx) (v : BitVec 13) : Bool := vnum v < 64 * c.grant.tiles
/-- A scale register in the grant (R26). -/
def kOk (c : Ctx) (k : BitVec 8) : Bool := k.toNat < c.grant.kregs
/-- A stream register in the grant (R26). -/
def wOk (c : Ctx) (w : BitVec 5) : Bool := w.toNat < c.grant.streams
/-- Macros in the context's mask (R26). -/
def maskOk (c : Ctx) (m : BitVec 8) : Bool := m &&& ~~~c.grant.macros == 0
/-- One macro in the mask (R26). -/
def cmOk (c : Ctx) (m : BitVec 3) : Bool := bit c.grant.macros m.toNat
/-- A semaphore in the launch's grant (R22, log 37, log 97). -/
def semOk (c : Ctx) (n : Nat) : Bool := bit c.grant.sems n

/-- The pending SPILL or FILL of an earlier bundle that locks a tile: SPILL against writes, FILL against reads and writes (R201). -/
def lockOn (c : Ctx) (tile : Nat) (write : Bool) : Option (Wait × Nat) :=
  (c.ops.find? (fun o => !o.performed && decide (o.issue < c.ccycle) &&
    (match o.kind with
     | .spill _ t _ _ _ => write && t == tile
     | .fill _ t _ _ => t == tile
     | _ => false))).map (fun o => (.lock (match o.kind with | .spill k _ _ _ _ => k | .fill k _ _ _ => k | _ => 0), srcOf o.pc o.slot))

/-- The waits of a list of tiles read and a list written (R201, R274). -/
def locks (c : Ctx) (reads writes : List Nat) : Found :=
  ([], reads.filterMap (fun t => lockOn c t false) ++ writes.filterMap (fun t => lockOn c t true))

/-- A second operation of a fault record, named only where it is the running context's own (R406). -/
def ownSrc (s : State) (c src : Nat) : Nat := if c = s.cur.ctx then src else 0

/-- Poisoned words among an operation's vector and scale sources: fault 0x30 at the reading bundle (R384, log 95). -/
def poisonFound (s : State) (src : List (BitVec 13)) (ks : List (BitVec 8)) : Found :=
  let c := s.cur.ctx
  let rows := src.flatMap (fun v => viewRows (vnum v) (vdir v))
  let bad := s.marks.filter (fun m => m.bad && m.owner == c &&
    (m.struct == 1 && rows.any (· == m.unit) || m.struct == 2 && ks.any (fun k => k.toNat == m.unit)))
  (bad.map (fun m => (0x30, markInfo m)), [])

/-- Poisoned words among rows that an operation reads beside its operands (R384, log 95). -/
def poisonRows (s : State) (rows : List Nat) : Found :=
  ((s.marks.filter (fun m => m.bad && m.owner == s.cur.ctx && m.struct == 1 && rows.any (· == m.unit))).map
    (fun m => (0x30, markInfo m)), [])

/-- Poisoned words in the scale register that a tag names (R384). -/
def poisonTag (s : State) (t : Nat) : Found :=
  ((s.marks.filter (fun m => m.bad && m.owner == s.cur.ctx && m.struct == 2 && m.unit == fld (tagOf (me s) t) 16 8)).map
    (fun m => (0x30, markInfo m)), [])

/-- The checks every operation shares: the grant checks hold whatever the predicate (R26, R75); `rest` only when the
predicate is true (log 95). -/
def common (s : State) (p : BitVec 5) (dst src : List (BitVec 13)) (ks : List (BitVec 8)) (always rest : Found) : Check :=
  let c := me s
  let grants := need ((dst ++ src).all (vOk c) && ks.all (kOk c)) 2
  settle c (both (both always grants)
    (if predTrue c p then allOf [locks c (src.map vtile) (dst.map vtile), poisonFound s src ks, rest] else fine))

/-- An illegal encoding that depends on the context (R103, R114, R141). -/
def illegalUnless (ok : Bool) : Found := need ok 1

/-- A control transfer's target lies below the code length (R126). -/
def targetOk (s : State) (t : Nat) : Found := need (decide (t < (me s).grant.codeLen)) 2

/-- The comparisons of R122 by condition code (R104). -/
def compare (cond : Nat) (a b : Word) : Bool :=
  match cond with
  | 0 => a == b
  | 1 => a != b
  | 2 => a.ult b
  | 3 => a.slt b
  | 4 => !b.ult a
  | _ => !b.slt a

/-- The checks of a LOOP push (R129). -/
def loopFound (s : State) (len : Nat) (trip : BitVec 32) : Found :=
  let c := me s
  let e := s.cur.pc + 1 + len
  let inner := match c.loops with
    | [] => true
    | t :: _ => !(t.start ≤ s.cur.pc && s.cur.pc < t.start + t.len) || e ≤ t.start + t.len
  allOf [need (decide (c.loops.length < c.grant.loops) || trip == 0) 2, need (decide (e ≤ c.grant.codeLen)) 2, need inner 2]

/-- The bundle of a context at an index: 64 bytes of the instruction store, or of the service store (R72, R104, log 98). -/
def bundleAt (s : State) (c pc : Nat) : BundleBits :=
  BitVec.ofNat 512
    (if isSvc c then readLe s.sstore (stallOf c * 2 ^ 16 + 64 * pc) 64
     else readLe s.istore (stallOf c * 2 ^ 18 + 64 * ((ctxOf s c).grant.codeBase + pc)) 64)

/-- Whether a context's bundle at its pc is due in its current context cycle (R78, log 26). -/
def isDue (s : State) (c : Nat) : Bool :=
  let x := ctxOf s c
  x.status == .running && !x.inSvc && !x.frozen && x.landedNow && decide (x.pc < x.grant.codeLen) &&
    decide (x.base + bStamp (bundleAt s c x.pc) ≤ (x.ccycle : Int))

/-- The members of a rendezvous group of a launch: first and last kernel-local Stall (R97, R270). -/
def groupOf (l : Launch) (g : Nat) : Option (Nat × Nat) := (l.groups.find? (fun e => e.1 == g)).map (·.2)

/-- The keys of a group's members. -/
def membersOf (l : Launch) (g : Nat) : List Nat :=
  match groupOf l g with
  | none => []
  | some (a, b) => (List.range (b + 1 - a)).map (fun i => ctxOfLocal l (a + i))

/-- The ordinal of a context's next RDV or BAR of a group in this run (R136, R386). -/
def ordinal (c : Ctx) (g : Nat) : Nat := mget c.bar g 0
/-- The ordinals of a group a context has issued (R386). -/
def issuedOrd (c : Ctx) (g : Nat) : Nat := mget c.rdv g 0

/-- Whether member `m` has arrived at ordinal `k` of a group: it is due at it, or has issued it (R137, R386, log 27). -/
def arrived (s : State) (m g k : Nat) : Bool :=
  let x := ctxOf s m
  decide (k < issuedOrd x g) ||
    (isDue s m && ordinal x g == k && bRdv (bundleAt s m x.pc) &&
      (match slotInstr (bundleAt s m x.pc) 7 with | .ok (.ins (.rdv _ h)) => h.toNat == g | _ => false))

/-- The checks of a group operand: declared, and the context belongs to it (R136). -/
def groupFound (s : State) (g : Nat) : Found :=
  match groupOf (myLaunch s) g with
  | none => need false 2
  | some (a, b) => need (a ≤ (me s).k && (me s).k ≤ b) 2

/-- RDV's check: one Yard only, and every member has arrived (R137, log 27). -/
def rdvFound (s : State) (g : Nat) : Found :=
  let ms := membersOf (myLaunch s) g
  let x := me s
  allOf [groupFound s g, need (ms.all (fun m => yardOf m == yardOf s.cur.ctx)) 2,
    waitIf (!(decide (ordinal x g < issuedOrd x g) ||
      ms.all (fun m => m == s.cur.ctx || arrived s m g (ordinal x g)))) (.rdv g) 0]

/-- BAR's check: the release of this ordinal has reached the context (R138). -/
def barFound (s : State) (g : Nat) : Found :=
  let x := me s
  both (groupFound s g)
    (waitIf (!(decide (ordinal x g < issuedOrd x g) || decide (ordinal x g < mget x.barOpen g 0))) (.bar g) 0)

/-- Whether an access is a variable-latency operation of R140. -/
def isVariable (o : OffOp) : Bool :=
  match o.kind with
  | .pop | .probe _ _ _ | .discard _ _ _ | .reds _ => false
  | _ => true

/-- A FIFO binding of the running context as source (R306): its kind. -/
def pushKind (l : Launch) (k q : Nat) : Option (List Nat) :=
  l.fifos.find? (fun f => nth f 0 0 != 0 && nth f 1 0 == k && nth f 2 0 % 32 == q)

/-- Whether an access stays held until its segment commits: a PUSH, a REDS towards another Yard of the open segment, or any fill request
while the segment has read the shadow bank or an exchange of its banks is in flight (R199, R211, R267, R281, R370, log 114). -/
def heldKind (s : State) (c : Nat) (o : OffOp) : Bool :=
  let x := ctxOf s c
  match o.kind with
  | .push _ | .reds _ => o.seg == x.seg
  | .fillReq v => let m := macroOf x (fld v 16 3); m.shadowRead || m.activeRead && m.time.swapsDue != 0
  | _ => false

/-- Whether an access is that of a trigger on its way to DX of which it is not known yet that its job reads a tensor (R140, log 35). -/
def undecided (o : OffOp) : Bool := o.performed && decide (o.kind = .dx none)

/-- Whether an access counts as performed for R140 and R274: it has performed, or it is held for segment commit (R199, R281). -/
def boardDone (s : State) (c : Nat) (o : OffOp) : Bool := o.performed || heldKind s c o

/-- The set `late` of R139 for a delay count. -/
def lateSet (s : State) (cycle count : Nat) : List OffOp :=
  (me s).ops.filter (fun o => isVariable o && !boardDone s s.cur.ctx o && decide (o.issue < cycle) && decide (o.issue + count ≤ cycle))

/-- WAITD's check (R139). -/
def waitdFound (s : State) (count : Nat) : Found :=
  match lateSet s s.cur.cycle count with
  | [] => fine
  | o :: r =>
    let f := r.foldl (fun a b => if b.issue < a.issue then b else a) o
    waitIf true .late (srcOf f.pc f.slot)

/-- A semaphore's value on the running context's Stable (R142). -/
def semVal (s : State) (n : Nat) : BitVec 32 := mget (stableAt s (stableOf s.cur.ctx)).sems n 0

/-- The undo charge that a bundle's own records add to: 0 where the bundle enters a segment (R284, R286). -/
def openCharge (s : State) : Nat := if s.cur.segMark ∨ (me s).snap.isNone then 0 else (me s).charge

/-- SEMWAIT's check: the count, and the undo charge of its success (R142, R286). -/
def semwaitFound (s : State) (n count : Nat) : Found :=
  let c := me s
  both (waitIf (decide ((semVal s n).toNat < count)) (.sem n) (hereSrc s))
    (need (c.grant.segbudget == 0 || decide ((semVal s n).toNat < count) || decide (openCharge s + 8 ≤ c.grant.segbudget)) 2)

/-- A byte range of a device or host tensor that PROBE, DISCARD and fill requests name (R148, R149, R338, log 44). -/
def rangeFound (s : State) (a b : Word) : Found :=
  let off := fld a 0 48
  let len := fld b 0 48
  if len = 0 then fine
  else
    match tensorOf (myLaunch s) (fld a 48 16) with
    | none => need false 2
    | some t => need (t.kind != 0 && decide ((off + len - 1) / 65536 < t.tiles)) 2

/-- Whether an access changes the tiles that a PROBE asks of: a store, a SPILL or a DISCARD. -/
def changesTiles (k : OffKind) : Bool := match k with | .store _ _ _ _ _ _ | .spill _ _ _ _ _ | .discard _ _ _ => true | _ => false

/-- Whether a PROBE is answered by the tile-translation cache: it holds every tile that the PROBE checks, each resident or dead, and no store,
SPILL or DISCARD stands before the PROBE in its queue (R148, R243, R247, log 44). -/
def probeCached (s : State) (a b : Word) : Bool :=
  (tensorOf (myLaunch s) (fld a 48 16)).any (fun t =>
    (me s).ops.all (fun o => o.performed || o.q != kindQueue t || !changesTiles o.kind) &&
      (tilesIn (fld a 0 48) (fld b 0 48) false).all (fun i =>
        cached s s.cur.ctx (fld a 48 16) i && (tileState s t i == 1 || tileState s t i == 2)))

/-- PROBE's check: its range, and where the cache lacks a tile the answer; a pin that would overflow faults (R148, R247, R339). -/
def probeFound (s : State) (a b : Word) : Found :=
  let open0 := !(me s).probeOk && fld b 0 48 != 0
  let tid := fld a 48 16
  allOf [rangeFound s a b, waitIf (open0 && !probeCached s a b) (.probe tid (fld a 0 48) (fld b 0 48)) 0,
    need (!(open0 && probeCached s a b) || (tensorOf (myLaunch s) tid).all (fun t =>
      (pinTiles s s.cur.ctx t.table (tilesIn (fld a 0 48) (fld b 0 48) false)).isSome)) 2]

/-- A round access of one bundle: bay, offset, bytes, and the context-cycle offset of its bay access from issue (R188). -/
structure Touch where
  bay : Nat
  off : Int
  n : Nat
  cyc : Nat
  deriving DecidableEq, Repr

/-- A train of one bundle: lane, source position, hops, entry offset, flits (R229, R230). -/
structure Ride where
  lane : Nat
  src : Nat
  hops : Nat
  e : Nat
  f : Nat
  deriving DecidableEq, Repr

/-- The round traffic of one operation. -/
abbrev Traffic := List Touch × List Ride

/-- The Yard-cycle offset of a train: its context's, or none once its context has been released (R147, R231). -/
def trainShift (s : State) (t : Train) : Int := if t.out then 0 else yardShift s t.ctx

/-- Segments of a train as (lane, position left, first Yard cycle, flits) (R229). -/
def segments (s : State) (t : Train) : List (Nat × Nat × Int × Nat) :=
  (List.range t.hops).map (fun k =>
    (t.lane, (if t.lane < 8 then (t.start + k) % 16 else (t.start + 16 - k) % 16), trainShift s t + t.first + k, t.flits))

/-- Whether two trains occupy one segment of one lane in a common cycle (R231). -/
def meet (s : State) (a b : Train) : Bool :=
  a.lane == b.lane &&
    (segments s a).any (fun x => (segments s b).any (fun y =>
      x.2.1 == y.2.1 && decide (x.2.2.1 < y.2.2.1 + y.2.2.2) && decide (y.2.2.1 < x.2.2.1 + x.2.2.2)))

/-- The trains of an operation issued by the running bundle. -/
def trainsOf (s : State) (r : Traffic) : List Train :=
  r.2.map (fun d =>
    { ctx := s.cur.ctx, lane := d.lane, start := d.src, hops := d.hops, first := s.cur.cycle + d.e + 1, flits := d.f,
      src := hereSrc s, out := false })

/-- Whether two contexts are of one class (R216, R231). -/
def sameClass (a b : Nat) : Bool := slotOf a == slotOf b

/-- The Yard cycle of an access `cyc` context cycles after the running bundle's issue. -/
def yardOfUse (s : State) (cyc : Nat) : Nat := yardNow s s.cur.ctx + cyc

/-- The checks of round traffic: extents (R189), lanes against trains already under way (R231), bays against MMA
reservations of the same class (R216). -/
def trafficFound (s : State) (r : Traffic) : Found :=
  let st := stableAt s (stableOf s.cur.ctx)
  allOf [need (r.1.all (fun t => inExtent (myLaunch s) t.bay t.off t.n)) 2,
    (match st.trains.find? (fun b => (trainsOf s r).any (fun a => sameClass a.ctx b.ctx && meet s a b)) with
     | some b => clash 3 (if b.out then 0 else ownSrc s b.ctx b.src)
     | none => fine),
    (match st.reserves.find? (fun v => sameClass v.ctx s.cur.ctx && r.1.any (fun t => (v.abay == t.bay || v.bbay == t.bay) &&
        decide (v.first ≤ yardOfUse s t.cyc) && decide (yardOfUse s t.cyc ≤ v.last))) with
     | some v => clash 3 (ownSrc s v.ctx v.src)
     | none => fine)]

/-- A load from a bay into the Stall's port, or to another position (R188, R230). -/
def loadTraffic (s : State) (bay : BitVec 3) (off : Nat) (n : Nat) (lane : BitVec 4) (e f : Nat) : Traffic :=
  ([⟨bay.toNat, off, n, 2⟩],
   [⟨lane.toNat, bayPos bay.toNat, hops lane.toNat (bayPos bay.toNat) (portPos s.cur.ctx), e, f⟩])

/-- The hop count of a direct load (R20, R188). -/
def loadHops (s : State) (bay : BitVec 3) (lane : BitVec 4) : Nat :=
  hops lane.toNat (bayPos bay.toNat) (portPos s.cur.ctx)

/-- The hop count of a direct store (R20, R188). -/
def storeHops (s : State) (bay : BitVec 3) (lane : BitVec 4) : Nat :=
  hops lane.toNat (portPos s.cur.ctx) (bayPos bay.toNat)

/-- A store from the Stall's port into a bay (R188, R230). -/
def storeTraffic (s : State) (bay : BitVec 3) (off : Nat) (n : Nat) (lane : BitVec 4) (e f : Nat) : Traffic :=
  ([⟨bay.toNat, off, n, 2 + storeHops s bay lane⟩], [⟨lane.toNat, portPos s.cur.ctx, storeHops s bay lane, e, f⟩])

/-- Elements of a row-group (R192). -/
def groupCount (w : WReg) : Nat := 4096 / containerBits (sFmt w)

/-- A descriptor that R238 refuses. -/
def descBad (l : Launch) (w : WReg) : Bool :=
  let s := sStride w
  let sf := fld (wword w 1) 16 2
  decide (4 < sDims w) || !fmtOk (sFmt w) || decide (8 ≤ fld (wword w 0) 25 4) ||
    (List.range (sDims w)).any (fun d => sCount w d == 0) || (s == 0 && (sf != 0 || sScaleT w != 0)) ||
    (s != 0 && (sf == 0 || sScaleT w == 0 || (tensorOf l (sScaleT w)).isNone)) || sTensor w == 0 ||
    (tensorOf l (sTensor w)).isNone

/-- The storage bytes [first, last) that `n` elements at offset `o` touch inside a tensor (R240, R242). -/
def touchedBytes (t : Tensor) (o : Int) (n : Nat) : Nat × Nat :=
  let cs := containerBits t.fmt
  let a := (max o 0).toNat
  let b := min (o + n).toNat t.len
  if b ≤ a then (0, 0) else (a * cs / 8, ceilDiv (b * cs) 8)

/-- The byte offset of a stream's scale record (R240). -/
def scaleOff (w : WReg) : Int := 128 * (sOffset w / (sStride w : Int))

/-- The round traffic of a stream access of `n` elements: data half, scale half or both; loads enter at 2 and stores at 3, with the flits of
the whole row-group, and a scale record wholly outside its tensor is no access (R188, R230, R240). -/
def streamTraffic (s : State) (w : WReg) (n : Nat) (data scale store : Bool) : Traffic :=
  match tensorOf (myLaunch s) (sTensor w) with
  | none => ([], [])
  | some t =>
    if t.kind ≠ 0 then ([], [])
    else
      let lane := BitVec.ofNat 4 (sLane w)
      let bay := BitVec.ofNat 3 t.bay
      let h := if store then storeHops s bay lane else loadHops s bay lane
      let cyc := if store then 4 + h else 2
      let r := touchedBytes t (sOffset w) n
      let so := match tensorOf (myLaunch s) (sScaleT w) with
        | some st =>
          let a := (max (scaleOff w) 0).toNat
          let b := min (scaleOff w + 128).toNat (ceilDiv (st.len * containerBits st.fmt) 8)
          if a < b then [(⟨st.bay, (st.off + a : Nat), b - a, cyc⟩ : Touch)] else []
        | none => []
      let bytes := (if data then groupCount w * containerBits t.fmt / 8 else 0) + (if scale then 128 else 0)
      ((if data ∧ r.1 < r.2 then [⟨t.bay, (t.off + r.1 : Nat), r.2 - r.1, cyc⟩] else []) ++ (if scale then so else []),
       [⟨sLane w, if store then portPos s.cur.ctx else bayPos t.bay, h, if store then 3 else 2,
         max 1 (if data then ceilDiv bytes 64 else 2)⟩])

/-- Whether a stream names a framed tensor, as its data or as its scale tensor (R245). -/
def namesFramed (l : Launch) (w : WReg) : Bool :=
  (tensorOf l (sTensor w)).any framed || sStride w != 0 && (tensorOf l (sScaleT w)).any framed

/-- The checks of a stream access (R192, R196, R233, R238, R240, R245, log 36). -/
def streamFound (s : State) (wn : BitVec 5) (n : Nat) (data scale store : Bool) : Found :=
  let w := wreg (me s) wn.toNat
  let l := myLaunch s
  if !wOk (me s) wn then fine
  else if descBad l w then need false 2
  else
    match tensorOf l (sTensor w) with
    | none => need false 2
    | some t =>
      let useScale := scale && sStride w != 0
      let scaleOk := match tensorOf l (sScaleT w) with
        | some st => (t.kind != 0 || (st.kind == 0 && st.bay == t.bay)) && (t.kind == 0 || st.kind != 0)
        | none => true
      allOf [need (sOffset w * containerBits t.fmt % 8 == 0) 2,
        need (!store || !namesFramed l w) 2, need (data || sStride w != 0) 2, need (!useScale || scaleOk) 2,
        trafficFound s (streamTraffic s w n data useScale store)]

/-- Scoreboard entries in use (R274, log 35). -/
def boardUsed (s : State) (c : Nat) : Nat :=
  ((ctxOf s c).ops.filter (fun o => !(boardDone s c o && o.landed) && !undecided o && (isVariable o || o.kind == .pop))).length

/-- The wait for a free scoreboard entry (R274). -/
def boardFound (s : State) (n : Nat) : Found := waitIf (decide (48 < boardUsed s s.cur.ctx + n)) .full (hereSrc s)

/-- Whether a stream's tensor lies beyond the variable-latency boundary (R140). -/
def offDie (s : State) (w : BitVec 5) : Bool :=
  match tensorOf (myLaunch s) (sTensor (wreg (me s) w.toNat)) with
  | some t => t.kind != 0
  | none => false

/-- The wait of a stream access that takes a scoreboard entry. -/
def streamBoard (s : State) (w : BitVec 5) : Found := boardFound s (if offDie s w then 1 else 0)

/-- A FIFO binding of the running context as sink (R306, R356). -/
def popKind (l : Launch) (k q : Nat) : Option (List Nat) :=
  l.fifos.find? (fun f => (nth f 0 0 == 1 || nth f 0 0 == 3) && nth f 3 0 == k && nth f 4 0 % 32 == q)

/-- The checks of a fill request's bytes; a count of 0 rows lies outside the field's range (R279, log 115). -/
def fillReqFound (s : State) (v : Row) : Found :=
  let c := me s
  let m := fld v 16 3
  let first := fld v 24 8
  let rows := fld v 32 16
  let f := fld v 48 8
  let off := fld v 64 48
  let cc := containerBits f
  match tensorOf (myLaunch s) (fld v 0 16) with
  | none => need false 2
  | some t =>
    allOf [need (t.kind == 1) 2, need (bit c.grant.macros m) 2, need (decide (first + rows ≤ 256 ∧ 1 ≤ rows)) 2,
      need (decide (f ≤ 0x0F)) 2, need (rows % (64 / cc) == 0) 2, need (off % 512 == 0) 2,
      need (decide ((off + rows * 8 * cc - 1) / 65536 < t.tiles)) 2, need (!(macroOf c m).scratch) 2]

/-- PUSH's checks (R199, R279). -/
def pushFound (s : State) (q : BitVec 5) (v : Option Row) : Found :=
  match pushKind (myLaunch s) (me s).k q.toNat with
  | none => need false 2
  | some b =>
    both (boardFound s 1)
      (if nth b 0 0 = 2 then (match v with | none => need false 2 | some r => fillReqFound s r) else fine)

/-- POP's checks (R200). -/
def popFound (s : State) (q : BitVec 5) : Found :=
  both (need (popKind (myLaunch s) (me s).k q.toNat).isSome 2) (boardFound s 1)

/-- Whether a FIFO of the running context is a commit FIFO, which only the vector form of POP may take (R363). -/
def commitFifo (s : State) (q : BitVec 5) : Bool :=
  (popKind (myLaunch s) (me s).k q.toNat).elim false (fun b => nth b 0 0 == 3)

/-- The element offsets of the 64 rows of a SPILL or FILL (R201). -/
def spillOffs (w : WReg) : List Int := (List.range 64).map (fun r => sOffset (advance w 0 r))

/-- The checks of SPILL and FILL (R201, R245). -/
def spillFound (s : State) (tok : BitVec 6) (tile : BitVec 5) (wn : BitVec 5) (store : Bool) : Found :=
  let c := me s
  let w := wreg c wn.toNat
  let l := myLaunch s
  let pending := c.ops.any (fun o => !o.performed &&
    (match o.kind with | .spill t _ _ _ _ => t == tok.toNat | .fill t _ _ _ => t == tok.toNat | _ => false))
  if descBad l w then need false 2
  else
    match tensorOf l (sTensor w) with
    | none => need false 2
    | some t =>
      allOf [need (!pending) 2, need (t.kind != 0) 2, need (!store || !namesFramed l w) 2,
        need ((spillOffs w).all (fun o => o * containerBits t.fmt % 8 == 0)) 2,
        locks c (if store then [tile.toNat] else []) (if store then [] else [tile.toNat]), boardFound s 1,
        if store then poisonRows s ((List.range 64).map (64 * tile.toNat + ·)) else fine]

/-- The checks of a pending shadow fill: a failed one raises 0x12, a pending one waits (R274, R280). -/
def fillFound (c : Ctx) (mask : BitVec 8) : Found :=
  allOf ((List.range 8).map (fun m =>
    if bit mask m then
      let x := macroOf c m
      both (need x.fillFailed.isNone 0x12) (waitIf x.fillOn.isSome (.fill m) ((x.fillOn.map (·.1)).getD 0))
    else fine))

/-- Occupation of macro parts by earlier CIM instructions: active bank, shadow bank, accumulators (R219). -/
def busyFound (s : State) (mask : BitVec 8) (act shad acc : Bool) : Found :=
  allOf ((List.range 8).map (fun m =>
    if bit mask m then
      let x := (macroOf (me s) m).time
      allOf [needBy (!act || decide (x.busyActive.1 ≤ s.cur.cycle)) 3 x.busyActive.2,
        needBy (!shad || decide (x.busyShadow.1 ≤ s.cur.cycle)) 3 x.busyShadow.2,
        needBy (!acc || decide (x.busyAcc.1 ≤ s.cur.cycle)) 3 x.busyAcc.2]
    else fine))

/-- The scratch parity that every CMAC checks: a bad row of an active bank in scratch mode (R234, R405). -/
def parityFound (s : State) (mask : BitVec 8) : Found :=
  ((List.range 8).filterMap (fun m =>
    let x := macroOf (me s) m
    if bit mask m && x.scratch then x.active.badRows.head?.map (fun r => (0x30, errInfo 9 (m * 512 + r) 0xFFF 1)) else none), [])

/-- One macro as a mask. -/
def cmMask (m : BitVec 3) : BitVec 8 := BitVec.ofNat 8 (2 ^ m.toNat)

/-- The lane directions of R216: bays 0, 1, 6, 7 clockwise, bays 2 to 5 anticlockwise. -/
def mmaLaneOk (bay : BitVec 3) (lane : BitVec 4) : Bool :=
  if bay.toNat < 2 ∨ 5 < bay.toNat then lane.toNat < 8 else 8 ≤ lane.toNat

/-- The array window length in force (R38). -/
def mxLen (st : Stable) : Nat := 2 ^ st.mxwin.toNat

/-- The Stall that owns a Yard cycle's window (R40). -/
def windowOwner (st : Stable) (y : Nat) : Nat := y / mxLen st % 2

/-- Whether an MMA variant accumulates in FP32 (R53, R217): variants in code order, scaled or not. -/
def mmaFp32 (v : Nat) (sc : Bool) : Bool := sc || 3 ≤ v

/-- Result rows of an MMA (R214). -/
def mmaRows (v : Nat) (sc : Bool) : Nat := if mmaFp32 v sc then 2 else 4

/-- The elements K of an operand row (R213). -/
def mmaK (v : Nat) : Nat := if v = 6 ∨ v = 7 then 32 else 64

/-- The Yard cycle of a bay access: the one it was made in, or the one its context comes to (R216). -/
def useYard (s : State) (u : BayUse) : Int := match u.made with | some y => y | none => yardShift s u.ctx + u.cycle

/-- A bay access of the MMA's class that falls in its window, already issued by either Stall (R216). -/
def mmaClash (s : State) (abay bbay : BitVec 3) : Option BayUse :=
  let st := stableAt s (stableOf s.cur.ctx)
  let y := yardNow s s.cur.ctx
  let w0 := y / mxLen st * mxLen st
  st.uses.find? (fun u => sameClass u.ctx s.cur.ctx && (u.bay == abay.toNat || u.bay == bbay.toNat) &&
    (let t := useYard s u; decide ((w0 : Int) ≤ t) && decide (t < w0 + mxLen st)))

/-- The result rows of an MMA lie in the grant, whatever its predicate (R26, R214, R269). -/
def mmaRowsOk (s : State) (v : Nat) (vd : BitVec 11) (sc : BitVec 1) : Found :=
  need (decide (vd.toNat + mmaRows v (sc == 1#1) ≤ 64 * (me s).grant.tiles)) 2

/-- The checks of MMA and MMAZ beside their result rows' grant (R213 to R217). -/
def mmaFound (s : State) (v : Nat) (vd : BitVec 11) (abay : BitVec 3) (aoff : BitVec 12) (bbay : BitVec 3)
    (boff : BitVec 12) (alane blane : BitVec 4) (sc : BitVec 1) : Found :=
  let c := me s
  let st := stableAt s (stableOf s.cur.ctx)
  let scaled := sc == 1#1
  let n := mmaRows v scaled
  let t := vd.toNat / 64
  let l := tagBlock c t
  let k := mmaK v
  let tiles := if vd.toNat / 64 = (vd.toNat + n - 1) / 64 then [vd.toNat / 64] else [vd.toNat / 64, (vd.toNat + n - 1) / 64]
  let y := yardNow s s.cur.ctx
  allOf [locks c tiles tiles,
    need (inExtent (myLaunch s) abay.toNat (aoff.toNat * 64 : Nat) 1024 && inExtent (myLaunch s) bbay.toNat (boff.toNat * 64 : Nat) 1024) 2,
    need (decide (abay.toNat < 4 ∧ 4 ≤ bbay.toNat) && mmaLaneOk abay alane && mmaLaneOk bbay blane) 3,
    (match mmaClash s abay bbay with | some u => clash 3 (ownSrc s u.ctx u.src) | none => fine),
    (if slotOf s.cur.ctx == 1 || windowOwner st y == stallOf s.cur.ctx % 2 then fine else clash 4 0),
    if scaled then
      if v = 1 then need false 2
      else if !tagCurrent c t then need false 6
      else both (need (tagAxis c t == 0 && decide (16 ≤ l ∧ l ≤ k ∧ k / l ≤ 2)) 2) (poisonTag s t)
    else fine]

/-- VCVT.k's checks: the tag is current, and, where it is bound, the highest scale entry that its geometry uses exists (R60, R93, R162). -/
def vcvtkFound (s : State) (va : BitVec 13) (sfmt dfmt : BitVec 5) : Found :=
  let c := me s
  let t := vtile va
  let cs := containerBits sfmt.toNat
  let n := 4096 / max cs (containerBits dfmt.toNat)
  allOf [need (tagCurrent c t) 6, need (!bit (tagOf c t) 31 || (List.range n).all (fun e => decide (scaleEntry c va cs e < 64))) 2,
    (if tagCurrent c t then poisonTag s t else fine)]

/-- Whether the steer bit of a tap lets TAPS write; with 0 it writes nothing and raises nothing (R35, R184, log 108). -/
def steers (s : State) (tap : BitVec 3) : Bool := bit (tapOf (me s) tap.toNat).cfg 19

/-- What TAPP and TAPS are checked for whatever the predicate: the taps are owned, and, where `on`, the row range lies in the grant (R26,
R182, R184, R186, log 108). -/
def tapGrant (s : State) (va : BitVec 13) (rows : BitVec 11) (on : Bool) : Found :=
  both (need ((me s).grant.taps != 0) 2) (need (!on || decide (vnum va + (rows.toNat + 1) ≤ 64 * (me s).grant.tiles)) 2)

/-- The checks of TAPP and TAPS beside their grants: the sequence, the count of rows, the tiles and the poison of the range (R182, R184,
R201); `write` where the rows are written too (log 108). -/
def tapFound (s : State) (tap seq : BitVec 3) (va : BitVec 13) (rows : BitVec 11) (write : Bool) : Found :=
  let c := me s
  let t := tapOf c tap.toNat
  let n := rows.toNat + 1
  let tiles := ((List.range n).map (fun r => (vnum va + r) / 64)).eraseDups
  allOf [need (decide (seq.toNat ≤ fld t.cfg 15 3)) 2, need (decide (n * 128 = t.dim)) 2, locks c tiles (if write then tiles else []),
    poisonRows s ((List.range n).map (vnum va + ·))]

/-- The byte address of the probe-table entry that a configuration word names (R35, R180, R412). -/
def tapEntryAddr (s : State) (w : Word) : Nat := (ioCsr s 0x810).toNat + 36864 * fld w 0 12

/-- Whether byte `i` of a probe-table entry of length d is reserved (R180). -/
def tapReserved (d i : Nat) : Bool :=
  (9 ≤ i && i < 64) || (64 + 2 * d ≤ i && i < 16448) || 16448 + 2 * d ≤ i

/-- TAPLD's checks, once its copy is complete: the entry's words, its fields and its position (R181, R384, log 42). -/
def tapldFound (s : State) (w : Word) : Found :=
  let a := tapEntryAddr s w
  let d := readLe s.dev a 2
  let pos := readLe s.dev (a + 2) 1
  if !(me s).probeOk then waitIf true .copy 0
  else
    both
      (need (decide (128 ≤ d ∧ d ≤ 8192 ∧ d % 128 = 0 ∧ pos ≤ 1 ∧ readLe s.dev (a + 3) 1 ≤ 7 ∧ readLe s.dev (a + 8) 1 ≤ 1) &&
        s.dev.all (fun e => e.2 == 0 || !(decide (a ≤ e.1 ∧ e.1 < a + 36864) && tapReserved d (e.1 - a)))) 2)
      (both (need (pos == fld w 18 1) 0x14) (match poisonIn s 0x18 0 64 (a % 2 ^ 39) 36864 with | some i => ([(0x30, i)], []) | none => fine))

/-- The source formats of scale arithmetic must be set (R173). -/
def setFmt (s : State) (ks : List (BitVec 8)) : Found := need (ks.all (fun k => kfmt (kreg (me s) k.toNat) != 0)) 6

/-- A bad accumulator of a macro, consumed by CREAD (R384). -/
def accFound (s : State) (m : BitVec 3) : Found :=
  ((s.marks.filter (fun x => x.bad && x.struct == 0x0A && x.owner == s.cur.ctx && x.unit / 64 == m.toNat)).map
    (fun x => (0x30, errInfo 0x0A x.unit 0xFFF 1)), [])

/-- The scale geometry CREAD.k needs: a current tag whose geometry fits the split in force (R224). -/
def creadkFound (s : State) (m : BitVec 3) : Found :=
  let c := me s
  let t := bankTag m.toNat 0
  let g := if tagAxis c t = 1 ∧ tagBlock c t ≤ 128 then 256 / tagBlock c t else 1
  let split := match (macroOf c m.toNat).time.split with | some x => x.1 | none => 1
  if !tagCurrent c t then need false 6
  else both (need (g == split) 6) (poisonTag s t)

/-- The end of an XFER at a bay stays inside it (R202). -/
def xferBayOk (pos : BitVec 4) (addr : BitVec 12) : Bool := pos.toNat % 2 == 1 || decide (addr.toNat ≤ 4088)

/-- The round traffic of an XFER (R188, R202, R230). -/
def xferTraffic (frm dest lane : BitVec 4) (fa ta : BitVec 12) : Traffic :=
  let h := hops lane.toNat frm.toNat dest.toNat
  ((if frm.toNat % 2 = 0 then [⟨frm.toNat / 2, fa.toNat * 64, 512, 0⟩] else []) ++
     (if dest.toNat % 2 = 0 then [⟨dest.toNat / 2, ta.toNat * 64, 512, h + 1⟩] else []),
   [⟨lane.toNat, frm.toNat, h, 0, 8⟩])

/-- The vector rows that an XFER names lie in the grant (R26, R114). -/
def xferRows (s : State) (frm dest : BitVec 4) (fa ta : BitVec 12) : Bool :=
  let row (p : BitVec 4) (a : BitVec 12) : Bool := p.toNat != portPos s.cur.ctx || decide (a.toNat < 64 * (me s).grant.tiles)
  row frm fa && row dest ta

/-- XFER's checks at issue: the bays (R202), the tiles (R201), poison in a source row (R384), the extents and the lane (log 96). -/
def xferFound (s : State) (frm dest lane : BitVec 4) (fa ta : BitVec 12) : Found :=
  let own := portPos s.cur.ctx
  allOf [need (xferBayOk frm fa && xferBayOk dest ta) 2,
    locks (me s) (if frm.toNat = own then [fa.toNat / 64] else []) (if dest.toNat = own then [ta.toNat / 64] else []),
    if frm.toNat = own then poisonRows s [fa.toNat] else fine,
    trafficFound s (xferTraffic frm dest lane fa ta)]

/-- XFER names no port of the other Stall (R114, log 96). -/
def xferOwn (s : State) (frm dest : BitVec 4) : Bool :=
  let other := 10 - portPos s.cur.ctx
  frm.toNat != other && dest.toNat != other

/-- REDS names a semaphore of the launch's grant, whatever the predicate (R26, R210, R269). -/
def redsSem (s : State) (sem : BitVec 6) : Found := need (bit (myLaunch s).semmask sem.toNat) 2

/-- REDS's checks beside its semaphore (R210, log 97). -/
def redsFound (s : State) (t : Word) (vec : Bool) : Found :=
  let l := myLaunch s
  let off := fld t 0 18
  allOf [need (decide (fld t 24 8 < stableCount l)) 2, need (off % (if vec then 64 else 4) == 0) 2,
    need (inExtent l (fld t 18 3) (off : Nat) (if vec then 512 else 4)) 2]

/-- A station move on its way: when it arrives, its order, its port, its word and its access; of one whose bay is still to be read, the word
that stands there now (R209, log 35). -/
def comingMove (s : State) (c : Nat) (f : Flight) : Option (Nat × Nat × Nat × Word × Option Nat) :=
  match f.eff with
  | .move p v op => some (f.due, f.ord, p, v, op)
  | .read bay off n lands (.port p op) => some (lands, f.ord, p, BitVec.ofNat 64 (leNat (roundRead s (stableOf c) bay off n)), op)
  | _ => none

/-- The DX source word that a context's trigger will find: the last parameter move on its way that arrives by then, else the word held
(R204, log 35). -/
def comingSrc (s : State) (c arrive : Nat) : Word :=
  let ms := ((ctxOf s c).flight.filterMap (comingMove s c)).filter (fun m => m.2.2.1 == 0 && decide (m.1 ≤ arrive))
  match (sortBy (fun m => m.1 * 2 ^ 64 + m.2.1) ms).reverse with
  | m :: _ => m.2.2.2.1
  | [] => mget (ctxOf s c).station 0 0

/-- Whether a port is one of DX's triggers (R203). -/
def dxTrigger (port : Nat) : Bool := port == 0x10 || port == 0x11

/-- Whether a move to a station port is a trigger that starts a DX job from a tensor: a variable-latency operation from its issue (R140,
R254, R274, log 35). -/
def leavesDie (s : State) (port arrive : Nat) : Bool :=
  dxTrigger port && fld (comingSrc s s.cur.ctx arrive) 48 16 != 0

/-- The accesses of triggers on their way are looked at again, as more is known of the source that each will find: one that will read a tensor
stands in the station queue from its trigger's issue on (R140, R254, R258, log 35). -/
def foreseeDx (s : State) (c : Nat) : State :=
  if (ctxOf s c).ops.all (fun o => !undecided o) then s
  else
    let due := ((ctxOf s c).flight.filterMap (comingMove s c)).filter (fun m => fld (comingSrc s c m.1) 48 16 != 0)
    modCtx s c (fun x => { x with ops := x.ops.map (fun o =>
      if undecided o && due.any (fun m => m.2.2.2.2 == some o.id) then { o with performed := false, landed := true } else o) })

/-- The context cycle in which a MOVP from the round arrives (R188). -/
def movpArrive (s : State) (bay : BitVec 3) (lane : BitVec 4) (port : BitVec 8) : Nat :=
  s.cur.cycle + 4 + hops lane.toNat (bayPos bay.toNat) ([5, 7, 11, 13].getD (port.toNat / 32) 5)

/-- The context cycle in which a MOVP from a scalar arrives (R188). -/
def movpsArrive (s : State) (lane : BitVec 4) (port : BitVec 8) : Nat :=
  s.cur.cycle + 2 + hops lane.toNat (portPos s.cur.ctx) ([5, 7, 11, 13].getD (port.toNat / 32) 5)

/-- Whether an XFER is such a trigger (R202). -/
def xferLeaves (s : State) (frm dest lane : BitVec 4) (ta : BitVec 12) : Bool :=
  dest.toNat == 5 && leavesDie s (ta.toNat % 32) (s.cur.cycle + hops lane.toNat frm.toNat dest.toNat + 1)

/-- The wait for the entry that such a trigger takes (R274). -/
def triggerBoard (s : State) (leaves : Bool) : Found := boardFound s (if leaves then 1 else 0)

/-- The traffic of a MOVP from the round: bay to station (R188, R230). -/
def movpTraffic (bay : BitVec 3) (off : BitVec 12) (lane : BitVec 4) (port : BitVec 8) : Traffic :=
  let dst := [5, 7, 11, 13].getD (port.toNat / 32) 5
  ([⟨bay.toNat, off.toNat * 64, 64, 2⟩], [⟨lane.toNat, bayPos bay.toNat, hops lane.toNat (bayPos bay.toNat) dst, 2, 1⟩])

/-- The traffic of a MOVP from a scalar: Stall port to station (R188, R230). -/
def movpsTraffic (s : State) (lane : BitVec 4) (port : BitVec 8) : Traffic :=
  let dst := [5, 7, 11, 13].getD (port.toNat / 32) 5
  ([], [⟨lane.toNat, portPos s.cur.ctx, hops lane.toNat (portPos s.cur.ctx) dst, 0, 1⟩])

end Sys2Proof.Machine
end

