-- ==== Sys2Proof/Machine/CheckOps.lean ====
section
/-!
DEFINITION. The check of every slot operation, one arm each: what always holds (R26, R101), its vector destinations and
sources, the scale registers it reads, and what its own rules add when its predicate is true.
-/

namespace Sys2Proof.Machine

/-- The check of a slot operation of S, VA, VB, M, L or Y in the running bundle; an event passes none (log 37). -/
def checkI (s : State) : Instr → Check
  | .nop p => common s (0#2 ++ p) [] [] [] fine fine
  | .bar p group => common s (0#2 ++ p) [] [] [] fine (barFound s group.toNat)
  | .rdv p group => common s (0#2 ++ p) [] [] [] fine (rdvFound s group.toNat)
  | .waitdImm p count => common s (0#2 ++ p) [] [] [] fine (waitdFound s count.toNat)
  | .waitdScalar p a => common s (0#2 ++ p) [] [] [] fine (waitdFound s (min (sreg (me s) a.toNat).toNat 65535))
  | .fence p scope => common s (0#2 ++ p) [] [] [] (illegalUnless (scope != 9 || isSvc s.cur.ctx)) fine
  | .semsig p _ sem => common s (0#2 ++ p) [] [] [] (need (semOk (me s) sem.toNat) 2) fine
  | .semsigScalar p _ a => common s (0#2 ++ p) [] [] [] fine (need (semOk (me s) (fld (sreg (me s) a.toNat) 0 6)) 2)
  | .semwait p c sem => common s (0#2 ++ p) [] [] [] (need (semOk (me s) sem.toNat) 2) (semwaitFound s sem.toNat (c.toNat + 1))
  | .yield p => common s (0#2 ++ p) [] [] [] (illegalUnless s.cur.yieldMark) fine
  | .svc p _ => common s (0#2 ++ p) [] [] [] fine fine
  | .trap p _ => common s (0#2 ++ p) [] [] [] fine fine
  | .halt p => common s (0#2 ++ p) [] [] [] fine fine
  | .probe p b a => common s (0#2 ++ p) [] [] [] fine (probeFound s (sreg (me s) a.toNat) (sreg (me s) b.toNat))
  | .discard p b a => common s (0#2 ++ p) [] [] [] fine (rangeFound s (sreg (me s) a.toNat) (sreg (me s) b.toNat))
  | .exit p => common s (0#2 ++ p) [] [] [] fine fine
  | .add p _ _ _ => common s p [] [] [] fine fine
  | .sub p _ _ _ => common s p [] [] [] fine fine
  | .mul p _ _ _ => common s p [] [] [] fine fine
  | .mulh p _ _ _ => common s p [] [] [] fine fine
  | .mulhs p _ _ _ => common s p [] [] [] fine fine
  | .div p _ _ _ => common s p [] [] [] fine fine
  | .divs p _ _ _ => common s p [] [] [] fine fine
  | .rem p _ _ _ => common s p [] [] [] fine fine
  | .and p _ _ _ => common s p [] [] [] fine fine
  | .or p _ _ _ => common s p [] [] [] fine fine
  | .xor p _ _ _ => common s p [] [] [] fine fine
  | .andn p _ _ _ => common s p [] [] [] fine fine
  | .shl p _ _ _ => common s p [] [] [] fine fine
  | .shr p _ _ _ => common s p [] [] [] fine fine
  | .sar p _ _ _ => common s p [] [] [] fine fine
  | .rotl p _ _ _ => common s p [] [] [] fine fine
  | .min p _ _ _ => common s p [] [] [] fine fine
  | .max p _ _ _ => common s p [] [] [] fine fine
  | .mins p _ _ _ => common s p [] [] [] fine fine
  | .maxs p _ _ _ => common s p [] [] [] fine fine
  | .addsh p _ _ _ _ => common s p [] [] [] fine fine
  | .clz p _ _ => common s p [] [] [] fine fine
  | .popc p _ _ => common s p [] [] [] fine fine
  | .sel p _ _ _ _ => common s p [] [] [] fine fine
  | .addi p _ _ _ _ => common s p [] [] [] fine fine
  | .mulImm p _ _ _ _ => common s p [] [] [] fine fine
  | .andImm p _ _ _ _ => common s p [] [] [] fine fine
  | .orImm p _ _ _ _ => common s p [] [] [] fine fine
  | .xorImm p _ _ _ _ => common s p [] [] [] fine fine
  | .shlImm p _ _ _ _ => common s p [] [] [] fine fine
  | .shrImm p _ _ _ _ => common s p [] [] [] fine fine
  | .sarImm p _ _ _ _ => common s p [] [] [] fine fine
  | .rotlImm p _ _ _ _ => common s p [] [] [] fine fine
  | .minImm p _ _ _ _ => common s p [] [] [] fine fine
  | .maxImm p _ _ _ _ => common s p [] [] [] fine fine
  | .minsImm p _ _ _ _ => common s p [] [] [] fine fine
  | .maxsImm p _ _ _ _ => common s p [] [] [] fine fine
  | .cmpeq p _ _ _ => common s p [] [] [] fine fine
  | .cmpne p _ _ _ => common s p [] [] [] fine fine
  | .cmplt p _ _ _ => common s p [] [] [] fine fine
  | .cmplts p _ _ _ => common s p [] [] [] fine fine
  | .cmple p _ _ _ => common s p [] [] [] fine fine
  | .cmples p _ _ _ => common s p [] [] [] fine fine
  | .cmpeqImm p _ _ _ _ => common s p [] [] [] fine fine
  | .cmpneImm p _ _ _ _ => common s p [] [] [] fine fine
  | .cmpltImm p _ _ _ _ => common s p [] [] [] fine fine
  | .cmpltsImm p _ _ _ _ => common s p [] [] [] fine fine
  | .cmpleImm p _ _ _ _ => common s p [] [] [] fine fine
  | .cmplesImm p _ _ _ _ => common s p [] [] [] fine fine
  | .li p _ _ _ => common s p [] [] [] fine fine
  | .liLong p _ _ => common s p [] [] [] fine fine
  | .pset p _ _ => common s p [] [] [] fine fine
  | .pand p _ _ _ _ _ => common s p [] [] [] fine fine
  | .por p _ _ _ _ _ => common s p [] [] [] fine fine
  | .pxor p _ _ _ _ _ => common s p [] [] [] fine fine
  | .pnot p _ _ => common s p [] [] [] fine fine
  | .br p target => common s p [] [] [] fine (targetOk s target.toNat)
  | .brScalar p a => common s p [] [] [] fine (targetOk s (sreg (me s) a.toNat).toNat)
  | .bc p a b cond target => common s p [] [] [] fine (if compare cond.toNat (sreg (me s) a.toNat) (sreg (me s) b.toNat) then targetOk s target.toNat else fine)
  | .call p _ target => common s p [] [] [] fine (targetOk s target.toNat)
  | .ret p a => common s p [] [] [] fine (targetOk s (sreg (me s) a.toNat).toNat)
  | .loopScalar p a len => common s p [] [] [] fine (loopFound s len.toNat ((sreg (me s) a.toNat).truncate 32))
  | .loopNbound p n len => common s p [] [] [] fine (loopFound s len.toNat (nreg (me s) n.toNat))
  | .loopImm p count len => common s p [] [] [] fine (loopFound s len.toNat (count.setWidth 32))
  | .lexit p => common s p [] [] [] fine (match (me s).loops with | [] => need false 2 | e :: _ => targetOk s (e.start + e.len))
  | .lidx p _ _ => common s p [] [] [] fine fine
  | .csrr p _ csr => common s p [] [] [] (illegalUnless (csr.toNat < 0x800 || isSvc s.cur.ctx))
      (waitIf (decide (0x808 ≤ csr.toNat) && !(me s).probeOk) .csr 0)
  | .csrw p _ csr => common s p [] [] [] (illegalUnless (csr.toNat < 0x800 || isSvc s.cur.ctx)) fine
  | .csrwImm p _ csr => common s p [] [] [] (illegalUnless (csr.toNat < 0x800 || isSvc s.cur.ctx)) fine
  | .nbnd p _ _ => common s p [] [] [] fine fine
  | .nbndImm p _ _ => common s p [] [] [] fine fine
  | .vadd p vd va vb => common s p [vd] [va, vb] [] fine fine
  | .vsub p vd va vb => common s p [vd] [va, vb] [] fine fine
  | .vmul p vd va vb => common s p [vd] [va, vb] [] fine fine
  | .vmin p vd va vb => common s p [vd] [va, vb] [] fine fine
  | .vmax p vd va vb => common s p [vd] [va, vb] [] fine fine
  | .vfma p vd va vb vc => common s p [vd] [va, vb, vc] [] fine fine
  | .vfms p vd va vb vc => common s p [vd] [va, vb, vc] [] fine fine
  | .vfnma p vd va vb vc => common s p [vd] [va, vb, vc] [] fine fine
  | .vaddScalar p vd va _ => common s p [vd] [va] [] fine fine
  | .vsubScalar p vd va _ => common s p [vd] [va] [] fine fine
  | .vmulScalar p vd va _ => common s p [vd] [va] [] fine fine
  | .vminScalar p vd va _ => common s p [vd] [va] [] fine fine
  | .vmaxScalar p vd va _ => common s p [vd] [va] [] fine fine
  | .vfmaScalar p vd va _ vc => common s p [vd] [va, vc] [] fine fine
  | .vfmsScalar p vd va _ vc => common s p [vd] [va, vc] [] fine fine
  | .vfnmaScalar p vd va _ vc => common s p [vd] [va, vc] [] fine fine
  | .vabs p vd va => common s p [vd] [va] [] fine fine
  | .vneg p vd va => common s p [vd] [va] [] fine fine
  | .vrcp p vd va => common s p [vd] [va] [] fine fine
  | .vrsq p vd va => common s p [vd] [va] [] fine fine
  | .vexp2 p vd va => common s p [vd] [va] [] fine fine
  | .vlog2 p vd va => common s p [vd] [va] [] fine fine
  | .vclamp p vd va _ _ => common s p [vd] [va] [] fine fine
  | .vsel p vd va vb vc => common s p [vd] [va, vb, vc] [] fine fine
  | .vcmpeqF p vd va vb => common s p [vd] [va, vb] [] fine fine
  | .vcmpeqI p vd va vb => common s p [vd] [va, vb] [] fine fine
  | .vcmpltF p vd va vb => common s p [vd] [va, vb] [] fine fine
  | .vcmpltSi p vd va vb => common s p [vd] [va, vb] [] fine fine
  | .vcmpltUi p vd va vb => common s p [vd] [va, vb] [] fine fine
  | .vcmpleF p vd va vb => common s p [vd] [va, vb] [] fine fine
  | .vcmpleSi p vd va vb => common s p [vd] [va, vb] [] fine fine
  | .vcmpleUi p vd va vb => common s p [vd] [va, vb] [] fine fine
  | .viaddB p vd va vb => common s p [vd] [va, vb] [] fine fine
  | .viaddH p vd va vb => common s p [vd] [va, vb] [] fine fine
  | .viaddW p vd va vb => common s p [vd] [va, vb] [] fine fine
  | .visubB p vd va vb => common s p [vd] [va, vb] [] fine fine
  | .visubH p vd va vb => common s p [vd] [va, vb] [] fine fine
  | .visubW p vd va vb => common s p [vd] [va, vb] [] fine fine
  | .vimulB p vd va vb => common s p [vd] [va, vb] [] fine fine
  | .vimulH p vd va vb => common s p [vd] [va, vb] [] fine fine
  | .vimulW p vd va vb => common s p [vd] [va, vb] [] fine fine
  | .vimacB p vd va vb vc => common s p [vd] [va, vb, vc] [] fine fine
  | .vimacH p vd va vb vc => common s p [vd] [va, vb, vc] [] fine fine
  | .vimacW p vd va vb vc => common s p [vd] [va, vb, vc] [] fine fine
  | .vand p vd va vb => common s p [vd] [va, vb] [] fine fine
  | .vor p vd va vb => common s p [vd] [va, vb] [] fine fine
  | .vxor p vd va vb => common s p [vd] [va, vb] [] fine fine
  | .vpopc p vd va => common s p [vd] [va] [] fine fine
  | .viaddBScalar p vd va _ => common s p [vd] [va] [] fine fine
  | .viaddHScalar p vd va _ => common s p [vd] [va] [] fine fine
  | .viaddWScalar p vd va _ => common s p [vd] [va] [] fine fine
  | .visubBScalar p vd va _ => common s p [vd] [va] [] fine fine
  | .visubHScalar p vd va _ => common s p [vd] [va] [] fine fine
  | .visubWScalar p vd va _ => common s p [vd] [va] [] fine fine
  | .vimulBScalar p vd va _ => common s p [vd] [va] [] fine fine
  | .vimulHScalar p vd va _ => common s p [vd] [va] [] fine fine
  | .vimulWScalar p vd va _ => common s p [vd] [va] [] fine fine
  | .vimacBScalar p vd va _ vc => common s p [vd] [va, vc] [] fine fine
  | .vimacHScalar p vd va _ vc => common s p [vd] [va, vc] [] fine fine
  | .vimacWScalar p vd va _ vc => common s p [vd] [va, vc] [] fine fine
  | .vshlB p vd va _ => common s p [vd] [va] [] fine fine
  | .vshlH p vd va _ => common s p [vd] [va] [] fine fine
  | .vshlW p vd va _ => common s p [vd] [va] [] fine fine
  | .vshrB p vd va _ => common s p [vd] [va] [] fine fine
  | .vshrH p vd va _ => common s p [vd] [va] [] fine fine
  | .vshrW p vd va _ => common s p [vd] [va] [] fine fine
  | .vsarB p vd va _ => common s p [vd] [va] [] fine fine
  | .vsarH p vd va _ => common s p [vd] [va] [] fine fine
  | .vsarW p vd va _ => common s p [vd] [va] [] fine fine
  | .vcvt p vd va _ _ => common s p [vd] [va] [] fine fine
  | .vcvtK p vd va sfmt dfmt => common s p [vd] [va] [] fine (vcvtkFound s va sfmt dfmt)
  | .vpack p vd va vb _ => common s p [vd] [va, vb] [] fine fine
  | .vunpk p vd va _ _ => common s p [vd] [va] [] fine fine
  | .vperm p vd va vb => common s p [vd] [va, vb] [] fine fine
  | .vshuf p vd va vb _ => common s p [vd] [va, vb] [] fine fine
  | .vbcastScalar p vd _ _ => common s p [vd] [] [] fine fine
  | .vbcastElement p vd va _ _ => common s p [vd] [va] [] fine fine
  | .vextrImm p _ va _ _ => common s p [] [va] [] fine fine
  | .vextrScalar p _ va _ _ => common s p [] [va] [] fine fine
  | .vinsImm p vd va _ _ _ => common s p [vd] [va] [] fine fine
  | .vinsScalar p vd va _ _ _ => common s p [vd] [va] [] fine fine
  | .vmov p vd va => common s p [vd] [va] [] fine fine
  | .vrng p vd _ _ _ _ => common s p [vd] [] [] fine fine
  | .vrngF p vd _ _ _ _ => common s p [vd] [] [] fine fine
  | .tapp p tap seq va rows => common s p [] [va] [] (tapGrant s va rows true) (tapFound s tap seq va rows false)
  | .taps p tap seq va rows _ => common s p [] [] [] (both (need (vOk (me s) va) 2) (tapGrant s va rows (steers s tap))) (if steers s tap then tapFound s tap seq va rows true else fine)
  | .tapld p _ sa => common s p [] [] [] (illegalUnless (isSvc s.cur.ctx)) (tapldFound s (sreg (me s) sa.toNat))
  | .taprd p _ _ _ => common s p [] [] [] (need ((me s).grant.taps != 0) 2) fine
  | .vredsumF p vd va => common s p [vd] [va] [] fine fine
  | .vredsumI p vd va => common s p [vd] [va] [] fine fine
  | .vredmaxF p vd va => common s p [vd] [va] [] fine fine
  | .vredmaxSi p vd va => common s p [vd] [va] [] fine fine
  | .vredminF p vd va => common s p [vd] [va] [] fine fine
  | .vredminSi p vd va => common s p [vd] [va] [] fine fine
  | .vargmax p vd va => common s p [vd] [va] [] fine fine
  | .vscanF p vd va => common s p [vd] [va] [] fine fine
  | .vscanI p vd va => common s p [vd] [va] [] fine fine
  | .ksetImm p kd _ _ _ _ => common s p [] [] [] (need (kOk (me s) kd) 2) fine
  | .ksetScalar p kd _ _ _ _ => common s p [] [] [] (need (kOk (me s) kd) 2) fine
  | .kmov p kd ka => common s p [] [] [ka] (need (kOk (me s) kd) 2) fine
  | .kmul p kd ka kb => common s p [] [] [ka, kb] (need (kOk (me s) kd) 2) (setFmt s [ka, kb])
  | .kaddeImm p kd ka _ => common s p [] [] [ka] (need (kOk (me s) kd) 2) (setFmt s [ka])
  | .kaddeScalar p kd ka _ => common s p [] [] [ka] (need (kOk (me s) kd) 2) (setFmt s [ka])
  | .kmaxe p kd ka kb => common s p [] [] [ka, kb] (need (kOk (me s) kd) 2) (setFmt s [ka, kb])
  | .kcvtBf16 p kd ka => common s p [] [] [ka] (need (kOk (me s) kd) 2) (setFmt s [ka])
  | .kcvtE8m0 p kd ka => common s p [] [] [ka] (need (kOk (me s) kd) 2) (setFmt s [ka])
  | .kbindTile p tile ks _ _ => common s p [] [] [ks] (need (decide (tile.toNat < (me s).grant.tiles)) 2) (setFmt s [ks])
  | .kbindBank p cm _ ks _ _ => common s p [] [] [ks] (need (cmOk (me s) cm) 2) (setFmt s [ks])
  | .kunbindTile p tile => common s p [] [] [] (need (decide (tile.toNat < (me s).grant.tiles)) 2) fine
  | .kunbindBank p cm _ => common s p [] [] [] (need (cmOk (me s) cm) 2) fine
  | .krdRow p vd ks => common s p [vd] [] [ks] fine fine
  | .krdScalar p _ ks _ _ => common s p [] [] [ks] fine fine
  | .kwrRow p kd va => common s p [] [va] [] (need (kOk (me s) kd) 2) fine
  | .kwrScalar p kd _ _ => common s p [] [] [] (need (kOk (me s) kd) 2) fine
  | .kgen p kd va _ _ _ => common s p [] [va] [] (need (kOk (me s) kd) 2) fine
  | .mmaL6 p vd abay aoff bbay boff alane blane _ sc => common s p [] [] [] (mmaRowsOk s 0 vd sc) (allOf [mmaFound s 0 vd abay aoff bbay boff alane blane sc, poisonRows s ((List.range (mmaRows 0 (sc == 1#1))).map (vd.toNat + ·))])
  | .mmaI8 p vd abay aoff bbay boff alane blane _ sc => common s p [] [] [] (mmaRowsOk s 1 vd sc) (allOf [mmaFound s 1 vd abay aoff bbay boff alane blane sc, poisonRows s ((List.range (mmaRows 1 (sc == 1#1))).map (vd.toNat + ·))])
  | .mmaE4m3 p vd abay aoff bbay boff alane blane _ sc => common s p [] [] [] (mmaRowsOk s 2 vd sc) (allOf [mmaFound s 2 vd abay aoff bbay boff alane blane sc, poisonRows s ((List.range (mmaRows 2 (sc == 1#1))).map (vd.toNat + ·))])
  | .mmaE5m2 p vd abay aoff bbay boff alane blane _ sc => common s p [] [] [] (mmaRowsOk s 3 vd sc) (allOf [mmaFound s 3 vd abay aoff bbay boff alane blane sc, poisonRows s ((List.range (mmaRows 3 (sc == 1#1))).map (vd.toNat + ·))])
  | .mmaE4e5 p vd abay aoff bbay boff alane blane _ sc => common s p [] [] [] (mmaRowsOk s 4 vd sc) (allOf [mmaFound s 4 vd abay aoff bbay boff alane blane sc, poisonRows s ((List.range (mmaRows 4 (sc == 1#1))).map (vd.toNat + ·))])
  | .mmaE5e4 p vd abay aoff bbay boff alane blane _ sc => common s p [] [] [] (mmaRowsOk s 5 vd sc) (allOf [mmaFound s 5 vd abay aoff bbay boff alane blane sc, poisonRows s ((List.range (mmaRows 5 (sc == 1#1))).map (vd.toNat + ·))])
  | .mmaBf16 p vd abay aoff bbay boff alane blane _ sc => common s p [] [] [] (mmaRowsOk s 6 vd sc) (allOf [mmaFound s 6 vd abay aoff bbay boff alane blane sc, poisonRows s ((List.range (mmaRows 6 (sc == 1#1))).map (vd.toNat + ·))])
  | .mmaFp16 p vd abay aoff bbay boff alane blane _ sc => common s p [] [] [] (mmaRowsOk s 7 vd sc) (allOf [mmaFound s 7 vd abay aoff bbay boff alane blane sc, poisonRows s ((List.range (mmaRows 7 (sc == 1#1))).map (vd.toNat + ·))])
  | .mmazL6 p vd abay aoff bbay boff alane blane _ sc => common s p [] [] [] (mmaRowsOk s 0 vd sc) (mmaFound s 0 vd abay aoff bbay boff alane blane sc)
  | .mmazI8 p vd abay aoff bbay boff alane blane _ sc => common s p [] [] [] (mmaRowsOk s 1 vd sc) (mmaFound s 1 vd abay aoff bbay boff alane blane sc)
  | .mmazE4m3 p vd abay aoff bbay boff alane blane _ sc => common s p [] [] [] (mmaRowsOk s 2 vd sc) (mmaFound s 2 vd abay aoff bbay boff alane blane sc)
  | .mmazE5m2 p vd abay aoff bbay boff alane blane _ sc => common s p [] [] [] (mmaRowsOk s 3 vd sc) (mmaFound s 3 vd abay aoff bbay boff alane blane sc)
  | .mmazE4e5 p vd abay aoff bbay boff alane blane _ sc => common s p [] [] [] (mmaRowsOk s 4 vd sc) (mmaFound s 4 vd abay aoff bbay boff alane blane sc)
  | .mmazE5e4 p vd abay aoff bbay boff alane blane _ sc => common s p [] [] [] (mmaRowsOk s 5 vd sc) (mmaFound s 5 vd abay aoff bbay boff alane blane sc)
  | .mmazBf16 p vd abay aoff bbay boff alane blane _ sc => common s p [] [] [] (mmaRowsOk s 6 vd sc) (mmaFound s 6 vd abay aoff bbay boff alane blane sc)
  | .mmazFp16 p vd abay aoff bbay boff alane blane _ sc => common s p [] [] [] (mmaRowsOk s 7 vd sc) (mmaFound s 7 vd abay aoff bbay boff alane blane sc)
  | .mxhint p _ => common s p [] [] [] fine fine
  | .cmode p _ mask => common s p [] [] [] (need (maskOk (me s) mask) 2) (allOf [busyFound s mask true true false, fillFound (me s) mask])
  | .cloadRow p vs cm first wfmt => common s p [] [vs] [] (need (cmOk (me s) cm) 2) (allOf [need (decide (first.toNat + 64 / containerBits wfmt.toNat ≤ 256)) 2, busyFound s (cmMask cm) (macroOf (me s) cm.toNat).scratch (!(macroOf (me s) cm.toNat).scratch) false, (if (macroOf (me s) cm.toNat).scratch then fine else fillFound (me s) (cmMask cm))])
  | .cloadRound p bay off lane cm first wfmt => common s p [] [] [] (need (cmOk (me s) cm) 2) (allOf [need (decide (first.toNat + 64 / containerBits wfmt.toNat ≤ 256)) 2, busyFound s (cmMask cm) (macroOf (me s) cm.toNat).scratch (!(macroOf (me s) cm.toNat).scratch) false, (if (macroOf (me s) cm.toNat).scratch then fine else fillFound (me s) (cmMask cm)), trafficFound s (loadTraffic s bay (off.toNat * 64) 512 lane 2 8)])
  | .cswap p mask => common s p [] [] [] (need (maskOk (me s) mask) 2) (allOf [busyFound s mask true true false, fillFound (me s) mask])
  | .cmacRow p mask va _ _ _ => common s p [] [va] [] (need (maskOk (me s) mask) 2) (allOf [busyFound s mask true false false, parityFound s mask])
  | .cmacRound p mask bay off lane _ _ _ => common s p [] [] [] (need (maskOk (me s) mask) 2) (allOf [trafficFound s (loadTraffic s bay (off.toNat * 64) 512 lane 2 8), busyFound s mask true false false, parityFound s mask])
  | .cread p vd cm _ => common s p [vd] [] [] (need (cmOk (me s) cm) 2) (accFound s cm)
  | .creadK p vd cm _ => common s p [vd] [] [] (need (cmOk (me s) cm) 2) (allOf [accFound s cm, creadkFound s cm])
  | .cclr p mask => common s p [] [] [] (need (maskOk (me s) mask) 2) (busyFound s mask false false true)
  | .cchk p bank cm => common s p [] [] [] (need (cmOk (me s) cm) 2) (allOf [busyFound s (cmMask cm) (bank == 0) (bank == 1) false, (if bank == 1 && !(macroOf (me s) cm.toNat).scratch then fillFound (me s) (cmMask cm) else fine)])
  | .ld p vd w kd _ => common s p [vd] [] [] (need (wOk (me s) w) 2) (allOf [streamFound s w (groupCount (wreg (me s) w.toNat)) true true false, streamBoard s w, (if sStride (wreg (me s) w.toNat) != 0 then both (need (kOk (me s) kd) 2) fine else fine)])
  | .ldr p vd bay off lane => common s p [vd] [] [] fine (trafficFound s (loadTraffic s bay (off.toNat * 64) 512 lane 2 8))
  | .ldkStream p kd w _ => common s p [] [] [] (both (need (wOk (me s) w) 2) (need (kOk (me s) kd) 2)) (allOf [streamFound s w (groupCount (wreg (me s) w.toNat)) false true false, streamBoard s w])
  | .ldkRound p kd bay off lane => common s p [] [] [] (need (kOk (me s) kd) 2) (trafficFound s (loadTraffic s bay (off.toNat * 64) 128 lane 2 2))
  | .ldsRound p _ bay off8 lane => common s p [] [] [] fine (trafficFound s (loadTraffic s bay (off8.toNat * 8) 8 lane 2 1))
  | .ldsStream p _ w _ => common s p [] [] [] (need (wOk (me s) w) 2) (allOf [streamFound s w 1 true false false, streamBoard s w])
  | .popVector p vd q _ => common s p [vd] [] [] fine (popFound s q)
  | .popScalar p _ q _ => common s p [] [] [] fine (allOf [popFound s q, need (!commitFifo s q) 2])
  | .fill p tok tile w => common s p [] [] [] (allOf [need (wOk (me s) w) 2, need (decide (tile.toNat < (me s).grant.tiles)) 2]) (spillFound s tok tile w false)
  | _ => .ok

/-- The check of a W or C operation in the running bundle (log 97). -/
def checkX (s : State) : XOp → Check
  | .st p w vs ks => common s p [] [vs] [] (need (wOk (me s) w) 2) (allOf [streamFound s w (groupCount (wreg (me s) w.toNat)) true true true, streamBoard s w, (if sStride (wreg (me s) w.toNat) != 0 then both (need (kOk (me s) ks) 2) (poisonFound s [] [ks]) else fine)])
  | .str p bay off lane vs => common s p [] [vs] [] fine (trafficFound s (storeTraffic s bay (off.toNat * 64) 512 lane 1 8))
  | .stkStream p w ks => common s p [] [] [ks] (need (wOk (me s) w) 2) (allOf [streamFound s w (groupCount (wreg (me s) w.toNat)) false true true, streamBoard s w])
  | .stkRound p bay off lane ks => common s p [] [] [ks] fine (trafficFound s (storeTraffic s bay (off.toNat * 64) 128 lane 1 2))
  | .stsRound p bay off8 lane _ => common s p [] [] [] fine (trafficFound s (storeTraffic s bay (off8.toNat * 8) 8 lane 1 1))
  | .stsStream p w _ => common s p [] [] [] (need (wOk (me s) w) 2) (allOf [streamFound s w 1 true false true, streamBoard s w])
  | .pushVector p q vs => common s p [] [vs] [] fine (pushFound s q (some (readVec (me s) vs)))
  | .pushScalar p q _ => common s p [] [] [] fine (pushFound s q none)
  | .spill p tok tile w => common s p [] [] [] (allOf [need (wOk (me s) w) 2, need (decide (tile.toNat < (me s).grant.tiles)) 2]) (spillFound s tok tile w true)
  | .movpRound p bay off lane port => common s p [] [] [] fine (both (trafficFound s (movpTraffic bay off lane port)) (triggerBoard s (leavesDie s port.toNat (movpArrive s bay lane port))))
  | .movpScalar p _ port lane => common s p [] [] [] fine (both (trafficFound s (movpsTraffic s lane port)) (triggerBoard s (leavesDie s port.toNat (movpsArrive s lane port))))
  | .xfer p frm dest lane fromaddr toaddr => common s p [] [] [] (both (illegalUnless (xferOwn s frm dest)) (need (xferRows s frm dest fromaddr toaddr) 2)) (both (xferFound s frm dest lane fromaddr toaddr) (triggerBoard s (xferLeaves s frm dest lane toaddr)))
  | .redsVector p vs t _ _ sem => common s p [] [vs] [] (redsSem s sem) (redsFound s (sreg (me s) t.toNat) true)
  | .redsScalar p _ t _ _ sem => common s p [] [] [] (redsSem s sem) (redsFound s (sreg (me s) t.toNat) false)
  | .scfgTable p w entry => common s p [] [] [] (need (wOk (me s) w) 2) (need (decide (entry.toNat < (myLaunch s).streams.length)) 2)
  | .scfgScalar p w word a => common s p [] [] [] (need (wOk (me s) w) 2) (need (word != 0 || fmtOk (fld (sreg (me s) a.toNat) 16 5)) 1)
  | .sadv p w dim _ => common s p [] [] [] (need (wOk (me s) w) 2) (need (decide (dim.toNat < sDims (wreg (me s) w.toNat))) 2)
  | .srst p w => common s p [] [] [] (need (wOk (me s) w) 2) fine

/-- Whether a slot operation is legal where it stands: what R103, R114, R141 and R144 call illegal outside the service store, the yield bundle or
the context's own Stall. -/
def placeLegal (s : State) : SlotOp → Bool
  | .ins (.fence _ scope) => scope != 9 || isSvc s.cur.ctx
  | .ins (.yield _) => s.cur.yieldMark
  | .ins (.csrr _ _ csr) => csr.toNat < 0x800 || isSvc s.cur.ctx
  | .ins (.csrw _ _ csr) => csr.toNat < 0x800 || isSvc s.cur.ctx
  | .ins (.csrwImm _ _ csr) => csr.toNat < 0x800 || isSvc s.cur.ctx
  | .ins (.tapld _ _ _) => isSvc s.cur.ctx
  | .wc (.xfer _ frm dest _ _ _) => xferOwn s frm dest
  | _ => true

/-- The check of a decoded slot operation. -/
def checkOp (s : State) : SlotOp → Check
  | .ins i => checkI s i
  | .wc x => checkX s x

end Sys2Proof.Machine
end

