-- ==== Sys2Proof/Machine/Arith.lean ====
section
/-!
DEFINITION. FP32 lane arithmetic (R58), reductions and scans (R67 to R69), the reference algorithms of R63 to R66, the
matrix array's products and sums (R52 to R55, R61), column sums (R62) and random numbers (R70).
-/

namespace Sys2Proof.Machine

/-- A 32-bit lane result with its flags. -/
abbrev LaneR := BitVec 32 × Flags5

/-- rne(a + b) of R58. -/
def fadd (a b : BitVec 32) : LaneR := r32 (addV (f32 a) (f32 b))
/-- rne(a − b) of R58. -/
def fsub (a b : BitVec 32) : LaneR := r32 (addV (f32 a) (negV (f32 b)))
/-- rne(a × b) of R58. -/
def fmul (a b : BitVec 32) : LaneR := r32 (mulV (f32 a) (f32 b))
/-- rne(a × b + c), one rounding (R58). -/
def ffma (a b c : BitVec 32) : LaneR := r32 (addV (mulV (f32 a) (f32 b)) (f32 c))
/-- rne(a × b − c), one rounding (R58). -/
def ffms (a b c : BitVec 32) : LaneR := r32 (addV (mulV (f32 a) (f32 b)) (negV (f32 c)))
/-- rne(c − a × b), one rounding (R58). -/
def ffnma (a b c : BitVec 32) : LaneR := r32 (addV (f32 c) (negV (mulV (f32 a) (f32 b))))

/-- The canonical FP32 NaN (R46). -/
def nan32 : BitVec 32 := 0x7FC00000#32

/-- The flag of reading a signalling NaN (R57). -/
def snanFlag (a b : BitVec 32) : Flags5 := flagIf (isSNan (f32 a) || isSNan (f32 b)) fNV

/-- a < b with −0 below +0, for values that are not NaN (R58). -/
def ltTotal (a b : BitVec 32) : Bool :=
  ltV (f32 a) (f32 b) || (!ltV (f32 b) (f32 a) && bit a 31 && !bit b 31)

/-- VMIN of one lane (R58). -/
def fmin (a b : BitVec 32) : LaneR :=
  if isNan (f32 a) || isNan (f32 b) then (nan32, snanFlag a b) else (if ltTotal b a then b else a, 0)
/-- VMAX of one lane (R58). -/
def fmax (a b : BitVec 32) : LaneR :=
  if isNan (f32 a) || isNan (f32 b) then (nan32, snanFlag a b) else (if ltTotal a b then b else a, 0)

/-- VABS of one lane (R155). -/
def fabs (a : BitVec 32) : LaneR :=
  if isNan (f32 a) then (nan32, flagIf (isSNan (f32 a)) fNV) else (a &&& 0x7FFFFFFF#32, 0)
/-- VNEG of one lane (R155). -/
def fneg (a : BitVec 32) : LaneR :=
  if isNan (f32 a) then (nan32, flagIf (isSNan (f32 a)) fNV) else (a ^^^ 0x80000000#32, 0)

/-- The compare results of R157: all ones where the relation holds. -/
def maskOf (c : Bool) : BitVec 32 := if c then 0xFFFFFFFF#32 else 0#32
/-- FP32 equality of R157: −0 equals +0, false with a NaN; NV on a signalling NaN. -/
def fcmpEq (a b : BitVec 32) : LaneR :=
  (maskOf (!isNan (f32 a) && !isNan (f32 b) && !ltV (f32 a) (f32 b) && !ltV (f32 b) (f32 a)), snanFlag a b)
/-- FP32 a < b of R157; NV on any NaN. -/
def fcmpLt (a b : BitVec 32) : LaneR :=
  let n := isNan (f32 a) || isNan (f32 b)
  (maskOf (!n && ltV (f32 a) (f32 b)), flagIf n fNV)
/-- FP32 a ≤ b of R157; NV on any NaN. -/
def fcmpLe (a b : BitVec 32) : LaneR :=
  let n := isNan (f32 a) || isNan (f32 b)
  (maskOf (!n && !ltV (f32 b) (f32 a)), flagIf n fNV)

/-- One level of the pairwise tree of R67, with the flags of its additions. -/
def treeLevel : List (BitVec 32) → List (BitVec 32) × Flags5
  | a :: b :: r =>
    let s := fadd a b
    let t := treeLevel r
    (s.1 :: t.1, s.2 ||| t.2)
  | l => (l, 0)

/-- The tree of R67 over `lvl` levels. -/
def treeSum : Nat → List (BitVec 32) → LaneR
  | 0, l => (nth l 0 0, 0)
  | n + 1, l =>
    let t := treeLevel l
    let r := treeSum n t.1
    (r.1, t.2 ||| r.2)

/-- The lanes of a row in order. -/
def lanesOf (r : Row) : List (BitVec 32) := (List.range 128).map (lane r)

/-- VREDSUM.f (R67). -/
def redSumF (r : Row) : LaneR := treeSum 7 (lanesOf r)
/-- VREDSUM.i: the sum modulo 2^32 (R67). -/
def redSumI (r : Row) : BitVec 32 := (lanesOf r).foldl (· + ·) 0

/-- A left fold of a two-operand lane operation over a row, collecting flags (R68). -/
def redFold (f : BitVec 32 → BitVec 32 → LaneR) (r : Row) : LaneR :=
  match lanesOf r with
  | [] => (0, 0)
  | a :: l => l.foldl (fun acc b => let s := f acc.1 b; (s.1, acc.2 ||| s.2)) (a, 0)

/-- VREDMAX.f or VREDMIN.f: NaN if any lane is NaN, NV if any lane is signalling (R68). -/
def redExtF (f : BitVec 32 → BitVec 32 → LaneR) (r : Row) : LaneR :=
  let any := (lanesOf r).any (fun x => isNan (f32 x))
  let sig := (lanesOf r).any (fun x => isSNan (f32 x))
  (if any then nan32 else (redFold f r).1, flagIf sig fNV)

/-- The signed extreme of the lanes (R168). -/
def redExtS (max : Bool) (r : Row) : BitVec 32 :=
  (redFold (fun a b => (if (a.slt b) == max then b else a, 0)) r).1

/-- Whether lane value `b` ranks strictly above `a` in the order of VARGMAX (R68). -/
def argAbove (a b : BitVec 32) : Bool :=
  if isNan (f32 a) then false else if isNan (f32 b) then true else ltTotal a b

/-- The index VARGMAX chooses (R68). -/
def argMaxIdx (r : Row) : Nat :=
  ((List.range 128).foldl (fun best j => if argAbove (lane r best) (lane r j) then j else best) 0)

/-- One level of the scan of R69, `f` the addition. -/
def scanLevel (f : BitVec 32 → BitVec 32 → LaneR) (d : Nat) (l : List (BitVec 32)) : List LaneR :=
  (List.replicate d (none : Option (BitVec 32)) ++ l.map some).zipWith
    (fun p x => match p with | none => (x, 0) | some y => f y x) l

/-- The inclusive prefix of R69, seven levels. -/
def scanRow (f : BitVec 32 → BitVec 32 → LaneR) (r : Row) : List (BitVec 32) × Flags5 :=
  [1, 2, 4, 8, 16, 32, 64].foldl
    (fun acc d =>
      let t := scanLevel f d acc.1
      (t.map (·.1), t.foldl (fun g x => g ||| x.2) acc.2))
    (lanesOf r, 0)

/-- EXPT of R63: 2^(j/64) rounded by rne to FP32. -/
def tableExp : List Nat :=
  [0x3F800000, 0x3F8164D2, 0x3F82CD87, 0x3F843A29, 0x3F85AAC3, 0x3F871F62, 0x3F88980F, 0x3F8A14D5] ++
  [0x3F8B95C2, 0x3F8D1ADF, 0x3F8EA43A, 0x3F9031DC, 0x3F91C3D3, 0x3F935A2B, 0x3F94F4F0, 0x3F96942D] ++
  [0x3F9837F0, 0x3F99E046, 0x3F9B8D3A, 0x3F9D3EDA, 0x3F9EF532, 0x3FA0B051, 0x3FA27043, 0x3FA43516] ++
  [0x3FA5FED7, 0x3FA7CD94, 0x3FA9A15B, 0x3FAB7A3A, 0x3FAD583F, 0x3FAF3B79, 0x3FB123F6, 0x3FB311C4] ++
  [0x3FB504F3, 0x3FB6FD92, 0x3FB8FBAF, 0x3FBAFF5B, 0x3FBD08A4, 0x3FBF179A, 0x3FC12C4D, 0x3FC346CD] ++
  [0x3FC5672A, 0x3FC78D75, 0x3FC9B9BE, 0x3FCBEC15, 0x3FCE248C, 0x3FD06334, 0x3FD2A81E, 0x3FD4F35B] ++
  [0x3FD744FD, 0x3FD99D16, 0x3FDBFBB8, 0x3FDE60F5, 0x3FE0CCDF, 0x3FE33F89, 0x3FE5B907, 0x3FE8396A] ++
  [0x3FEAC0C7, 0x3FED4F30, 0x3FEFE4BA, 0x3FF28177, 0x3FF5257D, 0x3FF7D0DF, 0x3FFA83B3, 0x3FFD3E0C]

/-- INVT of R63: 1 ÷ (1 + j/64). -/
def tableInv : List Nat :=
  [0x3F800000, 0x3F7C0FC1, 0x3F783E10, 0x3F74898D, 0x3F70F0F1, 0x3F6D7304, 0x3F6A0EA1, 0x3F66C2B4] ++
  [0x3F638E39, 0x3F607038, 0x3F5D67C9, 0x3F5A740E, 0x3F579436, 0x3F54C77B, 0x3F520D21, 0x3F4F6475] ++
  [0x3F4CCCCD, 0x3F4A4588, 0x3F47CE0C, 0x3F4565C8, 0x3F430C31, 0x3F40C0C1, 0x3F3E82FA, 0x3F3C5264] ++
  [0x3F3A2E8C, 0x3F381703, 0x3F360B61, 0x3F340B41, 0x3F321643, 0x3F302C0B, 0x3F2E4C41, 0x3F2C7692] ++
  [0x3F2AAAAB, 0x3F28E83F, 0x3F272F05, 0x3F257EB5, 0x3F23D70A, 0x3F2237C3, 0x3F20A0A1, 0x3F1F1166] ++
  [0x3F1D89D9, 0x3F1C09C1, 0x3F1A90E8, 0x3F191F1A, 0x3F17B426, 0x3F164FDA, 0x3F14F209, 0x3F139A86] ++
  [0x3F124925, 0x3F10FDBC, 0x3F0FB824, 0x3F0E7835, 0x3F0D3DCB, 0x3F0C08C1, 0x3F0AD8F3, 0x3F09AE41] ++
  [0x3F088889, 0x3F0767AB, 0x3F064B8A, 0x3F053408, 0x3F042108, 0x3F03126F, 0x3F020821, 0x3F010204]

/-- LOGT of R63: log2(1 + j/64). -/
def tableLog : List Nat :=
  [0x00000000, 0x3CB73CB4, 0x3D35D69C, 0x3D8759C5, 0x3DB31FB8, 0x3DDE4212, 0x3E0462C4, 0x3E19574F] ++
  [0x3E2E00D2, 0x3E42615F, 0x3E567AF1, 0x3E6A4F72, 0x3E7DE0B6, 0x3E88983F, 0x3E92203D, 0x3E9B8926] ++
  [0x3EA4D3C2, 0x3EAE00D2, 0x3EB7110E, 0x3EC0052B, 0x3EC8DDD4, 0x3ED19BB0, 0x3EDA3F60, 0x3EE2C97D] ++
  [0x3EEB3A9F, 0x3EF39355, 0x3EFBD42B, 0x3F01FED4, 0x3F060828, 0x3F0A0650, 0x3F0DF989, 0x3F11E20F] ++
  [0x3F15C01A, 0x3F1993E3, 0x3F1D5DA0, 0x3F211D84, 0x3F24D3C2, 0x3F28808C, 0x3F2C2411, 0x3F2FBE80] ++
  [0x3F335004, 0x3F36D8CB, 0x3F3A58FF, 0x3F3DD0C8, 0x3F41404F, 0x3F44A7BA, 0x3F480731, 0x3F4B5ED7] ++
  [0x3F4EAED0, 0x3F51F740, 0x3F553848, 0x3F587209, 0x3F5BA4A4, 0x3F5ED039, 0x3F61F4E5, 0x3F6512C7] ++
  [0x3F6829FB, 0x3F6B3A9F, 0x3F6E44CD, 0x3F7148A1, 0x3F744636, 0x3F773DA4, 0x3F7A2F04, 0x3F7D1A71]

/-- RSQT of R63: 1 ÷ √((1 + k/32) × 2^b) at index 32b + k. -/
def tableRsq : List Nat :=
  [0x3F800000, 0x3F7C1764, 0x3F785B42, 0x3F74C867, 0x3F715BEF, 0x3F6E133E, 0x3F6AEBF5, 0x3F67E3ED] ++
  [0x3F64F92E, 0x3F6229ED, 0x3F5F7483, 0x3F5CD76E, 0x3F5A514A, 0x3F57E0CF, 0x3F5584CD, 0x3F533C2E] ++
  [0x3F5105EC, 0x3F4EE116, 0x3F4CCCCD, 0x3F4AC83F, 0x3F48D2AB, 0x3F46EB5A, 0x3F4511A3, 0x3F4344E6] ++
  [0x3F41848F, 0x3F3FD012, 0x3F3E26EB, 0x3F3C889F, 0x3F3AF4BA, 0x3F396ACE, 0x3F37EA74, 0x3F36734A] ++
  [0x3F3504F3, 0x3F32416A, 0x3F2F9D53, 0x3F2D166C, 0x3F2AAAAB, 0x3F285835, 0x3F261D5F, 0x3F23F8A2] ++
  [0x3F21E89B, 0x3F1FEC04, 0x3F1E01B3, 0x3F1C2896, 0x3F1A5FB2, 0x3F18A61F, 0x3F16FB06, 0x3F155DA2] ++
  [0x3F13CD3A, 0x3F124925, 0x3F10D0C3, 0x3F0F6381, 0x3F0E00D5, 0x3F0CA83F, 0x3F0B5948, 0x3F0A137D] ++
  [0x3F08D677, 0x3F07A1D2, 0x3F067532, 0x3F05503E, 0x3F0432A5, 0x3F031C1A, 0x3F020C52, 0x3F01030A]

/-- Entry `j` of a table of R63 as a value. -/
def tableVal (t : List Nat) (j : Nat) : FVal := decodeFloat fmtFP32 (nth t j 0)

/-- rne to FP32 of an exact value, kept as a value (R63). -/
def rneV (v : FVal) : FVal := f32 (r32 v).1

/-- 1.0 as a value. -/
def oneV : FVal := .fin false 1 0

/-- A value multiplied by 2^k, exactly. -/
def scale2 (v : FVal) (k : Int) : FVal :=
  match v with
  | .fin s m e => .fin s m (e + k)
  | v => v

/-- The polynomial step q := rne(c2 × x); q := rne(q + c1); q := rne(q × x) of R64 and R66. -/
def polyStep (c2 c1 : Nat) (x : FVal) : FVal :=
  rneV (mulV (rneV (addV (rneV (mulV (decodeFloat fmtFP32 c2) x)) (decodeFloat fmtFP32 c1))) x)

/-- The result of a reference algorithm: NX unless the input is an exact case, UF and OF by the final scaling (R63). -/
def refResult (exact : Bool) (v : FVal) : LaneR :=
  let r := r32 v
  (r.1, r.2 ||| flagIf (!exact) fNX)

/-- The mantissa of a finite non-zero magnitude `m × 2^e` as a value in [1, 2). -/
def mantV (m : Nat) (e : Int) : FVal := .fin false m (e - leadExp m e)

/-- floor((x − 1) × n) for a value x = m × 2^e in [1, 2). -/
def tableIdx (m : Nat) (e : Int) (n : Nat) : Nat :=
  (if e < 0 then (m * n) >>> (-e).toNat else (m * n) <<< e.toNat) - n

/-- VEXP2 of one lane (R63, R64). -/
def vexp2 (x : BitVec 32) : LaneR :=
  match f32 x with
  | .nan s => (nan32, flagIf s fNV)
  | .inf false => (0x7F800000#32, 0)
  | .inf true => (0, 0)
  | .fin _ 0 _ => (0x3F800000#32, 0)
  | .fin s m e =>
    if !s && magLe 128 0 m e then (0x7F800000#32, fOF ||| fNX)
    else if s && magLt 150 0 m e then (0, fUF ||| fNX)
    else
      -- n = floor(x × 64)
      let i : Int := if s then -(m : Int) else m
      let n : Int := if 0 ≤ e + 6 then i * (2 ^ (e + 6).toNat : Nat) else i / ((2 ^ (-(e + 6)).toNat : Nat) : Int)
      let j := (n % 64).toNat
      let mexp := n / 64
      let f := addV (.fin s m e) (negV (ofInt n (-6)))
      let q := polyStep 0x3E75FDF0 0x3F317218 f
      let t := tableVal tableExp j
      let y := rneV (addV (rneV (mulV t q)) t)
      let exact := decide (0 ≤ e) || m % 2 ^ (-e).toNat == 0
      refResult exact (scale2 y mexp)

/-- VLOG2 of one lane (R63, R64). -/
def vlog2 (x : BitVec 32) : LaneR :=
  match f32 x with
  | .nan s => (nan32, flagIf s fNV)
  | .inf false => (0x7F800000#32, 0)
  | .inf true => (nan32, fNV)
  | .fin _ 0 _ => (0xFF800000#32, fDZ)
  | .fin true _ _ => (nan32, fNV)
  | .fin false m e =>
    let E := leadExp m e
    let j := tableIdx m (e - E) 64
    let u := rneV (mulV (addV (mantV m e) (negV (ofInt (64 + j) (-6)))) (tableVal tableInv j))
    let y := rneV (addV (polyStep 0xBF38AA3B 0x3FB8AA3B u) (tableVal tableLog j))
    refResult (m == 2 ^ Nat.log2 m) (addV y (ofInt E 0))

/-- VRCP of one lane (R63, R65). -/
def vrcp (x : BitVec 32) : LaneR :=
  match f32 x with
  | .nan s => (nan32, flagIf s fNV)
  | .inf s => (if s then 0x80000000#32 else 0, 0)
  | .fin s 0 _ => (if s then 0xFF800000#32 else 0x7F800000#32, fDZ)
  | .fin s m e =>
    let E := leadExp m e
    let g := tableVal tableInv (tableIdx m (e - E) 64)
    let a := rneV (addV oneV (negV (rneV (mulV (mantV m e) g))))
    let y := rneV (addV (rneV (mulV (rneV (addV (rneV (mulV a a)) a)) g)) g)
    let z := scale2 y (-E)
    refResult (m == 2 ^ Nat.log2 m) (if s then negV z else z)

/-- VRSQ of one lane (R63, R66). -/
def vrsq (x : BitVec 32) : LaneR :=
  match f32 x with
  | .nan s => (nan32, flagIf s fNV)
  | .inf false => (0, 0)
  | .inf true => (nan32, fNV)
  | .fin s 0 _ => (if s then 0xFF800000#32 else 0x7F800000#32, fDZ)
  | .fin true _ _ => (nan32, fNV)
  | .fin false m e =>
    let E := leadExp m e
    let b : Nat := (E % 2).toNat
    let k := tableIdx m (e - E) 32
    let g := tableVal tableRsq (32 * b + k)
    let mv := scale2 (mantV m e) b
    let a := rneV (addV oneV (negV (rneV (mulV mv (rneV (mulV g g))))))
    let y := polyStep 0x3EC00000 0x3F000000 a
    let y := rneV (addV (rneV (mulV y g)) g)
    refResult (m == 2 ^ Nat.log2 m && b == 0) (scale2 y (-((E - b) / 2)))

/-- The draw of R70 for one lane: the 64-bit word after four rounds. -/
def rngWord (seed seq : Word) (pos lane draw : Nat) : Word :=
  let c : Word := BitVec.ofNat 64 (((pos % 2 ^ 32) <<< 32) ||| (lane <<< 16) ||| draw)
  let k : Word := seed ^^^ (seq * 0x8F3A5C27D1E964B5#64)
  (List.range 4).foldl
    (fun (s : Word × Word) _ =>
      let c := (s.1 ^^^ s.2) * 0xE7C41A935B2D0F6D#64
      (c ^^^ (c >>> 31), s.2 + 0x5D0B97E2C46A3F81#64))
    (c, k) |>.1

/-- The uniform u32 of R70. -/
def rngU32 (seed seq : Word) (pos lane draw : Nat) : BitVec 32 :=
  ((rngWord seed seq pos lane draw) >>> 32).truncate 32

/-- The float in [0, 1) of R70, exact in FP32. -/
def rngF32 (seed seq : Word) (pos lane draw : Nat) : BitVec 32 :=
  (r32 (.fin false ((rngWord seed seq pos lane draw) >>> 40).toNat (-24))).1

/-- The product of two L6 codes in units of 2^−23 (R52). -/
def mulL6 (a b : Nat) : Int :=
  if a % 64 = 0x20 ∨ b % 64 = 0x20 then 0
  else
    let p := a % 32 + b % 32
    let v : Int := (tableT p <<< (p / 4) : Nat)
    if (a / 32 % 2 == 1) != (b / 32 % 2 == 1) then -v else v

/-- An accumulator's new value after one CMAC sum and whether it saturated (R62). -/
def satAcc (w : Nat) (t : Int) : Int × Bool :=
  let lo : Int := -(2 ^ (w - 1) : Nat)
  let hi : Int := (2 ^ (w - 1) : Nat) - 1
  if t < lo then (lo, true) else if hi < t then (hi, true) else (t, false)

end Sys2Proof.Machine
end

