-- ==== Sys2Proof/Machine/Flags.lean ====
section
/-!
DEFINITION. How flags are collected over the lanes or elements of a result and land with it (R57, R153): a vector result is
formed lane by lane, and the OR of its lanes' flags lands in the same cycle.
-/

namespace Sys2Proof.Machine

/-- The lanes of a result with the OR of their flags. -/
def collect (l : List LaneR) : Row × Flags5 :=
  (rowOfLanes (fun j => (nth l j (0, 0)).1), l.foldl (fun f x => f ||| x.2) 0)

/-- A one-operand lane operation over a row (R155). -/
def mapRow (f : BitVec 32 → LaneR) (a : Row) : Row × Flags5 := collect ((List.range 128).map (fun j => f (lane a j)))

/-- A two-operand lane operation over rows (R155). -/
def mapRow2 (f : BitVec 32 → BitVec 32 → LaneR) (a b : Row) : Row × Flags5 :=
  collect ((List.range 128).map (fun j => f (lane a j) (lane b j)))

/-- A three-operand lane operation over rows (R155). -/
def mapRow3 (f : BitVec 32 → BitVec 32 → BitVec 32 → LaneR) (a b c : Row) : Row × Flags5 :=
  collect ((List.range 128).map (fun j => f (lane a j) (lane b j) (lane c j)))

/-- Integer elements of width w over one row, no flags (R159, R160). -/
def mapElem (w : Nat) (f : Nat → Nat) (a : Row) : Row := rowOf w (4096 / w) (fun e => f (elem w a.toNat e))

/-- Integer elements of width w over two rows (R159). -/
def mapElem2 (w : Nat) (f : Nat → Nat → Nat) (a b : Row) : Row :=
  rowOf w (4096 / w) (fun e => f (elem w a.toNat e) (elem w b.toNat e))

/-- Integer elements of width w over three rows (R159). -/
def mapElem3 (w : Nat) (f : Nat → Nat → Nat → Nat) (a b c : Row) : Row :=
  rowOf w (4096 / w) (fun e => f (elem w a.toNat e) (elem w b.toNat e) (elem w c.toNat e))

/-- A row whose every element of width w is one scalar's low bits (R152). -/
def splat (w : Nat) (x : Word) : Row := rowOf w (4096 / w) (fun _ => x.toNat)

/-- A vector result and its flags landing together (R153). -/
def emitRes (s : State) (lat : Nat) (vd : BitVec 13) (r : Row × Flags5) : State :=
  emitFlags (emitVec s lat vd r.1) lat r.2

/-- Flags and overflow bits a landing ORs into the sticky registers (R39, R57). -/
def orFlags (c : Ctx) (f : Flags5) : Ctx := { c with fflags := c.fflags ||| f }

/-- Column overflow bits of a macro ORed into its csr.cov (R37, R39, R62). -/
def orCov (c : Ctx) (m : Nat) (cols : Word) : Ctx := { c with cov := mput c.cov m (mget c.cov m 0 ||| cols) }

end Sys2Proof.Machine
end

