-- ==== Sys2Proof/Machine/Replay.lean ====
section
/-!
DEFINITION. The replay buffer and the kept load and POP data as the save area holds them (R324, R325, R327): what is in flight written out
as records of numbers, and read back. The form of the records is the model's own (log 20).
-/

namespace Sys2Proof.Machine

/-- An integer as a number, its sign in the lowest bit. -/
def zig (z : Int) : Nat := if z < 0 then 2 * z.natAbs - 1 else 2 * z.natAbs
/-- The integer again. -/
def zag (n : Nat) : Int := if n % 2 = 1 then -((n + 1) / 2 : Nat) else (n / 2 : Nat)

/-- Elements of a packed list of numbers (R43). -/
def unpackList (w n v : Nat) : List Nat := (List.range n).map (elem w v)

/-- A list of bytes as a count and a number. -/
def byteFields (b : List Byte) : List Nat := [b.length, leNat b]

/-- A truth value as a number. -/
def flagNat (b : Bool) : Nat := if b then 1 else 0

/-- An optional number, 0 for none. -/
def optNat (o : Option Nat) : Nat := o.elim 0 (· + 1)
/-- The option again. -/
def natOpt (n : Nat) : Option Nat := if n = 0 then none else some (n - 1)

/-- What a round read does with its bytes, as numbers. -/
def useFields : RdUse → List Nat
  | .row reg dir => [0, reg, dir]
  | .scale k => [1, k]
  | .scalar s => [2, s]
  | .stream dst reg dir k w0 w1 o => [3, dst, reg, dir, k, w0.toNat, w1.toNat, zig o]
  | .port p op => [4, p, optNat op]
  | .cload cm first wfmt => [5, cm, first, wfmt]
  | .cmac mask abits asigned wacc => [6, mask, abits, flagNat asigned, wacc]

/-- The use again. -/
def useOf : List Nat → Option RdUse
  | [0, reg, dir] => some (.row reg dir)
  | [1, k] => some (.scale k)
  | [2, s] => some (.scalar s)
  | [3, dst, reg, dir, k, w0, w1, o] => some (.stream dst reg dir k (BitVec.ofNat 64 w0) (BitVec.ofNat 64 w1) (zag o))
  | [4, p, op] => some (.port p (natOpt op))
  | [5, cm, first, wfmt] => some (.cload cm first wfmt)
  | [6, mask, abits, sg, wacc] => some (.cmac mask abits (sg == 1) wacc)
  | _ => none

/-- A packet as numbers. -/
def packetFields (p : Packet) : List Nat :=
  [p.stable, p.bay, p.off, p.op, flagNat p.ty, flagNat p.vec, p.data.toNat, p.sem, p.sender, flagNat p.poison, optNat p.access]

/-- The packet again. -/
def packetOf : List Nat → Option Packet
  | [stable, bay, off, op, ty, vec, data, sem, sender, poison, access] =>
    some { stable := stable, bay := bay, off := off, op := op, ty := ty == 1, vec := vec == 1, data := BitVec.ofNat 4096 data, sem := sem,
           sender := sender, poison := poison == 1, access := natOpt access }
  | _ => none

/-- What an entry in flight does, as numbers. -/
def effFields : Eff → List Nat
  | .sreg n v => [0, n, v.toNat]
  | .preg n v => [1, n, flagNat v]
  | .nreg n v => [2, n, v.toNat]
  | .row reg dir v mask => [3, reg, dir, v.toNat, mask.toNat]
  | .flags f => [4, f.toNat]
  | .csr n v => [5, n, v.toNat]
  | .cov m cols => [6, m, cols.toNat]
  | .scale k data mask desc => [7, k, data.toNat, mask.toNat, optNat (desc.map (·.toNat))]
  | .tag t v => [8, t, v.toNat]
  | .bind t k geom => [9, t, k, geom.toNat]
  | .advance w dim steps => [10, w, dim, steps]
  | .wload w words => [11, w, words.length, packList 64 (words.map (·.toNat))]
  | .wword w i v => [12, w, i, v.toNat]
  | .wreset w => [13, w]
  | .read bay off n lands use => [14, bay, off, n, lands] ++ useFields use
  | .write bay off data mask => [15, bay, off] ++ byteFields data ++ byteFields mask
  | .sem n count => [16, n, count]
  | .move port v op => [17, port, v.toNat, optNat op]
  | .packet p => 18 :: packetFields p
  | .mma vd kind parts nan add f =>
    [19, vd, kind, parts.length, packList 48 (parts.map (·.toNat)), nan.length, packList 1 (nan.map flagNat), flagNat add, f.toNat]
  | .cmode mask scratch => [20, mask, flagNat scratch]
  | .cswap mask => [21, mask]
  | .cload cm first wfmt data => [22, cm, first, wfmt, data.toNat]
  | .csum cm wacc g l sums => [23, cm, wacc, g, l, sums.length, packList 64 (sums.map zig)]
  | .cclr mask => [24, mask]
  | .offcore id => [25, id]
  | .tapp tap seq acc crossed stamp => [26, tap, seq, acc.toNat, flagNat crossed, stamp]

/-- What it does again. -/
def effOf : List Nat → Option Eff
  | [0, n, v] => some (.sreg n (BitVec.ofNat 64 v))
  | [1, n, v] => some (.preg n (v == 1))
  | [2, n, v] => some (.nreg n (BitVec.ofNat 32 v))
  | [3, reg, dir, v, mask] => some (.row reg dir (BitVec.ofNat 4096 v) (BitVec.ofNat 512 mask))
  | [4, f] => some (.flags (BitVec.ofNat 5 f))
  | [5, n, v] => some (.csr n (BitVec.ofNat 64 v))
  | [6, m, cols] => some (.cov m (BitVec.ofNat 64 cols))
  | [7, k, data, mask, desc] =>
    some (.scale k (BitVec.ofNat 1024 data) (BitVec.ofNat 64 mask) ((natOpt desc).map (BitVec.ofNat 7)))
  | [8, t, v] => some (.tag t (BitVec.ofNat 32 v))
  | [9, t, k, geom] => some (.bind t k (BitVec.ofNat 5 geom))
  | [10, w, dim, steps] => some (.advance w dim steps)
  | [11, w, n, words] => some (.wload w ((unpackList 64 n words).map (BitVec.ofNat 64)))
  | [12, w, i, v] => some (.wword w i (BitVec.ofNat 64 v))
  | [13, w] => some (.wreset w)
  | 14 :: bay :: off :: n :: lands :: use => (useOf use).map (.read bay off n lands)
  | [15, bay, off, n, data, m, mask] => some (.write bay off (leBytes n data) (leBytes m mask))
  | [16, n, count] => some (.sem n count)
  | [17, port, v, op] => some (.move port (BitVec.ofNat 64 v) (natOpt op))
  | 18 :: p => (packetOf p).map .packet
  | [19, vd, kind, n, parts, m, nan, add, f] =>
    some (.mma vd kind ((unpackList 48 n parts).map (BitVec.ofNat 48)) ((unpackList 1 m nan).map (· == 1)) (add == 1) (BitVec.ofNat 5 f))
  | [20, mask, scratch] => some (.cmode mask (scratch == 1))
  | [21, mask] => some (.cswap mask)
  | [22, cm, first, wfmt, data] => some (.cload cm first wfmt (BitVec.ofNat 4096 data))
  | [23, cm, wacc, g, l, n, sums] => some (.csum cm wacc g l ((unpackList 64 n sums).map zag))
  | [24, mask] => some (.cclr mask)
  | [25, id] => some (.offcore id)
  | [26, tap, seq, acc, crossed, stamp] => some (.tapp tap seq (BitVec.ofNat 32 acc) (crossed == 1) stamp)
  | _ => none

/-- An off-core queue as a number. -/
def qidNat : QId → Nat
  | .device => 0
  | .host => 1
  | .station => 2
  | .fifo q => 3 + 2 * q
  | .link t => 4 + 2 * t

/-- The queue again. -/
def natQid (n : Nat) : QId :=
  match n with
  | 0 => .device
  | 1 => .host
  | 2 => .station
  | n + 3 => if n % 2 = 0 then .fifo (n / 2) else .link (n / 2)

/-- What a landing access writes, as seven numbers. -/
def dstFields : OffDst → List Nat
  | .none => [0, 0, 0, 0, 0, 0]
  | .row reg dir w0 w1 k => [1, reg, dir, w0.toNat, w1.toNat, k]
  | .scale k w0 w1 => [2, k, 0, w0.toNat, w1.toNat, 0]
  | .scalar s w0 => [3, s, 0, w0.toNat, 0, 0]
  | .popRow reg dir => [4, reg, dir, 0, 0, 0]
  | .popScalar s => [5, s, 0, 0, 0, 0]

/-- It again. -/
def dstOf : List Nat → OffDst
  | [1, reg, dir, w0, w1, k] => .row reg dir (BitVec.ofNat 64 w0) (BitVec.ofNat 64 w1) k
  | [2, k, _, w0, w1, _] => .scale k (BitVec.ofNat 64 w0) (BitVec.ofNat 64 w1)
  | [3, s, _, w0, _, _] => .scalar s (BitVec.ofNat 64 w0)
  | [4, reg, dir, _, _, _] => .popRow reg dir
  | [5, s, _, _, _, _] => .popScalar s
  | _ => .none

/-- A load or POP whose data are kept, as numbers; none of another kind is left when a swap-out saves (R325). -/
def keptFields (o : OffOp) : List Nat :=
  let kind := match o.kind with
    | .load tid off n data scale =>
      [1, tid, zig off, n, flagNat data] ++ (match scale with | some r => [1, r.tid, zig r.off] | none => [0, 0, 0])
    | _ => [0, 0, 0, 0, 0, 0, 0, 0]
  let ans := match o.ans with
    | .data codes scale => [1, codes, scale.toNat]
    | .failed code tile => [2, code, tile]
    | _ => [0, 0, 0]
  [o.id, qidNat o.q, o.issue, o.slot, o.opc, o.pc, o.seg, o.since, flagNat o.trapped] ++ kind ++ dstFields o.dst ++ ans

/-- The access again: it has performed and has not landed. -/
def keptOf : List Nat → Option OffOp
  | id :: q :: issue :: slot :: opc :: pc :: seg :: since :: trapped :: kind :: tid :: off :: n :: data :: sc :: stid :: soff ::
      d0 :: d1 :: d2 :: d3 :: d4 :: d5 :: [a0, a1, a2] =>
    some { id := id, q := natQid q,
           kind := if kind = 1 then .load tid (zag off) n (data == 1) (if sc = 1 then some ⟨stid, zag soff⟩ else none) else .pop,
           dst := dstOf [d0, d1, d2, d3, d4, d5], issue := issue, slot := slot, opc := opc, pc := pc, seg := seg, since := since,
           performed := true, landed := false, trapped := trapped == 1,
           ans := match a0 with | 1 => .data a1 (BitVec.ofNat 1024 a2) | 2 => .failed a1 a2 | _ => .waiting }
  | _ => none

/-- A fault that waits for a later bundle, as numbers. -/
def lateFields (f : LateFault) : List Nat := [f.code, f.cycle, f.slot, f.info, f.at0, f.pc0, f.count, f.synd]

/-- The fault again. -/
def lateOf : List Nat → Option LateFault
  | [code, cycle, slot, info, at0, pc0, count, synd] =>
    some { code := code, cycle := cycle, slot := slot, info := info, at0 := at0, pc0 := pc0, count := count, synd := synd }
  | _ => none

/-- An entry in flight as numbers: its offset from the freeze point, slot, order and bundle, then what it does (R324). -/
def flightFields (at0 : Nat) (f : Flight) : List Nat := [f.due - at0, f.slot, f.ord, f.pc] ++ effFields f.eff

/-- The entry again. -/
def flightOf (at0 : Nat) : List Nat → Option Flight
  | due :: slot :: ord :: pc :: e => (effOf e).map (fun e => { due := at0 + due, slot := slot, ord := ord, pc := pc, eff := e })
  | _ => none

/-- Whether an entry in flight is held outside the replay buffer: a tap result or a change of a bank mode (R324). -/
def heldApart (f : Flight) : Bool := match f.eff with | .tapp _ _ _ _ _ | .cmode _ _ => true | _ => false

/-- The records of a frozen context: its replay buffer, the kept data of its loads and POPs, and the faults that wait for its bundles
(R324, R325). -/
def replayRecords (x : Ctx) : List (List Nat) :=
  (x.flight.filter (fun f => !heldApart f)).map (fun f => 1 :: flightFields x.ccycle f) ++
    (x.ops.filter (fun o => !o.landed)).map (fun o => 2 :: keptFields o) ++ x.late.map (fun f => 3 :: lateFields f)

/-- The low words of a number, lowest first. -/
def numWords : Nat → Nat → List Word
  | 0, _ => []
  | k + 1, v => BitVec.ofNat 64 v :: numWords k (v / 2 ^ 64)

/-- The number that words hold. -/
def natOfWords : List Word → Nat
  | [] => 0
  | w :: r => w.toNat + 2 ^ 64 * natOfWords r

/-- A number as words: one where it fits in 63 bits, else a count and the words. -/
def numberWords (v : Nat) : List Word :=
  if v < 2 ^ 63 then [BitVec.ofNat 64 (2 * v)]
  else let k := Nat.log2 v / 64 + 1; BitVec.ofNat 64 (2 * k + 1) :: numWords k v

/-- A record as words: the count of its numbers, and the numbers. -/
def recordWords (r : List Nat) : List Word := BitVec.ofNat 64 r.length :: r.flatMap numberWords

/-- `k` numbers read back. -/
def takeNumbers : Nat → List Word → List Nat × List Word
  | 0, l => ([], l)
  | _ + 1, [] => ([], [])
  | k + 1, w :: l =>
    if bit w 0 then
      let n := fld w 1 63
      let r := takeNumbers k (l.drop n)
      (natOfWords (l.take n) :: r.1, r.2)
    else let r := takeNumbers k l; (fld w 1 63 :: r.1, r.2)

/-- The words of the replay part of a context block (R327). -/
def replayLength : Nat := 12288

/-- The records that a space of `n` words holds, and those past it, which the Yardmaster keeps beside the save area (log 20). -/
def fitRecords : Nat → List (List Nat) → List (List Nat) × List (List Nat)
  | _, [] => ([], [])
  | n, r :: rs =>
    let k := (recordWords r).length
    if k < n then let f := fitRecords (n - k) rs; (r :: f.1, f.2) else ([], r :: rs)

/-- The replay part of a context block; unused words are 0 (R327). -/
def replayWords (x : Ctx) : List Word :=
  let w := (fitRecords replayLength (replayRecords x)).1.flatMap recordWords
  w ++ List.replicate (replayLength - w.length) 0

/-- The records read back from the words, up to a count of 0. -/
def readRecords : Nat → List Word → List (List Nat)
  | 0, _ => []
  | _ + 1, [] => []
  | fuel + 1, w :: l => if w = 0 then [] else let r := takeNumbers w.toNat l; r.1 :: readRecords fuel r.2

/-- A frozen context with its replay buffer, kept data and waiting faults as records give them. -/
def putRecords (x : Ctx) (rs : List (List Nat)) : Ctx :=
  let of {α : Type} (kind : Nat) (f : List Nat → Option α) : List α :=
    rs.filterMap (fun r => match r with | k :: l => if k = kind then f l else none | [] => none)
  { x with flight := of 1 (flightOf x.ccycle) ++ x.flight.filter heldApart, ops := of 2 keptOf, late := of 3 lateOf }

/-- Pending tap results, oldest first (R324). -/
def pendingTaps (x : Ctx) : List Flight :=
  x.flight.filter (fun f => match f.eff with | .tapp _ _ _ _ _ => true | _ => false)

/-- A pending tap result as two words: bit 63 set, then crossing, stamp, sequence, tap, slot and offset; the score and the order. -/
def tappWord (at0 : Nat) (f : Flight) (i : Nat) : Word :=
  match f.eff with
  | .tapp tap seq acc crossed stamp =>
    if i = 0 then
      BitVec.ofNat 64 (2 ^ 63 + 2 ^ 62 * flagNat crossed + 2 ^ 48 * (stamp % 2 ^ 12) + 2 ^ 40 * (seq % 8) + 2 ^ 36 * (tap % 8) +
        2 ^ 32 * (f.slot % 8) + (f.due - at0) % 2 ^ 32)
    else BitVec.ofNat 64 (acc.toNat + 2 ^ 32 * (f.ord % 2 ^ 32))
  | _ => 0

/-- A pending tap result from its words. -/
def tappOf (at0 pc : Nat) (a b : Word) : Flight :=
  { due := at0 + fld a 0 32, slot := fld a 32 3, ord := fld b 32 32, pc := pc,
    eff := .tapp (fld a 36 3) (fld a 40 3) (b.truncate 32) (bit a 62) (fld a 48 12) }

/-- Word `i` of the pending tap results of a context (R327). -/
def pendingTapWord (x : Ctx) (i : Nat) : Word := ((pendingTaps x)[i / 2]?).elim 0 (fun f => tappWord x.ccycle f (i % 2))

/-- A context with a word of its pending tap results written: a first word makes the result after the last, changes one, or with bit 63
clear takes it out. -/
def putPendingTap (x : Ctx) (i : Nat) (v : Word) : Ctx :=
  let ts := pendingTaps x
  let rest := x.flight.filter (fun f => match f.eff with | .tapp _ _ _ _ _ => false | _ => true)
  let j := i / 2
  let ts := match ts[j]? with
    | some f =>
      let a := if i % 2 = 0 then v else tappWord x.ccycle f 0
      let b := if i % 2 = 0 then tappWord x.ccycle f 1 else v
      if bit a 63 then ts.set j (tappOf x.ccycle f.pc a b) else ts.eraseIdx j
    | none => if i % 2 = 0 ∧ bit v 63 then ts ++ [tappOf x.ccycle x.pc v 0] else ts
  { x with flight := rest ++ ts }

/-- The pending change of a macro's bank mode (R324). -/
def pendingMode (x : Ctx) (m : Nat) : Option Flight :=
  x.flight.find? (fun f => match f.eff with | .cmode mask _ => mask.testBit m | _ => false)

/-- A pending change of a macro's bank mode as a word: bit 63 set, the mode, the slot, the order and the remaining offset (R324, R327). -/
def pendingModeWord (x : Ctx) (m : Nat) : Word :=
  match pendingMode x m with
  | some f =>
    let scr := match f.eff with | .cmode _ b => b | _ => false
    BitVec.ofNat 64 (2 ^ 63 + 2 ^ 62 * flagNat scr + 2 ^ 56 * (f.slot % 8) + 2 ^ 16 * (f.ord % 2 ^ 32) + (f.due - x.ccycle) % 2 ^ 16)
  | none => 0

/-- A context with the pending change of one macro's bank mode written. -/
def putPendingMode (x : Ctx) (m : Nat) (v : Word) : Ctx :=
  let rest := x.flight.filterMap (fun f => match f.eff with
    | .cmode mask scr =>
      let left := if mask.testBit m then mask - 2 ^ m else mask
      if left = 0 then none else some { f with eff := .cmode left scr }
    | _ => some f)
  let new : List Flight := if bit v 63 then
      [{ due := x.ccycle + fld v 0 16, slot := fld v 56 3, ord := fld v 16 32, pc := x.pc, eff := .cmode (2 ^ m) (bit v 62) }]
    else []
  { x with flight := rest ++ new }

end Sys2Proof.Machine
end

