-- ==== Sys2Proof/Machine/Block.lean ====
section
/-!
DEFINITION. The context block of R327, one 8-byte word at a time: what csr.svdata reads and writes (R412) and what a swap-out saves
and a resume restores. The places inside the first 8,192 bytes, the pair blocks and the macro blocks are the model's own (log 20).
-/

namespace Sys2Proof.Machine

/-- A tap as eleven words: configuration, dimension, crossings with their stamp, and the scores with a mark for one that has been evaluated. -/
def tapWord (t : Tap) (i : Nat) : Word :=
  match i with
  | 0 => t.cfg
  | 1 => BitVec.ofNat 64 t.dim
  | 2 => BitVec.ofNat 64 (t.cross.toNat + 2 ^ 8 * t.stamp.toNat)
  | _ => match mfind t.score (i - 3) with | some v => BitVec.ofNat 64 (2 ^ 63 + v.toNat) | none => 0

/-- The fields of a tap's configuration word; its reserved bits read as zero (R7, R35). -/
def tapMask : Word := 0xFFFFFFFF000F8FFF

/-- A tap with one of its words replaced. -/
def putTapWord (t : Tap) (i : Nat) (v : Word) : Tap :=
  match i with
  | 0 => { t with cfg := v &&& tapMask }
  | 1 => { t with dim := fld v 0 14 }
  | 2 => { t with cross := v.truncate 8, stamp := bits v 8 12 }
  | _ => { t with score := if bit v 63 then mput t.score (i - 3) (v.truncate 32) else mdel t.score (i - 3) }

/-- A loop-stack entry as two words. -/
def loopWord (e : LoopEntry) (i : Nat) : Word :=
  if i = 0 then e.trip ++ e.index else BitVec.ofNat 64 (e.start + 2 ^ 32 * e.len)

/-- A loop-stack entry with one of its words replaced; start and length have 12 bits (R25). -/
def putLoopWord (e : LoopEntry) (i : Nat) (v : Word) : LoopEntry :=
  if i = 0 then { e with index := v.truncate 32, trip := bits v 32 32 } else { e with start := fld v 0 12, len := fld v 32 12 }

/-- The words of the first 8,192 bytes (R327, log 20). -/
def headWord (x : Ctx) (i : Nat) : Word :=
  if i < 4 then
    (match i with
     | 0 => BitVec.ofNat 64 x.pc
     | 1 => BitVec.ofInt 64 x.base
     | 2 => BitVec.ofNat 64 x.ccycle
     | _ => BitVec.ofNat 64 x.deadline)
  else if i = 4 then BitVec.ofNat 64 x.loops.length
  else if i < 17 then ((x.loops.reverse[(i - 5) / 2]?).map (fun e => loopWord e ((i - 5) % 2))).getD 0
  else if 32 ≤ i ∧ i < 96 then sreg x (i - 32)
  else if i = 96 then x.pregs.setWidth 64
  else if 97 ≤ i ∧ i < 113 then (nreg x (i - 97)).setWidth 64
  else if i = 113 then x.mode.setWidth 64
  else if i = 114 then x.fflags.setWidth 64
  else if 115 ≤ i ∧ i < 123 then mget x.cov (i - 115) 0
  else if i = 123 then x.tapstat.setWidth 64
  else if 128 ≤ i ∧ i < 224 ∧ (i - 128) % 12 < 11 then tapWord (tapOf x ((i - 128) / 12)) ((i - 128) % 12)
  else if 224 ≤ i ∧ i < 240 then mget x.station (32 * ((i - 224) / 4) + (i - 224) % 4) 0
  else if 240 ≤ i ∧ i < 244 then mget x.stationStatus (i - 240) 0
  else if 256 ≤ i then pendingTapWord x (i - 256)
  else 0

/-- The loop stack with entry `j`, counted from the outermost, changed. -/
def modLoop (l : List LoopEntry) (j : Nat) (f : LoopEntry → LoopEntry) : List LoopEntry :=
  (l.reverse.mapIdx (fun i e => if i = j then f e else e)).reverse

/-- A loop stack of another depth, at most six: innermost entries leave it or are added (R25, R412). -/
def setDepth (l : List LoopEntry) (d : Nat) : List LoopEntry :=
  List.replicate (min d 6 - l.length) ⟨0, 0, 0, 0⟩ ++ l.drop (l.length - min d 6)

/-- A word of the first 8,192 bytes written; the pc has 12 bits (R25, R412). -/
def putHeadWord (x : Ctx) (i : Nat) (v : Word) : Ctx :=
  if i < 4 then
    (match i with
     | 0 => { x with pc := fld v 0 12 }
     | 1 => { x with base := signed 64 v.toNat }
     | 2 => { x with ccycle := v.toNat }
     | _ => { x with deadline := v.toNat })
  else if i = 4 then { x with loops := setDepth x.loops (fld v 0 3) }
  else if i < 17 then { x with loops := modLoop x.loops ((i - 5) / 2) (fun e => putLoopWord e ((i - 5) % 2) v) }
  else if 32 ≤ i ∧ i < 96 then setSreg x (i - 32) v
  else if i = 96 then { x with pregs := v.truncate 16 ||| 1 }
  else if 97 ≤ i ∧ i < 113 then { x with nregs := mput x.nregs (i - 97) (v.truncate 32) }
  else if i = 113 then { x with mode := v.truncate 2 }
  else if i = 114 then { x with fflags := v.truncate 5 }
  else if 115 ≤ i ∧ i < 123 then { x with cov := mput x.cov (i - 115) v }
  else if i = 123 then { x with tapstat := v.truncate 28 }
  else if 128 ≤ i ∧ i < 224 ∧ (i - 128) % 12 < 11 then
    { x with taps := mput x.taps ((i - 128) / 12) (putTapWord (tapOf x ((i - 128) / 12)) ((i - 128) % 12) v) }
  else if 224 ≤ i ∧ i < 240 then { x with station := mset x.station (32 * ((i - 224) / 4) + (i - 224) % 4) v 0 }
  else if 240 ≤ i ∧ i < 244 then { x with stationStatus := mput x.stationStatus (i - 240) v }
  else if 256 ≤ i then putPendingTap x (i - 256) v
  else x

/-- Word `i` of a 1,024-bit scale register block: 16 words of entries, then the descriptor (R30, R327). -/
def kregWord (k : KReg) (i : Nat) : Word :=
  if i < 16 then BitVec.ofNat 64 (elem 64 k.entries.toNat i) else if i = 16 then k.desc.setWidth 64 else 0

/-- A stored scale register with one of its words replaced; reserved bits of the descriptor stay 0 (R7, R30). -/
def putKregWord (k : KReg) (i : Nat) (v : Word) : KReg :=
  if i < 16 then { k with entries := setField k.entries (64 * i) 64 v.toNat } else if i = 16 then { k with desc := (v.truncate 32) &&& 0x7FFFFF#32 } else k

/-- Word `i` of a tile's pair block: the tag, then a copy of the register it names (R32, R327). -/
def pairWord (x : Ctx) (t i : Nat) : Word :=
  if i = 0 then (tagOf x t).setWidth 64
  else if bit (tagOf x t) 31 then kregWord (tagReg x t) (i - 1) else 0

/-- Word `i` of one bank: rows of 8 words, then the checksum column. -/
def bankWord (b : Bank) (i : Nat) : Word :=
  if i < 2048 then BitVec.ofNat 64 (elem 64 (mget b.rows (i / 8) 0).toNat (i % 8))
  else BitVec.ofNat 64 (pack 8 8 (fun j => (mget b.sums (8 * (i - 2048) + j) 0).toNat))

/-- A bank with one of its words replaced. -/
def putBankWord (b : Bank) (i : Nat) (v : Word) : Bank :=
  if i < 2048 then { b with rows := mset b.rows (i / 8) (setField (mget b.rows (i / 8) 0) (64 * (i % 8)) 64 v.toNat) 0 }
  else { b with sums := (List.range 8).foldl (fun m j => mset m (8 * (i - 2048) + j) (bits v (8 * j) 8) 0) b.sums }

/-- Word `i` of a macro block: the active bank, the shadow bank, the accumulators, then formats, mode, split, tags and a pending
change of mode (R327). -/
def macroWord (x : Ctx) (m i : Nat) : Word :=
  let y := macroOf x m
  if i < 2080 then bankWord y.active i
  else if i < 4160 then bankWord y.shadow (i - 2080)
  else if i < 5184 then
    let j := 2 * (i - 4160)
    BitVec.ofNat 64 (lowBits 32 (mget y.acc j 0) + 2 ^ 32 * lowBits 32 (mget y.acc (j + 1) 0))
  else if i = 5184 then
    BitVec.ofNat 64 (y.active.wfmt % 256 + y.shadow.wfmt % 256 * 2 ^ 8 + (if y.scratch then 2 ^ 16 else 0) +
      (match y.time.split with | some (g, n) => 2 ^ 17 + g * 2 ^ 24 + n * 2 ^ 40 | none => 0))
  else if i = 5185 then tagOf x (bankTag m 1) ++ tagOf x (bankTag m 0)
  else if i = 5186 then pendingModeWord x m
  else 0

/-- A macro with one of its words replaced. -/
def putMacroWord (x : Ctx) (m i : Nat) (v : Word) : Ctx :=
  if i < 2080 then modMacro x m (fun y => { y with active := putBankWord y.active i v })
  else if i < 4160 then modMacro x m (fun y => { y with shadow := putBankWord y.shadow (i - 2080) v })
  else if i < 5184 then
    let j := 2 * (i - 4160)
    modMacro x m (fun y => { y with acc := mset (mset y.acc j (signed 32 (fld v 0 32)) 0) (j + 1) (signed 32 (fld v 32 32)) 0 })
  else if i = 5184 then
    modMacro x m (fun y =>
      { y with active := { y.active with wfmt := fld v 0 8 }, shadow := { y.shadow with wfmt := fld v 8 8 }, scratch := bit v 16,
               time := { y.time with split := if bit v 17 then some (fld v 24 16, fld v 40 16) else none } })
  else if i = 5185 then
    { x with tags := mset (mset x.tags (bankTag m 0) (v.truncate 32 &&& tagMask) 0) (bankTag m 1) (bits v 32 32 &&& tagMask) 0 }
  else if i = 5186 then putPendingMode x m v
  else x

/-- The bits of the word at an offset of a context block that the layout of R327 gives no contents (log 20). -/
def unusedBits (off : Nat) : Word :=
  let none := BitVec.allOnes 64
  if off < 0x2000 then
    let i := off / 8
    if 17 ≤ i ∧ i < 32 ∨ 124 ≤ i ∧ i < 128 ∨ 128 ≤ i ∧ i < 224 ∧ (i - 128) % 12 = 11 ∨ 244 ≤ i ∧ i < 256 then none else 0
  else if off < 0x3000 then if (off - 0x2000) / 8 % 16 ≤ 10 then 0 else none
  else if off < 0xC000 then
    let i := (off - 0x3000) % 144 / 8
    if i < 16 then 0 else if i = 16 then 0xFFFFFFFF_00000000 else none
  else if off < 0x24000 then 0
  else if off < 0xEA000 then if (off - 0x24000) % 33792 / 8 < 4096 + 18 then 0 else none
  else if off < 0x13E000 then if (off - 0xEA000) % 43008 / 8 ≤ 5186 then 0 else none
  else if off < 0x140000 then none
  else 0

/-- What the layout of R327 gives the 8 bytes of a context block at byte offset `off` (R412, log 20). -/
def layoutWord (x : Ctx) (off : Nat) : Word :=
  if off < 0x2000 then headWord x (off / 8)
  else if off < 0x3000 then
    let i := (off - 0x2000) / 8
    if i % 16 ≤ 10 then wword (wreg x (i / 16)) (i % 16) else 0
  else if off < 0xC000 then kregWord (kreg x ((off - 0x3000) / 144)) ((off - 0x3000) % 144 / 8)
  else if off < 0x24000 then nth (replayWords x) ((off - 0xC000) / 8) 0
  else if off < 0xEA000 then
    let t := (off - 0x24000) / 33792
    let i := (off - 0x24000) % 33792 / 8
    if i < 4096 then BitVec.ofNat 64 (elem 64 (vrow x (64 * t + i / 64)).toNat (i % 64)) else pairWord x t (i - 4096)
  else if off < 0x13E000 then macroWord x ((off - 0xEA000) / 43008) ((off - 0xEA000) % 43008 / 8)
  else 0

/-- The 8 bytes of a context block at byte offset `off`: unused bytes read as written (R327, R412, log 20). -/
def blockWord (x : Ctx) (off : Nat) : Word := layoutWord x off ||| (mget x.spare off 0 &&& unusedBits off)

/-- A context with what the layout gives the 8 bytes at an offset of its block written (R327, R412, log 20). -/
def putLayoutWord (x : Ctx) (off : Nat) (v : Word) : Ctx :=
  if off < 0x2000 then putHeadWord x (off / 8) v
  else if off < 0x3000 then
    let i := (off - 0x2000) / 8
    if i % 16 ≤ 10 then { x with wregs := mput x.wregs (i / 16) (setWWord (wreg x (i / 16)) (i % 16) v) } else x
  else if off < 0xC000 then
    let k := (off - 0x3000) / 144
    { x with kregs := mput x.kregs k (putKregWord (mget x.kregs k ⟨0, 0⟩) ((off - 0x3000) % 144 / 8) v) }
  else if off < 0x24000 then x
  else if off < 0xEA000 then
    let t := (off - 0x24000) / 33792
    let i := (off - 0x24000) % 33792 / 8
    if i < 4096 then
      { x with vrows := mset x.vrows (64 * t + i / 64) (setField (vrow x (64 * t + i / 64)) (64 * (i % 64)) 64 v.toNat) 0 }
    else x
  else if off < 0x13E000 then putMacroWord x ((off - 0xEA000) / 43008) ((off - 0xEA000) % 43008 / 8) v
  else x

/-- Whether csr.svdata ignores a write to an offset: the replay-buffer part and the pair blocks (R412). -/
def svIgnored (off : Nat) : Bool :=
  decide (0xC000 ≤ off ∧ off < 0x24000 ∨ 0x24000 ≤ off ∧ off < 0xEA000 ∧ 4096 ≤ (off - 0x24000) % 33792 / 8)

/-- A context with the 8 bytes at an offset of its block written through csr.svdata: its unused bytes keep what is written (R327, R412). -/
def putBlockWord (x : Ctx) (off : Nat) (v : Word) : Ctx :=
  if svIgnored off then x
  else if unusedBits off = 0 then putLayoutWord x off v
  else { putLayoutWord x off v with spare := mput x.spare off (v &&& unusedBits off) }

/-- The bytes that a save writes at an offset of a context block: those of its contents, and unused ones that something was written to (R327). -/
def savedBytes (x : Ctx) (off : Nat) : List Byte :=
  leBytes (if unusedBits off = 0 ∨ (mfind x.spare off).isSome then 8 else if unusedBits off = BitVec.allOnes 64 then 0 else 4) (blockWord x off).toNat

/-- The offsets of a context block's words outside the replay buffer and kept data (R327). -/
def blockOffsets : List Nat := (List.range 163840).map (8 * ·) |>.filter (fun o => o < 0xC000 || 0x24000 ≤ o)

end Sys2Proof.Machine
end

