-- ==== Sys2Proof/Machine/Cxl.lean ====
section
/-!
DEFINITION. The region table and its flips: which requests and accesses a region's state lets through, the contested-line
directory, and the back-invalidate flips that others wait behind (R345 to R349).
-/

namespace Sys2Proof.Machine

/-- A region entry's base offset in the HDM range (R346). -/
def regBase (w : Word) : Nat := fld w 12 40 * 4096
/-- A region's size in bytes (R346). -/
def regSize (w : Word) : Nat := 4096 * 2 ^ fld w 8 4
/-- A region's state: 0 device-owned, 1 host-owned, 2 shared-read, 3 contested (R346). -/
def regState (w : Word) : Nat := fld w 4 2
/-- Whether the entry covers its region (R346). -/
def regValid (w : Word) : Bool := bit w 3
/-- Flips counted in the current window (R346). -/
def regFlips (w : Word) : Nat := fld w 0 3
/-- A region entry. -/
def region (s : State) (i : Nat) : Word := mget s.cxl.regions i 0

/-- The CXL part of the state changed. -/
def modCxl (s : State) (f : Cxl → Cxl) : State := { s with cxl := f s.cxl }
/-- A region entry's state set; a flip takes the region's tiles out of the tile-translation caches (R247). -/
def setRegState (s : State) (i st : Nat) : State :=
  let w := region s i
  let s := if regState w = st then s else uncache s (regBase w) (regBase w + regSize w)
  modCxl s (fun x => { x with regions := mput x.regions i (setField (mget x.regions i 0) 4 2 st) })

/-- The valid region that covers an address of device memory (R346). -/
def regionAt (s : State) (a : Nat) : Option Nat :=
  (s.cxl.regions.find? (fun e => regValid e.2 && decide (regBase e.2 ≤ a ∧ a < regBase e.2 + regSize e.2))).map (·.1)

/-- Something sent out of the module. -/
def emitOut (s : State) (o : Out) : State := { s with out := o :: s.out }

/-- A line's state in the contested-line directory; a line without an entry is device-owned (R348). -/
def lineState (s : State) (line : Nat) : Nat := ((s.cxl.directory.find? (fun e => e.1 == line)).map (·.2)).getD 0
/-- A line's entry set as the newest change, or freed where it becomes device-owned; the tile-translation caches lose what lies in it (R247,
R348). -/
def setLine (s : State) (line st : Nat) : State :=
  modCxl (if lineState s line = st then s else uncache s (64 * line) (64 * line + 64)) (fun x =>
    let d := x.directory.filter (fun e => e.1 != line)
    { x with directory := if st = 0 then d else d ++ [(line, st)] })

/-- The flip threshold of the firmware (R347, R412, log 9). -/
def flipLimit (s : State) : Nat := max 2 (fld (ioCsr s 0x852) 0 3)

/-- A region made contested: every line takes the region's state in the directory as far as entries allow (R347). -/
def contest (s : State) (i : Nat) : State :=
  let w := region s i
  let s := if regState w = 0 then s
    else (List.range (regSize w / 64)).foldl (fun s k =>
      if s.cxl.directory.length < 65536 then setLine s (regBase w / 64 + k) (regState w) else s) s
  modCxl (setRegState s i 3) (fun x => { x with active := x.active.filter (· != i) })

/-- A flip counted; at the threshold the region becomes contested (R347). -/
def countFlip (s : State) (i : Nat) : State :=
  let n := min 7 (regFlips (region s i) + 1)
  let s := modCxl s (fun x => { x with regions := mput x.regions i (setField (mget x.regions i 0) 0 3 n) })
  if flipLimit s ≤ n ∧ regState (region s i) ≠ 3 then contest s i else s

/-- A line of a contested region changed state: the region's window is not idle (R347). -/
def lineFlipped (s : State) (i : Nat) : State :=
  modCxl s (fun x => { x with active := i :: x.active.filter (· != i) })

/-- The flip in progress that a request to an address of region `i` waits behind (R348, R349). -/
def flipOn (s : State) (i line : Nat) : Option Flip :=
  s.cxl.flips.find? (fun f => f.region == i && (f.line == none || f.line == some line))

/-- Whether what waits is a request of the host. -/
def fromHost (w : PortWait) : Bool := match w with | .write _ _ | .read _ _ _ => true | .unit _ | .job | .device _ _ => false

/-- A request waits behind a flip; a device access that waits there already keeps its place (R347). -/
def waitBehind (s : State) (g : Flip) (w : PortWait) : State :=
  modCxl s (fun x => { x with flips := x.flips.map (fun f =>
    if f = g then { f with waiting := if !fromHost w && f.waiting.any (· == w) then f.waiting else f.waiting ++ [w] } else f) })

/-- The flip behind which a host write waits: later host writes wait there too, so that they are accepted in their order (R264). -/
def writeFlip (s : State) : Option Flip :=
  s.cxl.flips.find? (fun f => f.waiting.any (fun w => match w with | .write _ _ => true | _ => false))

/-- A flip towards the device starts: BISnp for the region's lines, or for one line (R347 to R349). -/
def startFlip (s : State) (i : Nat) (line : Option Nat) (w : PortWait) : State :=
  let s := emitOut s (match line with
    | some l => .bisnp (64 * l) 1
    | none => .bisnp (regBase (region s i)) (regSize (region s i) / 64))
  modCxl s (fun x => { x with flips := x.flips ++ [{ region := i, line := line, waiting := [w] }] })

/-- What holds a device access to a line back: its flip in progress, or a flip it must start (R347, R348). -/
def lineBlock (s : State) (wr : Bool) (line : Nat) : Option (Nat × Option Flip × Option Nat) :=
  match regionAt s (64 * line) with
  | none => none
  | some i =>
    match flipOn s i line with
    | some f => some (i, some f, none)
    | none =>
      match regState (region s i) with
      | 0 => none
      | 3 => if lineState s line = 1 ∨ lineState s line = 2 ∧ wr then some (i, none, some line) else none
      | st => if st = 1 ∨ wr then some (i, none, none) else none

/-- A device access to ranges of device memory: none where it may perform, else the state in which it waits (R347, R349). -/
def deviceGate (s : State) (ranges : List (Nat × Nat)) (wr : Bool) (w : PortWait) : Option State :=
  if s.cxl.regions.isEmpty then none
  else
    match (ranges.flatMap (fun r => linesOf (devAddr r.1) r.2)).findSome? (lineBlock s wr) with
    | none => none
    | some (_, some f, _) => some (waitBehind s f w)
    | some (i, none, line) => some (startFlip s i line w)

/-- What a host request does to a region or line before it is served (R347 to R349): the new state, or none where it must wait, with
the state in which it waits. `own` asks for ownership. -/
def hostGate (s : State) (line : Nat) (own : Bool) (w : PortWait) : State × Bool :=
  match regionAt s (64 * line) with
  | none => (s, true)
  | some i =>
    match flipOn s i line with
    | some f => (waitBehind s f w, false)
    | none =>
      let want := if own then 1 else 2
      match regState (region s i) with
      | 0 => (countFlip (setRegState s i want) i, true)
      | 1 => (s, true)
      | 2 => (if own then setRegState s i 1 else s, true)
      | _ =>
        match lineState s line with
        | 1 => (s, true)
        | 2 => (if own then lineFlipped (setLine s line 1) i else s, true)
        | _ =>
          if s.cxl.directory.length < 65536 then (lineFlipped (setLine s line want) i, true)
          else
            match s.cxl.directory with
            | e :: _ => (startFlip s ((regionAt s (64 * e.1)).getD i) (some e.1) w, false)
            | [] => (s, true)

/-- Whether a line lies in a region. -/
def inRegion (w : Word) (line : Nat) : Bool := decide (regBase w ≤ 64 * line ∧ 64 * line < regBase w + regSize w)

/-- A contested region that has been idle for a window is device-owned, its directory entries free (R347). -/
def endContest (s : State) (i : Nat) : State :=
  let w := region s i
  setRegState (modCxl s (fun x =>
    { x with directory := x.directory.filter (fun e => !inRegion w e.1), regions := mput x.regions i (setField (mget x.regions i 0) 0 3 0) })) i 0

/-- A flip towards the device ends: the region or line is device-owned and the flip is counted; a region that was contested has been snooped
back whole (R347, R349). -/
def endFlip (s : State) (f : Flip) : State :=
  let s := modCxl s (fun x => { x with flips := x.flips.filter (fun g => g != f) })
  match f.line with
  | some l => lineFlipped (setLine s l 0) f.region
  | none => if regState (region s f.region) = 3 then endContest s f.region else countFlip (setRegState s f.region 0) f.region

/-- A contested region with no line flip all through a window goes back to the device: its host-held lines are snooped back, requests wait
meanwhile, and the region is device-owned once the host has answered (R347). -/
def calmRegion (s : State) (i : Nat) : State :=
  match s.cxl.directory.filter (fun e => inRegion (region s i) e.1) with
  | [] => endContest s i
  | held =>
    modCxl (held.foldl (fun s e => emitOut s (.bisnp (64 * e.1) 1)) s) (fun x => { x with flips := x.flips ++ [{ region := i, line := none, waiting := [] }] })

/-- A window of 2^w module cycles ends for a region: flips back to 0, and a contested region with no line flip all through it is on its way
back to the device (R347). -/
def closeWindow (s : State) (i : Nat) : State :=
  let idle := regState (region s i) == 3 && !s.cxl.active.any (· == i) && !s.cxl.flips.any (fun f => f.region == i)
  let s := if idle then calmRegion s i else s
  modCxl s (fun x =>
    { x with regions := mput x.regions i (setField (mget x.regions i 0) 0 3 0), active := x.active.filter (· != i) })

/-- The entry of the lost-line ring that a run goes on from: the last one written, where firmware has not taken it, its kind and Stall are
the run's and its lines end where the run begins (R352). -/
def lostTail (s : State) (addr kind stall : Nat) : Option Nat :=
  let pos := ioCsr s 0x816
  let n := fld pos 0 32
  let a := fld (ioCsr s 0x815) 16 48 * 65536 + 16 * ((n + 4095) % 4096)
  if n ≠ fld pos 32 32 ∧ devLe s a 8 + 64 * devLe s (a + 8) 4 = addr ∧ devLe s (a + 12) 1 = kind ∧ devLe s (a + 13) 1 = stall then some a else none

/-- A run of lost lines entered in the lost-line ring, in the entry of the lines before it where they are of its kind, or counted in
csr.lostovf where the ring is full: address, lines, kind, Stall (R352, R412). -/
def reportLost (s : State) (addr lines kind stall : Nat) : State :=
  let pos := ioCsr s 0x816
  let n := fld pos 0 32
  if lines = 0 then s
  else if let some a := lostTail s addr kind stall then devPut s (a + 8) (leBytes 4 (devLe s (a + 8) 4 + lines))
  else if 4096 ≤ (n + 2 ^ 32 - fld pos 32 32) % 2 ^ 32 then setIo s 0x817 (ioCsr s 0x817 + BitVec.ofNat 64 lines)
  else
    let a := fld (ioCsr s 0x815) 16 48 * 65536 + 16 * (n % 4096)
    setIo (devPut s a (leBytes 8 addr ++ leBytes 4 lines ++ [BitVec.ofNat 8 kind, BitVec.ofNat 8 stall, 0, 0])) 0x816 (setField pos 0 32 (n + 1))

/-- Ascending lines grouped into runs: first line and count (R352). -/
def runsOf : List Nat → List (Nat × Nat)
  | [] => []
  | l :: r => match runsOf r with
    | (f, n) :: t => if f = l + 1 then (l, n + 1) :: t else (l, 1) :: (f, n) :: t
    | [] => [(l, 1)]

/-- Lost lines of one kind, consecutive ones sharing an entry (R352, log 80). -/
def reportLines (s : State) (lines : List Nat) (kind stall : Nat) : State :=
  (runsOf (sortBy id lines)).foldl (fun s r => reportLost s (64 * r.1) r.2 kind stall) s

/-- REGION_WINDOW_END: At a window end flips reset and idle contested regions return to device-owned (R347). -/
def execRegionWindowEnd (region : Nat) (s : State) : Host.Outcome State Fault Refusal := .next (closeWindow s region)

/-- A host snoop of a line: the device answers with the line's bytes where it holds it modified, which go back to the host, poisoned where a word
is uncorrectable, and keeps no modified copy (R345, R383). -/
def snoopLine (s : State) (line : Nat) : State :=
  match s.cxl.cache.find? (fun e => e.1 == line) with
  | some e => emitOut (writeBack s line) (.snooped line (some e.2) ((poisonIn s 0x19 0 64 (64 * line) 64).isSome))
  | none => emitOut s (.snooped line none false)

/-- HOST_SNOOP: A host snoop of a line in the host-line cache is answered (R345). -/
def execHostSnoop (line : Nat) (_inval : Bool) (s : State) : Host.Outcome State Fault Refusal := .next (snoopLine s line)

/-- An entry write: refused where misaligned, overlapping a valid entry or the command region, or with a reserved field set; else the
entry at csr.rtidx takes the word (R346, log 49). -/
def writeRegion (s : State) (v : Word) : State :=
  let i := fld (ioCsr s 0x850) 0 13
  let lo := regBase v
  let hi := lo + regSize v
  let cmd := (ioCsr s 0x811).toNat
  let hits (a n : Nat) : Bool := decide (lo < a + n ∧ a < hi)
  let bad := fld v 52 12 != 0 || fld v 6 2 != 0 || decide (9 < fld v 8 4) || lo % regSize v != 0 ||
    (regValid v && (s.cxl.regions.any (fun e => e.1 != i && regValid e.2 && hits (regBase e.2) (regSize e.2)) ||
      (s.sec.boot == .opened && hits cmd 524288) || hits (2 ^ 39 - fld (ioCsr s 0x813) 0 5 * 2 ^ 30) (fld (ioCsr s 0x813) 0 5 * 2 ^ 30)))
  if bad then s else modCxl s (fun x => { x with regions := mset x.regions i v 0 })

end Sys2Proof.Machine
end

