-- ==== Sys2Proof/Machine/Secure.lean ====
section
/-!
DEFINITION. The security block's registers: measurement registers and quotes, the mailbox's registers, the weight hash tree and its registration
(R415 to R422).
-/

namespace Sys2Proof.Machine

/-- The first address of the service reserve (R412). -/
def reserveBase (s : State) : Nat := 2 ^ 39 - fld (ioCsr s 0x813) 0 5 * 2 ^ 30
/-- Whether n bytes lie inside the service reserve. -/
def inReserve (s : State) (a n : Nat) : Bool := decide (reserveBase s ≤ a ∧ a + n ≤ 2 ^ 39)

/-- The security block changed. -/
def modSec (s : State) (f : Sec → Sec) : State := { s with sec := f s.sec }

/-- A measurement register as bytes (R416). -/
def measBytes (s : State) (i : Nat) : List Byte := leBytes 32 (mget s.sec.meas i 0).toNat

/-- Register i extended by a value: Mi := SHA-256(Mi ‖ v) (R416). -/
def extendMeas (s : State) (i : Nat) (v : List Byte) : State :=
  modSec s (fun c => { c with meas := mput c.meas i (BitVec.ofNat 256 (leNat (sha256 (measBytes s i ++ v)))) })

/-- csr.measext written: the named register, not M0 or M1, which the security block alone extends, extended by the 32 bytes at the address
(R412, R416, log 55, log 127). -/
def measExtend (s : State) (v : Word) : State :=
  if fld v 0 3 ≤ 1 then s else extendMeas s (fld v 0 3) (devRead s (fld v 5 59 * 32) 32)

/-- One level of the hash tree (R420). -/
def leafLevel : List (List Byte) → List (List Byte)
  | a :: b :: r => sha256 ((1 : Byte) :: (a ++ b)) :: leafLevel r
  | l => l

/-- The root of a tree given its leaves (R420). -/
def treeRoot : Nat → List (List Byte) → List Byte
  | 0, _ => []
  | _ + 1, [] => []
  | _ + 1, [x] => x
  | n + 1, l => treeRoot n (leafLevel l)

/-- csr.htreg written: a registration starts, unless one is under way (R412, R422, log 54). -/
def startRegistration (s : State) (addr : Nat) : State :=
  if s.sec.job.isSome then s else modSec s (fun c => { c with job := some addr })

/-- The result code of a registration record (R422): 3 a reserved byte, 2 a register, 1 a table outside the service reserve, 0. -/
def registrationCode (s : State) (a : Nat) : Nat :=
  if (devRead s (a + 21) 11).any (· != 0) then 3
  else if devLe s (a + 20) 1 < 3 ∨ 7 < devLe s (a + 20) 1 then 2
  else if inReserve s (devLe s (a + 8) 8) (32 * devLe s (a + 16) 4) && inReserve s a 32 then 0 else 1

/-- A registration ends: the root is computed from the leaf table, the register extended, the table registered, and event 2 set; one that
fails changes nothing but its result (R409, R422). -/
def endRegistration (s : State) : State :=
  match s.sec.job with
  | none => s
  | some a =>
    let code := registrationCode s a
    let n := devLe s (a + 16) 4
    let leaves := devLe s (a + 8) 8
    let t : Tree := { table := devLe s a 8, leaves := leaves, tiles := n, reg := devLe s (a + 20) 1 }
    let s := if code = 0 then
        let root := treeRoot (n + 1) ((List.range n).map (fun i => devRead s (leaves + 32 * i) 32))
        let s := extendMeas s t.reg root
        modSec s (fun c => { c with trees := c.trees.filter (fun x => x.table != t.table) ++ [t] })
      else s
    postEvent (modSec s (fun c => { c with job := none, result := code })) 2

/-- A byte string cut or filled with zeros to a length. -/
def sized (n : Nat) (b : List Byte) : List Byte := (b ++ List.replicate n 0).take n

/-- One of the three seeds of the identity key (R415). -/
def identitySeed (label : Byte) : List Byte := (sha256 (Sys2Proof.Config.deviceSecret ++ [label])).take 24

/-- The identity signature over a message (R415, R417). -/
def identitySign (m : List Byte) : List Byte :=
  sized 16224 (Sys2Proof.Config.slhSign (identitySeed 1 ++ identitySeed 2 ++ identitySeed 3) m)

/-- A quote over a nonce; how its bytes 56 to 63 hold svn and build no rule says (R417, log 22). -/
def quoteOf (s : State) (nonce : List Byte) : List Byte :=
  let m := leBytes 8 0x3145544F55515846 ++ nonce ++ sized 16 Sys2Proof.Config.serial ++ sized 8 (Sys2Proof.Config.svnBuild s.sec.svn s.sec.build) ++
    (List.range 8).flatMap (measBytes s)
  m ++ identitySign m

/-- A mailbox command completed: its return code, its output with its length in the command register, and the doorbell cleared, with an MSI-X
message where the host has enabled it; a vendor-specific one is named in csr.mblast and sets event 3 (R409, R418, log 89, log 135). -/
def mailboxDone (s : State) (opcode code : Nat) (out : List Byte) : State :=
  let s := emitOut (modSec s (fun c =>
    { c with opcode := opcode, code := code, output := out, payload := out ++ c.payload.drop out.length,
             command := BitVec.ofNat 64 (opcode % 65536 + 65536 * (out.length % 2 ^ 21)) })) (.mailbox opcode code out)
  let s := if s.sec.irq then emitOut s .interrupt else s
  if 0xC000 ≤ opcode then postEvent (setIo s 0x8C2 (BitVec.ofNat 64 (opcode % 65536 + 65536 * code))) 3 else s

/-- The mailbox's registers as the host reads them, at the standard's offsets: capabilities with the payload area's size of 2^16 bytes, control
with the doorbell and the interrupt enable, command with the payload length, status with the return code (R418, log 135). -/
def mailboxRegister (s : State) (off : Nat) : Word :=
  match off with
  | 0x00 => 16 + 32
  | 0x04 => BitVec.ofNat 64 ((if s.sec.quote.isSome then 1 else 0) + if s.sec.irq then 2 else 0)
  | 0x08 => s.sec.command
  | 0x10 => BitVec.ofNat 64 (s.sec.code * 2 ^ 32)
  | _ => 0

/-- A quote that waits is formed before the module cycle ends, after every extension that performs in it (R417). -/
def formQuote (s : State) : State :=
  match s.sec.quote with
  | some nonce => mailboxDone (modSec s (fun c => { c with quote := none })) 0xC100 0 (quoteOf s nonce)
  | none => s

/-- MEASUREMENT_EXTEND: A csr.measext write extends a measurement register (R416, R423). -/
def execMeasurementExtend (v : Nat) (s : State) : Host.Outcome State Fault Refusal := .next (measExtend s (BitVec.ofNat 64 v))

/-- HASH_REGISTRATION: A csr.htreg write starts the registration of a leaf table (R420, R422). -/
def execHashRegistration (addr : Nat) (s : State) : Host.Outcome State Fault Refusal := .next (startRegistration s addr)

/-- REGISTRATION_END: the root is computed, the register extended, the table locked, the busy bit cleared and event 2 set (R422). -/
def execRegistrationEnd (s : State) : Host.Outcome State Fault Refusal := .next (endRegistration s)

end Sys2Proof.Machine
end

