-- ==== Sys2Proof/Machine/Yards.lean ====
section
/-!
DEFINITION. Yards lost and activated, degraded operation, and the request of a repair (R16, R397 to R401, R412, R428).
-/

namespace Sys2Proof.Machine

/-- The structure code of the link that a cause of R399 names (R405): the I/O-die port for cause 1, a ring port for cause 2. -/
def causeStruct (cause : Nat) : Nat := match cause with | 1 => 0x10 | 2 => 0x11 | _ => 0

/-- The contexts of a Yard that hold a launch, by Stall, primary before secondary (R331, R354). -/
def yardHolders (s : State) (y : Nat) : List Nat :=
  ((List.range 64).map (fun i => 128 * y + 2 * i)).filter (fun c =>
    match (ctxOf s c).status with | .absent | .ended | .lost => false | _ => true)

/-- The handlers that ran on a Yard are gone with it, the control context among them (R399, R409). -/
def endHandlers (s : State) (y : Nat) : State :=
  let served := ((List.range 64).map (fun i => 128 * y + 2 * i)).filter (fun c => (ctxOf s c).inSvc)
  let control := served.any (fun c => mget (stallAt s (stallOf c)).svcause (slotOf c) 0 % 256 == 3)
  let s := served.foldl (fun s c => modCtx (modCtx s c (fun x => { x with inSvc := false })) (c + 1) (fun x => { x with status := .absent })) s
  { s with control := s.control && !control }

/-- The captures of a Yard's Stalls and the replays that run on it are gone with it (R391, R399). -/
def loseCaptures (s : State) (y : Nat) : State :=
  let s := ((s.rel.captures.filterMap (fun e => e.2.run)).filter (fun c => yardOf c == y)).foldl (fun s c => endRun s c none) s
  let own (e : Nat × Capture) : Bool := e.1 / 32 == y
  let s := ((s.rel.captures.filter own).filterMap (fun e => e.2.run)).foldl (fun s c => endRun s c none) s
  { s with rel := { s.rel with captures := s.rel.captures.filter (fun e => !own e), skipped := s.rel.skipped + (s.rel.captures.filter own).length } }

/-- The yard-event record of a lost Yard, whose code makes it a fault record: a full buffer holds it (R404, R408, log 133). -/
def yardFault (s : State) (y : Nat) (r : BitVec 128) : Raised :=
  { ctx := 128 * y, code := 0x32, slot := 0xFF, pc := 0xFFFF, cycle := 0, info := 0, second := 0, struct := 0, count := 0, synd := 0,
    mc := s.mcycle, launch := 0, queue := 0, seq := 0, entry := some r }

/-- A Yard lost: its links close, every context on it receives fault 0x32 and its launch ends, and a yard-event record is written with
event 6, all of them at the end of the module cycle, the record first (R354, R399, R404, R409, log 133). -/
def loseYard (s : State) (y cause : Nat) : State :=
  let s := loseCaptures s y
  let cs := yardHolders s y
  let s := modYard s y (fun x => { x with status := .lost })
  let f := yardFault s y (recordFor s 5 0x32 (y, 0, 0, 0) (causeStruct cause) 1 cause 0 cs.length 0)
  let s := modCtx s (128 * y) (fun x => { x with raised := f :: x.raised })
  let s := cs.foldl (fun s c => modCtx s c (fun x =>
    { x with status := .lost, ops := [], flight := [], raised := x.raised ++ [raisedAt s c 0x32 0 0xFF x.pc x.ccycle] })) s
  let s := endHandlers s y
  let s := (List.range 16).foldl (fun s i => (stableAt s (16 * y + i)).packets.foldl (fun s p => dropAccess s p.2.sender p.2.access) s) s
  let s := (List.range 16).foldl (fun s i => modStable s (16 * y + i) (fun t => { t with jobs := [], packets := [], signals := [], writes := [] })) s
  postEvent s 6

/-- A running Yard is declared lost with a cause (R399). -/
def declareLost (s : State) (y cause : Nat) : State := if (yardAt s y).status = .running then loseYard s y cause else s

/-- A reserve site activated as a lost logical Yard: powered and self-tested (R16, R399). -/
def activateSite (s : State) (site y : Nat) : State :=
  let used := s.yards.any (fun e => e.1 != y && (e.2.status == .running || e.2.status == .activating) && e.2.site == site)
  if y < 6 ∧ (yardAt s y).status = .lost ∧ used = false then modYard s y (fun x => { x with status := .activating, site := site }) else s

/-- The self-test of an activating site ends: the Yard runs from cycle 0 with nothing placed, or stays lost; a lost context whose launch has
yet to end, and faults not yet delivered, stay (R18, R354, R399). -/
def selfTestDone (s : State) (y : Nat) (passed : Bool) : State :=
  if (yardAt s y).status ≠ .activating then s
  else if passed then
    let s := { s with marks := s.marks.filter (fun m => (markPlace m).1 != y || decide (2 ^ 20 ≤ m.owner)),
                      ctxs := s.ctxs.filter (fun e => e.1 / 128 != y || (ctxOf s e.1).status == .lost || !(ctxOf s e.1).raised.isEmpty), stables := mclear s.stables (16 * y) 16, stalls := mclear s.stalls (32 * y) 32,
                      round := mclear s.round (16 * y * 2 ^ 21) (16 * 2 ^ 21), istore := mclear s.istore (32 * y * 2 ^ 18) (32 * 2 ^ 18) }
    let f := fld (ioCsr s (0x820 + y)) 0 11
    let s := modYard s y (fun x =>
      { x with status := .running, ycycle := 0, yslip := 0, since := s.mcycle, floor := max 512 f, floorNext := none, owed := 0,
               ramps := [], history := [], doubled := false, ports := 0 })
    putRecord s (recordFor s 5 0 (y, 0, 0, 0) 0 0 0 0 0 0) 0
  else
    let s := modYard s y (fun x => { x with status := .lost })
    putRecord s (recordFor s 5 0 (y, 0, 0, 0) 0 3 0 0 0 0) 0

/-- csr.yctl written: op 1 activates a site, op 2 declares a Yard lost with cause 5; a Yard past 5 is clamped (R411, R412, log 53). -/
def writeYctl (s : State) (v : Word) : State :=
  match fld v 8 2 with
  | 1 => activateSite s (fld v 0 3) (min 5 (fld v 4 3))
  | 2 => declareLost s (min 5 (fld v 4 3)) 5
  | _ => s

/-- A Stable's matrix array marked failed (R400). -/
def failArray (s : State) (sb : Nat) : State := modStable s sb (fun t => { t with arrayFailed := true })

/-- Whether the arrays of a Stable and of its partner at position XOR 1 have both failed: both leave placement (R400). -/
def arraysFailed (s : State) (sb : Nat) : Bool :=
  (stableAt s sb).arrayFailed && (stableAt s (if sb % 2 = 0 then sb + 1 else sb - 1)).arrayFailed

/-- The macros of a Stall changed as to which are served in nibble mode: the checksums of the weights that they hold go over to those of the
form they are kept in, a mismatch staying one (R401, log 132). -/
def changeNibbles (s : State) (g : Nat) (f : Stall → Stall) : State :=
  let t := modStall s g f
  [4 * g, 4 * g + 2].foldl (fun u c => modCtx u c (reformMacros (nibbled s c) (nibbled t c))) t

/-- A macro marked failed, served in nibble mode by its partner (R401). -/
def failMacro (s : State) (g m partner : Nat) : State :=
  changeNibbles s g (fun t => { t with failedMacros := t.failedMacros ||| BitVec.ofNat 8 (2 ^ m), partners := mput t.partners m partner })

/-- Both kinds of mark cleared for a Stall and its Stable (R412). -/
def clearDegraded (s : State) (g : Nat) : State :=
  modStable (changeNibbles s g (fun t => { t with failedMacros := 0, partners := [] })) (g / 2) (fun t => { t with arrayFailed := false })

/-- csr.degr written; a Stall past 191 is clamped (R400, R401, R411, R412, log 53). -/
def writeDegr (s : State) (v : Word) : State :=
  let g := min 191 (fld v 0 8)
  match fld v 16 2 with
  | 1 => failArray s (g / 2)
  | 2 => failMacro s g (fld v 8 3) (fld v 11 3)
  | 3 => clearDegraded s g
  | _ => s

/-- The repair in hand changed. -/
def modRel (s : State) (f : Rel → Rel) : State := { s with rel := f s.rel }

/-- csr.repair written: the Stable of the named Stall, clamped to 191, starts draining; a request during a repair is ignored (R398, R411, R412,
log 53, log 54). -/
def requestRepair (s : State) (v : Word) : State :=
  if s.rel.repair ≠ 0 then s
  else
    let v := setField v 6 8 (min 191 (fld v 6 8))
    let s := modRel s (fun r => { r with repair := 1, target := v, noSpare := false })
    modStable s (fld v 6 8 / 2) (fun t => { t with draining := true })

/-- Spare units of a structure and the group they serve: a bank of a macro, a bay, or the whole Stall (R397). -/
def sparesOf (struct row : Nat) : Nat × Nat :=
  match struct with
  | 1 => (8, 0)
  | 2 => (4, 0)
  | 3 => (8, 0)
  | 4 => (4, 0)
  | 8 | 9 => (8, row / 256)
  | 0x0B => (8, row / 512)
  | _ => (0, 0)

/-- The key of a remap register among a Stall's; a CIM bank has the same spares in both modes. -/
def remapKey (struct group spare : Nat) : Nat := (if struct = 9 then 8 else struct) * 2 ^ 16 + group * 2 ^ 4 + spare

/-- The Stall that holds the remap registers of a unit: a round bay's belong to the Stable, at its even Stall (R397). -/
def remapStall (struct g : Nat) : Nat := if struct = 0x0B then g / 2 * 2 else g

/-- A context that a repair need not wait for: frozen, or with nothing to run (R398). -/
def atRest (x : Ctx) : Bool := x.frozen || (x.status != .running && x.status != .exiting && x.status != .rewound)

/-- The contexts of a Stable. -/
def stableCtxs (sb : Nat) : List Nat := [8 * sb, 8 * sb + 2, 8 * sb + 4, 8 * sb + 6]

/-- Whether a context is frozen for a swap-out of its launch (R325). -/
def swapFrozen (s : State) (c : Nat) : Bool :=
  let l := launchAt s (ctxOf s c).launch
  l.state == .swapping && l.swapAsked.any (· == yardOf c) && !l.swapDone.any (· == yardOf c)

/-- The contexts of a repaired Stable resume at their frozen context cycles, but for those that a swap-out holds (R325, R398, log 99). -/
def endRepair (s : State) (sb : Nat) (noSpare : Bool) : State :=
  let s := (stableCtxs sb).foldl (fun s c => if swapFrozen s c then s else modCtx s c (fun x => { x with frozen := false, seenYard := yardNow s c })) s
  let s := modStable s sb (fun t => { t with draining := false, failed := t.failed || noSpare })
  modRel s (fun r => { r with repair := 0, noSpare := noSpare })

/-- Whether a damaged word lies in the unit that a repair names: its structure, Stall and physical row (R397, R405). -/
def inUnit (s : State) (struct g row : Nat) (m : Mark) : Bool :=
  let p := markPlace m
  m.struct == struct && p.1 == g / 32 && p.2.1 == g / 2 % 16 && (struct == 0x0B || p.2.2.1 == g % 2) && physRow s m == row

/-- The lowest spare that a unit may take: its index and its remap register, where one is free (R397). -/
def freeSpare (s : State) (struct g row : Nat) : Option (Nat × Nat) :=
  let sp := sparesOf struct row
  let held := (stallAt s (remapStall struct g)).remap
  ((List.range sp.1).find? (fun i => (mfind held (remapKey struct sp.2 i)).isNone)).map (fun i => (i, remapKey struct sp.2 i))

/-- The unit copied to a spare: single-bit errors are corrected in the copy, what is uncorrectable is copied as poison, the remap register is
written and the row is tracked no more (R383, R395, R397, R398). -/
def copyUnit (s : State) (struct g row : Nat) (spare : Nat × Nat) : State :=
  let s := findBad (correctAll s (inUnit s struct g row)) (inUnit s struct g row) true
  let s := modStall s (remapStall struct g) (fun t =>
    { t with remap := mput t.remap spare.2 (BitVec.ofNat 32 (2 ^ 31 + row * 2 ^ 12 + spare.1)) })
  let side := if struct = 0x0B then 0 else g % 2
  let keys := (if struct = 8 ∨ struct = 9 then [8, 9] else [struct]).map (fun k =>
    g / 32 * 2 ^ 32 + k * 2 ^ 21 + g / 2 % 16 * 2 ^ 17 + side * 2 ^ 16 + row)
  modRel s (fun r => { r with tracked := r.tracked.filter (fun e => keys.all (· != e.key)) })

/-- One step of a repair (R398): with every context of the Stable frozen the copy begins; the unit is copied and remapped, or without a
spare the contexts resume and the Stable leaves placement; the spare serving, the contexts resume and a service-action record is written. -/
def copyRepair (s : State) : State :=
  let v := s.rel.target
  let struct := fld v 0 6
  let g := fld v 6 8
  let row := fld v 14 16
  let sb := g / 2
  match s.rel.repair with
  | 1 => if (stableCtxs sb).all (fun c => atRest (ctxOf s c)) then modRel s (fun r => { r with repair := 2 }) else s
  | 2 =>
    match freeSpare s struct g row with
    | none => endRepair s sb true
    | some i => modRel (copyUnit s struct g row i) (fun r => { r with repair := 3, spare := i.1 })
  | 3 => endRepair (putRecord s (recordFor s 6 0 (placeOf g 0) struct 0 row 0 s.rel.spare 0) 0) sb false
  | _ => s

/-- REPAIR_REQUEST: A csr.repair write starts draining a Stable for row sparing (R398). -/
def execRepairRequest (v : Nat) (s : State) : Host.Outcome State Fault Refusal := .next (requestRepair s (BitVec.ofNat 64 v))

/-- REPAIR_COPY: With all contexts frozen, the unit is copied to a spare and remapped: the repair in hand goes on by one state (R398). -/
def execRepairCopy (s : State) : Host.Outcome State Fault Refusal := .next (copyRepair s)

/-- A ring port of a Yard fails; with both gone the Yard is lost (R399, log 87). -/
def failPort (s : State) (y bit : Nat) : State :=
  let s := modYard s y (fun x => { x with ports := x.ports ||| BitVec.ofNat 2 (2 ^ bit) })
  if (yardAt s y).ports = 3 then declareLost s y 2 else s

/-- YARD_LOST: A lost Yard closes its links and gives its contexts fault 0x32 (R399). -/
def execYardLost (yard cause : Nat) (s : State) : Host.Outcome State Fault Refusal := .next (declareLost s yard cause)

/-- THERMAL_TRIP: A junction at 110 °C declares the Yard lost with cause 4 (R399, R428). -/
def execThermalTrip (yard : Nat) (s : State) : Host.Outcome State Fault Refusal := .next (declareLost s yard 4)

/-- YARD_ACTIVATE: csr.yctl op 1 powers and tests a reserve site as a logical Yard (R16, R399). -/
def execYardActivate (site yard : Nat) (s : State) : Host.Outcome State Fault Refusal := .next (activateSite s site yard)

/-- YARD_DECLARE_LOST: csr.yctl op 2 declares a Yard lost with cause 5 (R399). -/
def execYardDeclareLost (yard : Nat) (s : State) : Host.Outcome State Fault Refusal := .next (declareLost s yard 5)

/-- YARD_SELF_TEST_DONE: An activating site's self-test ends, bringing it running or lost (R399). -/
def execYardSelfTestDone (yard : Nat) (passed : Bool) (s : State) : Host.Outcome State Fault Refusal := .next (selfTestDone s yard passed)

/-- DEGR_ARRAY_FAILED: csr.degr op 1 marks a matrix array failed and doubles the cycle span (R400). -/
def execDegrArrayFailed (stall : Nat) (s : State) : Host.Outcome State Fault Refusal := .next (failArray s (stall / 2))

/-- DEGR_MACRO_FAILED: csr.degr op 2 serves a failed macro in nibble mode by a partner (R401). -/
def execDegrMacroFailed (stall cm partner : Nat) (s : State) : Host.Outcome State Fault Refusal := .next (failMacro s stall cm partner)

/-- DEGR_CLEAR: csr.degr op 3 clears array and macro failure marks (R400, R401). -/
def execDegrClear (stall : Nat) (s : State) : Host.Outcome State Fault Refusal := .next (clearDegraded s stall)

end Sys2Proof.Machine
end

