-- ==== Sys2Proof/Machine/Priv.lean ====
section
/-!
DEFINITION. The privileged CSRs: what each reads as, and what a write does, with the clamps and refusals of its fields (R335, R354,
R355, R409, R411, R412).
-/

namespace Sys2Proof.Machine

/-- A field clamped to its range (R411). -/
def clampTo (lo hi v : Nat) : Nat := max lo (min hi v)

/-- csr.fbstat (R355). -/
def fbStat (s : State) : Word :=
  BitVec.ofNat 64 ((if s.fbOverflow then 2 ^ 63 else 0) + min 65535 s.heldFaults.length * 2 ^ 32 + s.heldTotal * 2 ^ 16 + s.fbuf.length)

/-- Word n of the oldest fault-buffer entry, 0 with none (R412). -/
def fbEntry (s : State) (n : Nat) : Word :=
  match s.fbuf with
  | e :: _ => if n < 2 then bits e.record (64 * n) 64 else bits e.detail (64 * (n - 2)) 64
  | [] => 0

/-- csr.ymap: the site of each logical Yard, and the running mask (R412). -/
def yMap (s : State) : Word :=
  BitVec.ofNat 64 (pack 3 6 (fun l => (yardAt s l).site) +
    2 ^ 18 * pack 1 6 (fun l => if (yardAt s l).status = .running then 1 else 0))

/-- A privileged CSR as the context at `c` reads it (R412). -/
def privRead (s : State) (c n : Nat) : Word :=
  if n = 0x800 then BitVec.ofNat 64 (mget (stallAt s (stallOf c)).svoff (slotOf c) 0)
  else if n = 0x801 then blockWord (ctxOf s (served c)) (mget (stallAt s (stallOf c)).svoff (slotOf c) 0)
  else if n = 0x802 then BitVec.ofNat 64 (mget (stallAt s (stallOf c)).svcause (slotOf c) 0)
  else if n = 0x803 then (match s.sec.boot with | .loaded | .linked | .opened => 1 | _ => 0)
  else if n = 0x829 then BitVec.ofNat 64 (Sys2Proof.Config.powerAt s.mcycle % 1024)
  else if 0x834 ≤ n ∧ n ≤ 0x836 then
    BitVec.ofNat 64 (pack 1 64 (fun i => if (stallAt s (64 * (n - 0x834) + i)).suspect then 1 else 0))
  else if n = 0x840 then BitVec.ofNat 64 ((if s.rqJob.isSome then 2 ^ 63 else 0) + s.rqResult % 256)
  else if n = 0x842 then fbStat s
  else if 0x845 ≤ n ∧ n ≤ 0x848 then fbEntry s (n - 0x845)
  else if n = 0x851 then region s (fld (ioCsr s 0x850) 0 13)
  else if n = 0x880 then yMap s
  else if n = 0x883 then BitVec.ofNat 64 (s.rel.repair + if s.rel.noSpare then 4 else 0)
  else if 0x890 ≤ n ∧ n ≤ 0x8AF then bits (mget s.sec.meas ((n - 0x890) / 4) 0) (64 * ((n - 0x890) % 4)) 64
  else if n = 0x8B1 then BitVec.ofNat 64 ((if s.sec.job.isSome then 2 ^ 63 else 0) + s.sec.result)
  else ioCsr s n

/-- Whether one held fault is delivered before another: module cycle, global Stall, primary before secondary (R354). -/
def heldBefore (a b : Raised) : Bool :=
  a.mc * 2 ^ 16 + a.ctx / 2 < b.mc * 2 ^ 16 + b.ctx / 2

/-- The first held fault in the order of R354. -/
def firstHeld : List Raised → Option Raised
  | [] => none
  | f :: r => match firstHeld r with | some g => if heldBefore g f then some g else some f | none => some f

/-- csr.fbfree written: the oldest entry is freed, and the next held fault takes it and is handled as if raised now (R354). -/
def freeEntry (s : State) : State :=
  let s := { s with fbuf := s.fbuf.drop 1 }
  match firstHeld s.heldFaults with
  | some f =>
    let held := s.heldFaults.filter (fun g => g != f)
    let s := { s with heldFaults := held }
    let s := if ownFault s f then modCtx s f.ctx (fun x => { x with waited := 0 }) else s
    dueFault s { f with mc := s.mcycle }
  | none => s

/-- csr.svpost written: a firmware request for a context, its code at least 1; one held on a fault that firmware mends, whose handling has
started, and a halted one are served at once; a Stall past 191 is clamped (R146, R329, R331, R353, R411, R412, log 53, log 56, log 120). -/
def postRequest (s : State) (v : Word) : State :=
  let c := min 191 (fld v 0 8) * 4 + (if bit v 8 then 2 else 0)
  let code := max 1 (fld v 16 8)
  let s := modCtx s c (fun x => { x with request := code })
  match (ctxOf s c).status with
  | .held 0x09 | .held 0x10 | .halted =>
      if (ctxOf s c).inSvc ∨ heldFor s c then s else enterService (modCtx s c (fun x => { x with request := 0 })) c 0x02 0 code
  | _ => s

/-- csr.cmdbase written: the first write places the command region and opens the queues with every expected sequence 1; later ones, and
ones before the link is trained, are ignored (R303, R304, R412, R425, log 52). -/
def openQueues (s : State) (v : Word) : State :=
  if s.sec.boot ≠ .linked then s
  else
    let base := v.toNat / 524288 * 524288
    modSec { (setIo s 0x811 (BitVec.ofNat 64 base)) with expected := (List.range 16).foldl (fun m q => mput m q 1) s.expected }
      (fun c => { c with boot := .opened })

/-- The power of two that the error log's size is clamped to (R412, log 52). -/
def logSize (v : Nat) : Nat := clampTo 1024 32768 (2 ^ Nat.log2 v)

/-- csr.errlog as it takes a value: the size a power of two, the base clamped so that the whole log lies in the service reserve (R402, R411,
R412, log 52). -/
def clampLog (s : State) (v : Word) : Word :=
  let n := logSize (fld v 0 16)
  BitVec.ofNat 64 (clampTo (reserveBase s / 65536) ((2 ^ 39 - 32 * n) / 65536) (fld v 16 48) * 65536 + n)

/-- A deadline field: 0, or clamped to 1,024 to 16,777,216 (R412). -/
def deadlineField (v : Nat) : Nat := if v = 0 then 0 else clampTo 1024 16777216 v

/-- The exponent that a field of five bits names in a range that passes 31: the field holds its low five bits (R383, R394, R412, log 53). -/
def wideExp (lo hi v : Nat) : Nat := if lo ≤ v then v else if v + 32 ≤ hi then max lo (v + 32) else lo

/-- The word that a plain privileged CSR takes when `v` is written: its fields clamped, reserved bits 0 (R411, R412, log 52, log 53). -/
def clampCsr (n : Nat) (v : Word) : Word :=
  let f (lo len : Nat) := fld v lo len
  if 0x820 ≤ n ∧ n ≤ 0x825 then BitVec.ofNat 64 (clampTo 512 1024 (f 0 11) + 2 ^ 16 * clampTo 60 100 (f 16 8))
  else if n = 0x828 then BitVec.ofNat 64 (clampTo 300 850 (f 0 10))
  else if n = 0x830 then BitVec.ofNat 64 (min 1024 (f 0 11) + 2 ^ 16 * f 16 8 + 2 ^ 32 * f 32 32)
  else if n = 0x831 then BitVec.ofNat 64 (deadlineField (f 0 25) + 2 ^ 32 * deadlineField (f 32 25))
  else if n = 0x832 then BitVec.ofNat 64 (clampTo 16 32 (f 0 6))
  else if n = 0x833 then
    BitVec.ofNat 64 (wideExp 30 44 (f 0 5) % 32 + 2 ^ 5 * max 2 (f 5 12) + 2 ^ 17 * (wideExp 34 44 (f 17 5) % 32))
  else if n = 0x850 then BitVec.ofNat 64 (min 8191 v.toNat)
  else if n = 0x852 then BitVec.ofNat 64 (clampTo 2 7 (f 0 3) + 2 ^ 8 * clampTo 16 30 (f 8 5))
  else if n = 0x858 then BitVec.ofNat 64 (min 4096 (f 0 13))
  else if 0x860 ≤ n ∧ n ≤ 0x86F then BitVec.ofNat 64 (f 0 2 + 4 * max 1 (f 2 8))
  else if n = 0x871 then
    BitVec.ofNat 64 (min 24 (f 0 5) + 2 ^ 5 * min 256 (f 5 9) + 2 ^ 14 * min 32 (f 14 6) + 2 ^ 20 * f 20 8 +
      2 ^ 28 * min 4096 (f 28 13) + 2 ^ 41 * min 768 (f 41 10))
  else if n = 0x872 then BitVec.ofNat 64 (pack 7 8 (fun b => min 64 (f (7 * b) 7)))
  else if n = 0x8C1 then BitVec.ofNat 64 (f 0 7)
  else v

/-- A write to a privileged CSR by the context at `c`, with the behaviour its row gives (R412, log 54). -/
def privWrite (s : State) (c n : Nat) (v : Word) : State :=
  let g := stallOf c
  let off := mget (stallAt s g).svoff (slotOf c) 0
  if n = 0x800 then modStall s g (fun t => { t with svoff := mput t.svoff (slotOf c) (fld v 3 18 * 8) })
  else if n = 0x801 then
    let s := modCtx s (served c) (fun x => putBlockWord x off v)
    modStall s g (fun t => { t with svoff := mput t.svoff (slotOf c) ((off + 8) % 2 ^ 21) })
  else if n = 0x808 then postRequest s v
  else if n = 0x810 then
    if v.toNat % 65536 = 0 ∧ inReserve s v.toNat 65536 then setIo s n v else s
  else if n = 0x811 then openQueues s v
  else if n = 0x814 ∨ n = 0x815 then
    let a := fld v 16 48 * 65536
    if inReserve s a 65536 then setIo s n (BitVec.ofNat 64 a) else s
  else if n = 0x812 then setIo s n (clampLog s v)
  else if n = 0x816 then setIo s n (setField (ioCsr s n) 32 32 (min (fld v 32 32) (fld (ioCsr s n) 0 32)))
  else if n = 0x817 ∨ n = 0x841 ∨ n = 0x843 ∨ n = 0x844 then (if v = 0 then setIo s n 0 else s)
  else if 0x820 ≤ n ∧ n ≤ 0x825 then
    let w := clampCsr n v
    modYard (setIo s n w) (n - 0x820) (fun y => { y with floorNext := some (fld w 0 11, s.mcycle) })
  else if 0x834 ≤ n ∧ n ≤ 0x836 then
    (List.range 64).foldl (fun s i => if bit v i then modStall s (64 * (n - 0x834) + i) (fun t => { t with suspect := false }) else s) s
  else if n = 0x840 then (if s.rqJob.isSome then s else { s with rqJob := some (v.toNat / 32 * 32) })
  else if n = 0x842 then (if bit v 63 then { s with fbOverflow := false, heldTotal := 0 } else s)
  else if n = 0x849 then freeEntry s
  else if n = 0x851 then writeRegion s v
  else if n = 0x881 then writeYctl s v
  else if n = 0x882 then writeDegr s v
  else if n = 0x883 then requestRepair s v
  else if n = 0x8B0 then measExtend s v
  else if n = 0x8B1 then startRegistration s v.toNat
  else if n = 0x8C0 then setIo s n (ioCsr s n &&& ~~~v)
  else setIo s n (clampCsr n v)

/-- PRIV_CSR_WRITE: A write to a privileged CSR, with clamping or refusal; a number that R412 does not assign, or assigns for reading
only, is no instruction's and changes nothing (R411, R412, log 107). -/
def execPrivCsrWrite (c n v : Nat) (s : State) : Host.Outcome State Fault Refusal :=
  .next (if csrPriv n && !csrPrivReadOnly n then privWrite s c n (BitVec.ofNat 64 v) else s)

/-- SVDATA_ACCESS: An access to csr.svdata reads or writes served state and advances csr.svoff by 8; `wr` is none for a read (R412). -/
def execSvdataAccess (c : Nat) (wr : Bool) (v : Nat) (s : State) : Host.Outcome State Fault Refusal :=
  .next (if wr then privWrite s c 0x801 (BitVec.ofNat 64 v)
    else modStall s (stallOf c) (fun t => { t with svoff := mput t.svoff (slotOf c) ((mget t.svoff (slotOf c) 0 + 8) % 2 ^ 21) }))

/-- FIRMWARE_REQUEST_POST: A csr.svpost write posts a firmware request for a context (R412). -/
def execFirmwareRequestPost (v : Nat) (s : State) : Host.Outcome State Fault Refusal := .next (postRequest s (BitVec.ofNat 64 v))

/-- OPEN_QUEUES: The first csr.cmdbase write places the command region and opens the queues (R303, R425). -/
def execOpenQueues (v : Nat) (s : State) : Host.Outcome State Fault Refusal := .next (openQueues s (BitVec.ofNat 64 v))

/-- FREE_FAULT_ENTRY: A csr.fbfree write frees the oldest entry and releases the next held fault (R354). -/
def execFreeFaultEntry (s : State) : Host.Outcome State Fault Refusal := .next (freeEntry s)

/-- EVENT_CLEAR: Writing 1 to a csr.evpend bit clears the event (R409). -/
def execEventClear (v : Nat) (s : State) : Host.Outcome State Fault Refusal := .next (privWrite s 0 0x8C0 (BitVec.ofNat 64 v))

/-- FBSTAT_OVERFLOW_CLEAR: Writing 1 to the overflow bit clears it and heldtotal (R355). -/
def execFbstatOverflowClear (v : Nat) (s : State) : Host.Outcome State Fault Refusal := .next (privWrite s 0 0x842 (BitVec.ofNat 64 v))

/-- SUSPECT_CLEAR: Writing 1 to a suspect bit clears it (R393, R412). -/
def execSuspectClear (n v : Nat) (s : State) : Host.Outcome State Fault Refusal := .next (privWrite s 0 (0x834 + n % 3) (BitVec.ofNat 64 v))

/-- REGION_ENTRY_WRITE: A csr.rtent write installs a region entry or is refused (R346). -/
def execRegionEntryWrite (v : Nat) (s : State) : Host.Outcome State Fault Refusal := .next (writeRegion s (BitVec.ofNat 64 v))

/-- A Yard's new clock floor, in force from the first multiple of 1,024 module cycles after it was written (R429, log 90). -/
def takeFloor (mcycle : Nat) (y : Yard) : Yard :=
  match y.floorNext with
  | some f => if mcycle % 1024 = 0 ∧ f.2 < mcycle then { y with floor := f.1, floorNext := none } else y
  | none => y

/-- CLOCK_FLOOR_CHANGE: A new clock floor takes effect at the next multiple of 1,024 module cycles (R429). -/
def execClockFloorChange (yard : Nat) (s : State) : Host.Outcome State Fault Refusal :=
  .next (modYard s yard (takeFloor s.mcycle))

end Sys2Proof.Machine
end

