-- ==== Sys2Proof/Machine/Perform.lean ====
section
/-!
DEFINITION. How one slot operation runs in its bundle: its check first, then its effect where its predicate is true (R75,
R92, R268), and the CSRs that user code reads (R37, R38, R134).
-/

namespace Sys2Proof.Machine

/-- The running context frozen at its bundle on a wait; its frozen time at the bundle goes on (R268, R274, R276). -/
def freezeHere (s : State) (w : Wait) : State := modMe s (fun c => { c with wait := w })

/-- One slot operation: a failing check raises its fault or freezes the context, and an operation whose predicate is false has
no effect (R75). -/
def perform (s : State) (ck : Check) (p : BitVec 5) (eff : State → State) : Host.Outcome State Fault Refusal :=
  match ck with
  | .fault code info | .clash code info => .next (raiseHere s code info)
  | .wait w => .next (freezeHere s w)
  | .ok => .next (if predTrue (me s) p then eff s else s)

/-- A bay read at issue: poison among its ranges lets nothing of the access land and is consumed from the landing cycle on; else
single-bit errors are corrected and the access goes on (R188, R383, R384). -/
def readAtIssue (s : State) (ranges : List (Nat × Nat)) (lands : Nat) (go : State → State) : State :=
  let sb := stableOf s.cur.ctx
  match (if s.marks.isEmpty then none else ranges.findSome? (fun r => poisonIn s 0x0B sb 512 r.1 r.2)) with
  | some info =>
    modMe (findBad s (markHit 0x0B sb 512 ranges) false) (fun x =>
      { x with late := x.late ++ [{ code := 0x30, cycle := lands, slot := s.cur.slot, info := info, at0 := 0, pc0 := 0, count := 0, synd := 0 }] })
  | none => go (correctAll s (markHit 0x0B sb 512 ranges))

/-- csr.self (R38): slot, Stall, Stable, Yard and global Stall. -/
def csrSelf (c : Nat) : Word :=
  let g := stallOf c
  BitVec.ofNat 64 (slotOf c * 2 ^ 16 + g % 2 * 2 ^ 15 + g / 2 % 16 * 2 ^ 11 + g / 32 * 2 ^ 8 + g)

/-- csr.grant (R38). -/
def csrGrant (g : Grant) : Word :=
  BitVec.ofNat 64 ((if g.taps = 0 then 0 else 2 ^ 31) + g.loops * 2 ^ 28 + g.macros.toNat * 2 ^ 20 + g.streams * 2 ^ 14 +
    g.kregs * 2 ^ 5 + g.tiles)

/-- A CSR of user code at the issue cycle (R37, R134); a service context reads the served context's csr.tapstat (R183, log 34). -/
def csrUserRead (s : State) (c n : Nat) : Word :=
  let x := ctxOf s c
  let y := yardAt s (yardOf c)
  let st := stableAt s (stableOf c)
  match n with
  | 0x000 => BitVec.ofNat 64 s.mcycle
  | 0x001 => BitVec.ofNat 64 y.ycycle
  | 0x002 => BitVec.ofNat 64 y.yslip
  | 0x003 => BitVec.ofNat 64 x.ccycle
  | 0x010 => csrSelf (homeOf s c)
  | 0x011 => csrGrant x.grant
  | 0x012 => x.grant.sems
  | 0x020 => x.mode.setWidth 64
  | 0x021 => x.fflags.setWidth 64
  | 0x030 => (st.mxPending.getD st.mxwin).setWidth 64
  | 0x040 => BitVec.ofNat 64 x.deadline
  | 0x041 =>
    let o := ctxOf s (if isSvc c then served c else c)
    if o.grant.taps = 0 then 0 else o.tapstat.setWidth 64
  | 0x050 => BitVec.ofNat 64 s.cur.undo
  | _ => if 0x022 ≤ n ∧ n ≤ 0x029 then mget x.cov (n - 0x022) 0 else 0

/-- The value a CSRR writes (R134, R411). -/
def csrRead (s : State) (c n : Nat) : Word := if n < 0x800 then csrUserRead s c n else privRead s c n

/-- The effect of reading a CSR: each access to csr.svdata adds 8 to csr.svoff (R412). -/
def csrReadEffect (s : State) (n : Nat) : State :=
  if n = 0x801 then
    modStall s (stallOf s.cur.ctx) (fun t =>
      { t with svoff := mput t.svoff (slotOf s.cur.ctx) ((mget t.svoff (slotOf s.cur.ctx) 0 + 8) % 2 ^ 21) })
  else s

/-- A CSRW: the write lands at issue + 1 (R37, R134, log 41). -/
def csrWrite (s : State) (n : Nat) (v : Word) : State := emit s 1 (.csr n v)

end Sys2Proof.Machine
end

