-- ==== Sys2Proof/Machine/Scalar.lean ====
section
/-!
DEFINITION. The S slot: integer arithmetic, compares, predicates, constants, CSRs and loop bounds (R117 to R124, R132, R134, R135).
-/

namespace Sys2Proof.Machine

/-- Division of R120: unsigned. -/
def divU (a b : Word) : Word := if b = 0 then BitVec.allOnes 64 else BitVec.ofNat 64 (a.toNat / b.toNat)
/-- Division of R120: signed, truncated towards zero. -/
def divS (a b : Word) : Word := if b = 0 then BitVec.allOnes 64 else BitVec.ofInt 64 (a.toInt.tdiv b.toInt)
/-- Remainder of R120: unsigned. -/
def remU (a b : Word) : Word := if b = 0 then a else BitVec.ofNat 64 (a.toNat % b.toNat)
/-- The high half of an unsigned product (R119). -/
def mulHigh (a b : Word) : Word := BitVec.ofNat 64 (a.toNat * b.toNat / 2 ^ 64)
/-- The high half of a signed product (R119). -/
def mulHighS (a b : Word) : Word := BitVec.ofInt 64 (a.toInt * b.toInt / 2 ^ 64)
/-- Leading zero bits below position `n` (R119). -/
def clzFrom (a : Word) : Nat → Nat
  | 0 => 64
  | n + 1 => if bit a n then 63 - n else clzFrom a n
/-- Leading zero bits, 0 to 64 (R119). -/
def clz (a : Word) : Word := BitVec.ofNat 64 (clzFrom a 64)
/-- One bits of a number below position `n`. -/
def countOnes (x : Nat) : Nat → Nat
  | 0 => 0
  | n + 1 => (if x.testBit n then 1 else 0) + countOnes x n
/-- One bits, 0 to 64 (R119). -/
def popc (a : Word) : Word := BitVec.ofNat 64 (countOnes a.toNat 64)

/-- The value ADD writes (R119). -/
def valAdd (a b : Word) : Word := a + b
/-- The value SUB writes (R119). -/
def valSub (a b : Word) : Word := a - b
/-- The value MUL writes (R119). -/
def valMul (a b : Word) : Word := a * b
/-- The value MULH writes (R119). -/
def valMulh (a b : Word) : Word := mulHigh a b
/-- The value MULHS writes (R119). -/
def valMulhs (a b : Word) : Word := mulHighS a b
/-- The value DIV writes (R120). -/
def valDiv (a b : Word) : Word := divU a b
/-- The value DIVS writes (R120). -/
def valDivs (a b : Word) : Word := divS a b
/-- The value REM writes (R120). -/
def valRem (a b : Word) : Word := remU a b
/-- The value AND writes (R119). -/
def valAnd (a b : Word) : Word := a &&& b
/-- The value OR writes (R119). -/
def valOr (a b : Word) : Word := a ||| b
/-- The value XOR writes (R119). -/
def valXor (a b : Word) : Word := a ^^^ b
/-- The value ANDN writes (R119). -/
def valAndn (a b : Word) : Word := a &&& ~~~b
/-- The value SHL writes (R119). -/
def valShl (a b : Word) : Word := a <<< (b.toNat % 64)
/-- The value SHR writes (R119). -/
def valShr (a b : Word) : Word := a >>> (b.toNat % 64)
/-- The value SAR writes (R119). -/
def valSar (a b : Word) : Word := a.sshiftRight (b.toNat % 64)
/-- The value ROTL writes (R119). -/
def valRotl (a b : Word) : Word := a.rotateLeft (b.toNat % 64)
/-- The value MIN writes (R119). -/
def valMin (a b : Word) : Word := if b.ult a then b else a
/-- The value MAX writes (R119). -/
def valMax (a b : Word) : Word := if a.ult b then b else a
/-- The value MINS writes (R119). -/
def valMins (a b : Word) : Word := if b.slt a then b else a
/-- The value MAXS writes (R119). -/
def valMaxs (a b : Word) : Word := if a.slt b then b else a

/-- ADD: Writes d := a + b mod 2^64; lands at issue + 1 (R119). -/
def execAdd (p : BitVec 5) (d a b : BitVec 6) (s : State) : Host.Outcome State Fault Refusal :=
  perform s (checkI s (.add p d a b)) p fun s =>
    emitS s 1 d (valAdd (sreg (me s) a.toNat) (sreg (me s) b.toNat))

/-- SUB: Writes d := a − b mod 2^64 (R119). -/
def execSub (p : BitVec 5) (d a b : BitVec 6) (s : State) : Host.Outcome State Fault Refusal :=
  perform s (checkI s (.sub p d a b)) p fun s =>
    emitS s 1 d (valSub (sreg (me s) a.toNat) (sreg (me s) b.toNat))

/-- MUL: Writes the low 64 bits of the unsigned product; lands at issue + 3 (R119). -/
def execMul (p : BitVec 5) (d a b : BitVec 6) (s : State) : Host.Outcome State Fault Refusal :=
  perform s (checkI s (.mul p d a b)) p fun s =>
    emitS s 3 d (valMul (sreg (me s) a.toNat) (sreg (me s) b.toNat))

/-- MULH: Writes the high 64 bits of the unsigned product (R119). -/
def execMulh (p : BitVec 5) (d a b : BitVec 6) (s : State) : Host.Outcome State Fault Refusal :=
  perform s (checkI s (.mulh p d a b)) p fun s =>
    emitS s 3 d (valMulh (sreg (me s) a.toNat) (sreg (me s) b.toNat))

/-- MULHS: Writes the high 64 bits of the signed product (R119). -/
def execMulhs (p : BitVec 5) (d a b : BitVec 6) (s : State) : Host.Outcome State Fault Refusal :=
  perform s (checkI s (.mulhs p d a b)) p fun s =>
    emitS s 3 d (valMulhs (sreg (me s) a.toNat) (sreg (me s) b.toNat))

/-- DIV: Unsigned division with fixed results for b = 0; lands at issue + 18 (R120). -/
def execDiv (p : BitVec 5) (d a b : BitVec 6) (s : State) : Host.Outcome State Fault Refusal :=
  perform s (checkI s (.div p d a b)) p fun s =>
    emitS s 18 d (valDiv (sreg (me s) a.toNat) (sreg (me s) b.toNat))

/-- DIVS: Signed division truncated towards zero, with fixed special cases (R120). -/
def execDivs (p : BitVec 5) (d a b : BitVec 6) (s : State) : Host.Outcome State Fault Refusal :=
  perform s (checkI s (.divs p d a b)) p fun s =>
    emitS s 18 d (valDivs (sreg (me s) a.toNat) (sreg (me s) b.toNat))

/-- REM: Unsigned remainder; b = 0 gives a (R120). -/
def execRem (p : BitVec 5) (d a b : BitVec 6) (s : State) : Host.Outcome State Fault Refusal :=
  perform s (checkI s (.rem p d a b)) p fun s =>
    emitS s 18 d (valRem (sreg (me s) a.toNat) (sreg (me s) b.toNat))

/-- AND: Bitwise AND of two scalars (R119). -/
def execAnd (p : BitVec 5) (d a b : BitVec 6) (s : State) : Host.Outcome State Fault Refusal :=
  perform s (checkI s (.and p d a b)) p fun s =>
    emitS s 1 d (valAnd (sreg (me s) a.toNat) (sreg (me s) b.toNat))

/-- OR: Bitwise OR of two scalars (R119). -/
def execOr (p : BitVec 5) (d a b : BitVec 6) (s : State) : Host.Outcome State Fault Refusal :=
  perform s (checkI s (.or p d a b)) p fun s =>
    emitS s 1 d (valOr (sreg (me s) a.toNat) (sreg (me s) b.toNat))

/-- XOR: Bitwise XOR of two scalars (R119). -/
def execXor (p : BitVec 5) (d a b : BitVec 6) (s : State) : Host.Outcome State Fault Refusal :=
  perform s (checkI s (.xor p d a b)) p fun s =>
    emitS s 1 d (valXor (sreg (me s) a.toNat) (sreg (me s) b.toNat))

/-- ANDN: Writes a AND NOT b (R119). -/
def execAndn (p : BitVec 5) (d a b : BitVec 6) (s : State) : Host.Outcome State Fault Refusal :=
  perform s (checkI s (.andn p d a b)) p fun s =>
    emitS s 1 d (valAndn (sreg (me s) a.toNat) (sreg (me s) b.toNat))

/-- SHL: Shifts a left by b<5:0> (R119). -/
def execShl (p : BitVec 5) (d a b : BitVec 6) (s : State) : Host.Outcome State Fault Refusal :=
  perform s (checkI s (.shl p d a b)) p fun s =>
    emitS s 1 d (valShl (sreg (me s) a.toNat) (sreg (me s) b.toNat))

/-- SHR: Shifts a right with zeros by b<5:0> (R119). -/
def execShr (p : BitVec 5) (d a b : BitVec 6) (s : State) : Host.Outcome State Fault Refusal :=
  perform s (checkI s (.shr p d a b)) p fun s =>
    emitS s 1 d (valShr (sreg (me s) a.toNat) (sreg (me s) b.toNat))

/-- SAR: Shifts a right copying bit 63 by b<5:0> (R119). -/
def execSar (p : BitVec 5) (d a b : BitVec 6) (s : State) : Host.Outcome State Fault Refusal :=
  perform s (checkI s (.sar p d a b)) p fun s =>
    emitS s 1 d (valSar (sreg (me s) a.toNat) (sreg (me s) b.toNat))

/-- ROTL: Rotates a left by b<5:0> (R119). -/
def execRotl (p : BitVec 5) (d a b : BitVec 6) (s : State) : Host.Outcome State Fault Refusal :=
  perform s (checkI s (.rotl p d a b)) p fun s =>
    emitS s 1 d (valRotl (sreg (me s) a.toNat) (sreg (me s) b.toNat))

/-- MIN: Writes the unsigned minimum (R119). -/
def execMin (p : BitVec 5) (d a b : BitVec 6) (s : State) : Host.Outcome State Fault Refusal :=
  perform s (checkI s (.min p d a b)) p fun s =>
    emitS s 1 d (valMin (sreg (me s) a.toNat) (sreg (me s) b.toNat))

/-- MAX: Writes the unsigned maximum (R119). -/
def execMax (p : BitVec 5) (d a b : BitVec 6) (s : State) : Host.Outcome State Fault Refusal :=
  perform s (checkI s (.max p d a b)) p fun s =>
    emitS s 1 d (valMax (sreg (me s) a.toNat) (sreg (me s) b.toNat))

/-- MINS: Writes the signed minimum (R119). -/
def execMins (p : BitVec 5) (d a b : BitVec 6) (s : State) : Host.Outcome State Fault Refusal :=
  perform s (checkI s (.mins p d a b)) p fun s =>
    emitS s 1 d (valMins (sreg (me s) a.toNat) (sreg (me s) b.toNat))

/-- MAXS: Writes the signed maximum (R119). -/
def execMaxs (p : BitVec 5) (d a b : BitVec 6) (s : State) : Host.Outcome State Fault Refusal :=
  perform s (checkI s (.maxs p d a b)) p fun s =>
    emitS s 1 d (valMaxs (sreg (me s) a.toNat) (sreg (me s) b.toNat))

/-- ADDSH: d := a + (b << sh) (R119). -/
def execAddsh (p : BitVec 5) (d a b : BitVec 6) (sh : BitVec 3) (s : State) : Host.Outcome State Fault Refusal :=
  perform s (checkI s (.addsh p d a b sh)) p fun s =>
    emitS s 1 d ((sreg (me s) a.toNat) + ((sreg (me s) b.toNat) <<< sh.toNat))

/-- CLZ (R119). -/
def execClz (p : BitVec 5) (d a : BitVec 6) (s : State) : Host.Outcome State Fault Refusal :=
  perform s (checkI s (.clz p d a)) p fun s =>
    emitS s 1 d (clz (sreg (me s) a.toNat))

/-- POPC (R119). -/
def execPopc (p : BitVec 5) (d a : BitVec 6) (s : State) : Host.Outcome State Fault Refusal :=
  perform s (checkI s (.popc p d a)) p fun s =>
    emitS s 1 d (popc (sreg (me s) a.toNat))

/-- SEL: a if pc is true, else b (R119). -/
def execSel (p : BitVec 5) (d a b : BitVec 6) (pc : BitVec 4) (s : State) : Host.Outcome State Fault Refusal :=
  perform s (checkI s (.sel p d a b pc)) p fun s =>
    emitS s 1 d (if preg (me s) pc.toNat then (sreg (me s) a.toNat) else (sreg (me s) b.toNat))

/-- ADDI: as ADD with the immediate of R121 for b. -/
def execAddi (p : BitVec 5) (d a : BitVec 6) (psel : BitVec 2) (imm : BitVec 22) (s : State) : Host.Outcome State Fault Refusal :=
  perform s (checkI s (.addi p d a psel imm)) p fun s =>
    emitS s 1 d (valAdd (sreg (me s) a.toNat) (immOf s psel imm true))

/-- MUL_IMM: as MUL with the immediate of R121 for b. -/
def execMulImm (p : BitVec 5) (d a : BitVec 6) (psel : BitVec 2) (imm : BitVec 22) (s : State) : Host.Outcome State Fault Refusal :=
  perform s (checkI s (.mulImm p d a psel imm)) p fun s =>
    emitS s 3 d (valMul (sreg (me s) a.toNat) (immOf s psel imm true))

/-- AND_IMM: as AND with the immediate of R121 for b. -/
def execAndImm (p : BitVec 5) (d a : BitVec 6) (psel : BitVec 2) (imm : BitVec 22) (s : State) : Host.Outcome State Fault Refusal :=
  perform s (checkI s (.andImm p d a psel imm)) p fun s =>
    emitS s 1 d (valAnd (sreg (me s) a.toNat) (immOf s psel imm false))

/-- OR_IMM: as OR with the immediate of R121 for b. -/
def execOrImm (p : BitVec 5) (d a : BitVec 6) (psel : BitVec 2) (imm : BitVec 22) (s : State) : Host.Outcome State Fault Refusal :=
  perform s (checkI s (.orImm p d a psel imm)) p fun s =>
    emitS s 1 d (valOr (sreg (me s) a.toNat) (immOf s psel imm false))

/-- XOR_IMM: as XOR with the immediate of R121 for b. -/
def execXorImm (p : BitVec 5) (d a : BitVec 6) (psel : BitVec 2) (imm : BitVec 22) (s : State) : Host.Outcome State Fault Refusal :=
  perform s (checkI s (.xorImm p d a psel imm)) p fun s =>
    emitS s 1 d (valXor (sreg (me s) a.toNat) (immOf s psel imm false))

/-- SHL_IMM: as SHL with the immediate of R121 for b. -/
def execShlImm (p : BitVec 5) (d a : BitVec 6) (psel : BitVec 2) (imm : BitVec 22) (s : State) : Host.Outcome State Fault Refusal :=
  perform s (checkI s (.shlImm p d a psel imm)) p fun s =>
    emitS s 1 d (valShl (sreg (me s) a.toNat) (immOf s psel imm false))

/-- SHR_IMM: as SHR with the immediate of R121 for b. -/
def execShrImm (p : BitVec 5) (d a : BitVec 6) (psel : BitVec 2) (imm : BitVec 22) (s : State) : Host.Outcome State Fault Refusal :=
  perform s (checkI s (.shrImm p d a psel imm)) p fun s =>
    emitS s 1 d (valShr (sreg (me s) a.toNat) (immOf s psel imm false))

/-- SAR_IMM: as SAR with the immediate of R121 for b. -/
def execSarImm (p : BitVec 5) (d a : BitVec 6) (psel : BitVec 2) (imm : BitVec 22) (s : State) : Host.Outcome State Fault Refusal :=
  perform s (checkI s (.sarImm p d a psel imm)) p fun s =>
    emitS s 1 d (valSar (sreg (me s) a.toNat) (immOf s psel imm false))

/-- ROTL_IMM: as ROTL with the immediate of R121 for b. -/
def execRotlImm (p : BitVec 5) (d a : BitVec 6) (psel : BitVec 2) (imm : BitVec 22) (s : State) : Host.Outcome State Fault Refusal :=
  perform s (checkI s (.rotlImm p d a psel imm)) p fun s =>
    emitS s 1 d (valRotl (sreg (me s) a.toNat) (immOf s psel imm false))

/-- MIN_IMM: as MIN with the immediate of R121 for b. -/
def execMinImm (p : BitVec 5) (d a : BitVec 6) (psel : BitVec 2) (imm : BitVec 22) (s : State) : Host.Outcome State Fault Refusal :=
  perform s (checkI s (.minImm p d a psel imm)) p fun s =>
    emitS s 1 d (valMin (sreg (me s) a.toNat) (immOf s psel imm false))

/-- MAX_IMM: as MAX with the immediate of R121 for b. -/
def execMaxImm (p : BitVec 5) (d a : BitVec 6) (psel : BitVec 2) (imm : BitVec 22) (s : State) : Host.Outcome State Fault Refusal :=
  perform s (checkI s (.maxImm p d a psel imm)) p fun s =>
    emitS s 1 d (valMax (sreg (me s) a.toNat) (immOf s psel imm false))

/-- MINS_IMM: as MINS with the immediate of R121 for b. -/
def execMinsImm (p : BitVec 5) (d a : BitVec 6) (psel : BitVec 2) (imm : BitVec 22) (s : State) : Host.Outcome State Fault Refusal :=
  perform s (checkI s (.minsImm p d a psel imm)) p fun s =>
    emitS s 1 d (valMins (sreg (me s) a.toNat) (immOf s psel imm true))

/-- MAXS_IMM: as MAXS with the immediate of R121 for b. -/
def execMaxsImm (p : BitVec 5) (d a : BitVec 6) (psel : BitVec 2) (imm : BitVec 22) (s : State) : Host.Outcome State Fault Refusal :=
  perform s (checkI s (.maxsImm p d a psel imm)) p fun s =>
    emitS s 1 d (valMaxs (sreg (me s) a.toNat) (immOf s psel imm true))

/-- CMPEQ (R122). -/
def execCmpeq (p : BitVec 5) (pd : BitVec 4) (a b : BitVec 6) (s : State) : Host.Outcome State Fault Refusal :=
  perform s (checkI s (.cmpeq p pd a b)) p fun s =>
    emitP s 1 pd (compare 0 (sreg (me s) a.toNat) (sreg (me s) b.toNat))

/-- CMPNE (R122). -/
def execCmpne (p : BitVec 5) (pd : BitVec 4) (a b : BitVec 6) (s : State) : Host.Outcome State Fault Refusal :=
  perform s (checkI s (.cmpne p pd a b)) p fun s =>
    emitP s 1 pd (compare 1 (sreg (me s) a.toNat) (sreg (me s) b.toNat))

/-- CMPLT (R122). -/
def execCmplt (p : BitVec 5) (pd : BitVec 4) (a b : BitVec 6) (s : State) : Host.Outcome State Fault Refusal :=
  perform s (checkI s (.cmplt p pd a b)) p fun s =>
    emitP s 1 pd (compare 2 (sreg (me s) a.toNat) (sreg (me s) b.toNat))

/-- CMPLTS (R122). -/
def execCmplts (p : BitVec 5) (pd : BitVec 4) (a b : BitVec 6) (s : State) : Host.Outcome State Fault Refusal :=
  perform s (checkI s (.cmplts p pd a b)) p fun s =>
    emitP s 1 pd (compare 3 (sreg (me s) a.toNat) (sreg (me s) b.toNat))

/-- CMPLE (R122). -/
def execCmple (p : BitVec 5) (pd : BitVec 4) (a b : BitVec 6) (s : State) : Host.Outcome State Fault Refusal :=
  perform s (checkI s (.cmple p pd a b)) p fun s =>
    emitP s 1 pd (compare 4 (sreg (me s) a.toNat) (sreg (me s) b.toNat))

/-- CMPLES (R122). -/
def execCmples (p : BitVec 5) (pd : BitVec 4) (a b : BitVec 6) (s : State) : Host.Outcome State Fault Refusal :=
  perform s (checkI s (.cmples p pd a b)) p fun s =>
    emitP s 1 pd (compare 5 (sreg (me s) a.toNat) (sreg (me s) b.toNat))

/-- CMPEQ with an immediate (R105, R122). -/
def execCmpeqImm 
    (p : BitVec 5) (pd : BitVec 4) (a : BitVec 6) (psel : BitVec 2) (imm : BitVec 22) (s : State) : Host.Outcome State Fault Refusal :=
  perform s (checkI s (.cmpeqImm p pd a psel imm)) p fun s =>
    emitP s 1 pd (compare 0 (sreg (me s) a.toNat) (immOf s psel imm true))

/-- CMPNE with an immediate (R105, R122). -/
def execCmpneImm 
    (p : BitVec 5) (pd : BitVec 4) (a : BitVec 6) (psel : BitVec 2) (imm : BitVec 22) (s : State) : Host.Outcome State Fault Refusal :=
  perform s (checkI s (.cmpneImm p pd a psel imm)) p fun s =>
    emitP s 1 pd (compare 1 (sreg (me s) a.toNat) (immOf s psel imm true))

/-- CMPLT with an immediate (R105, R122). -/
def execCmpltImm 
    (p : BitVec 5) (pd : BitVec 4) (a : BitVec 6) (psel : BitVec 2) (imm : BitVec 22) (s : State) : Host.Outcome State Fault Refusal :=
  perform s (checkI s (.cmpltImm p pd a psel imm)) p fun s =>
    emitP s 1 pd (compare 2 (sreg (me s) a.toNat) (immOf s psel imm false))

/-- CMPLTS with an immediate (R105, R122). -/
def execCmpltsImm 
    (p : BitVec 5) (pd : BitVec 4) (a : BitVec 6) (psel : BitVec 2) (imm : BitVec 22) (s : State) : Host.Outcome State Fault Refusal :=
  perform s (checkI s (.cmpltsImm p pd a psel imm)) p fun s =>
    emitP s 1 pd (compare 3 (sreg (me s) a.toNat) (immOf s psel imm true))

/-- CMPLE with an immediate (R105, R122). -/
def execCmpleImm 
    (p : BitVec 5) (pd : BitVec 4) (a : BitVec 6) (psel : BitVec 2) (imm : BitVec 22) (s : State) : Host.Outcome State Fault Refusal :=
  perform s (checkI s (.cmpleImm p pd a psel imm)) p fun s =>
    emitP s 1 pd (compare 4 (sreg (me s) a.toNat) (immOf s psel imm false))

/-- CMPLES with an immediate (R105, R122). -/
def execCmplesImm 
    (p : BitVec 5) (pd : BitVec 4) (a : BitVec 6) (psel : BitVec 2) (imm : BitVec 22) (s : State) : Host.Outcome State Fault Refusal :=
  perform s (checkI s (.cmplesImm p pd a psel imm)) p fun s =>
    emitP s 1 pd (compare 5 (sreg (me s) a.toNat) (immOf s psel imm true))

/-- LI short: d := imm or the pool value, sign-extended (R124). -/
def execLi (p : BitVec 5) (d : BitVec 6) (psel : BitVec 2) (imm : BitVec 28) (s : State) : Host.Outcome State Fault Refusal :=
  perform s (checkI s (.li p d psel imm)) p fun s =>
    emitS s 1 d (immOf s psel imm true)

/-- LI long: d := imm<63:0> (R106, R124). -/
def execLiLong (p : BitVec 5) (d : BitVec 6) (imm : BitVec 64) (s : State) : Host.Outcome State Fault Refusal :=
  perform s (checkI s (.liLong p d imm)) p fun s =>
    emitS s 1 d imm

/-- PSET: pd := a ≠ 0 (R123). -/
def execPset (p : BitVec 5) (pd : BitVec 4) (a : BitVec 6) (s : State) : Host.Outcome State Fault Refusal :=
  perform s (checkI s (.pset p pd a)) p fun s =>
    emitP s 1 pd ((sreg (me s) a.toNat) != 0)

/-- PAND over operands that inva and invb invert (R123). -/
def execPand (p : BitVec 5) (pd pa pb : BitVec 4) (inva invb : BitVec 1) (s : State) : Host.Outcome State Fault Refusal :=
  perform s (checkI s (.pand p pd pa pb inva invb)) p fun s =>
    emitP s 1 pd ((preg (me s) pa.toNat != (inva == 1)) && (preg (me s) pb.toNat != (invb == 1)))

/-- POR over operands that inva and invb invert (R123). -/
def execPor (p : BitVec 5) (pd pa pb : BitVec 4) (inva invb : BitVec 1) (s : State) : Host.Outcome State Fault Refusal :=
  perform s (checkI s (.por p pd pa pb inva invb)) p fun s =>
    emitP s 1 pd ((preg (me s) pa.toNat != (inva == 1)) || (preg (me s) pb.toNat != (invb == 1)))

/-- PXOR over operands that inva and invb invert (R123). -/
def execPxor (p : BitVec 5) (pd pa pb : BitVec 4) (inva invb : BitVec 1) (s : State) : Host.Outcome State Fault Refusal :=
  perform s (checkI s (.pxor p pd pa pb inva invb)) p fun s =>
    emitP s 1 pd ((preg (me s) pa.toNat != (inva == 1)) != (preg (me s) pb.toNat != (invb == 1)))

/-- PNOT (R123). -/
def execPnot (p : BitVec 5) (pd pa : BitVec 4) (s : State) : Host.Outcome State Fault Refusal :=
  perform s (checkI s (.pnot p pd pa)) p fun s =>
    emitP s 1 pd (!preg (me s) pa.toNat)

/-- LIDX: the index of the entry idx places below the top, 0 beyond the depth (R132). -/
def execLidx (p : BitVec 5) (d : BitVec 6) (idx : BitVec 3) (s : State) : Host.Outcome State Fault Refusal :=
  perform s (checkI s (.lidx p d idx)) p fun s =>
    emitS s 1 d (((nth (me s).loops idx.toNat ⟨0, 0, 0, 0⟩).index).setWidth 64)

/-- CSRR: the value of the CSR at issue (R134, R411, log 41). -/
def execCsrr (p : BitVec 5) (d : BitVec 6) (csr : BitVec 12) (s : State) : Host.Outcome State Fault Refusal :=
  perform s (checkI s (.csrr p d csr)) p fun s =>
    emitS (csrReadEffect s csr.toNat) 1 d (csrRead s s.cur.ctx csr.toNat)

/-- CSRW from a scalar (R134, R411, log 41). -/
def execCsrw (p : BitVec 5) (a : BitVec 6) (csr : BitVec 12) (s : State) : Host.Outcome State Fault Refusal :=
  perform s (checkI s (.csrw p a csr)) p fun s =>
    csrWrite s csr.toNat (sreg (me s) a.toNat)

/-- CSRW from a zero-extended immediate (R134, R411). -/
def execCsrwImm (p : BitVec 5) (imm : BitVec 16) (csr : BitVec 12) (s : State) : Host.Outcome State Fault Refusal :=
  perform s (checkI s (.csrwImm p imm csr)) p fun s =>
    csrWrite s csr.toNat (imm.setWidth 64)

/-- NBND: n := a<31:0> (R135). -/
def execNbnd (p : BitVec 5) (n : BitVec 4) (a : BitVec 6) (s : State) : Host.Outcome State Fault Refusal :=
  perform s (checkI s (.nbnd p n a)) p fun s =>
    emit s 1 (.nreg n.toNat ((sreg (me s) a.toNat).truncate 32))

/-- NBND with a 32-bit immediate (R135). -/
def execNbndImm (p : BitVec 5) (n : BitVec 4) (imm : BitVec 32) (s : State) : Host.Outcome State Fault Refusal :=
  perform s (checkI s (.nbndImm p n imm)) p fun s =>
    emit s 1 (.nreg n.toNat imm)

end Sys2Proof.Machine
end

