-- ==== Sys2Proof/Machine/Vector.lean ====
section
/-!
DEFINITION. The vector slots: FP32 lanes, compares, integer elements, conversions, data movement, reductions, scans and random numbers
(R151 to R171).
-/

namespace Sys2Proof.Machine

/-- A scalar operand's FP32 value in every lane (R152). -/
def splatF (x : Word) : Row := splat 32 x

/-- VSEL: byte i of va where bit 7 of byte i of vc is 1, else of vb (R158). -/
def vselRow (a b c : Row) : Row :=
  mapElem3 8 (fun x y z => if 128 ≤ z then x else y) a b c

/-- VCLAMP of one lane: VMIN(VMAX(a, lo), hi) with the flags of both steps (R156). -/
def clampLane (lo hi a : BitVec 32) : LaneR :=
  let m := fmax a lo
  let r := fmin m.1 hi
  (r.1, m.2 ||| r.2)

/-- A shift right copying the top bit of a w-bit element (R160). -/
def sarElem (w amt x : Nat) : Nat := lowBits w (signed w x / (2 ^ amt : Nat))

/-- VCVT: N elements converted from sfmt to dfmt, the rest zero, with the OR of their flags (R161). `sc e` is the scale of
element e (R59, R162). -/
def convert (sfmt dfmt : Nat) (sc : Nat → Option FVal) (a : Row) : Row × Flags5 :=
  let cs := containerBits sfmt
  let cd := containerBits dfmt
  let n := 4096 / max cs cd
  let r := (List.range n).map (fun e =>
    let x := decodeElem sfmt (elem cs a.toNat e)
    encodeElem dfmt (match sc e with | none => x | some k => mulV x k))
  (BitVec.ofNat 4096 (packList cd (r.map (·.code))), r.foldl (fun f x => f ||| x.flags) 0)

/-- The scale of element `e` of a vector operand (R59, R60, R162). -/
def scaleOf (c : Ctx) (va : BitVec 13) (cs e : Nat) : FVal :=
  let k := tagReg c (vtile va)
  scaleVal (kfmt k) (kentry k (scaleEntry c va cs e))

/-- VPACK (R163). -/
def packRow (w : Nat) (a b : Row) : Row :=
  rowOf w (4096 / w) (fun e =>
    let m := 4096 / (2 * w)
    if e < m then elem (2 * w) a.toNat e else elem (2 * w) b.toNat (e - m))

/-- VUNPK (R164). -/
def unpackRow (w wide part : Nat) (a : Row) : Row :=
  rowOf wide (4096 / wide) (fun e => elem w a.toNat (part * (4096 / wide) + e))

/-- VPERM: each byte from its own half of va (R165). -/
def permRow (a b : Row) : Row :=
  rowOf 8 512 (fun i => elem 8 a.toNat (256 * (i / 256) + elem 8 b.toNat i))

/-- VSHUF: the source element of output element `e` among n of one width: true for va (R166). -/
def shufSrc (op n e : Nat) : Bool × Nat :=
  match op with
  | 0 => (e % 2 == 0, e / 2)
  | 1 => (e % 2 == 0, e / 2 + n / 2)
  | 2 => if e < n / 2 then (true, 2 * e) else (false, 2 * (e - n / 2))
  | 3 => if e < n / 2 then (true, 2 * e + 1) else (false, 2 * (e - n / 2) + 1)
  | 4 => if e < n - 1 then (true, e + 1) else (false, 0)
  | 5 => if e = 0 then (false, n - 1) else (true, e - 1)
  | _ => if e < n / 2 then (true, e + n / 2) else (false, e - n / 2)

/-- VSHUF over two rows: op in bits 4:2, width in bits 1:0 (R166). -/
def shufRow (pat : BitVec 5) (a b : Row) : Row :=
  let w := 8 <<< fld pat 0 2
  let n := 4096 / w
  rowOf w n (fun e =>
    let r := shufSrc (fld pat 2 3) n e
    elem w (if r.1 then a else b).toNat r.2)

/-- A row with element `i` of width w replaced (R167). -/
def insElem (w i : Nat) (v : Word) (a : Row) : Row :=
  rowOf w (4096 / w) (fun e => if e = i then v.toNat else elem w a.toNat e)

/-- A result in lane 0, zero elsewhere (R168). -/
def laneZero (v : BitVec 32) : Row := v.setWidth 4096

/-- VARGMAX: the index in lane 0 and the value, canonical if a NaN, in lane 1 (R169). -/
def argMaxRow (a : Row) : Row :=
  let i := argMaxIdx a
  let v := lane a i
  BitVec.ofNat 4096 (i + 2 ^ 32 * (if isNan (f32 v) then nan32 else v).toNat)

/-- The lanes of a scan as a row with its flags (R170). -/
def scanOut (r : List (BitVec 32) × Flags5) : Row × Flags5 := (rowOfLanes (fun j => nth r.1 j 0), r.2)

/-- VRNG: the draw of every lane (R171). -/
def rngRow (f : Word → Word → Nat → Nat → Nat → BitVec 32) (seed seq pos : Word) (draw : Nat) : Row :=
  rowOfLanes (fun l => f seed seq (pos.toNat % 2 ^ 32) l draw)

/-- VADD: Lane-wise FP32 addition rounded by rne (R155). -/
def execVadd (p : BitVec 5) (vd va vb : BitVec 13) (s : State) : Host.Outcome State Fault Refusal :=
  perform s (checkI s (.vadd p vd va vb)) p fun s =>
    emitRes s 3 vd (mapRow2 fadd (readVec (me s) va) (readVec (me s) vb))

/-- VSUB: Lane-wise FP32 subtraction (R155). -/
def execVsub (p : BitVec 5) (vd va vb : BitVec 13) (s : State) : Host.Outcome State Fault Refusal :=
  perform s (checkI s (.vsub p vd va vb)) p fun s =>
    emitRes s 3 vd (mapRow2 fsub (readVec (me s) va) (readVec (me s) vb))

/-- VMUL: Lane-wise FP32 multiplication (R155). -/
def execVmul (p : BitVec 5) (vd va vb : BitVec 13) (s : State) : Host.Outcome State Fault Refusal :=
  perform s (checkI s (.vmul p vd va vb)) p fun s =>
    emitRes s 5 vd (mapRow2 fmul (readVec (me s) va) (readVec (me s) vb))

/-- VMIN: Lane-wise FP32 minimum (R155). -/
def execVmin (p : BitVec 5) (vd va vb : BitVec 13) (s : State) : Host.Outcome State Fault Refusal :=
  perform s (checkI s (.vmin p vd va vb)) p fun s =>
    emitRes s 3 vd (mapRow2 fmin (readVec (me s) va) (readVec (me s) vb))

/-- VMAX: Lane-wise FP32 maximum (R155). -/
def execVmax (p : BitVec 5) (vd va vb : BitVec 13) (s : State) : Host.Outcome State Fault Refusal :=
  perform s (checkI s (.vmax p vd va vb)) p fun s =>
    emitRes s 3 vd (mapRow2 fmax (readVec (me s) va) (readVec (me s) vb))

/-- VFMA: Lane-wise fused a × b + c with one rounding (R155). -/
def execVfma (p : BitVec 5) (vd va vb vc : BitVec 13) (s : State) : Host.Outcome State Fault Refusal :=
  perform s (checkI s (.vfma p vd va vb vc)) p fun s =>
    emitRes s 5 vd (mapRow3 ffma (readVec (me s) va) (readVec (me s) vb) (readVec (me s) vc))

/-- VFMS: Lane-wise fused a × b − c (R155). -/
def execVfms (p : BitVec 5) (vd va vb vc : BitVec 13) (s : State) : Host.Outcome State Fault Refusal :=
  perform s (checkI s (.vfms p vd va vb vc)) p fun s =>
    emitRes s 5 vd (mapRow3 ffms (readVec (me s) va) (readVec (me s) vb) (readVec (me s) vc))

/-- VFNMA: Lane-wise fused c − a × b (R155). -/
def execVfnma (p : BitVec 5) (vd va vb vc : BitVec 13) (s : State) : Host.Outcome State Fault Refusal :=
  perform s (checkI s (.vfnma p vd va vb vc)) p fun s =>
    emitRes s 5 vd (mapRow3 ffnma (readVec (me s) va) (readVec (me s) vb) (readVec (me s) vc))

/-- VADD_SCALAR: VADD with a scalar second operand (R155). -/
def execVaddScalar (p : BitVec 5) (vd va : BitVec 13) (sb : BitVec 6) (s : State) : Host.Outcome State Fault Refusal :=
  perform s (checkI s (.vaddScalar p vd va sb)) p fun s =>
    emitRes s 3 vd (mapRow2 fadd (readVec (me s) va) (splatF (sreg (me s) sb.toNat)))

/-- VSUB_SCALAR: VSUB with a scalar second operand (R155). -/
def execVsubScalar (p : BitVec 5) (vd va : BitVec 13) (sb : BitVec 6) (s : State) : Host.Outcome State Fault Refusal :=
  perform s (checkI s (.vsubScalar p vd va sb)) p fun s =>
    emitRes s 3 vd (mapRow2 fsub (readVec (me s) va) (splatF (sreg (me s) sb.toNat)))

/-- VMUL_SCALAR: VMUL with a scalar second operand (R155). -/
def execVmulScalar (p : BitVec 5) (vd va : BitVec 13) (sb : BitVec 6) (s : State) : Host.Outcome State Fault Refusal :=
  perform s (checkI s (.vmulScalar p vd va sb)) p fun s =>
    emitRes s 5 vd (mapRow2 fmul (readVec (me s) va) (splatF (sreg (me s) sb.toNat)))

/-- VMIN_SCALAR: VMIN with a scalar second operand (R155). -/
def execVminScalar (p : BitVec 5) (vd va : BitVec 13) (sb : BitVec 6) (s : State) : Host.Outcome State Fault Refusal :=
  perform s (checkI s (.vminScalar p vd va sb)) p fun s =>
    emitRes s 3 vd (mapRow2 fmin (readVec (me s) va) (splatF (sreg (me s) sb.toNat)))

/-- VMAX_SCALAR: VMAX with a scalar second operand (R155). -/
def execVmaxScalar (p : BitVec 5) (vd va : BitVec 13) (sb : BitVec 6) (s : State) : Host.Outcome State Fault Refusal :=
  perform s (checkI s (.vmaxScalar p vd va sb)) p fun s =>
    emitRes s 3 vd (mapRow2 fmax (readVec (me s) va) (splatF (sreg (me s) sb.toNat)))

/-- VFMA_SCALAR: VFMA with a scalar second operand (R155). -/
def execVfmaScalar (p : BitVec 5) (vd va : BitVec 13) (sb : BitVec 6) (vc : BitVec 13) (s : State) : Host.Outcome State Fault Refusal :=
  perform s (checkI s (.vfmaScalar p vd va sb vc)) p fun s =>
    emitRes s 5 vd (mapRow3 ffma (readVec (me s) va) (splatF (sreg (me s) sb.toNat)) (readVec (me s) vc))

/-- VFMS_SCALAR: VFMS with a scalar second operand (R155). -/
def execVfmsScalar (p : BitVec 5) (vd va : BitVec 13) (sb : BitVec 6) (vc : BitVec 13) (s : State) : Host.Outcome State Fault Refusal :=
  perform s (checkI s (.vfmsScalar p vd va sb vc)) p fun s =>
    emitRes s 5 vd (mapRow3 ffms (readVec (me s) va) (splatF (sreg (me s) sb.toNat)) (readVec (me s) vc))

/-- VFNMA_SCALAR: VFNMA with a scalar second operand (R155). -/
def execVfnmaScalar (p : BitVec 5) (vd va : BitVec 13) (sb : BitVec 6) (vc : BitVec 13) (s : State) : Host.Outcome State Fault Refusal :=
  perform s (checkI s (.vfnmaScalar p vd va sb vc)) p fun s =>
    emitRes s 5 vd (mapRow3 ffnma (readVec (me s) va) (splatF (sreg (me s) sb.toNat)) (readVec (me s) vc))

/-- VABS: Clears the sign bit of each lane (R155). -/
def execVabs (p : BitVec 5) (vd va : BitVec 13) (s : State) : Host.Outcome State Fault Refusal :=
  perform s (checkI s (.vabs p vd va)) p fun s =>
    emitRes s 3 vd (mapRow fabs (readVec (me s) va))

/-- VNEG: Inverts the sign bit of each lane (R155). -/
def execVneg (p : BitVec 5) (vd va : BitVec 13) (s : State) : Host.Outcome State Fault Refusal :=
  perform s (checkI s (.vneg p vd va)) p fun s =>
    emitRes s 3 vd (mapRow fneg (readVec (me s) va))

/-- VRCP: Lane-wise reciprocal by the reference algorithm (R65). -/
def execVrcp (p : BitVec 5) (vd va : BitVec 13) (s : State) : Host.Outcome State Fault Refusal :=
  perform s (checkI s (.vrcp p vd va)) p fun s =>
    emitRes s 7 vd (mapRow vrcp (readVec (me s) va))

/-- VRSQ: Lane-wise reciprocal square root by the reference algorithm (R66). -/
def execVrsq (p : BitVec 5) (vd va : BitVec 13) (s : State) : Host.Outcome State Fault Refusal :=
  perform s (checkI s (.vrsq p vd va)) p fun s =>
    emitRes s 7 vd (mapRow vrsq (readVec (me s) va))

/-- VEXP2: Lane-wise 2^x by the reference algorithm (R64). -/
def execVexp2 (p : BitVec 5) (vd va : BitVec 13) (s : State) : Host.Outcome State Fault Refusal :=
  perform s (checkI s (.vexp2 p vd va)) p fun s =>
    emitRes s 7 vd (mapRow vexp2 (readVec (me s) va))

/-- VLOG2: Lane-wise log2 by the reference algorithm (R64). -/
def execVlog2 (p : BitVec 5) (vd va : BitVec 13) (s : State) : Host.Outcome State Fault Refusal :=
  perform s (checkI s (.vlog2 p vd va)) p fun s =>
    emitRes s 7 vd (mapRow vlog2 (readVec (me s) va))

/-- VCLAMP: Clamps each lane between two scalar bounds (R156). -/
def execVclamp (p : BitVec 5) (vd va : BitVec 13) (slo shi : BitVec 6) (s : State) : Host.Outcome State Fault Refusal :=
  perform s (checkI s (.vclamp p vd va slo shi)) p fun s =>
    emitRes s 3 vd (mapRow (clampLane ((sreg (me s) slo.toNat).truncate 32) ((sreg (me s) shi.toNat).truncate 32)) (readVec (me s) va))

/-- VSEL: Selects each byte from va or vb by bit 7 of the mask byte (R158). -/
def execVsel (p : BitVec 5) (vd va vb vc : BitVec 13) (s : State) : Host.Outcome State Fault Refusal :=
  perform s (checkI s (.vsel p vd va vb vc)) p fun s =>
    emitVec s 3 vd (vselRow (readVec (me s) va) (readVec (me s) vb) (readVec (me s) vc))

/-- VCMPEQ_F: FP32 equality compare into lane masks (R157). -/
def execVcmpeqF (p : BitVec 5) (vd va vb : BitVec 13) (s : State) : Host.Outcome State Fault Refusal :=
  perform s (checkI s (.vcmpeqF p vd va vb)) p fun s =>
    emitRes s 3 vd (mapRow2 fcmpEq (readVec (me s) va) (readVec (me s) vb))

/-- VCMPLT_F: FP32 less-than compare (R157). -/
def execVcmpltF (p : BitVec 5) (vd va vb : BitVec 13) (s : State) : Host.Outcome State Fault Refusal :=
  perform s (checkI s (.vcmpltF p vd va vb)) p fun s =>
    emitRes s 3 vd (mapRow2 fcmpLt (readVec (me s) va) (readVec (me s) vb))

/-- VCMPLE_F: FP32 less-or-equal compare (R157). -/
def execVcmpleF (p : BitVec 5) (vd va vb : BitVec 13) (s : State) : Host.Outcome State Fault Refusal :=
  perform s (checkI s (.vcmpleF p vd va vb)) p fun s =>
    emitRes s 3 vd (mapRow2 fcmpLe (readVec (me s) va) (readVec (me s) vb))

/-- VCMPEQ_I: 32-bit bitwise equality compare (R157). -/
def execVcmpeqI (p : BitVec 5) (vd va vb : BitVec 13) (s : State) : Host.Outcome State Fault Refusal :=
  perform s (checkI s (.vcmpeqI p vd va vb)) p fun s =>
    emitRes s 3 vd (mapRow2 (fun a b => (maskOf (a == b), 0)) (readVec (me s) va) (readVec (me s) vb))

/-- VCMPLT_SI: Signed INT32 less-than compare (R157). -/
def execVcmpltSi (p : BitVec 5) (vd va vb : BitVec 13) (s : State) : Host.Outcome State Fault Refusal :=
  perform s (checkI s (.vcmpltSi p vd va vb)) p fun s =>
    emitRes s 3 vd (mapRow2 (fun a b => (maskOf (a.slt b), 0)) (readVec (me s) va) (readVec (me s) vb))

/-- VCMPLT_UI: Unsigned INT32 less-than compare (R157). -/
def execVcmpltUi (p : BitVec 5) (vd va vb : BitVec 13) (s : State) : Host.Outcome State Fault Refusal :=
  perform s (checkI s (.vcmpltUi p vd va vb)) p fun s =>
    emitRes s 3 vd (mapRow2 (fun a b => (maskOf (a.ult b), 0)) (readVec (me s) va) (readVec (me s) vb))

/-- VCMPLE_SI: Signed INT32 less-or-equal compare (R157). -/
def execVcmpleSi (p : BitVec 5) (vd va vb : BitVec 13) (s : State) : Host.Outcome State Fault Refusal :=
  perform s (checkI s (.vcmpleSi p vd va vb)) p fun s =>
    emitRes s 3 vd (mapRow2 (fun a b => (maskOf (a.sle b), 0)) (readVec (me s) va) (readVec (me s) vb))

/-- VCMPLE_UI: Unsigned INT32 less-or-equal compare (R157). -/
def execVcmpleUi (p : BitVec 5) (vd va vb : BitVec 13) (s : State) : Host.Outcome State Fault Refusal :=
  perform s (checkI s (.vcmpleUi p vd va vb)) p fun s =>
    emitRes s 3 vd (mapRow2 (fun a b => (maskOf (a.ule b), 0)) (readVec (me s) va) (readVec (me s) vb))

/-- VIADD_B: Byte-wise integer addition mod 2^8 (R159). -/
def execViaddB (p : BitVec 5) (vd va vb : BitVec 13) (s : State) : Host.Outcome State Fault Refusal :=
  perform s (checkI s (.viaddB p vd va vb)) p fun s =>
    emitVec s 3 vd (mapElem2 8 (fun a b => a + b) (readVec (me s) va) (readVec (me s) vb))

/-- VIADD_B_SCALAR: Byte-wise addition of a scalar (R159). -/
def execViaddBScalar (p : BitVec 5) (vd va : BitVec 13) (sb : BitVec 6) (s : State) : Host.Outcome State Fault Refusal :=
  perform s (checkI s (.viaddBScalar p vd va sb)) p fun s =>
    emitVec s 3 vd (mapElem2 8 (fun a b => a + b) (readVec (me s) va) (splat 8 (sreg (me s) sb.toNat)))

/-- VIADD_H: 16-bit integer addition (R159). -/
def execViaddH (p : BitVec 5) (vd va vb : BitVec 13) (s : State) : Host.Outcome State Fault Refusal :=
  perform s (checkI s (.viaddH p vd va vb)) p fun s =>
    emitVec s 3 vd (mapElem2 16 (fun a b => a + b) (readVec (me s) va) (readVec (me s) vb))

/-- VIADD_H_SCALAR: 16-bit addition of a scalar (R159). -/
def execViaddHScalar (p : BitVec 5) (vd va : BitVec 13) (sb : BitVec 6) (s : State) : Host.Outcome State Fault Refusal :=
  perform s (checkI s (.viaddHScalar p vd va sb)) p fun s =>
    emitVec s 3 vd (mapElem2 16 (fun a b => a + b) (readVec (me s) va) (splat 16 (sreg (me s) sb.toNat)))

/-- VIADD_W: 32-bit integer addition (R159). -/
def execViaddW (p : BitVec 5) (vd va vb : BitVec 13) (s : State) : Host.Outcome State Fault Refusal :=
  perform s (checkI s (.viaddW p vd va vb)) p fun s =>
    emitVec s 3 vd (mapElem2 32 (fun a b => a + b) (readVec (me s) va) (readVec (me s) vb))

/-- VIADD_W_SCALAR: 32-bit addition of a scalar (R159). -/
def execViaddWScalar (p : BitVec 5) (vd va : BitVec 13) (sb : BitVec 6) (s : State) : Host.Outcome State Fault Refusal :=
  perform s (checkI s (.viaddWScalar p vd va sb)) p fun s =>
    emitVec s 3 vd (mapElem2 32 (fun a b => a + b) (readVec (me s) va) (splat 32 (sreg (me s) sb.toNat)))

/-- VISUB_B: Byte-wise integer subtraction (R159). -/
def execVisubB (p : BitVec 5) (vd va vb : BitVec 13) (s : State) : Host.Outcome State Fault Refusal :=
  perform s (checkI s (.visubB p vd va vb)) p fun s =>
    emitVec s 3 vd (mapElem2 8 (fun a b => a + (2 ^ 8 - b)) (readVec (me s) va) (readVec (me s) vb))

/-- VISUB_B_SCALAR: Byte-wise subtraction of a scalar (R159). -/
def execVisubBScalar (p : BitVec 5) (vd va : BitVec 13) (sb : BitVec 6) (s : State) : Host.Outcome State Fault Refusal :=
  perform s (checkI s (.visubBScalar p vd va sb)) p fun s =>
    emitVec s 3 vd (mapElem2 8 (fun a b => a + (2 ^ 8 - b)) (readVec (me s) va) (splat 8 (sreg (me s) sb.toNat)))

/-- VISUB_H: 16-bit integer subtraction (R159). -/
def execVisubH (p : BitVec 5) (vd va vb : BitVec 13) (s : State) : Host.Outcome State Fault Refusal :=
  perform s (checkI s (.visubH p vd va vb)) p fun s =>
    emitVec s 3 vd (mapElem2 16 (fun a b => a + (2 ^ 16 - b)) (readVec (me s) va) (readVec (me s) vb))

/-- VISUB_H_SCALAR: 16-bit subtraction of a scalar (R159). -/
def execVisubHScalar (p : BitVec 5) (vd va : BitVec 13) (sb : BitVec 6) (s : State) : Host.Outcome State Fault Refusal :=
  perform s (checkI s (.visubHScalar p vd va sb)) p fun s =>
    emitVec s 3 vd (mapElem2 16 (fun a b => a + (2 ^ 16 - b)) (readVec (me s) va) (splat 16 (sreg (me s) sb.toNat)))

/-- VISUB_W: 32-bit integer subtraction (R159). -/
def execVisubW (p : BitVec 5) (vd va vb : BitVec 13) (s : State) : Host.Outcome State Fault Refusal :=
  perform s (checkI s (.visubW p vd va vb)) p fun s =>
    emitVec s 3 vd (mapElem2 32 (fun a b => a + (2 ^ 32 - b)) (readVec (me s) va) (readVec (me s) vb))

/-- VISUB_W_SCALAR: 32-bit subtraction of a scalar (R159). -/
def execVisubWScalar (p : BitVec 5) (vd va : BitVec 13) (sb : BitVec 6) (s : State) : Host.Outcome State Fault Refusal :=
  perform s (checkI s (.visubWScalar p vd va sb)) p fun s =>
    emitVec s 3 vd (mapElem2 32 (fun a b => a + (2 ^ 32 - b)) (readVec (me s) va) (splat 32 (sreg (me s) sb.toNat)))

/-- VIMUL_B: Byte-wise low-half product (R159). -/
def execVimulB (p : BitVec 5) (vd va vb : BitVec 13) (s : State) : Host.Outcome State Fault Refusal :=
  perform s (checkI s (.vimulB p vd va vb)) p fun s =>
    emitVec s 5 vd (mapElem2 8 (fun a b => a * b) (readVec (me s) va) (readVec (me s) vb))

/-- VIMUL_B_SCALAR: Byte-wise product with a scalar (R159). -/
def execVimulBScalar (p : BitVec 5) (vd va : BitVec 13) (sb : BitVec 6) (s : State) : Host.Outcome State Fault Refusal :=
  perform s (checkI s (.vimulBScalar p vd va sb)) p fun s =>
    emitVec s 5 vd (mapElem2 8 (fun a b => a * b) (readVec (me s) va) (splat 8 (sreg (me s) sb.toNat)))

/-- VIMUL_H: 16-bit low-half product (R159). -/
def execVimulH (p : BitVec 5) (vd va vb : BitVec 13) (s : State) : Host.Outcome State Fault Refusal :=
  perform s (checkI s (.vimulH p vd va vb)) p fun s =>
    emitVec s 5 vd (mapElem2 16 (fun a b => a * b) (readVec (me s) va) (readVec (me s) vb))

/-- VIMUL_H_SCALAR: 16-bit product with a scalar (R159). -/
def execVimulHScalar (p : BitVec 5) (vd va : BitVec 13) (sb : BitVec 6) (s : State) : Host.Outcome State Fault Refusal :=
  perform s (checkI s (.vimulHScalar p vd va sb)) p fun s =>
    emitVec s 5 vd (mapElem2 16 (fun a b => a * b) (readVec (me s) va) (splat 16 (sreg (me s) sb.toNat)))

/-- VIMUL_W: 32-bit low-half product (R159). -/
def execVimulW (p : BitVec 5) (vd va vb : BitVec 13) (s : State) : Host.Outcome State Fault Refusal :=
  perform s (checkI s (.vimulW p vd va vb)) p fun s =>
    emitVec s 5 vd (mapElem2 32 (fun a b => a * b) (readVec (me s) va) (readVec (me s) vb))

/-- VIMUL_W_SCALAR: 32-bit product with a scalar (R159). -/
def execVimulWScalar (p : BitVec 5) (vd va : BitVec 13) (sb : BitVec 6) (s : State) : Host.Outcome State Fault Refusal :=
  perform s (checkI s (.vimulWScalar p vd va sb)) p fun s =>
    emitVec s 5 vd (mapElem2 32 (fun a b => a * b) (readVec (me s) va) (splat 32 (sreg (me s) sb.toNat)))

/-- VIMAC_B: Byte-wise a × b + c (R159). -/
def execVimacB (p : BitVec 5) (vd va vb vc : BitVec 13) (s : State) : Host.Outcome State Fault Refusal :=
  perform s (checkI s (.vimacB p vd va vb vc)) p fun s =>
    emitVec s 5 vd (mapElem3 8 (fun a b c => a * b + c) (readVec (me s) va) (readVec (me s) vb) (readVec (me s) vc))

/-- VIMAC_B_SCALAR: Byte-wise a × scalar + c (R159). -/
def execVimacBScalar (p : BitVec 5) (vd va : BitVec 13) (sb : BitVec 6) (vc : BitVec 13) (s : State) : Host.Outcome State Fault Refusal :=
  perform s (checkI s (.vimacBScalar p vd va sb vc)) p fun s =>
    emitVec s 5 vd (mapElem3 8 (fun a b c => a * b + c) (readVec (me s) va) (splat 8 (sreg (me s) sb.toNat)) (readVec (me s) vc))

/-- VIMAC_H: 16-bit a × b + c (R159). -/
def execVimacH (p : BitVec 5) (vd va vb vc : BitVec 13) (s : State) : Host.Outcome State Fault Refusal :=
  perform s (checkI s (.vimacH p vd va vb vc)) p fun s =>
    emitVec s 5 vd (mapElem3 16 (fun a b c => a * b + c) (readVec (me s) va) (readVec (me s) vb) (readVec (me s) vc))

/-- VIMAC_H_SCALAR: 16-bit a × scalar + c (R159). -/
def execVimacHScalar (p : BitVec 5) (vd va : BitVec 13) (sb : BitVec 6) (vc : BitVec 13) (s : State) : Host.Outcome State Fault Refusal :=
  perform s (checkI s (.vimacHScalar p vd va sb vc)) p fun s =>
    emitVec s 5 vd (mapElem3 16 (fun a b c => a * b + c) (readVec (me s) va) (splat 16 (sreg (me s) sb.toNat)) (readVec (me s) vc))

/-- VIMAC_W: 32-bit a × b + c (R159). -/
def execVimacW (p : BitVec 5) (vd va vb vc : BitVec 13) (s : State) : Host.Outcome State Fault Refusal :=
  perform s (checkI s (.vimacW p vd va vb vc)) p fun s =>
    emitVec s 5 vd (mapElem3 32 (fun a b c => a * b + c) (readVec (me s) va) (readVec (me s) vb) (readVec (me s) vc))

/-- VIMAC_W_SCALAR: 32-bit a × scalar + c (R159). -/
def execVimacWScalar (p : BitVec 5) (vd va : BitVec 13) (sb : BitVec 6) (vc : BitVec 13) (s : State) : Host.Outcome State Fault Refusal :=
  perform s (checkI s (.vimacWScalar p vd va sb vc)) p fun s =>
    emitVec s 5 vd (mapElem3 32 (fun a b c => a * b + c) (readVec (me s) va) (splat 32 (sreg (me s) sb.toNat)) (readVec (me s) vc))

/-- VAND: Bitwise AND of 4,096 bits (R160). -/
def execVand (p : BitVec 5) (vd va vb : BitVec 13) (s : State) : Host.Outcome State Fault Refusal :=
  perform s (checkI s (.vand p vd va vb)) p fun s =>
    emitVec s 3 vd ((readVec (me s) va) &&& (readVec (me s) vb))

/-- VOR: Bitwise OR of 4,096 bits (R160). -/
def execVor (p : BitVec 5) (vd va vb : BitVec 13) (s : State) : Host.Outcome State Fault Refusal :=
  perform s (checkI s (.vor p vd va vb)) p fun s =>
    emitVec s 3 vd ((readVec (me s) va) ||| (readVec (me s) vb))

/-- VXOR: Bitwise XOR of 4,096 bits (R160). -/
def execVxor (p : BitVec 5) (vd va vb : BitVec 13) (s : State) : Host.Outcome State Fault Refusal :=
  perform s (checkI s (.vxor p vd va vb)) p fun s =>
    emitVec s 3 vd ((readVec (me s) va) ^^^ (readVec (me s) vb))

/-- VPOPC: Counts one bits in each 32-bit lane (R160). -/
def execVpopc (p : BitVec 5) (vd va : BitVec 13) (s : State) : Host.Outcome State Fault Refusal :=
  perform s (checkI s (.vpopc p vd va)) p fun s =>
    emitVec s 3 vd (mapElem 32 (fun a => countOnes a 32) (readVec (me s) va))

/-- VSHL_B: Shifts each byte left by an immediate (R160). -/
def execVshlB (p : BitVec 5) (vd va : BitVec 13) (amt : BitVec 5) (s : State) : Host.Outcome State Fault Refusal :=
  perform s (checkI s (.vshlB p vd va amt)) p fun s =>
    emitVec s 3 vd (mapElem 8 (fun a => a <<< amt.toNat) (readVec (me s) va))

/-- VSHL_H: Shifts each 16-bit element left (R160). -/
def execVshlH (p : BitVec 5) (vd va : BitVec 13) (amt : BitVec 5) (s : State) : Host.Outcome State Fault Refusal :=
  perform s (checkI s (.vshlH p vd va amt)) p fun s =>
    emitVec s 3 vd (mapElem 16 (fun a => a <<< amt.toNat) (readVec (me s) va))

/-- VSHL_W: Shifts each 32-bit element left (R160). -/
def execVshlW (p : BitVec 5) (vd va : BitVec 13) (amt : BitVec 5) (s : State) : Host.Outcome State Fault Refusal :=
  perform s (checkI s (.vshlW p vd va amt)) p fun s =>
    emitVec s 3 vd (mapElem 32 (fun a => a <<< amt.toNat) (readVec (me s) va))

/-- VSHR_B: Shifts each byte right with zeros (R160). -/
def execVshrB (p : BitVec 5) (vd va : BitVec 13) (amt : BitVec 5) (s : State) : Host.Outcome State Fault Refusal :=
  perform s (checkI s (.vshrB p vd va amt)) p fun s =>
    emitVec s 3 vd (mapElem 8 (fun a => a >>> amt.toNat) (readVec (me s) va))

/-- VSHR_H: Shifts each 16-bit element right with zeros (R160). -/
def execVshrH (p : BitVec 5) (vd va : BitVec 13) (amt : BitVec 5) (s : State) : Host.Outcome State Fault Refusal :=
  perform s (checkI s (.vshrH p vd va amt)) p fun s =>
    emitVec s 3 vd (mapElem 16 (fun a => a >>> amt.toNat) (readVec (me s) va))

/-- VSHR_W: Shifts each 32-bit element right with zeros (R160). -/
def execVshrW (p : BitVec 5) (vd va : BitVec 13) (amt : BitVec 5) (s : State) : Host.Outcome State Fault Refusal :=
  perform s (checkI s (.vshrW p vd va amt)) p fun s =>
    emitVec s 3 vd (mapElem 32 (fun a => a >>> amt.toNat) (readVec (me s) va))

/-- VSAR_B: Arithmetic right shift of each byte (R160). -/
def execVsarB (p : BitVec 5) (vd va : BitVec 13) (amt : BitVec 5) (s : State) : Host.Outcome State Fault Refusal :=
  perform s (checkI s (.vsarB p vd va amt)) p fun s =>
    emitVec s 3 vd (mapElem 8 (fun a => sarElem 8 amt.toNat a) (readVec (me s) va))

/-- VSAR_H: Arithmetic right shift of each 16-bit element (R160). -/
def execVsarH (p : BitVec 5) (vd va : BitVec 13) (amt : BitVec 5) (s : State) : Host.Outcome State Fault Refusal :=
  perform s (checkI s (.vsarH p vd va amt)) p fun s =>
    emitVec s 3 vd (mapElem 16 (fun a => sarElem 16 amt.toNat a) (readVec (me s) va))

/-- VSAR_W: Arithmetic right shift of each 32-bit element (R160). -/
def execVsarW (p : BitVec 5) (vd va : BitVec 13) (amt : BitVec 5) (s : State) : Host.Outcome State Fault Refusal :=
  perform s (checkI s (.vsarW p vd va amt)) p fun s =>
    emitVec s 3 vd (mapElem 32 (fun a => sarElem 32 amt.toNat a) (readVec (me s) va))

/-- VCVT: Converts elements from one format to another (R161). -/
def execVcvt (p : BitVec 5) (vd va : BitVec 13) (sfmt dfmt : BitVec 5) (s : State) : Host.Outcome State Fault Refusal :=
  perform s (checkI s (.vcvt p vd va sfmt dfmt)) p fun s =>
    emitRes s 4 vd (convert sfmt.toNat dfmt.toNat (fun _ => none) (readVec (me s) va))

/-- VCVT_K: Converts elements with block scales from the tile's binding (R162). -/
def execVcvtK (p : BitVec 5) (vd va : BitVec 13) (sfmt dfmt : BitVec 5) (s : State) : Host.Outcome State Fault Refusal :=
  perform s (checkI s (.vcvtK p vd va sfmt dfmt)) p fun s =>
    emitRes s 4 vd
      (convert sfmt.toNat dfmt.toNat (fun e => some (scaleOf (me s) va (containerBits sfmt.toNat) e)) (readVec (me s) va))

/-- VPACK: Narrows two sources into one row (R163). -/
def execVpack (p : BitVec 5) (vd va vb : BitVec 13) (ew3 : BitVec 3) (s : State) : Host.Outcome State Fault Refusal :=
  perform s (checkI s (.vpack p vd va vb ew3)) p fun s =>
    emitVec s 2 vd (packRow (ew3Bits ew3) (readVec (me s) va) (readVec (me s) vb))

/-- VUNPK: Zero-extends one part of narrow elements to a wider width (R164). -/
def execVunpk (p : BitVec 5) (vd va : BitVec 13) (ew3 : BitVec 3) (part : BitVec 4) (s : State) : Host.Outcome State Fault Refusal :=
  perform s (checkI s (.vunpk p vd va ew3 part)) p fun s =>
    emitVec s 2 vd (unpackRow (ew3Bits ew3) (unpkWide ew3) part.toNat (readVec (me s) va))

/-- VPERM: Byte permutation within each 256-byte half (R165). -/
def execVperm (p : BitVec 5) (vd va vb : BitVec 13) (s : State) : Host.Outcome State Fault Refusal :=
  perform s (checkI s (.vperm p vd va vb)) p fun s =>
    emitVec s 2 vd (permRow (readVec (me s) va) (readVec (me s) vb))

/-- VSHUF: Applies a fixed shuffle pattern to two sources (R166). -/
def execVshuf (p : BitVec 5) (vd va vb : BitVec 13) (pattern : BitVec 5) (s : State) : Host.Outcome State Fault Refusal :=
  perform s (checkI s (.vshuf p vd va vb pattern)) p fun s =>
    emitVec s 2 vd (shufRow pattern (readVec (me s) va) (readVec (me s) vb))

/-- VBCAST_SCALAR: Broadcasts a scalar into every element (R167). -/
def execVbcastScalar (p : BitVec 5) (vd : BitVec 13) (sa : BitVec 6) (ew : BitVec 2) (s : State) : Host.Outcome State Fault Refusal :=
  perform s (checkI s (.vbcastScalar p vd sa ew)) p fun s =>
    emitVec s 2 vd (splat (ewBits ew) (sreg (me s) sa.toNat))

/-- VBCAST_ELEMENT: Broadcasts one element of va into every element (R167). -/
def execVbcastElement (p : BitVec 5) (vd va : BitVec 13) (idx : BitVec 9) (ew : BitVec 2) (s : State) : Host.Outcome State Fault Refusal :=
  perform s (checkI s (.vbcastElement p vd va idx ew)) p fun s =>
    emitVec s 2 vd (splat (ewBits ew) (BitVec.ofNat 64 (elem (ewBits ew) (readVec (me s) va).toNat idx.toNat)))

/-- VEXTR_IMM: Extracts an element at an immediate index into a scalar (R167). -/
def execVextrImm 
    (p : BitVec 5) (sd : BitVec 6) (va : BitVec 13) (idx : BitVec 9) (ew : BitVec 2) (s : State) : Host.Outcome State Fault Refusal :=
  perform s (checkI s (.vextrImm p sd va idx ew)) p fun s =>
    emitS s 3 sd (BitVec.ofNat 64 (elem (ewBits ew) (readVec (me s) va).toNat idx.toNat))

/-- VEXTR_SCALAR: Extracts an element at a scalar index into a scalar (R167). -/
def execVextrScalar 
    (p : BitVec 5) (sd : BitVec 6) (va : BitVec 13) (si : BitVec 6) (ew : BitVec 2) (s : State) : Host.Outcome State Fault Refusal :=
  perform s (checkI s (.vextrScalar p sd va si ew)) p fun s =>
    emitS s 3 sd (BitVec.ofNat 64 (elem (ewBits ew) (readVec (me s) va).toNat (idxOf ew (sreg (me s) si.toNat))))

/-- VINS_IMM: Inserts a scalar at an immediate index (R167). -/
def execVinsImm 
    (p : BitVec 5) (vd va : BitVec 13) (sa : BitVec 6) (idx : BitVec 9) (ew : BitVec 2) (s : State) : Host.Outcome State Fault Refusal :=
  perform s (checkI s (.vinsImm p vd va sa idx ew)) p fun s =>
    emitVec s 2 vd (insElem (ewBits ew) idx.toNat (sreg (me s) sa.toNat) (readVec (me s) va))

/-- VINS_SCALAR: Inserts a scalar at a scalar index (R167). -/
def execVinsScalar (p : BitVec 5) (vd va : BitVec 13) (sa si : BitVec 6) (ew : BitVec 2) (s : State) : Host.Outcome State Fault Refusal :=
  perform s (checkI s (.vinsScalar p vd va sa si ew)) p fun s =>
    emitVec s 2 vd (insElem (ewBits ew) (idxOf ew (sreg (me s) si.toNat)) (sreg (me s) sa.toNat) (readVec (me s) va))

/-- VMOV: Copies a vector value through any views (R167). -/
def execVmov (p : BitVec 5) (vd va : BitVec 13) (s : State) : Host.Outcome State Fault Refusal :=
  perform s (checkI s (.vmov p vd va)) p fun s =>
    emitVec s 2 vd (readVec (me s) va)

/-- VRNG: Writes keyed uniform 32-bit random words per lane (R171). -/
def execVrng 
    (p : BitVec 5) (vd : BitVec 13) (sseed sseq spos : BitVec 6) (draw : BitVec 16) (s : State) : Host.Outcome State Fault Refusal :=
  perform s (checkI s (.vrng p vd sseed sseq spos draw)) p fun s =>
    emitVec s 5 vd (rngRow rngU32 (sreg (me s) sseed.toNat) (sreg (me s) sseq.toNat) (sreg (me s) spos.toNat) draw.toNat)

/-- VRNG_F: Writes keyed random floats in [0, 1) per lane (R171). -/
def execVrngF 
    (p : BitVec 5) (vd : BitVec 13) (sseed sseq spos : BitVec 6) (draw : BitVec 16) (s : State) : Host.Outcome State Fault Refusal :=
  perform s (checkI s (.vrngF p vd sseed sseq spos draw)) p fun s =>
    emitVec s 5 vd (rngRow rngF32 (sreg (me s) sseed.toNat) (sreg (me s) sseq.toNat) (sreg (me s) spos.toNat) draw.toNat)

/-- VREDSUM_F: FP32 tree-sum of 128 lanes into lane 0 (R67). -/
def execVredsumF (p : BitVec 5) (vd va : BitVec 13) (s : State) : Host.Outcome State Fault Refusal :=
  perform s (checkI s (.vredsumF p vd va)) p fun s =>
    let r := redSumF (readVec (me s) va)
    emitRes s 9 vd (laneZero r.1, r.2)

/-- VREDSUM_I: Integer sum mod 2^32 of 128 lanes (R168). -/
def execVredsumI (p : BitVec 5) (vd va : BitVec 13) (s : State) : Host.Outcome State Fault Refusal :=
  perform s (checkI s (.vredsumI p vd va)) p fun s =>
    emitVec s 9 vd (laneZero (redSumI (readVec (me s) va)))

/-- VREDMAX_F: FP32 maximum of 128 lanes (R68). -/
def execVredmaxF (p : BitVec 5) (vd va : BitVec 13) (s : State) : Host.Outcome State Fault Refusal :=
  perform s (checkI s (.vredmaxF p vd va)) p fun s =>
    let r := redExtF fmax (readVec (me s) va)
    emitRes s 9 vd (laneZero r.1, r.2)

/-- VREDMAX_SI: Signed INT32 maximum of 128 lanes (R168). -/
def execVredmaxSi (p : BitVec 5) (vd va : BitVec 13) (s : State) : Host.Outcome State Fault Refusal :=
  perform s (checkI s (.vredmaxSi p vd va)) p fun s =>
    emitVec s 9 vd (laneZero (redExtS true (readVec (me s) va)))

/-- VREDMIN_F: FP32 minimum of 128 lanes (R68). -/
def execVredminF (p : BitVec 5) (vd va : BitVec 13) (s : State) : Host.Outcome State Fault Refusal :=
  perform s (checkI s (.vredminF p vd va)) p fun s =>
    let r := redExtF fmin (readVec (me s) va)
    emitRes s 9 vd (laneZero r.1, r.2)

/-- VREDMIN_SI: Signed INT32 minimum of 128 lanes (R168). -/
def execVredminSi (p : BitVec 5) (vd va : BitVec 13) (s : State) : Host.Outcome State Fault Refusal :=
  perform s (checkI s (.vredminSi p vd va)) p fun s =>
    emitVec s 9 vd (laneZero (redExtS false (readVec (me s) va)))

/-- VARGMAX: Writes the index and value of the highest-ranking lane (R169). -/
def execVargmax (p : BitVec 5) (vd va : BitVec 13) (s : State) : Host.Outcome State Fault Refusal :=
  perform s (checkI s (.vargmax p vd va)) p fun s =>
    emitVec s 9 vd (argMaxRow (readVec (me s) va))

/-- VSCAN_F: FP32 inclusive prefix sum over 128 lanes (R69). -/
def execVscanF (p : BitVec 5) (vd va : BitVec 13) (s : State) : Host.Outcome State Fault Refusal :=
  perform s (checkI s (.vscanF p vd va)) p fun s =>
    emitRes s 9 vd (scanOut (scanRow fadd (readVec (me s) va)))

/-- VSCAN_I: Integer inclusive prefix sum mod 2^32 (R170). -/
def execVscanI (p : BitVec 5) (vd va : BitVec 13) (s : State) : Host.Outcome State Fault Refusal :=
  perform s (checkI s (.vscanI p vd va)) p fun s =>
    emitVec s 9 vd (scanOut (scanRow (fun a b => (a + b, 0)) (readVec (me s) va))).1

end Sys2Proof.Machine
end

