-- ==== Sys2Proof/Machine/Scale.lean ====
section
/-!
DEFINITION. The scale instructions and binding tags of the moon file (R172 to R179).
-/

namespace Sys2Proof.Machine

/-- Every entry of a scale register. -/
def allEntries : BitVec 64 := BitVec.allOnes 64

/-- Entries packed into a register (R30). -/
def packEntries (f : Nat → Nat) : BitVec 1024 := BitVec.ofNat 1024 (pack 16 64 f)

/-- Descriptor bits 22:16 from axis, format and block (R30). -/
def descOf (axis : Nat) (fmt : Nat) (block : Nat) : BitVec 7 := BitVec.ofNat 7 (axis % 2 * 64 + fmt % 4 * 16 + block % 16)

/-- A write of a whole scale register landing with its descriptor (R31, R174). -/
def emitScale (s : State) (lat : Nat) (kd : BitVec 8) (e : BitVec 1024) (m : BitVec 64) (d : Option (BitVec 7)) : State :=
  emit s lat (.scale kd.toNat e m d)

/-- The exact value of entry j of a register (R59). -/
def entryVal (k : KReg) (j : Nat) : FVal := scaleVal (kfmt k) (kentry k j)

/-- Scale arithmetic entry by entry, in a result format, with ka's axis and block (R176). -/
def scaleArith (s : State) (kd : BitVec 8) (a : KReg) (fmt : Nat) (f : Nat → FVal) : State :=
  let r := (List.range 64).map (fun j => roundScale fmt (f j))
  emitFlags
    (emitScale s 3 kd (BitVec.ofNat 1024 (packList 16 (r.map (·.code)))) allEntries
      (some (descOf (fld a.desc 22 1) fmt (fld a.desc 16 4))))
    3 (r.foldl (fun g x => g ||| x.flags) 0)

/-- The larger magnitude of two scale values, NaN if either is (R176). -/
def maxMag (a b : FVal) : FVal :=
  if isNan a || isNan b then .nan (isSNan a || isSNan b)
  else if ltV (absV a) (absV b) then absV b else absV a

/-- The step of KADDE from a scalar: signed, clamped to −255 … 255 (R176). -/
def stepOf (x : Word) : Int := max (-255) (min 255 x.toInt)

/-- amax of a run of lanes (R177). -/
def amaxOf (ls : List (BitVec 32)) : FVal := ls.foldl (fun m x => maxMag m (f32 x)) (.fin false 0 0)

/-- The entry KGEN derives from amax (R177). -/
def genEntry (fmt : Nat) (v : FVal) : Rounded :=
  if fmt = 1 then
    match v with
    | .nan sig => ⟨0xFF, flagIf sig fNV⟩
    | .inf _ => ⟨0xFE, fOF⟩
    | .fin _ 0 _ => ⟨0, 0⟩
    | .fin _ m e => ⟨(max 0 (leadExp m e + 127)).toNat, 0⟩
  else roundScale fmt v

/-- KGEN: the entries its blocks reach, in order (R177). -/
def genEntries (fmt block : Nat) (r : Row) : List Rounded :=
  let l := 2 ^ (block + 3)
  if l ≤ 128 then
    (List.range (128 / l)).map (fun j => genEntry fmt (amaxOf (((lanesOf r).drop (j * l)).take l)))
  else [genEntry fmt (amaxOf (lanesOf r))]

/-- KRD to a row: entries, descriptor in bytes 128 to 131, zeros (R175). -/
def scaleRow (k : KReg) : Row := BitVec.ofNat 4096 (k.entries.toNat + k.desc.toNat <<< 1024)

/-- A binding tag landing at issue + 1 with the generation that ks holds at issue (R178). -/
def bindTag (s : State) (t : Nat) (ks : BitVec 8) (axis : BitVec 1) (block : BitVec 4) : State :=
  emit s 1 (.tag t (tagWord (axis ++ block) ks.toNat (kgen (kreg (me s) ks.toNat))))

/-- KSET_IMM: Sets all scale entries and the descriptor from an immediate (R174). -/
def execKsetImm 
    (p : BitVec 5) (kd : BitVec 8) (axis : BitVec 1) (format : BitVec 2) (block : BitVec 4) (value : BitVec 16) (s : State) : Host.Outcome State Fault Refusal :=
  perform s (checkI s (.ksetImm p kd axis format block value)) p fun s =>
    emitScale s 2 kd (packEntries (fun _ => value.toNat)) allEntries (some (axis ++ format ++ block))

/-- KSET_SCALAR: Sets all scale entries and the descriptor from a scalar (R174). -/
def execKsetScalar 
    (p : BitVec 5) (kd : BitVec 8) (axis : BitVec 1) (format : BitVec 2) (block : BitVec 4) (sa : BitVec 6) (s : State) : Host.Outcome State Fault Refusal :=
  perform s (checkI s (.ksetScalar p kd axis format block sa)) p fun s =>
    emitScale s 2 kd (packEntries (fun _ => (sreg (me s) sa.toNat).toNat)) allEntries (some (axis ++ format ++ block))

/-- KMOV: Copies a scale register's entries and geometry (R175). -/
def execKmov (p : BitVec 5) (kd ka : BitVec 8) (s : State) : Host.Outcome State Fault Refusal :=
  perform s (checkI s (.kmov p kd ka)) p fun s =>
    emitScale s 2 kd (kreg (me s) ka.toNat).entries allEntries (some (bits (kreg (me s) ka.toNat).desc 16 7))

/-- KMUL: Multiplies two scale registers entry by entry (R176). -/
def execKmul (p : BitVec 5) (kd ka kb : BitVec 8) (s : State) : Host.Outcome State Fault Refusal :=
  perform s (checkI s (.kmul p kd ka kb)) p fun s =>
    scaleArith s kd (kreg (me s) ka.toNat) (kfmt (kreg (me s) ka.toNat)) (fun j => mulV (entryVal (kreg (me s) ka.toNat) j) (entryVal (kreg (me s) kb.toNat) j))

/-- KADDE_IMM: Scales each entry by 2^step from an immediate (R176). -/
def execKaddeImm (p : BitVec 5) (kd ka step : BitVec 8) (s : State) : Host.Outcome State Fault Refusal :=
  perform s (checkI s (.kaddeImm p kd ka step)) p fun s =>
    scaleArith s kd (kreg (me s) ka.toNat) (kfmt (kreg (me s) ka.toNat)) (fun j => scale2 (entryVal (kreg (me s) ka.toNat) j) step.toInt)

/-- KADDE_SCALAR: Scales each entry by 2^step from a scalar (R176). -/
def execKaddeScalar (p : BitVec 5) (kd ka : BitVec 8) (sb : BitVec 6) (s : State) : Host.Outcome State Fault Refusal :=
  perform s (checkI s (.kaddeScalar p kd ka sb)) p fun s =>
    scaleArith s kd (kreg (me s) ka.toNat) (kfmt (kreg (me s) ka.toNat)) (fun j => scale2 (entryVal (kreg (me s) ka.toNat) j) (stepOf (sreg (me s) sb.toNat)))

/-- KMAXE: Entry-wise maximum magnitude of two scale registers (R176). -/
def execKmaxe (p : BitVec 5) (kd ka kb : BitVec 8) (s : State) : Host.Outcome State Fault Refusal :=
  perform s (checkI s (.kmaxe p kd ka kb)) p fun s =>
    scaleArith s kd (kreg (me s) ka.toNat) (kfmt (kreg (me s) ka.toNat)) (fun j => maxMag (entryVal (kreg (me s) ka.toNat) j) (entryVal (kreg (me s) kb.toNat) j))

/-- KCVT_BF16: Converts scale entries to BF16 (R176). -/
def execKcvtBf16 (p : BitVec 5) (kd ka : BitVec 8) (s : State) : Host.Outcome State Fault Refusal :=
  perform s (checkI s (.kcvtBf16 p kd ka)) p fun s =>
    scaleArith s kd (kreg (me s) ka.toNat) 2 (entryVal (kreg (me s) ka.toNat))

/-- KCVT_E8M0: Converts scale entries to E8M0 (R176). -/
def execKcvtE8m0 (p : BitVec 5) (kd ka : BitVec 8) (s : State) : Host.Outcome State Fault Refusal :=
  perform s (checkI s (.kcvtE8m0 p kd ka)) p fun s =>
    scaleArith s kd (kreg (me s) ka.toNat) 1 (entryVal (kreg (me s) ka.toNat))

/-- KBIND_TILE: Binds a vector tile's tag to a scale register and generation (R178). -/
def execKbindTile 
    (p tile : BitVec 5) (ks : BitVec 8) (axis : BitVec 1) (block : BitVec 4) (s : State) : Host.Outcome State Fault Refusal :=
  perform s (checkI s (.kbindTile p tile ks axis block)) p fun s =>
    bindTag s tile.toNat ks axis block

/-- KBIND_BANK: Binds a CIM macro bank's tag to a scale register (R178). -/
def execKbindBank 
    (p : BitVec 5) (cm : BitVec 3) (bank : BitVec 1) (ks : BitVec 8) (axis : BitVec 1) (block : BitVec 4) (s : State) : Host.Outcome State Fault Refusal :=
  perform s (checkI s (.kbindBank p cm bank ks axis block)) p fun s =>
    bindTag s (bankTag cm.toNat bank.toNat) ks axis block

/-- KUNBIND_TILE: Clears a vector tile's binding tag (R178). -/
def execKunbindTile (p tile : BitVec 5) (s : State) : Host.Outcome State Fault Refusal :=
  perform s (checkI s (.kunbindTile p tile)) p fun s =>
    emit s 1 (.tag tile.toNat 0)

/-- KUNBIND_BANK: Clears a macro bank's binding tag (R178). -/
def execKunbindBank (p : BitVec 5) (cm : BitVec 3) (bank : BitVec 1) (s : State) : Host.Outcome State Fault Refusal :=
  perform s (checkI s (.kunbindBank p cm bank)) p fun s =>
    emit s 1 (.tag (bankTag cm.toNat bank.toNat) 0)

/-- KRD_ROW: Writes a scale register's entries and descriptor into a row (R175). -/
def execKrdRow (p : BitVec 5) (vd : BitVec 13) (ks : BitVec 8) (s : State) : Host.Outcome State Fault Refusal :=
  perform s (checkI s (.krdRow p vd ks)) p fun s =>
    emitVec s 2 vd (scaleRow (kreg (me s) ks.toNat))

/-- KRD_SCALAR: Reads one scale entry or the descriptor into a scalar (R175). -/
def execKrdScalar 
    (p : BitVec 5) (sd : BitVec 6) (ks : BitVec 8) (entry : BitVec 6) (sel : BitVec 1) (s : State) : Host.Outcome State Fault Refusal :=
  perform s (checkI s (.krdScalar p sd ks entry sel)) p fun s =>
    emitS s 2 sd (BitVec.ofNat 64 (if sel = 1 then (kreg (me s) ks.toNat).desc.toNat else kentry (kreg (me s) ks.toNat) entry.toNat))

/-- KWR_ROW: Writes all 64 scale entries from a row (R175). -/
def execKwrRow (p : BitVec 5) (kd : BitVec 8) (va : BitVec 13) (s : State) : Host.Outcome State Fault Refusal :=
  perform s (checkI s (.kwrRow p kd va)) p fun s =>
    emitScale s 2 kd ((readVec (me s) va).truncate 1024) allEntries none

/-- KWR_SCALAR: Writes one scale entry from a scalar (R175). -/
def execKwrScalar (p : BitVec 5) (kd : BitVec 8) (sa entry : BitVec 6) (s : State) : Host.Outcome State Fault Refusal :=
  perform s (checkI s (.kwrScalar p kd sa entry)) p fun s =>
    emitScale s 2 kd (packEntries (fun _ => (sreg (me s) sa.toNat).toNat)) (BitVec.ofNat 64 (2 ^ entry.toNat)) none

/-- KGEN: Derives block scales from the amax of FP32 lanes (R177). -/
def execKgen 
    (p : BitVec 5) (kd : BitVec 8) (va : BitVec 13) (axis : BitVec 1) (block : BitVec 4) (format : BitVec 2) (s : State) : Host.Outcome State Fault Refusal :=
  perform s (checkI s (.kgen p kd va axis block format)) p fun s =>
    let r := genEntries format.toNat block.toNat (readVec (me s) va)
    emitFlags (emitScale s 9 kd (BitVec.ofNat 1024 (packList 16 (r.map (·.code)))) (BitVec.ofNat 64 (2 ^ r.length - 1))
        (some (axis ++ format ++ block))) 9 (r.foldl (fun g x => g ||| x.flags) 0)

end Sys2Proof.Machine
end

