-- ==== Sys2Proof/Machine/Matrix.lean ====
section
/-!
DEFINITION. The matrix array: MMA, MMAZ and MXHINT (R213 to R218, R272, R273).
-/

namespace Sys2Proof.Machine

/-- Operand formats of the variants in code order, A then B (R111, R213). -/
def mmaFmt (v : Nat) : Nat × Nat :=
  match v with
  | 0 => (0x10, 0x10)
  | 2 => (0x11, 0x11)
  | 3 => (0x12, 0x12)
  | 4 => (0x11, 0x12)
  | 5 => (0x12, 0x11)
  | 6 => (0x15, 0x15)
  | 7 => (0x16, 0x16)
  | _ => (0x0E, 0x0E)

/-- The K element codes of row `i` of an operand of 16 rows of 64 bytes (R6, R213). -/
def operandRow (d : List Byte) (k i : Nat) : List Nat :=
  let x := leNat ((d.drop (64 * i)).take 64)
  (List.range k).map (fun e => elem (512 / k) x e)

/-- The value of an INT8 element, signed or not (R213). -/
def int8Val (sg : Bool) (x : Nat) : Int := if sg then signed 8 x else x

/-- The exact sum of products in accumulator units for the 48-bit kinds (R53, R54): L6 by R52, INT8, E4M3 in units of 2^−18. -/
def exactSum (v : Nat) (sg : BitVec 2) (a b : List Nat) : Int :=
  (a.zipWith (fun x y =>
    match v with
    | 0 => mulL6 x y
    | 1 => int8Val (bit sg 1) x * int8Val (bit sg 0) y
    | _ =>
      match mulV (decodeElem 0x11 x) (decodeElem 0x11 y) with
      | .fin s m e => (if s then -1 else 1) * ((m <<< (e + 18).toNat : Nat) : Int)
      | _ => 0) b).foldl (· + ·) 0

/-- Whether an E4M3 NaN occurs among an output's operands (R53). -/
def e4m3Nan (v : Nat) (a b : List Nat) : Bool := v == 2 && (a ++ b).any (fun x => x % 128 == 127)

/-- One level of the tree of R55 over exact values, each addition rounded to FP32. -/
def treeLevelV : List FVal → List FVal × Flags5
  | a :: b :: r =>
    let s := r32 (addV a b)
    let t := treeLevelV r
    (f32 s.1 :: t.1, s.2 ||| t.2)
  | l => (l, 0)

/-- The tree of R55 over `lvl` levels. -/
def treeSumV : Nat → List FVal → FVal × Flags5
  | 0, l => (nth l 0 (.fin false 0 0), 0)
  | n + 1, l =>
    let t := treeLevelV l
    let r := treeSumV n t.1
    (r.1, t.2 ||| r.2)

/-- The FP32 tree sum of an output's exact products (R55). -/
def floatSum (v : Nat) (a b : List Nat) : FVal × Flags5 :=
  let f := mmaFmt v
  treeSumV (Nat.log2 a.length) (a.zipWith (fun x y => mulV (decodeElem f.1 x) (decodeElem f.2 y)) b)

/-- A block's sum in the accumulator kind of its pair, with flags; an E4M3 NaN makes it a NaN that raises NV (R53, R61). -/
def blockSum (v : Nat) (a b : List Nat) : FVal × Flags5 :=
  if v = 0 then (ofInt (exactSum 0 0 a b) (-23), 0)
  else if v = 2 then (if e4m3Nan 2 a b then (.nan true, 0) else (ofInt (exactSum 2 0 a b) (-18), 0))
  else floatSum v a b

/-- One scaled output: blocks of L products in ascending order, each scaled and rounded once, added by rne (R61, R217). -/
def scaledOut (v blk : Nat) (sc : Nat → FVal) (i j : Nat) (a b : List Nat) : LaneR :=
  let g := a.length / blk
  (List.range g).foldl
    (fun acc n =>
      let s := blockSum v ((a.drop (n * blk)).take blk) ((b.drop (n * blk)).take blk)
      let p := r32 (mulV s.1 (mulV (sc (g * i + n)) (sc (16 * g + g * j + n))))
      let t := fadd acc.1 p.1
      (t.1, acc.2 ||| s.2 ||| p.2 ||| t.2))
    (0, 0)

/-- One output of an MMA before its incoming accumulator: its 48 bits, whether R53 fixes it as the NaN value, its flags. -/
def mmaOut (c : Ctx) (v vd : Nat) (sg : BitVec 2) (sc : Bool) (i j : Nat) (a b : List Nat) : BitVec 48 × Bool × Flags5 :=
  if sc then
    let k := tagReg c (vd / 64)
    let r := scaledOut v (tagBlock c (vd / 64)) (entryVal k) i j a b
    (r.1.setWidth 48, false, r.2)
  else if mmaFp32 v false then
    let r := floatSum v a b
    let x := r32 r.1
    (x.1.setWidth 48, false, r.2 ||| x.2)
  else
    let n := e4m3Nan v a b
    (BitVec.ofInt 48 (exactSum v sg a b), n, flagIf n fNV)

/-- The last Yard cycle of the window that a Yard cycle lies in (R40). -/
def windowEnd (st : Stable) (y : Nat) : Nat := y / mxLen st * mxLen st + mxLen st - 1

/-- The ramp that an MMA on a cold array starts: one pulse in two over 256 reference periods (R272). -/
def warmArray (s : State) : State :=
  let c := s.cur.ctx
  let y := yardNow s c
  let s := if (stableAt s (stableOf c)).warm then s else modYard s (yardOf c) (fun r => { r with ramps := r.ramps ++ [(2, 256, false)] })
  modStable s (stableOf c) (fun t => { t with warm := true, lastMma := some y })

/-- MMA and MMAZ: operands read at issue, both bays reserved for the window, sums landing at issue + 12 (R188, R213 to R217). -/
def runMma (s : State) (v : Nat) (add : Bool) (vd : BitVec 11) (abay : BitVec 3) (aoff : BitVec 12) (bbay : BitVec 3)
    (boff : BitVec 12) (sg : BitVec 2) (sc : BitVec 1) : State :=
  let c := s.cur.ctx
  let st := stableOf c
  let y := yardNow s c
  let k := mmaK v
  let ad := roundRead s st abay.toNat (aoff.toNat * 64) 1024
  let bd := roundRead s st bbay.toNat (boff.toNat * 64) 1024
  let as := (List.range 16).map (operandRow ad k)
  let bs := (List.range 16).map (operandRow bd k)
  let o := (List.range 256).map (fun n =>
    mmaOut (me s) v vd.toNat sg (sc == 1) (n / 16) (n % 16) (nth as (n / 16) []) (nth bs (n % 16) []))
  let s := readAtIssue s [(abay.toNat * 2 ^ 18 + aoff.toNat * 64, 1024), (bbay.toNat * 2 ^ 18 + boff.toNat * 64, 1024)] (s.cur.cycle + 12)
    (fun s => emit s 11
      (.mma vd.toNat (if mmaFp32 v (sc == 1) then 1 else 0) (o.map (·.1)) (o.map (·.2.1)) add (o.foldl (fun f x => f ||| x.2.2) 0)))
  warmArray (modStable s st (fun t =>
    { t with reserves := t.reserves ++ [{ ctx := c, abay := abay.toNat, bbay := bbay.toNat,
                                          first := y / mxLen t * mxLen t, last := windowEnd t y, src := hereSrc s }] }))

/-- MMA_L6: 16×16 L6 matrix product accumulated in a48l (R213). -/
def execMmaL6 
    (p : BitVec 5) (vd : BitVec 11) (abay : BitVec 3) (aoff : BitVec 12) (bbay : BitVec 3) (boff : BitVec 12) (alane blane : BitVec 4) (sg : BitVec 2) (sc : BitVec 1) (s : State) : Host.Outcome State Fault Refusal :=
  perform s (checkI s (.mmaL6 p vd abay aoff bbay boff alane blane sg sc)) p fun s =>
    runMma s 0 true vd abay aoff bbay boff sg sc

/-- MMA_I8: 16×16 INT8 matrix product accumulated in a48i (R213). -/
def execMmaI8 
    (p : BitVec 5) (vd : BitVec 11) (abay : BitVec 3) (aoff : BitVec 12) (bbay : BitVec 3) (boff : BitVec 12) (alane blane : BitVec 4) (sg : BitVec 2) (sc : BitVec 1) (s : State) : Host.Outcome State Fault Refusal :=
  perform s (checkI s (.mmaI8 p vd abay aoff bbay boff alane blane sg sc)) p fun s =>
    runMma s 1 true vd abay aoff bbay boff sg sc

/-- MMA_E4M3: 16×16 E4M3 matrix product accumulated in a48e (R213). -/
def execMmaE4m3 
    (p : BitVec 5) (vd : BitVec 11) (abay : BitVec 3) (aoff : BitVec 12) (bbay : BitVec 3) (boff : BitVec 12) (alane blane : BitVec 4) (sg : BitVec 2) (sc : BitVec 1) (s : State) : Host.Outcome State Fault Refusal :=
  perform s (checkI s (.mmaE4m3 p vd abay aoff bbay boff alane blane sg sc)) p fun s =>
    runMma s 2 true vd abay aoff bbay boff sg sc

/-- MMA_E5M2: 16×16 E5M2 matrix product accumulated in FP32 (R213). -/
def execMmaE5m2 
    (p : BitVec 5) (vd : BitVec 11) (abay : BitVec 3) (aoff : BitVec 12) (bbay : BitVec 3) (boff : BitVec 12) (alane blane : BitVec 4) (sg : BitVec 2) (sc : BitVec 1) (s : State) : Host.Outcome State Fault Refusal :=
  perform s (checkI s (.mmaE5m2 p vd abay aoff bbay boff alane blane sg sc)) p fun s =>
    runMma s 3 true vd abay aoff bbay boff sg sc

/-- MMA_E4E5: E4M3 × E5M2 matrix product in FP32 (R213). -/
def execMmaE4e5 
    (p : BitVec 5) (vd : BitVec 11) (abay : BitVec 3) (aoff : BitVec 12) (bbay : BitVec 3) (boff : BitVec 12) (alane blane : BitVec 4) (sg : BitVec 2) (sc : BitVec 1) (s : State) : Host.Outcome State Fault Refusal :=
  perform s (checkI s (.mmaE4e5 p vd abay aoff bbay boff alane blane sg sc)) p fun s =>
    runMma s 4 true vd abay aoff bbay boff sg sc

/-- MMA_E5E4: E5M2 × E4M3 matrix product in FP32 (R213). -/
def execMmaE5e4 
    (p : BitVec 5) (vd : BitVec 11) (abay : BitVec 3) (aoff : BitVec 12) (bbay : BitVec 3) (boff : BitVec 12) (alane blane : BitVec 4) (sg : BitVec 2) (sc : BitVec 1) (s : State) : Host.Outcome State Fault Refusal :=
  perform s (checkI s (.mmaE5e4 p vd abay aoff bbay boff alane blane sg sc)) p fun s =>
    runMma s 5 true vd abay aoff bbay boff sg sc

/-- MMA_BF16: BF16 matrix product with K = 32 in FP32 (R213). -/
def execMmaBf16 
    (p : BitVec 5) (vd : BitVec 11) (abay : BitVec 3) (aoff : BitVec 12) (bbay : BitVec 3) (boff : BitVec 12) (alane blane : BitVec 4) (sg : BitVec 2) (sc : BitVec 1) (s : State) : Host.Outcome State Fault Refusal :=
  perform s (checkI s (.mmaBf16 p vd abay aoff bbay boff alane blane sg sc)) p fun s =>
    runMma s 6 true vd abay aoff bbay boff sg sc

/-- MMA_FP16: FP16 matrix product with K = 32 in FP32 (R213). -/
def execMmaFp16 
    (p : BitVec 5) (vd : BitVec 11) (abay : BitVec 3) (aoff : BitVec 12) (bbay : BitVec 3) (boff : BitVec 12) (alane blane : BitVec 4) (sg : BitVec 2) (sc : BitVec 1) (s : State) : Host.Outcome State Fault Refusal :=
  perform s (checkI s (.mmaFp16 p vd abay aoff bbay boff alane blane sg sc)) p fun s =>
    runMma s 7 true vd abay aoff bbay boff sg sc

/-- MMAZ_L6: L6 matrix product without incoming accumulator (R213). -/
def execMmazL6 
    (p : BitVec 5) (vd : BitVec 11) (abay : BitVec 3) (aoff : BitVec 12) (bbay : BitVec 3) (boff : BitVec 12) (alane blane : BitVec 4) (sg : BitVec 2) (sc : BitVec 1) (s : State) : Host.Outcome State Fault Refusal :=
  perform s (checkI s (.mmazL6 p vd abay aoff bbay boff alane blane sg sc)) p fun s =>
    runMma s 0 false vd abay aoff bbay boff sg sc

/-- MMAZ_I8: INT8 matrix product without incoming accumulator (R213). -/
def execMmazI8 
    (p : BitVec 5) (vd : BitVec 11) (abay : BitVec 3) (aoff : BitVec 12) (bbay : BitVec 3) (boff : BitVec 12) (alane blane : BitVec 4) (sg : BitVec 2) (sc : BitVec 1) (s : State) : Host.Outcome State Fault Refusal :=
  perform s (checkI s (.mmazI8 p vd abay aoff bbay boff alane blane sg sc)) p fun s =>
    runMma s 1 false vd abay aoff bbay boff sg sc

/-- MMAZ_E4M3: E4M3 matrix product without incoming accumulator (R213). -/
def execMmazE4m3 
    (p : BitVec 5) (vd : BitVec 11) (abay : BitVec 3) (aoff : BitVec 12) (bbay : BitVec 3) (boff : BitVec 12) (alane blane : BitVec 4) (sg : BitVec 2) (sc : BitVec 1) (s : State) : Host.Outcome State Fault Refusal :=
  perform s (checkI s (.mmazE4m3 p vd abay aoff bbay boff alane blane sg sc)) p fun s =>
    runMma s 2 false vd abay aoff bbay boff sg sc

/-- MMAZ_E5M2: E5M2 matrix product without incoming accumulator (R213). -/
def execMmazE5m2 
    (p : BitVec 5) (vd : BitVec 11) (abay : BitVec 3) (aoff : BitVec 12) (bbay : BitVec 3) (boff : BitVec 12) (alane blane : BitVec 4) (sg : BitVec 2) (sc : BitVec 1) (s : State) : Host.Outcome State Fault Refusal :=
  perform s (checkI s (.mmazE5m2 p vd abay aoff bbay boff alane blane sg sc)) p fun s =>
    runMma s 3 false vd abay aoff bbay boff sg sc

/-- MMAZ_E4E5: E4M3 × E5M2 product without incoming accumulator (R213). -/
def execMmazE4e5 
    (p : BitVec 5) (vd : BitVec 11) (abay : BitVec 3) (aoff : BitVec 12) (bbay : BitVec 3) (boff : BitVec 12) (alane blane : BitVec 4) (sg : BitVec 2) (sc : BitVec 1) (s : State) : Host.Outcome State Fault Refusal :=
  perform s (checkI s (.mmazE4e5 p vd abay aoff bbay boff alane blane sg sc)) p fun s =>
    runMma s 4 false vd abay aoff bbay boff sg sc

/-- MMAZ_E5E4: E5M2 × E4M3 product without incoming accumulator (R213). -/
def execMmazE5e4 
    (p : BitVec 5) (vd : BitVec 11) (abay : BitVec 3) (aoff : BitVec 12) (bbay : BitVec 3) (boff : BitVec 12) (alane blane : BitVec 4) (sg : BitVec 2) (sc : BitVec 1) (s : State) : Host.Outcome State Fault Refusal :=
  perform s (checkI s (.mmazE5e4 p vd abay aoff bbay boff alane blane sg sc)) p fun s =>
    runMma s 5 false vd abay aoff bbay boff sg sc

/-- MMAZ_BF16: BF16 product without incoming accumulator (R213). -/
def execMmazBf16 
    (p : BitVec 5) (vd : BitVec 11) (abay : BitVec 3) (aoff : BitVec 12) (bbay : BitVec 3) (boff : BitVec 12) (alane blane : BitVec 4) (sg : BitVec 2) (sc : BitVec 1) (s : State) : Host.Outcome State Fault Refusal :=
  perform s (checkI s (.mmazBf16 p vd abay aoff bbay boff alane blane sg sc)) p fun s =>
    runMma s 6 false vd abay aoff bbay boff sg sc

/-- MMAZ_FP16: FP16 product without incoming accumulator (R213). -/
def execMmazFp16 
    (p : BitVec 5) (vd : BitVec 11) (abay : BitVec 3) (aoff : BitVec 12) (bbay : BitVec 3) (boff : BitVec 12) (alane blane : BitVec 4) (sg : BitVec 2) (sc : BitVec 1) (s : State) : Host.Outcome State Fault Refusal :=
  perform s (checkI s (.mmazFp16 p vd abay aoff bbay boff alane blane sg sc)) p fun s =>
    runMma s 7 false vd abay aoff bbay boff sg sc

/-- The context's hint, which replaces the one it has in force: the array counts as warm, after 64 swallowed pulses where it was cold, for
`len` Yard cycles; length 0 ends it (R218, R273, log 116). -/
def setHint (s : State) (len : Nat) : State :=
  let c := s.cur.ctx
  if len = 0 then modStable s (stableOf c) (fun t => { t with hints := mdel t.hints c })
  else
    let s := if (stableAt s (stableOf c)).warm then s else modYard s (yardOf c) (fun r => { r with owed := r.owed + 64 })
    modStable s (stableOf c) (fun t => { t with warm := true, hints := mput t.hints c (yardNow s c + len) })

/-- MXHINT: Declares an MMA burst so the current ramp falls before it (R218, log 19). -/
def execMxhint (p : BitVec 5) (burst : BitVec 16) (s : State) : Host.Outcome State Fault Refusal :=
  perform s (checkI s (.mxhint p burst)) p fun s =>
    setHint s burst.toNat

end Sys2Proof.Machine
end

