-- ==== Sys2Proof/Machine/Control.lean ====
section
/-!
DEFINITION. Control transfers and hardware loops of the S slot, and the Y slot: rendezvous, barriers, waits, fences, semaphores and the
system instructions (R125 to R149).
-/

namespace Sys2Proof.Machine

/-- A taken transfer: a new frame at the target with base I + 2 (R127). -/
def goTo (s : State) (target : Nat) : State := { s with cur := { s.cur with next := some (target, s.cur.cycle + 2) } }

/-- A LOOP with a true predicate: skip the body on a trip count of 0, else push an entry and enter the body (R128). -/
def pushLoop (s : State) (len : Nat) (trip : BitVec 32) : State :=
  let start := s.cur.pc + 1
  if trip = 0 then { s with cur := { s.cur with next := some (start + len, s.cur.cycle + 1) } }
  else
    let s := modMe s (fun c => { c with loops := { index := 0, trip := trip, start := start, len := len } :: c.loops })
    { s with cur := { s.cur with next := some (start, s.cur.cycle + 1) } }

/-- LEXIT: pop the top entry and transfer past its body (R131). -/
def exitLoop (s : State) : State :=
  match (me s).loops with
  | [] => s
  | t :: r => goTo (modMe s (fun c => { c with loops := r })) (t.start + t.len)

/-- An RDV or BAR issues: its ordinal of the group is used (R136, R386). -/
def passOrdinal (s : State) (g : Nat) : State :=
  modMe s (fun c => { c with rdv := mset c.rdv g (max (issuedOrd c g) (ordinal c g + 1)) 0, bar := mset c.bar g (ordinal c g + 1) 0 })

/-- FENCE of scopes 5 to 9: accesses entered so far before accesses entered later; scopes 0 to 4 have no effect (R141, R258). -/
def addFence (s : State) (scope : Nat) : State :=
  if scope < 5 then s else modMe s (fun c => { c with fences := c.fences ++ [(c.opId, scope)] })

/-- SEMWAIT's success: the count is subtracted in its issue cycle and charged once (R142, R285, R286). -/
def takeSem (s : State) (n count : Nat) : State :=
  let s := modStable s (stableOf s.cur.ctx) (fun t => { t with sems := mset t.sems n (semVal s n - BitVec.ofNat 32 count) 0 })
  modMe s (fun c => if c.grant.segbudget = 0 then c else { c with undo := c.undo ++ [.taken n count], charge := c.charge + 8 })

/-- What follows the bundle's commit (R144 to R147). -/
def afterCommit (s : State) (a : After) : State := { s with cur := { s.cur with after := a } }

/-- An off-core access entering its queue with its number, bundle and segment (R243, R254). -/
def enqueue (s : State) (q : QId) (kind : OffKind) (dst : OffDst) (opc : Nat) (lands : Bool) : State :=
  modMe s (fun c =>
    { c with ops := c.ops ++ [{ id := c.opId, q := q, kind := kind, dst := dst, issue := s.cur.cycle, slot := s.cur.slot,
                                opc := opc, pc := s.cur.pc, seg := c.seg, since := s.mcycle, performed := false,
                                landed := !lands, trapped := false, ans := .waiting }],
             opId := c.opId + 1 })

/-- The queue of the tensor that a number names. -/
def queueOf (s : State) (tid : Nat) : QId := match tensorOf (myLaunch s) tid with | some t => kindQueue t | none => .device

/-- BR: Transfers to the target field; the new frame starts at issue + 2 (R125). -/
def execBr (p : BitVec 5) (target : BitVec 12) (s : State) : Host.Outcome State Fault Refusal :=
  perform s (checkI s (.br p target)) p fun s =>
    goTo s target.toNat

/-- BR_SCALAR: Transfers to the bundle index held in a scalar (R125). -/
def execBrScalar (p : BitVec 5) (a : BitVec 6) (s : State) : Host.Outcome State Fault Refusal :=
  perform s (checkI s (.brScalar p a)) p fun s =>
    goTo s (sreg (me s) a.toNat).toNat

/-- BC: Transfers to the target when the comparison of a and b holds (R125). -/
def execBc (p : BitVec 5) (a b : BitVec 6) (cond : BitVec 3) (target : BitVec 12) (s : State) : Host.Outcome State Fault Refusal :=
  perform s (checkI s (.bc p a b cond target)) p fun s =>
    if compare cond.toNat (sreg (me s) a.toNat) (sreg (me s) b.toNat) then goTo s target.toNat else s

/-- CALL: Writes the link and transfers to the target (R125). -/
def execCall (p : BitVec 5) (d : BitVec 6) (target : BitVec 12) (s : State) : Host.Outcome State Fault Refusal :=
  perform s (checkI s (.call p d target)) p fun s =>
    goTo (emitS s 1 d (BitVec.ofNat 64 (s.cur.pc + 1))) target.toNat

/-- RET: Transfers to the bundle index held in a scalar (R125). -/
def execRet (p : BitVec 5) (a : BitVec 6) (s : State) : Host.Outcome State Fault Refusal :=
  perform s (checkI s (.ret p a)) p fun s =>
    goTo s (sreg (me s) a.toNat).toNat

/-- LOOP_SCALAR: Pushes a hardware loop whose trip count is a<31:0> (R128). -/
def execLoopScalar (p : BitVec 5) (a : BitVec 6) (len : BitVec 12) (s : State) : Host.Outcome State Fault Refusal :=
  perform s (checkI s (.loopScalar p a len)) p fun s =>
    pushLoop s len.toNat ((sreg (me s) a.toNat).truncate 32)

/-- LOOP_NBOUND: Pushes a hardware loop whose trip count is a loop-bound register (R128). -/
def execLoopNbound (p : BitVec 5) (n : BitVec 4) (len : BitVec 12) (s : State) : Host.Outcome State Fault Refusal :=
  perform s (checkI s (.loopNbound p n len)) p fun s =>
    pushLoop s len.toNat (nreg (me s) n.toNat)

/-- LOOP_IMM: Pushes a hardware loop with an immediate trip count (R128). -/
def execLoopImm (p : BitVec 5) (count : BitVec 16) (len : BitVec 12) (s : State) : Host.Outcome State Fault Refusal :=
  perform s (checkI s (.loopImm p count len)) p fun s =>
    pushLoop s len.toNat (count.setWidth 32)

/-- LEXIT: Pops the top loop and transfers past its body (R131). -/
def execLexit (p : BitVec 5) (s : State) : Host.Outcome State Fault Refusal :=
  perform s (checkI s (.lexit p)) p fun s =>
    exitLoop s

/-- NOP: Does nothing (R107). -/
def execNop (p : BitVec 3) (s : State) : Host.Outcome State Fault Refusal :=
  perform s (checkI s (.nop p)) (0#2 ++ p) fun s =>
    s

/-- BAR: Arrives at a barrier of a rendezvous group and freezes until released (R138). -/
def execBar (p : BitVec 3) (group : BitVec 4) (s : State) : Host.Outcome State Fault Refusal :=
  perform s (checkI s (.bar p group)) (0#2 ++ p) fun s =>
    passOrdinal s group.toNat

/-- RDV: Arrives at a single-Yard rendezvous and issues when all members arrive (R137). -/
def execRdv (p : BitVec 3) (group : BitVec 4) (s : State) : Host.Outcome State Fault Refusal :=
  perform s (checkI s (.rdv p group)) (0#2 ++ p) fun s =>
    passOrdinal s group.toNat

/-- WAITD_IMM: Waits until variable-latency operations older than an immediate count have performed (R139). -/
def execWaitdImm (p : BitVec 3) (count : BitVec 16) (s : State) : Host.Outcome State Fault Refusal :=
  perform s (checkI s (.waitdImm p count)) (0#2 ++ p) fun s =>
    s

/-- WAITD_SCALAR: WAITD with the count from a scalar (R139). -/
def execWaitdScalar (p : BitVec 3) (a : BitVec 6) (s : State) : Host.Outcome State Fault Refusal :=
  perform s (checkI s (.waitdScalar p a)) (0#2 ++ p) fun s =>
    s

/-- FENCE: Orders off-core accesses across the queues of a scope (R141). -/
def execFence (p : BitVec 3) (scope : BitVec 4) (s : State) : Host.Outcome State Fault Refusal :=
  perform s (checkI s (.fence p scope)) (0#2 ++ p) fun s =>
    addFence s scope.toNat

/-- SEMSIG: Adds a count to a named semaphore, performing at issue + 2 (R142). -/
def execSemsig (p : BitVec 3) (c sem : BitVec 6) (s : State) : Host.Outcome State Fault Refusal :=
  perform s (checkI s (.semsig p c sem)) (0#2 ++ p) fun s =>
    emit s 2 (.sem sem.toNat (c.toNat + 1))

/-- SEMSIG_SCALAR: Adds a count to the semaphore named by a scalar (R142). -/
def execSemsigScalar (p : BitVec 3) (c a : BitVec 6) (s : State) : Host.Outcome State Fault Refusal :=
  perform s (checkI s (.semsigScalar p c a)) (0#2 ++ p) fun s =>
    emit s 2 (.sem (fld (sreg (me s) a.toNat) 0 6) (c.toNat + 1))

/-- SEMWAIT: Tests and subtracts a semaphore count, stalling or faulting on failure (R142). -/
def execSemwait (p : BitVec 3) (c sem : BitVec 6) (s : State) : Host.Outcome State Fault Refusal :=
  perform s (checkI s (.semwait p c sem)) (0#2 ++ p) fun s =>
    takeSem s sem.toNat (c.toNat + 1)

/-- YIELD: Offers the context's slot to the Yardmaster at a yield bundle (R144). -/
def execYield (p : BitVec 3) (s : State) : Host.Outcome State Fault Refusal :=
  perform s (checkI s (.yield p)) (0#2 ++ p) fun s =>
    afterCommit s .offer

/-- SVC: Raises fault 0x21 after commit and runs the service handler (R145). -/
def execSvc (p : BitVec 3) (code : BitVec 12) (s : State) : Host.Outcome State Fault Refusal :=
  perform s (checkI s (.svc p code)) (0#2 ++ p) fun s =>
    afterCommit s (.svc code.toNat)

/-- TRAP: Raises fault 0x22 after commit and holds for the launcher (R145). -/
def execTrap (p : BitVec 3) (code : BitVec 12) (s : State) : Host.Outcome State Fault Refusal :=
  perform s (checkI s (.trap p code)) (0#2 ++ p) fun s =>
    afterCommit s (.trap code.toNat)

/-- HALT: Stops issue while keeping the slot and state (R146). -/
def execHalt (p : BitVec 3) (s : State) : Host.Outcome State Fault Refusal :=
  perform s (checkI s (.halt p)) (0#2 ++ p) fun s =>
    afterCommit s .halt

/-- EXIT: Ends the context and commits its last segment (R147). -/
def execExit (p : BitVec 3) (s : State) : Host.Outcome State Fault Refusal :=
  perform s (checkI s (.exit p)) (0#2 ++ p) fun s =>
    afterCommit s .exit

/-- What a PROBE that issues leaves: where its answer came from the tile-translation cache, its tiles are pinned now and used in the cache;
the answer from the queue is taken up (R148, R247, R339). -/
def pinProbed (s : State) (tid off len : Nat) : State :=
  if (me s).probeOk ∨ len = 0 then modMe s (fun c => { c with probeOk := false })
  else (tensorOf (myLaunch s) tid).elim s (fun t =>
    match pinTiles s s.cur.ctx t.table (tilesIn off len false) with
    | some u => cacheRanges u s.cur.ctx [(t, off, len)]
    | none => s)

/-- PROBE: Checks and pins the tiles of a tensor range (R148). -/
def execProbe (p : BitVec 3) (b a : BitVec 6) (s : State) : Host.Outcome State Fault Refusal :=
  perform s (checkI s (.probe p b a)) (0#2 ++ p) fun s =>
    let x := sreg (me s) a.toNat
    let y := sreg (me s) b.toNat
    pinProbed s (fld x 48 16) (fld x 0 48) (fld y 0 48)

/-- DISCARD: Unpins tiles wholly in a range and makes them dead (R149). -/
def execDiscard (p : BitVec 3) (b a : BitVec 6) (s : State) : Host.Outcome State Fault Refusal :=
  perform s (checkI s (.discard p b a)) (0#2 ++ p) fun s =>
    let x := (sreg (me s) a.toNat)
    let len := fld (sreg (me s) b.toNat) 0 48
    if len = 0 then s
    else enqueue s (queueOf s (fld x 48 16)) (.discard (fld x 48 16) (fld x 0 48) len) .none 0xE false

end Sys2Proof.Machine
end

