-- ==== Sys2Proof/Machine/Transport.lean ====
section
/-!
DEFINITION. Round transfers, streams, engine FIFOs, spill and fill: the L, W and C slots (R187 to R202, R209 to R211).
-/

namespace Sys2Proof.Machine

/-- The trains and bay accesses of an operation entered on the Stable, where later bundles are checked against them (R216,
R229, R231). -/
def ride (s : State) (r : Traffic) : State :=
  let c := s.cur.ctx
  modStable s (stableOf c) (fun t =>
    { t with trains := t.trains ++ trainsOf s r,
             uses := t.uses ++ r.1.map (fun x =>
               { ctx := c, bay := x.bay, cycle := s.cur.cycle + x.cyc, src := hereSrc s,
                 made := if x.cyc = 0 then some (yardNow s c) else none }) })

/-- A direct round load: its bay is read at issue + 2 and its result lands at issue + 4 + h (R188). -/
def loadRound (s : State) (bay : BitVec 3) (off n : Nat) (lane : BitVec 4) (e f : Nat) (use : RdUse) : State :=
  emit (ride s (loadTraffic s bay off n lane e f)) 2
    (.read bay.toNat off n (s.cur.cycle + 4 + loadHops s bay lane) use)

/-- Every bit of n bytes. -/
def fullMask (n : Nat) : List Byte := List.replicate n 255#8

/-- A direct round store: its bytes are written at issue + 2 + h (R188). -/
def storeRound (s : State) (bay : BitVec 3) (off : Nat) (lane : BitVec 4) (e f : Nat) (data : List Byte) : State :=
  emit (ride s (storeTraffic s bay off data.length lane e f)) (2 + storeHops s bay lane)
    (.write bay.toNat off data (fullMask data.length))

/-- The elements of a row-group in a stream's format: element e is the tensor's element o + e, zero outside the tensor,
rounded into the stream's format (R192, R240, log 31). -/
def streamElems (t : Tensor) (sf n : Nat) (o : Int) (codes : Nat) : List Rounded :=
  (List.range n).map (fun (e : Nat) =>
    let i : Int := o + e
    encodeElem sf (if 0 ≤ i ∧ i < t.len then decodeElem t.fmt (elem (containerBits t.fmt) codes e) else .fin false 0 0))

/-- A landed row-group with its flags (R192). -/
def streamRow (t : Tensor) (sf : Nat) (o : Int) (codes : Nat) : Row × Flags5 :=
  let c := containerBits sf
  let r := streamElems t sf (4096 / c) o codes
  (BitVec.ofNat 4096 (packList c (r.map (·.code))), r.foldl (fun f x => f ||| x.flags) 0)

/-- A landed element as a scalar: sign-extended for signed integer formats, an FP32 pattern for floating-point formats (R45),
else zero-extended (R196, log 32). -/
def streamScalar (t : Tensor) (sf : Nat) (o : Int) (code : Nat) : Word × Flags5 :=
  match streamElems t sf 1 o code with
  | [] => (0, 0)
  | r :: _ =>
    let v : Word :=
      if 0x11 ≤ sf ∧ sf ≤ 0x17 ∧ sf ≠ 0x14 then BitVec.ofNat 64 (encodeElem 0x17 (decodeElem sf r.code)).code
      else if fmtSigned sf ∨ 0x19 ≤ sf then BitVec.ofInt 64 (signed (valueBits sf) r.code)
      else BitVec.ofNat 64 (r.code % 2 ^ valueBits sf)
    (v, r.flags)

/-- Elements of a source in the stream's format rounded into the tensor's storage format: codes and flags (R195, log 31, log 32). -/
def storeElems (t : Tensor) (sf n src : Nat) : Nat × Flags5 :=
  let r := (List.range n).map (fun e => encodeElem t.fmt (decodeElem sf (elem (containerBits sf) src e)))
  (packList (containerBits t.fmt) (r.map (·.code)), r.foldl (fun f x => f ||| x.flags) 0)

/-- The bytes, from the first touched byte, and bit mask of the elements of a store that lie inside the tensor (R240, R242). -/
def storeBytes (t : Tensor) (o : Int) (n codes : Nat) : Nat × List Byte × List Byte :=
  let cs := containerBits t.fmt
  let a := (max o 0).toNat
  let b := min (o + n).toNat t.len
  let x := codes >>> (((a : Int) - o).toNat * cs)
  let nb := ceilDiv ((b - a) * cs) 8
  (a * cs / 8, leBytes nb x, leBytes nb (2 ^ ((b - a) * cs) - 1))

/-- The part of a scale record that lies inside its tensor: byte offset and bytes (R240). -/
def scaleBytes (t : Tensor) (off : Int) (d : BitVec 1024) : Nat × List Byte :=
  let a := (max off 0).toNat
  let b := min (off + 128).toNat (ceilDiv (t.len * containerBits t.fmt) 8)
  (a, leBytes (b - a) (d.toNat >>> (8 * ((a : Int) - off).toNat)))

/-- The scale half a stream access names (R240). -/
def scaleRefOf (w : WReg) : Option ScaleRef := if sStride w = 0 then none else some ⟨sScaleT w, scaleOff w⟩

/-- One step of a stream, landing at issue + 1 (R197, R239). -/
def stepStream (s : State) (w : BitVec 5) (steps : Nat) : State := emit s 1 (.advance w.toNat 0 steps)

/-- Stream loads: through a round stream the bays are read at issue + 2; beyond the boundary the access enters its queue and
lands at issue + max(delay, 8) (R188, R192 to R194, R196). `dst` 0 a row, 1 a scale register, 2 a scalar. -/
def loadStream (s : State) (wn : BitVec 5) (dst reg dir k opc : Nat) (delay : BitVec 12) : State :=
  let w := wreg (me s) wn.toNat
  let data := dst != 1
  let n := if dst = 0 then groupCount w else 1
  let scale := dst != 2 && sStride w != 0
  let o := sOffset w
  match tensorOf (myLaunch s) (sTensor w) with
  | none => s
  | some t =>
    let s1 :=
      if t.kind = 0 then
        let h := loadHops s (BitVec.ofNat 3 t.bay) (BitVec.ofNat 4 (sLane w))
        emit (ride s (streamTraffic s w n data scale false)) 2
          (.read t.bay 0 n (s.cur.cycle + 6 + h) (.stream dst reg dir k (wword w 0) (wword w 1) o))
      else
        let d : OffDst := match dst with
          | 0 => .row reg dir (wword w 0) (wword w 1) k
          | 1 => .scale k (wword w 0) (wword w 1)
          | _ => .scalar reg (wword w 0)
        let id := (me s).opId
        emit (enqueue s (kindQueue t) (.load (sTensor w) o n data (if scale then scaleRefOf w else none)) d opc true)
          (max delay.toNat 8) (.offcore id)
    stepStream s1 wn 1

/-- Stream stores: elements rounded at issue with flags at issue + 2; a round stream writes its bay at issue + 4 + h, any other
store enters its queue (R188, R195, R196). -/
def storeStream (s : State) (wn : BitVec 5) (data scaleHalf : Bool) (n src : Nat) (k : BitVec 1024) (opc : Nat) : State :=
  let w := wreg (me s) wn.toNat
  let scale := scaleHalf && sStride w != 0
  let o := sOffset w
  match tensorOf (myLaunch s) (sTensor w) with
  | none => s
  | some t =>
    let e := storeElems t (sFmt w) n src
    let s := if data then emitFlags s 2 e.2 else s
    let s1 :=
      if t.kind = 0 then
        let lat := 4 + storeHops s (BitVec.ofNat 3 t.bay) (BitVec.ofNat 4 (sLane w))
        let s := ride s (streamTraffic s w n data scale true)
        let b := storeBytes t o n e.1
        let s := if data ∧ b.2.1 ≠ [] then emit s lat (.write t.bay (t.off + b.1) b.2.1 b.2.2) else s
        match tensorOf (myLaunch s) (sScaleT w) with
        | some st =>
          let b := scaleBytes st (scaleOff w) k
          if scale ∧ b.2 ≠ [] then emit s lat (.write st.bay (st.off + b.1) b.2 (fullMask b.2.length)) else s
        | none => s
      else
        enqueue s (kindQueue t) (.store (sTensor w) o n data e.1 (if scale then (scaleRefOf w).map (fun r => (r, k)) else none))
          .none opc false
    stepStream s1 wn 1

/-- A POP: the element lands at issue + max(delay, 2) (R194, R200). -/
def popQueue (s : State) (q : BitVec 5) (d : OffDst) (opc : Nat) (delay : BitVec 12) : State :=
  let id := (me s).opId
  emit (enqueue s (.fifo q.toNat) .pop d opc true) (max delay.toNat 2) (.offcore id)

/-- A PUSH into FIFO q: a fill request where q is bound to the shadow-fill endpoint (R199, R279). -/
def pushQueue (s : State) (q : BitVec 5) (v : Row) (opc : Nat) : State :=
  let fill := match pushKind (myLaunch s) (me s).k q.toNat with | some b => nth b 0 0 == 2 | none => false
  enqueue s (.fifo q.toNat) (if fill then .fillReq v else .push v) .none opc false

/-- The rows of a tile (R201). -/
def tileRows (c : Ctx) (t : Nat) : List Row := (List.range 64).map (fun r => vrow c (64 * t + r))

/-- The word a station port gives when read: a parameter, the status, or zero for a trigger (R208). -/
def portWord (c : Ctx) (port : Nat) : Word :=
  if port % 32 = 0x1F then mget c.stationStatus (port / 32) 0 else if port % 32 < 4 then mget c.station port 0 else 0

/-- The station at a round position: DX 5, TX 7, HX 11, QX 13 (R202, R203). -/
def stationAtPos (pos : Nat) : Nat := match pos with | 5 => 0 | 7 => 1 | 11 => 2 | _ => 3

/-- The 512 bytes an XFER reads at issue (R202). -/
def xferSource (s : State) (frm : BitVec 4) (a : BitVec 12) : Row :=
  if frm.toNat % 2 = 0 then bytesRow (roundRead s (stableOf s.cur.ctx) (frm.toNat / 2) (a.toNat * 64) 512)
  else if frm.toNat = portPos s.cur.ctx then vrow (me s) a.toNat
  else (portWord (me s) (stationAtPos frm.toNat * 32 + a.toNat % 32)).setWidth 4096

/-- What an XFER delivers at issue + h + 1 (R202). -/
def xferEffect (s : State) (dest : BitVec 4) (a : BitVec 12) (v : Row) (op : Option Nat) : Eff :=
  if dest.toNat % 2 = 0 then .write (dest.toNat / 2) (a.toNat * 64) (rowBytes v) (fullMask 512)
  else if dest.toNat = portPos s.cur.ctx then .row a.toNat 0 v allBytes
  else .move (stationAtPos dest.toNat * 32 + a.toNat % 32) (v.truncate 64) op

/-- The off-core access of a DX trigger, entered at its issue: its number, and the state with it. Where the source that its job will find is
not known to be a tensor, the access is undecided and stands for nothing yet (R140, R254, R274, log 35). -/
def enterTrigger (s : State) (dx leaves : Bool) (opc : Nat) : Option Nat × State :=
  let id := (me s).opId
  let t := enqueue s .station (.dx none) .none opc false
  if !dx then (none, s)
  else if leaves then (some id, t)
  else (some id, modMe t (fun x => { x with ops := x.ops.map (fun o => if o.id = id then { o with performed := true, landed := false } else o) }))

/-- The round position of the station of a port address (R203). -/
def stationPos (port : BitVec 8) : Nat := [5, 7, 11, 13].getD (port.toNat / 32) 5

/-- The context cycles from a REDS to its application within a Yard (R211). -/
def redsLat (frm dest : Nat) : Nat :=
  let a := frm % 16 / 4
  let b := dest % 16 / 4
  let d := min ((a + 4 - b) % 4) ((b + 4 - a) % 4)
  if frm = dest then 6 else 10 + 4 * d

/-- REDS: a packet to the receive station of a kernel-local Stable: timed within the Yard, queued towards another (R210, R211, log 97). -/
def sendReds (s : State) (t : Word) (op : BitVec 3) (ty : BitVec 1) (vec : Bool) (data : Row) (sem : BitVec 6) (opc : Nat) : State :=
  let dst := stableOfLocal (myLaunch s) (fld t 24 8)
  let p : Packet := { stable := dst, bay := fld t 18 3, off := fld t 0 18, op := op.toNat, ty := ty == 1, vec := vec, data := data,
                      sem := sem.toNat, sender := s.cur.ctx, poison := false,
                      access := if dst / 16 = stableOf s.cur.ctx / 16 then none else some (me s).opId }
  let src := stableOf s.cur.ctx
  if dst / 16 = src / 16 then emit s (redsLat src dst) (.packet p)
  else enqueue s (.link (fld t 24 8)) (.reds p) .none opc false

/-- LD: Loads a converted row-group through a stream, with a split scale half when configured (R192). -/
def execLd 
    (p : BitVec 5) (vd : BitVec 13) (w : BitVec 5) (kd : BitVec 8) (delay : BitVec 12) (s : State) : Host.Outcome State Fault Refusal :=
  perform s (checkI s (.ld p vd w kd delay)) p fun s =>
    loadStream s w 0 (vnum vd) (vdir vd) kd.toNat 0x0 delay

/-- LDR: Loads 512 round bytes into a vector row (R191). -/
def execLdr 
    (p : BitVec 5) (vd : BitVec 13) (bay : BitVec 3) (off : BitVec 12) (lane : BitVec 4) (s : State) : Host.Outcome State Fault Refusal :=
  perform s (checkI s (.ldr p vd bay off lane)) p fun s =>
    loadRound s bay (off.toNat * 64) 512 lane 2 8 (.row (vnum vd) (vdir vd))

/-- LDK_STREAM: Loads only the scale half of a stream row-group (R196). -/
def execLdkStream (p : BitVec 5) (kd : BitVec 8) (w : BitVec 5) (delay : BitVec 12) (s : State) : Host.Outcome State Fault Refusal :=
  perform s (checkI s (.ldkStream p kd w delay)) p fun s =>
    loadStream s w 1 0 0 kd.toNat 0x2 delay

/-- LDK_ROUND: Loads 64 scale entries from the round (R191). -/
def execLdkRound 
    (p : BitVec 5) (kd : BitVec 8) (bay : BitVec 3) (off : BitVec 12) (lane : BitVec 4) (s : State) : Host.Outcome State Fault Refusal :=
  perform s (checkI s (.ldkRound p kd bay off lane)) p fun s =>
    loadRound s bay (off.toNat * 64) 128 lane 2 2 (.scale kd.toNat)

/-- LDS_ROUND: Loads 8 round bytes into a scalar (R191). -/
def execLdsRound 
    (p : BitVec 5) (sd : BitVec 6) (bay : BitVec 3) (off8 : BitVec 15) (lane : BitVec 4) (s : State) : Host.Outcome State Fault Refusal :=
  perform s (checkI s (.ldsRound p sd bay off8 lane)) p fun s =>
    loadRound s bay (off8.toNat * 8) 8 lane 2 1 (.scalar sd.toNat)

/-- LDS_STREAM: Loads one converted stream element into a scalar (R196). -/
def execLdsStream (p : BitVec 5) (sd : BitVec 6) (w : BitVec 5) (delay : BitVec 12) (s : State) : Host.Outcome State Fault Refusal :=
  perform s (checkI s (.ldsStream p sd w delay)) p fun s =>
    loadStream s w 2 sd.toNat 0 0 0x5 delay

/-- POP_VECTOR: Takes the head element of an engine FIFO into a row with acquire semantics (R200). -/
def execPopVector (p : BitVec 5) (vd : BitVec 13) (q : BitVec 5) (delay : BitVec 12) (s : State) : Host.Outcome State Fault Refusal :=
  perform s (checkI s (.popVector p vd q delay)) p fun s =>
    popQueue s q (.popRow (vnum vd) (vdir vd)) 0x6 delay

/-- POP_SCALAR: Takes the head element of an engine FIFO into a scalar (R200). -/
def execPopScalar (p : BitVec 5) (sd : BitVec 6) (q : BitVec 5) (delay : BitVec 12) (s : State) : Host.Outcome State Fault Refusal :=
  perform s (checkI s (.popScalar p sd q delay)) p fun s =>
    popQueue s q (.popScalar sd.toNat) 0x7 delay

/-- FILL: Starts a transfer of a whole tile from an off-die stream (R201). -/
def execFill (p : BitVec 5) (tok : BitVec 6) (tile w : BitVec 5) (s : State) : Host.Outcome State Fault Refusal :=
  perform s (checkI s (.fill p tok tile w)) p fun s =>
    let x := wreg (me s) w.toNat
    stepStream (enqueue s (queueOf s (sTensor x)) (.fill tok.toNat tile.toNat (sTensor x) (spillOffs x)) .none 0x8 false) w 64

/-- ST: Stores a converted row-group through a stream, with a scale half when configured (R195). -/
def execSt (p w : BitVec 5) (vs : BitVec 13) (ks : BitVec 8) (s : State) : Host.Outcome State Fault Refusal :=
  perform s (checkX s (.st p w vs ks)) p fun s =>
    storeStream s w true true (groupCount (wreg (me s) w.toNat)) (readVec (me s) vs).toNat (kreg (me s) ks.toNat).entries 0x0

/-- STR: Stores a vector row into 512 round bytes (R191). -/
def execStr 
    (p : BitVec 5) (bay : BitVec 3) (off : BitVec 12) (lane : BitVec 4) (vs : BitVec 13) (s : State) : Host.Outcome State Fault Refusal :=
  perform s (checkX s (.str p bay off lane vs)) p fun s =>
    storeRound s bay (off.toNat * 64) lane 1 8 (rowBytes (readVec (me s) vs))

/-- STK_STREAM: Stores only the scale half through a stream (R196). -/
def execStkStream (p w : BitVec 5) (ks : BitVec 8) (s : State) : Host.Outcome State Fault Refusal :=
  perform s (checkX s (.stkStream p w ks)) p fun s =>
    storeStream s w false true 0 0 (kreg (me s) ks.toNat).entries 0x2

/-- STK_ROUND: Stores 64 scale entries into the round (R191). -/
def execStkRound 
    (p : BitVec 5) (bay : BitVec 3) (off : BitVec 12) (lane : BitVec 4) (ks : BitVec 8) (s : State) : Host.Outcome State Fault Refusal :=
  perform s (checkX s (.stkRound p bay off lane ks)) p fun s =>
    storeRound s bay (off.toNat * 64) lane 1 2 (leBytes 128 (kreg (me s) ks.toNat).entries.toNat)

/-- STS_ROUND: Stores a scalar into 8 round bytes (R191). -/
def execStsRound 
    (p : BitVec 5) (bay : BitVec 3) (off8 : BitVec 15) (lane : BitVec 4) (a : BitVec 6) (s : State) : Host.Outcome State Fault Refusal :=
  perform s (checkX s (.stsRound p bay off8 lane a)) p fun s =>
    storeRound s bay (off8.toNat * 8) lane 1 1 (leBytes 8 (sreg (me s) a.toNat).toNat)

/-- STS_STREAM: Stores one element from a scalar through a stream (R196). -/
def execStsStream (p w : BitVec 5) (a : BitVec 6) (s : State) : Host.Outcome State Fault Refusal :=
  perform s (checkX s (.stsStream p w a)) p fun s =>
    storeStream s w true false 1 (sreg (me s) a.toNat).toNat 0 0x5

/-- PUSH_VECTOR: Places a row at the tail of an engine FIFO with release semantics (R199). -/
def execPushVector (p q : BitVec 5) (vs : BitVec 13) (s : State) : Host.Outcome State Fault Refusal :=
  perform s (checkX s (.pushVector p q vs)) p fun s =>
    pushQueue s q (readVec (me s) vs) 0x6

/-- PUSH_SCALAR: Places a scalar element at the tail of an engine FIFO (R199). -/
def execPushScalar (p q : BitVec 5) (a : BitVec 6) (s : State) : Host.Outcome State Fault Refusal :=
  perform s (checkX s (.pushScalar p q a)) p fun s =>
    pushQueue s q ((sreg (me s) a.toNat).setWidth 4096) 0x7

/-- SPILL: Starts a transfer of a whole tile to an off-die stream (R201). -/
def execSpill (p : BitVec 5) (tok : BitVec 6) (tile w : BitVec 5) (s : State) : Host.Outcome State Fault Refusal :=
  perform s (checkX s (.spill p tok tile w)) p fun s =>
    let x := wreg (me s) w.toNat
    stepStream (enqueue s (queueOf s (sTensor x)) (.spill tok.toNat tile.toNat (sTensor x) (spillOffs x) (tileRows (me s) tile.toNat)) .none 0x8
      false) w 64

/-- MOVP_ROUND: Moves 64 round bytes to a station port (R209). -/
def execMovpRound 
    (p : BitVec 5) (bay : BitVec 3) (off : BitVec 12) (lane : BitVec 4) (port : BitVec 8) (s : State) : Host.Outcome State Fault Refusal :=
  perform s (checkX s (.movpRound p bay off lane port)) p fun s =>
    let h := hops lane.toNat (bayPos bay.toNat) (stationPos port)
    let t := enterTrigger s (dxTrigger port.toNat) (leavesDie s port.toNat (movpArrive s bay lane port)) 0x0
    emit (ride t.2 (movpTraffic bay off lane port)) 2 (.read bay.toNat (off.toNat * 64) 64 (s.cur.cycle + 4 + h) (.port port.toNat t.1))

/-- MOVP_SCALAR: Moves a scalar to a station port (R209). -/
def execMovpScalar (p : BitVec 5) (a : BitVec 6) (port : BitVec 8) (lane : BitVec 4) (s : State) : Host.Outcome State Fault Refusal :=
  perform s (checkX s (.movpScalar p a port lane)) p fun s =>
    let h := hops lane.toNat (portPos s.cur.ctx) (stationPos port)
    let t := enterTrigger s (dxTrigger port.toNat) (leavesDie s port.toNat (movpsArrive s lane port)) 0x1
    emit (ride t.2 (movpsTraffic s lane port)) (2 + h) (.move port.toNat (sreg (me s) a.toNat) t.1)

/-- The bay bytes XFER reads at issue: positions with an even number are bays, the others are not (R202). -/
def xferRanges (frm : BitVec 4) (a : BitVec 12) : List (Nat × Nat) :=
  if frm.toNat % 2 = 0 then [(frm.toNat / 2 * 2 ^ 18 + a.toNat * 64, 512)] else []

/-- XFER: Moves 512 bytes between round positions on a named lane (R202). -/
def execXfer 
    (p : BitVec 5) (frm dest lane : BitVec 4) (fromaddr toaddr : BitVec 12) (s : State) : Host.Outcome State Fault Refusal :=
  perform s (checkX s (.xfer p frm dest lane fromaddr toaddr)) p fun s =>
    let h := hops lane.toNat frm.toNat dest.toNat
    let u := enterTrigger s (dest.toNat == 5 && dxTrigger (toaddr.toNat % 32)) (xferLeaves s frm dest lane toaddr) 0x2
    readAtIssue (ride u.2 (xferTraffic frm dest lane fromaddr toaddr)) (xferRanges frm fromaddr) (s.cur.cycle + h + 1)
      (fun t => emit t (h + 1) (xferEffect s dest toaddr (xferSource s frm fromaddr) u.1))

/-- REDS_VECTOR: Sends a 128-lane reduce packet to a Stable's RX (R210). -/
def execRedsVector 
    (p : BitVec 5) (vs : BitVec 13) (t : BitVec 6) (op : BitVec 3) (ty : BitVec 1) (sem : BitVec 6) (s : State) : Host.Outcome State Fault Refusal :=
  perform s (checkX s (.redsVector p vs t op ty sem)) p fun s =>
    sendReds s (sreg (me s) t.toNat) op ty true (readVec (me s) vs) sem 0x3

/-- REDS_SCALAR: Sends a one-lane reduce packet to a Stable's RX (R210). -/
def execRedsScalar 
    (p : BitVec 5) (a t : BitVec 6) (op : BitVec 3) (ty : BitVec 1) (sem : BitVec 6) (s : State) : Host.Outcome State Fault Refusal :=
  perform s (checkX s (.redsScalar p a t op ty sem)) p fun s =>
    sendReds s (sreg (me s) t.toNat) op ty false ((sreg (me s) a.toNat).setWidth 4096) sem 0x4

/-- SCFG_TABLE: Loads a stream descriptor from the stream table and zeroes positions (R198). -/
def execScfgTable (p w : BitVec 5) (entry : BitVec 12) (s : State) : Host.Outcome State Fault Refusal :=
  perform s (checkX s (.scfgTable p w entry)) p fun s =>
    emit s 1 (.wload w.toNat (resetPos (wregOf (nth (myLaunch s).streams entry.toNat []))).words)

/-- SCFG_SCALAR: Writes one stream descriptor word from a scalar (R198). -/
def execScfgScalar (p w : BitVec 5) (word : BitVec 4) (a : BitVec 6) (s : State) : Host.Outcome State Fault Refusal :=
  perform s (checkX s (.scfgScalar p w word a)) p fun s =>
    emit s 1 (.wword w.toNat word.toNat (sreg (me s) a.toNat))

/-- SADV: Advances a stream by steps from a given dimension (R239). -/
def execSadv (p w : BitVec 5) (dim : BitVec 2) (steps : BitVec 16) (s : State) : Host.Outcome State Fault Refusal :=
  perform s (checkX s (.sadv p w dim steps)) p fun s =>
    emit s 1 (.advance w.toNat dim.toNat steps.toNat)

/-- SRST: Resets every position of a stream to zero (R198). -/
def execSrst (p w : BitVec 5) (s : State) : Host.Outcome State Fault Refusal :=
  perform s (checkX s (.srst p w)) p fun s =>
    emit s 1 (.wreset w.toNat)

end Sys2Proof.Machine
end

