-- ==== Sys2Proof/Machine/Cim.lean ====
section
/-!
DEFINITION. Compute-in-memory: modes, weight planes, column sums, accumulators and checksums (R219 to R226).
-/

namespace Sys2Proof.Machine

/-- The context with every macro of a mask changed. -/
def modMacros (c : Ctx) (mask : BitVec 8) (f : Macro → Macro) : Ctx :=
  (List.range 8).foldl (fun c m => if bit mask m then modMacro c m f else c) c

/-- Macro parts occupied up to and with context cycle `last` (R219, log 117). -/
def occupy (s : State) (mask : BitVec 8) (act shad acc : Bool) (last : Nat) : State :=
  let put (b : Bool) (old : Nat × Nat) : Nat × Nat := if b ∧ old.1 ≤ last then (last + 1, hereSrc s) else old
  modMe s (fun c => modMacros c mask (fun x =>
    { x with time := { x.time with busyActive := put act x.time.busyActive, busyShadow := put shad x.time.busyShadow,
                                   busyAcc := put acc x.time.busyAcc } }))

/-- The activation of one byte: its low bits, unsigned, two's complement, or INT1 bipolar (R42, R223). -/
def actInt (nbits : Nat) (sg : Bool) (x : Nat) : Int :=
  if sg then (if nbits = 1 then (if x % 2 = 1 then -1 else 1) else signed nbits x) else ((x % 2 ^ nbits : Nat) : Int)

/-- The column sums of a bank by block: at 64g + c the sum over rows gL to gL + L − 1 (R62, R223, R401). -/
def columnSums (nib : Bool) (b : Bank) (acts : Row) (nbits : Nat) (sg : Bool) (g : Nat) : List Int :=
  let l := 256 / g
  (List.range g).foldr
    (fun n acc =>
      ((List.range l).foldl
        (fun (t : List Int) r =>
          let row := n * l + r
          let a := actInt nbits sg (elem 8 acts.toNat row)
          let cells := (mget b.rows row 0).toNat
          if a = 0 then t else t.zipWith (fun x c =>
            let w := weightInt b.wfmt (elem 8 cells c)
            x + a * (if nib then nibbleInt b.wfmt w else w)) (List.range 64))
        (List.replicate 64 0)) ++ acc)
    []

/-- The split that an active bank's tag fixes: G and L (R223). -/
def splitOf (c : Ctx) (m : Nat) : Nat × Nat :=
  let t := bankTag m 0
  if bit (tagOf c t) 31 ∧ tagAxis c t = 1 ∧ tagBlock c t ≤ 128 then (256 / tagBlock c t, tagBlock c t) else (1, 256)

/-- CMAC's issue: each macro's split is fixed if it has none (R223), and its active bank counts as read (R281). -/
def fixSplits (s : State) (mask : BitVec 8) : State :=
  modMe s (fun c => (List.range 8).foldl
    (fun x m =>
      if bit mask m then
        modMacro x m (fun y => { y with activeRead := true, time := { y.time with split := some (y.time.split.getD (splitOf c m)) } })
      else x) c)

/-- The column sums of every macro of a mask, landing `lat` cycles after issue (R62, R223). -/
def emitSums (s : State) (lat : Nat) (mask : BitVec 8) (acts : Row) (nbits : Nat) (sg : Bool) (wacc : Nat) : State :=
  (List.range 8).foldl
    (fun s m =>
      if bit mask m then
        let x := macroOf (me s) m
        let g := (x.time.split.getD (1, 256)).1
        emit s lat (.csum m wacc g (256 / g) (columnSums (nibbled s s.cur.ctx m) x.active acts nbits sg g))
      else s) s

/-- An accumulator A(c, g) of a macro (R223). -/
def accOf (x : Macro) (c g : Nat) : Int := mget x.acc (64 * g + c) 0

/-- The blocks of a macro's split; 1 before a CMAC fixes one (R224). -/
def blocksOf (x : Macro) : Nat := (x.time.split.getD (1, 256)).1

/-- CREAD: the sums over blocks saturated to INT32, and the columns that saturated (R224). -/
def creadCols (x : Macro) : List (Int × Bool) :=
  (List.range 64).map (fun c => satAcc 32 ((List.range (blocksOf x)).foldl (fun t g => t + accOf x c g) 0))

/-- CREAD.k: the scaled sum of one column (R224, log 33). -/
def creadkCol (c : Ctx) (m col : Nat) : LaneR :=
  let x := macroOf c m
  let k := tagReg c (bankTag m 0)
  if tagAxis c (bankTag m 0) = 1 then
    (List.range (blocksOf x)).foldl
      (fun y g =>
        let p := r32 (mulV (ofInt (accOf x col g) 0) (entryVal k g))
        let t := fadd y.1 p.1
        (t.1, y.2 ||| p.2 ||| t.2)) (0, 0)
  else r32 (mulV (ofInt (accOf x col 0) 0) (entryVal k (col / tagBlock c (bankTag m 0))))

/-- The 256 bytes of one half of a row as a byte mask (R224). -/
def halfMask (half : BitVec 1) : BitVec 512 := (BitVec.allOnes 512 >>> 256) <<< (256 * half.toNat)

/-- Sixty-four lanes placed in one half of a row (R224). -/
def halfRow (half : BitVec 1) (f : Nat → BitVec 32) : Row :=
  rowOf 32 128 (fun j => if j / 64 = half.toNat then (f (j % 64)).toNat else 0)

/-- The rows of a bank whose checksum differs, ascending, with (computed − stored) mod 256 (R226, R403). -/
def badSums (nib : Bool) (b : Bank) : List (Nat × Nat) :=
  (List.range 256).filterMap (fun r =>
    let d := (rowSum nib b.wfmt (mget b.rows r 0) + 256 - (mget b.sums r 0).toNat) % 256
    if d = 0 then none else some (r, d))

/-- The fault 0x09 that a CCHK leaves of mismatching rows of a bank: the lowest, their number, and whether one of them has no source copy (R226,
R396, R406, log 43, log 92). -/
def sumFault (m : Nat) (shadow : Bool) (b : Bank) (bad : Nat × Nat) (rest : List (Nat × Nat)) (cycle at0 pc0 : Nat) : LateFault :=
  let noSource := if (bad :: rest).all (fun e => decide (2 ≤ mget b.src e.1 0)) then 0 else 4096
  { code := 9, cycle := cycle, slot := 3, info := m * 512 + (if shadow then 256 else 0) + bad.1 + noSource, at0 := at0, pc0 := pc0,
    count := rest.length + 1, synd := bad.2 }

/-- CCHK: in weights mode a mismatch leaves fault 0x09 for the first bundle at or after issue + 8 (R226, R406, log 43, log 59, log 92). -/
def checkBank (s : State) (m : Nat) (shadow : Bool) : State :=
  let x := macroOf (me s) m
  let b := if shadow then x.shadow else x.active
  match (if x.scratch then [] else badSums (nibbled s s.cur.ctx m) b) with
  | [] => s
  | e :: rest => modMe s (fun c => { c with late := c.late ++ [sumFault m shadow b e rest (s.cur.cycle + 8) s.cur.cycle s.cur.pc] })

/-- CMODE: Sets the bank mode of macros to weights or scratch (R220). -/
def execCmode (p : BitVec 5) (mode : BitVec 1) (mask : BitVec 8) (s : State) : Host.Outcome State Fault Refusal :=
  perform s (checkI s (.cmode p mode mask)) p fun s =>
    let lat := if mode = 1 then 2 else 258
    emit (occupy s mask true true false (s.cur.cycle + lat)) lat (.cmode mask.toNat (mode == 1))

/-- CLOAD_ROW: Writes weight planes into a macro bank from a vector row (R221). -/
def execCloadRow 
    (p : BitVec 5) (vs : BitVec 13) (cm : BitVec 3) (first : BitVec 8) (wfmt : BitVec 5) (s : State) : Host.Outcome State Fault Refusal :=
  perform s (checkI s (.cloadRow p vs cm first wfmt)) p fun s =>
    let scr := (macroOf (me s) cm.toNat).scratch
    emit (occupy s (cmMask cm) scr (!scr) false (s.cur.cycle + 2)) 2 (.cload cm.toNat first.toNat wfmt.toNat (readVec (me s) vs))

/-- CLOAD_ROUND: Writes weight planes into a macro bank from the round (R221). -/
def execCloadRound 
    (p : BitVec 5) (bay : BitVec 3) (off : BitVec 12) (lane : BitVec 4) (cm : BitVec 3) (first : BitVec 8) (wfmt : BitVec 5) (s : State) : Host.Outcome State Fault Refusal :=
  perform s (checkI s (.cloadRound p bay off lane cm first wfmt)) p fun s =>
    let scr := (macroOf (me s) cm.toNat).scratch
    let h := loadHops s bay lane
    let s := occupy s (cmMask cm) scr (!scr) false (s.cur.cycle + 4 + h)
    loadRound s bay (off.toNat * 64) 512 lane 2 8 (.cload cm.toNat first.toNat wfmt.toNat)

/-- CSWAP: Exchanges the active and shadow banks with their tags (R222). -/
def execCswap (p : BitVec 5) (mask : BitVec 8) (s : State) : Host.Outcome State Fault Refusal :=
  perform s (checkI s (.cswap p mask)) p fun s =>
    let s := occupy s mask true true false (s.cur.cycle + 1)
    let s := modMe s (fun c => modMacros c mask (fun x => { x with time := { x.time with swapsDue := x.time.swapsDue + 1 } }))
    emit s 2 (.cswap mask.toNat)

/-- CMAC_ROW: Bit-serial column sums over the active bank from a vector row (R223). -/
def execCmacRow 
    (p : BitVec 5) (mask : BitVec 8) (va : BitVec 13) (abits : BitVec 3) (asigned : BitVec 1) (wacc : BitVec 5) (s : State) : Host.Outcome State Fault Refusal :=
  perform s (checkI s (.cmacRow p mask va abits asigned wacc)) p fun s =>
    let b := abits.toNat + 1
    let s := fixSplits (occupy (occupy s mask true false false (s.cur.cycle + b - 1)) mask false false true (s.cur.cycle + b + 3)) mask
    emitSums s (b + 4) mask (readVec (me s) va) b (asigned == 1) (wacc.toNat + 12)

/-- CMAC_ROUND: Bit-serial column sums with activations from the round (R223). -/
def execCmacRound 
    (p : BitVec 5) (mask : BitVec 8) (bay : BitVec 3) (off : BitVec 12) (lane : BitVec 4) (abits : BitVec 3) (asigned : BitVec 1) (wacc : BitVec 5) (s : State) : Host.Outcome State Fault Refusal :=
  perform s (checkI s (.cmacRound p mask bay off lane abits asigned wacc)) p fun s =>
    let b := abits.toNat + 1
    let h := loadHops s bay lane
    let s := fixSplits (occupy (occupy s mask true false false (s.cur.cycle + b + 1 + h)) mask false false true (s.cur.cycle + b + 5 + h)) mask
    emit (ride s (loadTraffic s bay (off.toNat * 64) 512 lane 2 8)) 2 (.read bay.toNat (off.toNat * 64) 512 (s.cur.cycle + b + 6 + h)
      (.cmac mask.toNat b (asigned == 1) (wacc.toNat + 12)))

/-- CREAD: Reads the accumulators as saturated INT32 into a row half (R224). -/
def execCread (p : BitVec 5) (vd : BitVec 13) (cm : BitVec 3) (half : BitVec 1) (s : State) : Host.Outcome State Fault Refusal :=
  perform s (checkI s (.cread p vd cm half)) p fun s =>
    let r := creadCols (macroOf (me s) cm.toNat)
    let cols := pack 1 64 (fun c => if (nth r c (0, false)).2 then 1 else 0)
    let s := emit s 3 (.row (vnum vd) (vdir vd) (halfRow half (fun c => BitVec.ofInt 32 (nth r c (0, false)).1)) (halfMask half))
    if cols = 0 then s else emit s 3 (.cov cm.toNat (BitVec.ofNat 64 cols))

/-- CREAD_K: Reads the accumulators scaled to FP32 (R224, log 33). -/
def execCreadK (p : BitVec 5) (vd : BitVec 13) (cm : BitVec 3) (half : BitVec 1) (s : State) : Host.Outcome State Fault Refusal :=
  perform s (checkI s (.creadK p vd cm half)) p fun s =>
    let r := (List.range 64).map (creadkCol (me s) cm.toNat)
    emitFlags (emit s 3 (.row (vnum vd) (vdir vd) (halfRow half (fun c => (nth r c (0, 0)).1)) (halfMask half))) 3
      (r.foldl (fun f x => f ||| x.2) 0)

/-- CCLR: Zeroes the accumulators and forgets the split (R225). -/
def execCclr (p : BitVec 5) (mask : BitVec 8) (s : State) : Host.Outcome State Fault Refusal :=
  perform s (checkI s (.cclr p mask)) p fun s =>
    emit (occupy s mask false false true s.cur.cycle) 1 (.cclr mask.toNat)

/-- CCHK (a macro in scratch mode keeps its banks free, log 117): Recomputes and checks the row checksums of a bank (R226). -/
def execCchk (p : BitVec 5) (bank : BitVec 1) (cm : BitVec 3) (s : State) : Host.Outcome State Fault Refusal :=
  perform s (checkI s (.cchk p bank cm)) p fun s =>
    if (macroOf (me s) cm.toNat).scratch then s
    else
    let s := checkBank s cm.toNat (bank == 1)
    let s := modMe s (fun c => modMacro c cm.toNat (fun x => if bank = 1 then { x with shadowRead := true } else { x with activeRead := true }))
    occupy s (cmMask cm) (bank == 0) (bank == 1) false (s.cur.cycle + 7)

end Sys2Proof.Machine
end

