-- ==== Sys2Proof/Machine/Undo.lean ====
section
/-!
DEFINITION. The undo log of a segment: which unit a write touches, what it records and what it charges (R284 to R287).
-/

namespace Sys2Proof.Machine

/-- A record with the two banks of a macro exchanged, as an exchange leaves their places (R222, R285). -/
def flipUnit (cm : Nat) (u : Undo) : Undo :=
  match u with
  | .bankRow m sh r v s f k => if m = cm then .bankRow m (!sh) r v s f k else u
  | .tag t v => if t = bankTag cm 0 then .tag (bankTag cm 1) v else if t = bankTag cm 1 then .tag (bankTag cm 0) v else u
  | _ => u

/-- Whether two records are of one unit (R285). -/
def sameUnit (u v : Undo) : Bool :=
  match u, v with
  | .row n _, .row m _ => n == m
  | .granule r b g _, .granule q c h _ => r == q && b == c && g == h
  | .kreg k _, .kreg j _ => k == j
  | .tag t _, .tag r _ => t == r
  | .bankRow c sh r _ _ _ _, .bankRow d sh' r' _ _ _ _ => c == d && sh == sh' && r == r'
  | .acc c _ _, .acc d _ _ => c == d
  | _, _ => false

/-- Whether a unit has its record in a log given newest first; a unit of a bank is followed through exchanges (R285). -/
def loggedIn : List Undo → Undo → Bool
  | [], _ => false
  | .swap cm :: r, u => loggedIn r (flipUnit cm u)
  | v :: r, u => sameUnit v u || loggedIn r u

/-- The first write to a unit in the segment logs its old contents and is charged; after EXIT no segment is open (R147, R285,
R287). -/
def logUnit (c : Ctx) (u : Undo) (bytes : Nat) : Ctx :=
  if c.grant.segbudget = 0 ∨ c.after = .exit ∨ loggedIn c.undo.reverse u then c else { c with undo := c.undo ++ [u], charge := c.charge + bytes }

/-- A record kept for every event of its kind: an exchange, a mode change, a semaphore operation (R285, R287). -/
def logEvent (c : Ctx) (u : Undo) : Ctx :=
  if c.grant.segbudget = 0 ∨ c.after = .exit then c else { c with undo := c.undo ++ [u], charge := c.charge + 8 }

/-- The rows a vector write touches, each logged once (R285). -/
def logRows (c : Ctx) (rows : List Nat) : Ctx := rows.foldl (fun c n => logUnit c (.row n (vrow c n)) 520) c

/-- A scale register logged (R285). -/
def logKreg (c : Ctx) (k : Nat) : Ctx := logUnit c (.kreg k (kreg c k)) 144

/-- A binding tag logged (R285). -/
def logTag (c : Ctx) (t : Nat) : Ctx := logUnit c (.tag t (tagOf c t)) 8

/-- The 64-byte granules of a round range that a context writes, each logged once with its bytes so far (R285). -/
def logGranules (s : State) (c : Ctx) (stable bay off n : Nat) : Ctx :=
  if n = 0 then c
  else (List.range ((off + n - 1) / 64 + 1 - off / 64)).foldl
    (fun c i => let g := off / 64 + i
      logUnit c (.granule stable bay g (BitVec.ofNat 512 (leNat (roundRead s stable bay (g * 64) 64)))) 72) c

/-- Writes that were performed past the budget: their records are missing, and fault 0x02 waits for the next bundle (R286, R388, log 15). -/
def overrun (x : Ctx) : Bool := x.late.any (fun f => f.code == 2 && f.cycle == 0)

/-- Charges of writes that are performed whatever the budget: records past it are not kept and leave fault 0x02 for the next
bundle (R286, log 15). -/
def chargeSoft (c : Ctx) (f : Ctx → Ctx) : Ctx :=
  let d := f c
  if d.charge ≤ d.grant.segbudget ∨ d.grant.segbudget = 0 then d
  else if overrun c then c
  else { c with late := c.late ++ [{ code := 2, cycle := 0, slot := 0, info := 0, at0 := 0, pc0 := 0, count := 0, synd := 0 }] }

/-- The source of a bank row as an undo record keeps it: none, CLOAD, or a fill with its request (R285, R396). -/
def rowSource (b : Bank) (r : Nat) : Nat × BitVec 128 :=
  let k := mget b.src r 0
  (min k 2, if 2 ≤ k then nth b.reqs (k - 2) 0 else 0)

/-- The sources of a bank's rows with one put back; a fill whose request the bank holds no more leaves none (R285, R396). -/
def putSource (b : Bank) (r : Nat) (k : Nat × BitVec 128) : Map Nat :=
  match k.1 with
  | 0 => mdel b.src r
  | 1 => mput b.src r 1
  | _ => match b.reqs.findIdx? (· == k.2) with | some i => mput b.src r (2 + i) | none => mdel b.src r

/-- One record undone: its unit as it was, an exchange or a count reversed (R285); the words put back are whole (R384, R387, log 74). -/
def undoOne (s : State) (c : Nat) (u : Undo) : State :=
  let clear (s : State) (gone : Mark → Bool) : State := { s with marks := s.marks.filter (fun m => !(m.owner == c && gone m)) }
  match u with
  | .row n v => modCtx (clear s (fun m => m.struct == 1 && m.unit == n)) c (fun x => { x with vrows := mset x.vrows n v 0 })
  | .granule sb bay g v => roundWrite s sb bay (g * 64) (leBytes 64 v.toNat) (fullMask 64)
  | .kreg k v => modCtx (clear s (fun m => m.struct == 2 && m.unit == k)) c (fun x => { x with kregs := mput x.kregs k v })
  | .tag t v => modCtx s c (fun x => { x with tags := mset x.tags t v 0 })
  | .bankRow cm sh r v sum f k =>
    let put (b : Bank) : Bank :=
      { b with rows := mset b.rows r v 0, sums := mset b.sums r sum 0, wfmt := f, badRows := b.badRows.filter (fun k => k != r),
               src := putSource b r k }
    modCtx s c (fun x => modMacro x cm (fun m => if sh then { m with shadow := put m.shadow } else { m with active := put m.active }))
  | .swap cm =>
    modCtx s c (fun x =>
      { (modMacro x cm (fun m =>
            { m with active := m.shadow, shadow := m.active, fillActive := m.fillOn.isSome && !m.fillActive })) with
        tags := mset (mset x.tags (bankTag cm 0) (tagOf x (bankTag cm 1)) 0) (bankTag cm 1) (tagOf x (bankTag cm 0)) 0 })
  | .mode cm scr => modCtx s c (fun x => modMacro x cm (fun m => { m with scratch := scr }))
  | .acc cm acc _ =>
    modCtx (clear s (fun m => m.struct == 0x0A && m.unit / 64 == cm)) c (fun x => modMacro x cm (fun m => { m with acc := acc }))
  | .signalled sb sem n =>
    modStable s sb (fun t => { t with sems := mset t.sems sem (BitVec.ofNat 32 ((mget t.sems sem 0).toNat - n)) 0 })
  | .taken sem n =>
    modStable s (stableOf c) (fun t =>
      { t with sems := mset t.sems sem (BitVec.ofNat 32 (min (2 ^ 32 - 1) ((mget t.sems sem 0).toNat + n))) 0 })
  | .popped i v =>
    modLaunch s (ctxOf s c).launch (fun l =>
      { l with fifoData := mset l.fifoData i (v :: mget l.fifoData i []) [], popped := mput l.popped i (mget l.popped i 0 - 1) })

/-- The accesses that a rerun meets again: those of the snapshot that are not over, with the answers they have had since, and those of
the segment that still have to perform; the access of a job that runs again is under way again (R284, R385, log 77). -/
def rerunOps (x : Ctx) (n : Snapshot) : List OffOp :=
  let again (o : OffOp) : OffOp :=
    match o.kind with
    | .dx (some j) => if o.performed && n.jobs.any (fun k => k.id == j) then { o with performed := false, ans := .under } else o
    | _ => o
  (n.ops.map again).filter (fun o => !(o.performed && o.landed)) ++ x.ops.filter (fun o => o.seg == x.seg)

/-- A context as its snapshot holds it, with its rendezvous counts kept (R284, R385, R386). -/
def fromSnapshot (x : Ctx) (n : Snapshot) : Ctx :=
  { x with pc := n.pc, base := n.base, tprev := n.tprev, ccycle := n.ccycle, loops := n.loops, sregs := n.sregs, pregs := n.pregs,
           nregs := n.nregs, wregs := n.wregs, mode := n.mode, fflags := n.fflags, cov := n.cov, taps := n.taps, tapstat := n.tapstat,
           macros := x.macros.map (fun m => (m.1, { m.2 with time := mget n.macros m.1 macroInit.time, activeRead := false, shadowRead := false })),
           flight := n.flight, ops := rerunOps x n, late := n.late, bar := n.bar, undo := [], charge := 0, segRewound := true,
           landedNow := false, probeOk := false }

end Sys2Proof.Machine
end

