-- ==== Sys2Proof/Machine/Stations.lean ====
section
/-!
DEFINITION. The transform stations DX, TX, HX and QX: parameters, triggers, jobs and their status (R203 to R208).
-/

namespace Sys2Proof.Machine

/-- The bytes of a literal run or what is left of the input, under the output limit: output newest first, error (R206, log 118). -/
def dxLiteral : Nat → List Byte → Nat → List Byte → List Byte × List Byte × Nat
  | 0, inp, _, out => (out, inp, 0)
  | _ + 1, [], _, out => (out, [], 3)
  | n + 1, b :: r, limit, out => if limit ≤ out.length then (out, r, 2) else dxLiteral n r limit (b :: out)

/-- A back-reference of distance d, one byte at a time (R206, log 118). -/
def dxCopy : Nat → Nat → Nat → List Byte → List Byte × Nat
  | 0, _, _, out => (out, 0)
  | n + 1, d, limit, out => if limit ≤ out.length then (out, 2) else dxCopy n d limit (nth out (d - 1) 0 :: out)

/-- The decode of a back-reference stream: output newest first and the error that ended it; of two that one token meets, the output limit
comes before the input's end only where a byte is still there to copy, and a bad distance before the limit (R206, log 118). -/
def dxDecode : Nat → List Byte → Nat → List Byte → List Byte × Nat
  | 0, _, _, out => (out, 0)
  | _ + 1, [], _, out => (out, 0)
  | fuel + 1, c :: r, limit, out =>
    if c.toNat < 128 then
      let x := dxLiteral (c.toNat + 1) r limit out
      if x.2.2 = 0 then dxDecode fuel x.2.1 limit x.1 else (x.1, x.2.2)
    else
      match r with
      | lo :: hi :: rest =>
        let d := lo.toNat + 256 * hi.toNat
        if d = 0 ∨ out.length < d then (out, 1)
        else
          let x := dxCopy (c.toNat - 128 + 3) d limit out
          if x.2 = 0 then dxDecode fuel rest limit x.1 else (x.1, x.2)
      | _ => (out, 3)

/-- A station's parameter words of a context: src, dst, len, opt (R204). -/
def jobArgs (c : Ctx) (st : Nat) : List Word := (List.range 4).map (fun i => mget c.station (32 * st + i) 0)

/-- A job's bay and offset in a src or dst word (R204). -/
def argBay (w : Word) : Nat := fld w 18 3
/-- Its byte offset in the bay. -/
def argOff (w : Word) : Nat := fld w 0 18

/-- A job with an illegal option (R207). -/
def jobOptBad (st : Nat) (a : List Word) : Bool :=
  let src := nth a 0 0
  let dst := nth a 1 0
  let opt := nth a 3 0
  fld dst 48 16 != 0 || (st != 0 && fld src 48 16 != 0) || (st == 1 && fld opt 24 2 == 3) ||
    (st == 3 && !(fmtOk (fld opt 8 5) && fmtOk (fld opt 16 5)))

/-- Bytes a job reads at src and, per destination row, the offset and length it may write (R205). -/
def jobRanges (st trig : Nat) (a : List Word) : List (Nat × Nat) × List (Nat × Nat) :=
  let src := argOff (nth a 0 0)
  let dst := argOff (nth a 1 0)
  let len := nth a 2 0
  let opt := nth a 3 0
  let n := fld len 0 18
  let m := fld len 32 18
  match st with
  | 0 => ([(src, n)], [(dst, if trig = 0x10 then m else n)])
  | 1 =>
    let w := 2 ^ fld opt 24 2
    ((List.range 64).map (fun i => (src + i * n, 64 * w)), (List.range 64).map (fun i => (dst + i * m, 64 * w)))
  | 2 => ([(src, n)], [(dst, 32)])
  | _ => ([(src, ceilDiv (n * containerBits (fld opt 8 5)) 8)], [(dst, ceilDiv (n * containerBits (fld opt 16 5)) 8)])

/-- A job whose ranges, tensor source or semaphore the launch does not hold (R207). -/
def jobRangeBad (l : Launch) (st trig : Nat) (a : List Word) : Bool :=
  let src := nth a 0 0
  let opt := nth a 3 0
  let r := jobRanges st trig a
  let inside (bay : Nat) (x : Nat × Nat) : Bool := x.2 == 0 || inExtent l bay (x.1 : Nat) x.2
  let tid := fld src 48 16
  let srcBad :=
    if tid = 0 then !r.1.all (inside (argBay src))
    else
      match tensorOf l tid with
      | none => true
      | some t => t.kind == 0 || (fld (nth a 2 0) 0 18 != 0 && decide (t.tiles ≤ (fld src 0 48 + fld (nth a 2 0) 0 18 - 1) / 65536))
  srcBad || !r.2.all (inside (argBay (nth a 1 0))) || (bit opt 6 && !bit l.semmask (fld opt 0 6))

/-- A job's duration in Yard cycles (R205). -/
def jobTime (st trig : Nat) (a : List Word) : Nat :=
  let n := fld (nth a 2 0) 0 18
  match st with
  | 0 => if trig = 0x10 then 8 + ceilDiv n 64 + ceilDiv (fld (nth a 2 0) 32 18) 16 else 8 + ceilDiv n 64
  | 1 => 8 + 64 * 2 ^ fld (nth a 3 0) 24 2
  | 2 => 8 + 65 * ((n + 8) / 64 + 1)
  | _ => 8 + ceilDiv n 128

/-- What a job writes from its source bytes: destination offsets with their bytes, flags, error (R205, R206). -/
def jobResult (st trig : Nat) (a : List Word) (src : List (List Byte)) : List (Nat × List Byte) × Flags5 × Nat :=
  let dst := argOff (nth a 1 0)
  let len := nth a 2 0
  let opt := nth a 3 0
  let flat := nth src 0 []
  match st with
  | 0 =>
    if trig = 0x10 then
      let r := dxDecode (flat.length + 1) flat (fld len 32 18) []
      ([(dst, r.1.reverse)], 0, r.2)
    else ([(dst, flat)], 0, 0)
  | 1 =>
    let w := 2 ^ fld opt 24 2
    ((List.range 64).map (fun r => (dst + r * fld len 32 18, src.foldl (fun acc row => acc ++ (row.drop (r * w)).take w) [])), 0, 0)
  | 2 => ([(dst, sha256 flat)], 0, 0)
  | _ =>
    let sf := fld opt 8 5
    let df := fld opt 16 5
    let n := fld len 0 18
    let x := leNat flat
    let r := (List.range n).map (fun e => encodeElem df (decodeElem sf (elem (containerBits sf) x e)))
    ([(dst, leBytes (ceilDiv (n * containerBits df) 8) (packList (containerBits df) (r.map (·.code))))],
      r.foldl (fun f y => f ||| y.flags) 0, 0)

/-- The station's running job of a class (R203). -/
def runningJob (t : Stable) (st slot : Nat) : Option Job := t.jobs.find? (fun j => j.station == st && slotOf j.ctx == slot)

/-- A DX job from a tensor has its access in the station queue: the one its trigger took at issue, or, where that is over, one under its
number, or one from now (R140, R254, R274, log 35). -/
def farAccess (s : State) (c jid : Nat) (op : Option Nat) : State :=
  modCtx s c (fun x =>
    let id := op.getD x.opId
    if x.ops.any (fun o => o.id == id) then
      { x with ops := x.ops.map (fun o => if o.id = id then { o with kind := .dx (some jid), performed := false, landed := true } else o) }
    else
      { x with ops := x.ops ++ [{ id := id, q := .station, kind := .dx (some jid), dst := .none, issue := x.ccycle, slot := 6, opc := 0,
                                  pc := x.pc, seg := x.seg, since := s.mcycle, performed := false, landed := true, trapped := false,
                                  ans := .waiting }],
               opId := max x.opId (id + 1) })

/-- A trigger move arrives: a job of the class already running refuses it, else the job starts with its checks made and its round
source read; `op` is the access that the move took at its issue (R205 to R208, R250, log 13, log 14, log 35, log 113). -/
def startJob (s : State) (c st trig : Nat) (op : Option Nat) : State :=
  let x := ctxOf s c
  let sb := stableOf c
  if (runningJob (stableAt s sb) st (slotOf c)).isSome then
    modCtx (dropAccess s c op) c (fun x => { x with stationStatus := mput x.stationStatus st (setField (mget x.stationStatus st 0) 62 1 1) })
  else
    let l := launchAt s x.launch
    let a := jobArgs x st
    let opt := nth a 3 0
    let err := if jobOptBad st a then 6 else if jobRangeBad l st trig a then 4 else 0
    let tid := fld (nth a 0 0) 48 16
    let far := err == 0 && tid != 0
    let src := (jobRanges st trig a).1.map (fun r => roundRead s sb (argBay (nth a 0 0)) r.1 r.2)
    let rs := (jobRanges st trig a).1.map (fun r => (argBay (nth a 0 0) * 2 ^ 18 + r.1, r.2))
    let poison := err == 0 && !far && s.marks.any (fun m => m.bad && markHit 0x0B sb 512 rs m)
    let s := if err = 0 ∧ far = false then readWords s 0x0B sb 512 rs else s
    let res := if err = 0 ∧ far = false then jobResult st trig a src else ([], 0, err)
    let id := s.fresh
    let job : Job := { id := id, station := st, ctx := c, ends := yardNow s c + jobTime st trig a, waits := far, bay := argBay (nth a 1 0),
                       off := trig, chunks := res.1, produced := (res.1.map (fun z => z.2.length)).foldl (· + ·) 0,
                       flags := res.2.1, error := res.2.2,
                       signal := if bit opt 6 && bit l.semmask (fld opt 0 6) then some (fld opt 0 6) else none,
                       poison := poison, args := a }
    let s := modStable { s with fresh := s.fresh + 1 } sb (fun t => { t with jobs := t.jobs ++ [job] })
    let s := modCtx s c (fun x => { x with stationStatus := mput x.stationStatus st (BitVec.ofNat 64 (2 ^ 63)) })
    if far then farAccess s c id op else dropAccess s c op

/-- A move arrives at a port of the context's own set: a parameter, a trigger, or the status port, which it leaves (R203, R204, log 12). -/
def applyMove (s : State) (c port : Nat) (v : Word) (op : Option Nat) : State :=
  if port % 32 < 4 then modCtx s c (fun x => { x with station := mset x.station port v 0 })
  else if port % 32 = 0x1F then s
  else startJob s c (port / 32) (port % 32) op

/-- The undo records of a job's writes, charged in the cycle they are made (R285, R286, log 15). -/
def chargeJob (s : State) (sb : Nat) (j : Job) : State :=
  modCtx s j.ctx (fun c => chargeSoft c (fun c => j.chunks.foldl (fun c w => logGranules s c sb j.bay w.1 w.2.length) c))

/-- A job's destination bytes written, at step 2 of R190 in cycle E − 1, with their undo records (R205, R285, R286, log 124). -/
def jobWrite (s : State) (sb : Nat) (j : Job) : State :=
  let s := chargeJob s sb j
  let s := j.chunks.foldl (fun s w => roundWrite s sb j.bay w.1 w.2 (fullMask w.2.length)) s
  let s := if j.poison then j.chunks.foldl (fun s w => poisonRange s 0x0B sb 512 (j.bay * 2 ^ 18 + w.1) w.2.length) s else s
  modStable s sb (fun t => { t with jobs := t.jobs.map (fun k => if k.id = j.id then { k with chunks := [] } else k) })

/-- The status word of an ended job (R208); a refusal since its trigger stays (log 14). -/
def jobStatus (old : Word) (j : Job) : Word :=
  BitVec.ofNat 64 ((if bit old 62 then 2 ^ 62 else 0) + j.produced % 2 ^ 18 * 2 ^ 32 + j.flags.toNat * 2 ^ 8 + j.error)

/-- The access of a job has performed: the job is over (R140, R255). -/
def jobAccess (s : State) (j : Job) : State :=
  match (ctxOf s j.ctx).ops.find? (fun o => o.kind == .dx (some j.id)) with
  | some o => opDone s j.ctx o.id (.data 0 0)
  | none => s

/-- A job ends in cycle E: anything still unwritten is written, the status is set, the semaphore is raised at step 2 of R143, and its access
has performed (R205, R207, R208, R255, log 15). -/
def endJob (s : State) (sb : Nat) (j : Job) : State :=
  let s := if j.chunks = [] then s else jobWrite s sb j
  let s := modStable s sb (fun t =>
    { t with jobs := t.jobs.filter (fun k => k.id != j.id),
             signals := match j.signal with
               | some n => t.signals ++ [{ sem := n, count := 1, due := (yardAt s (sb / 16)).ycycle, charged := 0 }]
               | none => t.signals })
  modCtx (jobAccess s j) j.ctx (fun x => { x with stationStatus := mput x.stationStatus j.station (jobStatus (mget x.stationStatus j.station 0) j) })

/-- A job with its input: its result, and its end, at the earliest a cycle after the arrival (R205). -/
def fedJob (j : Job) (data : List Byte) (poison : Bool) (ends : Nat) : Job :=
  let r := jobResult 0 j.off j.args [data]
  { j with waits := false, poison := poison, ends := max j.ends ends, chunks := r.1,
           produced := (r.1.map (fun z => z.2.length)).foldl (· + ·) 0, flags := r.2.1, error := r.2.2 }

/-- The first context cycle whose landings are still to be made. -/
def nextCycle (x : Ctx) : Nat := if x.landedNow then x.ccycle + 1 else x.ccycle

/-- The input of a DX job with a tensor source has arrived, in the cycle that comes next: its result is formed and its end is no earlier
than a cycle after, and a segment's snapshot that holds the job holds its input too (R205, R284, log 113). -/
def dxArrive (s : State) (sb id : Nat) (data : List Byte) (poison : Bool) : State :=
  let fed (e : Nat) (l : List Job) : List Job := l.map (fun j => if j.id = id then fedJob j data poison e else j)
  match (stableAt s sb).jobs.find? (fun j => j.id == id) with
  | none => s
  | some j =>
    let s := modStable s sb (fun t => { t with jobs := fed ((yardAt s (sb / 16)).ycycle + 2) t.jobs })
    modCtx s j.ctx (fun x => { x with snap := x.snap.map (fun n => { n with jobs := fed (nextCycle x + 1) n.jobs }) })

/-- Whether a job ends, or `ahead` cycles on, by Yard cycle `y` (R205, log 113). -/
def jobDue (y ahead : Nat) (j : Job) : Bool := !j.waits && decide (j.ends ≤ y + ahead)

/-- DX_BACKREF: a trigger starts a DX back-reference decode job (R206). -/
def execDxBackref (c : Nat) (s : State) : Host.Outcome State Fault Refusal := .next (startJob s c 0 0x10 none)

/-- DX_COPY: a trigger starts a DX copy job (R205). -/
def execDxCopy (c : Nat) (s : State) : Host.Outcome State Fault Refusal := .next (startJob s c 0 0x11 none)

/-- TX_TRANSPOSE: a trigger starts a TX transposition job (R205). -/
def execTxTranspose (c : Nat) (s : State) : Host.Outcome State Fault Refusal := .next (startJob s c 1 0x10 none)

/-- HX_SHA256: a trigger starts an HX SHA-256 job (R205). -/
def execHxSha256 (c : Nat) (s : State) : Host.Outcome State Fault Refusal := .next (startJob s c 2 0x10 none)

/-- QX_CONVERT: a trigger starts a QX format conversion job (R205). -/
def execQxConvert (c : Nat) (s : State) : Host.Outcome State Fault Refusal := .next (startJob s c 3 0x10 none)

/-- STATION_JOB_END: a job of a Stable ends in its cycle E; a job still waiting for tensor input does not (R205, R207). -/
def execStationJobEnd (stable id : Nat) (s : State) : Host.Outcome State Fault Refusal :=
  match (stableAt s stable).jobs.find? (fun j => j.id == id && jobDue (yardAt s (stable / 16)).ycycle 0 j) with
  | some j => .next (endJob s stable j)
  | none => .next s

end Sys2Proof.Machine
end

