-- ==== Sys2Proof/Machine/Landing.lean ====
section
/-!
DEFINITION. Step 1 of a context cycle: what each result in flight does when it lands (R88 to R91, R172, R188, R194, R268,
R286), and the receive station (R210 to R212).
-/

namespace Sys2Proof.Machine

/-- One lane of a reduce packet (R210). -/
def rxLane (op : Nat) (ty : Bool) (old v : BitVec 32) : BitVec 32 :=
  match op with
  | 0 => v
  | 1 => old + v
  | 2 => (fadd old v).1
  | 3 => if ty then (if old.slt v then v else old) else (fmax old v).1
  | 4 => if ty then (if v.slt old then v else old) else (fmin old v).1
  | 5 => old &&& v
  | 6 => old ||| v
  | _ => old ^^^ v

/-- Bytes of a packet's range. -/
def packetLen (p : Packet) : Nat := if p.vec then 512 else 4

/-- RX applies a packet whole; a result formed with a poisoned word or from a damaged packet is poison. With it a packet from another Yard
has performed (R212, R255, R384, log 15). -/
def applyPacket (s : State) (p : Packet) : State :=
  let n := packetLen p
  let s := if p.op = 0 then s else readWords s 0x0B p.stable 512 [(p.bay * 2 ^ 18 + p.off, n)]
  let old := leNat (roundRead s p.stable p.bay p.off n)
  let kept := if p.op = 0 then [] else (marksIn s 0x0B p.stable 512 (p.bay * 2 ^ 18 + p.off) n).filter (·.bad)
  let new := pack 32 (n / 4) (fun j => (rxLane p.op p.ty (BitVec.ofNat 32 (elem 32 old j)) (lane p.data j)).toNat)
  let s := roundWrite s p.stable p.bay p.off (leBytes n new) (fullMask n)
  let s := if p.poison then poisonRange s 0x0B p.stable 512 (p.bay * 2 ^ 18 + p.off) n
    else { s with marks := s.marks ++ kept.filter (fun m => !s.marks.any (· == m)) }
  dropAccess s p.sender p.access

/-- The descriptor bits a landing split load gives its scale register, as a tag's geometry (R193). -/
def streamGeom (w0 : Word) : BitVec 5 := bits w0 24 1 ++ bits w0 25 4

/-- The results of a stream load once its codes are here: row or scalar with flags, and the scale half with its tag (R192, R193,
R196). `dst` 0 a row, 1 a scale register, 2 a scalar. -/
def streamEffs (t : Tensor) (dst reg dir k : Nat) (w0 w1 : Word) (o : Int) (codes : Nat) (scale : Option (BitVec 1024)) : List Eff :=
  let sf := fld w0 16 5
  let sc : List Eff := match scale with
    | some d => [.scale k d allEntries (some (sScaleDesc w0 w1))]
    | none => []
  match dst with
  | 0 =>
    let r := streamRow t sf o codes
    [.row reg dir r.1 allBytes] ++ (if r.2 = 0 then [] else [.flags r.2]) ++ sc ++
      (if scale.isSome then [.bind (reg / 64) k (streamGeom w0)] else [])
  | 1 => sc
  | _ =>
    let r := streamScalar t sf o codes
    [.sreg reg r.1] ++ (if r.2 = 0 then [] else [.flags r.2])

/-- A commit element's register writes in a context (R363): the active count, the live length, the skip predicates of its slot
range, then of its own slot. -/
def commitEffs (l : Launch) (codes : Nat) : List Eff :=
  let d := l.desc
  let ln (i : Nat) : BitVec 32 := BitVec.ofNat 32 (elem 32 codes i)
  let idle (j : Nat) : Bool := !(j < byteAt d 25 && bit (ln 113) j)
  (if byteAt d 26 = 255 then [] else [.nreg (byteAt d 26) (ln 116)]) ++
    (if byteAt d 27 = 255 then [] else [.nreg (byteAt d 27) (ln 117)]) ++
    (List.range (byteAt d 29)).map (fun j => .preg (byteAt d 28 + j) (idle j)) ++
    (if byteAt d 30 = 0 then [] else [.preg (byteAt d 30) (idle (ln 119).toNat)])

/-- The results of a POP of the vector form: the row, and a commit element's writes where the FIFO is a commit FIFO (R200, R363). -/
def popEffs (l : Launch) (k : Nat) (q : QId) (codes : Nat) : List Eff :=
  match q with
  | .fifo n => if (popKind l k n).elim false (fun b => nth b 0 0 == 3) then commitEffs l codes else []
  | _ => []

/-- The results of an answered off-core load or POP (R192 to R196, R200). -/
def answerEffs (l : Launch) (k : Nat) (o : OffOp) (codes : Nat) (scale : BitVec 1024) : List Eff :=
  match o.kind, o.dst with
  | .load tid off _ _ sc, .row reg dir w0 w1 kd =>
    (tensorOf l tid).elim [] (fun t => streamEffs t 0 reg dir kd w0 w1 off codes (sc.map (fun _ => scale)))
  | .load _ _ _ _ _, .scale kd w0 w1 => [.scale kd scale allEntries (some (sScaleDesc w0 w1))]
  | .load tid off _ _ _, .scalar n w0 => (tensorOf l tid).elim [] (fun t => streamEffs t 2 n 0 0 w0 0 off codes none)
  | .pop, .popRow reg dir => .row reg dir (BitVec.ofNat 4096 codes) allBytes :: popEffs l k o.q codes
  | .pop, .popScalar n => [.sreg n (BitVec.ofNat 64 codes)]
  | _, _ => []

/-- The access a flight waits for. -/
def flightOp (x : Ctx) (f : Flight) : Option OffOp :=
  match f.eff with
  | .offcore id => x.ops.find? (fun o => o.id == id)
  | _ => none

/-- An answered access's results in the place of its flight. -/
def expandFlight (s : State) (c : Nat) (f : Flight) : List Flight :=
  match f.eff with
  | .offcore _ =>
    (match flightOp (ctxOf s c) f with
     | some o =>
       (match o.ans with
        | .data codes scale => (answerEffs (launchAt s (ctxOf s c).launch) (ctxOf s c).k o codes scale).map (fun e => { f with eff := e })
        | _ => [])
     | none => [])
  | _ => [f]

/-- The results due in a context's cycle, in the order of R90: ascending slot, then order of issue (log 104). -/
def dueFlights (x : Ctx) : List Flight := sortBy (fun f => f.slot * 2 ^ 64 + f.ord) (x.flight.filter (fun f => decide (f.due ≤ x.ccycle)))

/-- Due loads and POPs whose answer has not come (R194). -/
def missingOps (x : Ctx) : List OffOp :=
  (dueFlights x).filterMap (fun f => match flightOp x f with | some o => (if o.ans = .waiting then some o else none) | none => none)

/-- dctrap in a landing cycle, a CSRW landing in it counted (R274). -/
def trapMode (x : Ctx) : Bool :=
  (dueFlights x).foldl (fun b f => match f.eff with | .csr 0x020 v => bit v 0 | _ => b) (dctrap x)

/-- Whether trap mode has a late landing still to report (R194). -/
def latePending (x : Ctx) : Bool := x.late.any (fun f => f.code == 7)

/-- The load or POP that freezes a context at its landing cycle: in stall mode one that is late, in trap mode one that has been
reported and resumed (R194). -/
def landingWait (x : Ctx) : Option OffOp :=
  (missingOps x).find? (fun o => if o.trapped then !latePending x else !trapMode x)

/-- Rows that land together (R91). -/
def rowsOf (fs : List Flight) : Nat := (fs.filter (fun f => match f.eff with | .row _ _ _ _ => true | _ => false)).length

/-- A result scheduled by another in flight, in the same slot and order. -/
def scheduleEff (s : State) (c due : Nat) (f : Flight) (e : Eff) : State :=
  modCtx s c (fun x => { x with flight := x.flight ++ [{ f with due := due, eff := e }] })

/-- The codes of a round stream's row-group as read from its bay, element 0 lowest, zero outside the tensor (R192, R240, log 31). -/
def roundCodes (s : State) (sb : Nat) (t : Tensor) (o : Int) (n : Nat) : Nat :=
  let cs := containerBits t.fmt
  let r := touchedBytes t o n
  let raw := leNat (roundRead s sb t.bay (t.off + r.1) (r.2 - r.1))
  (raw >>> ((max o 0).toNat * cs - 8 * r.1)) <<< ((((max o 0) - o)).toNat * cs)

/-- The 128-byte scale record of a round stream, zero outside its tensor (R240). -/
def roundScale128 (s : State) (sb : Nat) (t : Tensor) (off : Int) : BitVec 1024 :=
  let a := (max off 0).toNat
  let b := min (off + 128).toNat (ceilDiv (t.len * containerBits t.fmt) 8)
  BitVec.ofNat 1024 (leNat (roundRead s sb t.bay (t.off + a) (b - a)) <<< (8 * ((a : Int) - off).toNat))

/-- The exact offset of a stream's scale record from its descriptor words and element offset (R240). -/
def scaleOffAt (w1 : Word) (o : Int) : Int := 128 * (o / (fld w1 32 32 : Int))

/-- A bay read performs at its cycle and its result is scheduled for its landing (R188). -/
def performGood (s : State) (c : Nat) (f : Flight) (bay off n lands : Nat) (use : RdUse) : State :=
  let sb := stableOf c
  let l := launchAt s (ctxOf s c).launch
  let raw := leNat (roundRead s sb bay off n)
  let all (es : List Eff) : State := es.foldl (fun s e => scheduleEff s c lands f e) s
  match use with
  | .row reg dir => all [.row reg dir (BitVec.ofNat 4096 raw) allBytes]
  | .scale k => all [.scale k (BitVec.ofNat 1024 raw) allEntries none]
  | .scalar r => all [.sreg r (BitVec.ofNat 64 raw)]
  | .port p op => all [.move p (BitVec.ofNat 64 raw) op]
  | .cload cm first wfmt => all [.cload cm first wfmt (BitVec.ofNat 4096 raw)]
  | .cmac mask abits sg wacc =>
    (List.range 8).foldl
      (fun s m =>
        if mask.testBit m then
          let x := macroOf (ctxOf s c) m
          let g := (x.time.split.getD (1, 256)).1
          scheduleEff s c lands f (.csum m wacc g (256 / g) (columnSums (nibbled s c m) x.active (BitVec.ofNat 4096 raw) abits sg g))
        else s) s
  | .stream dst reg dir k w0 w1 o =>
    (match tensorOf l (fld w0 0 16) with
     | none => s
     | some t =>
       let scale := if dst = 2 ∨ fld w1 32 32 = 0 then none
         else (tensorOf l (fld w1 0 16)).map (fun st => roundScale128 s sb st (scaleOffAt w1 o))
       all (streamEffs t dst reg dir k w0 w1 o (if dst = 1 then 0 else roundCodes s sb t o n) scale))

/-- The byte ranges of the bays that a timed read takes, in the space of a Stable's bays: a round stream's row-group and scale record, or
the range itself (R188, R192, R240). -/
def readRanges (s : State) (c bay off n : Nat) (use : RdUse) : List (Nat × Nat) :=
  match use with
  | .stream dst _ _ _ w0 w1 o =>
    let l := launchAt s (ctxOf s c).launch
    let data := match tensorOf l (fld w0 0 16) with
      | some t => if dst = 1 then [] else let r := touchedBytes t o n; [(t.bay * 2 ^ 18 + t.off + r.1, r.2 - r.1)]
      | none => []
    let scale := match (if dst = 2 ∨ fld w1 32 32 = 0 then none else tensorOf l (fld w1 0 16)) with
      | some t =>
        let e := scaleOffAt w1 o
        let a := (max e 0).toNat
        [(t.bay * 2 ^ 18 + t.off + a, min (e + 128).toNat (ceilDiv (t.len * containerBits t.fmt) 8) - a)]
      | none => []
    data ++ scale
  | _ => [(bay * 2 ^ 18 + off, n)]

/-- A bay read performs at its cycle: single-bit errors are corrected, and where it meets poison nothing lands and the first bundle from
the landing cycle on consumes it (R188, R383, R384). -/
def performRead (s : State) (c : Nat) (f : Flight) (bay off n lands : Nat) (use : RdUse) : State :=
  let sb := stableOf c
  let rs := if s.marks.isEmpty then [] else readRanges s c bay off n use
  match rs.findSome? (fun r => poisonIn s 0x0B sb 512 r.1 r.2) with
  | some info =>
    modCtx (findBad s (markHit 0x0B sb 512 rs) false) c (fun x =>
      { x with late := x.late ++ [{ code := 0x30, cycle := lands, slot := f.slot, info := info, at0 := 0, pc0 := 0, count := 0, synd := 0 }] })
  | none =>
    performGood (correctAll s (markHit 0x0B sb 512 rs)) c f bay off n lands use

/-- The bank that CLOAD writes: the active bank in scratch mode, else the shadow bank (R220). -/
def loadBank (x : Macro) : Bank := if x.scratch then x.active else x.shadow

/-- The 64 cells of row q of a CLOAD: bytes of the row in the interleave of R221, extended to 8 bits. -/
def planeRow (wfmt : Nat) (data : Row) (q : Nat) : BitVec 512 :=
  let cw := containerBits wfmt
  let per := 8 / cw
  BitVec.ofNat 512 (pack 8 64 (fun j =>
    let x := elem cw (elem 8 data.toNat (64 * (q / per) + j)) (q % per)
    if fmtSigned wfmt then lowBits 8 (signed cw x) else x))

/-- One macro row written, its checksum kept in weights mode and its parity set (R220, R221, R234). -/
def putPlane (weights nib : Bool) (b : Bank) (row : Nat) (cells : BitVec 512) : Bank :=
  { b with rows := mset b.rows row cells 0,
           sums := if weights then mset b.sums row (BitVec.ofNat 8 (rowSum nib b.wfmt cells)) 0 else b.sums,
           badRows := b.badRows.filter (fun r => r != row) }

/-- A CLOAD lands (R221, R285). -/
def landCload (nib : Bool) (c : Ctx) (cm first wfmt : Nat) (data : Row) : Ctx :=
  let n := 64 / containerBits wfmt
  let x := macroOf c cm
  let old := loadBank x
  let c := (List.range n).foldl (fun c q =>
    logUnit c (.bankRow cm (!x.scratch) (first + q) (mget old.rows (first + q) 0) (mget old.sums (first + q) 0) old.wfmt (rowSource old (first + q))) 80) c
  let new := (List.range n).foldl (fun b q => putPlane (!x.scratch) nib b (first + q) (planeRow wfmt data q)) { old with wfmt := wfmt }
  let new := { new with src := (List.range n).foldl (fun m q => mput m (first + q) 1) new.src }
  modMacro c cm (fun x => if x.scratch then { x with active := new } else { x with shadow := new })

/-- A bank's checksum column recomputed from its contents (R220). -/
def resum (nib : Bool) (b : Bank) : Bank :=
  { b with sums := b.rows.foldl (fun m e => mset m e.1 (BitVec.ofNat 8 (rowSum nib b.wfmt e.2)) 0) [] }

/-- A bank mode change lands on one macro (R220, R285, log 29). -/
def landMode (nib : Bool) (c : Ctx) (cm : Nat) (scr : Bool) : Ctx :=
  let c := logEvent c (.mode cm (macroOf c cm).scratch)
  modMacro c cm (fun x =>
    if scr then { x with scratch := true, active := { x.active with badRows := [] }, shadow := { x.shadow with badRows := [] } }
    else { x with scratch := false, active := resum nib x.active, shadow := resum nib x.shadow })

/-- An exchange of banks, tags, formats and checksums lands on one macro (R222, R285). -/
def landSwap (c : Ctx) (cm : Nat) : Ctx :=
  let c := logEvent c (.swap cm)
  let a := tagOf c (bankTag cm 0)
  let b := tagOf c (bankTag cm 1)
  let c := modMacro c cm (fun x =>
    { x with active := x.shadow, shadow := x.active, activeRead := x.shadowRead, shadowRead := x.activeRead,
             time := { x.time with swapsDue := x.time.swapsDue - 1 } })
  { c with tags := mset (mset c.tags (bankTag cm 0) b 0) (bankTag cm 1) a 0 }

/-- The accumulators of a macro logged (R285). -/
def logAcc (c : Ctx) (cm : Nat) : Ctx :=
  let x := macroOf c cm
  logUnit c (.acc cm x.acc x.time.split) (8 + 256 * blocksOf x)

/-- Column sums land: each block accumulator saturates at wacc bits, its column's overflow bit set, and in trap mode fault 0x08
waits for the next bundle (R62, R223). -/
def landSums (c : Ctx) (cm wacc g : Nat) (sums : List Int) : Ctx :=
  let c := logAcc c cm
  let old := (macroOf c cm).acc
  let r := (List.range (64 * g)).map (fun i => satAcc wacc (mget old i 0 + nth sums i 0))
  let cols := pack 1 64 (fun j => if (List.range g).any (fun b => (nth r (64 * b + j) (0, false)).2) then 1 else 0)
  let c := modMacro c cm (fun x =>
    { x with acc := (List.range (64 * g)).foldl (fun m i => mset m i (nth r i (0, false)).1 0) x.acc })
  let c := orCov c cm (BitVec.ofNat 64 cols)
  if cols ≠ 0 ∧ covtrap c then
    { c with late := c.late ++ [{ code := 8, cycle := c.ccycle, slot := 3, info := cm, at0 := 0, pc0 := 0, count := 0, synd := 0 }] }
  else c

/-- A TAPP lands: its score, and where it crossed the crossing bits and csr.tapstat (R182, R183). -/
def landTapp (c : Ctx) (tap seq : Nat) (acc : BitVec 32) (crossed : Bool) (stamp : Nat) : Ctx :=
  let t := tapOf c tap
  let t := { t with score := mput t.score seq acc, cross := if crossed then t.cross ||| BitVec.ofNat 8 (2 ^ seq) else t.cross,
                    stamp := if crossed ∧ t.cross = 0 then BitVec.ofNat 12 stamp else t.stamp }
  let c := { c with taps := mput c.taps tap t }
  if crossed then
    let st := c.tapstat ||| BitVec.ofNat 28 (2 ^ (8 + tap) + 2 ^ seq)
    { c with tapstat := if fld c.tapstat 8 8 = 0 then setField st 16 12 stamp else st }
  else c

/-- A write to a scale register's entries and descriptor; in E8M0 bits 15:8 of every entry are zero, of the entries kept too (R30, R172 to
R176, R191, log 111). -/
def putScale (k : KReg) (data : BitVec 1024) (mask : BitVec 64) (desc : Option (BitVec 7)) : KReg :=
  trimScale
    { entries := BitVec.ofNat 1024 (pack 16 64 (fun j => if mask.getLsbD j then elem 16 data.toNat j else elem 16 k.entries.toNat j)),
      desc := match desc with | some x => setField k.desc 16 7 x.toNat | none => k.desc }

/-- The generation after a write: 1 to 0xFFFF, then 1 again (R31). -/
def nextGen (k : KReg) : KReg := { k with desc := setField k.desc 0 16 (if kgen k = 0xFFFF then 1 else kgen k + 1) }

/-- Every tag of the context that names a register cleared (R31). -/
def clearTags (c : Ctx) (k : Nat) : Ctx :=
  c.tags.foldl (fun c e => if bit e.2 31 && fld e.2 16 8 == k then { (logTag c e.1) with tags := mset (logTag c e.1).tags e.1 0 0 } else c) c

/-- csr.mxwin written: pending until a Yard count that is a multiple of 8 (R40). -/
def putMxwin (s : State) (sb : Nat) (code : BitVec 2) : State :=
  modStable s sb (fun t =>
    if (yardAt s (sb / 16)).ycycle % 8 = 0 then { t with mxwin := code, mxPending := none } else { t with mxPending := some code })

/-- Whether a primary context is placed on either Stall of a Stable (R40). -/
def primaryPlaced (s : State) (sb : Nat) : Bool :=
  [8 * sb, 8 * sb + 4].any (fun c => match (ctxOf s c).status with | .absent | .ended | .lost => false | _ => true)

/-- A CSRW to csr.mxwin: of no effect from the secondary side while a primary context is placed (R40, log 34). -/
def writeMxwin (s : State) (c : Nat) (code : BitVec 2) : State :=
  if slotOf c = 1 ∧ primaryPlaced s (stableOf c) then s else putMxwin s (stableOf c) code

/-- A user CSRW lands (R37, R38, log 41). -/
def landUserCsr (s : State) (c n : Nat) (v : Word) : State :=
  match n with
  | 0x020 => modCtx s c (fun x => { x with mode := v.truncate 2 })
  | 0x021 => modCtx s c (fun x => { x with fflags := v.truncate 5 })
  | 0x030 => writeMxwin s c (v.truncate 2)
  | _ => if 0x022 ≤ n ∧ n ≤ 0x029 then modCtx s c (fun x => { x with cov := mput x.cov (n - 0x022) v }) else s

/-- Words of rows that a landing writes whole lose their poison (R384): words of a row, or one word of each row of a column or diagonal. -/
def clearRows (s : State) (c reg dir : Nat) (m : BitVec 512) : State :=
  if s.marks.isEmpty then s
  else
    let full (w : Nat) : Bool := fld m (8 * w) 8 == 255
    let gone (x : Mark) : Bool :=
      if dir = 0 then x.unit == reg && full x.word
      else (List.range 64).any (fun e =>
        x.unit == reg / 64 * 64 + e && x.word == (if dir = 1 then reg % 64 else (e + reg % 64) % 64) && full e)
    { s with marks := s.marks.filter (fun x => !(x.struct == 1 && x.owner == c && gone x)) }

/-- Words of a scale register that a landing writes whole lose their poison (R384). -/
def clearScale (s : State) (c k : Nat) (m : BitVec 64) (desc : Bool) : State :=
  { s with marks := s.marks.filter (fun x =>
      !(x.struct == 2 && x.owner == c && x.unit == k && (if x.word = 16 then desc else fld m (4 * x.word) 4 == 15))) }

/-- One result lands, or one timed access performs, in its context cycle (R89, R188, R268). Moves, scale generations and the
last step of an MMA are taken up by `landAll`. -/
def landEff (s : State) (c : Nat) (f : Flight) : State :=
  match f.eff with
  | .sreg n v => modCtx s c (fun x => setSreg x n v)
  | .preg n v => modCtx s c (fun x => setPreg x n v)
  | .nreg n v => modCtx s c (fun x => { x with nregs := mput x.nregs n v })
  | .row reg dir v m => modCtx (clearRows s c reg dir m) c (fun x => if m = 0 then x else writeView (logRows x (viewRows reg dir)) reg dir v m)
  | .flags fl => modCtx s c (fun x => orFlags x fl)
  | .csr n v => if n < 0x800 then landUserCsr s c n v else if n < 0x808 then privWrite s c n v
    else { s with ioWrites := s.ioWrites ++ [(c, n, v)] }
  | .cov m cols => modCtx s c (fun x => orCov x m cols)
  | .scale k data m d => modCtx (clearScale s c k m d.isSome) c (fun x => { x with kregs := mput x.kregs k (putScale (kreg x k) data m d) })
  | .tag t v => modCtx s c (fun x => let x := logTag x t; { x with tags := mset x.tags t v 0 })
  | .bind t k g =>
    modCtx s c (fun x => let x := logTag x t; { x with tags := mset x.tags t (tagWord g k (kgen (kreg x k))) 0 })
  | .advance w d n => modCtx s c (fun x => { x with wregs := mput x.wregs w (advance (wreg x w) d n) })
  | .wload w ws => modCtx s c (fun x => { x with wregs := mput x.wregs w (wregOf ws) })
  | .wword w i v => modCtx s c (fun x => { x with wregs := mput x.wregs w (setWWord (wreg x w) i v) })
  | .wreset w => modCtx s c (fun x => { x with wregs := mput x.wregs w (resetPos (wreg x w)) })
  | .read bay off n lands use => performRead s c f bay off n lands use
  | .write bay off data mask =>
    let s := modCtx s c (fun x => logGranules s x (stableOf c) bay off data.length)
    modStable s (stableOf c) (fun t =>
      { t with writes := t.writes ++ [{ slot := f.slot, stall := stallOf c, bay := bay, off := off, data := data, mask := mask }] })
  | .sem n count =>
    let s := modCtx s c (fun x => logEvent x (.signalled (stableOf c) n count))
    modStable s (stableOf c) (fun t => { t with signals := t.signals ++ [{ sem := n, count := count, due := yardNow s c, charged := 0 }] })
  | .packet p =>
    let s := modCtx s c (fun x => chargeSoft x (fun x => logGranules s x p.stable p.bay p.off (packetLen p)))
    modStable s p.stable (fun t => { t with packets := t.packets ++ [(yardNow s c, p)] })
  | .cmode mask scr => modCtx s c (fun x => (List.range 8).foldl (fun x m => if mask.testBit m then landMode (nibbled s c m) x m scr else x) x)
  | .cswap mask => modCtx s c (fun x => (List.range 8).foldl (fun x m => if mask.testBit m then landSwap x m else x) x)
  | .cload cm first wfmt data => modCtx s c (fun x => landCload (nibbled s c cm) x cm first wfmt data)
  | .csum cm wacc g _ sums => modCtx s c (fun x => landSums x cm wacc g sums)
  | .cclr mask => modCtx { s with marks := s.marks.filter (fun m => !(m.struct == 0x0A && m.owner == c && mask.testBit (m.unit / 64))) } c (fun x => (List.range 8).foldl
      (fun x m => if mask.testBit m then
        modMacro (logAcc x m) m (fun y => { y with acc := [], time := { y.time with split := none } }) else x) x)
  | .tapp tap seq acc crossed stamp => modCtx s c (fun x => landTapp x tap seq acc crossed stamp)
  | .move _ _ _ | .mma _ _ _ _ _ _ | .offcore _ => s

/-- The accumulator rows an MMA adds to its sums in the cycle before they land, as they stand then, and their flags (R53, R213,
R214). -/
def mmaRowsOf (x : Ctx) (vd kind : Nat) (parts : List (BitVec 48)) (nan : List Bool) (add : Bool) : List (Nat × Row) × Flags5 :=
  if kind = 0 then
    ((List.range 4).map (fun r =>
      let old := vrow x (vd + r)
      (vd + r, rowOf 64 64 (fun j =>
        let i := 64 * r + j
        let prev : BitVec 48 := BitVec.ofNat 48 (elem 64 old.toNat j)
        let v := if nth nan i false then BitVec.ofNat 48 (2 ^ 47 - 1) else if add then nth parts i 0 + prev else nth parts i 0
        (v.signExtend 64).toNat))), 0)
  else
    let rs := (List.range 256).map (fun i =>
      let p : BitVec 32 := (nth parts i 0).truncate 32
      if add then fadd (lane (vrow x (vd + i / 128)) (i % 128)) p else (p, (0 : Flags5)))
    ((List.range 2).map (fun r => (vd + r, rowOfLanes (fun j => (nth rs (128 * r + j) (0, 0)).1))),
      rs.foldl (fun f r => f ||| r.2) 0)

/-- The last step of an MMA: its result rows are formed and land in the next cycle (R188, R214). -/
def finishMma (s : State) (c : Nat) (f : Flight) : State :=
  match f.eff with
  | .mma vd kind parts nan add fl =>
    let r := mmaRowsOf (ctxOf s c) vd kind parts nan add
    let s := r.1.foldl (fun s e => scheduleEff s c (f.due + 1) f (.row e.1 0 e.2 allBytes)) s
    if fl ||| r.2 = 0 then s else scheduleEff s c (f.due + 1) f (.flags (fl ||| r.2))
  | _ => s

/-- The scale registers that results write in one cycle (R172). -/
def scaleKeys (fs : List Flight) : List Nat :=
  (fs.filterMap (fun f => match f.eff with | .scale k _ _ _ => some k | _ => none)).eraseDups

/-- Only the last write to each scale register in the order of R90 survives (R172). -/
def survivors : List Flight → List Flight
  | [] => []
  | f :: r =>
    match f.eff with
    | .scale k _ _ _ => if r.any (fun g => match g.eff with | .scale j _ _ _ => j == k | _ => false) then survivors r else f :: survivors r
    | _ => f :: survivors r

/-- The moves that arrive together: the last for each port, parameters before triggers (R204, R209, log 12). -/
def movesOf (fs : List Flight) : List (Nat × Word × Option Nat) :=
  let m : Map (Word × Option Nat) := fs.foldl (fun m f => match f.eff with | .move p v op => mput m p (v, op) | _ => m) []
  m.filter (fun e => e.1 % 32 < 16) ++ m.filter (fun e => !(e.1 % 32 < 16))

/-- The accesses of triggers that another move to their port displaces (R209). -/
def displaced (fs : List Flight) : List Nat :=
  fs.filterMap (fun f => match f.eff with
    | .move _ _ (some id) => if (movesOf fs).any (fun m => m.2.2 == some id) then none else some id
    | _ => none)

/-- Every result due lands (R90, R172, R197, R268 step 1, log 12). -/
def landAll (s : State) (c : Nat) (fs : List Flight) : State :=
  let ks := scaleKeys fs
  let wraps := ks.filter (fun k => kgen (kreg (ctxOf s c) k) == 0xFFFF)
  let s := modCtx s c (fun x => ks.foldl (fun x k => let x := logKreg x k; { x with kregs := mput x.kregs k (nextGen (kreg x k)) }) x)
  let s := (survivors fs).foldl (fun s f => landEff s c f) s
  let s := modCtx s c (fun x => wraps.foldl clearTags x)
  let s := (displaced fs).foldl (fun s id => dropAccess s c (some id)) s
  let s := (movesOf fs).foldl (fun s m => applyMove s c m.1 m.2.1 m.2.2) s
  fs.foldl (fun s f => finishMma s c f) s

/-- A fault that waits for a context's next bundle (log 16). -/
def addLate (c : Ctx) (code slot info : Nat) : Ctx :=
  { c with late := c.late ++ [{ code := code, cycle := c.ccycle, slot := slot, info := info, at0 := 0, pc0 := 0, count := 0, synd := 0 }] }

/-- The landings held from now on, with a fault for the next bundle (R91, R286, log 17). -/
def holdLandings (s : State) (c code : Nat) : State := modCtx s c (fun x => addLate { x with heldRows := true } code 0 0)

/-- Trap mode reports a late load or POP; its landing stays pending (R194, R275). -/
def reportLate (x : Ctx) (o : OffOp) : Ctx :=
  let x := if latePending x then x else addLate x 7 o.slot (srcOf o.pc o.slot)
  { x with ops := x.ops.map (fun p => if p.id = o.id then { p with trapped := true } else p) }

/-- The accesses that land, each done with once it has performed; one that failed leaves its fault (R194, R245). -/
def settleOps (x : Ctx) (ids : List OffOp) : Ctx :=
  let x := ids.foldl (fun x o => match o.ans with | .failed code tile => addLate x code o.slot tile | _ => x) x
  let done := x.ops.map (fun o => if ids.any (fun i => i.id == o.id) then { o with landed := true } else o)
  { x with ops := done.filter (fun o => !(o.performed && o.landed)) }

/-- The bytes that an off-die load or a POP adds to the input log: its data in storage format, its scale record, and 8 for its landing
cycle (R390, log 39). -/
def inputBytes (l : Launch) (o : OffOp) : Nat :=
  match o.kind with
  | .load tid _ n data sc =>
    (if data then (tensorOf l tid).elim 0 (fun t => ceilDiv (n * containerBits t.fmt) 8) else 0) + (if sc.isSome then 128 else 0) + 8
  | .pop => 520
  | _ => 0

/-- Whether a result's landing is of a kind that logs an undo record (R285, log 91). -/
def logsUnit (e : Eff) : Bool :=
  match e with
  | .row _ _ _ _ | .scale _ _ _ _ | .tag _ _ | .bind _ _ _ | .write _ _ _ _ | .sem _ _ | .cmode _ _ | .cswap _ | .cload _ _ _ _
  | .csum _ _ _ _ _ | .cclr _ => true
  | _ => false

/-- Whether an entry in flight is performed in its cycle whatever is held: an RX application (R286). -/
def everPerformed (e : Eff) : Bool := match e with | .packet _ => true | _ => false

/-- What is performed in the cycle of a context whose landings are held (R91, R286). -/
def landPerformed (s : State) (c : Nat) : State :=
  let fs := (dueFlights (ctxOf s c)).filter (fun f => everPerformed f.eff)
  landAll (modCtx s c (fun x => { x with flight := x.flight.filter (fun f => !(decide (f.due ≤ x.ccycle) && everPerformed f.eff)) })) c fs

/-- The bay accesses of a context in its cycle are made in this Yard cycle (R216). -/
def makeUses (s : State) (c : Nat) : State :=
  let k := (ctxOf s c).ccycle
  let y := yardNow s c
  modStable s (stableOf c) (fun t =>
    { t with uses := t.uses.map (fun u => if u.ctx = c ∧ u.cycle ≤ k ∧ u.made = none then { u with made := some y } else u) })

/-- Whether what is in flight goes to a station or an RX: it goes on to it while its context waits for a semaphore or a late access (R291, log
136). -/
def movesOn (e : Eff) : Bool := match e with | .move _ _ _ | .packet _ | .read _ _ _ _ (.port _ _) => true | _ => false

/-- A result in flight a cycle nearer. -/
def sooner (f : Flight) : Flight :=
  { f with due := f.due - 1, eff := match f.eff with | .read b o n l u => .read b o n (l - 1) u | e => e }

/-- A Yard cycle of a context that waits at its bundle for a semaphore or a late access: the station moves and packets on their way come a
cycle nearer, with their bay accesses, and their trains run on as the Yard's; those that arrive are applied (R209, R211, R291, R324, log 136). -/
def driftFlights (s : State) (c : Nat) : State :=
  let x := ctxOf s c
  if x.heldRows || !x.flight.any (fun f => movesOn f.eff) then s
  else
    let k := yardShift s c - 1
    let own (d src : Nat) : Bool := d == c && x.flight.any (fun f => movesOn f.eff && srcOf f.pc f.slot == src)
    let s := modStable s (stableOf c) (fun t =>
      { t with trains := t.trains.map (fun e => if own e.ctx e.src && !e.out then { e with out := true, first := (k + e.first).toNat } else e),
               uses := t.uses.map (fun u => if own u.ctx u.src && u.made.isNone then { u with cycle := u.cycle - 1 } else u) })
    let fs := x.flight.map (fun f => if movesOn f.eff then sooner f else f)
    let here (f : Flight) : Bool := movesOn f.eff && decide (f.due ≤ x.ccycle)
    let s := modCtx s c (fun x => { x with flight := fs.filter (fun f => !here f) })
    makeUses (landAll s c (sortBy (fun f => f.slot * 2 ^ 64 + f.ord) (fs.filter here))) c

/-- Step 1 of R268 for a context: no result where its landings are held; more than four rows, or charges past the budget, hold
everything with a fault for the next bundle, but that results which log nothing land in the cycle of an overrun (R91, R286, R287, log 17, log 91). -/
def landResults (s : State) (c : Nat) : State :=
  let x := ctxOf s c
  if x.heldRows then landPerformed s c
  else
    let miss := missingOps x
    let fs := (dueFlights x).filter (fun f => !(match flightOp x f with | some o => decide (o.ans = .waiting) | none => false))
    let got := fs.filterMap (flightOp x)
    let full := fs.flatMap (expandFlight s c)
    let s := logInputs s c ((got.map (inputBytes (launchAt s x.launch))).foldl (· + ·) 0) (got.map (fun o => (o.issue, o.slot, o.ans)))
    let s := modCtx s c (fun x => miss.foldl (fun x o => if o.trapped then x else reportLate x o) x)
    if 4 < rowsOf full then landPerformed (holdLandings s c 5) c
    else
      let keep (f : Flight) : Bool := !(decide (f.due ≤ x.ccycle)) || miss.any (fun o => decide (f.eff = .offcore o.id))
      let t := modCtx s c (fun y => { settleOps y got with flight := y.flight.filter keep })
      let t := landAll t c full
      if (ctxOf t c).grant.segbudget ≠ 0 ∧ (ctxOf t c).grant.segbudget < (ctxOf t c).charge then
        holdLandings (landAll (modCtx s c (fun y =>
          { y with flight := y.flight.filter (fun f => keep f || logsUnit f.eff || decide (expandFlight s c f ≠ [f])) })) c
            (full.filter (fun f => !logsUnit f.eff && fs.any (fun g => g == f)))) c 2
      else t

/-- A tile written whole by a FILL: its words lose their poison (R201, R384). -/
def putTile (s : State) (c first : Nat) (rows : List Row) : State :=
  modCtx (clearMarks s 1 c 512 (first * 512) ((first + 64) * 512)) c (fun x =>
    { x with vrows := (List.range 64).foldl (fun m r => mset m (first + r) (nth rows r 0) 0) x.vrows })

end Sys2Proof.Machine
end

