-- ==== Sys2Proof/Machine/Order.lean ====
section
/-!
DEFINITION. The order of a context's off-core accesses: what an access waits for (R199, R200, R211, R254, R257, R258, R338), and the
acceptance of fill requests (R280, R281, R295).
-/

namespace Sys2Proof.Machine

/-- Whether a FENCE of a scope covers a queue (R258). -/
def covers (scope : Nat) (q : QId) : Bool :=
  match q with
  | .fifo _ | .link _ | .station => decide (5 ≤ scope)
  | .device => decide (6 ≤ scope)
  | .host => decide (7 ≤ scope)

/-- Whether an access is a store of R199: a stream store, a SPILL, or a REDS. -/
def isStore (k : OffKind) : Bool := match k with | .store _ _ _ _ _ _ | .spill _ _ _ _ _ | .reds _ => true | _ => false

/-- Whether a PUSH's releases are done: every store, SPILL and REDS of earlier bundles, timed ones among them (R199, R257, log 50, log 104). -/
def released (x : Ctx) (o : OffOp) : Bool :=
  x.ops.all (fun p => p.performed || !isStore p.kind || decide (o.issue ≤ p.issue)) &&
    x.flight.all (fun f => match f.eff with
      | .write _ _ _ _ | .packet _ => decide (o.issue + 18 < f.due)
      | _ => true)

/-- Whether an access may perform now, as far as its own context's order goes: not held for a commit, every earlier access of its
queue performed, the stores before a PUSH, a fill request or a REDS performed, fences and POPs of earlier bundles satisfied, and no fault
0x11 before it (R199, R200, R211, R254, R257, R258, R338); a FENCE holds back too what follows a trigger of DX of which it is not known yet
whether its job reads a tensor (R140, log 35). -/
def inOrder (s : State) (c : Nat) (o : OffOp) : Bool :=
  let x := ctxOf s c
  let before (p : OffOp) : Bool := decide (p.id < o.id)
  !o.performed && o.ans != .under && !heldKind s c o && !x.late.any (fun f => f.code == 0x11) &&
    x.ops.all (fun p => p.performed || !before p || (p.q != o.q && !(decide (p.kind = .pop) && decide (p.issue < o.issue)))) &&
    x.fences.all (fun f => !(decide (f.1 ≤ o.id) && covers f.2 o.q) ||
      x.ops.all (fun p => p.performed && !undecided p || !(decide (p.id < f.1) && covers f.2 p.q))) &&
    (match o.kind with | .push _ | .fillReq _ | .reds _ => released x o | _ => true)

/-- The access with an id. -/
def opOf (s : State) (c id : Nat) : Option OffOp := (ctxOf s c).ops.find? (fun o => o.id == id)

/-- The oldest fill request of a context for a macro that its endpoint has not accepted (R280, log 94). -/
def nextFill (x : Ctx) (cm : Nat) : Option (OffOp × Row) :=
  x.ops.findSome? (fun o => match o.kind with | .fillReq v => if !o.performed && fld v 16 3 == cm then some (o, v) else none | _ => none)

/-- A fill request is accepted: every exchange of the macro's banks has landed, its previous request is over, and the segment's commit
does not hold it; the shadow bank is pending from now (R280, R281, log 94). -/
def acceptFill (s : State) (c cm : Nat) : State :=
  let x := ctxOf s c
  match nextFill x cm with
  | none => s
  | some (o, v) =>
    if inOrder s c o && (macroOf x cm).time.swapsDue == 0 && (macroOf x cm).fillOn.isNone then
      opDone (modCtx s c (fun x => modMacro x cm (fun m => { m with fillOn := some (srcOf o.pc o.slot, v), fillActive := false }))) c o.id (.data 0 0)
    else s

/-- The fill requests of a context that may be accepted now are accepted, at most one for each macro (R280, R295). -/
def acceptFills (s : State) (c : Nat) : State := (List.range 8).foldl (fun s m => acceptFill s c m) s

end Sys2Proof.Machine
end

