-- ==== Sys2Proof/Machine/Bundle.lean ====
section
/-!
DEFINITION. Step 3 of a context cycle for a whole bundle: the checks of its operations, the checks between them, the faults that
waited for it, and which fault is delivered (R92 to R94, R216, R231, R268, R274).
-/

namespace Sys2Proof.Machine

/-- The round traffic of an operation whose predicate is true (R188, R229). -/
def opTraffic (s : State) (o : SlotOp) : Traffic :=
  let x := me s
  let on (p : BitVec 5) (t : Traffic) : Traffic := if predTrue x p then t else ([], [])
  let str (w : BitVec 5) (n : Nat) (data scale store : Bool) : Traffic :=
    let d := wreg x w.toNat
    streamTraffic s d n data (scale && sStride d != 0) store
  match o with
  | .ins (.cloadRound p bay off lane _ _ _) => on p (loadTraffic s bay (off.toNat * 64) 512 lane 2 8)
  | .ins (.cmacRound p _ bay off lane _ _ _) => on p (loadTraffic s bay (off.toNat * 64) 512 lane 2 8)
  | .ins (.ld p _ w _ _) => on p (str w (groupCount (wreg x w.toNat)) true true false)
  | .ins (.ldr p _ bay off lane) => on p (loadTraffic s bay (off.toNat * 64) 512 lane 2 8)
  | .ins (.ldkStream p _ w _) => on p (str w (groupCount (wreg x w.toNat)) false true false)
  | .ins (.ldkRound p _ bay off lane) => on p (loadTraffic s bay (off.toNat * 64) 128 lane 2 2)
  | .ins (.ldsRound p _ bay off8 lane) => on p (loadTraffic s bay (off8.toNat * 8) 8 lane 2 1)
  | .ins (.ldsStream p _ w _) => on p (str w 1 true false false)
  | .wc (.st p w _ _) => on p (str w (groupCount (wreg x w.toNat)) true true true)
  | .wc (.str p bay off lane _) => on p (storeTraffic s bay (off.toNat * 64) 512 lane 1 8)
  | .wc (.stkStream p w _) => on p (str w (groupCount (wreg x w.toNat)) false true true)
  | .wc (.stkRound p bay off lane _) => on p (storeTraffic s bay (off.toNat * 64) 128 lane 1 2)
  | .wc (.stsRound p bay off8 lane _) => on p (storeTraffic s bay (off8.toNat * 8) 8 lane 1 1)
  | .wc (.stsStream p w _) => on p (str w 1 true false true)
  | .wc (.movpRound p bay off lane port) => on p (movpTraffic bay off lane port)
  | .wc (.movpScalar p _ port lane) => on p (movpsTraffic s lane port)
  | .wc (.xfer p frm dest lane fa ta) => on p (xferTraffic frm dest lane fa ta)
  | _ => ([], [])

/-- The predicate of an MMA or MMAZ, and the bays that it reserves (R213, R216). -/
def mmaOp : SlotOp → Option (BitVec 5 × Nat × Nat)
  | .ins (.mmaL6 p _ a _ b _ _ _ _ _) => some (p, a.toNat, b.toNat)
  | .ins (.mmaI8 p _ a _ b _ _ _ _ _) => some (p, a.toNat, b.toNat)
  | .ins (.mmaE4m3 p _ a _ b _ _ _ _ _) => some (p, a.toNat, b.toNat)
  | .ins (.mmaE5m2 p _ a _ b _ _ _ _ _) => some (p, a.toNat, b.toNat)
  | .ins (.mmaE4e5 p _ a _ b _ _ _ _ _) => some (p, a.toNat, b.toNat)
  | .ins (.mmaE5e4 p _ a _ b _ _ _ _ _) => some (p, a.toNat, b.toNat)
  | .ins (.mmaBf16 p _ a _ b _ _ _ _ _) => some (p, a.toNat, b.toNat)
  | .ins (.mmaFp16 p _ a _ b _ _ _ _ _) => some (p, a.toNat, b.toNat)
  | .ins (.mmazL6 p _ a _ b _ _ _ _ _) => some (p, a.toNat, b.toNat)
  | .ins (.mmazI8 p _ a _ b _ _ _ _ _) => some (p, a.toNat, b.toNat)
  | .ins (.mmazE4m3 p _ a _ b _ _ _ _ _) => some (p, a.toNat, b.toNat)
  | .ins (.mmazE5m2 p _ a _ b _ _ _ _ _) => some (p, a.toNat, b.toNat)
  | .ins (.mmazE4e5 p _ a _ b _ _ _ _ _) => some (p, a.toNat, b.toNat)
  | .ins (.mmazE5e4 p _ a _ b _ _ _ _ _) => some (p, a.toNat, b.toNat)
  | .ins (.mmazBf16 p _ a _ b _ _ _ _ _) => some (p, a.toNat, b.toNat)
  | .ins (.mmazFp16 p _ a _ b _ _ _ _ _) => some (p, a.toNat, b.toNat)
  | _ => none

/-- The bays an MMA whose predicate is true reserves (R216). -/
def opMma (s : State) (o : SlotOp) : Option (Nat × Nat) := (mmaOp o).bind (fun m => if predTrue (me s) m.1 then some m.2 else none)

/-- Scoreboard entries an operation takes at its issue (R274). -/
def opEntries (s : State) (o : SlotOp) : Nat :=
  let on (p : BitVec 5) (b : Bool) : Nat := if predTrue (me s) p && b then 1 else 0
  match o with
  | .ins (.ld p _ w _ _) => on p (offDie s w)
  | .ins (.ldkStream p _ w _) => on p (offDie s w)
  | .ins (.ldsStream p _ w _) => on p (offDie s w)
  | .ins (.popVector p _ _ _) => on p true
  | .ins (.popScalar p _ _ _) => on p true
  | .ins (.fill p _ _ _) => on p true
  | .wc (.st p w _ _) => on p (offDie s w)
  | .wc (.stkStream p w _) => on p (offDie s w)
  | .wc (.stsStream p w _) => on p (offDie s w)
  | .wc (.pushVector p _ _) => on p true
  | .wc (.pushScalar p _ _) => on p true
  | .wc (.spill p _ _ _) => on p true
  | .wc (.movpRound p bay _ lane port) => on p (leavesDie s port.toNat (movpArrive s bay lane port))
  | .wc (.movpScalar p _ port lane) => on p (leavesDie s port.toNat (movpsArrive s lane port))
  | .wc (.xfer p frm dest lane _ ta) => on p (xferLeaves s frm dest lane ta)
  | _ => 0

/-- The token of a SPILL or FILL whose predicate is true (R201). -/
def opToken (s : State) (o : SlotOp) : Option Nat :=
  match o with
  | .ins (.fill p tok _ _) => if predTrue (me s) p then some tok.toNat else none
  | .wc (.spill p tok _ _) => if predTrue (me s) p then some tok.toNat else none
  | _ => none

/-- The state with a context's due bundle as the one being run, at a slot (R72, R73). -/
def enterSlot (s : State) (c slot : Nat) : State :=
  let x := ctxOf s c
  let b := bundleAt s c x.pc
  { s with cur := { s.cur with ctx := c, slot := slot, pc := x.pc, stamp := bStamp b, cycle := x.ccycle, poolfmt := bPoolFmt b,
                               pool := bPool b, yieldMark := bYield b, rdvMark := bRdv b, segMark := bSeg b } }

/-- A fault found at a bundle: slot, code, detail, and the late fault it comes from, if any. -/
abbrev Hit := Nat × Nat × Nat × Option LateFault

/-- The operations of a bundle that its encoding gives, or none where it is illegal (R94). -/
def opsOf (s : State) (c : Nat) : Option (List (Nat × SlotOp)) :=
  let x := ctxOf s c
  let b := bundleAt s c x.pc
  if bundleLegal b x.tprev then (match bundleSlots b with | .ok l => some l | .error _ => none) else none

/-- A context that the sequencer runs: placed and started, not served, not pre-empted (R77). -/
def runnable (x : Ctx) : Bool := (x.status == .running || x.status == .exiting) && !x.inSvc && !x.frozen

/-- Whether a train occupies a segment that another does in one Yard cycle: S counted as running in it, P as it ran (R232, log 26). -/
def trainBlocks (y sc : Nat) (st : Train) (pShift : Int) (pt : Train) : Bool :=
  st.lane == pt.lane &&
    (List.range st.hops).any (fun k =>
      decide (st.first + k ≤ sc ∧ sc < st.first + k + st.flits) &&
      (List.range pt.hops).any (fun j =>
        let pos (t : Train) (k : Nat) : Nat := if t.lane < 8 then (t.start + k) % 16 else (t.start + 16 - k) % 16
        pos st k == pos pt j && decide (pShift + pt.first + j ≤ (y : Int)) && decide ((y : Int) < pShift + pt.first + j + pt.flits)))

/-- Whether the merge stage freezes the secondary side for this Yard cycle: `s` with its landings and skips of the cycle made,
`rows` the rows that land for it (R40, R216, R232, R322, log 26, log 27, log 60). -/
def merged (s : State) (c rows : Nat) : Bool :=
  let x := ctxOf s c
  let y := yardNow s c
  let st := stableAt s (stableOf c)
  let sl := stallAt s (stallOf c)
  let due := isDue s c
  let b := bundleAt s c x.pc
  let collide := due && sl.issuedAt == y &&
    ((List.range 8).any (fun n => bit sl.issuedSlots n && (bPresent b n || bSurrender b n)) ||
     (List.range 6).any (fun n => bit sl.issuedPorts n && bPort b n != 0))
  let ports := rows != 0 && sl.rowsAt == y && decide (4 < sl.rowsNow + rows)
  let mine := st.trains.filter (fun t => t.ctx == c && !t.out)
  let theirs := st.trains.filter (fun t => slotOf t.ctx == 0 && (t.out || (ctxOf s t.ctx).ranAt == y))
  let trains := theirs.any (fun p => mine.any (fun t => trainBlocks y x.ccycle t (trainShift s p) p))
  let ops := if due then (opsOf s c).getD [] else []
  let mmas := ops.filterMap (fun e => opMma (enterSlot s c e.1) e.2)
  let window := ops.any (fun e => (mmaOp e.2).isSome) && windowOwner st y != stallOf c % 2
  let bays := (st.uses.filter (fun u => u.ctx == c && u.cycle == x.ccycle && u.made.all (· == y))).map (·.bay) ++ mmas.flatMap (fun m => [m.1, m.2]) ++
    ops.flatMap (fun e => ((opTraffic (enterSlot s c e.1) e.2).1.filter (fun t => t.cyc == 0)).map (·.bay))
  let held := st.reserves.any (fun r => slotOf r.ctx == 0 && decide (r.first ≤ y) && decide (y ≤ r.last) &&
    bays.any (fun b => b == r.abay || b == r.bbay))
  collide || ports || trains || window || held

/-- Each operation's own findings, in slot order. -/
def slotFindings (s : State) (c : Nat) (sl : List (Nat × SlotOp)) : List (Nat × Check) :=
  sl.map (fun e => (e.1, checkOp (enterSlot s c e.1) e.2))

/-- Trains of one bundle that meet: the higher slot faults, and the record names no second bundle (R231, R406). -/
def trainHits (s : State) (c : Nat) (sl : List (Nat × SlotOp)) : List Hit :=
  let tr := sl.map (fun e => let t := enterSlot s c e.1; (e.1, trainsOf t (opTraffic t e.2)))
  tr.flatMap (fun a => tr.filterMap (fun b =>
    if a.1 < b.1 && a.2.any (fun p => b.2.any (fun q => meet s p q)) then some (b.1, 3, 0, none) else none))

/-- One token named twice by a bundle (R201). -/
def tokenHits (s : State) (c : Nat) (sl : List (Nat × SlotOp)) : List Hit :=
  let ts := sl.filterMap (fun e => (opToken (enterSlot s c e.1) e.2).map (fun t => (e.1, t)))
  ts.flatMap (fun a => ts.filterMap (fun b => if a.1 < b.1 && a.2 == b.2 then some (b.1, 2, 0, none) else none))

/-- The slot whose operation finds the scoreboard full, counting the entries of the slots before it (R274). -/
def boardSlot (s : State) (c : Nat) (sl : List (Nat × SlotOp)) : Option Nat :=
  let r := sl.foldl (fun (a : Nat × Option Nat) e =>
    let n := opEntries (enterSlot s c e.1) e.2
    (a.1 + n, match a.2 with | some k => some k | none => if n ≠ 0 ∧ 48 < a.1 + n then some e.1 else none))
    (boardUsed s c, none)
  r.2

/-- A late fault as a hit on the bundle (log 16, log 43). -/
def lateHits (x : Ctx) : List Hit :=
  (x.late.filter (fun f => decide (f.cycle ≤ x.ccycle))).map (fun f => (f.slot, f.code, f.info, some f))

/-- The hit of the lowest slot, and of the lowest code within a slot. -/
def firstHit : List Hit → Option Hit
  | [] => none
  | h :: r =>
    match firstHit r with
    | none => some h
    | some g => if g.1 < h.1 ∨ (g.1 = h.1 ∧ g.2.1 < h.2.1) then some g else some h

/-- The order of R93: 0x01, then 0x05, then 0x02, then the lowest slot with its lowest code. -/
def chooseHit (l : List Hit) : Option Hit :=
  match firstHit (l.filter (fun h => h.2.1 == 1)), firstHit (l.filter (fun h => h.2.1 == 5)), firstHit (l.filter (fun h => h.2.1 == 2)) with
  | some h, _, _ => some h
  | none, some h, _ => some h
  | none, none, some h => some h
  | none, none, none => firstHit l

/-- What a due bundle's checks come to. -/
inductive Verdict where
  | issue (sl : List (Nat × SlotOp))
  | fault (h : Hit)
  | wait (slot : Nat) (w : Wait)

/-- The instruction-store or service-store word that is the due bundle of a context (R405, log 73). -/
def bundleMark (s : State) (c : Nat) (m : Mark) : Bool :=
  let x := ctxOf s c
  m.owner == stallOf c && (if isSvc c then m.struct == 4 && m.unit == x.pc else m.struct == 3 && m.unit == x.grant.codeBase + x.pc)

/-- Step 3 of R268 for the due bundle of a context, with the accesses of other bundles that its MMAs meet; a poisoned bundle is consumed at
its issue (R384). The faults that only an issue makes are met once nothing waits (R215, R216, R231). -/
def verdict (s : State) (c : Nat) (mma : List (Nat × SlotOp) → List Hit) : Verdict :=
  let x := ctxOf s c
  match s.marks.find? (fun m => m.bad && bundleMark s c m), opsOf s c with
  | some m, _ =>
    let own : Hit := (0, 0x30, markInfo m, none)
    .fault ((chooseHit (own :: lateHits x)).getD own)
  | none, none => .fault (0, 1, 0, none)
  | none, some sl =>
    let fs := slotFindings s c sl
    let hits := fs.filterMap (fun f => match f.2 with | .fault code info => some ((f.1, code, info, none) : Hit) | _ => none)
    let waits := fs.filterMap (fun f => match f.2 with | .wait w => some (f.1, w) | _ => none)
    let waits := match boardSlot s c sl with | some k => if waits.isEmpty then [(k, Wait.full)] else waits | none => waits
    let full : List Hit := match boardSlot s c sl with
      | some k => if dctrap x then [(k, 7, srcOf x.pc k, none)] else []
      | none => []
    let soft := fs.filterMap (fun f => match f.2 with | .clash code info => some ((f.1, code, info, none) : Hit) | _ => none)
    let issue := if waits.isEmpty || !full.isEmpty then soft ++ trainHits s c sl ++ mma sl else []
    match chooseHit (lateHits x ++ hits ++ full ++ tokenHits s c sl ++ issue), waits with
    | some h, _ => .fault h
    | none, (k, w) :: _ => .wait k w
    | none, [] => .issue sl

/-- The accesses of the other bundles of the same Yard cycle and class that an MMA meets: those of its own bundle, and those of
the other Stall's due bundle where nothing else keeps that from issuing (R216). -/
def mmaTouches (s : State) (c : Nat) (sl : List (Nat × SlotOp)) : List (Nat × Nat) :=
  let y := yardNow s c
  let of (d : Nat) (l : List (Nat × SlotOp)) : List (Nat × Nat) :=
    l.flatMap (fun e => (opTraffic (enterSlot s d e.1) e.2).1.map (fun t => (t.bay, y + t.cyc)))
  let d := if stallOf c % 2 = 0 then c + 4 else c - 4
  let z := ctxOf s d
  let comes := isDue s d && runnable z && z.seenYard != y && !(slotOf d == 1 && z.wait != .none && merged s d 0)
  let other := if comes then (match verdict s d (fun _ => []) with | .issue l => of d l | _ => []) else []
  of c sl ++ other

/-- An MMA whose reserved bays another bundle of the same Yard cycle uses in its window (R216). -/
def mmaHits (s : State) (c : Nat) (sl : List (Nat × SlotOp)) : List Hit :=
  let st := stableAt s (stableOf c)
  let y := yardNow s c
  let w0 := y / mxLen st * mxLen st
  sl.filterMap (fun e =>
    match opMma (enterSlot s c e.1) e.2 with
    | none => none
    | some (a, b) =>
      if (mmaTouches s c sl).any (fun t => (t.1 == a || t.1 == b) && decide (w0 ≤ t.2) && decide (t.2 < w0 + mxLen st))
      then some (e.1, 3, 0, none) else none)

/-- Step 3 of R268 for the due bundle of a context (R92 to R94, R216, R268). -/
def judge (s : State) (c : Nat) : Verdict := verdict s c (mmaHits s c)

end Sys2Proof.Machine
end

