-- ==== Sys2Proof/Machine/Audit.lean ====
section
/-!
DEFINITION. The auditor: which segments it chooses and captures, what drops a capture, the runs of its replays and their signatures, and the
verdict (R389 to R393).
-/

namespace Sys2Proof.Machine

/-- A signature with one word mixed in (R392). -/
def mixSig (sig x : Word) : Word :=
  let a := (sig ^^^ x) * 0xE7C41A93_5B2D0F6D#64
  a ^^^ (a >>> (31 : Nat))

/-- The little-endian words of a byte string. -/
def wordsOf : Nat → List Byte → List Word
  | 0, _ => []
  | n + 1, b => BitVec.ofNat 64 (leNat (b.take 8)) :: wordsOf n (b.drop 8)

/-- The kind and unit that a record mixes, and the words of its unit's final contents (R285, R392, log 58). -/
def undoWords (s : State) (c : Nat) (u : Undo) : Nat × Nat × List Word :=
  let x := ctxOf s c
  let word (n : Nat) : Word := BitVec.ofNat 64 n
  match u with
  | .row n _ => (1, n, (List.range 64).map (fun i => word (elem 64 (vrow x n).toNat i)))
  | .granule sb bay g _ => (2, bay * 4096 + g, wordsOf 8 (roundRead s sb bay (64 * g) 64))
  | .kreg k _ => (3, k, (List.range 16).map (fun i => word (elem 64 (kreg x k).entries.toNat i)) ++ [(kreg x k).desc.setWidth 64])
  | .tag t _ => (4, t, [(tagOf x t).setWidth 64])
  | .bankRow cm sh r _ _ _ _ =>
    let b := if sh then (macroOf x cm).shadow else (macroOf x cm).active
    (5, cm * 512 + (if sh then 256 else 0) + r,
      (List.range 8).map (fun i => word (elem 64 (mget b.rows r 0).toNat i)) ++ [word (mget b.sums r 0).toNat])
  | .swap cm => (6, cm, [word (if (macroOf x cm).scratch then 1 else 0)])
  | .mode cm _ => (6, cm, [word (if (macroOf x cm).scratch then 1 else 0)])
  | .acc cm _ _ =>
    let m := macroOf x cm
    (7, cm, (List.range (32 * (m.time.split.getD (1, 256)).1)).map (fun i =>
      word (lowBits 32 (mget m.acc (2 * i) 0) + 2 ^ 32 * lowBits 32 (mget m.acc (2 * i + 1) 0))))
  | .popped _ _ => (0, 0, [])
  | .signalled _ n _ | .taken n _ => (8, n, [(mget (stableAt s (stableOf c)).sems n 0).setWidth 64])

/-- Undo records with the units of banks where the exchanges logged after them have left them (R222, R285, R392, log 58). -/
def placedUnits : List Undo → List Undo
  | [] => []
  | u :: r => r.foldl (fun u v => match v with | .swap cm => flipUnit cm u | _ => u) u :: placedUnits r

/-- The signature of a run at its next segment entry (R392, log 58). -/
def signature (s : State) (c : Nat) : Word :=
  let x := ctxOf s c
  let own (u : Undo) : Bool := match u with | .popped _ _ => false | _ => true
  let sig := (placedUnits (x.undo.filter own)).foldl (fun (sig : Word) u =>
    let r := undoWords s c u
    r.2.2.foldl mixSig (mixSig sig (BitVec.ofNat 64 (r.1 * 2 ^ 56 + r.2.1)))) 0
  let sig := (List.range 63).foldl (fun sig i => mixSig sig (sreg x (i + 1))) sig
  let sig := mixSig sig (x.pregs.setWidth 64)
  let sig := (List.range 16).foldl (fun sig i => mixSig sig ((nreg x i).setWidth 64)) sig
  let sig := mixSig sig (x.fflags.setWidth 64)
  (List.range 8).foldl (fun sig i => mixSig sig (mget x.cov i 0)) sig

/-- Whether a segment's entry bundle is marked replayable in its launch's table (R270, log 73). -/
def replayable (s : State) (c pc : Nat) : Bool := (launchAt s (ctxOf s c).launch).segments.any (fun e => e.1 == pc && e.2)

/-- Whether the auditor chooses a segment at its entry (R389): R70 over the audit seed, the Stall, its count of entries and the slot. -/
def chosen (s : State) (c : Nat) : Bool :=
  let a := ioCsr s 0x830
  let u := rngU32 (BitVec.ofNat 64 (fld a 32 32)) (BitVec.ofNat 64 (stallOf c)) ((stallAt s (stallOf c)).entries % 2 ^ 32) 0 (slotOf c)
  decide (u.toNat / 2 ^ 22 < min 1024 (fld a 0 11))

/-- A capture of a context as it starts (R390). -/
def newCapture (s : State) (c pc : Nat) : Capture :=
  { ctx := c, entry := pc, at0 := yardNow s c, inputs := 0, answers := [], sig := none, launch := none, start := none, rounds := [],
    runs := [], run := none, ended := none }

/-- A capture at its segment's end: the signature, and with the undo log reversed the entry state and the Stable's extents that a replay starts
from (R390, R392, log 57). -/
def endCapture (s : State) (c : Nat) (k : Capture) : Capture :=
  let t := (ctxOf s c).undo.reverse.foldl (fun t u => undoOne t c u) s
  let x := ctxOf t c
  let l := launchAt s x.launch
  { k with sig := some (signature s c), launch := some l, start := x.snap.map (fun n => reformMacros (nibbled s c) (fun _ => false) (fromSnapshot x n)),
           rounds := (List.range 8).map (fun b => (b, roundRead t (stableOf c) b (extent l b).1 (extent l b).2)) }

/-- The auditor at a segment entry: a capture that ends here is complete, a new one may start, and the Stall's count of entries rises; a
replay is no segment to choose (R389, R390, R392). -/
def auditEntry (s : State) (c pc : Nat) : State :=
  let g := stallOf c
  let s := match mfind s.rel.captures g with
    | some k => if k.ctx = c ∧ k.sig = none then { s with rel := { s.rel with captures := mput s.rel.captures g (endCapture s c k) } } else s
    | none => s
  let s := if (mfind s.rel.captures g).isNone && replayable s c pc && decide ((ctxOf s c).grant.segbudget ≠ 0) && chosen s c then
      { s with rel := { s.rel with captures := mput s.rel.captures g (newCapture s c pc) } }
    else s
  modStall s g (fun t => { t with entries := t.entries + 1 })

/-- Whether an operation of a segment drops its capture (R390). -/
def dropsCapture (s : State) (c : Nat) (o : SlotOp) : Bool :=
  let x := ctxOf s c
  let on (p : BitVec 5) : Bool := predTrue x p
  let l := launchAt s x.launch
  let far (w : BitVec 5) : Bool := (tensorOf l (sTensor (wreg x w.toNat))).elim false (fun t => t.kind != 0)
  match o with
  | .ins i =>
    (match i with
     | .csrr p _ n => on p && [0x000, 0x001, 0x002, 0x003, 0x040].any (· == n.toNat)
     | .discard p _ _ | .probe p _ _ | .semsig p _ _ | .semsigScalar p _ _ | .semwait p _ _ | .rdv p _ | .bar p _ => on (0#2 ++ p)
     | _ => false)
  | .wc w =>
    (match w with
     | .pushVector p _ _ | .pushScalar p _ _ | .spill p _ _ _ => on p
     | .redsVector p _ _ _ _ _ | .redsScalar p _ _ _ _ _ => on p
     | .st p w _ _ | .stkStream p w _ | .stsStream p w _ => on p && far w
     | .xfer p _ dest _ _ a => on p && [5, 7, 11, 13].any (· == dest.toNat) && decide (16 ≤ a.toNat % 32 ∧ a.toNat % 32 ≠ 31)
     | .movpRound p _ _ _ port | .movpScalar p _ port _ => on p && decide (16 ≤ port.toNat % 32 ∧ port.toNat % 32 ≠ 31)
     | _ => false)

/-- What the input log holds for an access, by its issue cycle and slot (R390, R391). -/
def loggedAnswer (k : Capture) (o : OffOp) : Option OffAns :=
  (k.answers.find? (fun e => e.1 == o.issue && e.2.1 == o.slot)).map (·.2.2)

/-- Whether an access is a FILL, which a replay completes in its logged cycle. -/
def isFill (k : OffKind) : Bool := match k with | .fill _ _ _ _ => true | _ => false

/-- An access of a replay with its data from the input log: nothing of it leaves the context (R391, log 134). -/
def answered (k : Capture) (o : OffOp) : OffOp :=
  if o.performed || isFill o.kind then o else { o with performed := true, ans := (loggedAnswer k o).getD (.data 0 0) }

/-- The accesses of a replay's bundle take their data from the input log (R391). -/
def answerOps (s : State) (c : Nat) : State :=
  match replayOf s c with
  | none => s
  | some (_, k) => modCtx s c (fun x => { x with ops := (x.ops.map (answered k)).filter (fun o => !(o.performed && o.landed)) })

/-- A FILL of a replay writes its logged rows once the context has reached the logged cycle: `late` once that cycle's landings are made, and
one that the log does not hold writes zeros (R391, log 134). -/
def replayFill (s : State) (c : Nat) (late : Bool) (k : Capture) (o : OffOp) : State :=
  match o.kind with
  | .fill _ tile _ _ =>
    let a : Nat × BitVec 1024 := match loggedAnswer k o with | some (.data v w) => (v, w) | _ => (0, 0)
    if a.2.toNat < 2 * (ctxOf s c).ccycle + (if late then 2 else 1) then
      let s := modCtx s c (fun x => logRows x ((List.range 64).map (64 * tile + ·)))
      opDone (putTile s c (64 * tile) ((List.range 64).map (fun r => BitVec.ofNat 4096 (elem 4096 a.1 r)))) c o.id (.data 0 0)
    else s
  | _ => s

/-- The FILLs of a replay that complete now (R391). -/
def replayFills (s : State) (c : Nat) (late : Bool) : State :=
  match replayOf s c with
  | none => s
  | some (_, k) => ((ctxOf s c).ops.filter (fun o => !o.performed)).foldl (fun s o => replayFill s c late k o) s

/-- Whether what is in flight at a segment's entry concerns the context alone, so that a replay lands it too (R391, log 134). -/
def ownEff (e : Eff) : Bool := match e with | .packet _ | .sem _ _ | .move _ _ _ => false | _ => true

/-- The context of a replay at its start: the entry state of the captured segment in its new slot, its entry bundle due at the segment's
first cycle (R385, R391, log 134, log 57). -/
def replayCtx (s : State) (k : Capture) (x : Ctx) (n c base : Nat) : Ctx :=
  { x with status := .running, launch := n, rewind := 3, grant := { x.grant with codeBase := base }, seenYard := yardNow s c,
           ops := x.ops.map (answered k), flight := x.flight.filter (fun f => ownEff f.eff), deadline := 0, expired := false,
           wait := .none, waited := 0, hung := false, after := .none, yielded := false, heldRows := false, request := 0,
           inSvc := false, frozen := false, restores := 0, consumed := none, raised := [], ranAt := 0, pins := [], fences := [],
           macros := x.macros.map (fun m => (m.1, { m.2 with fillOn := none })) }

/-- The operations of an issuing bundle against its Stall's capture (R390). -/
def auditBundle (s : State) (c : Nat) (sl : List (Nat × SlotOp)) : State :=
  if (mfind s.rel.captures (stallOf c)).isNone then s
  else if sl.any (fun e => dropsCapture s c e.2) then dropCapture s c else s

/-- The Stable and Yard of a run as 12 bits: yard<11:9>, stable<8:5> (R404). -/
def runField (g : Nat) : Nat := g / 32 * 2 ^ 9 + g / 2 % 16 * 2 ^ 5

/-- An audit record of a mismatch (R393, R404, R406). -/
def auditRecord (s : State) (k : Capture) (kind : Nat) (orig : Word) (r1 r2 : Nat × Word) : State :=
  let p := placeOf (stallOf k.ctx) (slotOf k.ctx)
  putRecord s (recordFor s 4 0 p 0 kind k.entry (runField r1.1) (runField r2.1) 0) (r1.2 ++ orig)

/-- A Stall marked suspect (R393). -/
def suspectStall (s : State) (g : Nat) : State := modStall s g (fun t => { t with suspect := true })

/-- A run's signature judged: equal ones close the audit; a mismatch asks for a third run, and with three the run that differs, or all
three, becomes suspect (R392, R393). -/
def auditVerdict (s : State) (g replay : Nat) (sig : Word) : State :=
  match mfind s.rel.captures g with
  | none => s
  | some k =>
    let done (s : State) : State := { s with rel := { s.rel with captures := mdel s.rel.captures g } }
    match k.sig, k.runs with
    | none, _ => s
    | some o, [] =>
      if sig = o then done s else { s with rel := { s.rel with captures := mput s.rel.captures g { k with runs := [(replay, sig)] } } }
    | some o, r :: _ =>
      if sig = o then done (auditRecord (suspectStall s r.1) k 0 o r (replay, sig))
      else if sig = r.2 then done (auditRecord (suspectStall s g) k 1 o r (replay, sig))
      else done (auditRecord (suspectStall (suspectStall (suspectStall s g) r.1) replay) k 3 o r (replay, sig))

/-- Whether a capture's replay may still start: within its window of the capture, counted in the Yard's cycles (R389). -/
def inWindow (s : State) (g : Nat) (k : Capture) : Bool :=
  decide ((yardAt s (g / 32)).ycycle ≤ k.at0 + max 1 (fld (ioCsr s 0x830) 16 8) * 65536)

/-- A mismatch whose third run found no Stable within the window is recorded without a majority (R393, R404, log 134). -/
def recordAlone (s : State) (k : Capture) : State :=
  match k.sig, k.runs with
  | some o, r :: _ =>
    putRecord s (recordFor s 4 0 (placeOf (stallOf k.ctx) (slotOf k.ctx)) 0 3 k.entry (runField r.1) (Config.noThirdRun % 4096) 0) (r.2 ++ o)
  | _, _ => s

/-- Captures whose replay has found no Stable within its window are dropped and counted as skipped (R389, R391, R393). -/
def expireCaptures (s : State) : State :=
  let old := s.rel.captures.filter (fun e => e.2.sig.isSome && e.2.run.isNone && e.2.ended.isNone && !inWindow s e.1 e.2)
  let s := old.foldl (fun s e => recordAlone s e.2) s
  { s with rel := { s.rel with captures := s.rel.captures.filter (fun e => !old.any (fun o => o.1 == e.1)), skipped := s.rel.skipped + old.length } }

/-- The run of a captured segment's replay that has ended is judged (R392, R393). -/
def judgeRun (s : State) (g : Nat) : State :=
  match mfind s.rel.captures g with
  | none => s
  | some k =>
    match k.ended with
    | none => s
    | some (replay, sig) =>
      auditVerdict { s with rel := { s.rel with captures := mput s.rel.captures g { k with ended := none } } } g replay sig

/-- Every run that has ended is judged (R392, R393). -/
def judgeRuns (s : State) : State := (s.rel.captures.map (·.1)).foldl judgeRun s

/-- AUDIT_VERDICT: Replay signatures are compared, a third run placed and suspects marked: the run on `replay` of the segment captured on
`stall` that has ended with this signature is judged; where there is none, nothing changes (R392, R393, log 6, log 57). -/
def execAuditVerdict (stall replay sig : Nat) (s : State) : Host.Outcome State Fault Refusal :=
  .next (if (mfind s.rel.captures stall).any (fun k => k.ended == some (replay, BitVec.ofNat 64 sig)) then judgeRun s stall else s)

end Sys2Proof.Machine
end

