-- ==== Sys2Proof/Machine/Sequencer.lean ====
section
/-!
DEFINITION. The sequencer of a context: merge, skip, issue, commit, segments, and what follows a bundle (R77 to R83, R92,
R126, R130, R144 to R147, R183, R268, R274, R284, R322, R329, R330).
-/

namespace Sys2Proof.Machine

/-- The deadline D of a context's class (R330, R412). -/
def classDeadline (s : State) (c : Nat) : Nat :=
  if slotOf c = 0 then fld (ioCsr s 0x831) 32 25 else fld (ioCsr s 0x831) 0 25

/-- The context's time advances by one cycle (R25, R77, R330). -/
def tick (s : State) (c : Nat) : State :=
  let y := yardNow s c
  modCtx s c (fun x =>
    { x with ccycle := x.ccycle + 1, landedNow := false, seenYard := y, wait := .none, waited := 0, hung := false,
             deadline := x.deadline - 1, expired := x.expired || x.deadline == 1 })

/-- Frozen for one more Yard cycle on a wait: its time towards the hang time-out runs, over every wait at the bundle (R276). -/
def keepWaiting (s : State) (c : Nat) (w : Wait) : State :=
  let x := ctxOf s c
  let counts : Bool := match w with | .copy | .csr | .none => false | _ => true
  let n := if counts && x.wait != .none then x.waited + 1 else x.waited
  let hang := counts && !x.hung && decide (2 ^ fld (ioCsr s 0x832) 0 6 < n)
  let s := modCtx s c (fun x => { x with wait := w, waited := n, hung := x.hung || hang })
  if hang then { s with agenda := .hang c :: s.agenda } else s

/-- What a wait sets going. The value of a CSR of the I/O die returns at a free moment (R411, log 126). A PROBE is queued once, with the
wait for its answer: it enters before the accesses of its own bundle, which cannot issue until it is answered (R148, R243, log 119). -/
def askProbe (s : State) (c : Nat) (w : Wait) : State :=
  match w with
  | .probe tid off len =>
    let x := ctxOf s c
    if x.ops.any (fun o => !o.performed && (match o.kind with | .probe _ _ _ => true | _ => false)) then s
    else
      let q := match tensorOf (launchAt s x.launch) tid with | some t => kindQueue t | none => .device
      modCtx s c (fun x =>
        { x with ops := x.ops ++ [{ id := x.opId, q := q, kind := .probe tid off len, dst := .none, issue := x.ccycle, slot := 7,
                                    opc := 0xD, pc := x.pc, seg := x.seg, since := s.mcycle, performed := false, landed := true,
                                    trapped := false, ans := .waiting }],
                 opId := x.opId + 1 })
  | .csr => modCtx { s with fresh := s.fresh + 1 } c (fun x => { x with probeOk := Config.freeBool s.fresh })
  | _ => s

/-- The end processing of the loop stack after bundle x: the stack left, the next bundle, and whether it begins a frame (R130, log 10). -/
def endLoops : List LoopEntry → Nat → Bool → List LoopEntry × Nat × Bool
  | [], x, f => ([], x + 1, f)
  | t :: r, x, f =>
    if x + 1 = t.start + t.len then
      if t.index.toNat + 1 < t.trip.toNat then ({ t with index := t.index + 1 } :: r, t.start, true)
      else endLoops r x true
    else (t :: r, x + 1, f)

/-- The next bundle after bundle x of stamp t, the last issue counted at L: a loop's return or exhaustion and a barrier mark begin a
frame with base L + 1 (R79, R130, log 11). -/
def fallOn (s : State) (c : Nat) (stamp l : Int) : State :=
  let x := ctxOf s c
  let r := endLoops x.loops x.pc false
  let bar := decide (r.2.1 < x.grant.codeLen) && bBarrier (bundleAt s c r.2.1)
  modCtx s c (fun x =>
    { x with loops := r.1, pc := r.2.1, base := if r.2.2 || bar then l + 1 else x.base, tprev := if r.2.2 || bar then -1 else stamp })

/-- A fault of a context at its bundle (R92, R332). -/
def faultAt (s : State) (c code info slot : Nat) : State :=
  takeFault s (raisedAt s c code info slot (ctxOf s c).pc (ctxOf s c).ccycle)

/-- A fault of a context at its bundle, raised in its Yard cycle (R92, R332, R354). -/
def faultDue (s : State) (c code info slot : Nat) : State :=
  postFault s (raisedAt s c code info slot (ctxOf s c).pc (ctxOf s c).ccycle)

/-- Whether the next bundle is skipped in this cycle: its decision cycle is now, or was before, where only a skip of this cycle brings control
to it (`first` false), and its skip predicate is true (R81, R82, log 10). -/
def skips (s : State) (c : Nat) (first : Bool) : Bool :=
  let x := ctxOf s c
  let b := bundleAt s c x.pc
  let d := x.base + x.tprev + 1
  x.status == .running && decide (x.pc < x.grant.codeLen) && bSkip b != 0 &&
    (decide (d = (x.ccycle : Int)) || !first && decide (d < (x.ccycle : Int))) && preg x (bSkip b)

/-- Whether the encoding of a context's next bundle is legal, where its operations stand too (R82, R94, R103, R114, R141). -/
def encodingLegal (s : State) (c : Nat) : Bool := (opsOf s c).any (fun l => l.all (fun e => placeLegal (enterSlot s c e.1) e.2))

/-- The context cycle L of the last issued bundle: −1 where a kernel has issued none (R79, R130, log 10). -/
def lastIssued (s : State) (c : Nat) : Int :=
  let x := ctxOf s c
  if !isSvc c && x.seg = 0 && x.snap.isNone then -1 else x.lastIssue

/-- One skipped bundle: an illegal one faults at its decision cycle, else the frame's base moves (R82, log 10, log 11). -/
def skipBundle (s : State) (c : Nat) : State :=
  let x := ctxOf s c
  let b := bundleAt s c x.pc
  if encodingLegal s c = false then faultDue s c 1 0 0
  else
    fallOn (modCtx s c (fun x => { x with base := x.base - ((bStamp b : Int) - x.tprev) })) c (bStamp b) (lastIssued s c)

/-- Step 2 of R268: bundles are skipped until one is not; the fuel passes every number of skips that six loops allow (R82, R130). -/
def skipAll : Nat → Bool → State → Nat → State
  | 0, _, s, _ => s
  | n + 1, first, s, c => if skips s c first then skipAll n false (skipBundle s c) c else s

/-- Steps 1 and 2 of R268. -/
def landAndSkip (s : State) (c : Nat) : State :=
  skipAll (2 ^ 210) true (modCtx (landResults s c) c (fun x => { x with landedNow := true })) c

/-- Rows due in a context's cycle (log 60). -/
def rowsDue (s : State) (c : Nat) : Nat := rowsOf ((dueFlights (ctxOf s c)).flatMap (expandFlight s c))

/-- The rows that landed on a Stall in this Yard cycle (R322, log 60). -/
def countRows (s : State) (c rows : Nat) : State :=
  let y := yardNow s c
  modStall s (stallOf c) (fun t => { t with rowsAt := y, rowsNow := (if t.rowsAt = y then t.rowsNow else 0) + rows })

/-- A context of a Stable that drains for a repair freezes at its yield bundle or forced entry (R398). -/
def drainAt (s : State) (c : Nat) : State :=
  if (stableAt s (stableOf c)).draining then modCtx s c (fun x => { x with frozen := true }) else s

/-- A request that waits for a context, given to its service context (R329, R330, R412, log 30). -/
def serveRequest (s : State) (c cause : Nat) : State :=
  let r := (ctxOf s c).request
  enterService (modCtx s c (fun x => { x with request := 0 })) c cause 0 r

/-- csr.deadline has reached 0: the context freezes before step 1 and its service context is entered; csr.deadline is reloaded
(R330, log 30). -/
def expireDeadline (s : State) (c : Nat) : State :=
  drainAt (serveRequest (modCtx s c (fun x => { x with expired := false, deadline := classDeadline s c })) c 0x01) c

/-- Whether the next context cycle of a context falls in this Yard cycle: nothing freezes it before step 1 of R268 (R77, R194, R322, R330). -/
def reaches (s : State) (c : Nat) : Bool :=
  let x := ctxOf s c
  runnable x && !x.landedNow && x.seenYard != yardNow s c && !(x.expired && x.status == .running) && (landingWait x).isNone &&
    !(slotOf c == 1 && merged (landAndSkip s c) c (rowsDue s c))

/-- Steps 1 and 2 of R268 for a context in a Yard cycle, where nothing freezes it first; where it waits on at its bundle, what goes on
meanwhile (R291, log 136). -/
def landCtx (s : State) (c : Nat) : State :=
  let s := replayFills s c false
  let x := ctxOf s c
  if !runnable x then s
  else if x.landedNow then (match x.wait with | .sem _ | .late => driftFlights s c | _ => s)
  else if x.seenYard == yardNow s c then s
  else if x.expired && x.status == .running then expireDeadline s c
  else
    match landingWait x with
    | some o => keepWaiting s c (.landing o.id)
    | none =>
      let rows := rowsDue s c
      let t := landAndSkip s c
      if slotOf c = 1 ∧ merged t c rows then s
      else foreseeDx (acceptFills (countRows (makeUses (modCtx t c (fun x => { x with ranAt := yardNow s c })) c) c rows) c) c

/-- The operations a segment's commit releases: those of the segment now past; the undo log is empty and whole (R199, R211, R267, R281, R284,
R384). -/
def commitSegment (s : State) (c : Nat) : State :=
  let s := { s with marks := s.marks.filter (fun m => !(m.struct == 6 && m.owner == c)) }
  modCtx s c (fun x =>
    { x with seg := x.seg + 1, undo := [], charge := 0, segRewound := false,
             macros := x.macros.map (fun m => (m.1, { m.2 with activeRead := false, shadowRead := false })) })

/-- What a segment entry records of the context at `c`, with what it has in flight on its lanes and bays (R284, log 70). -/
def snapshotOf (s : State) (c : Nat) (x : Ctx) : Snapshot :=
  { pc := x.pc, base := x.base, tprev := x.tprev, ccycle := x.ccycle, loops := x.loops, sregs := x.sregs, pregs := x.pregs,
    nregs := x.nregs, wregs := x.wregs, mode := x.mode, fflags := x.fflags, cov := x.cov, taps := x.taps, tapstat := x.tapstat,
    macros := x.macros.map (fun m => (m.1, m.2.time)), flight := x.flight, ops := x.ops, late := x.late, bar := x.bar,
    trains := (stableAt s (stableOf c)).trains.filter (fun e => e.ctx == c && !e.out),
    uses := (stableAt s (stableOf c)).uses.filter (fun e => e.ctx == c),
    jobs := ((stableAt s (stableOf c)).jobs.filter (fun j => j.ctx == c)).map (fun j => { j with ends := (j.ends - yardShift s c).toNat }) }

/-- A segment entry: the segment before it commits, and the snapshot is taken, whose store is written whole (R284, R384). -/
def enterSegment (s : State) (c : Nat) : State :=
  let s := auditEntry s c (ctxOf s c).pc
  let s := if (ctxOf s c).snap.isSome then commitSegment s c else s
  let s := { s with marks := s.marks.filter (fun m => !(m.struct == 5 && m.owner == c)) }
  modCtx s c (fun x => { x with snap := some (snapshotOf s c x), segEntry := x.pc })

/-- Whether an operation reads a damaged word: a check that meets it as poison fails. -/
def readsMark (s : State) (c : Nat) (e : Nat × SlotOp) (m : Mark) : Bool :=
  checkOp (enterSlot { s with marks := [{ m with bad := true }] } c e.1) e.2 != .ok

/-- Single-bit errors in the words that an issuing bundle reads, its own among them, are corrected (R383). -/
def correctIssue (s : State) (c : Nat) (sl : List (Nat × SlotOp)) : State :=
  (s.marks.filter (fun m => !m.bad)).foldl (fun s m =>
    if bundleMark s c m || m.owner == c && (m.struct == 1 || m.struct == 2) && sl.any (fun e => readsMark s c e m) then correctMark s m else s) s

/-- Step 4 of R268: the bundle issues; its slots run in ascending order, then it commits. The entry bundle that issues again after a
rewind opens no new segment (R385, R388), nor that of a replay. A CSRR of csr.undo in a segment-entry bundle reads the charge of the segment
that it ends, as it stood after step 1 of that cycle (R284, R286, log 139); csr.deadline is no part of a replay (R391, log 134). -/
def issueBundle (s : State) (c : Nat) (sl : List (Nat × SlotOp)) : State :=
  let x := ctxOf s c
  let b := bundleAt s c x.pc
  let y := yardNow s c
  let s := enterSlot { s with cur := { s.cur with next := none, after := .none, undo := x.charge } } c 0
  let s := if x.rewind = 3 then modCtx s c (fun x => { x with rewind := 0 })
    else if !isSvc c && (bSeg b || x.snap.isNone) then enterSegment s c else s
  let s := if bYield b && !isSvc c && !replaying s c then modCtx s c (fun x => { x with deadline := classDeadline s c, expired := false }) else s
  let bitsOf (n : Nat) (f : Nat → Bool) : Nat := pack 1 n (fun i => if f i then 1 else 0)
  let s := auditBundle (correctIssue s c sl) c sl
  let s := if !isSvc c && (launchAt s x.launch).started == 0 then modLaunch s x.launch (fun l => { l with started := s.mcycle }) else s
  let s := if isSvc c && s.control && s.sec.boot == .loaded then
      { s with sec := { s.sec with boot := .linked }, cxl := { s.cxl with link := .linked } } else s
  let s := if slotOf c = 0 then
      modStall s (stallOf c) (fun t =>
        { t with issuedAt := y, issuedSlots := BitVec.ofNat 8 (bitsOf 8 (fun n => bPresent b n || bSurrender b n)),
                 issuedPorts := BitVec.ofNat 6 (bitsOf 6 (fun n => bPort b n != 0)) })
    else s
  let s := modCtx s c (fun x => { x with lastIssue := x.ccycle, lastPc := x.pc, wait := .none, waited := 0, hung := false })
  { s with agenda := sl.map (fun e => Work.fetch c e.1) ++ Work.commit c :: s.agenda }

/-- A fault of the due bundle delivered; a poisoned service-store bundle is rewritten from the verified image (R410); one that waited for
the bundle is taken off its list, and after fault 0x11 no further access of the context performs (R91 to R93, R226, R338, R406). -/
def deliverHit (s : State) (c : Nat) (h : Hit) : State :=
  let x := ctxOf s c
  let s := if isSvc c then { s with marks := s.marks.filter (fun m => !(m.bad && bundleMark s c m)) } else s
  match h.2.2.2 with
  | none => postFault s (raisedAt s c h.2.1 h.2.2.1 h.1 x.pc x.ccycle)
  | some f =>
    let s := modCtx s c (fun x =>
      { x with late := x.late.filter (fun g => g != f), ops := if f.code = 0x11 then x.ops.filter (·.performed) else x.ops })
    let r := raisedAt s c f.code f.info f.slot x.pc x.ccycle
    postFault s (if f.code = 9 then { r with pc := f.pc0, cycle := f.at0, struct := 8, count := f.count, synd := f.synd } else r)

/-- A tap trap delivered, with the context's time frozen as for SVC (R183). -/
def deliverTap (s : State) (c pc cycle : Nat) : State := postFault s (raisedAt s c 0x20 0 7 pc cycle)

/-- Whether a crossing waits for its trap (R183). -/
def tapPending (x : Ctx) : Bool := fld x.tapstat 8 8 != 0 && x.grant.taps != 0

/-- Whether a YIELD's offer is taken: an open launch with a save area, and a ready open head of higher priority (R323, R329). -/
def offerTaken (s : State) (c : Nat) : Bool :=
  let l := launchAt s (ctxOf s c).launch
  let prio (q : Nat) : Nat := fld (ioCsr s (0x860 + q)) 0 2
  l.openCls && leAt l.record 40 8 != 0 &&
    s.launches.any (fun e => e.2.openCls && e.2.state == .ready && decide (prio l.queue < prio e.2.queue))

/-- A HALT takes hold: no further bundle issues, and what is in flight keeps its context cycles; a request that waits is served. The spec gives
firmware no register that ends a halted context, and a HALT in a service bundle has no effect, so that only the queue command End ends it (R146,
R329, R412, log 120). -/
def haltCtx (s : State) (c : Nat) : State :=
  let s := modCtx s c (fun x => { x with status := .halted, after := .none })
  if (ctxOf s c).request ≠ 0 then serveRequest s c 0x02 else s

/-- Whether a TAPP is still in flight (R183). -/
def tappDue (x : Ctx) : Bool := x.flight.any (fun f => match f.eff with | .tapp _ _ _ _ _ => true | _ => false)

/-- What a bundle leaves to do once it has committed and any handler before it has returned (R144 to R147, R329, log 28, log 120). -/
def settleAfter (s : State) (c : Nat) : State :=
  let x := ctxOf s c
  let clear (s : State) : State := modCtx s c (fun x => { x with after := .none })
  match (if replaying s c ∧ (x.after = .offer ∨ x.after = .halt) then After.none else x.after) with
  | .none => s
  | .offer => if offerTaken s c then serveRequest (modCtx s c (fun x => { x with after := .swap })) c 0x02 else clear s
  | .swap => { clear s with agenda := s.agenda ++ [.swap x.launch] }
  | .svc code => postFault (clear s) (raisedAt s c 0x21 code 7 x.lastPc x.lastIssue)
  | .trap code => postFault (clear s) (raisedAt s c 0x22 code 7 x.lastPc x.lastIssue)
  | .halt => if tapPending x || tappDue x then modCtx s c (fun x => { x with status := .exiting }) else haltCtx s c
  | .exit => modCtx s c (fun x => { x with status := .exiting })

/-- What follows a bundle's commit, or the return of a handler that was entered after it: at a yield bundle a pending tap trap and then a
firmware request enter the service context first (R144 to R147, R183, R329). -/
def afterBundle (s : State) (c : Nat) : State :=
  let x := ctxOf s c
  if x.yielded && tapPending x then deliverTap s c x.lastPc x.lastIssue
  else if x.yielded && decide (x.request ≠ 0) then serveRequest s c 0x02
  else settleAfter (modCtx s c (fun x => { x with yielded := false })) c

/-- The cells that a fill request gives a bank row, read again from its tensor; none where that fails (R279, R396, log 132). -/
def refillCells (s : State) (c r : Nat) (v : BitVec 128) : Option (BitVec 512) :=
  let f := fld v 48 8
  let per := 64 / containerBits f
  let q := r - fld v 24 8
  match tensorOf (launchAt s (ctxOf s c).launch) (fld v 0 16) with
  | none => none
  | some t =>
    let a := fld v 64 48 + 512 * (q / per)
    match tensorRead s t a (min (a + 512) (ceilDiv (t.len * containerBits t.fmt) 8) - a) with
    | .ok b => some (planeRow f (bytesRow (b ++ List.replicate (512 - b.length) 0)) (q % per))
    | .error _ => none

/-- The CCHK that a handler repeats after its refills: rows that mismatch still leave fault 0x09 for the bundle that is resumed (R226, R396, log
132). -/
def recheck (m : Nat) (shadow : Bool) (b : Bank) (bad : List (Nat × Nat)) (x : Ctx) : Ctx :=
  match bad with
  | [] => x
  | e :: rest => { x with late := x.late ++ [sumFault m shadow b e rest x.ccycle x.ccycle x.pc] }

/-- The service handler of a checksum fault has refilled every mismatching row of the bank that a fill wrote, before its context resumes; a
service-action record counts them (R396, R404, log 132, log 121). -/
def refillRows (s : State) (c : Nat) : State :=
  match (ctxOf s c).status, (ctxOf s c).missed with
  | .held 0x09, some info =>
    let m := info / 512 % 8
    let sh := decide (info / 256 % 2 = 1)
    let x := macroOf (ctxOf s c) m
    let b := if sh then x.shadow else x.active
    let cells := ((badSums (nibbled s c m) b).filter (fun e => decide (2 ≤ mget b.src e.1 0))).filterMap (fun e =>
      (refillCells s c e.1 (nth b.reqs (mget b.src e.1 0 - 2) 0)).map (fun v => (e.1, v)))
    let b := cells.foldl (fun b e => putPlane true (nibbled s c m) b e.1 e.2) b
    let s := modCtx s c (fun y => recheck m sh b (badSums (nibbled s c m) b)
      { modMacro y m (fun x => if sh then { x with shadow := b } else { x with active := b }) with missed := none })
    match cells with
    | [] => s
    | e :: _ => putRecord s (recordFor s 6 0 (placeOf (stallOf c) (slotOf c)) 8 1 (info / 256 % 16 * 256 + e.1) 0xFFF cells.length 0) 0
  | _, _ => s

/-- Step 4 of R268 ends: control goes on, the context's time advances, and what the bundle leaves to do is done (R127, R130,
R144 to R147). Of a service-store bundle only EXIT leaves something: the spec names no effect of SVC, TRAP, HALT or a YIELD's offer there,
and they have none (log 120). -/
def commitBundle (s : State) (c : Nat) : State :=
  let cu := s.cur
  let s := match cu.next with
    | some (t, b) => modCtx s c (fun x => { x with pc := t, base := b, tprev := -1 })
    | none => fallOn s c cu.stamp cu.cycle
  let s := modCtx s c (fun x => { x with after := cu.after, yielded := cu.yieldMark, probeOk := false })
  let s := acceptFills (tick (answerOps (foreseeDx s c) c) c) c
  if isSvc c then
    if cu.after = .exit then
      let s := modCtx s c (fun x => { x with status := if x.flight.isEmpty then .absent else .exiting })
      afterBundle (resumeServed (refillRows s (served c)) (served c)) (served c)
    else s
  else
    let s := if cu.after = .exit then commitSegment s c else s
    if cu.yieldMark then drainAt (afterBundle s c) c else afterBundle s c

/-- Whether a replay has reached the entry of the next segment (R392). -/
def replayEnds (s : State) (c : Nat) : Bool := replaying s c && (ctxOf s c).rewind != 3 && bSeg (bundleAt s c (ctxOf s c).pc)

/-- Step 3 of R268 for the due bundle: it issues, faults or waits; at the next segment's entry a replay ends with its signature (R392). -/
def checkDue (s : State) (c : Nat) : State :=
  if replayEnds s c then endRun s c (some (signature s c))
  else
  match judge s c with
  | .fault h => deliverHit s c h
  | .wait _ w => keepWaiting (askProbe s c w) c w
  | .issue sl => issueBundle s c sl

/-- An exited context released: its slot is free and its launch ends with its last context (R147, R318). -/
def releaseCtx (s : State) (c : Nat) : State :=
  if replaying s c then endRun s c none
  else
  let n := (ctxOf s c).launch
  let s := outTrains s c
  let s := modCtx (releasePins (dropCapture s c) c) c (fun x => { x with status := .ended })
  let l := launchAt s n
  if l.state = .running ∧ (launchCtxs l).all (fun d => (ctxOf s d).launch == n && (ctxOf s d).status == .ended) then
    modLaunch s n (fun l =>
      { l with state := .ending, status := 0, maxCycle := (launchCtxs l).foldl (fun m c => max m (ctxOf s c).ccycle) l.maxCycle })
  else s

/-- Whether every timed result of a context has landed and every operation of R140 has performed (R147). -/
def drained (s : State) (c : Nat) : Bool :=
  let x := ctxOf s c
  x.flight.isEmpty && x.ops.all (fun o => o.performed) &&
    (stableAt s (stableOf c)).jobs.all (fun j => j.ctx != c)

/-- A context past its EXIT or HALT: a crossing that has landed is trapped first; then the slot is released or the halt takes
hold. A store or token found absent after the EXIT has no bundle left to fall on: its fault 0x11 is raised as the context drains, and no other
late fault is (R146, R147, R183, R338, log 17, log 138). -/
def drainCtx (s : State) (c : Nat) : State :=
  let x := ctxOf s c
  if isSvc c then if x.flight.isEmpty then modCtx s c (fun x => { x with status := .absent }) else tick s c
  else if x.heldRows then (match chooseHit (lateHits x) with | some h => deliverHit s c h | none => tick s c)
  else if tapPending x && !tappDue x then deliverTap (tick s c) c x.lastPc x.lastIssue
  else if x.after = .halt ∧ tappDue x = false then haltCtx s c
  else if x.after = .exit then
    (match chooseHit ((lateHits x).filter (fun h => h.2.1 == 0x11)) with
     | some h => deliverHit s c h
     | none => if drained s c then releaseCtx s c else tick s c)
  else tick s c

/-- Steps 3 and 4 of R268 for a context whose landings of the cycle are made: the due bundle, the fall-through past the extent, or
a cycle with nothing due (R126). -/
def issueCtx (s : State) (c : Nat) : State :=
  let s := replayFills s c true
  let x := ctxOf s c
  if !runnable x || !x.landedNow then s
  else if slotOf c = 1 && x.wait != .none && merged s c 0 then s
  else if x.status == .exiting then drainCtx s c
  else if x.grant.codeLen ≤ x.pc then
    (if x.base + x.tprev + 1 ≤ (x.ccycle : Int) then faultDue s c 2 0 0 else tick s c)
  else if isDue s c then checkDue s c
  else tick s c

/-- SEGMENT_ENTRY: a segment-entry bundle commits the segment and takes a snapshot (R284). -/
def execSegmentEntry (c : Nat) (s : State) : Host.Outcome State Fault Refusal := .next (enterSegment s c)

/-- YIELD_BUNDLE: after a yield bundle commits, the service context is entered when something is pending (R329). -/
def execYieldBundle (c : Nat) (s : State) : Host.Outcome State Fault Refusal :=
  .next (afterBundle (modCtx s c (fun x => { x with yielded := true })) c)

/-- DEADLINE_EXPIRY: csr.deadline at 0 forces a service entry (R330). -/
def execDeadlineExpiry (c : Nat) (s : State) : Host.Outcome State Fault Refusal :=
  .next (if runnable (ctxOf s c) && (ctxOf s c).expired && (ctxOf s c).status == .running && !isSvc c then expireDeadline s c else s)

/-- CHECK_RETEST: a frozen check is made again, and the bundle issues when it passes (R268, R274). -/
def execCheckRetest (c : Nat) (s : State) : Host.Outcome State Fault Refusal := .next (issueCtx s c)

/-- OFFDIE_LOAD_LANDING: the load or POP an access number names lands where it is due and answered; late data freeze or fault
(R194). -/
def execOffdieLoadLanding (c id : Nat) (s : State) : Host.Outcome State Fault Refusal :=
  .next (if (dueFlights (ctxOf s c)).any (fun f => decide (f.eff = .offcore id)) && !(ctxOf s c).landedNow then landCtx s c else s)

/-- CONTEXT_RELEASE: an exited context's slot is released once all its results have landed and performed (R147). -/
def execContextRelease (c : Nat) (s : State) : Host.Outcome State Fault Refusal :=
  .next (if (ctxOf s c).status = .exiting ∧ (ctxOf s c).after = .exit ∧ drained s c = true then releaseCtx s c else s)

/-- RENDEZVOUS_RELEASE: the last member having arrived, every member's RDV bundle is checked and issues (R137). -/
def execRendezvousRelease (l group : Nat) (s : State) : Host.Outcome State Fault Refusal :=
  .next { s with agenda := (membersOf (launchAt s l) group).map Work.issue ++ s.agenda }

/-- Whether a member has arrived at its BAR of an ordinal of a group, or has issued it. No rule says when a BAR that waits for another check
too, or that the merge stage holds, counts as arrived: here once the release is what it waits for (R138, R386, log 140). -/
def barArrived (s : State) (m g k : Nat) : Bool :=
  let x := ctxOf s m
  decide (k < issuedOrd x g) || (decide (x.wait = .bar g) && ordinal x g == k)

/-- A barrier's release reaches the members that lie in a Yard, where every member has arrived and none is swapped out (R138, log 69). -/
def releaseBar (s : State) (n g yard : Nat) : State :=
  let l := launchAt s n
  let ms := membersOf l g
  let here := ms.filter (fun m => yardOf m == yard)
  here.foldl
    (fun s m =>
      let k := ordinal (ctxOf s m) g
      if ms.all (fun m => (ctxOf s m).launch == n && barArrived s m g k) then modCtx s m (fun x => { x with barOpen := mput x.barOpen g (max (k + 1) (mget x.barOpen g 0)) }) else s) s

/-- BARRIER_RELEASE: the release of a group's barrier reaches a Yard (R138). -/
def execBarrierRelease (l group yard : Nat) (s : State) : Host.Outcome State Fault Refusal :=
  .next (releaseBar s l group yard)

/-- MXWIN_WRITE: a write to csr.mxwin from a context that may make it (R40). -/
def execMxwinWrite (c code : Nat) (s : State) : Host.Outcome State Fault Refusal := .next (writeMxwin s c (BitVec.ofNat 2 code))

/-- A pending window length takes effect where the Yard count is a multiple of 8 (R40). -/
def takeMxwin (s : State) (sb : Nat) : State :=
  modStable s sb (fun t =>
    match t.mxPending with
    | some v => if (yardAt s (sb / 16)).ycycle % 8 = 0 then { t with mxwin := v, mxPending := none } else t
    | none => t)

/-- MXWIN_TAKES_EFFECT: a new window length takes effect at a Yard count that is a multiple of 8 (R40). -/
def execMxwinTakesEffect (stable : Nat) (s : State) : Host.Outcome State Fault Refusal := .next (takeMxwin s stable)

end Sys2Proof.Machine
end

