-- ==== Sys2Proof/Machine/Offcore.lean ====
section
/-!
DEFINITION. Off-core accesses: when each may perform in its queue, and what it does at its scope (R192 to R202, R205, R243 to
R246, R254 to R259, R279 to R281, R338, R339).
-/

namespace Sys2Proof.Machine

/-- The bytes of a scale record that lie inside its tensor (R240). -/
def scaleSpan (t : Tensor) (off : Int) : Nat × Nat :=
  let a := (max off 0).toNat
  let b := min (off + 128).toNat (ceilDiv (t.len * containerBits t.fmt) 8)
  (a, b - a)

/-- The span of 512 storage bytes of a tile row that lies inside its tensor: first byte, count, and bytes skipped (R201). -/
def rowSpan (t : Tensor) (o : Int) : Nat × Nat × Nat :=
  let b0 : Int := o * (containerBits t.fmt : Int) / 8
  let a := (max b0 0).toNat
  let e := min (b0 + 512).toNat (ceilDiv (t.len * containerBits t.fmt) 8)
  (a, e - a, ((a : Int) - b0).toNat)

/-- The byte ranges of tensors that an access reads or writes (R192, R195, R201, R205). -/
def opRanges (s : State) (c : Nat) (o : OffOp) : List (Tensor × Nat × Nat) :=
  let l := launchAt s (ctxOf s c).launch
  let data (tid : Nat) (off : Int) (n : Nat) (on : Bool) : List (Tensor × Nat × Nat) :=
    if on then (tensorOf l tid).elim [] (fun t => let r := touchedBytes t off n; [(t, r.1, r.2 - r.1)]) else []
  let scale (r : Option ScaleRef) : List (Tensor × Nat × Nat) :=
    match r with
    | some r => (tensorOf l r.tid).elim [] (fun t => let p := scaleSpan t r.off; [(t, p.1, p.2)])
    | none => []
  match o.kind with
  | .load tid off n d sc => data tid off n d ++ scale sc
  | .store tid off n d _ sc => data tid off n d ++ scale (sc.map (·.1))
  | .fill _ _ tid offs | .spill _ _ tid offs _ =>
    (tensorOf l tid).elim [] (fun t => offs.map (fun off => let r := rowSpan t off; (t, r.1, r.2.1)))
  | .fillReq v => (tensorOf l (fld v 0 16)).elim [] (fun t => [(t, fld v 64 48, fld v 32 16 * 8 * containerBits (fld v 48 8))])
  | .dx (some job) =>
    ((stableAt s (stableOf c)).jobs.find? (fun j => j.id == job)).elim [] (fun j =>
      (tensorOf l (fld (nth j.args 0 0) 48 16)).elim [] (fun t =>
        let a := fld (nth j.args 0 0) 0 48
        let top := ceilDiv (t.len * containerBits t.fmt) 8
        [(t, a, min (a + fld (nth j.args 2 0) 0 18) top - a)]))
  | _ => []

/-- The device-memory ranges behind tensor byte ranges; a tile that is neither resident nor dead has none (R242, R338). -/
def deviceRanges (s : State) (rs : List (Tensor × Nat × Nat)) : List (Nat × Nat) :=
  rs.flatMap (fun r => if r.1.kind = 1 then (piecesOf r.2.1 r.2.2).flatMap (fun p =>
    if tileState s r.1 p.1 = 1 ∨ tileState s r.1 p.1 = 2 then tileRanges s r.1 p.1 p.2.1 p.2.2 else []) else [])

/-- The host-memory ranges behind tensor byte ranges (R242). -/
def hostRanges (s : State) (rs : List (Tensor × Nat × Nat)) : List (Nat × Nat) :=
  rs.flatMap (fun r =>
    if r.1.kind = 2 then (piecesOf r.2.1 r.2.2).map (fun p => (entFrame (entryWord s r.1.table p.1 0) + p.2.1, p.2.2)) else [])

/-- Whether an access waits for a registration of a hashed tensor that it reads (R422). -/
def waitsTree (s : State) (rs : List (Tensor × Nat × Nat)) : Bool :=
  match s.sec.job with
  | some a => rs.any (fun r => hashed r.1 && r.1.table == devLe s a 8)
  | none => false

/-- Whether the first half of another context's, or of another, host store has been made, its second half not, and byte ranges overlap
either: such an access waits, so that it performs wholly before or wholly after the store (R256). -/
def halfStored (s : State) (c id : Nat) (rs : List (Tensor × Nat × Nat)) : Bool :=
  s.ctxs.any (fun e => e.2.ops.any (fun p =>
    !p.performed && decide (p.ans = .under) && !(e.1 == c && p.id == id) &&
      (match p.kind with
       | .store _ _ _ _ _ _ => (opRanges s e.1 p).any (fun a => rs.any (fun b =>
           a.1.table == b.1.table && decide (a.2.1 < b.2.1 + b.2.2) && decide (b.2.1 < a.2.1 + a.2.2)))
       | _ => false)))

/-- Whether an access writes its tensor. -/
def writesMem (o : OffOp) : Bool := match o.kind with | .store _ _ _ _ _ _ | .spill _ _ _ _ _ => true | _ => false

/-- Whether a damaged word of LPDDR6 or of the host-line cache lies behind tensor byte ranges (R383). -/
def behind (s : State) (rs : List (Tensor × Nat × Nat)) (m : Mark) : Bool :=
  markHit 0x18 0 64 ((deviceRanges s rs).map (fun r => (devAddr r.1, r.2))) m || markHit 0x19 0 64 (hostRanges s rs) m

/-- Single-bit errors in the words that an access reads are corrected (R383). -/
def correctRanges (s : State) (rs : List (Tensor × Nat × Nat)) : State :=
  if s.marks.isEmpty then s else correctAll s (behind s rs)

/-- The uncorrectable words that an access of a context has read, and their lines of LPDDR6, are rewritten as poison (R383, R384). -/
def foundRanges (s : State) (rs : List (Tensor × Nat × Nat)) : State :=
  if s.marks.isEmpty then s else findBad s (behind s rs) false

/-- The storage codes of a row-group, element 0 lowest, from its tensor's bytes (R192, R240). -/
def offCodes (s : State) (t : Tensor) (o : Int) (n : Nat) : Except Nat Nat :=
  let cs := containerBits t.fmt
  let r := touchedBytes t o n
  match tensorRead s t r.1 (r.2 - r.1) with
  | .ok b => .ok ((leNat b >>> ((max o 0).toNat * cs - 8 * r.1)) <<< ((max o 0 - o).toNat * cs))
  | .error e => .error e

/-- A scale record from its tensor, zero outside it (R240). -/
def offScale (s : State) (t : Tensor) (off : Int) : Except Nat Nat :=
  let r := scaleSpan t off
  match tensorRead s t r.1 r.2 with
  | .ok b => .ok (leNat b <<< (8 * ((r.1 : Int) - off).toNat))
  | .error e => .error e

/-- A load's answer: its data and its scale half as one access, the worse outcome of the two (R192, R193, R338). -/
def loadAnswer (s : State) (l : Launch) (tid : Nat) (o : Int) (n : Nat) (data : Bool) (scale : Option ScaleRef) : OffAns :=
  let d : Except Nat Nat := if data then (tensorOf l tid).elim (.ok 0) (fun t => offCodes s t o n) else .ok 0
  let k : Except Nat Nat := match scale with
    | some r => (tensorOf l r.tid).elim (.ok 0) (fun t => offScale s t r.off)
    | none => .ok 0
  match d, k with
  | .ok a, .ok b => .data a (BitVec.ofNat 1024 b)
  | .error e, .ok _ => .failed (e % 256) (e / 256)
  | .ok _, .error e => .failed (e % 256) (e / 256)
  | .error e, .error f => if e % 256 = 0x11 then .failed 0x11 0 else .failed (f % 256) (f / 256)

/-- A fault of an access found at the memory port, for the context's next bundle (R338). -/
def portFault (s : State) (c : Nat) (o : OffOp) (code info : Nat) : State := modCtx s c (fun x => addLate x code o.slot info)

/-- A store performs: both halves, or neither with fault 0x11. A host observer of a host tensor sees its two halves as separate accesses:
the scale half follows in a step of its own (R195, R242, R256, R338, log 122). -/
def performStore (s : State) (c : Nat) (o : OffOp) (tid : Nat) (off : Int) (n : Nat) (data : Bool) (codes : Nat)
    (scale : Option (ScaleRef × BitVec 1024)) : State :=
  let l := launchAt s (ctxOf s c).launch
  if (opRanges s c o).all (fun r => storeOk s r.1 r.2.1 r.2.2) then
    let first (s : State) : State :=
      if data then (tensorOf l tid).elim s (fun t => let b := storeBytes t off n codes; tensorWrite s t b.1 b.2.1 b.2.2) else s
    let second (s : State) : State := match scale with
      | some (r, k) => (tensorOf l r.tid).elim s (fun t =>
          let b := scaleBytes t r.off k; tensorWrite s t b.1 b.2 (fullMask b.2.length))
      | none => s
    if o.ans = .under then opDone (second s) c o.id (.data 0 0)
    else if o.q = .host ∧ data = true ∧ scale.isSome then opUnder (first s) c o.id
    else opDone (second (first s)) c o.id (.data 0 0)
  else opDone (portFault s c o 0x11 0) c o.id (.data 0 0)

/-- The binding whose sink is FIFO q of the context (R306): its place in the record. -/
def sinkOf (l : Launch) (k q : Nat) : Option Nat :=
  l.fifos.findIdx? (fun f => (nth f 0 0 == 1 || nth f 0 0 == 3) && nth f 3 0 == k && nth f 4 0 % 32 == q)
/-- The binding whose source is FIFO q of the context (R306). -/
def sourceOf (l : Launch) (k q : Nat) : Option Nat :=
  l.fifos.findIdx? (fun f => nth f 0 0 != 0 && nth f 1 0 == k && nth f 2 0 % 32 == q)

/-- An element that an access of the open segment took or placed, kept for a rewind (R267, R387, log 74). -/
def keepTrace (s : State) (c : Nat) (o : OffOp) (u : Undo) : State :=
  modCtx s c (fun x => if o.seg = x.seg ∧ x.grant.segbudget ≠ 0 then { x with undo := x.undo ++ [u] } else x)

/-- A POP performs: the FIFO's head element is removed (R200, R255). -/
def performPop (s : State) (c : Nat) (o : OffOp) : State :=
  let x := ctxOf s c
  let l := launchAt s x.launch
  match o.q with
  | .fifo q =>
    (match sinkOf l x.k q with
     | some i =>
       (match mget l.fifoData i [] with
        | v :: r =>
          let s := modLaunch s x.launch (fun l =>
            { l with fifoData := mset l.fifoData i r [], popped := mput l.popped i (mget l.popped i 0 + 1) })
          opDone (keepTrace s c o (.popped i v)) c o.id (.data v.toNat 0)
        | [] => s)
     | none => s)
  | _ => s

/-- DISCARD performs: each tile wholly in the range that is resident or dead becomes dead, and the context's pin on it is released
(R149, R338, R339). -/
def performDiscard (s : State) (c : Nat) (o : OffOp) (tid off len : Nat) : State :=
  match tensorOf (launchAt s (ctxOf s c).launch) tid with
  | none => opDone s c o.id (.data 0 0)
  | some t =>
    let kill (s : State) (i : Nat) : State :=
      let st := tileState s t i
      if st = 1 ∨ st = 2 then
        let w0 := setField (entryWord s t.table i 0) 0 2 2
        let mine := (ctxOf s c).pins.any (· == (t.table, i))
        let w0 := if mine then setField w0 4 8 (entPins w0 - 1) else w0
        modCtx (putEntry s t.table i w0 (entryWord s t.table i 1)) c (fun x => { x with pins := x.pins.filter (· != (t.table, i)) })
      else s
    opDone ((tilesIn off len true).foldl kill s) c o.id (.data 0 0)

/-- The input of a DX job arrives from its tensor, poisoned or not, bytes past the tensor's length as zeros; the access performs when the
job ends (R205, R255, R338, R384, log 35, log 123). -/
def performDx (s : State) (c : Nat) (o : OffOp) (job : Nat) : State :=
  match opRanges s c o with
  | (t, a, n) :: _ =>
    let take (s : State) (b : List Byte) (p : Bool) : State := opUnder (dxArrive s (stableOf c) job b p) c o.id
    let want := ((stableAt s (stableOf c)).jobs.find? (fun j => j.id == job)).elim 0 (fun j => fld (nth j.args 2 0) 0 18)
    (match tensorRead s t a n with
     | .ok b => take s (b ++ List.replicate (want - n) 0) false
     | .error e =>
       match (if e % 256 = 0x30 then tensorRead { s with marks := [] } t a n else .error e) with
       | .ok b => take s (b ++ List.replicate (want - n) 0) true
       | .error _ => take (portFault s c o (e % 256) (e / 256)) [] false)
  | [] => s

/-- Traffic of a bounded launch counted in 64-byte units for its DRAM meter (R321, log 105). -/
def meter (s : State) (c : Nat) (ranges : List (Nat × Nat)) : State :=
  modLaunch s (ctxOf s c).launch (fun l =>
    { l with traffic := ranges.foldl (fun n r => n + (linesOf (devAddr r.1) r.2).length) l.traffic })

/-- The Stable that a packet in a link queue is for, where its launch stands now (R97, R210, R326). -/
def packetStable (s : State) (c : Nat) (o : OffOp) (p : Packet) : Nat :=
  match o.q with | .link t => stableOfLocal (launchAt s (ctxOf s c).launch) t | _ => p.stable

/-- Whether an access is a packet for a Yard that its launch is swapped out of: it waits in its queue (R323, R325, log 69). -/
def targetOut (s : State) (c : Nat) (o : OffOp) : Bool :=
  match o.kind with
  | .reds p => (launchAt s (ctxOf s c).launch).swapDone.any (· == packetStable s c o p / 16)
  | _ => false

/-- An access takes its effect at its scope; a packet has performed once RX applies it, a DX job's access when the job ends (R211, R255). -/
def takeEffect (s : State) (c : Nat) (o : OffOp) : State :=
  match o.kind with
  | .load tid off n data scale => opDone s c o.id (loadAnswer s (launchAt s (ctxOf s c).launch) tid off n data scale)
  | .store tid off n data codes scale => performStore s c o tid off n data codes scale
  | .pop => performPop s c o
  | .discard tid off len => performDiscard s c o tid off len
  | .dx (some job) => performDx s c o job
  | .reds p =>
    let sb := packetStable s c o p
    opUnder (modStable s sb (fun t =>
      { t with packets := t.packets ++ [((yardAt s (sb / 16)).ycycle, { p with stable := sb, access := some o.id })] })) c o.id
  | _ => s

/-- The host lines of an access that a warm restart drops, without those of a store's half that has been made (R256, R352). -/
def lostLines (s : State) (c : Nat) (o : OffOp) : List Nat :=
  let rs := if o.ans = .under then (opRanges s c o).drop 1 else opRanges s c o
  ((hostRanges s rs).flatMap (fun r => linesOf r.1 r.2)).eraseDups

/-- Whether an access reads host memory for a DX job (R205, R242). -/
def readsHost (s : State) (c : Nat) (o : OffOp) : Bool :=
  match o.kind with | .dx (some _) => o.ans != .under && (opRanges s c o).any (fun r => r.1.kind == 2) | _ => false

/-- Whether an access is one to host memory, which a warm restart drops (R350). -/
def toHost (s : State) (c : Nat) (o : OffOp) : Bool := decide (o.q = .host) || readsHost s c o

/-- A dropped access is over; a load fails as at a lost tile, and a DX job has no input (R350, log 47). -/
def endDropped (s : State) (c : Nat) (o : OffOp) : State :=
  match o.kind with
  | .load _ _ _ _ _ => opDone s c o.id (.failed 0x11 0)
  | .dx (some job) => opUnder (dxArrive (portFault s c o 0x11 0) (stableOf c) job [] false) c o.id
  | _ => opDone s c o.id (.data 0 0)

/-- An access to host memory dropped by a warm restart: its lines are listed where it writes, and a load fails as at a lost tile
(R266, R350, R352, log 47). -/
def dropHostOp (s : State) (c : Nat) (o : OffOp) : State :=
  endDropped (if writesMem o then reportLines s (lostLines s c o) 3 (stallOf c) else s) c o

/-- Whether the host link carries requests: not in a warm restart (R350). -/
def linkUp (s : State) : Bool := match s.cxl.link with | .restarting | .retraining => false | _ => true

/-- Whether an access is one that OFFCORE_ACCESS_PERFORM performs; PUSHes, tokens, PROBEs and fills have steps of their own. -/
def plainKind (k : OffKind) : Bool :=
  match k with | .push _ | .fillReq _ | .spill _ _ _ _ _ | .fill _ _ _ _ | .probe _ _ _ => false | _ => true

/-- Whether an access is a host store whose first half has been made. -/
def halfDone (o : OffOp) : Bool :=
  !o.performed && decide (o.ans = .under) && (match o.kind with | .store _ _ _ _ _ _ => true | _ => false)

/-- An off-core access performs where its queue lets it: behind a flip it waits; else its corrected reads, its traffic and its
effect (R243, R254, R255, R347, R349). -/
def performOp (s : State) (c id : Nat) : State :=
  match opOf s c id with
  | none => s
  | some o =>
    let rs := opRanges s c o
    let dev := deviceRanges s rs
    if !plainKind o.kind || !(inOrder s c o || halfDone o) || waitsTree s rs || halfStored s c id rs || targetOut s c o then s
    else if toHost s c o ∧ linkUp s = false then dropHostOp s c o
    else
      match deviceGate s dev (writesMem o) (.device c id) with
      | some t => t
      | none =>
        let u := takeEffect (meter (correctRanges s rs) c dev) c o
        cacheRanges (if writesMem o then u else foundRanges u rs) c rs

/-- OFFCORE_ACCESS_PERFORM: An off-core access performs at its scope in its queue (R255). -/
def execOffcoreAccessPerform (c id : Nat) (s : State) : Host.Outcome State Fault Refusal := .next (performOp s c id)

/-- An endpoint accepts a pushed element where it has room: the peer's FIFO, or the sequence unit's token FIFO (R199, R306, R356,
R365). -/
def acceptPush (s : State) (c id : Nat) : State :=
  match opOf s c id with
  | none => s
  | some o =>
    let x := ctxOf s c
    let l := launchAt s x.launch
    match o.kind, o.q with
    | .push v, .fifo q =>
      if !inOrder s c o then s
      else
        (match sourceOf l x.k q with
         | none => s
         | some i =>
           if nth (nth l.fifos i []) 0 0 = 3 then
             (match l.gen with
              | some g =>
                if g.tokens.length < 64 then
                  opDone (modLaunch s x.launch (fun l => { l with gen := some { g with tokens := g.tokens ++ [v] } })) c id (.data 0 0)
                else s
              | none => s)
           else
             let d := mget l.fifoData i []
             if d.length < 64 then
               opDone (modLaunch s x.launch (fun l =>
                 { l with fifoData := mput l.fifoData i (d ++ [v]), pushed := mput l.pushed i (mget l.pushed i 0 + 1) })) c id (.data 0 0)
             else s)
    | _, _ => s

/-- PUSH_ACCEPTED: An endpoint accepts a pushed FIFO element (R199). -/
def execPushAccepted (c id : Nat) (s : State) : Host.Outcome State Fault Refusal := .next (acceptPush s c id)

/-- A FILL's rows read from their spans, or the worst error among them (R201, R338). -/
def fillRows (s : State) (t : Tensor) (offs : List Int) : Except Nat (List Row) :=
  offs.foldl (fun r o =>
    let p := rowSpan t o
    match r, tensorRead s t p.1 p.2.1 with
    | .ok rows, .ok b =>
      let top := t.len * containerBits t.fmt - 8 * p.1
      .ok (rows ++ [BitVec.ofNat 4096 ((leNat b % 2 ^ top) <<< (8 * p.2.2))])
    | .error e, .ok _ => .error e
    | .ok _, .error e => .error e
    | .error e, .error f => if e % 256 = 0x11 then .error e else .error f) (.ok [])

/-- A SPILL's rows written to their spans (R201). -/
def spillRows (s : State) (t : Tensor) : List Int → List Row → State
  | o :: os, v :: vs =>
    let p := rowSpan t o
    let top := t.len * containerBits t.fmt - 8 * p.1
    spillRows (tensorWrite s t p.1 (leBytes p.2.1 (v.toNat >>> (8 * p.2.2))) (leBytes p.2.1 (2 ^ min top (8 * p.2.1) - 1))) t os vs
  | _, _ => s

/-- What a FILL leaves in the input log: its rows, and the context cycle in which it completed, before or after that cycle's landings (R390,
log 39). -/
def fillAnswer (s : State) (c : Nat) (o : OffOp) (rows : List Row) : Nat × Nat × OffAns :=
  (o.issue, o.slot, .data (pack 4096 64 (fun r => (nth rows r 0).toNat))
    (BitVec.ofNat 1024 (2 * (ctxOf s c).ccycle + (if (ctxOf s c).landedNow then 1 else 0))))

/-- A SPILL or FILL token completes: the bytes of the tile have performed and its lock ends; a FILL whose records would pass the budget writes
nothing (R201, R255, R286, R338). -/
def completeToken (s : State) (c id : Nat) : State :=
  match opOf s c id with
  | none => s
  | some o =>
    let l := launchAt s (ctxOf s c).launch
    let rs := opRanges s c o
    let dev := deviceRanges s rs
    if plainKind o.kind || !inOrder s c o || waitsTree s rs || halfStored s c id rs || (ctxOf s c).heldRows || replaying s c then s
    else if o.q = .host ∧ linkUp s = false then dropHostOp s c o
    else
      match o.kind with
      | .spill _ _ tid offs rows =>
        (match deviceGate s dev true (.device c id) with
         | some t => t
         | none =>
           if rs.all (fun r => storeOk s r.1 r.2.1 r.2.2) then
             opDone (cacheRanges ((tensorOf l tid).elim s (fun t => spillRows (meter s c dev) t offs rows)) c rs) c id (.data 0 0)
           else opDone (portFault s c o 0x11 0) c id (.data 0 0))
      | .fill _ tile tid offs =>
        (match deviceGate s dev false (.device c id) with
         | some t => t
         | none =>
           let s := meter (correctRanges s rs) c dev
           match (tensorOf l tid).elim (.ok []) (fun t => fillRows s t offs) with
           | .ok rows =>
             let first := 64 * tile
             let t := modCtx (cacheRanges s c rs) c (fun x => logRows x ((List.range 64).map (first + ·)))
             if (ctxOf t c).grant.segbudget ≠ 0 ∧ (ctxOf t c).grant.segbudget < (ctxOf t c).charge then holdLandings s c 2
             else opDone (putTile (logInputs t c 32776 [fillAnswer s c o rows]) c first rows) c id (.data 0 0)
           | .error e => opDone (portFault (foundRanges s rs) c o (e % 256) (e / 256)) c id (.data 0 0))
      | _ => s

/-- TOKEN_COMPLETE: A SPILL or FILL token completes and the tile lock ends (R201). -/
def execTokenComplete (c id : Nat) (s : State) : Host.Outcome State Fault Refusal := .next (completeToken s c id)

/-- A PROBE's answer: every tile resident or dead pins them all and lets the bundle issue; else fault 0x13 for a lost tile, 0x10 for
an absent one, naming the first, 0x02 for a pin overflow, at the PROBE bundle (R148, R247, R338, R339, log 121). -/
def answerProbe (s : State) (c id : Nat) : State :=
  match opOf s c id with
  | none => s
  | some o =>
    let x := ctxOf s c
    if !inOrder s c o then s
    else if o.q = .host ∧ linkUp s = false then dropHostOp s c o
    else
      match o.kind with
      | .probe tid off len =>
        (match tensorOf (launchAt s x.launch) tid with
         | none => opDone s c id (.data 0 0)
         | some t =>
           let ts := tilesIn off len false
           let u := opDone s c id (.data 0 0)
           if ts.any (fun i => tileState s t i == 3) then faultDue u c 0x13 0 o.slot
           else
             match ts.find? (fun i => tileState s t i == 0) with
             | some i => faultDue (modCtx u c (fun x => { x with missed := some i })) c 0x10 i o.slot
             | none =>
             match pinTiles u c t.table ts with
             | some v => modCtx (cacheRanges v c [(t, off, len)]) c (fun x => { x with probeOk := true, missed := none })
             | none => faultDue u c 2 0 o.slot)
      | _ => s

/-- PROBE_ANSWER: A PROBE residency answer arrives and the bundle pins or faults (R148). -/
def execProbeAnswer (c id : Nat) (s : State) : Host.Outcome State Fault Refusal := .next (answerProbe s c id)

/-- SHADOW_FILL_ACCEPT: A fill request is accepted into the current shadow bank when its conditions hold (R280). -/
def execShadowFillAccept (c cm : Nat) (s : State) : Host.Outcome State Fault Refusal := .next (acceptFill s c cm)

/-- A fill's bytes written into the shadow bank's rows, each with its checksum, the bank's format and the rows' source (R221, R280,
R396, log 51). -/
def fillBank (nib : Bool) (b : Bank) (v : Row) (data : List Byte) : Bank :=
  let first := fld v 24 8
  let rows := fld v 32 16
  let f := fld v 48 8
  let per := 64 / containerBits f
  let reqs := (if b.reqs.length < 4 then b.reqs else b.reqs.drop 1) ++ [v.truncate 128]
  let b := (List.range rows).foldl (fun b q =>
    putPlane true nib b (first + q) (planeRow f (bytesRow ((data.drop (512 * (q / per))).take 512)) (q % per))) { b with wfmt := f }
  let src := if b.reqs.length < 4 then b.src else (b.src.filter (fun e => e.2 != 2)).map (fun e => (e.1, if 2 < e.2 then e.2 - 1 else e.2))
  { b with reqs := reqs, src := (List.range rows).foldl (fun m q => mput m (first + q) (1 + reqs.length)) src }

/-- A fill ends: its last row is written, or it fails and leaves the bank pending with a failed fill, or with fault 0x11, or that of a poisoned
word, for the pushing context. The request's bytes past the tensor's length are written as zeros, and neither they nor their tiles are read, which
no rule says of a fill (R280, R338, R383, R384, log 51, log 94, log 123). -/
def endFill (s : State) (c cm : Nat) : State :=
  let x := ctxOf s c
  match (macroOf x cm).fillOn with
  | none => s
  | some (src, v) =>
    let off := fld v 64 48
    let n := fld v 32 16 * 8 * containerBits (fld v 48 8)
    let clear (m : Macro) : Macro := { m with fillOn := none }
    match tensorOf (launchAt s x.launch) (fld v 0 16) with
    | none => s
    | some t =>
      let top := ceilDiv (t.len * containerBits t.fmt) 8
      let rs := [(t, off, min (off + n) top - off)]
      let dev := deviceRanges s rs
      if waitsTree s [(t, off, n)] then s
      else
        match tensorRead (correctRanges s rs) t off (min (off + n) top - off) with
        | .ok b =>
          modCtx (meter (correctRanges s rs) c dev) c (fun x =>
            modMacro x cm (fun m => let new := b ++ List.replicate (n - b.length) 0
              if m.fillActive then { clear m with active := fillBank (nibbled s c cm) m.active v new }
              else { clear m with shadow := fillBank (nibbled s c cm) m.shadow v new }))
        | .error e =>
          if e % 256 = 0x11 then modCtx s c (fun x => addLate (modMacro x cm clear) 0x11 ((src - 1) % 256) 0)
          else if e % 256 = 0x30 ∨ e % 256 = 0x31 then
            modCtx (foundRanges s rs) c (fun x => addLate (modMacro x cm clear) (e % 256) ((src - 1) % 256) (e / 256))
          else modCtx s c (fun x => modMacro x cm (fun m => { clear m with fillFailed := some 0x12 }))

/-- SHADOW_FILL_END: A fill writes its last row or fails and the bank is no longer pending (R280). -/
def execShadowFillEnd (c cm : Nat) (s : State) : Host.Outcome State Fault Refusal := .next (endFill s c cm)

/-- The probe entry that the due TAPLD of a context copies (R180, R181). -/
def tapldEntry (s : State) (c : Nat) : Option Nat :=
  ((opsOf s c).getD []).findSome? (fun e => match e.2 with
    | .ins (.tapld _ _ a) => some (tapEntryAddr s (sreg (ctxOf s c) a.toNat))
    | _ => none)

/-- The words of the probe entry read: wrong bits corrected, uncorrectable words rewritten as poison, which the TAPLD consumes (R383, R384). -/
def readEntry (s : State) (c : Nat) : State :=
  match tapldEntry s c with
  | some a => let hit := markHit 0x18 0 64 [(devAddr a, 36864)]; findBad (correctAll s hit) hit false
  | none => s

/-- TAPLD_COPY_COMPLETE: The copy of a probe entry completes, and the frozen TAPLD bundle issues at its context cycle (R181, log 42). -/
def execTapldCopyComplete (c : Nat) (s : State) : Host.Outcome State Fault Refusal :=
  .next (if (ctxOf s c).wait = .copy then modCtx (readEntry s c) c (fun x => { x with probeOk := true }) else s)

end Sys2Proof.Machine
end

