-- ==== Sys2Proof/Machine/Gen.lean ====
section
/-!
DEFINITION. The sequence unit of a launch: batch-table snapshots, slot states, commit elements, token elements, stop strings, the
ring, and the launch's end (R356 to R370).
-/

namespace Sys2Proof.Machine

/-- A launch's sequence unit changed, where it has one. -/
def modGen (s : State) (n : Nat) (f : GenUnit → GenUnit) : State := modLaunch s n (fun l => { l with gen := l.gen.map f })

/-- Device address of the batch table (R357). -/
def gBatch (d : List Byte) : Nat := leAt d 0 8
/-- Device address of the stop table (R357). -/
def gStops (d : List Byte) : Nat := leAt d 8 8
/-- Device address of the output ring (R357). -/
def gRing (d : List Byte) : Nat := leAt d 16 8
/-- The number of records the ring holds (R357). -/
def gRoom (d : List Byte) : Nat := 2 ^ byteAt d 24
/-- Batch slots S (R357). -/
def gSlots (d : List Byte) : Nat := byteAt d 25
/-- Address of the batch-table entry of slot j (R358). -/
def gEntry (d : List Byte) (j : Nat) : Nat := gBatch d + 128 + 128 * j

/-- Whether a descriptor meets R357. -/
def descOk (d : List Byte) : Bool :=
  let n (i : Nat) := byteAt d i
  let nreg (v : Nat) : Bool := decide (v ≤ 15 ∨ v = 255)
  decide (gBatch d % 64 = 0 ∧ gStops d % 16 = 0 ∧ gRing d % 64 = 0 ∧ 6 ≤ n 24 ∧ n 24 ≤ 16 ∧ 1 ≤ n 25 ∧ n 25 ≤ 16) && nreg (n 26) && nreg (n 27) &&
    decide (1 ≤ n 28 ∧ n 28 ≤ 15 ∧ n 29 ≤ 8 ∧ n 28 + n 29 ≤ 16 ∧ n 30 ≤ 15 ∧ n 31 ≤ 1) && (n 26 != n 27 || n 26 == 255) &&
    ((d.drop 32).take 32).all (fun b => b == 0)

/-- The stop strings in use of a stop-table entry: index and tokens (R358). -/
def stopStrings (s : State) (d : List Byte) (ent : Nat) : List (Nat × List Nat) :=
  if gStops d = 0 ∨ ent = 0xFFFF then []
  else
    let a := gStops d + 144 * ent
    (List.range 4).filterMap (fun i =>
      let n := devLe s (a + i) 1
      if 1 ≤ n ∧ n ≤ 8 then some (i, (List.range n).map (fun k => devLe s (a + 16 + 32 * i + 4 * k) 4)) else none)

/-- The stop string that a buffer ends with: the longest, then the lowest index (R366). -/
def stopHit (strs : List (Nat × List Nat)) (p : List Nat) : Option (Nat × List Nat) :=
  strs.foldl (fun best x =>
    if x.2.isSuffixOf p then (match best with | some y => if y.2.length < x.2.length then some x else best | none => some x) else best) none

/-- The tokens that begin no stop string, delivered from the front, and the buffer left (R366). -/
def releaseHeld (strs : List (Nat × List Nat)) : List Nat → List Nat × List Nat
  | [] => ([], [])
  | t :: r => if strs.any (fun x => (t :: r).isPrefixOf x.2) then ([], t :: r) else let q := releaseHeld strs r; (t :: q.1, q.2)

/-- The matching of one accepted token: tokens delivered, the buffer, and a stop string's index and overlap (R366). -/
def matchToken (strs : List (Nat × List Nat)) (hold : Bool) (held : List Nat) (t : Nat) : List Nat × List Nat × Option (Nat × Nat) :=
  let p := held ++ [t]
  if hold then
    match stopHit strs p with
    | some x => (p.take (p.length - x.2.length), [], some (x.1, 0))
    | none => let q := releaseHeld strs p; (q.1, q.2, none)
  else
    let p := p.drop (p.length - 8)
    match stopHit strs p with
    | some x => ([t], [], some (x.1, x.2.length))
    | none => ([t], p, none)

/-- A record of the ring (R367). -/
def ringRecord (tok slot kind overlap str n seq : Nat) : List Byte :=
  leBytes 4 tok ++ [BitVec.ofNat 8 slot, BitVec.ofNat 8 kind, BitVec.ofNat 8 overlap, BitVec.ofNat 8 str] ++ leBytes 4 n ++ leBytes 4 seq

/-- One slot's token of the n-th element (R365): the slot after it and the records it makes. -/
def acceptSlot (s : State) (d : List Byte) (w : BitVec 16) (n j : Nat) (t : Nat) (u : SlotUnit) : SlotUnit × List (List Byte) :=
  let one (tok kind ov str : Nat) : List Byte := ringRecord tok j kind ov str n u.seq
  if u.state ≠ 1 then (u, [])
  else if bit w j then ({ u with state := 2 }, [one 0 4 0 0])
  else
    let pos := u.pos + 1
    let m := matchToken (stopStrings s d (leAt u.half 32 2)) (!(leAt u.half 34 2).testBit 1) u.held t
    let recs := m.1.map (fun t => one t 1 0 0)
    match m.2.2 with
    | some (i, ov) => ({ u with pos := pos, state := 3, held := [] }, recs ++ [one 0 2 ov i])
    | none =>
      if leAt u.half 28 4 ≤ pos then ({ u with pos := pos, state := 3, held := [] }, recs ++ m.2.1.map (fun t => one t 1 0 0) ++ [one 0 3 0 0])
      else ({ u with pos := pos, held := m.2.1 }, recs)

/-- Whether the unit has finished all the steps of its last token element. -/
def genIdle (g : GenUnit) : Bool := g.records.isEmpty && g.reading.isNone && g.commits.isEmpty

/-- Every slot's token of an element (R365). -/
def acceptSlots (s : State) (d : List Byte) (g : GenUnit) (v : Row) : List (SlotUnit × List (List Byte)) :=
  g.slots.mapIdx (fun j u => acceptSlot s d g.w g.n j (lane v j).toNat u)

/-- The stop-table entries that the slots of an element read (R347, R366). -/
def stopRanges (d : List Byte) (g : GenUnit) : List (Nat × Nat) :=
  if gStops d = 0 then []
  else (g.slots.mapIdx (fun j u => (j, u))).filterMap (fun e =>
    let ent := leAt e.2.half 32 2
    if e.2.state = 1 ∧ bit g.w e.1 = false ∧ ent ≠ 0xFFFF then some (gStops d + 144 * ent, 144) else none)

/-- The head of the token FIFO accepted: its records, W cleared, and the next snapshot begun (R365). -/
def acceptToken (s : State) (l : Nat) : State :=
  let d := (launchAt s l).desc
  match (launchAt s l).gen with
  | some g =>
    (match g.tokens with
     | v :: r =>
       if genIdle g then
         match deviceGate s (stopRanges d g) false (.unit l) with
         | some t => t
         | none =>
         let u := acceptSlots s d g v
         modGen s l (fun g => { g with tokens := r, slots := u.map (·.1), records := u.flatMap (·.2), n := g.n + 1, w := 0, reading := some 0,
                                       seals := [], halves := [], flips := 0 })
       else s
     | [] => s)
  | none => s

/-- The device-memory range that read r of a snapshot takes, and its kind: seal, half, seal (R359). -/
def snapRange (d : List Byte) (g : GenUnit) (r : Nat) : Nat × Nat :=
  let a := gEntry d (r / 3)
  if r % 3 = 1 then (if (mget g.seals (r / 3) 0) % 2 = 0 then (a, 48) else (a + 64, 48)) else (a + 56, 8)

/-- One read of a snapshot performs (R359). -/
def snapRead (s : State) (d : List Byte) (g : GenUnit) (r : Nat) : GenUnit :=
  let j := r / 3
  let p := snapRange d g r
  if r % 3 = 0 then { g with seals := mput g.seals j (devLe s p.1 8) }
  else if r % 3 = 1 then { g with halves := mput g.halves j (devRead s p.1 48) }
  else if devLe s p.1 4 = mget g.seals j 0 % 2 ^ 32 then g
  else { g with flips := g.flips ||| BitVec.ofNat 16 (2 ^ j) }

/-- Whether an old state may be continued by a new half (R361, log 66). -/
def continues (u : SlotUnit) (h : List Byte) : Bool := (u.last == 1 || u.last == 2) && u.seq == leAt h 0 8 && u.pos == leAt h 24 4

/-- The old slot a new version continues, among those not taken (R361, log 66). -/
def continuedBy (old : List SlotUnit) (taken : List Nat) (h : List Byte) : Option Nat :=
  (List.range old.length).find? (fun i => !taken.any (· == i) && (old[i]?).elim false (fun u => continues u h))

/-- A slot no snapshot has read: no version equals its version (R361). -/
def slotInit : SlotUnit := { version := 2 ^ 31, half := [], state := 0, last := 0, seq := 0, pos := 0, held := [] }

/-- The slots after a snapshot, from slot j on: `taken` the old slots kept or continued already (R361, log 66). -/
def nextSlots (old : List SlotUnit) (g : GenUnit) : List Nat → List Nat → List SlotUnit
  | [], _ => []
  | j :: js, taken =>
    let u := nth old j slotInit
    let h := mget g.halves j []
    let v := mget g.seals j 0 / 2 % 2 ^ 31
    let fresh : SlotUnit := { version := v, half := h, state := 1, last := 1, seq := leAt h 0 8, pos := leAt h 24 4, held := [] }
    if u.version = v then { u with half := h, last := u.state } :: nextSlots old g js taken
    else if leAt h 34 2 % 2 = 0 then { fresh with state := 0, last := 0 } :: nextSlots old g js taken
    else
      match continuedBy old taken h with
      | some i => { fresh with held := (nth old i slotInit).held } :: nextSlots old g js (i :: taken)
      | none => fresh :: nextSlots old g js taken

/-- The unit after a snapshot's last read: slots whose version is unchanged keep their own states (R361). -/
def takeSnapshot (g : GenUnit) : GenUnit :=
  let js := List.range g.slots.length
  let kept := js.filter (fun j => (nth g.slots j slotInit).version == mget g.seals j 0 / 2 % 2 ^ 31)
  { g with slots := nextSlots g.slots g js kept, snaps := g.snaps + 1, reading := none }

/-- The slots in a state, as a mask. -/
def stateMask (g : GenUnit) (st : Nat) : Nat := pack 1 g.slots.length (fun j => if (nth g.slots j slotInit).state = st then 1 else 0)

/-- Commit element k for the popping context `own` (R362). -/
def commitRow (g : GenUnit) (k own : Nat) : Row :=
  let u (j : Nat) : SlotUnit := nth g.slots j slotInit
  let f (i lo n : Nat) : Nat := if i % 16 < g.slots.length then leAt (u (i % 16)).half lo n else 0
  rowOf 32 128 (fun i =>
    match i / 16 with
    | 0 => f i 0 4
    | 1 => f i 4 4
    | 2 => f i 8 4
    | 3 => f i 12 4
    | 4 => if i % 16 < g.slots.length then (if (u (i % 16)).state = 0 then leAt (u (i % 16)).half 24 4 else (u (i % 16)).pos) else 0
    | 5 => f i 16 4
    | 6 => f i 20 4
    | _ =>
      match i with
      | 112 => k
      | 113 => stateMask g 1
      | 114 => stateMask g 2
      | 115 => stateMask g 3
      | 116 => (g.slots.filter (fun x => x.state == 1)).length
      | 117 => g.slots.foldl (fun m x => if x.state = 1 then max m (x.pos + 1) else m) 0
      | 118 => g.flips.toNat
      | 119 => own
      | _ => 0)

/-- The kind-3 bindings of a launch: place and popping Stall (R356). -/
def commitSinks (l : Launch) : List (Nat × Nat) :=
  (l.fifos.mapIdx (fun i f => (i, f))).filterMap (fun e => if nth e.2 0 0 = 3 then some (e.1, nth e.2 3 0) else none)

/-- A snapshot ended: snapend written, and a copy of the commit element waiting for each commit FIFO (R359, R362, R363). -/
def endSnapshot (s : State) (l : Nat) : State :=
  let n := launchAt s l
  match n.gen with
  | none => s
  | some g =>
    match deviceGate s [(gBatch n.desc, 8)] true (.unit l) with
    | some t => t
    | none =>
      let g := takeSnapshot g
      let g := { g with commits := g.commits ++ (commitSinks n).map (fun e => (e.1, commitRow g (g.snaps - 1) e.2)) }
      modLaunch (devPut s (gBatch n.desc) (leBytes 8 g.snaps)) l (fun n => { n with gen := some g })

/-- Up to `fuel` reads of the snapshot in progress, and its end (R359). A read of memory that the host holds waits (log 68). -/
def snapReads : Nat → State → Nat → State
  | 0, s, _ => s
  | fuel + 1, s, l =>
    let n := launchAt s l
    match n.gen with
    | none => s
    | some g =>
      match g.reading with
      | none => s
      | some r =>
        if g.slots.length * 3 ≤ r then endSnapshot s l
        else
          match deviceGate s [snapRange n.desc g r] false (.unit l) with
          | some t => t
          | none => snapReads fuel (modLaunch s l (fun n => { n with gen := some { snapRead s n.desc g r with reading := some (r + 1) } })) l

/-- Copies of the commit element delivered in turn while their FIFOs have room (R363); once the launch is ending nothing pops, and a
copy for a full FIFO is gone with it. -/
def deliverCommits : Nat → State → Nat → State
  | 0, s, _ => s
  | fuel + 1, s, l =>
    let n := launchAt s l
    match n.gen with
    | none => s
    | some g =>
      match g.commits with
      | [] => s
      | (i, v) :: r =>
        let q := mget n.fifoData i []
        if q.length < 64 then
          deliverCommits fuel (modLaunch s l (fun n =>
            { n with gen := some { g with commits := r }, fifoData := mput n.fifoData i (q ++ [v]), pushed := mput n.pushed i (mget n.pushed i 0 + 1) })) l
        else if n.state = .ending then deliverCommits fuel (modLaunch s l (fun n => { n with gen := some { g with commits := r } })) l
        else s

/-- A record written where the ring has room, and produced after it (R367, R368). -/
def writeRecord (s : State) (l : Nat) : State :=
  let n := launchAt s l
  match n.gen with
  | none => s
  | some g =>
    match g.records with
    | [] => s
    | b :: r =>
      let a := gRing n.desc + 16 * (g.produced % gRoom n.desc)
      match deviceGate s [(gBatch n.desc + 64, 8)] false (.unit l) with
      | some t => t
      | none =>
      if (g.produced : Int) - devLe s (gBatch n.desc + 64) 8 < gRoom n.desc then
        match deviceGate s [(gBatch n.desc + 8, 8), (a, 16)] true (.unit l) with
        | some t => t
        | none =>
          let s := devPut (devPut s a b) (gBatch n.desc + 8) (leBytes 8 (g.produced + 1))
          modLaunch s l (fun n => { n with gen := some { g with records := r, produced := g.produced + 1 } })
      else s

/-- The records of a launch's sequence unit that wait for the ring. -/
def waitingRecords (s : State) (l : Nat) : List (List Byte) := (launchAt s l).gen.elim [] (fun g => g.records)

/-- Records written one after another as far as the ring has room. -/
def writeRecords (s : State) (l : Nat) : State := (waitingRecords s l).foldl (fun s _ => writeRecord s l) s

/-- Whether a launch's records have all been written. -/
def recordsDone (l : Launch) : Bool := l.gen.elim true (fun g => g.records.isEmpty)

/-- The launch-end records of R361: P of each running slot, then a kind-5 record; every slot state is then discarded (R368). The
iteration of a launch that accepted no element is not stated (log 1, log 67). -/
def endUnit (s : State) (l : Nat) : State :=
  match (launchAt s l).gen with
  | none => s
  | some g =>
    let n := if g.n = 0 then Sys2Proof.Config.freeNat s.fresh else g.n - 1
    let recs := (g.slots.mapIdx (fun j u => (j, u))).flatMap (fun e =>
      if e.2.state = 1 then e.2.held.map (fun t => ringRecord t e.1 1 0 0 n e.2.seq) ++ [ringRecord 0 e.1 5 0 0 n e.2.seq] else [])
    modGen { s with fresh := s.fresh + 1 } l (fun g => { g with records := g.records ++ recs, slots := [], ending := true })

/-- Whether the sequence unit of a launch leaves nothing to do before the launch ends (log 67). -/
def unitDone (l : Launch) : Bool := l.gen.elim true (fun g => g.ending && g.records.isEmpty)

/-- The unit of a launch that is over does what is left as far as it can: elements already pushed, their commits, then the
launch-end records (R361, R368, log 67). -/
def finishUnit : Nat → State → Nat → State
  | 0, s, _ => s
  | fuel + 1, s, l =>
    let s := writeRecords s l
    match (launchAt s l).gen with
    | none => s
    | some g =>
      if !g.records.isEmpty || g.ending then s
      else
        let s := deliverCommits 16 (snapReads 64 s l) l
        match (launchAt s l).gen with
        | some h =>
          if !genIdle h then s
          else if h.tokens.isEmpty then writeRecords (endUnit s l) l
          else finishUnit fuel (acceptToken s l) l
        | none => s

/-- snapend and produced written 0, once the host lets the unit have their memory, and snapshot 0 begun (R347, R358). -/
def openUnit (s : State) (l : Nat) : State :=
  let n := launchAt s l
  match n.gen with
  | none => s
  | some g =>
    if g.opened then s
    else
      match deviceGate s [(gBatch n.desc, 16)] true (.unit l) with
      | some t => t
      | none => modLaunch (devPut s (gBatch n.desc) (leBytes 16 0)) l (fun n => { n with gen := some { g with opened := true, reading := some 0 } })

/-- The unit of a launch that starts: snapend and produced written 0, snapshot 0 taken and commit 0 delivered (R358, R363). -/
def startUnit (s : State) (l : Nat) : State :=
  let n := launchAt s l
  if (commitSinks n).isEmpty then s
  else
    let g : GenUnit := { slots := List.replicate (gSlots n.desc) slotInit, tokens := [], n := 0, w := 0, records := [], produced := 0, snaps := 0,
                         reading := none, seals := [], halves := [], flips := 0, commits := [], opened := false, ending := false }
    deliverCommits 16 (snapReads 64 (openUnit (modLaunch s l (fun n => { n with gen := some g })) l) l) l

/-- TOKEN_ELEMENT_ACCEPT: the unit accepts a token element, or goes on with it: `reads` reads of the snapshot that follows its records
perform in this step (R359, R365, R366). -/
def execTokenElementAccept (l reads : Nat) (s : State) : Host.Outcome State Fault Refusal :=
  .next (let s := acceptToken s l; if recordsDone (launchAt s l) then snapReads reads s l else s)

/-- RING_RECORD_WRITE: a record is written to the ring when it has room (R367, R368). -/
def execRingRecordWrite (l : Nat) (s : State) : Host.Outcome State Fault Refusal := .next (writeRecord s l)

/-- COMMIT_ELEMENT_DELIVERY: the rest of the snapshot is read and copies of the commit element go to the commit FIFOs with room (R359,
R363, log 68). -/
def execCommitElementDelivery (l : Nat) (s : State) : Host.Outcome State Fault Refusal :=
  .next (if recordsDone (launchAt s l) then deliverCommits 16 (snapReads 64 s l) l else s)

end Sys2Proof.Machine
end

