-- ==== Sys2Proof/Machine/Records.lean ====
section
/-!
DEFINITION. Launch records: their fields, the kernel image and its tables, the checks of R309, tokens, heads of queues, completion
entries and posting (R98, R99, R235, R241, R270, R303 to R311, R314, R318, R334, R336, R356, R357).
-/

namespace Sys2Proof.Machine

/-- Device address of a queue's part of the command region (R303). -/
def queueBase (s : State) (q : Nat) : Nat := (ioCsr s 0x811).toNat + 32768 * q
/-- Whether every byte of a slice is zero. -/
def zeroBytes (b : List Byte) (i n : Nat) : Bool := ((b.drop i).take n).all (fun x => x == 0)

/-- The address of a record's kernel image (R305). -/
def recImage (r : List Byte) : Nat := leAt r 0 8
/-- A record's image tag. -/
def recTag (r : List Byte) : Nat := leAt r 8 4
/-- A record's save area (R305, R327). -/
def recSave (r : List Byte) : Nat := leAt r 40 8
/-- Tap selector t of a record (R305, R308). -/
def recTap (r : List Byte) (t : Nat) : Nat := leAt r (48 + 2 * t) 2
/-- FIFO binding i of a record (R306). -/
def recFifo (r : List Byte) (i : Nat) : List Byte := (r.drop (128 + 8 * i)).take 8

/-- Whether a kernel header has every field in its range and its reserved fields zero, its code inside the image (R98). -/
def headerOk (h : List Byte) : Bool :=
  let f := leAt h
  let b := byteAt h
  decide (f 0 4 = 0x4F584B31 ∧ f 4 2 = 1 ∧ f 6 2 < 4 ∧ 1 ≤ f 8 2 ∧ f 8 2 ≤ 4096 ∧ f 10 2 < f 8 2 ∧ b 12 ≤ 24 ∧ b 13 ≤ 32 ∧ f 14 2 ≤ 256) &&
    decide (b 16 ≤ 64 ∧ b 17 ≤ 6 ∧ b 20 &&& (255 - b 19) = 0 ∧ b 21 = 0 ∧ f 22 2 ≤ 49152) && (List.range 8).all (fun i => decide (b (24 + i) ≤ 64)) &&
    decide (1 ≤ b 32 ∧ b 32 ≤ 6 ∧ 1 ≤ b 33 ∧ b 33 ≤ 4 ∧ 1 ≤ b 34 ∧ b 34 ≤ 4 ∧ 1 ≤ b 35 ∧ b 35 ≤ 2) &&
    (f 6 2 % 2 == 0 || f 36 4 == 0) && decide (f 56 4 % 64 = 0 ∧ f 60 4 % 64 = 0 ∧ 64 ≤ f 60 4 ∧ f 56 4 + 64 * f 8 2 ≤ f 60 4)

/-- A table of an image: none where its offset is 0 or its prefix and entries are refused, else its entries (R98, R235, R241). -/
def tableOf (s : State) (image off len size most : Nat) : Option (List (List Byte)) :=
  if off = 0 then some []
  else
    let p := devRead s (image + off) 8
    if len < off + 8 ∨ zeroBytes p 4 4 = false ∨ most < leAt p 0 4 ∨ len < off + 8 + size * leAt p 0 4 then none
    else some ((List.range (leAt p 0 4)).map (fun i => devRead s (image + off + 8 + size * i) size))

/-- A tensor-table entry, where it meets R235. -/
def tensorEntry (e : List Byte) : Option Tensor :=
  let k := byteAt e 2
  let ok := decide (1 ≤ leAt e 0 2 ∧ k ≤ 2 ∧ byteAt e 3 ≤ 0x1B ∧ byteAt e 5 < 4 ∧ 1 ≤ leAt e 8 8 ∧ leAt e 8 8 < 2 ^ 48) &&
    (if k = 0 then decide (byteAt e 4 ≤ 7 ∧ leAt e 16 8 ≤ 262143) else decide (byteAt e 4 = 0 ∧ leAt e 16 8 = 0)) &&
    (byteAt e 5 == 0 || k == 1) && zeroBytes e 6 2 && zeroBytes e 24 8
  if ok then
    some { id := leAt e 0 2, kind := k, fmt := byteAt e 3, bay := byteAt e 4, flags := byteAt e 5, len := leAt e 8 8, off := leAt e 16 8,
           tiles := 0, table := 0 }
  else none

/-- Every entry read, or none where one is refused. -/
def allSome {α β : Type} (f : α → Option β) : List α → Option (List β)
  | [] => some []
  | x :: r => match f x, allSome f r with | some y, some l => some (y :: l) | _, _ => none

/-- Whether a list has no element twice. -/
def noTwice (l : List Nat) : Bool := l.eraseDups.length == l.length

/-- The tensor table of an image (R98, R235). -/
def readTensors (s : State) (image : Nat) (h : List Byte) : Option (List Tensor) :=
  match (tableOf s image (leAt h 44 4) (leAt h 60 4) 32 1024).bind (allSome tensorEntry) with
  | some l => if noTwice (l.map (·.id)) then some l else none
  | none => none

/-- A stream-table entry's words 0 to 11, where it meets R241. -/
def streamEntry (e : List Byte) : Option (List Word) :=
  let w11 := leAt e 88 8
  if w11 % 32 + 256 * (w11 / 256 % 2) = w11 ∧ zeroBytes e 96 32 = true then some ((List.range 12).map (fun i => BitVec.ofNat 64 (leAt e (8 * i) 8)))
  else none

/-- Whether an entry is loaded at placement (R241). -/
def placedEntry (w : List Word) : Bool := bit (nth w 11 0) 8

/-- The stream table of an image (R241). -/
def readStreams (s : State) (image : Nat) (h : List Byte) : Option (List (List Word)) :=
  match (tableOf s image (leAt h 48 4) (leAt h 60 4) 128 4096).bind (allSome streamEntry) with
  | some l => if noTwice ((l.filter placedEntry).map (fun w => fld (nth w 11 0) 0 5)) then some l else none
  | none => none

/-- Whether a list rises strictly. -/
def rising : List Nat → Bool
  | a :: b :: r => decide (a < b) && rising (b :: r)
  | _ => true

/-- The auxiliary table: rendezvous groups and segment entries, where it meets R270 (log 73). -/
def readAux (s : State) (image : Nat) (h : List Byte) : Option (List (Nat × Nat × Nat) × List (Nat × Bool)) :=
  let off := leAt h 40 4
  let len := leAt h 60 4
  if off = 0 then some ([], [])
  else
    let p := devRead s (image + off) 8
    let ng := leAt p 0 2
    let ns := leAt p 2 2
    if len < off + 8 ∨ zeroBytes p 4 4 = false ∨ 16 < ng ∨ 4096 < ns ∨ len < off + 8 + 8 * ng + 4 * ns then none
    else
      let gs := (List.range ng).map (fun g => devRead s (image + off + 8 + 8 * g) 8)
      let ws := (List.range ns).map (fun j => devLe s (image + off + 8 + 8 * ng + 4 * j) 4)
      let stalls := byteAt h 32 * byteAt h 33 * byteAt h 34 * byteAt h 35
      let marked := (List.range (leAt h 8 2)).filter (fun b => bSeg (BitVec.ofNat 512 (devLe s (image + leAt h 56 4 + 64 * b) 64)))
      if gs.all (fun e => decide (byteAt e 0 < 16 ∧ byteAt e 1 ≤ byteAt e 2 ∧ byteAt e 2 < stalls) && zeroBytes e 3 5) &&
          noTwice (gs.map (fun e => byteAt e 0)) && ws.all (fun w => w % 4096 + 2 ^ 15 * (w / 2 ^ 15 % 2) == w) &&
          rising (ws.map (· % 4096)) && (ws.map (· % 4096) == marked) then
        some (gs.map (fun e => (byteAt e 0, byteAt e 1, byteAt e 2)), ws.map (fun w => (w % 4096, decide (w / 2 ^ 15 % 2 = 1))))
      else none

/-- A data-image entry as tensor, byte offset and bytes, where it meets R99. -/
def dataEntry (s : State) (image len : Nat) (ts : List Tensor) (e : List Byte) : Option (Nat × Nat × List Byte) :=
  match ts.find? (fun t => t.id == leAt e 0 2) with
  | none => none
  | some t =>
    let n := leAt e 4 4
    let off := leAt e 8 6
    let src := leAt e 16 4
    if !framed t && zeroBytes e 2 2 && zeroBytes e 14 2 && zeroBytes e 20 12 && decide (1 ≤ n ∧ n ≤ 262144) &&
        decide (off + n ≤ ceilDiv (t.len * containerBits t.fmt) 8 ∧ src + n ≤ len) then
      some (t.id, off, devRead s (image + src) n)
    else none

/-- The data-image table (R99). -/
def readImages (s : State) (image : Nat) (h : List Byte) (ts : List Tensor) : Option (List (Nat × Nat × List Byte)) :=
  (tableOf s image (leAt h 52 4) (leAt h 60 4) 32 1024).bind (allSome (dataEntry s image (leAt h 60 4) ts))

/-- Whether the record's own fields are well formed: reserved fields zero, addresses aligned, FIFO bindings of known kinds (R305,
R306, log 61). -/
def recordOk (r : List Byte) : Bool :=
  zeroBytes r 13 3 && zeroBytes r 28 4 && decide (byteAt r 12 < 8) && zeroBytes r 250 6 &&
    decide (recImage r % 4096 = 0 ∧ leAt r 32 8 % 64 = 0 ∧ recSave r % 4096 = 0 ∧ leAt r 26 2 ≤ 1024) &&
    (List.range 15).all (fun i =>
      let f := recFifo r i
      if byteAt f 0 = 0 then zeroBytes f 1 7 else decide (byteAt f 0 ≤ 3 ∧ byteAt f 2 < 32 ∧ byteAt f 4 < 32) && zeroBytes f 5 3)

/-- The FIFO bindings in use, as lists of kind, source, its FIFO, sink, its FIFO. -/
def bindings (r : List Byte) : List (List Nat) :=
  ((List.range 15).map (fun i => (List.range 5).map (byteAt (recFifo r i)))).filter (fun f => nth f 0 0 != 0)

/-- Whether the bindings name Stalls of the shape, no FIFO twice, and meet R356 where they are of kind 3 (R306, R309, R356). -/
def bindingsOk (fs : List (List Nat)) (stalls : Nat) : Bool :=
  let gen := fs.filter (fun f => nth f 0 0 == 3)
  let src (f : List Nat) : Nat := nth f 1 0 * 32 + nth f 2 0
  let snk (f : List Nat) : Nat := nth f 3 0 * 32 + nth f 4 0
  fs.all (fun f => decide (nth f 1 0 < stalls) && (if nth f 0 0 = 2 then decide (snk f = 0) else decide (nth f 3 0 < stalls))) &&
    noTwice ((fs.filter (fun f => nth f 0 0 != 3)).map src ++ (gen.take 1).map src ++ (fs.filter (fun f => nth f 0 0 != 2)).map snk) &&
    decide (gen.length ≤ 4) && (match gen with | g :: r => r.all (fun f => src f == src g) | [] => true) &&
    noTwice (gen.map (fun f => nth f 3 0))

/-- Tensors with their bindings: tile count and tile table; none where a binding is missing, doubled or of the wrong kind (R307). -/
def bindTensors (s : State) (r : List Byte) (ts : List Tensor) : Option (List Tensor) :=
  let bs := (List.range (leAt r 26 2)).map (fun i => devRead s (leAt r 32 8 + 16 * i) 16)
  let ok (b : List Byte) : Bool :=
    byteAt b 3 == 0 && ts.any (fun t => t.id == leAt b 0 2 && t.kind != 0 && t.kind == byteAt b 2)
  if bs.all ok && noTwice (bs.map (fun b => leAt b 0 2)) && ts.all (fun t => t.kind == 0 || bs.any (fun b => leAt b 0 2 == t.id)) then
    some (ts.map (fun t => match bs.find? (fun b => leAt b 0 2 == t.id) with
      | some b => { t with tiles := leAt b 4 4, table := leAt b 8 8 }
      | none => t))
  else none

/-- Whether a tap's selector and the entry it names are in order (R180, R308). -/
def tapSelectorOk (s : State) (r h : List Byte) (t : Nat) : Bool :=
  let v := recTap r t
  if (byteAt h 19).testBit t then
    let a := (ioCsr s 0x810).toNat + 36864 * (v % 4096)
    let d := devLe s a 2
    decide (2 ^ 15 ≤ v ∧ v / 2 ^ 12 % 8 = 0) && decide (128 ≤ d ∧ d ≤ 8192 ∧ d % 128 = 0) && decide (devLe s (a + 3) 1 ≤ 7 ∧ devLe s (a + 8) 1 ≤ 1) &&
      (List.range 36864).all (fun i => !tapReserved d i || devLe s (a + i) 1 == 0)
  else v == 0

/-- Whether a declared tap's position is that of its entry (R98, R308). -/
def tapPositionOk (s : State) (r h : List Byte) (t : Nat) : Bool :=
  !(byteAt h 19).testBit t ||
    devLe s ((ioCsr s 0x810).toNat + 36864 * (recTap r t % 4096) + 2) 1 == (if (byteAt h 20).testBit t then 1 else 0)

/-- What a class partition holds on each Stall and Stable (R314). -/
structure Part where
  tiles : Nat
  kregs : Nat
  streams : Nat
  macros : Nat
  lo : Nat
  hi : Nat
  undo : Nat
  ub : List Nat
  sems : BitVec 64

/-- The partition of a class from csr.part0 to csr.part2 (R314, R412). -/
def partOf (s : State) (openCls : Bool) : Part :=
  let a := ioCsr s 0x871
  let ub := (List.range 8).map (fun b => fld (ioCsr s 0x872) (7 * b) 7)
  if openCls then
    { tiles := 24 - fld a 0 5, kregs := 256 - fld a 5 9, streams := 32 - fld a 14 6, macros := 255 - fld a 20 8, lo := fld a 28 13, hi := 4096,
      undo := 49152 - 64 * fld a 41 10, ub := ub.map (64 - ·), sems := ~~~(ioCsr s 0x873) }
  else
    { tiles := fld a 0 5, kregs := fld a 5 9, streams := fld a 14 6, macros := fld a 20 8, lo := 0, hi := fld a 28 13,
      undo := 64 * fld a 41 10, ub := ub, sems := ioCsr s 0x873 }

/-- The number of bits set. -/
def popCount (w : BitVec 64) : Nat := ((List.range 64).filter (bit w)).length

/-- Whether a header's demands fit its class partition (R314). -/
def demandOk (p : Part) (h : List Byte) : Bool :=
  decide (byteAt h 12 ≤ p.tiles ∧ leAt h 14 2 ≤ p.kregs ∧ byteAt h 13 ≤ p.streams ∧ byteAt h 18 &&& (255 - p.macros) = 0 ∧
    leAt h 8 2 ≤ p.hi - p.lo ∧ leAt h 22 2 ≤ p.undo ∧ byteAt h 16 ≤ popCount p.sems) &&
    (List.range 8).all (fun b => decide (byteAt h (24 + b) ≤ nth p.ub b 0))

/-- Whether the partition registers stand at their reset values, when open launches stay ready (R314, log 62). -/
def unparted (s : State) : Bool := [0x871, 0x872, 0x873].all (fun n => ioCsr s n == mget resetIo n 0)

/-- The lowest semaphores of a mask, n of them (R22). -/
def lowestBits (m : BitVec 64) (n : Nat) : BitVec 64 :=
  (((List.range 64).filter (bit m)).take n).foldl (fun v i => v ||| BitVec.ofNat 64 (2 ^ i)) 0

/-- Whether a bound tile count covers its tensor (R307). -/
def tilesOk (t : Tensor) : Bool := t.kind == 0 || decide (ceilDiv (ceilDiv (t.len * containerBits t.fmt) 8) 65536 ≤ t.tiles)

/-- The parsed parts of a record whose fields, header and tables stand, or none: fault 0x01 (R309, log 103). -/
def parseRecord (s : State) (q : Nat) (r : List Byte) : Option Launch :=
  let h := devRead s (recImage r) 64
  if !recordOk r || !headerOk h || decide ((4 ≤ q) ≠ (leAt h 6 2 % 2 = 1)) then none
  else
    let fs := bindings r
    let desc := if fs.any (fun f => nth f 0 0 == 3) then devRead s (leAt r 120 8) 64 else []
    match readTensors s (recImage r) h, readStreams s (recImage r) h, readAux s (recImage r) h with
    | some ts, some ws, some a =>
      (match readImages s (recImage r) h ts, bindTensors s r ts with
       | some im, some tb =>
         if bindingsOk fs (byteAt h 32 * byteAt h 33 * byteAt h 34 * byteAt h 35) && (desc.isEmpty || descOk desc) &&
             !tb.any (fun t => t.kind != 0 && headerWrong s t) && (List.range 8).all (tapSelectorOk s r h) then
           some { launchInit with
             state := .queued, openCls := decide (4 ≤ q), record := r, header := h, tensors := tb, streams := ws, groups := a.1,
             segments := a.2, fifos := fs, images := im, desc := desc }
         else none
       | _, _ => none)
    | _, _, _ => none

/-- The fault that refuses a record, 0 for none: 0x01, then 0x02, then 0x14 (R309, log 61, log 62). -/
def checkRecord (s : State) (l : Option Launch) : Nat :=
  match l with
  | none => 1
  | some l =>
    if !l.tensors.all tilesOk then 2
    else if !demandOk (partOf s l.openCls) l.header && !(l.openCls && unparted s) then 2
    else if !l.openCls && decide (fld (ioCsr s 0x858) 0 13 < leAt l.header 36 4) then 2
    else if !(List.range 8).all (tapPositionOk s l.record l.header) then 0x14
    else 0

/-- A token cell set: epoch and state, 0 clear, 1 done, 2 failed; number 0 names none (R310). -/
def setToken (s : State) (field st : Nat) : State :=
  if field % 4096 = 0 then s else { s with tokens := mset s.tokens (field % 4096) (BitVec.ofNat 6 (field / 4096 * 4 + st)) 0 }

/-- What a wait finds: 0 met, 1 pending, 2 cancelled (R310). -/
def waitOn (s : State) (field : Nat) : Nat :=
  if field % 4096 = 0 then 0
  else
    let c := mget s.tokens (field % 4096) 0
    if fld c 2 4 = field / 4096 % 16 then (match fld c 0 2 with | 1 => 0 | 2 => 2 | _ => 1) else 1

/-- A completion entry (R334). -/
def completionEntry (s : State) (l : Launch) : List Byte :=
  leBytes 2 l.seq ++ leBytes 1 l.status ++ leBytes 1 l.fault ++ leBytes 1 l.faultStall ++ leBytes 1 l.faultSlot ++ leBytes 2 l.faultPc ++
    leBytes 8 l.started ++ leBytes 8 s.mcycle ++ leBytes 8 l.maxCycle ++ List.replicate 32 0

/-- A launch ended: its entry is written and then its message sent, or it goes to the service log where its queue was reset; its token
is set and it leaves the machine (R310, R318, R334, R351). -/
def retire (s : State) (n : Nat) : State :=
  let l := launchAt s n
  let s := if l.silent then emitOut s (.logged l.queue l.seq l.status)
    else
      let s := devPut s (queueBase s l.queue + 16384 + 64 * ((l.seq - 1) % 64)) (completionEntry s l)
      if byteAt l.record 12 % 2 = 1 then emitOut s (.message l.queue l.seq) else s
  let s := setToken s (leAt l.record 24 2) (if l.status = 0 then 1 else 2)
  { s with launches := mdel s.launches n }

/-- A launch that never ran ends with a status and fault (R309, R311, R333). -/
def retireWith (s : State) (n status fault : Nat) : State :=
  retire (modLaunch s n (fun l => { l with state := .ended, status := status, fault := fault, faultStall := 0, faultSlot := 0, faultPc := 0 })) n

/-- Whether a launch waits in its queue. -/
def waiting (l : Launch) : Bool := l.state == .queued || l.state == .head || l.state == .ready

/-- How long ago a launch of a queue posted, as a distance below the next sequence (R304). -/
def postOrder (s : State) (l : Launch) : Nat := (l.seq + 65535 * 2 - mget s.expected l.queue 1) % 65535

/-- The oldest waiting launch of a queue (R311). -/
def headOf (s : State) (q : Nat) : Option (Nat × Launch) :=
  (s.launches.filter (fun e => e.2.queue == q && waiting e.2)).foldl (fun best e =>
    match best with
    | some b => if postOrder s e.2 < postOrder s b.2 then some e else best
    | none => some e) none

/-- The head of a queue made ready, or cancelled with those after it; a ready head stays ready while a cell it waited on is pending again, and is
cancelled where one has failed (R310, R311, R318, log 143). -/
def advanceQueue : Nat → State → Nat → State
  | 0, s, _ => s
  | fuel + 1, s, q =>
    match headOf s q with
    | none => s
    | some (n, l) =>
      let ws := (List.range 4).map (fun i => waitOn s (leAt l.record (16 + 2 * i) 2))
      if ws.any (· == 2) then advanceQueue fuel (retireWith s n 3 0) q
      else if l.state = .ready then s
      else if ws.all (· == 0) then modLaunch s n (fun l => { l with state := .ready, since := s.mcycle })
      else modLaunch s n (fun l => { l with state := .head })

/-- Every queue's head looked at; a cancelled launch's token may cancel heads of other queues in turn (R311). -/
def advanceQueues (s : State) : State :=
  (List.range (s.launches.length + 1)).foldl (fun s _ => (List.range 16).foldl (fun s q => advanceQueue (s.launches.length + 1) s q) s) s

/-- The lowest number from 1 that names no launch; 0 names none. -/
def freeLaunch (s : State) : Nat := ((List.range (s.launches.length + 1)).find? (fun n => (mfind s.launches (n + 1)).isNone)).getD 0 + 1

/-- A record posted: copied, its token cleared, checked at once, and queued or refused (R304, R309, R310, log 103). -/
def acceptRecord (s : State) (q seq : Nat) (r : List Byte) : State :=
  let n := freeLaunch s
  let s := setToken s (leAt r 24 2) 0
  let p := parseRecord s q r
  let l := { (p.getD { launchInit with record := r }) with queue := q, seq := seq, openCls := decide (4 ≤ q), state := .queued }
  let code := checkRecord s p
  let s := { s with launches := mput s.launches n l }
  if code = 0 then s else retireWith s n 2 code

/-- The slot of the expected record tested, and tested again after each post (R304). -/
def testQueue : Nat → State → Nat → State
  | 0, s, _ => s
  | fuel + 1, s, q =>
    let e := mget s.expected q 0
    let r := devRead s (queueBase s q + 256 * ((e - 1) % 64)) 256
    if e ≠ 0 ∧ leAt r 248 2 = e then
      testQueue fuel (acceptRecord { s with expected := mput s.expected q (if e = 65535 then 1 else e + 1) } q e r) q
    else s

/-- A queue tested, and its head looked at (R304, R311, log 103). -/
def postQueue (s : State) (q : Nat) : State := advanceQueues (testQueue 64 s q)

end Sys2Proof.Machine
end

