-- ==== Sys2Proof/Machine/Place.lean ====
section
/-!
DEFINITION. Placement: the order of candidates, the placements of a shape, code residency, the grants of a placed launch, and the
resume of one swapped out (R22, R24, R25, R228, R269, R312 to R317, R326, R356, R393, R398, R400, R401).
-/

namespace Sys2Proof.Machine

/-- A queue's priority (R311). -/
def prioOf (s : State) (q : Nat) : Nat := fld (ioCsr s (0x860 + q)) 0 2
/-- A queue's weight (R311). -/
def weightOf (s : State) (q : Nat) : Nat := max 1 (fld (ioCsr s (0x860 + q)) 2 8)
/-- A candidate's score (R312). -/
def scoreOf (s : State) (l : Launch) : Nat := weightOf s l.queue * (s.mcycle - l.since)

/-- Whether one candidate comes before another (R312, log 64). -/
def ranksBefore (s : State) (a b : Launch) : Bool :=
  let k (l : Launch) : Nat × Nat := (if l.openCls then 1 else 0, 3 - prioOf s l.queue)
  let x := k a
  let y := k b
  decide (x.1 < y.1) || x.1 == y.1 && (decide (x.2 < y.2) || x.2 == y.2 &&
    (decide (scoreOf s b < scoreOf s a) || scoreOf s a == scoreOf s b && decide (a.queue < b.queue)))

/-- A candidate put in its place (log 64). -/
def insertRank (s : State) (x : Nat × Launch) : List (Nat × Launch) → List (Nat × Launch)
  | [] => [x]
  | y :: r => if ranksBefore s x.2 y.2 then x :: y :: r else y :: insertRank s x r

/-- Whether a launch waits to be put back: it is swapped out, of every Yard or of some with nothing more to save (R312, R323, log 69). -/
def waitsBack (l : Launch) : Bool := l.state == .swapped || l.state == .running && !l.swapDone.isEmpty

/-- The ready heads and swapped-out launches in the order of R312 (log 64). -/
def candidates (s : State) : List (Nat × Launch) :=
  (s.launches.filter (fun e => e.2.state == .ready || waitsBack e.2)).foldl (fun l x => insertRank s x l) []

/-- Whether a launch holds a place on Stables (R313, R317). -/
def placedState (l : Launch) : Bool :=
  match l.state with | .starting | .running | .swapping | .ending => true | _ => false

/-- The contexts of a launch under a placement. -/
def withPlace (l : Launch) (ys : List Nat) (m0 p0 : Nat) : Launch := { l with yards := ys, m0 := m0, p0 := p0 }

/-- The global Stables of a launch under its placement. -/
def launchStables (l : Launch) : List Nat := (List.range (stableCount l)).map (stableOfLocal l)

/-- Whether the contexts of a launch on its kernel-local Yard i hold no slots: it is not placed, or swapped out of that Yard (R323). -/
def outYard (l : Launch) (i : Nat) : Bool := l.state != .running || l.swapDone.any (· == nth l.yards i 0)

/-- The kernel-local Stables of a launch that a placement gives new Stables (R323, R326). -/
def movingStables (l : Launch) : List Nat :=
  (List.range (stableCount l)).filter (fun j => outYard l (j / (shapeOf l).2.2.1 / (shapeOf l).2.1))

/-- The kernel-local Stalls of those Stables. -/
def movingStalls (l : Launch) : List Nat :=
  (List.range (stallCount l)).filter (fun k => (movingStables l).any (· == k / (shapeOf l).2.2.2))

/-- The Stables that a launch's contexts stand on: none of a Yard that it is swapped out of (R313, R325). -/
def heldStables (l : Launch) : List Nat := (launchStables l).filter (fun sb => !l.swapDone.any (· == sb / 16))

/-- The sets of k Yards in ascending order, as sorted lists (R315). -/
def yardSets : Nat → List Nat → List (List Nat)
  | 0, _ => [[]]
  | _ + 1, [] => []
  | k + 1, y :: r => (yardSets k r).map (y :: ·) ++ yardSets (k + 1) r

/-- Whether a Stable takes new launches: its Yard runs, no Stall of it is suspect, no repair drains it, and it has not left placement
(R393, R398, R400, log 99). -/
def stableOpen (s : State) (sb : Nat) : Bool :=
  (yardAt s (sb / 16)).status == .running && !(stableAt s sb).failed && !(stableAt s sb).draining && !arraysFailed s sb &&
    !(stallAt s (2 * sb)).suspect && !(stallAt s (2 * sb + 1)).suspect

/-- Whether a context slot and its service context are free; a replay leaves its slot free for placements (R391). -/
def slotFree (s : State) (c : Nat) : Bool :=
  ((ctxOf s c).status == .absent || replaying s c) && (ctxOf s (c + 1)).status == .absent

/-- The launch of the other class on a Stable, as any context of it shows. -/
def otherLaunch (s : State) (l : Launch) (sb : Nat) : Option Launch :=
  (s.launches.find? (fun e => e.2.openCls != l.openCls && placedState e.2 && (heldStables e.2).any (· == sb))).map (·.2)

/-- Where a class's tiles, scale registers and streams begin on a Stall (R24, R314, log 8). -/
def classBase (s : State) (openCls : Bool) : Nat × Nat × Nat :=
  let a := ioCsr s 0x871
  if openCls then (fld a 0 5, fld a 5 9, fld a 14 6) else (0, 0, 0)

/-- Whether two ranges of registers have none in common. -/
def apart (a n b m : Nat) : Bool := decide (n = 0 ∨ m = 0 ∨ a + n ≤ b ∨ b + m ≤ a)

/-- The semaphores that a launch has, or takes from its class's mask at its placement; those of a launch put back stay its own (R22, R314,
R326). -/
def semsFor (s : State) (l : Launch) : BitVec 64 :=
  if waitsBack l then l.semmask else lowestBits (partOf s l.openCls).sems (byteAt l.header 16)

/-- Whether what a launch would take on a Stable leaves nothing in common with what the launch of the other class has there: its registers
where they begin, its macros, extents, undo budget and semaphores (R22, R24, R228, R269, R314). -/
def besides (s : State) (l : Launch) (sb : Nat) (b : Launch) : Bool :=
  let f (i : Nat) : Nat := byteAt l.header i + byteAt b.header i
  let at0 := classBase s l.openCls
  let g := (ctxOf s (8 * sb + (if b.openCls then 2 else 0))).grant
  apart at0.1 (byteAt l.header 12) g.tileBase (byteAt b.header 12) && apart at0.2.1 (leAt l.header 14 2) g.kregBase (leAt b.header 14 2) &&
    apart at0.2.2 (byteAt l.header 13) g.streamBase (byteAt b.header 13) &&
    decide (byteAt l.header 18 &&& byteAt b.header 18 = 0 ∧ leAt l.header 22 2 + leAt b.header 22 2 ≤ 49152 ∧ semsFor s l &&& b.semmask = 0) &&
    (List.range 8).all (fun i => decide (f (24 + i) ≤ 64))

/-- Whether a context of a launch may stand on its Stall: failed macros in its mask only for a kernel that opts in (R401). -/
def macrosOk (s : State) (l : Launch) (g : Nat) : Bool :=
  (leAt l.header 6 2).testBit 1 || decide ((stallAt s g).failedMacros.toNat &&& byteAt l.header 18 = 0)

/-- Whether a launch of a class stands on a Stable (R313). -/
def classHeld (s : State) (l : Launch) (sb : Nat) : Bool :=
  s.launches.any (fun e => e.2.openCls == l.openCls && placedState e.2 && (heldStables e.2).any (· == sb))

/-- Whether a placement has its slots free and room for what it places of the launch: `l` as it is, `p` as it would stand (R313 to R315,
R326). -/
def roomFor (s : State) (l p : Launch) : Bool :=
  ((movingStables l).map (stableOfLocal p)).all (fun sb =>
      stableOpen s sb && !classHeld s l sb && (otherLaunch s l sb).elim true (besides s l sb)) &&
    ((movingStalls l).map (ctxOfLocal p)).all (fun c => slotFree s c && macrosOk s l (stallOf c)) && noTwice (launchStables p)

/-- Whether a placement leaves the Yards of a launch that still hold its contexts where they are (R323, R326, log 69). -/
def keepsPlace (l p : Launch) : Bool :=
  let stays := (List.range l.yards.length).filter (fun i => !outYard l i)
  stays.isEmpty || p.m0 == l.m0 && p.p0 == l.p0 && stays.all (fun i => nth p.yards i 6 == nth l.yards i 7)

/-- Whether an image is in use on a Stall: a launch of it has a context placed there, or is swapped out with it as its placement
(R317). -/
def imageInUse (s : State) (g : Nat) (r : Resident) : Bool :=
  s.launches.any (fun e => (placedState e.2 || e.2.state == .swapped) && e.2.openCls == r.cls && recImage e.2.record == r.addr &&
    recTag e.2.record == r.tag && (launchCtxs e.2).any (fun c => stallOf c == g))

/-- Whether an image is pinned (R317). -/
def imagePinned (s : State) (addr tag : Nat) : Bool := s.pinned.any (· == (addr, tag))

/-- The lowest bundle index from `a` on at which n bundles are free below `hi`, among images sorted by base (R317). -/
def gapFrom : List (Nat × Nat) → Nat → Nat → Nat → Option Nat
  | [], a, hi, n => if a + n ≤ hi then some a else none
  | (b, m) :: r, a, hi, n => if a + n ≤ b ∧ a + n ≤ hi then some a else gapFrom r (max a (b + m)) hi n

/-- Where an image of n bundles fits beside the images that stay. -/
def gapOf (images : List Resident) (lo hi n : Nat) : Option Nat := gapFrom (sortBy (·.1) (images.map (fun r => (r.base, r.len)))) lo hi n

/-- The first place found by removing images in order, none of them or more (R317): base and images that stay (log 63). -/
def fitRemoving : List Resident → List Resident → Nat → Nat → Nat → Option (Nat × List Resident)
  | [], images, lo, hi, n => (gapOf images lo hi n).map (fun b => (b, images))
  | r :: rs, images, lo, hi, n =>
    match gapOf images lo hi n with
    | some b => some (b, images)
    | none => fitRemoving rs (images.filter (· != r)) lo hi n

/-- The image of a launch where it is already on a Stall in its class's extent. -/
def standing (s : State) (l : Launch) (g : Nat) : Option Resident :=
  let p := partOf s l.openCls
  (stallAt s g).images.find? (fun r => r.cls == l.openCls && r.addr == recImage l.record && r.tag == recTag l.record &&
    decide (p.lo ≤ r.base ∧ r.base + r.len ≤ p.hi))

/-- Where a launch's code goes on a Stall, and the images that stay, where images that lie in the extent may go whatever their class; none
where only images in use or pinned are in the way (R317, log 63). -/
def codePlace (s : State) (l : Launch) (g : Nat) : Option (Nat × List Resident) :=
  let im := (stallAt s g).images
  match standing s l g with
  | some r => some (r.base, im)
  | none =>
    let p := partOf s l.openCls
    fitRemoving (sortBy (·.started) (im.filter (fun r =>
      decide (r.base < p.hi ∧ p.lo < r.base + r.len) && !imageInUse s g r && !imagePinned s r.addr r.tag))) im p.lo p.hi
      (leAt l.header 8 2)

/-- Whether the image of a launch is resident on its placement (R316). -/
def residentOn (s : State) (l : Launch) : Bool :=
  s.residents.any (fun r => r.1 == recImage l.record && r.2.1 == recTag l.record) && (launchCtxs l).all (fun c => (standing s l (stallOf c)).isSome)

/-- The placements of a launch's shape, in the order of R315. -/
def placements (l : Launch) : List Launch :=
  (yardSets (shapeOf l).1 (List.range 6)).flatMap (fun ys => (List.range 4).flatMap (fun m => (List.range 4).map (withPlace l ys m)))

/-- Whether a bounded launch's traffic fits the budget beside those placed (R321), and a sequence unit is free for it (R356). -/
def globalRoom (s : State) (n : Nat) (l : Launch) : Bool :=
  let others := s.launches.filter (fun e => e.1 != n && placedState e.2)
  (l.openCls || decide (leAt l.header 36 4 + (others.foldl (fun t e => if e.2.openCls then t else t + leAt e.2.header 36 4) 0) ≤ fld (ioCsr s 0x858) 0 13)) &&
    (l.desc.isEmpty || decide ((s.launches.filter (fun e => e.1 != n && (placedState e.2 || e.2.state == .swapped) && !e.2.desc.isEmpty)).length < 16))

/-- The placement a launch takes: the first on which its image is resident, else the first (R315, R317). -/
def findPlace (s : State) (n : Nat) (l : Launch) : Option Launch :=
  if !demandOk (partOf s l.openCls) l.header || !globalRoom s n l || semsFor s l &&& ~~~(partOf s l.openCls).sems != 0 then none
  else
    let ps := (placements l).filter (fun p =>
      keepsPlace l p && roomFor s l p && (launchCtxs p).all (fun c => (codePlace s p (stallOf c)).isSome))
    match ps.find? (residentOn s) with
    | some p => some p
    | none => ps.head?

/-- Bundles copied from device memory into a Stall's instruction store: the words read are corrected, and poisoned ones are poison in the copy
(R316, R383, R384). -/
def copyCode (s : State) (g src b n : Nat) : State :=
  let s := readWords s 0x18 0 64 [(devAddr src, 64 * n)]
  let bad := (marksIn s 0x18 0 64 (devAddr src) (64 * n)).filter (·.bad)
  let t := clearMarks { s with istore := writeBytes s.istore (g * 2 ^ 18 + 64 * b) (devRead s src (64 * n)) } 3 g 64 (64 * b) (64 * (b + n))
  bad.foldl (fun t m => poisonRange t 3 g 64 (64 * b + (m.unit * 64 + 8 * m.word - devAddr src)) 8) t

/-- When the image of a launch was last started, as the resident-image table has it (R317). -/
def startStamp (s : State) (l : Launch) : Nat :=
  ((s.residents.find? (fun r => r.1 == recImage l.record && r.2.1 == recTag l.record)).map (·.2.2)).getD s.mcycle

/-- The code of a launch loaded on one Stall, with the images that make room for it gone; a start, not a resume, dates the image (R316, R317,
R384, log 63). -/
def loadCode (s : State) (l : Launch) (start load : Bool) (g : Nat) : State :=
  match codePlace s l g with
  | none => s
  | some (base, keep) =>
    let at0 := if start then s.mcycle else ((standing s l g).map (·.started)).getD (startStamp s l)
    let r : Resident := { cls := l.openCls, addr := recImage l.record, tag := recTag l.record, base := base, len := leAt l.header 8 2, started := at0 }
    let s := modStall s g (fun t =>
      { t with images := keep.filter (fun x => !(x.cls == r.cls && x.addr == r.addr && x.tag == r.tag)) ++ [r] })
    if load then copyCode s g (recImage l.record + leAt l.header 56 4) base r.len else s

/-- The entry of a full resident-image table that a new image replaces: the oldest start among those neither in use nor pinned
(R317). -/
def oldestResident (s : State) : Option (Nat × Nat × Nat) :=
  (s.residents.filter (fun r => !imagePinned s r.1 r.2.1 && !s.launches.any (fun e => (placedState e.2 || e.2.state == .swapped) &&
      recImage e.2.record == r.1 && recTag e.2.record == r.2.1))).foldl
    (fun best r => match best with | some b => if r.2.2 < b.2.2 then some r else best | none => some r) none

/-- The image of a launch pinned or unpinned as its record asks (R317). -/
def pinImage (s : State) (l : Launch) : State :=
  let e := (recImage l.record, recTag l.record)
  let f := byteAt l.record 12
  let others := s.pinned.filter (· != e)
  if f.testBit 1 then { s with pinned := others ++ [e] } else if f.testBit 2 then { s with pinned := others } else s

/-- The image of a placed launch in the resident-image table, where a start dates it and pins or unpins it as its record asks; a table full of
images in use or pinned does not take it (R316, R317, log 63). -/
def noteImage (s : State) (l : Launch) (start : Bool) : State :=
  let a := recImage l.record
  let t := recTag l.record
  let s := if start then pinImage s l else s
  if s.residents.any (fun r => r.1 == a && r.2.1 == t) then
    if !start then s
    else { s with residents := s.residents.map (fun r => if r.1 = a ∧ r.2.1 = t then (a, t, s.mcycle) else r) }
  else if s.residents.length < 64 then { s with residents := s.residents ++ [(a, t, s.mcycle)] }
  else
    match oldestResident s with
    | some o => { s with residents := s.residents.filter (· != o) ++ [(a, t, s.mcycle)] }
    | none => s

/-- The grant of each context of a launch, its registers at the beginning of its class's partition (R22, R24, R98, R314, log 8). -/
def grantOf (s : State) (l : Launch) (base : Nat) : Grant :=
  let h := l.header
  let at0 := classBase s l.openCls
  { tileBase := at0.1, kregBase := at0.2.1, streamBase := at0.2.2, tiles := byteAt h 12, kregs := leAt h 14 2, streams := byteAt h 13, macros := BitVec.ofNat 8 (byteAt h 18), loops := byteAt h 17,
    taps := BitVec.ofNat 8 (byteAt h 19), sems := lowestBits (partOf s l.openCls).sems (byteAt h 16), codeBase := base, codeLen := leAt h 8 2,
    entry := leAt h 10 2, segbudget := leAt h 22 2 }

/-- The base at which a launch's image stands on a Stall (log 8). -/
def baseOn (s : State) (l : Launch) (g : Nat) : Nat := ((standing s l g).map (·.base)).getD 0

/-- The streams a context finds loaded (R25, R241). -/
def placedStreams (l : Launch) (granted : Nat) : Map WReg :=
  (l.streams.filter placedEntry).foldl (fun m w =>
    let r := fld (nth w 11 0) 0 5
    if r < granted then mput m r (resetPos (wregOf w)) else m) []

/-- A context as its launch places it (R25): what a slot's taps hold from an earlier launch stays, for firmware need not load it again,
but their crossings and scores are cleared (R308, log 102). -/
def placedCtx (s : State) (l : Launch) (n k c : Nat) : Ctx :=
  let g := grantOf s l (baseOn s l (stallOf c))
  { ctxInit with
    status := .placed, launch := n, k := k, grant := g, pc := g.entry, deadline := classDeadline s c,
    sregs := (List.range 8).foldl (fun m i => mset m (i + 1) (BitVec.ofNat 64 (leAt l.record (64 + 8 * i) 8)) 0) [],
    wregs := placedStreams l g.streams,
    taps := (ctxOf s c).taps.map (fun e => (e.1, { e.2 with cross := 0, stamp := 0, score := [] })), raised := (ctxOf s c).raised }

/-- A Stable's granted extents read as zero and its granted semaphores are 0 (R25). -/
def clearStable (s : State) (l : Launch) (sems : BitVec 64) (sb : Nat) : State :=
  let s := (List.range 8).foldl (fun s b =>
    let e := extent l b
    { s with round := mclear s.round (roundKey sb b e.1) e.2, marks := s.marks.filter (fun m =>
        !(m.struct == 0x0B && m.owner == sb && decide (m.unit / 512 = b ∧ e.1 ≤ m.unit % 512 * 512 ∧ m.unit % 512 * 512 < e.1 + e.2))) }) s
  modStable s sb (fun t => { t with sems := t.sems.filter (fun x => !bit sems x.1) })

/-- The replays on a Stable. -/
def replaysOn (s : State) (sb : Nat) : List Nat := (s.rel.captures.filterMap (fun e => e.2.run)).filter (fun c => stableOf c == sb)

/-- The replays on the Stables that a placement needs are dropped (R391). -/
def dropReplays (s : State) (l p : Launch) : State :=
  ((movingStables l).flatMap (fun j => replaysOn s (stableOfLocal p j))).foldl (fun s c => endRun s c none) s

/-- A launch given a placement, for its start or a resume: its code loaded where it is not resident, in the resident-image table, its place
recorded (R315 to R317, log 63). -/
def takePlace (s : State) (n : Nat) (p : Launch) (start : Bool) : State :=
  let s := dropReplays s (launchAt s n) p
  let load := !residentOn s p
  let s := ((movingStalls (launchAt s n)).map (fun k => stallOf (ctxOfLocal p k))).foldl (fun s g => loadCode s p start load g) s
  modLaunch (noteImage s p start) n (fun l => { l with yards := p.yards, m0 := p.m0, p0 := p.p0 })

/-- Whether a structure's words belong to a context: its rows, scale registers, snapshot, undo log and macros (R405). -/
def ctxStruct (n : Nat) : Bool := [1, 2, 5, 6, 8, 9, 0x0A].any (· == n)

/-- The owner of damaged words while they lie in a launch's save area: a context's, and a Stable's (R384, log 71). -/
def savedOwner (n k : Nat) : Nat := 2 ^ 20 + n * 2 ^ 10 + k
/-- The same for Stables (log 71). -/
def savedStable (n j : Nat) : Nat := 2 ^ 40 + n * 2 ^ 10 + j

/-- Damaged words of a kind handed from one owner to another (log 71). -/
def moveMarks (s : State) (kind : Nat → Bool) (a b : Nat) : State :=
  { s with marks := s.marks.map (fun m => if kind m.struct ∧ m.owner = a then { m with owner := b } else m) }

/-- A ready head placed: its contexts hold their slots and grants, and it is starting (R318). -/
def startPlaced (s : State) (n : Nat) (p : Launch) : State :=
  let s := takePlace s n p true
  let s := (launchStables p).foldl (fun s sb => clearStable s p (lowestBits (partOf s p.openCls).sems (byteAt p.header 16)) sb) s
  let s := (List.range (stallCount p)).foldl (fun s k => 
    let c := ctxOfLocal p k
    { uncacheCtx s c with ctxs := mput s.ctxs c (placedCtx s p n k c), marks := s.marks.filter (fun m => !(ctxStruct m.struct && m.owner == c)) }) s
  modLaunch s n (fun l => { l with state := .starting, semmask := lowestBits (partOf s p.openCls).sems (byteAt p.header 16) })

/-- Word `i` of the save area's block of kernel-local Stall k (R327). -/
def savedWord (s : State) (l : Launch) (k off : Nat) : Word := BitVec.ofNat 64 (devLe s (recSave l.record + 1310720 * k + off) 8)

/-- The tag of a tile as its pair block holds it. -/
def savedTag (s : State) (l : Launch) (k t : Nat) : BitVec 32 := (savedWord s l k (0x24000 + 33792 * t + 32768)).truncate 32

/-- The records of a context's replay buffer and kept data as its block holds them, with those that had no room there (R326, R327, log 20). -/
def savedRecords (s : State) (l : Launch) (k : Nat) (x : Ctx) : List (List Nat) :=
  readRecords replayLength ((List.range replayLength).map (fun i => savedWord s l k (0xC000 + 8 * i))) ++
    (fitRecords replayLength (replayRecords x)).2

/-- A context restored from its block, with what the block does not give kept from the freeze (R326, R327, log 70). -/
def restoreBlock (s : State) (l : Launch) (k : Nat) (x : Ctx) : Ctx :=
  let rs := savedRecords s l k x
  let x := (blockOffsets.filter (fun off => unusedBits off != BitVec.allOnes 64)).foldl (fun x off => putLayoutWord x off (savedWord s l k off)) { x with flight := [] }
  let x := { x with spare := blockOffsets.filterMap (fun off =>
    let v := if unusedBits off = 0 then 0 else savedWord s l k off &&& unusedBits off
    if v = 0 then none else some (off, v)) }
  let x := putRecords x rs
  (List.range 24).foldl (fun x t => { x with tags := mset x.tags t (savedTag s l k t &&& tagMask) 0 }) x

/-- Whether the copy in the pair block of each bound tile agrees with the restored register (R326). -/
def pairsOk (s : State) (l : Launch) (k : Nat) (x : Ctx) : Bool :=
  (List.range x.grant.tiles).all (fun t =>
    !bit (tagOf x t) 31 || (List.range 17).all (fun i => savedWord s l k (0x24000 + 33792 * t + 32776 + 8 * i) == kregWord (tagReg x t) i))

/-- What in flight names places of the module, moved from an old placement to a new one (R315, R324). -/
def moveEff (old new : Launch) (c : Nat) (e : Eff) : Eff :=
  match e with
  | .packet p =>
    .packet { p with sender := c, stable := ((List.range (stableCount old)).find? (fun j => stableOfLocal old j == p.stable)).elim p.stable (stableOfLocal new) }
  | e => e

/-- A context of a swapped launch put back in a slot at its frozen context cycle, its macros' checksums in the form that the Stall keeps them in
(R326, R401, log 70, log 132). -/
def resumeCtx (s : State) (old new : Launch) (n k : Nat) (x : Ctx) : State :=
  let c := ctxOfLocal new k
  let y := restoreBlock s new k x
  let g := grantOf s new (baseOn s new (stallOf c))
  let y : Ctx := { y with grant := { g with sems := y.grant.sems }, launch := n, frozen := false, seenYard := yardNow s c, landedNow := false, ranAt := 0, undo := [], charge := 0,
                          segRewound := false, segEntry := y.pc, flight := y.flight.map (fun f => { f with eff := moveEff old new c f.eff }) }
  let y : Ctx := { y with snap := some (snapshotOf s c y), raised := (ctxOf s c).raised }
  let s := { uncacheCtx s c with ctxs := mput s.ctxs c y }
  moveMarks (modCtx s c (reformMacros (fun _ => false) (nibbled s c))) ctxStruct (savedOwner n k) c

/-- A Stable's extents and semaphores restored (R327). -/
def restoreStable (s : State) (n : Nat) (l : Launch) (sems : BitVec 64) (j : Nat) : State :=
  let sb := stableOfLocal l j
  let a := recSave l.record + 1310720 * stallCount l + 2101248 * j
  let s := (List.range 8).foldl (fun s b =>
    let e := extent l b
    { s with round := writeBytes s.round (roundKey sb b e.1) (devRead s (a + b * 2 ^ 18 + e.1) e.2) }) (clearStable s l sems sb)
  modStable (moveMarks s (· == 0x0B) (savedStable n j) sb) sb (fun t =>
    { t with sems := ((List.range 64).filter (bit sems)).foldl (fun m i => mset m i (BitVec.ofNat 32 (devLe s (a + 2 ^ 21 + 4 * i) 4)) 0) t.sems })

/-- The trains and bay uses of the resumed contexts on their new Stalls. -/
def restoreTraffic (s : State) (l : Launch) : State :=
  let s := l.savedTrains.foldl (fun s e => let c := ctxOfLocal l e.1; modStable s (stableOf c) (fun t => { t with trains := t.trains ++ [{ e.2 with ctx := c }] })) s
  l.savedUses.foldl (fun s e => let c := ctxOfLocal l e.1; modStable s (stableOf c) (fun t => { t with uses := t.uses ++ [{ e.2 with ctx := c }] })) s

/-- csr.mxwin of a Stable at a placement on it: code 0 for a bounded launch, and for an open one where no primary context is placed there (R25,
R40, log 128). -/
def writeWindow (s : State) (l : Launch) (sb : Nat) : State :=
  if l.openCls ∧ primaryPlaced s sb then s else putMxwin s sb 0

/-- A swapped-out launch placed and resumed: state restored, pair blocks checked, contexts run on, or fault 0x12 ends it (R326, log 128). -/
def resumePlaced (s : State) (n : Nat) (p : Launch) : State :=
  let old := launchAt s n
  let s := takePlace s n p false
  let s := (movingStables old).foldl (fun s j => writeWindow (restoreStable s n p old.semmask j) p (stableOfLocal p j)) s
  let s := restoreTraffic s (launchAt s n)
  let s := old.saved.foldl (fun s e => resumeCtx s old p n e.1 e.2) s
  let s := modLaunch s n (fun l => { l with state := .running, saved := [], savedTrains := [], savedUses := [], swapAsked := [], swapDone := [] })
  match (old.saved.map (·.1)).find? (fun k => !pairsOk s p k (ctxOf s (ctxOfLocal p k))) with
  | some k => faultAt s (ctxOfLocal p k) 0x12 0 0
  | none => s

/-- The decision itself over the candidates in order: `starved` once a starved open head stands ahead (R312). -/
def decidePlace (s : State) : List (Nat × Launch) → Bool → State
  | [], _ => s
  | (n, l) :: r, starved =>
    let skip := l.openCls && starved
    match if skip then none else findPlace s n l with
    | some p => advanceQueues (if waitsBack l then resumePlaced s n p else startPlaced s n p)
    | none => decidePlace s r (starved || l.openCls && decide ((ioCsr s 0x870).toNat < scoreOf s l))

/-- Whether a launch stands on a Stable (R313). -/
def launchOn (s : State) (sb : Nat) : Bool := s.launches.any (fun e => placedState e.2 && (heldStables e.2).any (· == sb))

/-- The Stable that a replay of a capture of Stall `g` takes: the first in ascending order that runs, holds no launch and no replay, has
room for the code, and differs from those of the runs before (R391, R393, log 134). -/
def replayStable (s : State) (g : Nat) (k : Capture) (l : Launch) : Option Nat :=
  (List.range 96).find? (fun sb =>
    (yardAt s (sb / 16)).status == .running && !(stableAt s sb).draining && !launchOn s sb && (replaysOn s sb).isEmpty && sb != g / 2 &&
      k.runs.all (fun r => r.1 / 2 != sb) && (codePlace s l (2 * sb + g % 2)).isSome)

/-- What a context's snapshot holds on its Stable's lanes and bays, put on another's (R391). -/
def replayTraffic (s : State) (x : Ctx) (c : Nat) : State :=
  match x.snap with
  | none => s
  | some n =>
    modStable s (stableOf c) (fun t =>
      { t with trains := t.trains ++ n.trains.map (fun e => { e with ctx := c }), uses := t.uses ++ n.uses.map (fun e => { e with ctx := c }) })

/-- A replay started on a Stable: the extents and the code put there, and the entry state in the original's slot of the same-numbered Stall
(R390, R391, R401, log 134, log 57). -/
def startReplay (s : State) (g : Nat) (k : Capture) (l : Launch) (x : Ctx) (sb : Nat) : State :=
  let h := 2 * sb + g % 2
  let c := 4 * h + 2 * slotOf k.ctx
  let n := freeLaunch s
  let l := { l with state := .ended, gen := none }
  let s := loadCode (uncacheCtx { s with launches := mput s.launches n l } c) l false (standing s l h).isNone h
  let s := k.rounds.foldl (fun s r => roundWrite s sb r.1 (extent l r.1).1 r.2 (fullMask r.2.length)) s
  let s := replayTraffic { s with ctxs := mput s.ctxs c (replayCtx s k x n c (baseOn s l h)) } x c
  let s := modCtx s c (reformMacros (fun _ => false) (nibbled s c))
  { s with rel := { s.rel with captures := mput s.rel.captures g { k with run := some c } } }

/-- The replays that find a Stable in a placement decision start (R389, R391, R393). -/
def startReplays (s : State) : State :=
  (s.rel.captures.map (·.1)).foldl
    (fun s g =>
      match mfind s.rel.captures g with
      | none => s
      | some k =>
        match k.sig, k.launch, k.start, k.run, k.ended with
        | some _, some l, some x, none, none =>
          if inWindow s g k then (replayStable s g k l).elim s (startReplay s g k l x) else s
        | _, _, _, _, _ => s) s

/-- One placement decision, and the replays that it starts (R312, R391). -/
def placementDecision (s : State) : State := let s := advanceQueues s; startReplays (decidePlace s (candidates s) false)

/-- PLACEMENT_DECISION: every 16 reference periods the Yardmaster chooses a candidate and places it (R312). -/
def execPlacementDecision (s : State) : Host.Outcome State Fault Refusal := .next (placementDecision s)

end Sys2Proof.Machine
end

