-- ==== Sys2Proof/Machine/Launch.lean ====
section
/-!
DEFINITION. A launch from its start to its end: data images, taps, commit 0, the first bundles, swapping out, queue commands and
completion (R25, R40, R99, R147, R265, R308, R318, R321, R323 to R327, R333, R334, R339, R361 to R363).
-/

namespace Sys2Proof.Machine

/-- A data image's bytes that lie in a launch's extent written into a Stable's round (R99, log 65). -/
def writeRoundImage (s : State) (l : Launch) (t : Tensor) (off : Nat) (data : List Byte) (sb : Nat) : State :=
  let e := extent l t.bay
  let a := t.off + off
  let mask := (List.range data.length).map (fun i => if e.1 ≤ a + i ∧ a + i < e.1 + e.2 then 255#8 else 0#8)
  roundWrite s sb t.bay a data mask

/-- A launch's data images applied: round tensors on every Stable, device and host tensors through their tile tables; false where a
tile is not resident (R99, log 65). -/
def applyImages (s : State) (l : Launch) : List (Nat × Nat × List Byte) → State × Bool
  | [] => (s, true)
  | (tid, off, data) :: r =>
    match tensorOf l tid with
    | none => applyImages s l r
    | some t =>
      if t.kind = 0 then applyImages ((launchStables l).foldl (fun s sb => writeRoundImage s l t off data sb) s) l r
      else if (piecesOf off data.length).all (fun p => tileState s t p.1 == 1) then
        applyImages (tensorWrite s t off data (fullMask data.length)) l r
      else (s, false)

/-- The service contexts of the contexts that own taps entered with request code 1 (R308, log 102). -/
def loadTaps (s : State) (n : Nat) : State :=
  let l := launchAt s n
  let cs := if byteAt l.header 19 = 0 then [] else launchCtxs l
  cs.foldl (fun s c => enterService s c 0x02 0 1) (modLaunch s n (fun l => { l with taploads := cs }))

/-- A starting launch made ready for its first bundles: data images, the sequence unit with commit 0, and its taps; a data image's tile that is not
resident raises fault 0x11, with which the launch ends before any bundle (R99, R308, R353, R363, log 65). -/
def prepare (s : State) (n : Nat) : State :=
  let l := launchAt s n
  let r := applyImages s l l.images
  let s := modLaunch r.1 n (fun l => { l with prepared := true })
  if r.2 then loadTaps (startUnit s n) n
  else
    let c := ctxOfLocal l 0
    postFault s (raisedAt s c 0x11 0 0 (ctxOf s c).pc 0)

/-- The register writes of commit 0 in every popping context before its cycle 0 (R25, R363). -/
def writeCommit0 (s : State) (n : Nat) : State :=
  let l := launchAt s n
  (commitSinks l).foldl (fun s b =>
    match mget l.fifoData b.1 [] with
    | v :: _ => (commitEffs l v.toNat).foldl (fun s e => landEff s (ctxOfLocal l b.2) { due := 0, slot := 1, ord := 0, pc := 0, eff := e }) s
    | [] => s) s

/-- The first bundles issue from the next Yard cycle on, at context cycle 0; the array windows of its Stables return to
code 0 (R25, R40, R318, log 128). -/
def goLaunch (s : State) (n : Nat) : State :=
  let l := launchAt s n
  let s := writeCommit0 s n
  let s := (launchStables l).foldl (fun s sb => writeWindow s l sb) s
  let s := (launchCtxs l).foldl (fun s c => modCtx s c (fun x => { x with status := .running, seenYard := yardNow s c })) s
  modLaunch s n (fun l => { l with state := .running })

/-- Whether nothing keeps a prepared launch from starting: a tap's load, its sequence unit, a fault of one of its contexts (R99, R353). -/
def mayGo (s : State) (n : Nat) : Bool :=
  let l := launchAt s n
  l.state == .starting && l.prepared && l.taploads.isEmpty && l.gen.elim true (fun g => g.opened && g.reading.isNone && g.commits.isEmpty) &&
    (launchCtxs l).all (fun c => (ctxOf s c).status == .placed)

/-- The start of a launch: prepared at first, gone on with while a tap's load or snapshot 0 keeps it, then run (R318). -/
def runStart (s : State) (n : Nat) : State :=
  if (launchAt s n).state ≠ .starting then s
  else
    let s := if (launchAt s n).prepared then deliverCommits 16 (snapReads 64 (openUnit s n) n) n else prepare s n
    if mayGo s n then goLaunch s n else s

/-- LAUNCH_RUN_START: with code present, contexts are set up, data images and taps loaded, and entry bundles issue (R318). -/
def execLaunchRunStart (l : Nat) (s : State) : Host.Outcome State Fault Refusal := .next (runStart s l)

/-- A context's slot cleared: its lane uses and reservations are gone, and its cached tiles; trains whose operation was given up run out, a fault
not yet delivered stays, and the slot's taps stay as they were loaded (R25, R231, R247, R308, R354, log 102, log 136). -/
def clearSlot (s : State) (c : Nat) : State :=
  let s := modStable (uncacheCtx s c) (stableOf c) (fun t =>
    { t with trains := t.trains.filter (fun x => x.ctx != c || x.out), uses := t.uses.filter (fun x => x.ctx != c),
             reserves := t.reserves.filter (fun x => x.ctx != c) })
  modCtx s c (fun x => { ctxInit with taps := x.taps, raised := x.raised })

/-- Whether every access a context issued has performed and every station job it triggered has ended (R147, R325). -/
def settled (s : State) (c : Nat) : Bool :=
  (ctxOf s c).ops.all (fun o => o.performed) && (stableAt s (stableOf c)).jobs.all (fun j => j.ctx != c)

/-- The pins that a launch's swapped-out contexts still hold, released (R339). -/
def releaseSaved (s : State) (l : Launch) : State :=
  l.saved.foldl (fun s e => e.2.pins.foldl (fun s p => setPins s p.1 p.2 (entPins (entryWord s p.1 p.2 0) - 1)) s) s

/-- The end of a launch: once every write of its contexts has performed and its sequence unit is done, its pins are released, its slots
freed, and it completes (R265, R318, R334, R339, R361). -/
def completeLaunch (s : State) (n : Nat) : State :=
  if (launchAt s n).state ≠ .ending ∨ (launchHeld s n).all (settled s) = false then s
  else
    let s := finishUnit 65 s n
    if !unitDone (launchAt s n) then s
    else
      let s := (launchHeld s n).foldl (fun s c => clearSlot (releasePins s c) c) (releaseSaved s (launchAt s n))
      let s := { s with marks := s.marks.filter (fun m => !(m.owner / 2 ^ 10 == savedOwner n 0 / 2 ^ 10 || m.owner / 2 ^ 10 == savedStable n 0 / 2 ^ 10)) }
      advanceQueues (retire s n)

/-- LAUNCH_COMPLETION: when all writes have performed, completion entry, token and message are produced (R318, R334). -/
def execLaunchCompletion (l : Nat) (s : State) : Host.Outcome State Fault Refusal := .next (completeLaunch s l)

/-- The launch of a queue with a sequence, among those a command may act on. -/
def namedLaunch (s : State) (q seq : Nat) (f : Launch → Bool) : Option Nat :=
  (s.launches.find? (fun e => e.2.queue == q && e.2.seq == seq && f e.2)).map (·.1)

/-- Whether a context is held on a fault that resume lets it run on from, the fault's handling having started (R333, R353). -/
def resumable (s : State) (c : Nat) : Bool :=
  match (ctxOf s c).status with
  | .held 0x07 | .held 0x22 => !heldFor s c
  | _ => false

/-- Resume: held contexts run on at the held bundle, or at the bundle after a TRAP (R333). -/
def queueResume (s : State) (q seq : Nat) : State :=
  match namedLaunch s q seq (fun l => l.state == .running) with
  | none => s
  | some n => ((launchHeld s n).filter (resumable s)).foldl (fun s c => modCtx s c (fun x => { unhold x with seenYard := yardNow s c })) s

/-- End: a running or swapped launch goes to ending with status 4 (R333). -/
def queueEnd (s : State) (q seq : Nat) : State :=
  match namedLaunch s q seq (fun l => l.state == .running || l.state == .swapping || l.state == .swapped) with
  | none => s
  | some n => endLaunch s n 4 0 0 0 0

/-- Cancel: a launch that is queued, head or ready ends with status 3 (R333). -/
def queueCancel (s : State) (q seq : Nat) : State :=
  match namedLaunch s q seq waiting with
  | none => s
  | some n => advanceQueues (retireWith s n 3 0)

/-- A queue command (R333). -/
def queueCommand (s : State) (q seq cmd : Nat) : State :=
  match cmd with | 1 => queueResume s q seq | 2 => queueEnd s q seq | 3 => queueCancel s q seq | _ => s

/-- The control block of a queue looked at after a write: a new cmdseq makes its command act once (R333). -/
def controlBlock (s : State) (q : Nat) : State :=
  let a := queueBase s q + 20480
  let n := devLe s (a + 8) 2
  if n = mget s.lastCmd q 0 then s else queueCommand { s with lastCmd := mset s.lastCmd q n 0 } q (devLe s a 2) (devLe s (a + 2) 1)

/-- QUEUE_RESUME: The queue control command resumes a held context (R333). -/
def execQueueResume (q seq : Nat) (s : State) : Host.Outcome State Fault Refusal := .next (queueResume s q seq)

/-- QUEUE_END: The queue control command ends a running or swapped launch (R333). -/
def execQueueEnd (q seq : Nat) (s : State) : Host.Outcome State Fault Refusal := .next (queueEnd s q seq)

/-- QUEUE_CANCEL: The queue control command cancels a queued, head or ready launch (R333). -/
def execQueueCancel (q seq : Nat) (s : State) : Host.Outcome State Fault Refusal := .next (queueCancel s q seq)

/-- The contexts of a launch on one Yard. -/
def heldOn (s : State) (n yard : Nat) : List Nat := (launchHeld s n).filter (fun c => yardOf c == yard)

/-- A swap-out begins on a Yard: every context of the launch there freezes in one Yard cycle; an open launch without a save area is
never swapped out (R323, R325, log 69). -/
def swapFreeze (s : State) (n yard : Nat) : State :=
  let l := launchAt s n
  if (l.state = .running ∨ l.state = .swapping) ∧ recSave l.record ≠ 0 ∧ l.yards.any (· == yard) ∧ l.swapDone.all (· != yard) then
    let s := (heldOn s n yard).foldl (fun s c => modCtx (dropCapture s c) c (fun x => { x with frozen := true })) s
    modLaunch s n (fun l =>
      { l with state := .swapping, since := if l.state = .running then s.mcycle else l.since,
               swapAsked := if l.swapAsked.any (· == yard) then l.swapAsked else yard :: l.swapAsked })
  else s

/-- A launch swapped out of every Yard it stands on (log 69). -/
def swapAll (s : State) (n : Nat) : State := (launchAt s n).yards.foldl (fun s y => swapFreeze s n y) s

/-- Whether a context may be saved: frozen, its handler returned, no fault of it yet to be delivered, its accesses performed or held for its
segment's commit, its jobs ended (R325 step 2). -/
def mayCommit (s : State) (c : Nat) : Bool :=
  let x := ctxOf s c
  x.frozen && !x.inSvc && x.status != .rewound && x.raised.isEmpty && x.ops.all (boardDone s c) && (stableAt s (stableOf c)).jobs.all (fun j => j.ctx != c)

/-- The current segment of a frozen context committed, once (R325 step 3). -/
def commitFrozen (s : State) (c : Nat) : State :=
  if (ctxOf s c).snap.isSome then modCtx (commitSegment s c) c (fun x => { x with snap := none }) else s

/-- A context's block and state saved, and its slot freed; trains whose operation was given up stay behind, and checksums
are saved as those of whole weights (R325 step 4, R327, R401, log 132). -/
def saveCtx (s : State) (n c : Nat) : State :=
  let x := reformMacros (nibbled s c) (fun _ => false) (ctxOf s c)
  let a := recSave (launchAt s n).record + 1310720 * x.k
  let s := blockOffsets.foldl (fun s off => devPut s (a + off) (savedBytes x off)) s
  let s := devPut s (a + 0xC000) ((replayWords x).flatMap (fun w => leBytes 8 w.toNat))
  let t := stableAt s (stableOf c)
  let s := modLaunch s n (fun l =>
    { l with saved := mput l.saved x.k x, savedTrains := l.savedTrains ++ (t.trains.filter (fun e => e.ctx == c && !e.out)).map (fun e => (x.k, e)),
             savedUses := l.savedUses ++ (t.uses.filter (fun e => e.ctx == c)).map (fun e => (x.k, e)) })
  clearSlot (moveMarks s ctxStruct c (savedOwner n x.k)) c

/-- A Stable's block saved: the granted extents at their bay offsets, then the granted semaphores, each at the place of its number (R327,
log 20). -/
def saveStable (s : State) (n j : Nat) : State :=
  let l := launchAt s n
  let sb := stableOfLocal l j
  let a := recSave l.record + 1310720 * stallCount l + 2101248 * j
  let s := (List.range 8).foldl (fun s b => let e := extent l b; devPut s (a + b * 2 ^ 18 + e.1) (roundRead s sb b e.1 e.2)) s
  let s := moveMarks s (· == 0x0B) sb (savedStable n j)
  ((List.range 64).filter (bit l.semmask)).foldl (fun s i => devPut s (a + 2 ^ 21 + 4 * i) (leBytes 4 (mget (stableAt s sb).sems i 0).toNat)) s

/-- Whether a Stable still has packets or signals of a launch to perform. -/
def stableQuiet (s : State) (sems : BitVec 64) (sb : Nat) : Bool :=
  let t := stableAt s sb
  t.packets.isEmpty && t.writes.isEmpty && !t.signals.any (fun g => bit sems g.sem)

/-- Whether what a swap-out waits for is over on every Yard that it takes: segments committed, accesses and jobs done, packets and signals
performed (R325, log 69). -/
def swapQuiet (s : State) (n : Nat) : Bool :=
  let l := launchAt s n
  (l.swapAsked.filter (fun y => l.swapDone.all (· != y))).all (fun y =>
    (heldOn s n y).all (fun c => (ctxOf s c).snap.isNone && settled s c) &&
      ((launchStables l).filter (fun sb => sb / 16 == y)).all (stableQuiet s l.semmask))

/-- A swap-out's save on one Yard: it waits for what R325 names, commits each context's segment, saves state and frees the slots; with the last
of its Yards the launch is swapped out, and with the last of those asked for the rest of it runs on (R318, R323, R325, log 69). -/
def swapSave (s : State) (n yard : Nat) : State :=
  let l := launchAt s n
  let cs := heldOn s n yard
  if l.state ≠ .swapping ∨ l.swapAsked.all (· != yard) ∨ l.swapDone.any (· == yard) ∨ cs.all (mayCommit s) = false then s
  else
    let s := cs.foldl commitFrozen s
    let js := (List.range (stableCount l)).filter (fun j => stableOfLocal l j / 16 == yard)
    if swapQuiet s n then
      let s := js.foldl (fun s j => saveStable s n j) s
      let s := cs.foldl (fun s c => saveCtx s n c) s
      modLaunch s n (fun l =>
        let done := yard :: l.swapDone
        { l with swapDone := done, state := if l.yards.all (fun y => done.any (· == y)) then .swapped
                                    else if l.swapAsked.all (fun y => done.any (· == y)) then .running else .swapping })
    else s

/-- SWAP_OUT: All contexts of a launch on a Yard freeze together for a swap-out (R323, R325, log 69). -/
def execSwapOut (l yard : Nat) (s : State) : Host.Outcome State Fault Refusal := .next (swapFreeze s l yard)

/-- SWAP_OUT_SAVE: Once accesses and jobs have drained, the segments commit and state goes to the save area (R325, R327). -/
def execSwapOutSave (l yard : Nat) (s : State) : Host.Outcome State Fault Refusal := .next (swapSave s l yard)

/-- A launch's DRAM meter starts a new window (R321, log 105). -/
def meterWindow (s : State) (n : Nat) : State := modLaunch s n (fun l => { l with traffic := 0 })

/-- DRAM_METER_WINDOW: A new window of 1,024 cycles begins for a bounded launch's traffic count (R321). -/
def execDramMeterWindow (l : Nat) (s : State) : Host.Outcome State Fault Refusal := .next (meterWindow s l)

end Sys2Proof.Machine
end

