-- ==== Sys2Proof/Machine/Requant.lean ====
section
/-!
DEFINITION. The requantisation engine: its job records, what each job does to a tile, and its end (R340 to R344, R404, R406, R409).
-/

namespace Sys2Proof.Machine

/-- The tensor whose table a job names, as a live launch binds it; where none does, a host tensor where the entry says lost, which only a
host tile is, else an unframed device tensor whose format no rule gives: E4M3 or E5M2, a free choice. A framed entry is then absent, for no rule
says that an unbound table's tensor is framed (R336, R337, R340, log 1, log 79). -/
def jobTensor (s : State) (table i : Nat) : Tensor :=
  match (s.launches.flatMap (·.2.tensors)).find? (fun t => t.kind != 0 && t.table == table) with
  | some t => t
  | none =>
    { id := 0, kind := if entState (entryWord s table i 0) = 3 then 2 else 1, fmt := if Sys2Proof.Config.freeBool s.fresh then 0x11 else 0x12, bay := 0, flags := 0, len := 0, off := 0,
      tiles := 0, table := table }

/-- A tile's entry written with new fields, its pins kept (R336, R340). -/
def writeEntry (s : State) (table i st enc frame scales : Nat) : State :=
  let w0 := entryWord s table i 0
  let w1 := entryWord s table i 1
  putEntry s table i (BitVec.ofNat 64 (frame / 32768 * 32768 + entPins w0 * 16 + enc * 4 + st))
    (BitVec.ofNat 64 (scales / 2048 * 2048 + entLen w1))

/-- The 65,536 elements of a tile of encoding 0; a dead tile reads as zeros (R338, R341). -/
def tileElems (s : State) (t : Tensor) (i : Nat) : List Byte :=
  if tileState s t i = 2 then List.replicate 65536 0 else devRead s (entFrame (entryWord s t.table i 0)) 65536

/-- A tile's elements written in compact form, block by block (R341, R342). -/
def writeCompact (s : State) (fmt frame scales : Nat) (b : List Byte) : State :=
  (List.range 2048).foldl (fun s k =>
    putBlock s frame scales k ((List.range 32).map (fun j => decodeElem fmt (nth b (32 * k + j) 0).toNat))) s

/-- The blocks of 32 elements of a tile whose source words are poisoned: their words at the destination are poison too. `src` and `dst` give a
block's byte ranges (R384, log 142). -/
def poisonBlocks (s t : State) (src dst : Nat → List (Nat × Nat)) : State :=
  if s.marks.isEmpty then t
  else
    ((List.range 2048).filter (fun k => (src k).any (fun r => (poisonIn s 0x18 0 64 (devAddr r.1) r.2).isSome))).foldl
      (fun t k => (dst k).foldl (fun t r => poisonRange t 0x18 0 64 (devAddr r.1) r.2) t) t

/-- The bytes of a block of a tile of encoding 0, and of a compact one with its scale (R341). -/
def plainBlock (frame k : Nat) : List (Nat × Nat) := [(frame + 32 * k, 32)]
/-- The bytes of a block of a compact tile: its nibbles and its scale (R341). -/
def packedBlock (frame scales k : Nat) : List (Nat × Nat) := [(frame + 16 * k, 16), (scales + k, 1)]

/-- Compact: encoding 1 at the half-frame and scale slot (R340 to R342, log 79). -/
def jobCompact (s : State) (t : Tensor) (i a b : Nat) : State × Nat :=
  let st := tileState s t i
  let w0 := entryWord s t.table i 0
  if (st ≠ 1 ∧ st ≠ 2) ∨ entEnc w0 ≠ 0 then (s, 2)
  else if !requantisable s t.table then (s, 4)
  else if a % 2048 ≠ 0 ∨ b % 32768 ≠ 0 then (s, 5)
  else
    let bytes := tileElems s t i
    if bytes.any (fun x => notFinite (decodeElem t.fmt x.toNat)) then (s, 3)
    else
      let u := writeCompact s t.fmt b a bytes
      let u := if st = 2 then u else poisonBlocks s u (plainBlock (entFrame w0)) (packedBlock b a)
      (writeEntry u t.table i st 1 b a, 0)

/-- Expand: encoding 0 at a new frame, with the values of the view (R340, R343, log 79). -/
def jobExpand (s : State) (t : Tensor) (i a : Nat) : State × Nat :=
  let st := tileState s t i
  let w0 := entryWord s t.table i 0
  if (st ≠ 1 ∧ st ≠ 2) ∨ entEnc w0 ≠ 1 then (s, 2)
  else if a % 65536 ≠ 0 then (s, 5)
  else
    let b := if st = 2 then List.replicate 65536 0 else compactRead s t.fmt (entFrame w0) (entScales (entryWord s t.table i 1)) 0 65536
    let u := devPut s a b
    let u := if st = 2 then u else poisonBlocks s u (packedBlock (entFrame w0) (entScales (entryWord s t.table i 1))) (plainBlock a)
    (writeEntry u t.table i st 0 a 0, 0)

/-- The bytes that a tile's frame holds: a link frame's, 32 KiB of compact codes, or 64 KiB (R246, R336). -/
def frameBytes (t : Tensor) (w0 w1 : Word) : Nat := if entEnc w0 = 1 then 32768 else if framed t then 64 * entLen w1 else 65536

/-- Damaged words of device memory, or of the host-line cache, copied with the bytes that hold them (R384). -/
def copyMarks (s : State) (struct a b n : Nat) : State :=
  let moved := (marksIn s struct 0 64 a n).map (fun m =>
    let p := m.unit * 64 + 8 * m.word + b - a
    ({ m with unit := p / 64, word := p % 64 / 8 } : Mark))
  { s with marks := s.marks ++ moved }

/-- Move: the frame's contents copied to a new frame (R340). -/
def jobMove (s : State) (t : Tensor) (i a : Nat) : State × Nat :=
  let st := tileState s t i
  let w0 := entryWord s t.table i 0
  let w1 := entryWord s t.table i 1
  if st ≠ 1 ∧ st ≠ 2 then (s, 2)
  else if a % (if entEnc w0 = 1 then 32768 else 65536) ≠ 0 then (s, 5)
  else
    let n := frameBytes t w0 w1
    let s := memWrite s t a (memRead s t (entFrame w0) n) (List.replicate n 255)
    let s := if t.kind = 2 then copyMarks s 0x19 (entFrame w0) a n else copyMarks s 0x18 (devAddr (entFrame w0)) (devAddr a) n
    (writeEntry s t.table i st (entEnc w0) a (entScales w1), 0)

/-- Make absent: an unpinned tile's state becomes 0 (R339, R340). -/
def jobAbsent (s : State) (t : Tensor) (i : Nat) : State × Nat :=
  let st := tileState s t i
  let w0 := entryWord s t.table i 0
  if st = 0 then (s, 2)
  else if entPins w0 ≠ 0 then (s, 1)
  else (putEntry s t.table i (setField w0 0 2 0) (entryWord s t.table i 1), 0)

/-- Make resident: encoding 0 at a frame whose contents stand (R340). -/
def jobResident (s : State) (t : Tensor) (i a : Nat) : State × Nat :=
  let st := tileState s t i
  if st ≠ 0 ∧ st ≠ 3 then (s, 2)
  else if a % 65536 ≠ 0 then (s, 5)
  else (writeEntry s t.table i 1 0 a 0, 0)

/-- The service-action record of a tile compacted or expanded (R404, R406). -/
def tileRecord (s : State) (kind table tile op code : Nat) : State :=
  putRecord s (recordFor s 6 0 (7, 0, 0, 0) 0 kind (tile % 65536) 0 0 0)
    (BitVec.ofNat 128 (table % 2 ^ 64 + 2 ^ 64 * (tile + 2 ^ 32 * op + 2 ^ 40 * code)))

/-- The op of the job in hand; 0 where there is none, or its op is none of R340's. -/
def jobOp (s : State) : Nat := match s.rqJob with | some r => (let op := devLe s (r + 12) 1; if op ≤ 5 then op else 0) | none => 0

/-- The words of the tile that a job reads: wrong bits are corrected, uncorrectable words become poison and are recorded (R383, R384, log
142). -/
def readSource (s : State) (t : Tensor) (i op : Nat) : State :=
  let w0 := entryWord s t.table i 0
  let w1 := entryWord s t.table i 1
  if 3 < op ∨ tileState s t i ≠ 1 then s
  else if t.kind = 2 then readWords s 0x19 0 64 [(entFrame w0, frameBytes t w0 w1)]
  else readWords s 0x18 0 64 ((devAddr (entFrame w0), frameBytes t w0 w1) :: (if entEnc w0 = 1 then [(devAddr (entScales w1), 2048)] else []))

/-- A requantisation job that may go on: it reads its source, does its operation, records a compaction or an expansion, and holds its result
code until the request ends (R337, R340, R383, R408). -/
def performJob (s : State) (t : Tensor) (op table i a b : Nat) : State :=
  let s := readSource s t i op
  let p := match op with
    | 1 => jobCompact s t i a b
    | 2 => jobExpand s t i a
    | 3 => jobMove s t i a
    | 4 => jobAbsent s t i
    | _ => jobResident s t i a
  let s := if p.2 = 0 ∧ op ≤ 2 then tileRecord p.1 (op + 1) table i op 0 else p.1
  { s with rqDone := some p.2, fresh := s.fresh + 1 }

/-- The job in hand carried out where its op is the one named; it waits where the host holds its tile's memory, in its place in that memory's port
queue (R340, R347, R349, log 79). -/
def runJob (s : State) (op : Nat) : State :=
  match s.rqJob with
  | none => s
  | some r =>
    if s.rqDone.isSome ∨ op = 0 ∨ devLe s (r + 12) 1 ≠ op then s
    else if devLe s (r + 13) 3 ≠ 0 then { s with rqDone := some 6 }
    else
      let table := devLe s r 8
      let i := devLe s (r + 8) 4
      let a := devLe s (r + 16) 8
      let t := jobTensor s table i
      let w0 := entryWord s table i 0
      let old := if t.kind = 2 ∨ op = 5 ∨ (tileState s t i ≠ 1 ∧ tileState s t i ≠ 2) then [] else [(entFrame w0, frameBytes t w0 (entryWord s table i 1))]
      let new := match op with
        | 1 => [(devLe s (r + 24) 8, 32768), (a, 2048)]
        | 2 => [(a, 65536)]
        | 3 => if t.kind = 2 then [] else [(a, frameBytes t w0 (entryWord s table i 1))]
        | 5 => if t.kind = 2 then [] else [(a, 65536)]
        | _ => []
      match deviceGate s old false .job, deviceGate s new (decide (op < 5)) .job with
      | some s, _ => s
      | none, some s => s
      | none, none => performJob s t op table i a (devLe s (r + 24) 8)

/-- The job ends: its result is in csr.rqjob, and event 2 is set (R340, R409, R412). The result of a job whose op is none of R340's is not
stated (log 1), but that a reserved field gives 6. -/
def endJobRecord (s : State) : State :=
  match s.rqJob, s.rqDone with
  | some _, some code => postEvent { s with rqJob := none, rqDone := none, rqResult := code } 2
  | some r, none =>
    if 1 ≤ devLe s (r + 12) 1 ∧ devLe s (r + 12) 1 ≤ 5 then s
    else if devLe s (r + 13) 3 ≠ 0 then postEvent { s with rqJob := none, rqResult := 6 } 2
    else postEvent { s with rqJob := none, rqResult := Sys2Proof.Config.freeNat s.fresh % 256, fresh := s.fresh + 1 } 2
  | none, _ => s

/-- RQ_COMPACT: a tile is encoded in compact form (R340 to R342). -/
def execRqCompact (s : State) : Host.Outcome State Fault Refusal := .next (runJob s 1)

/-- RQ_EXPAND: a compact tile is written out in its storage format (R340, R343). -/
def execRqExpand (s : State) : Host.Outcome State Fault Refusal := .next (runJob s 2)

/-- RQ_MOVE: a tile's contents move to another frame (R340). -/
def execRqMove (s : State) : Host.Outcome State Fault Refusal := .next (runJob s 3)

/-- RQ_MAKE_ABSENT: an unpinned tile becomes absent (R340). -/
def execRqMakeAbsent (s : State) : Host.Outcome State Fault Refusal := .next (runJob s 4)

/-- RQ_MAKE_RESIDENT: an absent or lost tile becomes resident at a frame (R340). -/
def execRqMakeResident (s : State) : Host.Outcome State Fault Refusal := .next (runJob s 5)

/-- RQ_JOB_END: a job's result is written and event 2 set (R340, R409). -/
def execRqJobEnd (s : State) : Host.Outcome State Fault Refusal := .next (endJobRecord s)

end Sys2Proof.Machine
end

