-- ==== Sys2Proof/Machine/HostPort.lean ====
section
/-!
DEFINITION. What the host does at the memory port: requests and their flips, write-backs, the flush, the warm restart, and the command
region (R264, R266, R303, R304, R333, R340, R345 to R352).
-/

namespace Sys2Proof.Machine

/-- The end of the HDM range that the host sees (R345, R412). -/
def hdmEnd (s : State) : Nat := 2 ^ 39 - fld (ioCsr s 0x813) 0 5 * 2 ^ 30

/-- Whether the link carries host requests (R350, log 82). -/
def hostLinked (s : State) : Bool := s.cxl.link == .linked || s.cxl.link == .flushing

/-- A launch between the starting and ended states (R318, R340). -/
def launchLive (l : Launch) : Bool :=
  match l.state with | .starting | .running | .swapping | .swapped | .ending => true | _ => false

/-- Whether a byte of device memory belongs to a tile table that a live launch binds (R340). -/
def inBoundTable (s : State) (a : Nat) : Bool :=
  s.launches.any (fun e => launchLive e.2 && e.2.tensors.any (fun t =>
    t.kind != 0 && decide (t.table ≤ a ∧ a < t.table + 64 + 16 * t.tiles)))

/-- A host write to plain device memory: bytes of bound tables keep their contents, and such a write is counted; of a write that lies only partly
in a table no rule says more, and here its other bytes are written (R340, log 141). -/
def writePlain (s : State) (a : Nat) (data : List Byte) : State :=
  let held := (List.range data.length).map (fun i => inBoundTable s (a + i))
  if held.any id then
    setIo (devWrite s a data (held.map (fun b => if b then 0#8 else 255#8))) 0x843 (ioCsr s 0x843 + 1)
  else devPut s a data

/-- Whether an address lies in the command region once the queues are open (R303). -/
def inCommand (s : State) (a : Nat) : Bool :=
  let b := (ioCsr s 0x811).toNat
  s.sec.boot == .opened && decide (b ≤ a ∧ a < b + 524288)

/-- A host write within one line of the command region: a record slot, whose bytes 192 to 255 make the queue be tested; a control
block; the rest is ignored (R303, R304, R333). -/
def writeCommand (s : State) (a : Nat) (data : List Byte) : State :=
  let off := a - (ioCsr s 0x811).toNat
  let q := off / 32768
  let o := off % 32768
  if o < 16384 then
    let s := devPut s a data
    if 192 < o % 256 + data.length then postQueue s q else s
  else if 20480 ≤ o ∧ o < 20544 then controlBlock (devPut s a data) q
  else s

/-- A host write accepted at the port, within one line (R264). -/
def acceptWrite (s : State) (a : Nat) (data : List Byte) : State :=
  if inCommand s a then writeCommand s a data else writePlain s a data

/-- Whether an access of a context touches bytes of a region of device memory (R266). -/
def touchesRegion (s : State) (c : Nat) (o : OffOp) (w : Word) : Bool :=
  (deviceRanges s (opRanges s c o)).any (fun r => r.2 != 0 && decide (devAddr r.1 < regBase w + regSize w ∧ regBase w < devAddr r.1 + r.2))

/-- The accesses of a context that stand at the port up to its last one to a region (log 129). -/
def portOps (s : State) (c : Nat) (w : Word) : List OffOp :=
  let l := (ctxOf s c).ops.filter (fun o => !o.performed && (o.q == .device || o.q == .station))
  (l.reverse.dropWhile (fun o => !touchesRegion s c o w)).reverse

/-- Before the host is answered, every device access to a region that was at the port performs (R266, R347, R349, log 129). -/
def drainRegion (s : State) (i : Nat) : State :=
  s.ctxs.foldl (fun s e =>
    (portOps s e.1 (region s i)).foldl (fun s o => if plainKind o.kind then performOp s e.1 o.id else completeToken s e.1 o.id) s) s

/-- The region that a host request to a line would flip from the device, whole or for that line (R347, R348). -/
def flipsAway (s : State) (line : Nat) : Option Nat :=
  match regionAt s (64 * line) with
  | some i =>
    if (flipOn s i line).isNone && (regState (region s i) == 0 || regState (region s i) == 3 && lineState s line == 0) then some i else none
  | none => none

/-- A host request at the port, after the device accesses ahead of it. -/
def portGate (s : State) (line : Nat) (own : Bool) (w : PortWait) : State × Bool :=
  let s := match flipsAway s line with | some i => drainRegion s i | none => s
  hostGate s line own w

/-- One line of a host write: it waits behind a flip, or behind a host write that waits, or is accepted and completed (R264, R347, R349). -/
def hostWriteLine (s : State) (a : Nat) (data : List Byte) : State :=
  match writeFlip s with
  | some f => waitBehind s f (.write a data)
  | none =>
    let g := portGate s (a / 64) true (.write a data)
    if g.2 then emitOut (acceptWrite g.1 a data) (.writeDone a) else g.1

/-- One line of a host read: it waits behind a flip, or is answered with the bytes as they stand, single-bit errors corrected and
uncorrectable words recorded (R264,
R347, R383). -/
def hostReadLine (s : State) (a n : Nat) (excl : Bool) : State :=
  let g := portGate s (a / 64) excl (.read a n excl)
  if g.2 then
    let s := readWords g.1 0x18 0 64 [(devAddr a, n)]
    emitOut s (.readData a (devRead s a n))
  else g.1

/-- A byte range cut at lines: address and length of each part (log 82). -/
def linePieces : Nat → Nat → Nat → List (Nat × Nat)
  | 0, _, _ => []
  | fuel + 1, a, n => if n = 0 then [] else let k := min n (64 - a % 64); (a, k) :: linePieces fuel (a + k) (n - k)

/-- The parts of a range of `n` bytes at `a`, line by line. -/
def partsOf (a n : Nat) : List (Nat × Nat) := linePieces (n / 64 + 2) a n

/-- A write of any length as requests for its lines in ascending order (log 82). -/
def eachLine (f : State → Nat → List Byte → State) (s : State) (a : Nat) (data : List Byte) : State :=
  (partsOf a data.length).foldl (fun s p => f s p.1 ((data.drop (p.1 - a)).take p.2)) s

/-- HOST_WRITE: a host write to device memory, accepted at the port and completed (R264); the link must carry it (R350). -/
def execHostWrite (addr : Nat) (data : List Byte) (s : State) : Host.Outcome State Fault Refusal :=
  if addr + data.length ≤ hdmEnd s then .next (if hostLinked s then eachLine hostWriteLine s addr data else s) else .fault .noSuchAddress

/-- HOST_READ: a host read answered with the last writes performed before the port answers (R264). -/
def execHostRead (addr len : Nat) (excl : Bool) (s : State) : Host.Outcome State Fault Refusal :=
  if addr + len ≤ hdmEnd s then
    .next (if hostLinked s then (partsOf addr len).foldl (fun s p => hostReadLine s p.1 p.2 excl) s else s)
  else .fault .noSuchAddress

/-- HOST_MEMWR: a line that the host held modified is written back and performs at dram scope (R349). -/
def execHostMemwr (addr : Nat) (data : List Byte) (s : State) : Host.Outcome State Fault Refusal :=
  if addr + data.length ≤ hdmEnd s then .next (if hostLinked s then eachLine acceptWrite s addr data else s) else .fault .noSuchAddress

/-- A sequence unit goes on with the access that waited: its opening, a record, a read of its snapshot, or its next element (R347, R349). -/
def retryUnit (s : State) (l : Nat) : State :=
  match (launchAt s l).gen with
  | none => s
  | some g =>
    if !g.opened then openUnit s l
    else if !g.records.isEmpty then writeRecord s l
    else if g.reading.isSome then snapReads 1 s l
    else acceptToken s l

/-- Something that waited behind a flip comes to the port again (R347, R349). -/
def retryWait (s : State) (w : PortWait) : State :=
  match w with
  | .unit l => retryUnit s l
  | .job => runJob s (jobOp s)
  | .device c id =>
    (match opOf s c id with
     | some o => if plainKind o.kind then performOp s c id else completeToken s c id
     | none => s)
  | .write a data => hostWriteLine s a data
  | .read a n excl => hostReadLine s a n excl

/-- The answer to a flush goes out once nothing is left to snoop back (R350). -/
def answerFlush (s : State) : State :=
  if s.cxl.link = .flushing ∧ s.cxl.flips.isEmpty = true then emitOut s .flushed else s

/-- Every line of a region's oldest flip has answered: the flip ends and what waited behind it goes on in its order (R347 to R349). -/
def endFlipOf (s : State) (region : Nat) : State :=
  match s.cxl.flips.find? (fun f => f.region == region) with
  | none => s
  | some f => answerFlush (f.waiting.foldl retryWait (endFlip s f))

/-- BIRSP: the host has answered every snoop of a flip towards the device (R347, R349). -/
def execBirsp (region : Nat) (s : State) : Host.Outcome State Fault Refusal := .next (endFlipOf s region)

/-- A region, or a line of it, snooped back with nothing waiting for it. -/
def snoopBack (s : State) (i : Nat) (line : Option Nat) : State :=
  if s.cxl.flips.any (fun f => f.region == i && f.line == line) then s
  else
    let s := emitOut s (match line with | some l => .bisnp (64 * l) 1 | none => .bisnp (regBase (region s i)) (regSize (region s i) / 64))
    modCxl s (fun x => { x with flips := x.flips ++ [{ region := i, line := line, waiting := [] }] })

/-- GPF phase 1: modified host lines written back, host-held regions and lines snooped back, and the flush answered after them (R345,
R350). -/
def flushAll (s : State) : State :=
  if s.cxl.link ≠ .linked then s
  else
    let s := (s.cxl.cache.map (·.1)).foldl writeBack s
    let s := (s.cxl.regions.filter (fun e => regValid e.2 && (regState e.2 == 1 || regState e.2 == 2))).foldl (fun s e => snoopBack s e.1 none) s
    let s := s.cxl.directory.foldl (fun s e => match regionAt s (64 * e.1) with | some i => snoopBack s i (some e.1) | none => s) s
    answerFlush (modCxl s (fun x => { x with link := .flushing }))

/-- GPF_PHASE1: global persistent flush (R345, R350). -/
def execGpfPhase1 (s : State) : Host.Outcome State Fault Refusal := .next (flushAll s)

/-- The lines of device memory that the host still holds: host-owned and shared-read regions whole, and host-held contested lines (R350, R352,
log 80). -/
def heldLines (s : State) : List Nat :=
  (s.cxl.regions.filter (fun e => regValid e.2 && (regState e.2 == 1 || regState e.2 == 2))).flatMap (fun e =>
    (List.range (regSize e.2 / 64)).map (fun i => regBase e.2 / 64 + i)) ++
    s.cxl.directory.map (·.1)

/-- Every access to host memory that has not performed (R350). -/
def hostPending (s : State) : List (Nat × OffOp) :=
  s.ctxs.flatMap (fun e => (e.2.ops.filter (fun o => !o.performed && toHost s e.1 o)).map (fun o => (e.1, o)))

/-- Every access to host memory that has not performed dropped, the lines of each Stall's writes listed together (R350, R352, log 47). -/
def dropHostOps (s : State) : State :=
  let es := hostPending s
  let stalls := ((es.filter (fun e => writesMem e.2)).map (fun e => stallOf e.1)).eraseDups
  let lines (g : Nat) : List Nat :=
    ((es.filter (fun e => writesMem e.2 && stallOf e.1 == g)).flatMap (fun e => lostLines s e.1 e.2)).eraseDups
  let s := (sortBy id stalls).foldl (fun s g => reportLines s (lines g) 3 g) s
  es.foldl (fun s e => endDropped s e.1 e.2) s

/-- What the host loses: its accesses are dropped and listed, its lines listed as lost, and the tiles of the regions it held leave the
tile-translation caches (R247, R351, R352, log 47, log 80). -/
def loseHost (s : State) : State :=
  let s := dropHostOps s
  let s := reportLines s (s.cxl.cache.map (·.1)) 1 255
  let s := reportLines s (heldLines s) 2 255
  let s := (s.cxl.regions.filter (fun e => regState e.2 != 0)).foldl (fun s e => uncache s (regBase e.2) (regBase e.2 + regSize e.2)) s
  { s with marks := s.marks.filter (fun m => m.struct != 0x19) }

/-- The host is gone: what it held is lost, and every region returns to the device (R350). -/
def beginRestart (s : State) : State :=
  if hostLinked s = false then s
  else
    modCxl (loseHost s) (fun x =>
      { x with regions := x.regions.map (fun e => (e.1, if regState e.2 = 0 then e.2 else setField (setField e.2 4 2 0) 0 3 0)), directory := [], active := [], flips := [],
               cache := [], link := .restarting })

/-- HOST_HOT_RESET: a hot reset begins a warm restart (R350). -/
def execHostHotReset (s : State) : Host.Outcome State Fault Refusal := .next (beginRestart s)

/-- HOST_LINK_DOWN: a surprise link-down begins a warm restart (R350). -/
def execHostLinkDown (s : State) : Host.Outcome State Fault Refusal := .next (beginRestart s)

/-- A range of device memory zeroed. -/
def devZero (s : State) (a n : Nat) : State :=
  let s := clearMarks s 0x18 0 64 a (a + n)
  { s with dev := mclear s.dev a n }

/-- Every tile of a host tensor's table becomes lost (R336, R350). -/
def loseTiles (s : State) (t : Tensor) : State :=
  if t.kind = 2 then
    (List.range t.tiles).foldl (fun s i => putEntry s t.table i (setField (entryWord s t.table i 0) 0 2 3) (entryWord s t.table i 1)) s
  else s

/-- A launch that ran or stood swapped at the restart: its host tiles are lost, and its end goes to the service log (R350, R351, log 81). -/
def sweepLaunch (s : State) (n : Nat) : State :=
  modLaunch ((launchAt s n).tensors.foldl loseTiles s) n (fun l => { l with silent := true })

/-- A launch cancelled with its queue: its token fails and it leaves the machine (R351). -/
def dropWaiting (s : State) (n : Nat) : State :=
  let s := setToken s (leAt (launchAt s n).record 24 2) 2
  { s with launches := mdel s.launches n }

/-- A queue reset: its slots, ring and control block are zero and it expects sequence 1 (R351, log 81). -/
def resetQueue (s : State) (q : Nat) : State :=
  let s := devZero s (queueBase s q) 20544
  { s with expected := mput s.expected q 1, lastCmd := mdel s.lastCmd q }

/-- The sweep of a warm restart (R350, R351, log 81). -/
def sweepTables (s : State) : State :=
  if s.cxl.link ≠ .restarting then s
  else
    let s := ((s.launches.filter (fun e => waiting e.2)).map (·.1)).foldl dropWaiting s
    let s := (s.launches.map (·.1)).foldl sweepLaunch s
    let s := if s.sec.boot = .opened then (List.range 16).foldl resetQueue s else s
    modCxl s (fun x => { x with link := .retraining })

/-- TABLE_SWEEP: tiles of host tensors are lost and the launch queues are reset (R350, R351). -/
def execTableSweep (s : State) : Host.Outcome State Fault Refusal := .next (sweepTables s)

/-- The link is up again; host accesses issued while it was down are dropped, for they never perform now (R266, R350, log 47). -/
def linkAgain (s : State) : State :=
  if s.cxl.link = .retraining then modCxl (dropHostOps s) (fun x => { x with link := .linked }) else s

/-- LINK_RETRAINED: the link is up again and host requests are accepted (R350). -/
def execLinkRetrained (s : State) : Host.Outcome State Fault Refusal := .next (linkAgain s)

end Sys2Proof.Machine
end

