-- ==== Sys2Proof/Machine/Strikes.lean ====
section
/-!
DEFINITION. Errors that reach storage, links and results from outside the instruction stream (R221, R234, R383, R384, R405): what a
strike at a structure leaves, link retries, scrubbing, and the ageing of the sieves (R394, R395).
-/

namespace Sys2Proof.Machine

/-- A strike as a mark: one wrong bit of 72 with its syndrome, or more with the syndrome it names where that is an uncorrectable one, else
0x7F (R383, R407). -/
def asMark (m : Mark) : Mark :=
  if m.bad then { m with bit := 0, synd := if secDecode (BitVec.ofNat 8 m.synd) = .uncorrectable then m.synd % 256 else 0x7F }
  else { m with bit := m.bit % 72, synd := bitSynd (m.bit % 72) }

/-- A word with a wrong bit struck again: the same bit makes it good, another makes it uncorrectable with the syndrome of both; a third is
taken as uncorrectable too (R383, R407, log 131). -/
def struckAgain (x m : Mark) : Option Mark :=
  if x.bad then some (if m.bad then x else { x with synd := 0x7F })
  else if m.bad then some m
  else if x.bit = m.bit then none
  else some { x with bad := true, bit := 0, synd := (x.synd ^^^ m.synd) % 256 }

/-- A wrong bit or more added to a word (R383, R407). -/
def addMark (s : State) (k : Mark) : State :=
  let m := asMark k
  match s.marks.find? (fun x => sameWord x m) with
  | none => { s with marks := s.marks ++ [m] }
  | some x => { s with marks := s.marks.filter (fun y => !sameWord y m) ++ (struckAgain x m).toList }

/-- A macro's bank, 0 the active one, changed. -/
def modBank (x : Macro) (bank : Nat) (f : Bank → Bank) : Macro :=
  if bank = 0 then { x with active := f x.active } else { x with shadow := f x.shadow }

/-- A bit of a bank row in weights mode flips; its checksum column shows it at the next CCHK (R221, R226, log 59). -/
def strikeBank (s : State) (m : Mark) : State :=
  modCtx s m.owner (fun x => modMacro x (m.unit / 512 % 8) (fun y => modBank y (m.unit / 256 % 2) (fun b =>
    { b with rows := mset b.rows (m.unit % 256) (mget b.rows (m.unit % 256) 0 ^^^ BitVec.ofNat 512 (2 ^ (64 * m.word + m.bit))) 0 })))

/-- A bit of a row of a scratch bank flips, and the row's parity shows an odd number of them (R234). -/
def strikeScratch (s : State) (m : Mark) : State :=
  let r := m.unit % 256
  modCtx (strikeBank s m) m.owner (fun x => modMacro x (m.unit / 512 % 8) (fun y => modBank y (m.unit / 256 % 2) (fun b =>
    { b with badRows := if b.badRows.any (· == r) then b.badRows.filter (· != r) else r :: b.badRows })))

/-- A bit of a CIM accumulator flips, and its parity shows an odd number of them; `word` is its block (R223, R383). -/
def strikeAcc (s : State) (m : Mark) : State :=
  let k := 64 * m.word + m.unit % 64
  let s := modCtx s m.owner (fun x => modMacro x (m.unit / 64 % 8) (fun y =>
    { y with acc := mput y.acc k (BitVec.ofInt 32 (mget y.acc k 0) ^^^ BitVec.ofNat 32 (2 ^ (m.bit % 32))).toInt }))
  if s.marks.any (fun x => sameWord x m) then { s with marks := s.marks.filter (fun x => !sameWord x m) }
  else { s with marks := s.marks ++ [{ m with bad := true, bit := 0, synd := 1 }] }

/-- Whether a strike at the undo log falls on bytes that hold no records: a record written there later makes them whole (R285, R384, log 101). -/
def offLog (s : State) (m : Mark) : Bool := m.struct == 6 && decide ((ctxOf s m.owner).charge ≤ 512 * m.unit + 8 * m.word)

/-- The flight of a kind that falls due first (log 88). -/
def earliest (fs : List Flight) (kind : Eff → Bool) : Option Flight :=
  (sortBy (fun f => f.due) (fs.filter (fun f => kind f.eff))).head?

/-- A matrix result fails its residue check: it does not land, and the fault waits for the first bundle at or after its landing
(R383, R384, log 88). -/
def strikeArray (s : State) (m : Mark) : State :=
  let isMma (e : Eff) : Bool := match e with | .mma _ _ _ _ _ _ => true | _ => false
  match earliest (ctxOf s m.owner).flight isMma with
  | none => s
  | some f =>
    modCtx s m.owner (fun x =>
      { x with flight := x.flight.filter (fun g => g != f),
               late := x.late ++ [{ code := 0x30, cycle := f.due + 1, slot := f.slot, info := errInfo 0x0C (m.unit % 16) 0xFFF 0, at0 := 0, pc0 := 0,
                                    count := 0, synd := 0 }] })

/-- The launches that need a word of the I/O die's own structures end with fault 0x31 (R383): the launch that the mark names (log 72). -/
def strikeDie (s : State) (m : Mark) : State :=
  let k := asMark m
  let bit (n : Nat) : Nat := if m.struct = 0x1A then n else 0xFFF
  if !m.bad then corrected s (7, 0, 0, 0) m.struct (markRow m) (bit (correctedBit { k with word := 0 })) k.synd 0
  else
    match launchHeld s m.owner with
    | c :: _ => postFault s (raisedAt s c 0x31 (errInfo m.struct (markRow m) (bit 0) k.synd) 0xFF (ctxOf s c).pc (ctxOf s c).ccycle)
    | [] => endLaunch s m.owner 1 0x31 0 0 0

/-- Whether a strike at the host-line cache falls on a line that it does not hold (R345). -/
def offCache (s : State) (m : Mark) : Bool := m.struct == 0x19 && !s.cxl.cache.any (fun e => e.1 == m.unit)

/-- What an error that strikes a structure leaves (R383, R405, log 101). -/
def strike (s : State) (m : Mark) : State :=
  match m.struct with
  | 0x08 => strikeBank s m
  | 0x09 => strikeScratch s m
  | 0x0A => strikeAcc s m
  | 0x0C => strikeArray s m
  | 0x1A | 0x1C | 0x1D => strikeDie s m
  | _ => if offLog s m || offCache s m then s else addMark s m

/-- The strikes that are due in this module cycle take effect (log 101). -/
def takeStrikes (s : State) : State :=
  let due := s.strikes.filter (fun e => decide (e.1 ≤ s.mcycle))
  if due.isEmpty then s
  else due.foldl (fun s e => strike s e.2) { s with strikes := s.strikes.filter (fun e => !decide (e.1 ≤ s.mcycle)) }

/-- One scrub pass: every line of LPDDR6 is read, single bits are corrected and written back, and each line found uncorrectable is
poisoned and recorded (R383, R408). -/
def scrubPass (s : State) : State :=
  let s := correctAll s (fun m => m.struct == 0x18)
  let bad := s.marks.filter (fun m => m.struct == 0x18 && m.bad)
  let s := findBad s (fun m => m.struct == 0x18) false
  (bad.map (·.unit)).eraseDups.foldl (fun s line => (bad.find? (fun m => m.unit == line)).elim s (poisonRecord s)) s

/-- The end of an ageing interval: every sieve is cleared, and tracked rows whose count did not rise are freed (R394, R395). -/
def ageSieves (s : State) : State :=
  { s with rel := { s.rel with sieve := [], tracked := (s.rel.tracked.filter (·.rose)).map (fun e => { e with rose := false }) } }

/-- The first REDS packet that the contexts of a Stable have on its way, damaged (R383, log 87). -/
def damagePacket (s : State) (sb : Nat) : State :=
  let isPacket (e : Eff) : Bool := match e with | .packet _ => true | _ => false
  let hit := [8 * sb, 8 * sb + 2, 8 * sb + 4, 8 * sb + 6].findSome? (fun c => (earliest (ctxOf s c).flight isPacket).map (fun f => (c, f)))
  match hit with
  | none => s
  | some (c, f) =>
    modCtx s c (fun x => { x with flight := x.flight.map (fun g =>
      if g = f then (match g.eff with | .packet p => { g with eff := .packet { p with poison := true } } | _ => g) else g) })

/-- The place of a link among the record fields: a Stable of the mesh network, or a Yard (R403, R405). -/
def linkPlace (struct owner : Nat) : Nat × Nat × Nat × Nat := if struct = 0x0D then (owner / 16, owner % 16, 0, 0) else (owner, 0, 0, 0)

/-- SCRUB_PASS: the I/O die has read every line once (R383). -/
def execScrubPass (s : State) : Host.Outcome State Fault Refusal := .next (scrubPass s)

/-- SIEVE_AGEING: the sieves are cleared and quiet rows freed (R394, R395). -/
def execSieveAgeing (s : State) : Host.Outcome State Fault Refusal := .next (ageSieves s)

end Sys2Proof.Machine
end

