-- ==== Sys2Proof/Machine/Yard.lean ====
section
/-!
DEFINITION. A Yard's clock and the order of a Yard cycle: which pulses are swallowed (R9, R18, R271 to R273), what opens a cycle,
and the writes, signals and packets that end it (R143, R190, R211, R212).
-/

namespace Sys2Proof.Machine

/-- A free choice of the model, with the counter advanced (log 1, log 100). -/
def draw (s : State) : Bool × State := (Config.freeBool s.fresh, { s with fresh := s.fresh + 1 })

/-- Whether the clock floor lets a pulse of this reference period be swallowed: the last 1,023 periods gave at least F cycles
(R271); with a failed array F counts as at most 512 (R400, log 19, log 100). -/
def floorAllows (y : Yard) : Bool :=
  let h := y.history.take 1023
  decide ((if y.doubled then min 512 y.floor else y.floor) ≤ (h.filter id).length + (1023 - h.length))

/-- One reference period of a ramp: whether it takes its pulse now, and the ramp after it (R272, log 18). -/
def stepRamp (r : Nat × Nat × Bool) (now : Bool) : Bool × (Nat × Nat × Bool) :=
  let last := r.2.1 % r.1 == 1 % r.1
  let take := !r.2.2 && (now || last)
  (take, (r.1, r.2.1 - 1, if last then false else r.2.2 || take))

/-- The ramps of a Yard over one reference period; ramps whose pulses fall in one period lose one pulse between them (log 18). -/
def stepRamps (y : Yard) (now : Bool) : Bool × List (Nat × Nat × Bool) :=
  let rs := y.ramps.map (fun r => stepRamp r now)
  (rs.any (·.1), (rs.map (·.2)).filter (fun r => r.2.1 != 0))

/-- One reference period of a Yard's clock: pulses owed come first, then the ramps, then throttling, which is a free choice; what
the floor forbids is owed for later, throttling excepted (R271 to R273, log 18, log 19, log 100). -/
def pulse (s : State) (n : Nat) : Bool × State :=
  let a := draw s
  let b := draw a.2
  let y := yardAt s n
  let r := stepRamps y a.1
  let allowed := floorAllows y
  let want := y.owed != 0 || r.1
  let swallow := allowed && (want || b.1)
  let owed := y.owed + (if r.1 then 1 else 0) - (if swallow && want then 1 else 0)
  (!swallow, modYard b.2 n (fun y =>
    { y with ramps := r.2, owed := owed, history := (!swallow) :: y.history.take 1022,
             ycycle := if swallow then y.ycycle else y.ycycle + 1, yslip := if swallow then y.yslip + 1 else y.yslip }))

/-- The Stables of a Yard. -/
def yardStables (n : Nat) : List Nat := (List.range 16).map (fun i => 16 * n + i)

/-- The context keys of a class on a Yard, ascending by Stall, each with its service context after it. -/
def yardCtxs (n slot : Nat) : List Nat := (List.range 32).flatMap (fun i => [128 * n + 4 * i + 2 * slot, 128 * n + 4 * i + 2 * slot + 1])

/-- Whether a context has something to do in a Yard cycle. -/
def active (s : State) (c : Nat) : Bool := runnable (ctxOf s c)

/-- An array that has had no MMA in the 512 cycles before, and no hint in force, becomes cold with its ramp-down (R272, R273). -/
def coolArray (s : State) (sb : Nat) : State :=
  let t := stableAt s sb
  let y := (yardAt s (sb / 16)).ycycle
  if t.warm && t.hints.all (fun h => decide (h.2 < y)) && (match t.lastMma with | some m => decide (m + 512 < y) | none => true) then
    modYard (modStable s sb (fun t => { t with warm := false })) (sb / 16) (fun r => { r with ramps := r.ramps ++ [(4, 128, false)] })
  else s

/-- Whether a context still has cycles to come. -/
def inPlay (s : State) (c : Nat) : Bool := match (ctxOf s c).status with | .absent | .ended | .lost => false | _ => true

/-- Trains, bay uses and reservations whose last cycle is past are forgotten, and those of contexts that are gone but for the trains of released
ones (R147, R231). -/
def forgetPast (s : State) (sb : Nat) : State :=
  let y := (yardAt s (sb / 16)).ycycle
  modStable s sb (fun t =>
    { t with trains := t.trains.filter (fun r => if r.out then decide (y ≤ r.first + r.hops + r.flits)
               else inPlay s r.ctx && decide ((ctxOf s r.ctx).ccycle ≤ r.first + r.hops + r.flits)),
             uses := t.uses.filter (fun u => match u.made with
               | some k => decide (y ≤ k + 8)
               | none => inPlay s u.ctx && decide ((ctxOf s u.ctx).ccycle ≤ u.cycle + 8)),
             reserves := t.reserves.filter (fun r => decide (y ≤ r.last)) })

/-- A signal of RX charged to its sender in the cycle it performs in (R285, R286). -/
def chargeSignal (s : State) (sb : Nat) (g : Signal) : State :=
  if g.charged = 0 then s else modCtx s (g.charged - 1) (fun c => chargeSoft c (fun c => logEvent c (.signalled sb g.sem g.count)))

/-- What opens a Stable's cycle: a window length due, a cold array, and the charges of RX signals that perform in it (R40, R272, R286). -/
def openStable (s : State) (sb : Nat) : State :=
  let y := (yardAt s (sb / 16)).ycycle
  let s := forgetPast (coolArray (takeMxwin s sb) sb) sb
  ((stableAt s sb).signals.filter (fun g => decide (g.due ≤ y))).foldl (fun s g => chargeSignal s sb g) s

/-- A Stable that has anything to open or close. -/
def liveStables (s : State) (n : Nat) : List Nat := (yardStables n).filter (fun sb => (mfind s.stables sb).isSome)

/-- The steps of one cycle of a Yard, in the order of R322: primary contexts land and issue before secondary ones, ascending (log 5, log 13). -/
def yardAgenda (s : State) (n : Nat) : List Work :=
  let ps := (yardCtxs n 0).filter (active s)
  let ss := (yardCtxs n 1).filter (active s)
  let rs := ((yardCtxs n 0) ++ (yardCtxs n 1)).filter (fun c => (ctxOf s c).status == .rewound)
  .jobs n 0 :: ps.map .land ++ ps.map .issue ++ .jobs n 1 :: ss.map .land ++ ss.map .issue ++ rs.map .rewind ++ [.close n]

/-- Whether the jobs of a context go on in a Yard cycle that is no context cycle of it: its freeze waits for them, on a semaphore, on late
accesses, for a swap-out, a repair or a rewind; or it is gone (R250, R325, R385, R398, log 113). -/
def jobsDrift (x : Ctx) : Bool :=
  x.frozen || x.status == .rewound || outOf x || x.landedNow && (match x.wait with | .sem _ | .late => true | _ => false)

/-- A job of a context in a Yard cycle: where its cycle passes, it ends in cycle E, and its writes are charged in cycle E − 1; else E moves on
(R205, R250, R286, log 15, log 113). -/
def stepJob (s : State) (sb : Nat) (passes : Bool) (j : Job) : State :=
  let y := (yardAt s (sb / 16)).ycycle
  if passes = false then
    modStable s sb (fun t => { t with jobs := t.jobs.map (fun k => if k.id = j.id then { k with ends := k.ends + 1 } else k) })
  else if jobDue y 0 j then endJob s sb j
  else if jobDue y 1 j then chargeJob s sb j
  else s

/-- The jobs of a class on a Yard over one Yard cycle, before the class's contexts land their results (R205, R207, R250, log 113). -/
def stepJobs (s : State) (n slot : Nat) : State :=
  (liveStables s n).foldl (fun s sb =>
    ((stableAt s sb).jobs.filter (fun j => slotOf j.ctx == slot)).foldl
      (fun s j => stepJob s sb (jobsDrift (ctxOf s j.ctx) || reaches s j.ctx) j) s) s

/-- A Yard with a failed array spans two reference periods with every cycle from a multiple of 1,024 Yard cycles on (R400). -/
def spanYard (s : State) (n : Nat) : State :=
  modYard s n (fun y =>
    if y.ycycle % 1024 = 0 then { y with doubled := (yardStables n).any (fun sb => (stableAt s sb).arrayFailed) } else y)

/-- The second reference period of a cycle that spans two gives no cycle (R400). -/
def secondPeriod (y : Yard) : Bool := y.doubled && y.history.head? == some true

/-- The cap that the clock floor keeps from being held sets event 5 (R427). -/
def capEvent (s : State) (n : Nat) : State :=
  if Config.overCap s.mcycle && !floorAllows (yardAt s n) then postEvent s 5 else s

/-- A Yard's next reference period: swallowed, or a Yard cycle opened (R9, R18, R400, log 5). -/
def openYard (s : State) (n : Nat) : State :=
  let s := capEvent (spanYard s n) n
  let p := if secondPeriod (yardAt s n) then
      (false, modYard s n (fun y => { y with history := false :: y.history.take 1022, yslip := y.yslip + 1 }))
    else pulse s n
  if p.1 then
    let s := (liveStables p.2 n).foldl openStable p.2
    { s with agenda := s.agenda ++ yardAgenda s n }
  else p.2

/-- A signal performed at step 2 of R143: the count added, saturating (R142, R143). -/
def addSignal (m : Map (BitVec 32)) (g : Signal) : Map (BitVec 32) :=
  mset m g.sem (BitVec.ofNat 32 (min (2 ^ 32 - 1) ((mget m g.sem 0).toNat + g.count))) 0

/-- What ends a Stable's cycle y: the station writes of R190 step 2, in the order of the triggers (log 124), the Stalls' writes of step 3 by
(slot, Stall), the packets of step 4 by sender with their signals for the next cycle, then the signals that perform in y (R143, R190, R211,
R212). -/
def closeStable (s : State) (sb : Nat) : State :=
  let y := (yardAt s (sb / 16)).ycycle
  let s := ((stableAt s sb).jobs.filter (jobDue y 1)).foldl (fun s j => jobWrite s sb j) s
  let s := (sortBy (fun w => w.slot * 2 ^ 20 + w.stall) (stableAt s sb).writes).foldl
    (fun s w => roundWrite s sb w.bay w.off w.data w.mask) s
  let due := sortBy (fun p => p.2.sender) ((stableAt s sb).packets.filter (fun p => decide (p.1 ≤ y)))
  let s := due.foldl (fun s p => applyPacket s p.2) s
  modStable s sb (fun t =>
    { t with writes := [], packets := t.packets.filter (fun p => !decide (p.1 ≤ y)),
             sems := (t.signals.filter (fun g => decide (g.due ≤ y))).foldl addSignal t.sems,
             signals := t.signals.filter (fun g => !decide (g.due ≤ y)) ++ due.map (fun p =>
               { sem := p.2.sem, count := 1, due := y + 1,
                 charged := if stableOf p.2.sender / 16 = sb / 16 then p.2.sender + 1 else 0 }) })

/-- Barriers whose members all lie in one Yard: the release reaches them in the cycle after the last arrival (R138). -/
def closeBars (s : State) (n : Nat) : State :=
  s.launches.foldl
    (fun s e => if e.2.state ≠ .running ∧ e.2.state ≠ .swapping then s else
      e.2.groups.foldl (fun s g => if (membersOf e.2 g.1).all (fun m => yardOf m == n) then releaseBar s e.1 g.1 n else s) s) s

/-- The end of a Yard's cycle. -/
def closeYard (s : State) (n : Nat) : State := closeBars ((liveStables s n).foldl closeStable s) n

/-- New clock floors take effect at a multiple of 1,024 module cycles (R429, log 90). -/
def takeFloors (s : State) : State := { s with yards := s.yards.map (fun e => (e.1, takeFloor s.mcycle e.2)) }

/-- One reference period of the module: a quote that waits is formed, the counter advances, strikes due take effect, and every running Yard
has its pulse; what the module does periodically comes last (R9, R18, R383). -/
def referencePeriod (s : State) : State :=
  let s := formQuote s
  let s := takeStrikes (takeFloors { s with mcycle := s.mcycle + 1 })
  let s := ((s.yards.filter (fun e => e.2.status == .running)).map (·.1)).foldl openYard s
  { s with agenda := s.agenda ++ [.period] }

/-- YARD_CYCLE: a reference period: each running Yard's counter advances unless its pulse is swallowed, and the contexts of a Yard
that advances have their cycle next (R9, R18, R268, R322). -/
def execYardCycle (s : State) : Host.Outcome State Fault Refusal := .next (referencePeriod s)

/-- ARRAY_COLD: an array with no MMA for 512 cycles becomes cold and ramp-down filler starts (R272). -/
def execArrayCold (stable : Nat) (s : State) : Host.Outcome State Fault Refusal := .next (coolArray s stable)

/-- A packet from another Yard applied at its arrival, its signal following in the next cycle (R211, R212). -/
def arrivePackets (s : State) (sb : Nat) : State :=
  let y := (yardAt s (sb / 16)).ycycle
  match sortBy (fun p => p.2.sender) (stableAt s sb).packets with
  | [] => s
  | ps =>
    let s := ps.foldl (fun s p => applyPacket s p.2) s
    modStable s sb (fun t =>
      { t with packets := [], signals := t.signals ++ ps.map (fun p => { sem := p.2.sem, count := 1, due := y + 1, charged := 0 }) })

/-- REDS_APPLY: RX of a Stable applies the packets that have reached it, and signals their semaphores a cycle later (R211,
R212). -/
def execRedsApply (stable : Nat) (s : State) : Host.Outcome State Fault Refusal := .next (arrivePackets s stable)

end Sys2Proof.Machine
end

