-- ==== Sys2Proof/Machine/Module.lean ====
section
/-!
DEFINITION. What the module does by itself: the control context, the periodic work of a reference period, and link errors (R312, R321,
R347, R383, R391, R394, R399, R409).
-/

namespace Sys2Proof.Machine

/-- The lowest-numbered global Stall whose Yard runs (R409, log 86). -/
def controlStall (s : State) : Option Nat := ((List.range 6).find? (fun y => (yardAt s y).status == .running)).map (32 * ·)

/-- The control context entered: the secondary service context of that Stall, unless it runs already or its context is being served
(R328, R409). -/
def enterControl (s : State) : State :=
  match controlStall s with
  | none => s
  | some g =>
    let c := 4 * g + 2
    if s.control || (ctxOf s c).inSvc then s else { enterService s c 0x03 0 0 with control := true }

/-- Whether bring-up has loaded the service stores (R410, R425). -/
def booted (s : State) : Bool := match s.sec.boot with | .loaded | .linked | .opened => true | _ => false

/-- An event that csr.evmask lets through (R409, log 86). -/
def eventPending (s : State) : Bool := (ioCsr s 0x8C0 &&& ~~~(ioCsr s 0x8C1)) != 0

/-- The control context entered where an event asks for it (R409, log 86). -/
def serveEvents (s : State) : State := if booted s && eventPending s then enterControl s else s

/-- The DRAM meters of bounded launches whose lowest Yard begins a new window of 1,024 cycles (R321). -/
def windowMeters (s : State) : State :=
  s.launches.foldl (fun s e =>
    let y := yardAt s (nth e.2.yards 0 0)
    if launchHeld s e.1 != [] && !e.2.openCls && y.ycycle % 1024 == 0 && y.history.head? == some true then meterWindow s e.1 else s) s

/-- The windows of the region table, 2^w module cycles (R347, R412). -/
def closeWindows (s : State) : State :=
  if s.mcycle % 2 ^ clampTo 16 30 (fld (ioCsr s 0x852) 8 5) = 0 then
    (s.cxl.regions.filter (fun e => regValid e.2)).foldl (fun s e => closeWindow s e.1) s
  else s

/-- The timer's event, at every multiple of 2^24 module cycles (R409). -/
def timerEvent (s : State) : State := if s.mcycle % 2 ^ 24 = 0 then postEvent s 4 else s

/-- The writes to CSRs of the I/O die that arrived in this module cycle, by ascending Stall, primary before secondary (R411, log 41). -/
def applyIo (s : State) : State :=
  (sortBy (fun w => w.1) s.ioWrites).foldl (fun s w => privWrite s w.1 w.2.1 w.2.2) { s with ioWrites := [] }

/-- The faults raised in this module cycle delivered, by global Stall, primary before secondary, each context's in the order they were raised
(R331, R354, R404, log 125). -/
def deliverFaults (s : State) : State :=
  let cs := s.ctxs.filter (fun e => !e.2.raised.isEmpty)
  let s := cs.foldl (fun s e => modCtx s e.1 (fun x => { x with raised := [] })) s
  (cs.flatMap (fun e => e.2.raised)).foldl dueFault s

/-- What the module does periodically, at the end of a reference period (R312, R321, R347, R383, R354, R391, R394, R409, log 53, log 105,
log 125). -/
def runPeriod (s : State) : State :=
  let every (n : Nat) (f : State → State) (s : State) : State := if s.mcycle % n = 0 then f s else s
  let s := closeWindows (windowMeters (applyIo s))
  let s := every (2 ^ wideExp 30 44 (fld (ioCsr s 0x833) 0 5)) ageSieves s
  let s := every (2 ^ wideExp 34 44 (fld (ioCsr s 0x833) 17 5)) scrubPass s
  let s := timerEvent s
  serveEvents (deliverFaults (every 16 placementDecision (expireCaptures (judgeRuns (copyRepair s)))))

/-- EVENT_TIMER: the timer's event, every 2^24 module cycles (R409). -/
def execEventTimer (s : State) : Host.Outcome State Fault Refusal := .next (timerEvent s)

/-- CONTROL_CONTEXT_ENTRY: the control context is entered for a pending event (R409). -/
def execControlContextEntry (s : State) : Host.Outcome State Fault Refusal := .next (serveEvents s)

/-- A link's flit met errors: up to 8 retries it is recorded as corrected; past them the link has failed, which loses a Yard through its
I/O-die port or its second ring port, and damages a packet of the mesh network (R383, R394, R399, R405, log 87). -/
def linkError (s : State) (struct owner retries : Nat) : State :=
  if retries ≤ 8 then corrected s (linkPlace struct owner) struct (if struct = 0x0D then owner % 16 else 0) 0xFFF 0 0
  else
    match struct with
    | 0x0D => damagePacket s owner
    | 0x10 => declareLost s owner 1
    | 0x11 => failPort s owner 0
    | 0x12 => failPort s owner 1
    | _ => s

/-- LINK_CRC_ERROR: a flit of a mesh network or die link failed its CRC and was sent again (R383). -/
def execLinkCrcError (struct owner retries : Nat) (s : State) : Host.Outcome State Fault Refusal := .next (linkError s struct owner retries)

end Sys2Proof.Machine
end

