-- ==== Sys2Proof/Machine/Boot.lean ====
section
/-!
DEFINITION. Bring-up, firmware images and the mailbox of the security block (R15, R410, R413 to R419, R425, R426).
-/

namespace Sys2Proof.Machine

/-- Module reset: everything at its reset value but the flash, the fuses, the error records in flash and what lies outside the module
(R413, R414, R425, log 3). -/
def moduleReset (s : State) : State :=
  { State.reset with inbox := s.inbox, strikes := s.strikes, hostMem := s.hostMem, out := s.out, fresh := s.fresh,
                     sec := { State.reset.sec with flash := s.sec.flash, svnFuse := s.sec.svnFuse, records := s.sec.records } }

/-- MODULE_RESET: the module is reset and bring-up begins (R425). -/
def execModuleReset (s : State) : Host.Outcome State Fault Refusal := .next (moduleReset s)

/-- Every sub-channel trained, and every line written zero (R425). -/
def memoryTrained (s : State) : State :=
  if s.sec.boot = .memory then
    modSec { s with dev := [], marks := s.marks.filter (fun m => m.struct != 0x18), cxl := { s.cxl with regions := [] } } (fun c => { c with boot := .verify })
  else s

/-- MEMORY_TRAINED: the memory is ready and the image is verified next (R425). -/
def execMemoryTrained (s : State) : Host.Outcome State Fault Refusal := .next (memoryTrained s)

/-- A sub-channel fails its training: its record goes to flash and the module is in recovery (R425, log 83). -/
def trainingFailure (s : State) (sub : Nat) : State :=
  if s.sec.boot = .memory then
    let r := recordFor s 2 0 (7, 0, 0, 0) 0x18 2 sub 0 1 0x7F
    modSec s (fun c => { c with boot := .recovery, records := c.records ++ [⟨r, 0⟩] })
  else s

/-- TRAINING_FAILURE: a sub-channel fails training (R425). -/
def execTrainingFailure (sub : Nat) (s : State) : Host.Outcome State Fault Refusal := .next (trainingFailure s sub)

/-- Bytes of an image slot: A is 0, B is 1 (R413). -/
def slotBytes (s : State) (slot off n : Nat) : List Byte := readBytes s.sec.flash (slot * 0x2000000 + off) n
/-- A little-endian number of an image slot. -/
def slotLe (s : State) (slot off n : Nat) : Nat := leNat (slotBytes s slot off n)
/-- The image length L of a slot (R413, log 84). -/
def slotLength (s : State) (slot : Nat) : Nat := slotLe s slot 16 4
/-- The bytes 0 to L − 1 of a slot's image. -/
def slotImage (s : State) (slot : Nat) : List Byte := slotBytes s slot 0 (slotLength s slot)

/-- One entry of an image's section list: type, offset, length; none of type 0 (R413). -/
def slotSections (s : State) (slot : Nat) : List (Nat × Nat × Nat) :=
  ((List.range 8).map (fun i => let a := 128 + 16 * i; (slotLe s slot a 4, slotLe s slot (a + 8) 4, slotLe s slot (a + 12) 4))).filter
    (fun e => e.1 != 0)

/-- The bytes of an image's section of a type; none where it has none. -/
def sectionOf (s : State) (slot type : Nat) : List Byte :=
  ((slotSections s slot).find? (fun e => e.1 == type)).elim [] (fun e => slotBytes s slot e.2.1 e.2.2)

/-- Whether an image slot verifies (R413, R414, log 84). -/
def slotVerifies (s : State) (slot : Nat) : Bool :=
  let n := slotLength s slot
  let key := slotBytes s slot 20 48
  slotLe s slot 0 4 == 0x315A4C49 && slotLe s slot 6 2 == 1 && n % 64 == 0 && decide (256 ≤ n ∧ n + 16224 ≤ 0x1FF0000) &&
    (List.range 4).any (fun i => !Sys2Proof.Config.keyRevoked i && Sys2Proof.Config.keyFuse i == sha256 key) &&
    Sys2Proof.Config.slhVerify key (slotImage s slot) (slotBytes s slot n 16224) && decide (s.sec.svnFuse ≤ slotLe s slot 4 2) &&
    (slotBytes s slot 68 60).all (· == 0) &&
    (List.range 8).all (fun i => slotLe s slot (128 + 16 * i + 4) 4 == 0) &&
    (slotSections s slot).all (fun e => decide (256 ≤ e.2.1 ∧ e.2.1 + e.2.2 ≤ n))

/-- The slot that boots: the one that verifies, the higher svn of two, A on a tie (R414). -/
def bootSlot (s : State) : Option Nat :=
  if slotVerifies s 0 && (!slotVerifies s 1 || decide (slotLe s 1 4 2 ≤ slotLe s 0 4 2)) then some 0
  else if slotVerifies s 1 then some 1
  else none

/-- The image verified: its copy in the service reserve, at an address no rule gives, M0 and M1 extended; or recovery (R412, R414, R416,
R425, log 24). -/
def verifyImage (s : State) : State :=
  if s.sec.boot ≠ .verify then s
  else
    match bootSlot s with
    | none => modSec s (fun c => { c with boot := .recovery })
    | some slot =>
      let img := slotImage s slot
      let conf := sectionOf s slot 2
      let gib := clampTo 1 16 (Sys2Proof.Config.imageReserve conf)
      let s := setIo s 0x813 (BitVec.ofNat 64 gib)
      let s := devPut s (2 ^ 39 - gib * 2 ^ 30 + Sys2Proof.Config.imageOffset % (gib * 2 ^ 30 - img.length)) img
      let s := extendMeas (extendMeas s 0 (sha256 img)) 1 (sha256 conf)
      modSec s (fun c =>
        { c with boot := .yards, slot := slot, svn := slotLe s slot 4 2, build := slotLe s slot 8 8, length := img.length })

/-- IMAGE_VERIFY: the security block verifies the image slots (R414, R425). -/
def execImageVerify (s : State) : Host.Outcome State Fault Refusal := .next (verifyImage s)

/-- The site of a logical Yard by the image's configuration section, or by the factory map (R15, R425). -/
def mappedSite (s : State) (y : Nat) : Nat :=
  (Sys2Proof.Config.imageSite (sectionOf s s.sec.slot 2) y).getD (nth [0, 1, 2, 4, 5, 6] y 0)

/-- The sites of logical Yards `y` on: a mapped site that failed gives way to the lowest good site outside the map and not taken
(R426). -/
def assignSites (s : State) (bad : Nat → Bool) : List Nat → List Nat → List (Nat × Option Nat)
  | [], _ => []
  | y :: r, taken =>
    let inMap (k : Nat) : Bool := (List.range 6).any (fun j => mappedSite s j == k)
    if !bad (mappedSite s y) then (y, some (mappedSite s y)) :: assignSites s bad r taken
    else
      match (List.range 8).find? (fun k => !bad k && !inMap k && !taken.any (· == k)) with
      | some k => (y, some k) :: assignSites s bad r (k :: taken)
      | none => (y, none) :: assignSites s bad r taken

/-- A Yard begins to run on a site, its counter at 0; or it is lost, with a cause no rule gives (R18, R399, R426, log 1, log 85, log 90). -/
def startYard (s : State) (e : Nat × Option Nat) : State :=
  match e.2 with
  | none => let s := modYard { s with fresh := s.fresh + 1 } e.1 (fun _ => { yardInit with status := .running })
            loseYard s e.1 (Sys2Proof.Config.freeNat (s.fresh - 1))
  | some k =>
    let s := modYard s e.1 (fun _ => { yardInit with status := .running, site := k, since := s.mcycle,
                                                     floor := max 512 (fld (ioCsr s (0x820 + e.1)) 0 11) })
    (List.range 16).foldl (fun s i => modStable s (16 * e.1 + i) (fun _ => stableInit)) s

/-- The service stores of all Stalls written from the image's section (R410). -/
def loadServiceStores (s : State) : State :=
  let b := (sectionOf s s.sec.slot 1).take 65536
  { s with sstore := (List.range 192).foldl (fun m g => writeBytes m (g * 2 ^ 16) b) s.sstore }

/-- The sites' self-tests are over, `failed` naming by bits those that failed: Yards are mapped and run, service stores are loaded and
locked, and the control context is entered (R15, R18, R409, R410, R425, R426, log 85). -/
def selfTestsDone (s : State) (failed : Nat) : State :=
  if s.sec.boot ≠ .yards then s
  else
    let s := (assignSites s (fun k => failed.testBit k) (List.range 6) []).foldl startYard (loadServiceStores s)
    enterControl (modSec s (fun c => { c with boot := .loaded }))

/-- BRINGUP_SELF_TEST_DONE: every site has been powered and tested (R425, R426). -/
def execBringupSelfTestDone (failed : Nat) (s : State) : Host.Outcome State Fault Refusal := .next (selfTestsDone s failed)

/-- Whether the mailbox takes a command: it can be reached over CXL once the link is up, or over CXL.io in recovery, and no quote is being
formed, for one command runs at a time (R418, R425). -/
def mailboxOpen (s : State) : Bool :=
  s.sec.quote.isNone && (match s.sec.boot with
  | .recovery => true
  | .linked | .opened => hostLinked s
  | _ => false)

/-- The host has written the input payload and the command register, and sets the doorbell with the interrupt enable as it chooses (R418, log 135). -/
def ringDoorbell (s : State) (opcode : Nat) (data : List Byte) : State :=
  modSec s (fun c =>
    { c with irq := Config.mailboxIrq s.mcycle, payload := data ++ c.payload.drop data.length, command := BitVec.ofNat 64 (opcode % 65536 + 65536 * (data.length % 2 ^ 21)) })

/-- A vendor-specific command: Unsupported in recovery unless it is one of the four taken there; a wrong payload length is Invalid Input;
else its own effect (R419). -/
def vendorCommand (s : State) (opcode : Nat) (data : List Byte) (lengthOk : Bool) (run : State → State) : State :=
  if !mailboxOpen s then s
  else
    let s := ringDoorbell s opcode data
    if s.sec.boot = .recovery ∧ [0xC100, 0xC101, 0xC110, 0xC111].all (· != opcode) then mailboxDone s opcode 3 []
    else if !lengthOk then mailboxDone s opcode 2 []
    else run s

/-- QUOTE: mailbox command 0xC100, whose quote is formed before the module cycle ends (R417, R419). -/
def execQuote (data : List Byte) (s : State) : Host.Outcome State Fault Refusal :=
  .next (vendorCommand s 0xC100 data (data.length == 32) (fun s => modSec s (fun c => { c with quote := some data })))

/-- CERTIFICATE: mailbox command 0xC101: the identity certificate from flash, whose length no rule gives (R413, R415, R419, log 22). -/
def execCertificate (data : List Byte) (s : State) : Host.Outcome State Fault Refusal :=
  .next (vendorCommand s 0xC101 data data.isEmpty (fun s =>
    if Sys2Proof.Config.certReadable then
      mailboxDone s 0xC101 0 (readBytes s.sec.flash 0x3FF0000 (Sys2Proof.Config.certLength % 65537))
    else mailboxDone s 0xC101 4 []))

/-- The flash slot not in use; in recovery none is, and which one is written no rule says (R413, R414, R419, log 22). -/
def spareSlot (s : State) : Nat := if s.sec.boot = .recovery then (if Sys2Proof.Config.recoverySlot then 1 else 0) else 1 - s.sec.slot

/-- A chunk of an image written into the slot not in use (R419). -/
def writeChunk (s : State) (data : List Byte) : State :=
  let off := leNat (data.take 4)
  let n := leNat ((data.drop 4).take 4)
  if off % 8 ≠ 0 ∨ n % 8 ≠ 0 ∨ n < 8 ∨ 65528 < n ∨ 0x1FF0000 < off + n then mailboxDone s 0xC110 2 []
  else
    mailboxDone (modSec s (fun c => { c with flash := writeBytes c.flash (spareSlot s * 0x2000000 + off) (data.drop 8) })) 0xC110 0 []

/-- WRITE_IMAGE_CHUNK: mailbox command 0xC110 (R419). -/
def execWriteImageChunk (data : List Byte) (s : State) : Host.Outcome State Fault Refusal :=
  .next (vendorCommand s 0xC110 data (decide (8 ≤ data.length) && data.length == 8 + leNat ((data.drop 4).take 4)) (fun s => writeChunk s data))

/-- The written slot verified and committed; in recovery the module resets at once (R414, R419, R425). -/
def commitImage (s : State) : State :=
  let k := spareSlot s
  if slotVerifies s k then
    let t := mailboxDone s 0xC111 0 (slotBytes s k 4 2)
    if s.sec.boot = .recovery then moduleReset t else t
  else mailboxDone s 0xC111 2 []

/-- COMMIT_IMAGE: mailbox command 0xC111 (R419). -/
def execCommitImage (data : List Byte) (s : State) : Host.Outcome State Fault Refusal :=
  .next (vendorCommand s 0xC111 data data.isEmpty commitImage)

/-- The fuse counter rises to the running svn (R414, R419). -/
def advanceVersion (s : State) (v : Nat) : State :=
  if v = s.sec.svn then mailboxDone (modSec s (fun c => { c with svnFuse := max c.svnFuse v })) 0xC112 0 [] else mailboxDone s 0xC112 2 []

/-- ADVANCE_SECURITY_VERSION: mailbox command 0xC112 (R414, R419). -/
def execAdvanceSecurityVersion (data : List Byte) (s : State) : Host.Outcome State Fault Refusal :=
  .next (vendorCommand s 0xC112 data (data.length == 2) (fun s => advanceVersion s (leNat data)))

/-- Entries of the error log, slots counted modulo its size; one whose record has no class holds none and reads as zero (R402, R404, R419). -/
def readErrorLog (s : State) (first count : Nat) : State :=
  let v := ioCsr s 0x812
  if v = 0 ∨ count = 0 ∨ 2048 < count then mailboxDone s 0xC120 2 []
  else
    mailboxDone s 0xC120 0 ((List.range count).flatMap (fun i =>
      let e := devRead s (fld v 16 48 * 65536 + 32 * ((first + i) % max 1 (fld v 0 16))) 32
      if byteAt e 15 / 16 = 0 then List.replicate 32 0 else e))

/-- READ_ERROR_LOG: mailbox command 0xC120 (R419). -/
def execReadErrorLog (data : List Byte) (s : State) : Host.Outcome State Fault Refusal :=
  .next (vendorCommand s 0xC120 data (data.length == 6) (fun s => readErrorLog s (leNat (data.take 4)) (leNat (data.drop 4))))

/-- A hang record; where no ring is placed no slot has been written, and it reads as zero (R277, R419). -/
def readHang (s : State) (slot : Nat) : State :=
  if 16 ≤ slot then mailboxDone s 0xC121 2 []
  else if ioCsr s 0x814 = 0 then mailboxDone s 0xC121 0 (List.replicate 4096 0)
  else mailboxDone s 0xC121 0 (devRead s (fld (ioCsr s 0x814) 16 48 * 65536 + 4096 * slot) 4096)

/-- READ_HANG_RECORD: mailbox command 0xC121 (R419). -/
def execReadHangRecord (data : List Byte) (s : State) : Host.Outcome State Fault Refusal :=
  .next (vendorCommand s 0xC121 data (data.length == 1) (fun s => readHang s (leNat data)))

/-- Entries of the lost-line ring after its counters; a ring that is not placed reads as zero (R352, R419). -/
def readLost (s : State) (first count : Nat) : State :=
  if count = 0 ∨ 4094 < count then mailboxDone s 0xC122 2 []
  else
    mailboxDone s 0xC122 0 (leBytes 8 (ioCsr s 0x816).toNat ++ leBytes 8 (ioCsr s 0x817).toNat ++
      (List.range count).flatMap (fun i =>
        if ioCsr s 0x815 = 0 then List.replicate 16 0 else devRead s (fld (ioCsr s 0x815) 16 48 * 65536 + 16 * ((first + i) % 4096)) 16))

/-- READ_LOST_LINE_RING: mailbox command 0xC122 (R352, R419). -/
def execReadLostLineRing (data : List Byte) (s : State) : Host.Outcome State Fault Refusal :=
  .next (vendorCommand s 0xC122 data (data.length == 6) (fun s => readLost s (leNat (data.take 4)) (leNat (data.drop 4))))

/-- A command of the CXL standard answered as the standard lays down, or Unsupported (R418, R419, log 25). -/
def standardCommand (s : State) (opcode : Nat) (data : List Byte) : State :=
  if !mailboxOpen s || decide (0xC000 ≤ opcode) then s
  else
  let s := ringDoorbell s opcode data
  if s.sec.boot = .recovery ∨ Sys2Proof.Config.standardOpcode opcode = false then mailboxDone s opcode 3 []
  else let r := Sys2Proof.Config.standardAnswer opcode data; mailboxDone s opcode r.1 r.2

/-- MAILBOX_STANDARD_COMMAND: an opcode below 0xC000 (R418). -/
def execMailboxStandardCommand (opcode : Nat) (data : List Byte) (s : State) : Host.Outcome State Fault Refusal :=
  .next (standardCommand s opcode data)

/-- The vendor-specific commands of R419 (log 89). -/
def vendorOpcodes : List Nat := [0xC100, 0xC101, 0xC110, 0xC111, 0xC112, 0xC120, 0xC121, 0xC122]

/-- Whether the device takes no command of an opcode (R418, R419, log 89). -/
def unsupported (s : State) (opcode : Nat) : Bool :=
  if s.sec.boot = .recovery then [0xC100, 0xC101, 0xC110, 0xC111].all (· != opcode)
  else if 0xC000 ≤ opcode then vendorOpcodes.all (· != opcode) else !Sys2Proof.Config.standardOpcode opcode

/-- MAILBOX_UNSUPPORTED: an opcode that the device does not take returns Unsupported (R418, R419). -/
def execMailboxUnsupported (opcode : Nat) (s : State) : Host.Outcome State Fault Refusal :=
  .next (if mailboxOpen s && unsupported s opcode then mailboxDone (ringDoorbell s opcode []) opcode 3 [] else s)

end Sys2Proof.Machine
end

