-- ==== Sys2Proof/Machine/Hang.lean ====
section
/-!
DEFINITION. The hang time-out: the record that the Yardmaster writes of a context that waits too long, and its fault (R276 to R278, R368).
-/

namespace Sys2Proof.Machine

/-- The code of what a context waits for (R277). -/
def waitCode (x : Ctx) : Nat :=
  match x.wait with
  | .late => 1
  | .landing id => if x.ops.any (fun o => o.id == id && decide (o.kind = .pop)) then 2 else 3
  | .sem _ => 4
  | .rdv _ => 5
  | .bar _ => 6
  | .probe _ _ _ => 7
  | .fill _ => 8
  | .full => 9
  | .lock _ => 10
  | .none | .copy | .csr => 0

/-- The FIFO, semaphore, group, token or macro waited on (R277). -/
def waitObject (x : Ctx) : Nat :=
  match x.wait with
  | .landing id => (x.ops.find? (fun o => o.id == id)).elim 0 (fun o => match o.kind, o.q with | .pop, .fifo q => q | _, _ => 0)
  | .sem n | .rdv n | .bar n | .fill n | .lock n => n
  | _ => 0

/-- The slot of the waiting instruction (R277). -/
def waitSlot (s : State) (c : Nat) : Nat :=
  let x := ctxOf s c
  match x.wait with
  | .landing id => (x.ops.find? (fun o => o.id == id)).elim 0 (·.slot)
  | _ => match judge s c with | .wait k _ => k | _ => 0

/-- The count that a SEMWAIT waits for, or the members of the set late of a WAITD (R139, R277). -/
def waitNeed (s : State) (c : Nat) : Nat :=
  let x := ctxOf s c
  let k := waitSlot s c
  let s := enterSlot s c k
  match ((opsOf s c).getD []).find? (fun e => e.1 == k) with
  | some (_, .ins (.semwait _ n _)) => (match x.wait with | .sem _ => n.toNat + 1 | _ => 0)
  | some (_, .ins (.waitdImm _ n)) => (lateSet s x.ccycle n.toNat).length
  | some (_, .ins (.waitdScalar _ a)) => (lateSet s x.ccycle (min 65535 (sreg x a.toNat).toNat)).length
  | _ => 0

/-- The value of the semaphore waited on (R277). -/
def waitValue (s : State) (c : Nat) : Nat :=
  match (ctxOf s c).wait with | .sem n => (mget (stableAt s (stableOf c)).sems n 0).toNat | _ => 0

/-- One 32-byte entry of a hang record (R278). -/
def hangEntry (kind number stall flags head bundle queued tokens since : Nat) : List Byte :=
  [BitVec.ofNat 8 kind, BitVec.ofNat 8 number, BitVec.ofNat 8 stall, BitVec.ofNat 8 flags] ++ leBytes 2 head ++ leBytes 2 bundle ++
    leBytes 4 queued ++ leBytes 4 tokens ++ leBytes 8 since ++ leBytes 8 0

/-- Whether a sequence unit waits with what follows a token element, so that it takes nothing from its commit FIFOs' side (R368). -/
def unitWaits (l : Launch) : Bool := l.gen.elim false (fun g => !g.records.isEmpty || !g.commits.isEmpty)

/-- Whether a POP is an orphan: its FIFO is empty and no PUSH towards it is queued or held anywhere (R278). -/
def orphanPop (s : State) (n i : Nat) : Bool :=
  let l := launchAt s n
  let b := nth l.fifos i []
  (mget l.fifoData i []).isEmpty && (launchCtxs l).all (fun d =>
    (ctxOf s d).ops.all (fun o => o.performed || !((match o.kind with | .push _ => true | _ => false) &&
      nth b 1 0 == (ctxOf s d).k && decide (o.q = .fifo (nth b 2 0 % 32)))))

/-- The entry of one queue of a context: `elems` are the elements at the peer end of a FIFO, or the SPILL and FILL tokens pending
(R278, log 78). -/
def queueEntry (s : State) (c kind number : Nat) (ops : List OffOp) (elems : Nat) (flags : Nat) : List Byte :=
  match ops with
  | [] => hangEntry kind number (stallOf c) (slotOf c + flags) 0xFFFF 0 0 elems 0
  | o :: _ =>
    let accepted := decide (o.kind = .pop) || !inOrder s c o
    hangEntry kind number (stallOf c) (slotOf c + flags ||| (if accepted then 0 else 4) ||| (if heldKind s c o then 8 else 0))
      (o.slot * 2 ^ 13 + o.opc) o.pc ops.length elems o.since

/-- The pending accesses of a context in a queue. -/
def pendingIn (x : Ctx) (q : QId) : List OffOp := x.ops.filter (fun o => !o.performed && o.q == q)

/-- SPILL and FILL tokens among accesses. -/
def tokensOf (ops : List OffOp) : Nat := (ops.filter (fun o => match o.kind with | .spill _ _ _ _ _ | .fill _ _ _ _ => true | _ => false)).length

/-- The entry of a FIFO that a context pushes to or pops from (R278, R368). -/
def fifoEntry (s : State) (c q : Nat) : List Byte :=
  let x := ctxOf s c
  let l := launchAt s x.launch
  let ops := pendingIn x (.fifo q)
  let i := (sinkOf l x.k q).orElse (fun _ => sourceOf l x.k q)
  let elems (i : Nat) : Nat :=
    if (sinkOf l x.k q).isNone && nth (nth l.fifos i []) 0 0 == 3 then l.gen.elim 0 (·.tokens.length) else (mget l.fifoData i []).length
  let pops := ops.head?.elim false (fun o => decide (o.kind = .pop))
  let orphan := (sinkOf l x.k q).elim false (fun i => pops && orphanPop s x.launch i)
  let stuck := (sinkOf l x.k q).elim false (fun i => nth (nth l.fifos i []) 0 0 == 3 && unitWaits l)
  queueEntry s c 3 q ops (i.elim 0 elems) ((if orphan then 2 else 0) + (if stuck then 4 else 0))

/-- The FIFOs of a context that its launch binds, ascending. -/
def boundFifos (l : Launch) (k : Nat) : List Nat :=
  (List.range 32).filter (fun q => (pushKind l k q).isSome || (popKind l k q).isSome)

/-- The targets of a context's link queues, one for each kernel-local Stable of another Yard, ascending (R254). -/
def linkTargets (l : Launch) (c : Nat) : List Nat :=
  (List.range (stableCount l)).filter (fun t => stableOfLocal l t / 16 != yardOf c)

/-- The entries of one context: its queues, its fill endpoint by macro, and the semaphore it waits on (R278). -/
def ctxEntries (s : State) (c : Nat) : List (List Byte) :=
  let x := ctxOf s c
  let l := launchAt s x.launch
  let dev := pendingIn x .device
  let host := pendingIn x .host
  let fills := l.fifos.any (fun f => nth f 0 0 == 2 && nth f 1 0 == x.k)
  let macros := if fills then (List.range 8).filter (bit x.grant.macros) else []
  let fillOps (m : Nat) : List OffOp := x.ops.filter (fun o => !o.performed && (match o.kind with | .fillReq v => fld v 16 3 == m | _ => false))
  queueEntry s c 1 0 dev (tokensOf dev) 0 :: queueEntry s c 2 0 host (tokensOf host) 0 ::
    (boundFifos l x.k).map (fifoEntry s c) ++
    (linkTargets l c).map (fun t => queueEntry s c 4 t (pendingIn x (.link t)) 0 0) ++
    queueEntry s c 5 0 (pendingIn x .station) 0 0 ::
    macros.map (fun m => queueEntry s c 6 m (fillOps m) 0 0) ++
    (match x.wait with
     | .sem n => [hangEntry 7 n (stallOf c) (slotOf c) 0xFFFF 0 0 (waitValue s c) 0]
     | _ => [])

/-- The hang record of a context: its header and at most 126 entries, the rest of the 4,096 bytes zero (R277, R278, log 78). -/
def hangRecord (s : State) (c : Nat) : List Byte :=
  let x := ctxOf s c
  let l := launchAt s x.launch
  let es := ((sortBy id (launchHeld s x.launch)).flatMap (ctxEntries s)).take 126
  let loops := (List.range 6).flatMap (fun i => leBytes 4 (nth x.loops i ⟨0, 0, 0, 0⟩).index.toNat)
  let head := leBytes 4 0x31474E48 ++ leBytes 2 es.length ++ [BitVec.ofNat 8 (waitCode x), BitVec.ofNat 8 (waitSlot s c)] ++
    leBytes 8 s.mcycle ++ [BitVec.ofNat 8 (stallOf c), BitVec.ofNat 8 (slotOf c)] ++ leBytes 2 x.pc ++ [BitVec.ofNat 8 l.queue, 0, 0, 0] ++
    leBytes 8 x.ccycle ++ loops ++ [BitVec.ofNat 8 (waitObject x), 0] ++ leBytes 2 (waitNeed s c) ++ leBytes 4 (waitValue s c)
  let b := head ++ es.flatten
  b ++ List.replicate (4096 - b.length) 0

/-- The handling of fault 0x40: the context's record goes to the slot of the ring that the fault names, and event 1 is set (R276 to R278,
R409). -/
def writeHang (s : State) (c slot : Nat) : State :=
  postEvent (devPut s (fld (ioCsr s 0x814) 16 48 * 65536 + 4096 * (slot % 16)) (hangRecord s c)) 1

/-- A context has waited past the time-out: fault 0x40, which names the next slot of the ring when it is delivered; the context waits on
(R276, R331). -/
def hangTimeout (s : State) (c : Nat) : State :=
  let x := ctxOf s c
  if x.wait = .none ∨ x.waited ≤ 2 ^ fld (ioCsr s 0x832) 0 6 then s else postFault s (raisedAt s c 0x40 s.hangSlot (waitSlot s c) x.pc x.ccycle)

/-- HANG_TIMEOUT: a freeze past the time-out writes a hang record and raises fault 0x40, and the context keeps waiting (R276 to
R278). -/
def execHangTimeout (c : Nat) (s : State) : Host.Outcome State Fault Refusal := .next (hangTimeout s c)

end Sys2Proof.Machine
end

