-- ==== Sys2Proof/Machine/Rewind.lean ====
section
/-!
DEFINITION. The rewind of a segment: waiting for what has been applied, restoring, and the rerun (R284, R285, R385 to R388).
-/

namespace Sys2Proof.Machine

/-- Whether what the context had under way before the consumption is over: its station jobs, and its REDS packets within the Yard with
their signals (R385 step 2, log 76). -/
def rewindQuiet (s : State) (c : Nat) : Bool :=
  (stableAt s (stableOf c)).jobs.all (fun j => j.ctx != c) &&
    (yardStables (yardOf c)).all (fun sb =>
      let t := stableAt s sb
      t.packets.all (fun p => p.2.sender != c) && t.signals.all (fun g => g.charged != c + 1))

/-- An uncorrectable word of the context's undo log or snapshot store (R388, R405, log 75). -/
def damagedLog (s : State) (c : Nat) : Option Mark :=
  s.marks.find? (fun m => m.bad && (m.struct == 5 || m.struct == 6) && m.owner == c)

/-- The consuming bundle rewritten from the kernel image where its word in the instruction store is poisoned (R385 step 3). -/
def reloadBundle (s : State) (c : Nat) : State :=
  let x := ctxOf s c
  let l := launchAt s x.launch
  let at0 := x.grant.codeBase + x.pc
  let hit (m : Mark) : Bool := m.bad && m.struct == 3 && m.owner == stallOf c && m.unit == at0
  if s.marks.any hit then
    copyCode s (stallOf c) (recImage l.record + leAt l.header 56 4 + 64 * x.pc) at0 1
  else s

/-- The restore: the words of the log and the snapshot corrected as they are read (R383), undo records reversed, the snapshot back, and the
Yard cycles that it takes (R385 step 3, log 76). -/
def restoreRun (s : State) (c : Nat) : State :=
  let s := correctAll s (fun m => (m.struct == 5 || m.struct == 6) && m.owner == c)
  let x := ctxOf s c
  let s := reloadBundle (x.undo.reverse.foldl (fun s u => undoOne s c u) s) c
  match x.snap with
  | none => s
  | some n =>
    let s := modStable s (stableOf c) (fun t =>
      { t with trains := t.trains.filter (fun e => e.ctx != c || e.out) ++ n.trains, uses := t.uses.filter (fun e => e.ctx != c) ++ n.uses })
    modCtx s c (fun y => { fromSnapshot y n with rewind := 2, restores := 15 + ceilDiv x.charge 256 })

/-- The rerun begins: the context runs from the next Yard cycle on, and the station jobs that the snapshot holds run again beside it, each to
the context cycle in which it ended (R284, R385, R387, log 113). -/
def rerun (s : State) (c : Nat) : State :=
  let s := modCtx s c (fun x => { x with status := .running, rewind := 3, restores := 0, consumed := none, seenYard := yardNow s c })
  match (ctxOf s c).snap with
  | none => s
  | some n =>
    modStable s (stableOf c) (fun t =>
      { t with jobs := t.jobs ++ n.jobs.map (fun j => { j with ends := (yardShift s c + j.ends).toNat }) })

/-- A rewind that cannot be made: fault 0x31 in place of the fault 0x30 that it follows, whose entry in the fault buffer it takes where
firmware has not freed that yet (R388, log 75). -/
def exhaustRewind (s : State) (c : Nat) : State :=
  match (ctxOf s c).consumed with
  | none => s
  | some f =>
    let e := entryOf s f
    let g : Raised := { f with code := 0x31 }
    if s.fbuf.any (· == e) then
      handleFault { s with fbuf := s.fbuf.map (fun k => if k == e then entryOf s g else k) } g
    else postFault s { g with mc := s.mcycle }

/-- One Yard cycle of a rewind: it waits, restores, or counts the restore's cycles, after which the segment's entry bundle issues
again (R385); a word lost from the log or the snapshot, or writes that could not be logged, end it (R388, log 75, log 76). -/
def rewindStep (s : State) (c : Nat) : State :=
  let x := ctxOf s c
  if x.status ≠ .rewound then s
  else if x.rewind = 1 then
    if !rewindQuiet s c then s
    else
      if (damagedLog s c).isSome || overrun x then
        exhaustRewind (findBad s (fun m => (m.struct == 5 || m.struct == 6) && m.owner == c) true) c
      else restoreRun s c
  else if x.restores ≤ 1 then rerun s c
  else modCtx s c (fun x => { x with restores := x.restores - 1 })

/-- REWIND_RESTORE: the undo log and snapshot of a rewound context are restored and its segment runs again (R385). -/
def execRewindRestore (c : Nat) (s : State) : Host.Outcome State Fault Refusal := .next (rewindStep s c)

end Sys2Proof.Machine
end

