-- ==== Sys2Proof/Machine/Taps.lean ====
section
/-!
DEFINITION. The taps: TAPP, TAPS, TAPLD and TAPRD (R180 to R185).
-/

namespace Sys2Proof.Machine

/-- A BF16 value as an FP32 lane (R45). -/
def bf16Lane (x : BitVec 16) : BitVec 32 := x ++ 0#16

/-- A row of a tap's hidden vector: BF16 elements 128r to 128r + 127 (R180). -/
def hiddenRow (m : Map (BitVec 16)) (r : Nat) : Row := rowOfLanes (fun l => bf16Lane (mget m (128 * r + l) 0))

/-- The score of TAPP over rows of the vector file (R182). -/
def tapScore (c : Ctx) (t : Tap) (first rows : Nat) : BitVec 32 :=
  (List.range rows).foldl
    (fun acc r =>
      let p := (mapRow2 fmul (vrow c (first + r)) (hiddenRow t.probe r)).1
      (fadd acc (redSumF p).1).1)
    0

/-- Whether a score crosses the tap's threshold: above it, or a NaN (R182). -/
def tapCrossed (t : Tap) (acc : BitVec 32) : Bool :=
  isNan (f32 acc) || ((fcmpLt (bits t.cfg 32 32) acc).1 != 0)

/-- One row of TAPS: V + c × S in one rounding, landing at issue + 5 + r with its flags (R184). -/
def steerRow (c : Ctx) (t : Tap) (coef : BitVec 32) (first : Nat) (s : State) (r : Nat) : State :=
  let v := mapRow2 (fun x y => ffma coef y x) (vrow c (first + r)) (hiddenRow t.steer r)
  emitFlags (emit s (5 + r) (.row (first + r) 0 v.1 allBytes)) (5 + r) v.2

/-- The margin byte of TAPRD for one sequence (R185). -/
def marginOf (t : Tap) (q : Nat) : Nat :=
  match mfind t.score q with
  | none => 0x7F
  | some v => if isNan (f32 v) then 0x7F else (encodeElem 0x11 (f32 (fsub v (bits t.cfg 32 32)).1)).code

/-- TAPLD's copy: the word, and the probe and steering vectors of the entry it names, with the crossing state cleared (R181). -/
def tapLoaded (s : State) (w : Word) : Tap :=
  let a := tapEntryAddr s w
  let d := readLe s.dev a 2
  let vec (o : Nat) : Map (BitVec 16) :=
    (List.range d).foldl (fun m i => mset m i (BitVec.ofNat 16 (readLe s.dev (a + o + 2 * i) 2)) 0) []
  { cfg := w &&& 0xFFFFFFFF000F8FFF#64, dim := d, cross := 0, stamp := 0, score := [], probe := vec 64, steer := vec 16448 }

/-- TAPP: Scores rows against a tap's probe and sets a crossing when above threshold (R182). -/
def execTapp 
    (p : BitVec 5) (tap seq : BitVec 3) (va : BitVec 13) (rows : BitVec 11) (s : State) : Host.Outcome State Fault Refusal :=
  perform s (checkI s (.tapp p tap seq va rows)) p fun s =>
    let t := tapOf (me s) tap.toNat
    let acc := tapScore (me s) t (vnum va) (rows.toNat + 1)
    emit s (rows.toNat + 10) (.tapp tap.toNat seq.toNat acc (tapCrossed t acc) s.cur.stamp)

/-- TAPS: Adds a scaled steering vector to rows when the tap allows steering (R184). -/
def execTaps 
    (p : BitVec 5) (tap seq : BitVec 3) (va : BitVec 13) (rows : BitVec 11) (sc : BitVec 6) (s : State) : Host.Outcome State Fault Refusal :=
  perform s (checkI s (.taps p tap seq va rows sc)) p fun s =>
    let t := tapOf (me s) tap.toNat
    if steers s tap then
      (List.range (rows.toNat + 1)).foldl (steerRow (me s) t ((sreg (me s) sc.toNat).truncate 32) (vnum va)) s
    else s

/-- TAPLD: Service-only load of a tap's configuration word and probe vectors (R181, log 42). -/
def execTapld (p : BitVec 5) (tap : BitVec 3) (sa : BitVec 6) (s : State) : Host.Outcome State Fault Refusal :=
  perform s (checkI s (.tapld p tap sa)) p fun s =>
    modCtx s (served s.cur.ctx) (fun c => { c with taps := mput c.taps tap.toNat (tapLoaded s (sreg (me s) sa.toNat)) })

/-- TAPRD: Reads a tap's crossing bits or score margins into a scalar (R185). -/
def execTaprd (p : BitVec 5) (sd : BitVec 6) (tap : BitVec 3) (what : BitVec 1) (s : State) : Host.Outcome State Fault Refusal :=
  perform s (checkI s (.taprd p sd tap what)) p fun s =>
    let t := tapOf (me s) tap.toNat
    emitS s 2 sd (if what = 0 then BitVec.ofNat 64 (t.cross.toNat + fld (me s).tapstat 16 12 * 256)
      else BitVec.ofNat 64 (pack 8 8 (marginOf t)))

end Sys2Proof.Machine
end

