-- ==== Sys2Proof/Machine/Dispatch.lean ====
section
/-!
DEFINITION. One arm for every instruction and event of the opcode table: the direct call of its meaning.
-/

namespace Sys2Proof.Machine

/-- The effect of an instruction or event. -/
def exec (i : Instr) (s : State) : Host.Outcome State Fault Refusal :=
      match i with
      | .nop p => Sys2Proof.Machine.execNop p s
      | .bar p group => Sys2Proof.Machine.execBar p group s
      | .rdv p group => Sys2Proof.Machine.execRdv p group s
      | .waitdImm p count => Sys2Proof.Machine.execWaitdImm p count s
      | .waitdScalar p a => Sys2Proof.Machine.execWaitdScalar p a s
      | .fence p scope => Sys2Proof.Machine.execFence p scope s
      | .semsig p c sem => Sys2Proof.Machine.execSemsig p c sem s
      | .semsigScalar p c a => Sys2Proof.Machine.execSemsigScalar p c a s
      | .semwait p c sem => Sys2Proof.Machine.execSemwait p c sem s
      | .yield p => Sys2Proof.Machine.execYield p s
      | .svc p code => Sys2Proof.Machine.execSvc p code s
      | .trap p code => Sys2Proof.Machine.execTrap p code s
      | .halt p => Sys2Proof.Machine.execHalt p s
      | .probe p b a => Sys2Proof.Machine.execProbe p b a s
      | .discard p b a => Sys2Proof.Machine.execDiscard p b a s
      | .exit p => Sys2Proof.Machine.execExit p s
      | .add p d a b => Sys2Proof.Machine.execAdd p d a b s
      | .sub p d a b => Sys2Proof.Machine.execSub p d a b s
      | .mul p d a b => Sys2Proof.Machine.execMul p d a b s
      | .mulh p d a b => Sys2Proof.Machine.execMulh p d a b s
      | .mulhs p d a b => Sys2Proof.Machine.execMulhs p d a b s
      | .div p d a b => Sys2Proof.Machine.execDiv p d a b s
      | .divs p d a b => Sys2Proof.Machine.execDivs p d a b s
      | .rem p d a b => Sys2Proof.Machine.execRem p d a b s
      | .and p d a b => Sys2Proof.Machine.execAnd p d a b s
      | .or p d a b => Sys2Proof.Machine.execOr p d a b s
      | .xor p d a b => Sys2Proof.Machine.execXor p d a b s
      | .andn p d a b => Sys2Proof.Machine.execAndn p d a b s
      | .shl p d a b => Sys2Proof.Machine.execShl p d a b s
      | .shr p d a b => Sys2Proof.Machine.execShr p d a b s
      | .sar p d a b => Sys2Proof.Machine.execSar p d a b s
      | .rotl p d a b => Sys2Proof.Machine.execRotl p d a b s
      | .min p d a b => Sys2Proof.Machine.execMin p d a b s
      | .max p d a b => Sys2Proof.Machine.execMax p d a b s
      | .mins p d a b => Sys2Proof.Machine.execMins p d a b s
      | .maxs p d a b => Sys2Proof.Machine.execMaxs p d a b s
      | .addsh p d a b sh => Sys2Proof.Machine.execAddsh p d a b sh s
      | .clz p d a => Sys2Proof.Machine.execClz p d a s
      | .popc p d a => Sys2Proof.Machine.execPopc p d a s
      | .sel p d a b pc => Sys2Proof.Machine.execSel p d a b pc s
      | .addi p d a psel imm => Sys2Proof.Machine.execAddi p d a psel imm s
      | .mulImm p d a psel imm => Sys2Proof.Machine.execMulImm p d a psel imm s
      | .andImm p d a psel imm => Sys2Proof.Machine.execAndImm p d a psel imm s
      | .orImm p d a psel imm => Sys2Proof.Machine.execOrImm p d a psel imm s
      | .xorImm p d a psel imm => Sys2Proof.Machine.execXorImm p d a psel imm s
      | .shlImm p d a psel imm => Sys2Proof.Machine.execShlImm p d a psel imm s
      | .shrImm p d a psel imm => Sys2Proof.Machine.execShrImm p d a psel imm s
      | .sarImm p d a psel imm => Sys2Proof.Machine.execSarImm p d a psel imm s
      | .rotlImm p d a psel imm => Sys2Proof.Machine.execRotlImm p d a psel imm s
      | .minImm p d a psel imm => Sys2Proof.Machine.execMinImm p d a psel imm s
      | .maxImm p d a psel imm => Sys2Proof.Machine.execMaxImm p d a psel imm s
      | .minsImm p d a psel imm => Sys2Proof.Machine.execMinsImm p d a psel imm s
      | .maxsImm p d a psel imm => Sys2Proof.Machine.execMaxsImm p d a psel imm s
      | .cmpeq p pd a b => Sys2Proof.Machine.execCmpeq p pd a b s
      | .cmpne p pd a b => Sys2Proof.Machine.execCmpne p pd a b s
      | .cmplt p pd a b => Sys2Proof.Machine.execCmplt p pd a b s
      | .cmplts p pd a b => Sys2Proof.Machine.execCmplts p pd a b s
      | .cmple p pd a b => Sys2Proof.Machine.execCmple p pd a b s
      | .cmples p pd a b => Sys2Proof.Machine.execCmples p pd a b s
      | .cmpeqImm p pd a psel imm => Sys2Proof.Machine.execCmpeqImm p pd a psel imm s
      | .cmpneImm p pd a psel imm => Sys2Proof.Machine.execCmpneImm p pd a psel imm s
      | .cmpltImm p pd a psel imm => Sys2Proof.Machine.execCmpltImm p pd a psel imm s
      | .cmpltsImm p pd a psel imm => Sys2Proof.Machine.execCmpltsImm p pd a psel imm s
      | .cmpleImm p pd a psel imm => Sys2Proof.Machine.execCmpleImm p pd a psel imm s
      | .cmplesImm p pd a psel imm => Sys2Proof.Machine.execCmplesImm p pd a psel imm s
      | .li p d psel imm => Sys2Proof.Machine.execLi p d psel imm s
      | .liLong p d imm => Sys2Proof.Machine.execLiLong p d imm s
      | .pset p pd a => Sys2Proof.Machine.execPset p pd a s
      | .pand p pd pa pb inva invb => Sys2Proof.Machine.execPand p pd pa pb inva invb s
      | .por p pd pa pb inva invb => Sys2Proof.Machine.execPor p pd pa pb inva invb s
      | .pxor p pd pa pb inva invb => Sys2Proof.Machine.execPxor p pd pa pb inva invb s
      | .pnot p pd pa => Sys2Proof.Machine.execPnot p pd pa s
      | .br p target => Sys2Proof.Machine.execBr p target s
      | .brScalar p a => Sys2Proof.Machine.execBrScalar p a s
      | .bc p a b cond target => Sys2Proof.Machine.execBc p a b cond target s
      | .call p d target => Sys2Proof.Machine.execCall p d target s
      | .ret p a => Sys2Proof.Machine.execRet p a s
      | .loopScalar p a len => Sys2Proof.Machine.execLoopScalar p a len s
      | .loopNbound p n len => Sys2Proof.Machine.execLoopNbound p n len s
      | .loopImm p count len => Sys2Proof.Machine.execLoopImm p count len s
      | .lexit p => Sys2Proof.Machine.execLexit p s
      | .lidx p d idx => Sys2Proof.Machine.execLidx p d idx s
      | .csrr p d csr => Sys2Proof.Machine.execCsrr p d csr s
      | .csrw p a csr => Sys2Proof.Machine.execCsrw p a csr s
      | .csrwImm p imm csr => Sys2Proof.Machine.execCsrwImm p imm csr s
      | .nbnd p n a => Sys2Proof.Machine.execNbnd p n a s
      | .nbndImm p n imm => Sys2Proof.Machine.execNbndImm p n imm s
      | .vadd p vd va vb => Sys2Proof.Machine.execVadd p vd va vb s
      | .vsub p vd va vb => Sys2Proof.Machine.execVsub p vd va vb s
      | .vmul p vd va vb => Sys2Proof.Machine.execVmul p vd va vb s
      | .vmin p vd va vb => Sys2Proof.Machine.execVmin p vd va vb s
      | .vmax p vd va vb => Sys2Proof.Machine.execVmax p vd va vb s
      | .vfma p vd va vb vc => Sys2Proof.Machine.execVfma p vd va vb vc s
      | .vfms p vd va vb vc => Sys2Proof.Machine.execVfms p vd va vb vc s
      | .vfnma p vd va vb vc => Sys2Proof.Machine.execVfnma p vd va vb vc s
      | .vaddScalar p vd va sb => Sys2Proof.Machine.execVaddScalar p vd va sb s
      | .vsubScalar p vd va sb => Sys2Proof.Machine.execVsubScalar p vd va sb s
      | .vmulScalar p vd va sb => Sys2Proof.Machine.execVmulScalar p vd va sb s
      | .vminScalar p vd va sb => Sys2Proof.Machine.execVminScalar p vd va sb s
      | .vmaxScalar p vd va sb => Sys2Proof.Machine.execVmaxScalar p vd va sb s
      | .vfmaScalar p vd va sb vc => Sys2Proof.Machine.execVfmaScalar p vd va sb vc s
      | .vfmsScalar p vd va sb vc => Sys2Proof.Machine.execVfmsScalar p vd va sb vc s
      | .vfnmaScalar p vd va sb vc => Sys2Proof.Machine.execVfnmaScalar p vd va sb vc s
      | .vabs p vd va => Sys2Proof.Machine.execVabs p vd va s
      | .vneg p vd va => Sys2Proof.Machine.execVneg p vd va s
      | .vrcp p vd va => Sys2Proof.Machine.execVrcp p vd va s
      | .vrsq p vd va => Sys2Proof.Machine.execVrsq p vd va s
      | .vexp2 p vd va => Sys2Proof.Machine.execVexp2 p vd va s
      | .vlog2 p vd va => Sys2Proof.Machine.execVlog2 p vd va s
      | .vclamp p vd va slo shi => Sys2Proof.Machine.execVclamp p vd va slo shi s
      | .vsel p vd va vb vc => Sys2Proof.Machine.execVsel p vd va vb vc s
      | .vcmpeqF p vd va vb => Sys2Proof.Machine.execVcmpeqF p vd va vb s
      | .vcmpeqI p vd va vb => Sys2Proof.Machine.execVcmpeqI p vd va vb s
      | .vcmpltF p vd va vb => Sys2Proof.Machine.execVcmpltF p vd va vb s
      | .vcmpltSi p vd va vb => Sys2Proof.Machine.execVcmpltSi p vd va vb s
      | .vcmpltUi p vd va vb => Sys2Proof.Machine.execVcmpltUi p vd va vb s
      | .vcmpleF p vd va vb => Sys2Proof.Machine.execVcmpleF p vd va vb s
      | .vcmpleSi p vd va vb => Sys2Proof.Machine.execVcmpleSi p vd va vb s
      | .vcmpleUi p vd va vb => Sys2Proof.Machine.execVcmpleUi p vd va vb s
      | .viaddB p vd va vb => Sys2Proof.Machine.execViaddB p vd va vb s
      | .viaddH p vd va vb => Sys2Proof.Machine.execViaddH p vd va vb s
      | .viaddW p vd va vb => Sys2Proof.Machine.execViaddW p vd va vb s
      | .visubB p vd va vb => Sys2Proof.Machine.execVisubB p vd va vb s
      | .visubH p vd va vb => Sys2Proof.Machine.execVisubH p vd va vb s
      | .visubW p vd va vb => Sys2Proof.Machine.execVisubW p vd va vb s
      | .vimulB p vd va vb => Sys2Proof.Machine.execVimulB p vd va vb s
      | .vimulH p vd va vb => Sys2Proof.Machine.execVimulH p vd va vb s
      | .vimulW p vd va vb => Sys2Proof.Machine.execVimulW p vd va vb s
      | .vimacB p vd va vb vc => Sys2Proof.Machine.execVimacB p vd va vb vc s
      | .vimacH p vd va vb vc => Sys2Proof.Machine.execVimacH p vd va vb vc s
      | .vimacW p vd va vb vc => Sys2Proof.Machine.execVimacW p vd va vb vc s
      | .vand p vd va vb => Sys2Proof.Machine.execVand p vd va vb s
      | .vor p vd va vb => Sys2Proof.Machine.execVor p vd va vb s
      | .vxor p vd va vb => Sys2Proof.Machine.execVxor p vd va vb s
      | .vpopc p vd va => Sys2Proof.Machine.execVpopc p vd va s
      | .viaddBScalar p vd va sb => Sys2Proof.Machine.execViaddBScalar p vd va sb s
      | .viaddHScalar p vd va sb => Sys2Proof.Machine.execViaddHScalar p vd va sb s
      | .viaddWScalar p vd va sb => Sys2Proof.Machine.execViaddWScalar p vd va sb s
      | .visubBScalar p vd va sb => Sys2Proof.Machine.execVisubBScalar p vd va sb s
      | .visubHScalar p vd va sb => Sys2Proof.Machine.execVisubHScalar p vd va sb s
      | .visubWScalar p vd va sb => Sys2Proof.Machine.execVisubWScalar p vd va sb s
      | .vimulBScalar p vd va sb => Sys2Proof.Machine.execVimulBScalar p vd va sb s
      | .vimulHScalar p vd va sb => Sys2Proof.Machine.execVimulHScalar p vd va sb s
      | .vimulWScalar p vd va sb => Sys2Proof.Machine.execVimulWScalar p vd va sb s
      | .vimacBScalar p vd va sb vc => Sys2Proof.Machine.execVimacBScalar p vd va sb vc s
      | .vimacHScalar p vd va sb vc => Sys2Proof.Machine.execVimacHScalar p vd va sb vc s
      | .vimacWScalar p vd va sb vc => Sys2Proof.Machine.execVimacWScalar p vd va sb vc s
      | .vshlB p vd va amt => Sys2Proof.Machine.execVshlB p vd va amt s
      | .vshlH p vd va amt => Sys2Proof.Machine.execVshlH p vd va amt s
      | .vshlW p vd va amt => Sys2Proof.Machine.execVshlW p vd va amt s
      | .vshrB p vd va amt => Sys2Proof.Machine.execVshrB p vd va amt s
      | .vshrH p vd va amt => Sys2Proof.Machine.execVshrH p vd va amt s
      | .vshrW p vd va amt => Sys2Proof.Machine.execVshrW p vd va amt s
      | .vsarB p vd va amt => Sys2Proof.Machine.execVsarB p vd va amt s
      | .vsarH p vd va amt => Sys2Proof.Machine.execVsarH p vd va amt s
      | .vsarW p vd va amt => Sys2Proof.Machine.execVsarW p vd va amt s
      | .vcvt p vd va sfmt dfmt => Sys2Proof.Machine.execVcvt p vd va sfmt dfmt s
      | .vcvtK p vd va sfmt dfmt => Sys2Proof.Machine.execVcvtK p vd va sfmt dfmt s
      | .vpack p vd va vb ew3 => Sys2Proof.Machine.execVpack p vd va vb ew3 s
      | .vunpk p vd va ew3 part => Sys2Proof.Machine.execVunpk p vd va ew3 part s
      | .vperm p vd va vb => Sys2Proof.Machine.execVperm p vd va vb s
      | .vshuf p vd va vb pattern => Sys2Proof.Machine.execVshuf p vd va vb pattern s
      | .vbcastScalar p vd sa ew => Sys2Proof.Machine.execVbcastScalar p vd sa ew s
      | .vbcastElement p vd va idx ew => Sys2Proof.Machine.execVbcastElement p vd va idx ew s
      | .vextrImm p sd va idx ew => Sys2Proof.Machine.execVextrImm p sd va idx ew s
      | .vextrScalar p sd va si ew => Sys2Proof.Machine.execVextrScalar p sd va si ew s
      | .vinsImm p vd va sa idx ew => Sys2Proof.Machine.execVinsImm p vd va sa idx ew s
      | .vinsScalar p vd va sa si ew => Sys2Proof.Machine.execVinsScalar p vd va sa si ew s
      | .vmov p vd va => Sys2Proof.Machine.execVmov p vd va s
      | .vrng p vd sseed sseq spos draw => Sys2Proof.Machine.execVrng p vd sseed sseq spos draw s
      | .vrngF p vd sseed sseq spos draw => Sys2Proof.Machine.execVrngF p vd sseed sseq spos draw s
      | .tapp p tap seq va rows => Sys2Proof.Machine.execTapp p tap seq va rows s
      | .taps p tap seq va rows sc => Sys2Proof.Machine.execTaps p tap seq va rows sc s
      | .tapld p tap sa => Sys2Proof.Machine.execTapld p tap sa s
      | .taprd p sd tap what => Sys2Proof.Machine.execTaprd p sd tap what s
      | .vredsumF p vd va => Sys2Proof.Machine.execVredsumF p vd va s
      | .vredsumI p vd va => Sys2Proof.Machine.execVredsumI p vd va s
      | .vredmaxF p vd va => Sys2Proof.Machine.execVredmaxF p vd va s
      | .vredmaxSi p vd va => Sys2Proof.Machine.execVredmaxSi p vd va s
      | .vredminF p vd va => Sys2Proof.Machine.execVredminF p vd va s
      | .vredminSi p vd va => Sys2Proof.Machine.execVredminSi p vd va s
      | .vargmax p vd va => Sys2Proof.Machine.execVargmax p vd va s
      | .vscanF p vd va => Sys2Proof.Machine.execVscanF p vd va s
      | .vscanI p vd va => Sys2Proof.Machine.execVscanI p vd va s
      | .ksetImm p kd axis format block value => Sys2Proof.Machine.execKsetImm p kd axis format block value s
      | .ksetScalar p kd axis format block sa => Sys2Proof.Machine.execKsetScalar p kd axis format block sa s
      | .kmov p kd ka => Sys2Proof.Machine.execKmov p kd ka s
      | .kmul p kd ka kb => Sys2Proof.Machine.execKmul p kd ka kb s
      | .kaddeImm p kd ka step => Sys2Proof.Machine.execKaddeImm p kd ka step s
      | .kaddeScalar p kd ka sb => Sys2Proof.Machine.execKaddeScalar p kd ka sb s
      | .kmaxe p kd ka kb => Sys2Proof.Machine.execKmaxe p kd ka kb s
      | .kcvtBf16 p kd ka => Sys2Proof.Machine.execKcvtBf16 p kd ka s
      | .kcvtE8m0 p kd ka => Sys2Proof.Machine.execKcvtE8m0 p kd ka s
      | .kbindTile p tile ks axis block => Sys2Proof.Machine.execKbindTile p tile ks axis block s
      | .kbindBank p cm bank ks axis block => Sys2Proof.Machine.execKbindBank p cm bank ks axis block s
      | .kunbindTile p tile => Sys2Proof.Machine.execKunbindTile p tile s
      | .kunbindBank p cm bank => Sys2Proof.Machine.execKunbindBank p cm bank s
      | .krdRow p vd ks => Sys2Proof.Machine.execKrdRow p vd ks s
      | .krdScalar p sd ks entry sel => Sys2Proof.Machine.execKrdScalar p sd ks entry sel s
      | .kwrRow p kd va => Sys2Proof.Machine.execKwrRow p kd va s
      | .kwrScalar p kd sa entry => Sys2Proof.Machine.execKwrScalar p kd sa entry s
      | .kgen p kd va axis block format => Sys2Proof.Machine.execKgen p kd va axis block format s
      | .mmaL6 p vd abay aoff bbay boff alane blane sg sc => Sys2Proof.Machine.execMmaL6 p vd abay aoff bbay boff alane blane sg sc s
      | .mmaI8 p vd abay aoff bbay boff alane blane sg sc => Sys2Proof.Machine.execMmaI8 p vd abay aoff bbay boff alane blane sg sc s
      | .mmaE4m3 p vd abay aoff bbay boff alane blane sg sc => Sys2Proof.Machine.execMmaE4m3 p vd abay aoff bbay boff alane blane sg sc s
      | .mmaE5m2 p vd abay aoff bbay boff alane blane sg sc => Sys2Proof.Machine.execMmaE5m2 p vd abay aoff bbay boff alane blane sg sc s
      | .mmaE4e5 p vd abay aoff bbay boff alane blane sg sc => Sys2Proof.Machine.execMmaE4e5 p vd abay aoff bbay boff alane blane sg sc s
      | .mmaE5e4 p vd abay aoff bbay boff alane blane sg sc => Sys2Proof.Machine.execMmaE5e4 p vd abay aoff bbay boff alane blane sg sc s
      | .mmaBf16 p vd abay aoff bbay boff alane blane sg sc => Sys2Proof.Machine.execMmaBf16 p vd abay aoff bbay boff alane blane sg sc s
      | .mmaFp16 p vd abay aoff bbay boff alane blane sg sc => Sys2Proof.Machine.execMmaFp16 p vd abay aoff bbay boff alane blane sg sc s
      | .mmazL6 p vd abay aoff bbay boff alane blane sg sc => Sys2Proof.Machine.execMmazL6 p vd abay aoff bbay boff alane blane sg sc s
      | .mmazI8 p vd abay aoff bbay boff alane blane sg sc => Sys2Proof.Machine.execMmazI8 p vd abay aoff bbay boff alane blane sg sc s
      | .mmazE4m3 p vd abay aoff bbay boff alane blane sg sc => Sys2Proof.Machine.execMmazE4m3 p vd abay aoff bbay boff alane blane sg sc s
      | .mmazE5m2 p vd abay aoff bbay boff alane blane sg sc => Sys2Proof.Machine.execMmazE5m2 p vd abay aoff bbay boff alane blane sg sc s
      | .mmazE4e5 p vd abay aoff bbay boff alane blane sg sc => Sys2Proof.Machine.execMmazE4e5 p vd abay aoff bbay boff alane blane sg sc s
      | .mmazE5e4 p vd abay aoff bbay boff alane blane sg sc => Sys2Proof.Machine.execMmazE5e4 p vd abay aoff bbay boff alane blane sg sc s
      | .mmazBf16 p vd abay aoff bbay boff alane blane sg sc => Sys2Proof.Machine.execMmazBf16 p vd abay aoff bbay boff alane blane sg sc s
      | .mmazFp16 p vd abay aoff bbay boff alane blane sg sc => Sys2Proof.Machine.execMmazFp16 p vd abay aoff bbay boff alane blane sg sc s
      | .mxhint p burst => Sys2Proof.Machine.execMxhint p burst s
      | .cmode p mode mask => Sys2Proof.Machine.execCmode p mode mask s
      | .cloadRow p vs cm first wfmt => Sys2Proof.Machine.execCloadRow p vs cm first wfmt s
      | .cloadRound p bay off lane cm first wfmt => Sys2Proof.Machine.execCloadRound p bay off lane cm first wfmt s
      | .cswap p mask => Sys2Proof.Machine.execCswap p mask s
      | .cmacRow p mask va abits asigned wacc => Sys2Proof.Machine.execCmacRow p mask va abits asigned wacc s
      | .cmacRound p mask bay off lane abits asigned wacc => Sys2Proof.Machine.execCmacRound p mask bay off lane abits asigned wacc s
      | .cread p vd cm half => Sys2Proof.Machine.execCread p vd cm half s
      | .creadK p vd cm half => Sys2Proof.Machine.execCreadK p vd cm half s
      | .cclr p mask => Sys2Proof.Machine.execCclr p mask s
      | .cchk p bank cm => Sys2Proof.Machine.execCchk p bank cm s
      | .ld p vd w kd delay => Sys2Proof.Machine.execLd p vd w kd delay s
      | .ldr p vd bay off lane => Sys2Proof.Machine.execLdr p vd bay off lane s
      | .ldkStream p kd w delay => Sys2Proof.Machine.execLdkStream p kd w delay s
      | .ldkRound p kd bay off lane => Sys2Proof.Machine.execLdkRound p kd bay off lane s
      | .ldsRound p sd bay off8 lane => Sys2Proof.Machine.execLdsRound p sd bay off8 lane s
      | .ldsStream p sd w delay => Sys2Proof.Machine.execLdsStream p sd w delay s
      | .popVector p vd q delay => Sys2Proof.Machine.execPopVector p vd q delay s
      | .popScalar p sd q delay => Sys2Proof.Machine.execPopScalar p sd q delay s
      | .fill p tok tile w => Sys2Proof.Machine.execFill p tok tile w s
      | .st p w vs ks => Sys2Proof.Machine.execSt p w vs ks s
      | .str p bay off lane vs => Sys2Proof.Machine.execStr p bay off lane vs s
      | .stkStream p w ks => Sys2Proof.Machine.execStkStream p w ks s
      | .stkRound p bay off lane ks => Sys2Proof.Machine.execStkRound p bay off lane ks s
      | .stsRound p bay off8 lane a => Sys2Proof.Machine.execStsRound p bay off8 lane a s
      | .stsStream p w a => Sys2Proof.Machine.execStsStream p w a s
      | .pushVector p q vs => Sys2Proof.Machine.execPushVector p q vs s
      | .pushScalar p q a => Sys2Proof.Machine.execPushScalar p q a s
      | .spill p tok tile w => Sys2Proof.Machine.execSpill p tok tile w s
      | .movpRound p bay off lane port => Sys2Proof.Machine.execMovpRound p bay off lane port s
      | .movpScalar p a port lane => Sys2Proof.Machine.execMovpScalar p a port lane s
      | .xfer p frm dest lane fromaddr toaddr => Sys2Proof.Machine.execXfer p frm dest lane fromaddr toaddr s
      | .redsVector p vs t op ty sem => Sys2Proof.Machine.execRedsVector p vs t op ty sem s
      | .redsScalar p a t op ty sem => Sys2Proof.Machine.execRedsScalar p a t op ty sem s
      | .scfgTable p w entry => Sys2Proof.Machine.execScfgTable p w entry s
      | .scfgScalar p w word a => Sys2Proof.Machine.execScfgScalar p w word a s
      | .sadv p w dim steps => Sys2Proof.Machine.execSadv p w dim steps s
      | .srst p w => Sys2Proof.Machine.execSrst p w s
      | .yardCycle => Sys2Proof.Machine.execYardCycle s
      | .rewindRestore c => Sys2Proof.Machine.execRewindRestore c s
      | .segmentEntry c => Sys2Proof.Machine.execSegmentEntry c s
      | .yieldBundle c => Sys2Proof.Machine.execYieldBundle c s
      | .deadlineExpiry c => Sys2Proof.Machine.execDeadlineExpiry c s
      | .checkRetest c => Sys2Proof.Machine.execCheckRetest c s
      | .offdieLoadLanding c id => Sys2Proof.Machine.execOffdieLoadLanding c id s
      | .offcoreAccessPerform c id => Sys2Proof.Machine.execOffcoreAccessPerform c id s
      | .pushAccepted c id => Sys2Proof.Machine.execPushAccepted c id s
      | .tokenComplete c id => Sys2Proof.Machine.execTokenComplete c id s
      | .probeAnswer c id => Sys2Proof.Machine.execProbeAnswer c id s
      | .rendezvousRelease l group => Sys2Proof.Machine.execRendezvousRelease l group s
      | .barrierRelease l group yard => Sys2Proof.Machine.execBarrierRelease l group yard s
      | .redsApply stable => Sys2Proof.Machine.execRedsApply stable s
      | .mxwinWrite c code => Sys2Proof.Machine.execMxwinWrite c code s
      | .mxwinTakesEffect stable => Sys2Proof.Machine.execMxwinTakesEffect stable s
      | .dxBackref c => Sys2Proof.Machine.execDxBackref c s
      | .dxCopy c => Sys2Proof.Machine.execDxCopy c s
      | .txTranspose c => Sys2Proof.Machine.execTxTranspose c s
      | .hxSha256 c => Sys2Proof.Machine.execHxSha256 c s
      | .qxConvert c => Sys2Proof.Machine.execQxConvert c s
      | .stationJobEnd stable id => Sys2Proof.Machine.execStationJobEnd stable id s
      | .arrayCold stable => Sys2Proof.Machine.execArrayCold stable s
      | .shadowFillAccept c cm => Sys2Proof.Machine.execShadowFillAccept c cm s
      | .shadowFillEnd c cm => Sys2Proof.Machine.execShadowFillEnd c cm s
      | .hangTimeout c => Sys2Proof.Machine.execHangTimeout c s
      | .hostWrite addr data => Sys2Proof.Machine.execHostWrite addr data s
      | .hostRead addr len excl => Sys2Proof.Machine.execHostRead addr len excl s
      | .queueResume q seq => Sys2Proof.Machine.execQueueResume q seq s
      | .queueEnd q seq => Sys2Proof.Machine.execQueueEnd q seq s
      | .queueCancel q seq => Sys2Proof.Machine.execQueueCancel q seq s
      | .placementDecision => Sys2Proof.Machine.execPlacementDecision s
      | .launchRunStart l => Sys2Proof.Machine.execLaunchRunStart l s
      | .contextRelease c => Sys2Proof.Machine.execContextRelease c s
      | .launchCompletion l => Sys2Proof.Machine.execLaunchCompletion l s
      | .swapOut l yard => Sys2Proof.Machine.execSwapOut l yard s
      | .swapOutSave l yard => Sys2Proof.Machine.execSwapOutSave l yard s
      | .dramMeterWindow l => Sys2Proof.Machine.execDramMeterWindow l s
      | .auditVerdict stall replay sig => Sys2Proof.Machine.execAuditVerdict stall replay sig s
      | .scrubPass => Sys2Proof.Machine.execScrubPass s
      | .sieveAgeing => Sys2Proof.Machine.execSieveAgeing s
      | .linkCrcError struct owner retries => Sys2Proof.Machine.execLinkCrcError struct owner retries s
      | .repairRequest v => Sys2Proof.Machine.execRepairRequest v s
      | .repairCopy => Sys2Proof.Machine.execRepairCopy s
      | .yardLost yard cause => Sys2Proof.Machine.execYardLost yard cause s
      | .thermalTrip yard => Sys2Proof.Machine.execThermalTrip yard s
      | .yardActivate site yard => Sys2Proof.Machine.execYardActivate site yard s
      | .yardDeclareLost yard => Sys2Proof.Machine.execYardDeclareLost yard s
      | .yardSelfTestDone yard passed => Sys2Proof.Machine.execYardSelfTestDone yard passed s
      | .degrArrayFailed stall => Sys2Proof.Machine.execDegrArrayFailed stall s
      | .degrMacroFailed stall cm partner => Sys2Proof.Machine.execDegrMacroFailed stall cm partner s
      | .degrClear stall => Sys2Proof.Machine.execDegrClear stall s
      | .rqCompact => Sys2Proof.Machine.execRqCompact s
      | .rqExpand => Sys2Proof.Machine.execRqExpand s
      | .rqMove => Sys2Proof.Machine.execRqMove s
      | .rqMakeAbsent => Sys2Proof.Machine.execRqMakeAbsent s
      | .rqMakeResident => Sys2Proof.Machine.execRqMakeResident s
      | .rqJobEnd => Sys2Proof.Machine.execRqJobEnd s
      | .hostMemwr addr data => Sys2Proof.Machine.execHostMemwr addr data s
      | .birsp region => Sys2Proof.Machine.execBirsp region s
      | .regionWindowEnd region => Sys2Proof.Machine.execRegionWindowEnd region s
      | .hostSnoop line inval => Sys2Proof.Machine.execHostSnoop line inval s
      | .gpfPhase1 => Sys2Proof.Machine.execGpfPhase1 s
      | .hostHotReset => Sys2Proof.Machine.execHostHotReset s
      | .hostLinkDown => Sys2Proof.Machine.execHostLinkDown s
      | .tableSweep => Sys2Proof.Machine.execTableSweep s
      | .linkRetrained => Sys2Proof.Machine.execLinkRetrained s
      | .tokenElementAccept l reads => Sys2Proof.Machine.execTokenElementAccept l reads s
      | .commitElementDelivery l => Sys2Proof.Machine.execCommitElementDelivery l s
      | .ringRecordWrite l => Sys2Proof.Machine.execRingRecordWrite l s
      | .freeFaultEntry => Sys2Proof.Machine.execFreeFaultEntry s
      | .firmwareRequestPost v => Sys2Proof.Machine.execFirmwareRequestPost v s
      | .openQueues v => Sys2Proof.Machine.execOpenQueues v s
      | .eventClear v => Sys2Proof.Machine.execEventClear v s
      | .fbstatOverflowClear v => Sys2Proof.Machine.execFbstatOverflowClear v s
      | .suspectClear n v => Sys2Proof.Machine.execSuspectClear n v s
      | .regionEntryWrite v => Sys2Proof.Machine.execRegionEntryWrite v s
      | .svdataAccess c wr v => Sys2Proof.Machine.execSvdataAccess c wr v s
      | .measurementExtend v => Sys2Proof.Machine.execMeasurementExtend v s
      | .hashRegistration addr => Sys2Proof.Machine.execHashRegistration addr s
      | .clockFloorChange yard => Sys2Proof.Machine.execClockFloorChange yard s
      | .privCsrWrite c n v => Sys2Proof.Machine.execPrivCsrWrite c n v s
      | .eventTimer => Sys2Proof.Machine.execEventTimer s
      | .controlContextEntry => Sys2Proof.Machine.execControlContextEntry s
      | .quote data => Sys2Proof.Machine.execQuote data s
      | .certificate data => Sys2Proof.Machine.execCertificate data s
      | .writeImageChunk data => Sys2Proof.Machine.execWriteImageChunk data s
      | .commitImage data => Sys2Proof.Machine.execCommitImage data s
      | .advanceSecurityVersion data => Sys2Proof.Machine.execAdvanceSecurityVersion data s
      | .readErrorLog data => Sys2Proof.Machine.execReadErrorLog data s
      | .readHangRecord data => Sys2Proof.Machine.execReadHangRecord data s
      | .readLostLineRing data => Sys2Proof.Machine.execReadLostLineRing data s
      | .mailboxStandardCommand opcode data => Sys2Proof.Machine.execMailboxStandardCommand opcode data s
      | .mailboxUnsupported opcode => Sys2Proof.Machine.execMailboxUnsupported opcode s
      | .moduleReset => Sys2Proof.Machine.execModuleReset s
      | .memoryTrained => Sys2Proof.Machine.execMemoryTrained s
      | .trainingFailure sub => Sys2Proof.Machine.execTrainingFailure sub s
      | .imageVerify => Sys2Proof.Machine.execImageVerify s
      | .bringupSelfTestDone failed => Sys2Proof.Machine.execBringupSelfTestDone failed s
      | .tapldCopyComplete c => Sys2Proof.Machine.execTapldCopyComplete c s
      | .registrationEnd => Sys2Proof.Machine.execRegistrationEnd s

end Sys2Proof.Machine
end

