-- ==== Sys2Proof/Machine/Run.lean ====
section
/-!
DEFINITION. How one item of the agenda runs: a context's landing, checks, one slot of its bundle, its commit, and the end of a
Yard's cycle, and what the module does beside them (R268). Operations of the W and C slots run by their meanings directly.
-/

namespace Sys2Proof.Machine

/-- The effect of a W or C slot operation. -/
def runX : XOp → State → Host.Outcome State Fault Refusal
  | .st p w vs ks, s => execSt p w vs ks s
  | .str p bay off lane vs, s => execStr p bay off lane vs s
  | .stkStream p w ks, s => execStkStream p w ks s
  | .stkRound p bay off lane ks, s => execStkRound p bay off lane ks s
  | .stsRound p bay off8 lane a, s => execStsRound p bay off8 lane a s
  | .stsStream p w a, s => execStsStream p w a s
  | .pushVector p q vs, s => execPushVector p q vs s
  | .pushScalar p q a, s => execPushScalar p q a s
  | .spill p tok tile w, s => execSpill p tok tile w s
  | .movpRound p bay off lane port, s => execMovpRound p bay off lane port s
  | .movpScalar p a port lane, s => execMovpScalar p a port lane s
  | .xfer p frm dest lane fromaddr toaddr, s => execXfer p frm dest lane fromaddr toaddr s
  | .redsVector p vs t op ty sem, s => execRedsVector p vs t op ty sem s
  | .redsScalar p a t op ty sem, s => execRedsScalar p a t op ty sem s
  | .scfgTable p w entry, s => execScfgTable p w entry s
  | .scfgScalar p w word a, s => execScfgScalar p w word a s
  | .sadv p w dim steps, s => execSadv p w dim steps s
  | .srst p w, s => execSrst p w s

/-- The effect of a decoded slot operation, with the effect of an instruction given. -/
def runOp (run : Instr → State → Host.Outcome State Fault Refusal) (o : SlotOp) (s : State) : Host.Outcome State Fault Refusal :=
  match o with
  | .ins i => run i s
  | .wc x => runX x s

/-- One slot of a context's due bundle fetched from the instruction store, decoded and run; an encoding that is no instruction
raises fault 0x01 (R72, R94). -/
def fetchSlot (run : Instr → State → Host.Outcome State Fault Refusal) (s : State) (c slot : Nat) : Host.Outcome State Fault Refusal :=
  match slotInstr (bundleAt s c (ctxOf s c).pc) slot with
  | .ok o => runOp run o (enterSlot s c slot)
  | .error _ => .next (faultAt s c 1 0 slot)

/-- One item of the agenda. -/
def runWork (run : Instr → State → Host.Outcome State Fault Refusal) (s : State) (w : Work) : Host.Outcome State Fault Refusal :=
  match w with
  | .land c => .next (landCtx s c)
  | .issue c => .next (issueCtx s c)
  | .fetch c slot => fetchSlot run s c slot
  | .commit c => .next (commitBundle s c)
  | .close n => .next (closeYard s n)
  | .hang c => .next (hangTimeout s c)
  | .record c slot => .next (writeHang s c slot)
  | .swap l => .next (swapAll s l)
  | .rewind c => .next (rewindStep s c)
  | .jobs n slot => .next (stepJobs s n slot)
  | .period => .next (runPeriod s)

end Sys2Proof.Machine
end

