-- ==== Sys2Proof/Machine/Fetch.lean ====
section
/-!
DEFINITION. The placing of one Y-slot instruction as the only operation of a bundle, with the marks its bundle must carry, for
the instruction word a table row gives (R72, R73, R107).
-/

namespace Sys2Proof.Machine

/-- The bundle whose Y slot holds a 24-bit word: present bit 7, the yield mark for YIELD, the rendezvous mark for RDV (R73, R136,
R144, log 4). -/
def bundleOfY (w : Nat) : Nat :=
  let op := w % 2 ^ 24 / 2 ^ 19
  2 ^ 19 + (if op = 9 then 2 ^ 46 else 0) + (if op = 2 then 2 ^ 48 else 0) + (w % 2 ^ 24) * 2 ^ slotLow 7

/-- A context running on Stall 0 of Yard 0, at the first bundle of a code extent of one bundle (R25). -/
def oneBundleCtx : Ctx :=
  { ctxInit with status := .running, landedNow := true, grant := { ctxInit.grant with codeLen := 1 } }

/-- The state with a Y-slot word as the only operation of the bundle that runs next (log 4). -/
def placeY (s : State) (w : Nat) : State :=
  { s with agenda := [.fetch 0 7], inbox := [], ctxs := mput s.ctxs 0 oneBundleCtx,
           istore := writeBytes s.istore 0 (leBytes 64 (bundleOfY w)) }

end Sys2Proof.Machine
end

