-- ==== Sys2Proof/Machine/Step.lean ====
section
/-!
DEFINITION. One step: the next item of the agenda, else the next event that waits outside, else a reference period.
-/

namespace Sys2Proof.Machine

/-- One step of the machine (log 6). -/
def step (s : State) : Host.Outcome State Fault Refusal :=
  match s.agenda, s.inbox with
  | w :: r, _ => runWork exec { s with agenda := r } w
  | [], i :: r => exec i { s with inbox := r }
  | [], [] => exec .yardCycle s

/-- The state in which the next step runs the instruction whose 24 bits are `w` (log 4). -/
def State.withFetchWord (s : State) (_nbits w : Nat) : State := placeY s w

end Sys2Proof.Machine
end

