-- ==== Sys2Proof/Laws/Fields.lean ====
section
/-!
SUPPORT. Fields of concatenated bits, and what the decoder reads from a field whose opcode and operands are known: one lemma per form.
-/

namespace Sys2Proof

theorem ex_set {n w i k : Nat} (x : BitVec n) (h : i + k ≤ w) : (x.setWidth w).extractLsb' i k = x.extractLsb' i k := by
  apply BitVec.eq_of_getLsbD_eq; intro j hj
  simp [show i + j < w by omega]

theorem ex_hi {n m i k : Nat} (a : BitVec n) (b : BitVec m) (h : m ≤ i) :
    (a ++ b).extractLsb' i k = a.extractLsb' (i - m) k := by
  apply BitVec.eq_of_getLsbD_eq; intro j hj
  simp [BitVec.getLsbD_append, show ¬ i + j < m by omega, show i + j - m = i - m + j by omega]

theorem ex_lo {n m : Nat} (a : BitVec n) (b : BitVec m) : (a ++ b).extractLsb' 0 m = b := by
  apply BitVec.eq_of_getLsbD_eq; intro j hj
  simp [BitVec.getLsbD_append, hj]

theorem ex_all {n : Nat} (a : BitVec n) : a.extractLsb' 0 n = a := by
  apply BitVec.eq_of_getLsbD_eq; intro j hj
  simp [hj]

theorem ex_join (a : BitVec 64) : a.extractLsb' 30 34 ++ a.extractLsb' 0 30 = a := by
  apply BitVec.eq_of_getLsbD_eq; intro j hj
  refine (BitVec.getLsbD_append).trans ?_
  by_cases h : j < 30
  · simp [h]
  · simp [h, show j - 30 < 34 by omega, show 30 + (j - 30) = j by omega]

/-- The instruction that the fields of an encoding name, before field values and reserved bits are checked (R104 to R114). -/
noncomputable def rawOf (e : Encoded) : Option Instr :=
  match e.map with
  | .s => rawS (e.field.setWidth 48) e.ext
  | .v => rawV e.field
  | .m => rawM e.field
  | .l => rawL (e.field.setWidth 56)
  | .w => (rawW (e.field.setWidth 48)).map XOp.instr
  | .c => (rawC (e.field.setWidth 48)).map XOp.instr
  | .y => rawY (e.field.setWidth 24)

theorem raw_nop (x : BitVec 24) (p)
    (h0 : (x.extractLsb' 19 5).toNat = 0) (h1 : x.extractLsb' 16 3 = p) :
    rawY x = some (.nop p) := by
  subst h1
  unfold rawY
  rw [h0]
  rfl

theorem raw_bar (x : BitVec 24) (p group)
    (h0 : (x.extractLsb' 19 5).toNat = 1) (h1 : x.extractLsb' 16 3 = p) (h2 : x.extractLsb' 0 4 = group) :
    rawY x = some (.bar p group) := by
  subst h1 h2
  unfold rawY
  rw [h0]
  rfl

theorem raw_rdv (x : BitVec 24) (p group)
    (h0 : (x.extractLsb' 19 5).toNat = 2) (h1 : x.extractLsb' 16 3 = p) (h2 : x.extractLsb' 0 4 = group) :
    rawY x = some (.rdv p group) := by
  subst h1 h2
  unfold rawY
  rw [h0]
  rfl

theorem raw_waitdImm (x : BitVec 24) (p count)
    (h0 : (x.extractLsb' 19 5).toNat = 3) (h1 : x.extractLsb' 16 3 = p) (h2 : x.extractLsb' 0 16 = count) :
    rawY x = some (.waitdImm p count) := by
  subst h1 h2
  unfold rawY
  rw [h0]
  rfl

theorem raw_waitdScalar (x : BitVec 24) (p a)
    (h0 : (x.extractLsb' 19 5).toNat = 4) (h1 : x.extractLsb' 16 3 = p) (h2 : x.extractLsb' 0 6 = a) :
    rawY x = some (.waitdScalar p a) := by
  subst h1 h2
  unfold rawY
  rw [h0]
  rfl

theorem raw_fence (x : BitVec 24) (p scope)
    (h0 : (x.extractLsb' 19 5).toNat = 5) (h1 : x.extractLsb' 16 3 = p) (h2 : x.extractLsb' 0 4 = scope) :
    rawY x = some (.fence p scope) := by
  subst h1 h2
  unfold rawY
  rw [h0]
  rfl

theorem raw_semsig (x : BitVec 24) (p c sem)
    (h0 : (x.extractLsb' 19 5).toNat = 6) (h1 : x.extractLsb' 16 3 = p) (h2 : x.extractLsb' 6 6 = c) (h3 : x.extractLsb' 0 6 = sem) :
    rawY x = some (.semsig p c sem) := by
  subst h1 h2 h3
  unfold rawY
  rw [h0]
  rfl

theorem raw_semsigScalar (x : BitVec 24) (p c a)
    (h0 : (x.extractLsb' 19 5).toNat = 7) (h1 : x.extractLsb' 16 3 = p) (h2 : x.extractLsb' 6 6 = c) (h3 : x.extractLsb' 0 6 = a) :
    rawY x = some (.semsigScalar p c a) := by
  subst h1 h2 h3
  unfold rawY
  rw [h0]
  rfl

theorem raw_semwait (x : BitVec 24) (p c sem)
    (h0 : (x.extractLsb' 19 5).toNat = 8) (h1 : x.extractLsb' 16 3 = p) (h2 : x.extractLsb' 6 6 = c) (h3 : x.extractLsb' 0 6 = sem) :
    rawY x = some (.semwait p c sem) := by
  subst h1 h2 h3
  unfold rawY
  rw [h0]
  rfl

theorem raw_yield (x : BitVec 24) (p)
    (h0 : (x.extractLsb' 19 5).toNat = 9) (h1 : x.extractLsb' 16 3 = p) :
    rawY x = some (.yield p) := by
  subst h1
  unfold rawY
  rw [h0]
  rfl

theorem raw_svc (x : BitVec 24) (p code)
    (h0 : (x.extractLsb' 19 5).toNat = 10) (h1 : x.extractLsb' 16 3 = p) (h2 : x.extractLsb' 0 12 = code) :
    rawY x = some (.svc p code) := by
  subst h1 h2
  unfold rawY
  rw [h0]
  rfl

theorem raw_trap (x : BitVec 24) (p code)
    (h0 : (x.extractLsb' 19 5).toNat = 11) (h1 : x.extractLsb' 16 3 = p) (h2 : x.extractLsb' 0 12 = code) :
    rawY x = some (.trap p code) := by
  subst h1 h2
  unfold rawY
  rw [h0]
  rfl

theorem raw_halt (x : BitVec 24) (p)
    (h0 : (x.extractLsb' 19 5).toNat = 12) (h1 : x.extractLsb' 16 3 = p) :
    rawY x = some (.halt p) := by
  subst h1
  unfold rawY
  rw [h0]
  rfl

theorem raw_probe (x : BitVec 24) (p b a)
    (h0 : (x.extractLsb' 19 5).toNat = 13) (h1 : x.extractLsb' 16 3 = p) (h2 : x.extractLsb' 6 6 = b) (h3 : x.extractLsb' 0 6 = a) :
    rawY x = some (.probe p b a) := by
  subst h1 h2 h3
  unfold rawY
  rw [h0]
  rfl

theorem raw_discard (x : BitVec 24) (p b a)
    (h0 : (x.extractLsb' 19 5).toNat = 14) (h1 : x.extractLsb' 16 3 = p) (h2 : x.extractLsb' 6 6 = b) (h3 : x.extractLsb' 0 6 = a) :
    rawY x = some (.discard p b a) := by
  subst h1 h2 h3
  unfold rawY
  rw [h0]
  rfl

theorem raw_exit (x : BitVec 24) (p)
    (h0 : (x.extractLsb' 19 5).toNat = 15) (h1 : x.extractLsb' 16 3 = p) :
    rawY x = some (.exit p) := by
  subst h1
  unfold rawY
  rw [h0]
  rfl

theorem raw_add (x : BitVec 48) (ext : BitVec 64) (p d a b)
    (h0 : (x.extractLsb' 41 7).toNat = 0) (h1 : x.extractLsb' 36 5 = p) (h2 : x.extractLsb' 30 6 = d) (h3 : x.extractLsb' 24 6 = a) (h4 : x.extractLsb' 18 6 = b) :
    rawS x ext = some (.add p d a b) := by
  subst h1 h2 h3 h4
  unfold rawS
  rw [h0]
  rfl

theorem raw_sub (x : BitVec 48) (ext : BitVec 64) (p d a b)
    (h0 : (x.extractLsb' 41 7).toNat = 1) (h1 : x.extractLsb' 36 5 = p) (h2 : x.extractLsb' 30 6 = d) (h3 : x.extractLsb' 24 6 = a) (h4 : x.extractLsb' 18 6 = b) :
    rawS x ext = some (.sub p d a b) := by
  subst h1 h2 h3 h4
  unfold rawS
  rw [h0]
  rfl

theorem raw_mul (x : BitVec 48) (ext : BitVec 64) (p d a b)
    (h0 : (x.extractLsb' 41 7).toNat = 2) (h1 : x.extractLsb' 36 5 = p) (h2 : x.extractLsb' 30 6 = d) (h3 : x.extractLsb' 24 6 = a) (h4 : x.extractLsb' 18 6 = b) :
    rawS x ext = some (.mul p d a b) := by
  subst h1 h2 h3 h4
  unfold rawS
  rw [h0]
  rfl

theorem raw_mulh (x : BitVec 48) (ext : BitVec 64) (p d a b)
    (h0 : (x.extractLsb' 41 7).toNat = 3) (h1 : x.extractLsb' 36 5 = p) (h2 : x.extractLsb' 30 6 = d) (h3 : x.extractLsb' 24 6 = a) (h4 : x.extractLsb' 18 6 = b) :
    rawS x ext = some (.mulh p d a b) := by
  subst h1 h2 h3 h4
  unfold rawS
  rw [h0]
  rfl

theorem raw_mulhs (x : BitVec 48) (ext : BitVec 64) (p d a b)
    (h0 : (x.extractLsb' 41 7).toNat = 4) (h1 : x.extractLsb' 36 5 = p) (h2 : x.extractLsb' 30 6 = d) (h3 : x.extractLsb' 24 6 = a) (h4 : x.extractLsb' 18 6 = b) :
    rawS x ext = some (.mulhs p d a b) := by
  subst h1 h2 h3 h4
  unfold rawS
  rw [h0]
  rfl

theorem raw_div (x : BitVec 48) (ext : BitVec 64) (p d a b)
    (h0 : (x.extractLsb' 41 7).toNat = 5) (h1 : x.extractLsb' 36 5 = p) (h2 : x.extractLsb' 30 6 = d) (h3 : x.extractLsb' 24 6 = a) (h4 : x.extractLsb' 18 6 = b) :
    rawS x ext = some (.div p d a b) := by
  subst h1 h2 h3 h4
  unfold rawS
  rw [h0]
  rfl

theorem raw_divs (x : BitVec 48) (ext : BitVec 64) (p d a b)
    (h0 : (x.extractLsb' 41 7).toNat = 6) (h1 : x.extractLsb' 36 5 = p) (h2 : x.extractLsb' 30 6 = d) (h3 : x.extractLsb' 24 6 = a) (h4 : x.extractLsb' 18 6 = b) :
    rawS x ext = some (.divs p d a b) := by
  subst h1 h2 h3 h4
  unfold rawS
  rw [h0]
  rfl

theorem raw_rem (x : BitVec 48) (ext : BitVec 64) (p d a b)
    (h0 : (x.extractLsb' 41 7).toNat = 7) (h1 : x.extractLsb' 36 5 = p) (h2 : x.extractLsb' 30 6 = d) (h3 : x.extractLsb' 24 6 = a) (h4 : x.extractLsb' 18 6 = b) :
    rawS x ext = some (.rem p d a b) := by
  subst h1 h2 h3 h4
  unfold rawS
  rw [h0]
  rfl

theorem raw_and (x : BitVec 48) (ext : BitVec 64) (p d a b)
    (h0 : (x.extractLsb' 41 7).toNat = 8) (h1 : x.extractLsb' 36 5 = p) (h2 : x.extractLsb' 30 6 = d) (h3 : x.extractLsb' 24 6 = a) (h4 : x.extractLsb' 18 6 = b) :
    rawS x ext = some (.and p d a b) := by
  subst h1 h2 h3 h4
  unfold rawS
  rw [h0]
  rfl

theorem raw_or (x : BitVec 48) (ext : BitVec 64) (p d a b)
    (h0 : (x.extractLsb' 41 7).toNat = 9) (h1 : x.extractLsb' 36 5 = p) (h2 : x.extractLsb' 30 6 = d) (h3 : x.extractLsb' 24 6 = a) (h4 : x.extractLsb' 18 6 = b) :
    rawS x ext = some (.or p d a b) := by
  subst h1 h2 h3 h4
  unfold rawS
  rw [h0]
  rfl

theorem raw_xor (x : BitVec 48) (ext : BitVec 64) (p d a b)
    (h0 : (x.extractLsb' 41 7).toNat = 10) (h1 : x.extractLsb' 36 5 = p) (h2 : x.extractLsb' 30 6 = d) (h3 : x.extractLsb' 24 6 = a) (h4 : x.extractLsb' 18 6 = b) :
    rawS x ext = some (.xor p d a b) := by
  subst h1 h2 h3 h4
  unfold rawS
  rw [h0]
  rfl

theorem raw_andn (x : BitVec 48) (ext : BitVec 64) (p d a b)
    (h0 : (x.extractLsb' 41 7).toNat = 11) (h1 : x.extractLsb' 36 5 = p) (h2 : x.extractLsb' 30 6 = d) (h3 : x.extractLsb' 24 6 = a) (h4 : x.extractLsb' 18 6 = b) :
    rawS x ext = some (.andn p d a b) := by
  subst h1 h2 h3 h4
  unfold rawS
  rw [h0]
  rfl

theorem raw_shl (x : BitVec 48) (ext : BitVec 64) (p d a b)
    (h0 : (x.extractLsb' 41 7).toNat = 12) (h1 : x.extractLsb' 36 5 = p) (h2 : x.extractLsb' 30 6 = d) (h3 : x.extractLsb' 24 6 = a) (h4 : x.extractLsb' 18 6 = b) :
    rawS x ext = some (.shl p d a b) := by
  subst h1 h2 h3 h4
  unfold rawS
  rw [h0]
  rfl

theorem raw_shr (x : BitVec 48) (ext : BitVec 64) (p d a b)
    (h0 : (x.extractLsb' 41 7).toNat = 13) (h1 : x.extractLsb' 36 5 = p) (h2 : x.extractLsb' 30 6 = d) (h3 : x.extractLsb' 24 6 = a) (h4 : x.extractLsb' 18 6 = b) :
    rawS x ext = some (.shr p d a b) := by
  subst h1 h2 h3 h4
  unfold rawS
  rw [h0]
  rfl

theorem raw_sar (x : BitVec 48) (ext : BitVec 64) (p d a b)
    (h0 : (x.extractLsb' 41 7).toNat = 14) (h1 : x.extractLsb' 36 5 = p) (h2 : x.extractLsb' 30 6 = d) (h3 : x.extractLsb' 24 6 = a) (h4 : x.extractLsb' 18 6 = b) :
    rawS x ext = some (.sar p d a b) := by
  subst h1 h2 h3 h4
  unfold rawS
  rw [h0]
  rfl

theorem raw_rotl (x : BitVec 48) (ext : BitVec 64) (p d a b)
    (h0 : (x.extractLsb' 41 7).toNat = 15) (h1 : x.extractLsb' 36 5 = p) (h2 : x.extractLsb' 30 6 = d) (h3 : x.extractLsb' 24 6 = a) (h4 : x.extractLsb' 18 6 = b) :
    rawS x ext = some (.rotl p d a b) := by
  subst h1 h2 h3 h4
  unfold rawS
  rw [h0]
  rfl

theorem raw_min (x : BitVec 48) (ext : BitVec 64) (p d a b)
    (h0 : (x.extractLsb' 41 7).toNat = 16) (h1 : x.extractLsb' 36 5 = p) (h2 : x.extractLsb' 30 6 = d) (h3 : x.extractLsb' 24 6 = a) (h4 : x.extractLsb' 18 6 = b) :
    rawS x ext = some (.min p d a b) := by
  subst h1 h2 h3 h4
  unfold rawS
  rw [h0]
  rfl

theorem raw_max (x : BitVec 48) (ext : BitVec 64) (p d a b)
    (h0 : (x.extractLsb' 41 7).toNat = 17) (h1 : x.extractLsb' 36 5 = p) (h2 : x.extractLsb' 30 6 = d) (h3 : x.extractLsb' 24 6 = a) (h4 : x.extractLsb' 18 6 = b) :
    rawS x ext = some (.max p d a b) := by
  subst h1 h2 h3 h4
  unfold rawS
  rw [h0]
  rfl

theorem raw_mins (x : BitVec 48) (ext : BitVec 64) (p d a b)
    (h0 : (x.extractLsb' 41 7).toNat = 18) (h1 : x.extractLsb' 36 5 = p) (h2 : x.extractLsb' 30 6 = d) (h3 : x.extractLsb' 24 6 = a) (h4 : x.extractLsb' 18 6 = b) :
    rawS x ext = some (.mins p d a b) := by
  subst h1 h2 h3 h4
  unfold rawS
  rw [h0]
  rfl

theorem raw_maxs (x : BitVec 48) (ext : BitVec 64) (p d a b)
    (h0 : (x.extractLsb' 41 7).toNat = 19) (h1 : x.extractLsb' 36 5 = p) (h2 : x.extractLsb' 30 6 = d) (h3 : x.extractLsb' 24 6 = a) (h4 : x.extractLsb' 18 6 = b) :
    rawS x ext = some (.maxs p d a b) := by
  subst h1 h2 h3 h4
  unfold rawS
  rw [h0]
  rfl

theorem raw_addsh (x : BitVec 48) (ext : BitVec 64) (p d a b sh)
    (h0 : (x.extractLsb' 41 7).toNat = 20) (h1 : x.extractLsb' 36 5 = p) (h2 : x.extractLsb' 30 6 = d) (h3 : x.extractLsb' 24 6 = a) (h4 : x.extractLsb' 18 6 = b) (h5 : x.extractLsb' 15 3 = sh) :
    rawS x ext = some (.addsh p d a b sh) := by
  subst h1 h2 h3 h4 h5
  unfold rawS
  rw [h0]
  rfl

theorem raw_clz (x : BitVec 48) (ext : BitVec 64) (p d a)
    (h0 : (x.extractLsb' 41 7).toNat = 21) (h1 : x.extractLsb' 36 5 = p) (h2 : x.extractLsb' 30 6 = d) (h3 : x.extractLsb' 24 6 = a) :
    rawS x ext = some (.clz p d a) := by
  subst h1 h2 h3
  unfold rawS
  rw [h0]
  rfl

theorem raw_popc (x : BitVec 48) (ext : BitVec 64) (p d a)
    (h0 : (x.extractLsb' 41 7).toNat = 22) (h1 : x.extractLsb' 36 5 = p) (h2 : x.extractLsb' 30 6 = d) (h3 : x.extractLsb' 24 6 = a) :
    rawS x ext = some (.popc p d a) := by
  subst h1 h2 h3
  unfold rawS
  rw [h0]
  rfl

theorem raw_sel (x : BitVec 48) (ext : BitVec 64) (p d a b pc)
    (h0 : (x.extractLsb' 41 7).toNat = 23) (h1 : x.extractLsb' 36 5 = p) (h2 : x.extractLsb' 30 6 = d) (h3 : x.extractLsb' 24 6 = a) (h4 : x.extractLsb' 18 6 = b) (h5 : x.extractLsb' 14 4 = pc) :
    rawS x ext = some (.sel p d a b pc) := by
  subst h1 h2 h3 h4 h5
  unfold rawS
  rw [h0]
  rfl

theorem raw_addi (x : BitVec 48) (ext : BitVec 64) (p d a psel imm)
    (h0 : (x.extractLsb' 41 7).toNat = 32) (h1 : x.extractLsb' 36 5 = p) (h2 : x.extractLsb' 30 6 = d) (h3 : x.extractLsb' 24 6 = a) (h4 : x.extractLsb' 22 2 = psel) (h5 : x.extractLsb' 0 22 = imm) :
    rawS x ext = some (.addi p d a psel imm) := by
  subst h1 h2 h3 h4 h5
  unfold rawS
  rw [h0]
  rfl

theorem raw_mulImm (x : BitVec 48) (ext : BitVec 64) (p d a psel imm)
    (h0 : (x.extractLsb' 41 7).toNat = 34) (h1 : x.extractLsb' 36 5 = p) (h2 : x.extractLsb' 30 6 = d) (h3 : x.extractLsb' 24 6 = a) (h4 : x.extractLsb' 22 2 = psel) (h5 : x.extractLsb' 0 22 = imm) :
    rawS x ext = some (.mulImm p d a psel imm) := by
  subst h1 h2 h3 h4 h5
  unfold rawS
  rw [h0]
  rfl

theorem raw_andImm (x : BitVec 48) (ext : BitVec 64) (p d a psel imm)
    (h0 : (x.extractLsb' 41 7).toNat = 40) (h1 : x.extractLsb' 36 5 = p) (h2 : x.extractLsb' 30 6 = d) (h3 : x.extractLsb' 24 6 = a) (h4 : x.extractLsb' 22 2 = psel) (h5 : x.extractLsb' 0 22 = imm) :
    rawS x ext = some (.andImm p d a psel imm) := by
  subst h1 h2 h3 h4 h5
  unfold rawS
  rw [h0]
  rfl

theorem raw_orImm (x : BitVec 48) (ext : BitVec 64) (p d a psel imm)
    (h0 : (x.extractLsb' 41 7).toNat = 41) (h1 : x.extractLsb' 36 5 = p) (h2 : x.extractLsb' 30 6 = d) (h3 : x.extractLsb' 24 6 = a) (h4 : x.extractLsb' 22 2 = psel) (h5 : x.extractLsb' 0 22 = imm) :
    rawS x ext = some (.orImm p d a psel imm) := by
  subst h1 h2 h3 h4 h5
  unfold rawS
  rw [h0]
  rfl

theorem raw_xorImm (x : BitVec 48) (ext : BitVec 64) (p d a psel imm)
    (h0 : (x.extractLsb' 41 7).toNat = 42) (h1 : x.extractLsb' 36 5 = p) (h2 : x.extractLsb' 30 6 = d) (h3 : x.extractLsb' 24 6 = a) (h4 : x.extractLsb' 22 2 = psel) (h5 : x.extractLsb' 0 22 = imm) :
    rawS x ext = some (.xorImm p d a psel imm) := by
  subst h1 h2 h3 h4 h5
  unfold rawS
  rw [h0]
  rfl

theorem raw_shlImm (x : BitVec 48) (ext : BitVec 64) (p d a psel imm)
    (h0 : (x.extractLsb' 41 7).toNat = 44) (h1 : x.extractLsb' 36 5 = p) (h2 : x.extractLsb' 30 6 = d) (h3 : x.extractLsb' 24 6 = a) (h4 : x.extractLsb' 22 2 = psel) (h5 : x.extractLsb' 0 22 = imm) :
    rawS x ext = some (.shlImm p d a psel imm) := by
  subst h1 h2 h3 h4 h5
  unfold rawS
  rw [h0]
  rfl

theorem raw_shrImm (x : BitVec 48) (ext : BitVec 64) (p d a psel imm)
    (h0 : (x.extractLsb' 41 7).toNat = 45) (h1 : x.extractLsb' 36 5 = p) (h2 : x.extractLsb' 30 6 = d) (h3 : x.extractLsb' 24 6 = a) (h4 : x.extractLsb' 22 2 = psel) (h5 : x.extractLsb' 0 22 = imm) :
    rawS x ext = some (.shrImm p d a psel imm) := by
  subst h1 h2 h3 h4 h5
  unfold rawS
  rw [h0]
  rfl

theorem raw_sarImm (x : BitVec 48) (ext : BitVec 64) (p d a psel imm)
    (h0 : (x.extractLsb' 41 7).toNat = 46) (h1 : x.extractLsb' 36 5 = p) (h2 : x.extractLsb' 30 6 = d) (h3 : x.extractLsb' 24 6 = a) (h4 : x.extractLsb' 22 2 = psel) (h5 : x.extractLsb' 0 22 = imm) :
    rawS x ext = some (.sarImm p d a psel imm) := by
  subst h1 h2 h3 h4 h5
  unfold rawS
  rw [h0]
  rfl

theorem raw_rotlImm (x : BitVec 48) (ext : BitVec 64) (p d a psel imm)
    (h0 : (x.extractLsb' 41 7).toNat = 47) (h1 : x.extractLsb' 36 5 = p) (h2 : x.extractLsb' 30 6 = d) (h3 : x.extractLsb' 24 6 = a) (h4 : x.extractLsb' 22 2 = psel) (h5 : x.extractLsb' 0 22 = imm) :
    rawS x ext = some (.rotlImm p d a psel imm) := by
  subst h1 h2 h3 h4 h5
  unfold rawS
  rw [h0]
  rfl

theorem raw_minImm (x : BitVec 48) (ext : BitVec 64) (p d a psel imm)
    (h0 : (x.extractLsb' 41 7).toNat = 48) (h1 : x.extractLsb' 36 5 = p) (h2 : x.extractLsb' 30 6 = d) (h3 : x.extractLsb' 24 6 = a) (h4 : x.extractLsb' 22 2 = psel) (h5 : x.extractLsb' 0 22 = imm) :
    rawS x ext = some (.minImm p d a psel imm) := by
  subst h1 h2 h3 h4 h5
  unfold rawS
  rw [h0]
  rfl

theorem raw_maxImm (x : BitVec 48) (ext : BitVec 64) (p d a psel imm)
    (h0 : (x.extractLsb' 41 7).toNat = 49) (h1 : x.extractLsb' 36 5 = p) (h2 : x.extractLsb' 30 6 = d) (h3 : x.extractLsb' 24 6 = a) (h4 : x.extractLsb' 22 2 = psel) (h5 : x.extractLsb' 0 22 = imm) :
    rawS x ext = some (.maxImm p d a psel imm) := by
  subst h1 h2 h3 h4 h5
  unfold rawS
  rw [h0]
  rfl

theorem raw_minsImm (x : BitVec 48) (ext : BitVec 64) (p d a psel imm)
    (h0 : (x.extractLsb' 41 7).toNat = 50) (h1 : x.extractLsb' 36 5 = p) (h2 : x.extractLsb' 30 6 = d) (h3 : x.extractLsb' 24 6 = a) (h4 : x.extractLsb' 22 2 = psel) (h5 : x.extractLsb' 0 22 = imm) :
    rawS x ext = some (.minsImm p d a psel imm) := by
  subst h1 h2 h3 h4 h5
  unfold rawS
  rw [h0]
  rfl

theorem raw_maxsImm (x : BitVec 48) (ext : BitVec 64) (p d a psel imm)
    (h0 : (x.extractLsb' 41 7).toNat = 51) (h1 : x.extractLsb' 36 5 = p) (h2 : x.extractLsb' 30 6 = d) (h3 : x.extractLsb' 24 6 = a) (h4 : x.extractLsb' 22 2 = psel) (h5 : x.extractLsb' 0 22 = imm) :
    rawS x ext = some (.maxsImm p d a psel imm) := by
  subst h1 h2 h3 h4 h5
  unfold rawS
  rw [h0]
  rfl

theorem raw_cmpeq (x : BitVec 48) (ext : BitVec 64) (p pd a b)
    (h0 : (x.extractLsb' 41 7).toNat = 64) (h1 : x.extractLsb' 36 5 = p) (h2 : x.extractLsb' 32 4 = pd) (h3 : x.extractLsb' 24 6 = a) (h4 : x.extractLsb' 18 6 = b) :
    rawS x ext = some (.cmpeq p pd a b) := by
  subst h1 h2 h3 h4
  unfold rawS
  rw [h0]
  rfl

theorem raw_cmpne (x : BitVec 48) (ext : BitVec 64) (p pd a b)
    (h0 : (x.extractLsb' 41 7).toNat = 65) (h1 : x.extractLsb' 36 5 = p) (h2 : x.extractLsb' 32 4 = pd) (h3 : x.extractLsb' 24 6 = a) (h4 : x.extractLsb' 18 6 = b) :
    rawS x ext = some (.cmpne p pd a b) := by
  subst h1 h2 h3 h4
  unfold rawS
  rw [h0]
  rfl

theorem raw_cmplt (x : BitVec 48) (ext : BitVec 64) (p pd a b)
    (h0 : (x.extractLsb' 41 7).toNat = 66) (h1 : x.extractLsb' 36 5 = p) (h2 : x.extractLsb' 32 4 = pd) (h3 : x.extractLsb' 24 6 = a) (h4 : x.extractLsb' 18 6 = b) :
    rawS x ext = some (.cmplt p pd a b) := by
  subst h1 h2 h3 h4
  unfold rawS
  rw [h0]
  rfl

theorem raw_cmplts (x : BitVec 48) (ext : BitVec 64) (p pd a b)
    (h0 : (x.extractLsb' 41 7).toNat = 67) (h1 : x.extractLsb' 36 5 = p) (h2 : x.extractLsb' 32 4 = pd) (h3 : x.extractLsb' 24 6 = a) (h4 : x.extractLsb' 18 6 = b) :
    rawS x ext = some (.cmplts p pd a b) := by
  subst h1 h2 h3 h4
  unfold rawS
  rw [h0]
  rfl

theorem raw_cmple (x : BitVec 48) (ext : BitVec 64) (p pd a b)
    (h0 : (x.extractLsb' 41 7).toNat = 68) (h1 : x.extractLsb' 36 5 = p) (h2 : x.extractLsb' 32 4 = pd) (h3 : x.extractLsb' 24 6 = a) (h4 : x.extractLsb' 18 6 = b) :
    rawS x ext = some (.cmple p pd a b) := by
  subst h1 h2 h3 h4
  unfold rawS
  rw [h0]
  rfl

theorem raw_cmples (x : BitVec 48) (ext : BitVec 64) (p pd a b)
    (h0 : (x.extractLsb' 41 7).toNat = 69) (h1 : x.extractLsb' 36 5 = p) (h2 : x.extractLsb' 32 4 = pd) (h3 : x.extractLsb' 24 6 = a) (h4 : x.extractLsb' 18 6 = b) :
    rawS x ext = some (.cmples p pd a b) := by
  subst h1 h2 h3 h4
  unfold rawS
  rw [h0]
  rfl

theorem raw_cmpeqImm (x : BitVec 48) (ext : BitVec 64) (p pd a psel imm)
    (h0 : (x.extractLsb' 41 7).toNat = 72) (h1 : x.extractLsb' 36 5 = p) (h2 : x.extractLsb' 32 4 = pd) (h3 : x.extractLsb' 24 6 = a) (h4 : x.extractLsb' 22 2 = psel) (h5 : x.extractLsb' 0 22 = imm) :
    rawS x ext = some (.cmpeqImm p pd a psel imm) := by
  subst h1 h2 h3 h4 h5
  unfold rawS
  rw [h0]
  rfl

theorem raw_cmpneImm (x : BitVec 48) (ext : BitVec 64) (p pd a psel imm)
    (h0 : (x.extractLsb' 41 7).toNat = 73) (h1 : x.extractLsb' 36 5 = p) (h2 : x.extractLsb' 32 4 = pd) (h3 : x.extractLsb' 24 6 = a) (h4 : x.extractLsb' 22 2 = psel) (h5 : x.extractLsb' 0 22 = imm) :
    rawS x ext = some (.cmpneImm p pd a psel imm) := by
  subst h1 h2 h3 h4 h5
  unfold rawS
  rw [h0]
  rfl

theorem raw_cmpltImm (x : BitVec 48) (ext : BitVec 64) (p pd a psel imm)
    (h0 : (x.extractLsb' 41 7).toNat = 74) (h1 : x.extractLsb' 36 5 = p) (h2 : x.extractLsb' 32 4 = pd) (h3 : x.extractLsb' 24 6 = a) (h4 : x.extractLsb' 22 2 = psel) (h5 : x.extractLsb' 0 22 = imm) :
    rawS x ext = some (.cmpltImm p pd a psel imm) := by
  subst h1 h2 h3 h4 h5
  unfold rawS
  rw [h0]
  rfl

theorem raw_cmpltsImm (x : BitVec 48) (ext : BitVec 64) (p pd a psel imm)
    (h0 : (x.extractLsb' 41 7).toNat = 75) (h1 : x.extractLsb' 36 5 = p) (h2 : x.extractLsb' 32 4 = pd) (h3 : x.extractLsb' 24 6 = a) (h4 : x.extractLsb' 22 2 = psel) (h5 : x.extractLsb' 0 22 = imm) :
    rawS x ext = some (.cmpltsImm p pd a psel imm) := by
  subst h1 h2 h3 h4 h5
  unfold rawS
  rw [h0]
  rfl

theorem raw_cmpleImm (x : BitVec 48) (ext : BitVec 64) (p pd a psel imm)
    (h0 : (x.extractLsb' 41 7).toNat = 76) (h1 : x.extractLsb' 36 5 = p) (h2 : x.extractLsb' 32 4 = pd) (h3 : x.extractLsb' 24 6 = a) (h4 : x.extractLsb' 22 2 = psel) (h5 : x.extractLsb' 0 22 = imm) :
    rawS x ext = some (.cmpleImm p pd a psel imm) := by
  subst h1 h2 h3 h4 h5
  unfold rawS
  rw [h0]
  rfl

theorem raw_cmplesImm (x : BitVec 48) (ext : BitVec 64) (p pd a psel imm)
    (h0 : (x.extractLsb' 41 7).toNat = 77) (h1 : x.extractLsb' 36 5 = p) (h2 : x.extractLsb' 32 4 = pd) (h3 : x.extractLsb' 24 6 = a) (h4 : x.extractLsb' 22 2 = psel) (h5 : x.extractLsb' 0 22 = imm) :
    rawS x ext = some (.cmplesImm p pd a psel imm) := by
  subst h1 h2 h3 h4 h5
  unfold rawS
  rw [h0]
  rfl

theorem raw_li (x : BitVec 48) (ext : BitVec 64) (p d psel imm)
    (h0 : (x.extractLsb' 41 7).toNat = 80) (h1 : x.extractLsb' 36 5 = p) (h2 : x.extractLsb' 30 6 = d) (h3 : x.extractLsb' 28 2 = psel) (h4 : x.extractLsb' 0 28 = imm) :
    rawS x ext = some (.li p d psel imm) := by
  subst h1 h2 h3 h4
  unfold rawS
  rw [h0]
  rfl

theorem raw_liLong (x : BitVec 48) (ext : BitVec 64) (p d imm)
    (h0 : (x.extractLsb' 41 7).toNat = 81) (h1 : x.extractLsb' 36 5 = p) (h2 : x.extractLsb' 30 6 = d) (h3 : ext.extractLsb' 0 34 ++ x.extractLsb' 0 30 = imm) :
    rawS x ext = some (.liLong p d imm) := by
  subst h1 h2 h3
  unfold rawS
  rw [h0]
  rfl

theorem raw_pset (x : BitVec 48) (ext : BitVec 64) (p pd a)
    (h0 : (x.extractLsb' 41 7).toNat = 84) (h1 : x.extractLsb' 36 5 = p) (h2 : x.extractLsb' 32 4 = pd) (h3 : x.extractLsb' 24 6 = a) :
    rawS x ext = some (.pset p pd a) := by
  subst h1 h2 h3
  unfold rawS
  rw [h0]
  rfl

theorem raw_pand (x : BitVec 48) (ext : BitVec 64) (p pd pa pb inva invb)
    (h0 : (x.extractLsb' 41 7).toNat = 85) (h1 : x.extractLsb' 36 5 = p) (h2 : x.extractLsb' 32 4 = pd) (h3 : x.extractLsb' 28 4 = pa) (h4 : x.extractLsb' 24 4 = pb) (h5 : x.extractLsb' 23 1 = inva) (h6 : x.extractLsb' 22 1 = invb) :
    rawS x ext = some (.pand p pd pa pb inva invb) := by
  subst h1 h2 h3 h4 h5 h6
  unfold rawS
  rw [h0]
  rfl

theorem raw_por (x : BitVec 48) (ext : BitVec 64) (p pd pa pb inva invb)
    (h0 : (x.extractLsb' 41 7).toNat = 86) (h1 : x.extractLsb' 36 5 = p) (h2 : x.extractLsb' 32 4 = pd) (h3 : x.extractLsb' 28 4 = pa) (h4 : x.extractLsb' 24 4 = pb) (h5 : x.extractLsb' 23 1 = inva) (h6 : x.extractLsb' 22 1 = invb) :
    rawS x ext = some (.por p pd pa pb inva invb) := by
  subst h1 h2 h3 h4 h5 h6
  unfold rawS
  rw [h0]
  rfl

theorem raw_pxor (x : BitVec 48) (ext : BitVec 64) (p pd pa pb inva invb)
    (h0 : (x.extractLsb' 41 7).toNat = 87) (h1 : x.extractLsb' 36 5 = p) (h2 : x.extractLsb' 32 4 = pd) (h3 : x.extractLsb' 28 4 = pa) (h4 : x.extractLsb' 24 4 = pb) (h5 : x.extractLsb' 23 1 = inva) (h6 : x.extractLsb' 22 1 = invb) :
    rawS x ext = some (.pxor p pd pa pb inva invb) := by
  subst h1 h2 h3 h4 h5 h6
  unfold rawS
  rw [h0]
  rfl

theorem raw_pnot (x : BitVec 48) (ext : BitVec 64) (p pd pa)
    (h0 : (x.extractLsb' 41 7).toNat = 88) (h1 : x.extractLsb' 36 5 = p) (h2 : x.extractLsb' 32 4 = pd) (h3 : x.extractLsb' 28 4 = pa) :
    rawS x ext = some (.pnot p pd pa) := by
  subst h1 h2 h3
  unfold rawS
  rw [h0]
  rfl

theorem raw_br (x : BitVec 48) (ext : BitVec 64) (p target)
    (h0 : (x.extractLsb' 41 7).toNat = 96) (h1 : x.extractLsb' 36 5 = p) (h2 : x.extractLsb' 0 12 = target) :
    rawS x ext = some (.br p target) := by
  subst h1 h2
  unfold rawS
  rw [h0]
  rfl

theorem raw_brScalar (x : BitVec 48) (ext : BitVec 64) (p a)
    (h0 : (x.extractLsb' 41 7).toNat = 97) (h1 : x.extractLsb' 36 5 = p) (h2 : x.extractLsb' 24 6 = a) :
    rawS x ext = some (.brScalar p a) := by
  subst h1 h2
  unfold rawS
  rw [h0]
  rfl

theorem raw_bc (x : BitVec 48) (ext : BitVec 64) (p a b cond target)
    (h0 : (x.extractLsb' 41 7).toNat = 98) (h1 : x.extractLsb' 36 5 = p) (h2 : x.extractLsb' 24 6 = a) (h3 : x.extractLsb' 18 6 = b) (h4 : x.extractLsb' 15 3 = cond) (h5 : x.extractLsb' 0 12 = target) :
    rawS x ext = some (.bc p a b cond target) := by
  subst h1 h2 h3 h4 h5
  unfold rawS
  rw [h0]
  rfl

theorem raw_call (x : BitVec 48) (ext : BitVec 64) (p d target)
    (h0 : (x.extractLsb' 41 7).toNat = 99) (h1 : x.extractLsb' 36 5 = p) (h2 : x.extractLsb' 30 6 = d) (h3 : x.extractLsb' 0 12 = target) :
    rawS x ext = some (.call p d target) := by
  subst h1 h2 h3
  unfold rawS
  rw [h0]
  rfl

theorem raw_ret (x : BitVec 48) (ext : BitVec 64) (p a)
    (h0 : (x.extractLsb' 41 7).toNat = 100) (h1 : x.extractLsb' 36 5 = p) (h2 : x.extractLsb' 24 6 = a) :
    rawS x ext = some (.ret p a) := by
  subst h1 h2
  unfold rawS
  rw [h0]
  rfl

theorem raw_loopScalar (x : BitVec 48) (ext : BitVec 64) (p a len)
    (h0 : (x.extractLsb' 41 7).toNat = 101) (h1 : x.extractLsb' 36 5 = p) (h2 : x.extractLsb' 24 6 = a) (h3 : x.extractLsb' 0 12 = len) :
    rawS x ext = some (.loopScalar p a len) := by
  subst h1 h2 h3
  unfold rawS
  rw [h0]
  rfl

theorem raw_loopNbound (x : BitVec 48) (ext : BitVec 64) (p n len)
    (h0 : (x.extractLsb' 41 7).toNat = 102) (h1 : x.extractLsb' 36 5 = p) (h2 : x.extractLsb' 26 4 = n) (h3 : x.extractLsb' 0 12 = len) :
    rawS x ext = some (.loopNbound p n len) := by
  subst h1 h2 h3
  unfold rawS
  rw [h0]
  rfl

theorem raw_loopImm (x : BitVec 48) (ext : BitVec 64) (p count len)
    (h0 : (x.extractLsb' 41 7).toNat = 103) (h1 : x.extractLsb' 36 5 = p) (h2 : x.extractLsb' 12 16 = count) (h3 : x.extractLsb' 0 12 = len) :
    rawS x ext = some (.loopImm p count len) := by
  subst h1 h2 h3
  unfold rawS
  rw [h0]
  rfl

theorem raw_lexit (x : BitVec 48) (ext : BitVec 64) (p)
    (h0 : (x.extractLsb' 41 7).toNat = 104) (h1 : x.extractLsb' 36 5 = p) :
    rawS x ext = some (.lexit p) := by
  subst h1
  unfold rawS
  rw [h0]
  rfl

theorem raw_lidx (x : BitVec 48) (ext : BitVec 64) (p d idx)
    (h0 : (x.extractLsb' 41 7).toNat = 105) (h1 : x.extractLsb' 36 5 = p) (h2 : x.extractLsb' 30 6 = d) (h3 : x.extractLsb' 0 3 = idx) :
    rawS x ext = some (.lidx p d idx) := by
  subst h1 h2 h3
  unfold rawS
  rw [h0]
  rfl

theorem raw_csrr (x : BitVec 48) (ext : BitVec 64) (p d csr)
    (h0 : (x.extractLsb' 41 7).toNat = 112) (h1 : x.extractLsb' 36 5 = p) (h2 : x.extractLsb' 30 6 = d) (h3 : x.extractLsb' 0 12 = csr) :
    rawS x ext = some (.csrr p d csr) := by
  subst h1 h2 h3
  unfold rawS
  rw [h0]
  rfl

theorem raw_csrw (x : BitVec 48) (ext : BitVec 64) (p a csr)
    (h0 : (x.extractLsb' 41 7).toNat = 113) (h1 : x.extractLsb' 36 5 = p) (h2 : x.extractLsb' 24 6 = a) (h3 : x.extractLsb' 0 12 = csr) :
    rawS x ext = some (.csrw p a csr) := by
  subst h1 h2 h3
  unfold rawS
  rw [h0]
  rfl

theorem raw_csrwImm (x : BitVec 48) (ext : BitVec 64) (p imm csr)
    (h0 : (x.extractLsb' 41 7).toNat = 114) (h1 : x.extractLsb' 36 5 = p) (h2 : x.extractLsb' 12 16 = imm) (h3 : x.extractLsb' 0 12 = csr) :
    rawS x ext = some (.csrwImm p imm csr) := by
  subst h1 h2 h3
  unfold rawS
  rw [h0]
  rfl

theorem raw_nbnd (x : BitVec 48) (ext : BitVec 64) (p n a)
    (h0 : (x.extractLsb' 41 7).toNat = 115) (h1 : x.extractLsb' 36 5 = p) (h2 : x.extractLsb' 32 4 = n) (h3 : x.extractLsb' 24 6 = a) :
    rawS x ext = some (.nbnd p n a) := by
  subst h1 h2 h3
  unfold rawS
  rw [h0]
  rfl

theorem raw_nbndImm (x : BitVec 48) (ext : BitVec 64) (p n imm)
    (h0 : (x.extractLsb' 41 7).toNat = 116) (h1 : x.extractLsb' 36 5 = p) (h2 : x.extractLsb' 32 4 = n) (h3 : x.extractLsb' 0 32 = imm) :
    rawS x ext = some (.nbndImm p n imm) := by
  subst h1 h2 h3
  unfold rawS
  rw [h0]
  rfl

theorem raw_vadd (x : BitVec 64) (p vd va vb)
    (h0 : (x.extractLsb' 57 7).toNat = 0) (h1 : x.extractLsb' 52 5 = p) (h2 : x.extractLsb' 39 13 = vd) (h3 : x.extractLsb' 26 13 = va) (h4 : x.extractLsb' 13 13 = vb) :
    rawV x = some (.vadd p vd va vb) := by
  subst h1 h2 h3 h4
  unfold rawV
  rw [h0]
  rfl

theorem raw_vsub (x : BitVec 64) (p vd va vb)
    (h0 : (x.extractLsb' 57 7).toNat = 1) (h1 : x.extractLsb' 52 5 = p) (h2 : x.extractLsb' 39 13 = vd) (h3 : x.extractLsb' 26 13 = va) (h4 : x.extractLsb' 13 13 = vb) :
    rawV x = some (.vsub p vd va vb) := by
  subst h1 h2 h3 h4
  unfold rawV
  rw [h0]
  rfl

theorem raw_vmul (x : BitVec 64) (p vd va vb)
    (h0 : (x.extractLsb' 57 7).toNat = 2) (h1 : x.extractLsb' 52 5 = p) (h2 : x.extractLsb' 39 13 = vd) (h3 : x.extractLsb' 26 13 = va) (h4 : x.extractLsb' 13 13 = vb) :
    rawV x = some (.vmul p vd va vb) := by
  subst h1 h2 h3 h4
  unfold rawV
  rw [h0]
  rfl

theorem raw_vmin (x : BitVec 64) (p vd va vb)
    (h0 : (x.extractLsb' 57 7).toNat = 3) (h1 : x.extractLsb' 52 5 = p) (h2 : x.extractLsb' 39 13 = vd) (h3 : x.extractLsb' 26 13 = va) (h4 : x.extractLsb' 13 13 = vb) :
    rawV x = some (.vmin p vd va vb) := by
  subst h1 h2 h3 h4
  unfold rawV
  rw [h0]
  rfl

theorem raw_vmax (x : BitVec 64) (p vd va vb)
    (h0 : (x.extractLsb' 57 7).toNat = 4) (h1 : x.extractLsb' 52 5 = p) (h2 : x.extractLsb' 39 13 = vd) (h3 : x.extractLsb' 26 13 = va) (h4 : x.extractLsb' 13 13 = vb) :
    rawV x = some (.vmax p vd va vb) := by
  subst h1 h2 h3 h4
  unfold rawV
  rw [h0]
  rfl

theorem raw_vfma (x : BitVec 64) (p vd va vb vc)
    (h0 : (x.extractLsb' 57 7).toNat = 5) (h1 : x.extractLsb' 52 5 = p) (h2 : x.extractLsb' 39 13 = vd) (h3 : x.extractLsb' 26 13 = va) (h4 : x.extractLsb' 13 13 = vb) (h5 : x.extractLsb' 0 13 = vc) :
    rawV x = some (.vfma p vd va vb vc) := by
  subst h1 h2 h3 h4 h5
  unfold rawV
  rw [h0]
  rfl

theorem raw_vfms (x : BitVec 64) (p vd va vb vc)
    (h0 : (x.extractLsb' 57 7).toNat = 6) (h1 : x.extractLsb' 52 5 = p) (h2 : x.extractLsb' 39 13 = vd) (h3 : x.extractLsb' 26 13 = va) (h4 : x.extractLsb' 13 13 = vb) (h5 : x.extractLsb' 0 13 = vc) :
    rawV x = some (.vfms p vd va vb vc) := by
  subst h1 h2 h3 h4 h5
  unfold rawV
  rw [h0]
  rfl

theorem raw_vfnma (x : BitVec 64) (p vd va vb vc)
    (h0 : (x.extractLsb' 57 7).toNat = 7) (h1 : x.extractLsb' 52 5 = p) (h2 : x.extractLsb' 39 13 = vd) (h3 : x.extractLsb' 26 13 = va) (h4 : x.extractLsb' 13 13 = vb) (h5 : x.extractLsb' 0 13 = vc) :
    rawV x = some (.vfnma p vd va vb vc) := by
  subst h1 h2 h3 h4 h5
  unfold rawV
  rw [h0]
  rfl

theorem raw_vaddScalar (x : BitVec 64) (p vd va sb)
    (h0 : (x.extractLsb' 57 7).toNat = 8) (h1 : x.extractLsb' 52 5 = p) (h2 : x.extractLsb' 39 13 = vd) (h3 : x.extractLsb' 26 13 = va) (h4 : x.extractLsb' 20 6 = sb) :
    rawV x = some (.vaddScalar p vd va sb) := by
  subst h1 h2 h3 h4
  unfold rawV
  rw [h0]
  rfl

theorem raw_vsubScalar (x : BitVec 64) (p vd va sb)
    (h0 : (x.extractLsb' 57 7).toNat = 9) (h1 : x.extractLsb' 52 5 = p) (h2 : x.extractLsb' 39 13 = vd) (h3 : x.extractLsb' 26 13 = va) (h4 : x.extractLsb' 20 6 = sb) :
    rawV x = some (.vsubScalar p vd va sb) := by
  subst h1 h2 h3 h4
  unfold rawV
  rw [h0]
  rfl

theorem raw_vmulScalar (x : BitVec 64) (p vd va sb)
    (h0 : (x.extractLsb' 57 7).toNat = 10) (h1 : x.extractLsb' 52 5 = p) (h2 : x.extractLsb' 39 13 = vd) (h3 : x.extractLsb' 26 13 = va) (h4 : x.extractLsb' 20 6 = sb) :
    rawV x = some (.vmulScalar p vd va sb) := by
  subst h1 h2 h3 h4
  unfold rawV
  rw [h0]
  rfl

theorem raw_vminScalar (x : BitVec 64) (p vd va sb)
    (h0 : (x.extractLsb' 57 7).toNat = 11) (h1 : x.extractLsb' 52 5 = p) (h2 : x.extractLsb' 39 13 = vd) (h3 : x.extractLsb' 26 13 = va) (h4 : x.extractLsb' 20 6 = sb) :
    rawV x = some (.vminScalar p vd va sb) := by
  subst h1 h2 h3 h4
  unfold rawV
  rw [h0]
  rfl

theorem raw_vmaxScalar (x : BitVec 64) (p vd va sb)
    (h0 : (x.extractLsb' 57 7).toNat = 12) (h1 : x.extractLsb' 52 5 = p) (h2 : x.extractLsb' 39 13 = vd) (h3 : x.extractLsb' 26 13 = va) (h4 : x.extractLsb' 20 6 = sb) :
    rawV x = some (.vmaxScalar p vd va sb) := by
  subst h1 h2 h3 h4
  unfold rawV
  rw [h0]
  rfl

theorem raw_vfmaScalar (x : BitVec 64) (p vd va sb vc)
    (h0 : (x.extractLsb' 57 7).toNat = 13) (h1 : x.extractLsb' 52 5 = p) (h2 : x.extractLsb' 39 13 = vd) (h3 : x.extractLsb' 26 13 = va) (h4 : x.extractLsb' 20 6 = sb) (h5 : x.extractLsb' 7 13 = vc) :
    rawV x = some (.vfmaScalar p vd va sb vc) := by
  subst h1 h2 h3 h4 h5
  unfold rawV
  rw [h0]
  rfl

theorem raw_vfmsScalar (x : BitVec 64) (p vd va sb vc)
    (h0 : (x.extractLsb' 57 7).toNat = 14) (h1 : x.extractLsb' 52 5 = p) (h2 : x.extractLsb' 39 13 = vd) (h3 : x.extractLsb' 26 13 = va) (h4 : x.extractLsb' 20 6 = sb) (h5 : x.extractLsb' 7 13 = vc) :
    rawV x = some (.vfmsScalar p vd va sb vc) := by
  subst h1 h2 h3 h4 h5
  unfold rawV
  rw [h0]
  rfl

theorem raw_vfnmaScalar (x : BitVec 64) (p vd va sb vc)
    (h0 : (x.extractLsb' 57 7).toNat = 15) (h1 : x.extractLsb' 52 5 = p) (h2 : x.extractLsb' 39 13 = vd) (h3 : x.extractLsb' 26 13 = va) (h4 : x.extractLsb' 20 6 = sb) (h5 : x.extractLsb' 7 13 = vc) :
    rawV x = some (.vfnmaScalar p vd va sb vc) := by
  subst h1 h2 h3 h4 h5
  unfold rawV
  rw [h0]
  rfl

theorem raw_vabs (x : BitVec 64) (p vd va)
    (h0 : (x.extractLsb' 57 7).toNat = 16) (h1 : x.extractLsb' 52 5 = p) (h2 : x.extractLsb' 39 13 = vd) (h3 : x.extractLsb' 26 13 = va) :
    rawV x = some (.vabs p vd va) := by
  subst h1 h2 h3
  unfold rawV
  rw [h0]
  rfl

theorem raw_vneg (x : BitVec 64) (p vd va)
    (h0 : (x.extractLsb' 57 7).toNat = 17) (h1 : x.extractLsb' 52 5 = p) (h2 : x.extractLsb' 39 13 = vd) (h3 : x.extractLsb' 26 13 = va) :
    rawV x = some (.vneg p vd va) := by
  subst h1 h2 h3
  unfold rawV
  rw [h0]
  rfl

theorem raw_vrcp (x : BitVec 64) (p vd va)
    (h0 : (x.extractLsb' 57 7).toNat = 18) (h1 : x.extractLsb' 52 5 = p) (h2 : x.extractLsb' 39 13 = vd) (h3 : x.extractLsb' 26 13 = va) :
    rawV x = some (.vrcp p vd va) := by
  subst h1 h2 h3
  unfold rawV
  rw [h0]
  rfl

theorem raw_vrsq (x : BitVec 64) (p vd va)
    (h0 : (x.extractLsb' 57 7).toNat = 19) (h1 : x.extractLsb' 52 5 = p) (h2 : x.extractLsb' 39 13 = vd) (h3 : x.extractLsb' 26 13 = va) :
    rawV x = some (.vrsq p vd va) := by
  subst h1 h2 h3
  unfold rawV
  rw [h0]
  rfl

theorem raw_vexp2 (x : BitVec 64) (p vd va)
    (h0 : (x.extractLsb' 57 7).toNat = 20) (h1 : x.extractLsb' 52 5 = p) (h2 : x.extractLsb' 39 13 = vd) (h3 : x.extractLsb' 26 13 = va) :
    rawV x = some (.vexp2 p vd va) := by
  subst h1 h2 h3
  unfold rawV
  rw [h0]
  rfl

theorem raw_vlog2 (x : BitVec 64) (p vd va)
    (h0 : (x.extractLsb' 57 7).toNat = 21) (h1 : x.extractLsb' 52 5 = p) (h2 : x.extractLsb' 39 13 = vd) (h3 : x.extractLsb' 26 13 = va) :
    rawV x = some (.vlog2 p vd va) := by
  subst h1 h2 h3
  unfold rawV
  rw [h0]
  rfl

theorem raw_vclamp (x : BitVec 64) (p vd va slo shi)
    (h0 : (x.extractLsb' 57 7).toNat = 22) (h1 : x.extractLsb' 52 5 = p) (h2 : x.extractLsb' 39 13 = vd) (h3 : x.extractLsb' 26 13 = va) (h4 : x.extractLsb' 20 6 = slo) (h5 : x.extractLsb' 14 6 = shi) :
    rawV x = some (.vclamp p vd va slo shi) := by
  subst h1 h2 h3 h4 h5
  unfold rawV
  rw [h0]
  rfl

theorem raw_vsel (x : BitVec 64) (p vd va vb vc)
    (h0 : (x.extractLsb' 57 7).toNat = 23) (h1 : x.extractLsb' 52 5 = p) (h2 : x.extractLsb' 39 13 = vd) (h3 : x.extractLsb' 26 13 = va) (h4 : x.extractLsb' 13 13 = vb) (h5 : x.extractLsb' 0 13 = vc) :
    rawV x = some (.vsel p vd va vb vc) := by
  subst h1 h2 h3 h4 h5
  unfold rawV
  rw [h0]
  rfl

theorem raw_vcmpeqF (x : BitVec 64) (p vd va vb)
    (h0 : (x.extractLsb' 57 7).toNat = 24) (h1 : x.extractLsb' 52 5 = p) (h2 : x.extractLsb' 39 13 = vd) (h3 : x.extractLsb' 26 13 = va) (h4 : x.extractLsb' 13 13 = vb) :
    rawV x = some (.vcmpeqF p vd va vb) := by
  subst h1 h2 h3 h4
  unfold rawV
  rw [h0]
  rfl

theorem raw_vcmpeqI (x : BitVec 64) (p vd va vb)
    (h0 : (x.extractLsb' 57 7).toNat = 25) (h1 : x.extractLsb' 52 5 = p) (h2 : x.extractLsb' 39 13 = vd) (h3 : x.extractLsb' 26 13 = va) (h4 : x.extractLsb' 13 13 = vb) :
    rawV x = some (.vcmpeqI p vd va vb) := by
  subst h1 h2 h3 h4
  unfold rawV
  rw [h0]
  rfl

theorem raw_vcmpltF (x : BitVec 64) (p vd va vb)
    (h0 : (x.extractLsb' 57 7).toNat = 26) (h1 : x.extractLsb' 52 5 = p) (h2 : x.extractLsb' 39 13 = vd) (h3 : x.extractLsb' 26 13 = va) (h4 : x.extractLsb' 13 13 = vb) :
    rawV x = some (.vcmpltF p vd va vb) := by
  subst h1 h2 h3 h4
  unfold rawV
  rw [h0]
  rfl

theorem raw_vcmpltSi (x : BitVec 64) (p vd va vb)
    (h0 : (x.extractLsb' 57 7).toNat = 27) (h1 : x.extractLsb' 52 5 = p) (h2 : x.extractLsb' 39 13 = vd) (h3 : x.extractLsb' 26 13 = va) (h4 : x.extractLsb' 13 13 = vb) :
    rawV x = some (.vcmpltSi p vd va vb) := by
  subst h1 h2 h3 h4
  unfold rawV
  rw [h0]
  rfl

theorem raw_vcmpltUi (x : BitVec 64) (p vd va vb)
    (h0 : (x.extractLsb' 57 7).toNat = 28) (h1 : x.extractLsb' 52 5 = p) (h2 : x.extractLsb' 39 13 = vd) (h3 : x.extractLsb' 26 13 = va) (h4 : x.extractLsb' 13 13 = vb) :
    rawV x = some (.vcmpltUi p vd va vb) := by
  subst h1 h2 h3 h4
  unfold rawV
  rw [h0]
  rfl

theorem raw_vcmpleF (x : BitVec 64) (p vd va vb)
    (h0 : (x.extractLsb' 57 7).toNat = 29) (h1 : x.extractLsb' 52 5 = p) (h2 : x.extractLsb' 39 13 = vd) (h3 : x.extractLsb' 26 13 = va) (h4 : x.extractLsb' 13 13 = vb) :
    rawV x = some (.vcmpleF p vd va vb) := by
  subst h1 h2 h3 h4
  unfold rawV
  rw [h0]
  rfl

theorem raw_vcmpleSi (x : BitVec 64) (p vd va vb)
    (h0 : (x.extractLsb' 57 7).toNat = 30) (h1 : x.extractLsb' 52 5 = p) (h2 : x.extractLsb' 39 13 = vd) (h3 : x.extractLsb' 26 13 = va) (h4 : x.extractLsb' 13 13 = vb) :
    rawV x = some (.vcmpleSi p vd va vb) := by
  subst h1 h2 h3 h4
  unfold rawV
  rw [h0]
  rfl

theorem raw_vcmpleUi (x : BitVec 64) (p vd va vb)
    (h0 : (x.extractLsb' 57 7).toNat = 31) (h1 : x.extractLsb' 52 5 = p) (h2 : x.extractLsb' 39 13 = vd) (h3 : x.extractLsb' 26 13 = va) (h4 : x.extractLsb' 13 13 = vb) :
    rawV x = some (.vcmpleUi p vd va vb) := by
  subst h1 h2 h3 h4
  unfold rawV
  rw [h0]
  rfl

theorem raw_viaddB (x : BitVec 64) (p vd va vb)
    (h0 : (x.extractLsb' 57 7).toNat = 32) (h1 : x.extractLsb' 52 5 = p) (h2 : x.extractLsb' 39 13 = vd) (h3 : x.extractLsb' 26 13 = va) (h4 : x.extractLsb' 13 13 = vb) :
    rawV x = some (.viaddB p vd va vb) := by
  subst h1 h2 h3 h4
  unfold rawV
  rw [h0]
  rfl

theorem raw_viaddH (x : BitVec 64) (p vd va vb)
    (h0 : (x.extractLsb' 57 7).toNat = 33) (h1 : x.extractLsb' 52 5 = p) (h2 : x.extractLsb' 39 13 = vd) (h3 : x.extractLsb' 26 13 = va) (h4 : x.extractLsb' 13 13 = vb) :
    rawV x = some (.viaddH p vd va vb) := by
  subst h1 h2 h3 h4
  unfold rawV
  rw [h0]
  rfl

theorem raw_viaddW (x : BitVec 64) (p vd va vb)
    (h0 : (x.extractLsb' 57 7).toNat = 34) (h1 : x.extractLsb' 52 5 = p) (h2 : x.extractLsb' 39 13 = vd) (h3 : x.extractLsb' 26 13 = va) (h4 : x.extractLsb' 13 13 = vb) :
    rawV x = some (.viaddW p vd va vb) := by
  subst h1 h2 h3 h4
  unfold rawV
  rw [h0]
  rfl

theorem raw_visubB (x : BitVec 64) (p vd va vb)
    (h0 : (x.extractLsb' 57 7).toNat = 35) (h1 : x.extractLsb' 52 5 = p) (h2 : x.extractLsb' 39 13 = vd) (h3 : x.extractLsb' 26 13 = va) (h4 : x.extractLsb' 13 13 = vb) :
    rawV x = some (.visubB p vd va vb) := by
  subst h1 h2 h3 h4
  unfold rawV
  rw [h0]
  rfl

theorem raw_visubH (x : BitVec 64) (p vd va vb)
    (h0 : (x.extractLsb' 57 7).toNat = 36) (h1 : x.extractLsb' 52 5 = p) (h2 : x.extractLsb' 39 13 = vd) (h3 : x.extractLsb' 26 13 = va) (h4 : x.extractLsb' 13 13 = vb) :
    rawV x = some (.visubH p vd va vb) := by
  subst h1 h2 h3 h4
  unfold rawV
  rw [h0]
  rfl

theorem raw_visubW (x : BitVec 64) (p vd va vb)
    (h0 : (x.extractLsb' 57 7).toNat = 37) (h1 : x.extractLsb' 52 5 = p) (h2 : x.extractLsb' 39 13 = vd) (h3 : x.extractLsb' 26 13 = va) (h4 : x.extractLsb' 13 13 = vb) :
    rawV x = some (.visubW p vd va vb) := by
  subst h1 h2 h3 h4
  unfold rawV
  rw [h0]
  rfl

theorem raw_vimulB (x : BitVec 64) (p vd va vb)
    (h0 : (x.extractLsb' 57 7).toNat = 38) (h1 : x.extractLsb' 52 5 = p) (h2 : x.extractLsb' 39 13 = vd) (h3 : x.extractLsb' 26 13 = va) (h4 : x.extractLsb' 13 13 = vb) :
    rawV x = some (.vimulB p vd va vb) := by
  subst h1 h2 h3 h4
  unfold rawV
  rw [h0]
  rfl

theorem raw_vimulH (x : BitVec 64) (p vd va vb)
    (h0 : (x.extractLsb' 57 7).toNat = 39) (h1 : x.extractLsb' 52 5 = p) (h2 : x.extractLsb' 39 13 = vd) (h3 : x.extractLsb' 26 13 = va) (h4 : x.extractLsb' 13 13 = vb) :
    rawV x = some (.vimulH p vd va vb) := by
  subst h1 h2 h3 h4
  unfold rawV
  rw [h0]
  rfl

theorem raw_vimulW (x : BitVec 64) (p vd va vb)
    (h0 : (x.extractLsb' 57 7).toNat = 40) (h1 : x.extractLsb' 52 5 = p) (h2 : x.extractLsb' 39 13 = vd) (h3 : x.extractLsb' 26 13 = va) (h4 : x.extractLsb' 13 13 = vb) :
    rawV x = some (.vimulW p vd va vb) := by
  subst h1 h2 h3 h4
  unfold rawV
  rw [h0]
  rfl

theorem raw_vimacB (x : BitVec 64) (p vd va vb vc)
    (h0 : (x.extractLsb' 57 7).toNat = 41) (h1 : x.extractLsb' 52 5 = p) (h2 : x.extractLsb' 39 13 = vd) (h3 : x.extractLsb' 26 13 = va) (h4 : x.extractLsb' 13 13 = vb) (h5 : x.extractLsb' 0 13 = vc) :
    rawV x = some (.vimacB p vd va vb vc) := by
  subst h1 h2 h3 h4 h5
  unfold rawV
  rw [h0]
  rfl

theorem raw_vimacH (x : BitVec 64) (p vd va vb vc)
    (h0 : (x.extractLsb' 57 7).toNat = 42) (h1 : x.extractLsb' 52 5 = p) (h2 : x.extractLsb' 39 13 = vd) (h3 : x.extractLsb' 26 13 = va) (h4 : x.extractLsb' 13 13 = vb) (h5 : x.extractLsb' 0 13 = vc) :
    rawV x = some (.vimacH p vd va vb vc) := by
  subst h1 h2 h3 h4 h5
  unfold rawV
  rw [h0]
  rfl

theorem raw_vimacW (x : BitVec 64) (p vd va vb vc)
    (h0 : (x.extractLsb' 57 7).toNat = 43) (h1 : x.extractLsb' 52 5 = p) (h2 : x.extractLsb' 39 13 = vd) (h3 : x.extractLsb' 26 13 = va) (h4 : x.extractLsb' 13 13 = vb) (h5 : x.extractLsb' 0 13 = vc) :
    rawV x = some (.vimacW p vd va vb vc) := by
  subst h1 h2 h3 h4 h5
  unfold rawV
  rw [h0]
  rfl

theorem raw_vand (x : BitVec 64) (p vd va vb)
    (h0 : (x.extractLsb' 57 7).toNat = 44) (h1 : x.extractLsb' 52 5 = p) (h2 : x.extractLsb' 39 13 = vd) (h3 : x.extractLsb' 26 13 = va) (h4 : x.extractLsb' 13 13 = vb) :
    rawV x = some (.vand p vd va vb) := by
  subst h1 h2 h3 h4
  unfold rawV
  rw [h0]
  rfl

theorem raw_vor (x : BitVec 64) (p vd va vb)
    (h0 : (x.extractLsb' 57 7).toNat = 45) (h1 : x.extractLsb' 52 5 = p) (h2 : x.extractLsb' 39 13 = vd) (h3 : x.extractLsb' 26 13 = va) (h4 : x.extractLsb' 13 13 = vb) :
    rawV x = some (.vor p vd va vb) := by
  subst h1 h2 h3 h4
  unfold rawV
  rw [h0]
  rfl

theorem raw_vxor (x : BitVec 64) (p vd va vb)
    (h0 : (x.extractLsb' 57 7).toNat = 46) (h1 : x.extractLsb' 52 5 = p) (h2 : x.extractLsb' 39 13 = vd) (h3 : x.extractLsb' 26 13 = va) (h4 : x.extractLsb' 13 13 = vb) :
    rawV x = some (.vxor p vd va vb) := by
  subst h1 h2 h3 h4
  unfold rawV
  rw [h0]
  rfl

theorem raw_vpopc (x : BitVec 64) (p vd va)
    (h0 : (x.extractLsb' 57 7).toNat = 47) (h1 : x.extractLsb' 52 5 = p) (h2 : x.extractLsb' 39 13 = vd) (h3 : x.extractLsb' 26 13 = va) :
    rawV x = some (.vpopc p vd va) := by
  subst h1 h2 h3
  unfold rawV
  rw [h0]
  rfl

theorem raw_viaddBScalar (x : BitVec 64) (p vd va sb)
    (h0 : (x.extractLsb' 57 7).toNat = 48) (h1 : x.extractLsb' 52 5 = p) (h2 : x.extractLsb' 39 13 = vd) (h3 : x.extractLsb' 26 13 = va) (h4 : x.extractLsb' 20 6 = sb) :
    rawV x = some (.viaddBScalar p vd va sb) := by
  subst h1 h2 h3 h4
  unfold rawV
  rw [h0]
  rfl

theorem raw_viaddHScalar (x : BitVec 64) (p vd va sb)
    (h0 : (x.extractLsb' 57 7).toNat = 49) (h1 : x.extractLsb' 52 5 = p) (h2 : x.extractLsb' 39 13 = vd) (h3 : x.extractLsb' 26 13 = va) (h4 : x.extractLsb' 20 6 = sb) :
    rawV x = some (.viaddHScalar p vd va sb) := by
  subst h1 h2 h3 h4
  unfold rawV
  rw [h0]
  rfl

theorem raw_viaddWScalar (x : BitVec 64) (p vd va sb)
    (h0 : (x.extractLsb' 57 7).toNat = 50) (h1 : x.extractLsb' 52 5 = p) (h2 : x.extractLsb' 39 13 = vd) (h3 : x.extractLsb' 26 13 = va) (h4 : x.extractLsb' 20 6 = sb) :
    rawV x = some (.viaddWScalar p vd va sb) := by
  subst h1 h2 h3 h4
  unfold rawV
  rw [h0]
  rfl

theorem raw_visubBScalar (x : BitVec 64) (p vd va sb)
    (h0 : (x.extractLsb' 57 7).toNat = 51) (h1 : x.extractLsb' 52 5 = p) (h2 : x.extractLsb' 39 13 = vd) (h3 : x.extractLsb' 26 13 = va) (h4 : x.extractLsb' 20 6 = sb) :
    rawV x = some (.visubBScalar p vd va sb) := by
  subst h1 h2 h3 h4
  unfold rawV
  rw [h0]
  rfl

theorem raw_visubHScalar (x : BitVec 64) (p vd va sb)
    (h0 : (x.extractLsb' 57 7).toNat = 52) (h1 : x.extractLsb' 52 5 = p) (h2 : x.extractLsb' 39 13 = vd) (h3 : x.extractLsb' 26 13 = va) (h4 : x.extractLsb' 20 6 = sb) :
    rawV x = some (.visubHScalar p vd va sb) := by
  subst h1 h2 h3 h4
  unfold rawV
  rw [h0]
  rfl

theorem raw_visubWScalar (x : BitVec 64) (p vd va sb)
    (h0 : (x.extractLsb' 57 7).toNat = 53) (h1 : x.extractLsb' 52 5 = p) (h2 : x.extractLsb' 39 13 = vd) (h3 : x.extractLsb' 26 13 = va) (h4 : x.extractLsb' 20 6 = sb) :
    rawV x = some (.visubWScalar p vd va sb) := by
  subst h1 h2 h3 h4
  unfold rawV
  rw [h0]
  rfl

theorem raw_vimulBScalar (x : BitVec 64) (p vd va sb)
    (h0 : (x.extractLsb' 57 7).toNat = 54) (h1 : x.extractLsb' 52 5 = p) (h2 : x.extractLsb' 39 13 = vd) (h3 : x.extractLsb' 26 13 = va) (h4 : x.extractLsb' 20 6 = sb) :
    rawV x = some (.vimulBScalar p vd va sb) := by
  subst h1 h2 h3 h4
  unfold rawV
  rw [h0]
  rfl

theorem raw_vimulHScalar (x : BitVec 64) (p vd va sb)
    (h0 : (x.extractLsb' 57 7).toNat = 55) (h1 : x.extractLsb' 52 5 = p) (h2 : x.extractLsb' 39 13 = vd) (h3 : x.extractLsb' 26 13 = va) (h4 : x.extractLsb' 20 6 = sb) :
    rawV x = some (.vimulHScalar p vd va sb) := by
  subst h1 h2 h3 h4
  unfold rawV
  rw [h0]
  rfl

theorem raw_vimulWScalar (x : BitVec 64) (p vd va sb)
    (h0 : (x.extractLsb' 57 7).toNat = 56) (h1 : x.extractLsb' 52 5 = p) (h2 : x.extractLsb' 39 13 = vd) (h3 : x.extractLsb' 26 13 = va) (h4 : x.extractLsb' 20 6 = sb) :
    rawV x = some (.vimulWScalar p vd va sb) := by
  subst h1 h2 h3 h4
  unfold rawV
  rw [h0]
  rfl

theorem raw_vimacBScalar (x : BitVec 64) (p vd va sb vc)
    (h0 : (x.extractLsb' 57 7).toNat = 57) (h1 : x.extractLsb' 52 5 = p) (h2 : x.extractLsb' 39 13 = vd) (h3 : x.extractLsb' 26 13 = va) (h4 : x.extractLsb' 20 6 = sb) (h5 : x.extractLsb' 7 13 = vc) :
    rawV x = some (.vimacBScalar p vd va sb vc) := by
  subst h1 h2 h3 h4 h5
  unfold rawV
  rw [h0]
  rfl

theorem raw_vimacHScalar (x : BitVec 64) (p vd va sb vc)
    (h0 : (x.extractLsb' 57 7).toNat = 58) (h1 : x.extractLsb' 52 5 = p) (h2 : x.extractLsb' 39 13 = vd) (h3 : x.extractLsb' 26 13 = va) (h4 : x.extractLsb' 20 6 = sb) (h5 : x.extractLsb' 7 13 = vc) :
    rawV x = some (.vimacHScalar p vd va sb vc) := by
  subst h1 h2 h3 h4 h5
  unfold rawV
  rw [h0]
  rfl

theorem raw_vimacWScalar (x : BitVec 64) (p vd va sb vc)
    (h0 : (x.extractLsb' 57 7).toNat = 59) (h1 : x.extractLsb' 52 5 = p) (h2 : x.extractLsb' 39 13 = vd) (h3 : x.extractLsb' 26 13 = va) (h4 : x.extractLsb' 20 6 = sb) (h5 : x.extractLsb' 7 13 = vc) :
    rawV x = some (.vimacWScalar p vd va sb vc) := by
  subst h1 h2 h3 h4 h5
  unfold rawV
  rw [h0]
  rfl

theorem raw_vshlB (x : BitVec 64) (p vd va amt)
    (h0 : (x.extractLsb' 57 7).toNat = 64) (h1 : x.extractLsb' 52 5 = p) (h2 : x.extractLsb' 39 13 = vd) (h3 : x.extractLsb' 26 13 = va) (h4 : x.extractLsb' 21 5 = amt) :
    rawV x = some (.vshlB p vd va amt) := by
  subst h1 h2 h3 h4
  unfold rawV
  rw [h0]
  rfl

theorem raw_vshlH (x : BitVec 64) (p vd va amt)
    (h0 : (x.extractLsb' 57 7).toNat = 65) (h1 : x.extractLsb' 52 5 = p) (h2 : x.extractLsb' 39 13 = vd) (h3 : x.extractLsb' 26 13 = va) (h4 : x.extractLsb' 21 5 = amt) :
    rawV x = some (.vshlH p vd va amt) := by
  subst h1 h2 h3 h4
  unfold rawV
  rw [h0]
  rfl

theorem raw_vshlW (x : BitVec 64) (p vd va amt)
    (h0 : (x.extractLsb' 57 7).toNat = 66) (h1 : x.extractLsb' 52 5 = p) (h2 : x.extractLsb' 39 13 = vd) (h3 : x.extractLsb' 26 13 = va) (h4 : x.extractLsb' 21 5 = amt) :
    rawV x = some (.vshlW p vd va amt) := by
  subst h1 h2 h3 h4
  unfold rawV
  rw [h0]
  rfl

theorem raw_vshrB (x : BitVec 64) (p vd va amt)
    (h0 : (x.extractLsb' 57 7).toNat = 67) (h1 : x.extractLsb' 52 5 = p) (h2 : x.extractLsb' 39 13 = vd) (h3 : x.extractLsb' 26 13 = va) (h4 : x.extractLsb' 21 5 = amt) :
    rawV x = some (.vshrB p vd va amt) := by
  subst h1 h2 h3 h4
  unfold rawV
  rw [h0]
  rfl

theorem raw_vshrH (x : BitVec 64) (p vd va amt)
    (h0 : (x.extractLsb' 57 7).toNat = 68) (h1 : x.extractLsb' 52 5 = p) (h2 : x.extractLsb' 39 13 = vd) (h3 : x.extractLsb' 26 13 = va) (h4 : x.extractLsb' 21 5 = amt) :
    rawV x = some (.vshrH p vd va amt) := by
  subst h1 h2 h3 h4
  unfold rawV
  rw [h0]
  rfl

theorem raw_vshrW (x : BitVec 64) (p vd va amt)
    (h0 : (x.extractLsb' 57 7).toNat = 69) (h1 : x.extractLsb' 52 5 = p) (h2 : x.extractLsb' 39 13 = vd) (h3 : x.extractLsb' 26 13 = va) (h4 : x.extractLsb' 21 5 = amt) :
    rawV x = some (.vshrW p vd va amt) := by
  subst h1 h2 h3 h4
  unfold rawV
  rw [h0]
  rfl

theorem raw_vsarB (x : BitVec 64) (p vd va amt)
    (h0 : (x.extractLsb' 57 7).toNat = 70) (h1 : x.extractLsb' 52 5 = p) (h2 : x.extractLsb' 39 13 = vd) (h3 : x.extractLsb' 26 13 = va) (h4 : x.extractLsb' 21 5 = amt) :
    rawV x = some (.vsarB p vd va amt) := by
  subst h1 h2 h3 h4
  unfold rawV
  rw [h0]
  rfl

theorem raw_vsarH (x : BitVec 64) (p vd va amt)
    (h0 : (x.extractLsb' 57 7).toNat = 71) (h1 : x.extractLsb' 52 5 = p) (h2 : x.extractLsb' 39 13 = vd) (h3 : x.extractLsb' 26 13 = va) (h4 : x.extractLsb' 21 5 = amt) :
    rawV x = some (.vsarH p vd va amt) := by
  subst h1 h2 h3 h4
  unfold rawV
  rw [h0]
  rfl

theorem raw_vsarW (x : BitVec 64) (p vd va amt)
    (h0 : (x.extractLsb' 57 7).toNat = 72) (h1 : x.extractLsb' 52 5 = p) (h2 : x.extractLsb' 39 13 = vd) (h3 : x.extractLsb' 26 13 = va) (h4 : x.extractLsb' 21 5 = amt) :
    rawV x = some (.vsarW p vd va amt) := by
  subst h1 h2 h3 h4
  unfold rawV
  rw [h0]
  rfl

theorem raw_vcvt (x : BitVec 64) (p vd va sfmt dfmt)
    (h0 : (x.extractLsb' 57 7).toNat = 73) (h1 : x.extractLsb' 52 5 = p) (h2 : x.extractLsb' 39 13 = vd) (h3 : x.extractLsb' 26 13 = va) (h4 : x.extractLsb' 21 5 = sfmt) (h5 : x.extractLsb' 16 5 = dfmt) :
    rawV x = some (.vcvt p vd va sfmt dfmt) := by
  subst h1 h2 h3 h4 h5
  unfold rawV
  rw [h0]
  rfl

theorem raw_vcvtK (x : BitVec 64) (p vd va sfmt dfmt)
    (h0 : (x.extractLsb' 57 7).toNat = 74) (h1 : x.extractLsb' 52 5 = p) (h2 : x.extractLsb' 39 13 = vd) (h3 : x.extractLsb' 26 13 = va) (h4 : x.extractLsb' 21 5 = sfmt) (h5 : x.extractLsb' 16 5 = dfmt) :
    rawV x = some (.vcvtK p vd va sfmt dfmt) := by
  subst h1 h2 h3 h4 h5
  unfold rawV
  rw [h0]
  rfl

theorem raw_vpack (x : BitVec 64) (p vd va vb ew3)
    (h0 : (x.extractLsb' 57 7).toNat = 75) (h1 : x.extractLsb' 52 5 = p) (h2 : x.extractLsb' 39 13 = vd) (h3 : x.extractLsb' 26 13 = va) (h4 : x.extractLsb' 13 13 = vb) (h5 : x.extractLsb' 10 3 = ew3) :
    rawV x = some (.vpack p vd va vb ew3) := by
  subst h1 h2 h3 h4 h5
  unfold rawV
  rw [h0]
  rfl

theorem raw_vunpk (x : BitVec 64) (p vd va ew3 part)
    (h0 : (x.extractLsb' 57 7).toNat = 76) (h1 : x.extractLsb' 52 5 = p) (h2 : x.extractLsb' 39 13 = vd) (h3 : x.extractLsb' 26 13 = va) (h4 : x.extractLsb' 23 3 = ew3) (h5 : x.extractLsb' 19 4 = part) :
    rawV x = some (.vunpk p vd va ew3 part) := by
  subst h1 h2 h3 h4 h5
  unfold rawV
  rw [h0]
  rfl

theorem raw_vperm (x : BitVec 64) (p vd va vb)
    (h0 : (x.extractLsb' 57 7).toNat = 80) (h1 : x.extractLsb' 52 5 = p) (h2 : x.extractLsb' 39 13 = vd) (h3 : x.extractLsb' 26 13 = va) (h4 : x.extractLsb' 13 13 = vb) :
    rawV x = some (.vperm p vd va vb) := by
  subst h1 h2 h3 h4
  unfold rawV
  rw [h0]
  rfl

theorem raw_vshuf (x : BitVec 64) (p vd va vb pattern)
    (h0 : (x.extractLsb' 57 7).toNat = 81) (h1 : x.extractLsb' 52 5 = p) (h2 : x.extractLsb' 39 13 = vd) (h3 : x.extractLsb' 26 13 = va) (h4 : x.extractLsb' 13 13 = vb) (h5 : x.extractLsb' 8 5 = pattern) :
    rawV x = some (.vshuf p vd va vb pattern) := by
  subst h1 h2 h3 h4 h5
  unfold rawV
  rw [h0]
  rfl

theorem raw_vbcastScalar (x : BitVec 64) (p vd sa ew)
    (h0 : (x.extractLsb' 57 7).toNat = 82) (h1 : x.extractLsb' 52 5 = p) (h2 : x.extractLsb' 39 13 = vd) (h3 : x.extractLsb' 33 6 = sa) (h4 : x.extractLsb' 31 2 = ew) :
    rawV x = some (.vbcastScalar p vd sa ew) := by
  subst h1 h2 h3 h4
  unfold rawV
  rw [h0]
  rfl

theorem raw_vbcastElement (x : BitVec 64) (p vd va idx ew)
    (h0 : (x.extractLsb' 57 7).toNat = 83) (h1 : x.extractLsb' 52 5 = p) (h2 : x.extractLsb' 39 13 = vd) (h3 : x.extractLsb' 26 13 = va) (h4 : x.extractLsb' 17 9 = idx) (h5 : x.extractLsb' 15 2 = ew) :
    rawV x = some (.vbcastElement p vd va idx ew) := by
  subst h1 h2 h3 h4 h5
  unfold rawV
  rw [h0]
  rfl

theorem raw_vextrImm (x : BitVec 64) (p sd va idx ew)
    (h0 : (x.extractLsb' 57 7).toNat = 84) (h1 : x.extractLsb' 52 5 = p) (h2 : x.extractLsb' 46 6 = sd) (h3 : x.extractLsb' 33 13 = va) (h4 : x.extractLsb' 24 9 = idx) (h5 : x.extractLsb' 22 2 = ew) :
    rawV x = some (.vextrImm p sd va idx ew) := by
  subst h1 h2 h3 h4 h5
  unfold rawV
  rw [h0]
  rfl

theorem raw_vextrScalar (x : BitVec 64) (p sd va si ew)
    (h0 : (x.extractLsb' 57 7).toNat = 85) (h1 : x.extractLsb' 52 5 = p) (h2 : x.extractLsb' 46 6 = sd) (h3 : x.extractLsb' 33 13 = va) (h4 : x.extractLsb' 27 6 = si) (h5 : x.extractLsb' 25 2 = ew) :
    rawV x = some (.vextrScalar p sd va si ew) := by
  subst h1 h2 h3 h4 h5
  unfold rawV
  rw [h0]
  rfl

theorem raw_vinsImm (x : BitVec 64) (p vd va sa idx ew)
    (h0 : (x.extractLsb' 57 7).toNat = 86) (h1 : x.extractLsb' 52 5 = p) (h2 : x.extractLsb' 39 13 = vd) (h3 : x.extractLsb' 26 13 = va) (h4 : x.extractLsb' 20 6 = sa) (h5 : x.extractLsb' 11 9 = idx) (h6 : x.extractLsb' 9 2 = ew) :
    rawV x = some (.vinsImm p vd va sa idx ew) := by
  subst h1 h2 h3 h4 h5 h6
  unfold rawV
  rw [h0]
  rfl

theorem raw_vinsScalar (x : BitVec 64) (p vd va sa si ew)
    (h0 : (x.extractLsb' 57 7).toNat = 87) (h1 : x.extractLsb' 52 5 = p) (h2 : x.extractLsb' 39 13 = vd) (h3 : x.extractLsb' 26 13 = va) (h4 : x.extractLsb' 20 6 = sa) (h5 : x.extractLsb' 14 6 = si) (h6 : x.extractLsb' 12 2 = ew) :
    rawV x = some (.vinsScalar p vd va sa si ew) := by
  subst h1 h2 h3 h4 h5 h6
  unfold rawV
  rw [h0]
  rfl

theorem raw_vmov (x : BitVec 64) (p vd va)
    (h0 : (x.extractLsb' 57 7).toNat = 88) (h1 : x.extractLsb' 52 5 = p) (h2 : x.extractLsb' 39 13 = vd) (h3 : x.extractLsb' 26 13 = va) :
    rawV x = some (.vmov p vd va) := by
  subst h1 h2 h3
  unfold rawV
  rw [h0]
  rfl

theorem raw_vrng (x : BitVec 64) (p vd sseed sseq spos draw)
    (h0 : (x.extractLsb' 57 7).toNat = 89) (h1 : x.extractLsb' 52 5 = p) (h2 : x.extractLsb' 39 13 = vd) (h3 : x.extractLsb' 33 6 = sseed) (h4 : x.extractLsb' 27 6 = sseq) (h5 : x.extractLsb' 21 6 = spos) (h6 : x.extractLsb' 5 16 = draw) :
    rawV x = some (.vrng p vd sseed sseq spos draw) := by
  subst h1 h2 h3 h4 h5 h6
  unfold rawV
  rw [h0]
  rfl

theorem raw_vrngF (x : BitVec 64) (p vd sseed sseq spos draw)
    (h0 : (x.extractLsb' 57 7).toNat = 90) (h1 : x.extractLsb' 52 5 = p) (h2 : x.extractLsb' 39 13 = vd) (h3 : x.extractLsb' 33 6 = sseed) (h4 : x.extractLsb' 27 6 = sseq) (h5 : x.extractLsb' 21 6 = spos) (h6 : x.extractLsb' 5 16 = draw) :
    rawV x = some (.vrngF p vd sseed sseq spos draw) := by
  subst h1 h2 h3 h4 h5 h6
  unfold rawV
  rw [h0]
  rfl

theorem raw_tapp (x : BitVec 64) (p tap seq va rows)
    (h0 : (x.extractLsb' 57 7).toNat = 92) (h1 : x.extractLsb' 52 5 = p) (h2 : x.extractLsb' 49 3 = tap) (h3 : x.extractLsb' 46 3 = seq) (h4 : x.extractLsb' 33 13 = va) (h5 : x.extractLsb' 22 11 = rows) :
    rawV x = some (.tapp p tap seq va rows) := by
  subst h1 h2 h3 h4 h5
  unfold rawV
  rw [h0]
  rfl

theorem raw_taps (x : BitVec 64) (p tap seq va rows sc)
    (h0 : (x.extractLsb' 57 7).toNat = 93) (h1 : x.extractLsb' 52 5 = p) (h2 : x.extractLsb' 49 3 = tap) (h3 : x.extractLsb' 46 3 = seq) (h4 : x.extractLsb' 33 13 = va) (h5 : x.extractLsb' 22 11 = rows) (h6 : x.extractLsb' 16 6 = sc) :
    rawV x = some (.taps p tap seq va rows sc) := by
  subst h1 h2 h3 h4 h5 h6
  unfold rawV
  rw [h0]
  rfl

theorem raw_tapld (x : BitVec 64) (p tap sa)
    (h0 : (x.extractLsb' 57 7).toNat = 94) (h1 : x.extractLsb' 52 5 = p) (h2 : x.extractLsb' 49 3 = tap) (h3 : x.extractLsb' 43 6 = sa) :
    rawV x = some (.tapld p tap sa) := by
  subst h1 h2 h3
  unfold rawV
  rw [h0]
  rfl

theorem raw_taprd (x : BitVec 64) (p sd tap what)
    (h0 : (x.extractLsb' 57 7).toNat = 95) (h1 : x.extractLsb' 52 5 = p) (h2 : x.extractLsb' 46 6 = sd) (h3 : x.extractLsb' 43 3 = tap) (h4 : x.extractLsb' 42 1 = what) :
    rawV x = some (.taprd p sd tap what) := by
  subst h1 h2 h3 h4
  unfold rawV
  rw [h0]
  rfl

theorem raw_vredsumF (x : BitVec 64) (p vd va)
    (h0 : (x.extractLsb' 57 7).toNat = 96) (h1 : x.extractLsb' 52 5 = p) (h2 : x.extractLsb' 39 13 = vd) (h3 : x.extractLsb' 26 13 = va) :
    rawV x = some (.vredsumF p vd va) := by
  subst h1 h2 h3
  unfold rawV
  rw [h0]
  rfl

theorem raw_vredsumI (x : BitVec 64) (p vd va)
    (h0 : (x.extractLsb' 57 7).toNat = 97) (h1 : x.extractLsb' 52 5 = p) (h2 : x.extractLsb' 39 13 = vd) (h3 : x.extractLsb' 26 13 = va) :
    rawV x = some (.vredsumI p vd va) := by
  subst h1 h2 h3
  unfold rawV
  rw [h0]
  rfl

theorem raw_vredmaxF (x : BitVec 64) (p vd va)
    (h0 : (x.extractLsb' 57 7).toNat = 98) (h1 : x.extractLsb' 52 5 = p) (h2 : x.extractLsb' 39 13 = vd) (h3 : x.extractLsb' 26 13 = va) :
    rawV x = some (.vredmaxF p vd va) := by
  subst h1 h2 h3
  unfold rawV
  rw [h0]
  rfl

theorem raw_vredmaxSi (x : BitVec 64) (p vd va)
    (h0 : (x.extractLsb' 57 7).toNat = 99) (h1 : x.extractLsb' 52 5 = p) (h2 : x.extractLsb' 39 13 = vd) (h3 : x.extractLsb' 26 13 = va) :
    rawV x = some (.vredmaxSi p vd va) := by
  subst h1 h2 h3
  unfold rawV
  rw [h0]
  rfl

theorem raw_vredminF (x : BitVec 64) (p vd va)
    (h0 : (x.extractLsb' 57 7).toNat = 100) (h1 : x.extractLsb' 52 5 = p) (h2 : x.extractLsb' 39 13 = vd) (h3 : x.extractLsb' 26 13 = va) :
    rawV x = some (.vredminF p vd va) := by
  subst h1 h2 h3
  unfold rawV
  rw [h0]
  rfl

theorem raw_vredminSi (x : BitVec 64) (p vd va)
    (h0 : (x.extractLsb' 57 7).toNat = 101) (h1 : x.extractLsb' 52 5 = p) (h2 : x.extractLsb' 39 13 = vd) (h3 : x.extractLsb' 26 13 = va) :
    rawV x = some (.vredminSi p vd va) := by
  subst h1 h2 h3
  unfold rawV
  rw [h0]
  rfl

theorem raw_vargmax (x : BitVec 64) (p vd va)
    (h0 : (x.extractLsb' 57 7).toNat = 102) (h1 : x.extractLsb' 52 5 = p) (h2 : x.extractLsb' 39 13 = vd) (h3 : x.extractLsb' 26 13 = va) :
    rawV x = some (.vargmax p vd va) := by
  subst h1 h2 h3
  unfold rawV
  rw [h0]
  rfl

theorem raw_vscanF (x : BitVec 64) (p vd va)
    (h0 : (x.extractLsb' 57 7).toNat = 103) (h1 : x.extractLsb' 52 5 = p) (h2 : x.extractLsb' 39 13 = vd) (h3 : x.extractLsb' 26 13 = va) :
    rawV x = some (.vscanF p vd va) := by
  subst h1 h2 h3
  unfold rawV
  rw [h0]
  rfl

theorem raw_vscanI (x : BitVec 64) (p vd va)
    (h0 : (x.extractLsb' 57 7).toNat = 104) (h1 : x.extractLsb' 52 5 = p) (h2 : x.extractLsb' 39 13 = vd) (h3 : x.extractLsb' 26 13 = va) :
    rawV x = some (.vscanI p vd va) := by
  subst h1 h2 h3
  unfold rawV
  rw [h0]
  rfl

theorem raw_ksetImm (x : BitVec 64) (p kd axis format block value)
    (h0 : (x.extractLsb' 57 7).toNat = 106) (h1 : x.extractLsb' 52 5 = p) (h2 : x.extractLsb' 44 8 = kd) (h3 : x.extractLsb' 43 1 = axis) (h4 : x.extractLsb' 41 2 = format) (h5 : x.extractLsb' 37 4 = block) (h6 : x.extractLsb' 21 16 = value) :
    rawV x = some (.ksetImm p kd axis format block value) := by
  subst h1 h2 h3 h4 h5 h6
  unfold rawV
  rw [h0]
  rfl

theorem raw_ksetScalar (x : BitVec 64) (p kd axis format block sa)
    (h0 : (x.extractLsb' 57 7).toNat = 107) (h1 : x.extractLsb' 52 5 = p) (h2 : x.extractLsb' 44 8 = kd) (h3 : x.extractLsb' 43 1 = axis) (h4 : x.extractLsb' 41 2 = format) (h5 : x.extractLsb' 37 4 = block) (h6 : x.extractLsb' 31 6 = sa) :
    rawV x = some (.ksetScalar p kd axis format block sa) := by
  subst h1 h2 h3 h4 h5 h6
  unfold rawV
  rw [h0]
  rfl

theorem raw_kmov (x : BitVec 64) (p kd ka)
    (h0 : (x.extractLsb' 57 7).toNat = 108) (h1 : x.extractLsb' 52 5 = p) (h2 : x.extractLsb' 44 8 = kd) (h3 : x.extractLsb' 36 8 = ka) :
    rawV x = some (.kmov p kd ka) := by
  subst h1 h2 h3
  unfold rawV
  rw [h0]
  rfl

theorem raw_kmul (x : BitVec 64) (p kd ka kb)
    (h0 : (x.extractLsb' 57 7).toNat = 109) (h1 : x.extractLsb' 52 5 = p) (h2 : x.extractLsb' 44 8 = kd) (h3 : x.extractLsb' 36 8 = ka) (h4 : x.extractLsb' 28 8 = kb) :
    rawV x = some (.kmul p kd ka kb) := by
  subst h1 h2 h3 h4
  unfold rawV
  rw [h0]
  rfl

theorem raw_kaddeImm (x : BitVec 64) (p kd ka step)
    (h0 : (x.extractLsb' 57 7).toNat = 110) (h1 : x.extractLsb' 52 5 = p) (h2 : x.extractLsb' 44 8 = kd) (h3 : x.extractLsb' 36 8 = ka) (h4 : x.extractLsb' 28 8 = step) :
    rawV x = some (.kaddeImm p kd ka step) := by
  subst h1 h2 h3 h4
  unfold rawV
  rw [h0]
  rfl

theorem raw_kaddeScalar (x : BitVec 64) (p kd ka sb)
    (h0 : (x.extractLsb' 57 7).toNat = 111) (h1 : x.extractLsb' 52 5 = p) (h2 : x.extractLsb' 44 8 = kd) (h3 : x.extractLsb' 36 8 = ka) (h4 : x.extractLsb' 30 6 = sb) :
    rawV x = some (.kaddeScalar p kd ka sb) := by
  subst h1 h2 h3 h4
  unfold rawV
  rw [h0]
  rfl

theorem raw_kmaxe (x : BitVec 64) (p kd ka kb)
    (h0 : (x.extractLsb' 57 7).toNat = 112) (h1 : x.extractLsb' 52 5 = p) (h2 : x.extractLsb' 44 8 = kd) (h3 : x.extractLsb' 36 8 = ka) (h4 : x.extractLsb' 28 8 = kb) :
    rawV x = some (.kmaxe p kd ka kb) := by
  subst h1 h2 h3 h4
  unfold rawV
  rw [h0]
  rfl

theorem raw_kcvtBf16 (x : BitVec 64) (p kd ka)
    (h0 : (x.extractLsb' 57 7).toNat = 113) (h1 : x.extractLsb' 52 5 = p) (h2 : x.extractLsb' 44 8 = kd) (h3 : x.extractLsb' 36 8 = ka) :
    rawV x = some (.kcvtBf16 p kd ka) := by
  subst h1 h2 h3
  unfold rawV
  rw [h0]
  rfl

theorem raw_kcvtE8m0 (x : BitVec 64) (p kd ka)
    (h0 : (x.extractLsb' 57 7).toNat = 114) (h1 : x.extractLsb' 52 5 = p) (h2 : x.extractLsb' 44 8 = kd) (h3 : x.extractLsb' 36 8 = ka) :
    rawV x = some (.kcvtE8m0 p kd ka) := by
  subst h1 h2 h3
  unfold rawV
  rw [h0]
  rfl

theorem raw_kbindTile (x : BitVec 64) (p tile ks axis block)
    (h0 : (x.extractLsb' 57 7).toNat = 115) (h1 : x.extractLsb' 52 5 = p) (h2 : x.extractLsb' 47 5 = tile) (h3 : x.extractLsb' 39 8 = ks) (h4 : x.extractLsb' 38 1 = axis) (h5 : x.extractLsb' 34 4 = block) :
    rawV x = some (.kbindTile p tile ks axis block) := by
  subst h1 h2 h3 h4 h5
  unfold rawV
  rw [h0]
  rfl

theorem raw_kbindBank (x : BitVec 64) (p cm bank ks axis block)
    (h0 : (x.extractLsb' 57 7).toNat = 116) (h1 : x.extractLsb' 52 5 = p) (h2 : x.extractLsb' 49 3 = cm) (h3 : x.extractLsb' 48 1 = bank) (h4 : x.extractLsb' 40 8 = ks) (h5 : x.extractLsb' 39 1 = axis) (h6 : x.extractLsb' 35 4 = block) :
    rawV x = some (.kbindBank p cm bank ks axis block) := by
  subst h1 h2 h3 h4 h5 h6
  unfold rawV
  rw [h0]
  rfl

theorem raw_kunbindTile (x : BitVec 64) (p tile)
    (h0 : (x.extractLsb' 57 7).toNat = 117) (h1 : x.extractLsb' 52 5 = p) (h2 : x.extractLsb' 47 5 = tile) :
    rawV x = some (.kunbindTile p tile) := by
  subst h1 h2
  unfold rawV
  rw [h0]
  rfl

theorem raw_kunbindBank (x : BitVec 64) (p cm bank)
    (h0 : (x.extractLsb' 57 7).toNat = 118) (h1 : x.extractLsb' 52 5 = p) (h2 : x.extractLsb' 49 3 = cm) (h3 : x.extractLsb' 48 1 = bank) :
    rawV x = some (.kunbindBank p cm bank) := by
  subst h1 h2 h3
  unfold rawV
  rw [h0]
  rfl

theorem raw_krdRow (x : BitVec 64) (p vd ks)
    (h0 : (x.extractLsb' 57 7).toNat = 119) (h1 : x.extractLsb' 52 5 = p) (h2 : x.extractLsb' 39 13 = vd) (h3 : x.extractLsb' 31 8 = ks) :
    rawV x = some (.krdRow p vd ks) := by
  subst h1 h2 h3
  unfold rawV
  rw [h0]
  rfl

theorem raw_krdScalar (x : BitVec 64) (p sd ks entry sel)
    (h0 : (x.extractLsb' 57 7).toNat = 120) (h1 : x.extractLsb' 52 5 = p) (h2 : x.extractLsb' 46 6 = sd) (h3 : x.extractLsb' 38 8 = ks) (h4 : x.extractLsb' 32 6 = entry) (h5 : x.extractLsb' 31 1 = sel) :
    rawV x = some (.krdScalar p sd ks entry sel) := by
  subst h1 h2 h3 h4 h5
  unfold rawV
  rw [h0]
  rfl

theorem raw_kwrRow (x : BitVec 64) (p kd va)
    (h0 : (x.extractLsb' 57 7).toNat = 121) (h1 : x.extractLsb' 52 5 = p) (h2 : x.extractLsb' 44 8 = kd) (h3 : x.extractLsb' 31 13 = va) :
    rawV x = some (.kwrRow p kd va) := by
  subst h1 h2 h3
  unfold rawV
  rw [h0]
  rfl

theorem raw_kwrScalar (x : BitVec 64) (p kd sa entry)
    (h0 : (x.extractLsb' 57 7).toNat = 122) (h1 : x.extractLsb' 52 5 = p) (h2 : x.extractLsb' 44 8 = kd) (h3 : x.extractLsb' 38 6 = sa) (h4 : x.extractLsb' 32 6 = entry) :
    rawV x = some (.kwrScalar p kd sa entry) := by
  subst h1 h2 h3 h4
  unfold rawV
  rw [h0]
  rfl

theorem raw_kgen (x : BitVec 64) (p kd va axis block format)
    (h0 : (x.extractLsb' 57 7).toNat = 123) (h1 : x.extractLsb' 52 5 = p) (h2 : x.extractLsb' 44 8 = kd) (h3 : x.extractLsb' 31 13 = va) (h4 : x.extractLsb' 30 1 = axis) (h5 : x.extractLsb' 26 4 = block) (h6 : x.extractLsb' 24 2 = format) :
    rawV x = some (.kgen p kd va axis block format) := by
  subst h1 h2 h3 h4 h5 h6
  unfold rawV
  rw [h0]
  rfl

theorem raw_mmaL6 (x : BitVec 64) (p vd abay aoff bbay boff alane blane sg sc)
    (h0 : (x.extractLsb' 59 5).toNat = 0) (h1 : x.extractLsb' 54 5 = p) (h2 : x.extractLsb' 43 11 = vd) (h3 : x.extractLsb' 40 3 = abay) (h4 : x.extractLsb' 28 12 = aoff) (h5 : x.extractLsb' 25 3 = bbay) (h6 : x.extractLsb' 13 12 = boff) (h7 : x.extractLsb' 9 4 = alane) (h8 : x.extractLsb' 5 4 = blane) (h9 : x.extractLsb' 3 2 = sg) (h10 : x.extractLsb' 2 1 = sc) :
    rawM x = some (.mmaL6 p vd abay aoff bbay boff alane blane sg sc) := by
  subst h1 h2 h3 h4 h5 h6 h7 h8 h9 h10
  unfold rawM
  rw [h0]
  rfl

theorem raw_mmaI8 (x : BitVec 64) (p vd abay aoff bbay boff alane blane sg sc)
    (h0 : (x.extractLsb' 59 5).toNat = 1) (h1 : x.extractLsb' 54 5 = p) (h2 : x.extractLsb' 43 11 = vd) (h3 : x.extractLsb' 40 3 = abay) (h4 : x.extractLsb' 28 12 = aoff) (h5 : x.extractLsb' 25 3 = bbay) (h6 : x.extractLsb' 13 12 = boff) (h7 : x.extractLsb' 9 4 = alane) (h8 : x.extractLsb' 5 4 = blane) (h9 : x.extractLsb' 3 2 = sg) (h10 : x.extractLsb' 2 1 = sc) :
    rawM x = some (.mmaI8 p vd abay aoff bbay boff alane blane sg sc) := by
  subst h1 h2 h3 h4 h5 h6 h7 h8 h9 h10
  unfold rawM
  rw [h0]
  rfl

theorem raw_mmaE4m3 (x : BitVec 64) (p vd abay aoff bbay boff alane blane sg sc)
    (h0 : (x.extractLsb' 59 5).toNat = 2) (h1 : x.extractLsb' 54 5 = p) (h2 : x.extractLsb' 43 11 = vd) (h3 : x.extractLsb' 40 3 = abay) (h4 : x.extractLsb' 28 12 = aoff) (h5 : x.extractLsb' 25 3 = bbay) (h6 : x.extractLsb' 13 12 = boff) (h7 : x.extractLsb' 9 4 = alane) (h8 : x.extractLsb' 5 4 = blane) (h9 : x.extractLsb' 3 2 = sg) (h10 : x.extractLsb' 2 1 = sc) :
    rawM x = some (.mmaE4m3 p vd abay aoff bbay boff alane blane sg sc) := by
  subst h1 h2 h3 h4 h5 h6 h7 h8 h9 h10
  unfold rawM
  rw [h0]
  rfl

theorem raw_mmaE5m2 (x : BitVec 64) (p vd abay aoff bbay boff alane blane sg sc)
    (h0 : (x.extractLsb' 59 5).toNat = 3) (h1 : x.extractLsb' 54 5 = p) (h2 : x.extractLsb' 43 11 = vd) (h3 : x.extractLsb' 40 3 = abay) (h4 : x.extractLsb' 28 12 = aoff) (h5 : x.extractLsb' 25 3 = bbay) (h6 : x.extractLsb' 13 12 = boff) (h7 : x.extractLsb' 9 4 = alane) (h8 : x.extractLsb' 5 4 = blane) (h9 : x.extractLsb' 3 2 = sg) (h10 : x.extractLsb' 2 1 = sc) :
    rawM x = some (.mmaE5m2 p vd abay aoff bbay boff alane blane sg sc) := by
  subst h1 h2 h3 h4 h5 h6 h7 h8 h9 h10
  unfold rawM
  rw [h0]
  rfl

theorem raw_mmaE4e5 (x : BitVec 64) (p vd abay aoff bbay boff alane blane sg sc)
    (h0 : (x.extractLsb' 59 5).toNat = 4) (h1 : x.extractLsb' 54 5 = p) (h2 : x.extractLsb' 43 11 = vd) (h3 : x.extractLsb' 40 3 = abay) (h4 : x.extractLsb' 28 12 = aoff) (h5 : x.extractLsb' 25 3 = bbay) (h6 : x.extractLsb' 13 12 = boff) (h7 : x.extractLsb' 9 4 = alane) (h8 : x.extractLsb' 5 4 = blane) (h9 : x.extractLsb' 3 2 = sg) (h10 : x.extractLsb' 2 1 = sc) :
    rawM x = some (.mmaE4e5 p vd abay aoff bbay boff alane blane sg sc) := by
  subst h1 h2 h3 h4 h5 h6 h7 h8 h9 h10
  unfold rawM
  rw [h0]
  rfl

theorem raw_mmaE5e4 (x : BitVec 64) (p vd abay aoff bbay boff alane blane sg sc)
    (h0 : (x.extractLsb' 59 5).toNat = 5) (h1 : x.extractLsb' 54 5 = p) (h2 : x.extractLsb' 43 11 = vd) (h3 : x.extractLsb' 40 3 = abay) (h4 : x.extractLsb' 28 12 = aoff) (h5 : x.extractLsb' 25 3 = bbay) (h6 : x.extractLsb' 13 12 = boff) (h7 : x.extractLsb' 9 4 = alane) (h8 : x.extractLsb' 5 4 = blane) (h9 : x.extractLsb' 3 2 = sg) (h10 : x.extractLsb' 2 1 = sc) :
    rawM x = some (.mmaE5e4 p vd abay aoff bbay boff alane blane sg sc) := by
  subst h1 h2 h3 h4 h5 h6 h7 h8 h9 h10
  unfold rawM
  rw [h0]
  rfl

theorem raw_mmaBf16 (x : BitVec 64) (p vd abay aoff bbay boff alane blane sg sc)
    (h0 : (x.extractLsb' 59 5).toNat = 6) (h1 : x.extractLsb' 54 5 = p) (h2 : x.extractLsb' 43 11 = vd) (h3 : x.extractLsb' 40 3 = abay) (h4 : x.extractLsb' 28 12 = aoff) (h5 : x.extractLsb' 25 3 = bbay) (h6 : x.extractLsb' 13 12 = boff) (h7 : x.extractLsb' 9 4 = alane) (h8 : x.extractLsb' 5 4 = blane) (h9 : x.extractLsb' 3 2 = sg) (h10 : x.extractLsb' 2 1 = sc) :
    rawM x = some (.mmaBf16 p vd abay aoff bbay boff alane blane sg sc) := by
  subst h1 h2 h3 h4 h5 h6 h7 h8 h9 h10
  unfold rawM
  rw [h0]
  rfl

theorem raw_mmaFp16 (x : BitVec 64) (p vd abay aoff bbay boff alane blane sg sc)
    (h0 : (x.extractLsb' 59 5).toNat = 7) (h1 : x.extractLsb' 54 5 = p) (h2 : x.extractLsb' 43 11 = vd) (h3 : x.extractLsb' 40 3 = abay) (h4 : x.extractLsb' 28 12 = aoff) (h5 : x.extractLsb' 25 3 = bbay) (h6 : x.extractLsb' 13 12 = boff) (h7 : x.extractLsb' 9 4 = alane) (h8 : x.extractLsb' 5 4 = blane) (h9 : x.extractLsb' 3 2 = sg) (h10 : x.extractLsb' 2 1 = sc) :
    rawM x = some (.mmaFp16 p vd abay aoff bbay boff alane blane sg sc) := by
  subst h1 h2 h3 h4 h5 h6 h7 h8 h9 h10
  unfold rawM
  rw [h0]
  rfl

theorem raw_mmazL6 (x : BitVec 64) (p vd abay aoff bbay boff alane blane sg sc)
    (h0 : (x.extractLsb' 59 5).toNat = 8) (h1 : x.extractLsb' 54 5 = p) (h2 : x.extractLsb' 43 11 = vd) (h3 : x.extractLsb' 40 3 = abay) (h4 : x.extractLsb' 28 12 = aoff) (h5 : x.extractLsb' 25 3 = bbay) (h6 : x.extractLsb' 13 12 = boff) (h7 : x.extractLsb' 9 4 = alane) (h8 : x.extractLsb' 5 4 = blane) (h9 : x.extractLsb' 3 2 = sg) (h10 : x.extractLsb' 2 1 = sc) :
    rawM x = some (.mmazL6 p vd abay aoff bbay boff alane blane sg sc) := by
  subst h1 h2 h3 h4 h5 h6 h7 h8 h9 h10
  unfold rawM
  rw [h0]
  rfl

theorem raw_mmazI8 (x : BitVec 64) (p vd abay aoff bbay boff alane blane sg sc)
    (h0 : (x.extractLsb' 59 5).toNat = 9) (h1 : x.extractLsb' 54 5 = p) (h2 : x.extractLsb' 43 11 = vd) (h3 : x.extractLsb' 40 3 = abay) (h4 : x.extractLsb' 28 12 = aoff) (h5 : x.extractLsb' 25 3 = bbay) (h6 : x.extractLsb' 13 12 = boff) (h7 : x.extractLsb' 9 4 = alane) (h8 : x.extractLsb' 5 4 = blane) (h9 : x.extractLsb' 3 2 = sg) (h10 : x.extractLsb' 2 1 = sc) :
    rawM x = some (.mmazI8 p vd abay aoff bbay boff alane blane sg sc) := by
  subst h1 h2 h3 h4 h5 h6 h7 h8 h9 h10
  unfold rawM
  rw [h0]
  rfl

theorem raw_mmazE4m3 (x : BitVec 64) (p vd abay aoff bbay boff alane blane sg sc)
    (h0 : (x.extractLsb' 59 5).toNat = 10) (h1 : x.extractLsb' 54 5 = p) (h2 : x.extractLsb' 43 11 = vd) (h3 : x.extractLsb' 40 3 = abay) (h4 : x.extractLsb' 28 12 = aoff) (h5 : x.extractLsb' 25 3 = bbay) (h6 : x.extractLsb' 13 12 = boff) (h7 : x.extractLsb' 9 4 = alane) (h8 : x.extractLsb' 5 4 = blane) (h9 : x.extractLsb' 3 2 = sg) (h10 : x.extractLsb' 2 1 = sc) :
    rawM x = some (.mmazE4m3 p vd abay aoff bbay boff alane blane sg sc) := by
  subst h1 h2 h3 h4 h5 h6 h7 h8 h9 h10
  unfold rawM
  rw [h0]
  rfl

theorem raw_mmazE5m2 (x : BitVec 64) (p vd abay aoff bbay boff alane blane sg sc)
    (h0 : (x.extractLsb' 59 5).toNat = 11) (h1 : x.extractLsb' 54 5 = p) (h2 : x.extractLsb' 43 11 = vd) (h3 : x.extractLsb' 40 3 = abay) (h4 : x.extractLsb' 28 12 = aoff) (h5 : x.extractLsb' 25 3 = bbay) (h6 : x.extractLsb' 13 12 = boff) (h7 : x.extractLsb' 9 4 = alane) (h8 : x.extractLsb' 5 4 = blane) (h9 : x.extractLsb' 3 2 = sg) (h10 : x.extractLsb' 2 1 = sc) :
    rawM x = some (.mmazE5m2 p vd abay aoff bbay boff alane blane sg sc) := by
  subst h1 h2 h3 h4 h5 h6 h7 h8 h9 h10
  unfold rawM
  rw [h0]
  rfl

theorem raw_mmazE4e5 (x : BitVec 64) (p vd abay aoff bbay boff alane blane sg sc)
    (h0 : (x.extractLsb' 59 5).toNat = 12) (h1 : x.extractLsb' 54 5 = p) (h2 : x.extractLsb' 43 11 = vd) (h3 : x.extractLsb' 40 3 = abay) (h4 : x.extractLsb' 28 12 = aoff) (h5 : x.extractLsb' 25 3 = bbay) (h6 : x.extractLsb' 13 12 = boff) (h7 : x.extractLsb' 9 4 = alane) (h8 : x.extractLsb' 5 4 = blane) (h9 : x.extractLsb' 3 2 = sg) (h10 : x.extractLsb' 2 1 = sc) :
    rawM x = some (.mmazE4e5 p vd abay aoff bbay boff alane blane sg sc) := by
  subst h1 h2 h3 h4 h5 h6 h7 h8 h9 h10
  unfold rawM
  rw [h0]
  rfl

theorem raw_mmazE5e4 (x : BitVec 64) (p vd abay aoff bbay boff alane blane sg sc)
    (h0 : (x.extractLsb' 59 5).toNat = 13) (h1 : x.extractLsb' 54 5 = p) (h2 : x.extractLsb' 43 11 = vd) (h3 : x.extractLsb' 40 3 = abay) (h4 : x.extractLsb' 28 12 = aoff) (h5 : x.extractLsb' 25 3 = bbay) (h6 : x.extractLsb' 13 12 = boff) (h7 : x.extractLsb' 9 4 = alane) (h8 : x.extractLsb' 5 4 = blane) (h9 : x.extractLsb' 3 2 = sg) (h10 : x.extractLsb' 2 1 = sc) :
    rawM x = some (.mmazE5e4 p vd abay aoff bbay boff alane blane sg sc) := by
  subst h1 h2 h3 h4 h5 h6 h7 h8 h9 h10
  unfold rawM
  rw [h0]
  rfl

theorem raw_mmazBf16 (x : BitVec 64) (p vd abay aoff bbay boff alane blane sg sc)
    (h0 : (x.extractLsb' 59 5).toNat = 14) (h1 : x.extractLsb' 54 5 = p) (h2 : x.extractLsb' 43 11 = vd) (h3 : x.extractLsb' 40 3 = abay) (h4 : x.extractLsb' 28 12 = aoff) (h5 : x.extractLsb' 25 3 = bbay) (h6 : x.extractLsb' 13 12 = boff) (h7 : x.extractLsb' 9 4 = alane) (h8 : x.extractLsb' 5 4 = blane) (h9 : x.extractLsb' 3 2 = sg) (h10 : x.extractLsb' 2 1 = sc) :
    rawM x = some (.mmazBf16 p vd abay aoff bbay boff alane blane sg sc) := by
  subst h1 h2 h3 h4 h5 h6 h7 h8 h9 h10
  unfold rawM
  rw [h0]
  rfl

theorem raw_mmazFp16 (x : BitVec 64) (p vd abay aoff bbay boff alane blane sg sc)
    (h0 : (x.extractLsb' 59 5).toNat = 15) (h1 : x.extractLsb' 54 5 = p) (h2 : x.extractLsb' 43 11 = vd) (h3 : x.extractLsb' 40 3 = abay) (h4 : x.extractLsb' 28 12 = aoff) (h5 : x.extractLsb' 25 3 = bbay) (h6 : x.extractLsb' 13 12 = boff) (h7 : x.extractLsb' 9 4 = alane) (h8 : x.extractLsb' 5 4 = blane) (h9 : x.extractLsb' 3 2 = sg) (h10 : x.extractLsb' 2 1 = sc) :
    rawM x = some (.mmazFp16 p vd abay aoff bbay boff alane blane sg sc) := by
  subst h1 h2 h3 h4 h5 h6 h7 h8 h9 h10
  unfold rawM
  rw [h0]
  rfl

theorem raw_mxhint (x : BitVec 64) (p burst)
    (h0 : (x.extractLsb' 59 5).toNat = 16) (h1 : x.extractLsb' 54 5 = p) (h2 : x.extractLsb' 0 16 = burst) :
    rawM x = some (.mxhint p burst) := by
  subst h1 h2
  unfold rawM
  rw [h0]
  rfl

theorem raw_cmode (x : BitVec 64) (p mode mask)
    (h0 : (x.extractLsb' 59 5).toNat = 17) (h1 : x.extractLsb' 54 5 = p) (h2 : x.extractLsb' 8 1 = mode) (h3 : x.extractLsb' 0 8 = mask) :
    rawM x = some (.cmode p mode mask) := by
  subst h1 h2 h3
  unfold rawM
  rw [h0]
  rfl

theorem raw_cloadRow (x : BitVec 64) (p vs cm first wfmt)
    (h0 : (x.extractLsb' 59 5).toNat = 18) (h1 : x.extractLsb' 54 5 = p) (h2 : x.extractLsb' 41 13 = vs) (h3 : x.extractLsb' 38 3 = cm) (h4 : x.extractLsb' 30 8 = first) (h5 : x.extractLsb' 25 5 = wfmt) :
    rawM x = some (.cloadRow p vs cm first wfmt) := by
  subst h1 h2 h3 h4 h5
  unfold rawM
  rw [h0]
  rfl

theorem raw_cloadRound (x : BitVec 64) (p bay off lane cm first wfmt)
    (h0 : (x.extractLsb' 59 5).toNat = 19) (h1 : x.extractLsb' 54 5 = p) (h2 : x.extractLsb' 51 3 = bay) (h3 : x.extractLsb' 39 12 = off) (h4 : x.extractLsb' 35 4 = lane) (h5 : x.extractLsb' 32 3 = cm) (h6 : x.extractLsb' 24 8 = first) (h7 : x.extractLsb' 19 5 = wfmt) :
    rawM x = some (.cloadRound p bay off lane cm first wfmt) := by
  subst h1 h2 h3 h4 h5 h6 h7
  unfold rawM
  rw [h0]
  rfl

theorem raw_cswap (x : BitVec 64) (p mask)
    (h0 : (x.extractLsb' 59 5).toNat = 20) (h1 : x.extractLsb' 54 5 = p) (h2 : x.extractLsb' 0 8 = mask) :
    rawM x = some (.cswap p mask) := by
  subst h1 h2
  unfold rawM
  rw [h0]
  rfl

theorem raw_cmacRow (x : BitVec 64) (p mask va abits asigned wacc)
    (h0 : (x.extractLsb' 59 5).toNat = 21) (h1 : x.extractLsb' 54 5 = p) (h2 : x.extractLsb' 46 8 = mask) (h3 : x.extractLsb' 33 13 = va) (h4 : x.extractLsb' 30 3 = abits) (h5 : x.extractLsb' 29 1 = asigned) (h6 : x.extractLsb' 24 5 = wacc) :
    rawM x = some (.cmacRow p mask va abits asigned wacc) := by
  subst h1 h2 h3 h4 h5 h6
  unfold rawM
  rw [h0]
  rfl

theorem raw_cmacRound (x : BitVec 64) (p mask bay off lane abits asigned wacc)
    (h0 : (x.extractLsb' 59 5).toNat = 22) (h1 : x.extractLsb' 54 5 = p) (h2 : x.extractLsb' 46 8 = mask) (h3 : x.extractLsb' 43 3 = bay) (h4 : x.extractLsb' 31 12 = off) (h5 : x.extractLsb' 27 4 = lane) (h6 : x.extractLsb' 24 3 = abits) (h7 : x.extractLsb' 23 1 = asigned) (h8 : x.extractLsb' 18 5 = wacc) :
    rawM x = some (.cmacRound p mask bay off lane abits asigned wacc) := by
  subst h1 h2 h3 h4 h5 h6 h7 h8
  unfold rawM
  rw [h0]
  rfl

theorem raw_cread (x : BitVec 64) (p vd cm half)
    (h0 : (x.extractLsb' 59 5).toNat = 23) (h1 : x.extractLsb' 54 5 = p) (h2 : x.extractLsb' 41 13 = vd) (h3 : x.extractLsb' 38 3 = cm) (h4 : x.extractLsb' 37 1 = half) :
    rawM x = some (.cread p vd cm half) := by
  subst h1 h2 h3 h4
  unfold rawM
  rw [h0]
  rfl

theorem raw_creadK (x : BitVec 64) (p vd cm half)
    (h0 : (x.extractLsb' 59 5).toNat = 24) (h1 : x.extractLsb' 54 5 = p) (h2 : x.extractLsb' 41 13 = vd) (h3 : x.extractLsb' 38 3 = cm) (h4 : x.extractLsb' 37 1 = half) :
    rawM x = some (.creadK p vd cm half) := by
  subst h1 h2 h3 h4
  unfold rawM
  rw [h0]
  rfl

theorem raw_cclr (x : BitVec 64) (p mask)
    (h0 : (x.extractLsb' 59 5).toNat = 25) (h1 : x.extractLsb' 54 5 = p) (h2 : x.extractLsb' 0 8 = mask) :
    rawM x = some (.cclr p mask) := by
  subst h1 h2
  unfold rawM
  rw [h0]
  rfl

theorem raw_cchk (x : BitVec 64) (p bank cm)
    (h0 : (x.extractLsb' 59 5).toNat = 26) (h1 : x.extractLsb' 54 5 = p) (h2 : x.extractLsb' 3 1 = bank) (h3 : x.extractLsb' 0 3 = cm) :
    rawM x = some (.cchk p bank cm) := by
  subst h1 h2 h3
  unfold rawM
  rw [h0]
  rfl

theorem raw_ld (x : BitVec 56) (p vd w kd delay)
    (h0 : (x.extractLsb' 52 4).toNat = 0) (h1 : x.extractLsb' 47 5 = p) (h2 : x.extractLsb' 34 13 = vd) (h3 : x.extractLsb' 29 5 = w) (h4 : x.extractLsb' 21 8 = kd) (h5 : x.extractLsb' 9 12 = delay) :
    rawL x = some (.ld p vd w kd delay) := by
  subst h1 h2 h3 h4 h5
  unfold rawL
  rw [h0]
  rfl

theorem raw_ldr (x : BitVec 56) (p vd bay off lane)
    (h0 : (x.extractLsb' 52 4).toNat = 1) (h1 : x.extractLsb' 47 5 = p) (h2 : x.extractLsb' 34 13 = vd) (h3 : x.extractLsb' 31 3 = bay) (h4 : x.extractLsb' 19 12 = off) (h5 : x.extractLsb' 15 4 = lane) :
    rawL x = some (.ldr p vd bay off lane) := by
  subst h1 h2 h3 h4 h5
  unfold rawL
  rw [h0]
  rfl

theorem raw_ldkStream (x : BitVec 56) (p kd w delay)
    (h0 : (x.extractLsb' 52 4).toNat = 2) (h1 : x.extractLsb' 47 5 = p) (h2 : x.extractLsb' 39 8 = kd) (h3 : x.extractLsb' 34 5 = w) (h4 : x.extractLsb' 22 12 = delay) :
    rawL x = some (.ldkStream p kd w delay) := by
  subst h1 h2 h3 h4
  unfold rawL
  rw [h0]
  rfl

theorem raw_ldkRound (x : BitVec 56) (p kd bay off lane)
    (h0 : (x.extractLsb' 52 4).toNat = 3) (h1 : x.extractLsb' 47 5 = p) (h2 : x.extractLsb' 39 8 = kd) (h3 : x.extractLsb' 36 3 = bay) (h4 : x.extractLsb' 24 12 = off) (h5 : x.extractLsb' 20 4 = lane) :
    rawL x = some (.ldkRound p kd bay off lane) := by
  subst h1 h2 h3 h4 h5
  unfold rawL
  rw [h0]
  rfl

theorem raw_ldsRound (x : BitVec 56) (p sd bay off8 lane)
    (h0 : (x.extractLsb' 52 4).toNat = 4) (h1 : x.extractLsb' 47 5 = p) (h2 : x.extractLsb' 41 6 = sd) (h3 : x.extractLsb' 38 3 = bay) (h4 : x.extractLsb' 23 15 = off8) (h5 : x.extractLsb' 19 4 = lane) :
    rawL x = some (.ldsRound p sd bay off8 lane) := by
  subst h1 h2 h3 h4 h5
  unfold rawL
  rw [h0]
  rfl

theorem raw_ldsStream (x : BitVec 56) (p sd w delay)
    (h0 : (x.extractLsb' 52 4).toNat = 5) (h1 : x.extractLsb' 47 5 = p) (h2 : x.extractLsb' 41 6 = sd) (h3 : x.extractLsb' 36 5 = w) (h4 : x.extractLsb' 24 12 = delay) :
    rawL x = some (.ldsStream p sd w delay) := by
  subst h1 h2 h3 h4
  unfold rawL
  rw [h0]
  rfl

theorem raw_popVector (x : BitVec 56) (p vd q delay)
    (h0 : (x.extractLsb' 52 4).toNat = 6) (h1 : x.extractLsb' 47 5 = p) (h2 : x.extractLsb' 34 13 = vd) (h3 : x.extractLsb' 29 5 = q) (h4 : x.extractLsb' 17 12 = delay) :
    rawL x = some (.popVector p vd q delay) := by
  subst h1 h2 h3 h4
  unfold rawL
  rw [h0]
  rfl

theorem raw_popScalar (x : BitVec 56) (p sd q delay)
    (h0 : (x.extractLsb' 52 4).toNat = 7) (h1 : x.extractLsb' 47 5 = p) (h2 : x.extractLsb' 41 6 = sd) (h3 : x.extractLsb' 36 5 = q) (h4 : x.extractLsb' 24 12 = delay) :
    rawL x = some (.popScalar p sd q delay) := by
  subst h1 h2 h3 h4
  unfold rawL
  rw [h0]
  rfl

theorem raw_fill (x : BitVec 56) (p tok tile w)
    (h0 : (x.extractLsb' 52 4).toNat = 8) (h1 : x.extractLsb' 47 5 = p) (h2 : x.extractLsb' 41 6 = tok) (h3 : x.extractLsb' 36 5 = tile) (h4 : x.extractLsb' 31 5 = w) :
    rawL x = some (.fill p tok tile w) := by
  subst h1 h2 h3 h4
  unfold rawL
  rw [h0]
  rfl

theorem raw_st (x : BitVec 48) (p w vs ks)
    (h0 : (x.extractLsb' 44 4).toNat = 0) (h1 : x.extractLsb' 39 5 = p) (h2 : x.extractLsb' 34 5 = w) (h3 : x.extractLsb' 21 13 = vs) (h4 : x.extractLsb' 13 8 = ks) :
    rawW x = some (.st p w vs ks) := by
  subst h1 h2 h3 h4
  unfold rawW
  rw [h0]
  rfl

theorem raw_str (x : BitVec 48) (p bay off lane vs)
    (h0 : (x.extractLsb' 44 4).toNat = 1) (h1 : x.extractLsb' 39 5 = p) (h2 : x.extractLsb' 36 3 = bay) (h3 : x.extractLsb' 24 12 = off) (h4 : x.extractLsb' 20 4 = lane) (h5 : x.extractLsb' 7 13 = vs) :
    rawW x = some (.str p bay off lane vs) := by
  subst h1 h2 h3 h4 h5
  unfold rawW
  rw [h0]
  rfl

theorem raw_stkStream (x : BitVec 48) (p w ks)
    (h0 : (x.extractLsb' 44 4).toNat = 2) (h1 : x.extractLsb' 39 5 = p) (h2 : x.extractLsb' 34 5 = w) (h3 : x.extractLsb' 26 8 = ks) :
    rawW x = some (.stkStream p w ks) := by
  subst h1 h2 h3
  unfold rawW
  rw [h0]
  rfl

theorem raw_stkRound (x : BitVec 48) (p bay off lane ks)
    (h0 : (x.extractLsb' 44 4).toNat = 3) (h1 : x.extractLsb' 39 5 = p) (h2 : x.extractLsb' 36 3 = bay) (h3 : x.extractLsb' 24 12 = off) (h4 : x.extractLsb' 20 4 = lane) (h5 : x.extractLsb' 12 8 = ks) :
    rawW x = some (.stkRound p bay off lane ks) := by
  subst h1 h2 h3 h4 h5
  unfold rawW
  rw [h0]
  rfl

theorem raw_stsRound (x : BitVec 48) (p bay off8 lane a)
    (h0 : (x.extractLsb' 44 4).toNat = 4) (h1 : x.extractLsb' 39 5 = p) (h2 : x.extractLsb' 36 3 = bay) (h3 : x.extractLsb' 21 15 = off8) (h4 : x.extractLsb' 17 4 = lane) (h5 : x.extractLsb' 11 6 = a) :
    rawW x = some (.stsRound p bay off8 lane a) := by
  subst h1 h2 h3 h4 h5
  unfold rawW
  rw [h0]
  rfl

theorem raw_stsStream (x : BitVec 48) (p w a)
    (h0 : (x.extractLsb' 44 4).toNat = 5) (h1 : x.extractLsb' 39 5 = p) (h2 : x.extractLsb' 34 5 = w) (h3 : x.extractLsb' 28 6 = a) :
    rawW x = some (.stsStream p w a) := by
  subst h1 h2 h3
  unfold rawW
  rw [h0]
  rfl

theorem raw_pushVector (x : BitVec 48) (p q vs)
    (h0 : (x.extractLsb' 44 4).toNat = 6) (h1 : x.extractLsb' 39 5 = p) (h2 : x.extractLsb' 34 5 = q) (h3 : x.extractLsb' 21 13 = vs) :
    rawW x = some (.pushVector p q vs) := by
  subst h1 h2 h3
  unfold rawW
  rw [h0]
  rfl

theorem raw_pushScalar (x : BitVec 48) (p q a)
    (h0 : (x.extractLsb' 44 4).toNat = 7) (h1 : x.extractLsb' 39 5 = p) (h2 : x.extractLsb' 34 5 = q) (h3 : x.extractLsb' 28 6 = a) :
    rawW x = some (.pushScalar p q a) := by
  subst h1 h2 h3
  unfold rawW
  rw [h0]
  rfl

theorem raw_spill (x : BitVec 48) (p tok tile w)
    (h0 : (x.extractLsb' 44 4).toNat = 8) (h1 : x.extractLsb' 39 5 = p) (h2 : x.extractLsb' 33 6 = tok) (h3 : x.extractLsb' 28 5 = tile) (h4 : x.extractLsb' 23 5 = w) :
    rawW x = some (.spill p tok tile w) := by
  subst h1 h2 h3 h4
  unfold rawW
  rw [h0]
  rfl

theorem raw_movpRound (x : BitVec 48) (p bay off lane port)
    (h0 : (x.extractLsb' 44 4).toNat = 0) (h1 : x.extractLsb' 39 5 = p) (h2 : x.extractLsb' 36 3 = bay) (h3 : x.extractLsb' 24 12 = off) (h4 : x.extractLsb' 20 4 = lane) (h5 : x.extractLsb' 12 8 = port) :
    rawC x = some (.movpRound p bay off lane port) := by
  subst h1 h2 h3 h4 h5
  unfold rawC
  rw [h0]
  rfl

theorem raw_movpScalar (x : BitVec 48) (p a port lane)
    (h0 : (x.extractLsb' 44 4).toNat = 1) (h1 : x.extractLsb' 39 5 = p) (h2 : x.extractLsb' 33 6 = a) (h3 : x.extractLsb' 25 8 = port) (h4 : x.extractLsb' 21 4 = lane) :
    rawC x = some (.movpScalar p a port lane) := by
  subst h1 h2 h3 h4
  unfold rawC
  rw [h0]
  rfl

theorem raw_xfer (x : BitVec 48) (p frm dest lane fromaddr toaddr)
    (h0 : (x.extractLsb' 44 4).toNat = 2) (h1 : x.extractLsb' 39 5 = p) (h2 : x.extractLsb' 35 4 = frm) (h3 : x.extractLsb' 31 4 = dest) (h4 : x.extractLsb' 27 4 = lane) (h5 : x.extractLsb' 15 12 = fromaddr) (h6 : x.extractLsb' 3 12 = toaddr) :
    rawC x = some (.xfer p frm dest lane fromaddr toaddr) := by
  subst h1 h2 h3 h4 h5 h6
  unfold rawC
  rw [h0]
  rfl

theorem raw_redsVector (x : BitVec 48) (p vs t op ty sem)
    (h0 : (x.extractLsb' 44 4).toNat = 3) (h1 : x.extractLsb' 39 5 = p) (h2 : x.extractLsb' 26 13 = vs) (h3 : x.extractLsb' 20 6 = t) (h4 : x.extractLsb' 17 3 = op) (h5 : x.extractLsb' 16 1 = ty) (h6 : x.extractLsb' 10 6 = sem) :
    rawC x = some (.redsVector p vs t op ty sem) := by
  subst h1 h2 h3 h4 h5 h6
  unfold rawC
  rw [h0]
  rfl

theorem raw_redsScalar (x : BitVec 48) (p a t op ty sem)
    (h0 : (x.extractLsb' 44 4).toNat = 4) (h1 : x.extractLsb' 39 5 = p) (h2 : x.extractLsb' 33 6 = a) (h3 : x.extractLsb' 27 6 = t) (h4 : x.extractLsb' 24 3 = op) (h5 : x.extractLsb' 23 1 = ty) (h6 : x.extractLsb' 17 6 = sem) :
    rawC x = some (.redsScalar p a t op ty sem) := by
  subst h1 h2 h3 h4 h5 h6
  unfold rawC
  rw [h0]
  rfl

theorem raw_scfgTable (x : BitVec 48) (p w entry)
    (h0 : (x.extractLsb' 44 4).toNat = 5) (h1 : x.extractLsb' 39 5 = p) (h2 : x.extractLsb' 34 5 = w) (h3 : x.extractLsb' 22 12 = entry) :
    rawC x = some (.scfgTable p w entry) := by
  subst h1 h2 h3
  unfold rawC
  rw [h0]
  rfl

theorem raw_scfgScalar (x : BitVec 48) (p w word a)
    (h0 : (x.extractLsb' 44 4).toNat = 6) (h1 : x.extractLsb' 39 5 = p) (h2 : x.extractLsb' 34 5 = w) (h3 : x.extractLsb' 30 4 = word) (h4 : x.extractLsb' 24 6 = a) :
    rawC x = some (.scfgScalar p w word a) := by
  subst h1 h2 h3 h4
  unfold rawC
  rw [h0]
  rfl

theorem raw_sadv (x : BitVec 48) (p w dim steps)
    (h0 : (x.extractLsb' 44 4).toNat = 7) (h1 : x.extractLsb' 39 5 = p) (h2 : x.extractLsb' 34 5 = w) (h3 : x.extractLsb' 32 2 = dim) (h4 : x.extractLsb' 16 16 = steps) :
    rawC x = some (.sadv p w dim steps) := by
  subst h1 h2 h3 h4
  unfold rawC
  rw [h0]
  rfl

theorem raw_srst (x : BitVec 48) (p w)
    (h0 : (x.extractLsb' 44 4).toNat = 8) (h1 : x.extractLsb' 39 5 = p) (h2 : x.extractLsb' 34 5 = w) :
    rawC x = some (.srst p w) := by
  subst h1 h2
  unfold rawC
  rw [h0]
  rfl

end Sys2Proof
end

