-- ==== Sys2Proof/Laws/PerInstr.lean ====
section
/-!
SUPPORT. The encoding of every instruction, one lemma per constructor: what the decoder reads from the fields that the encoder writes is
the instruction itself (R104 to R114); an event has no predicate field and no port.
-/

namespace Sys2Proof.Laws.Coding

/-- The fields that the encoder writes for an instruction are read back as it; an event has none. -/
def Statement (i : Instr) : Prop :=
  match encode i with
  | some e => rawOf e = some i
  | none => i.predField = 0 ∧ i.ports = 0

theorem nop (p) : Statement (.nop p) := by
  refine raw_nop _ _ (congrArg BitVec.toNat (a₂ := 0#5) ?_) ?_
  · exact (ex_set _ (by decide)).trans <| (ex_set _ (by decide)).trans <| (ex_hi _ _ (by decide)).trans <| (ex_hi _ _ (by decide)).trans <| ex_all _
  · exact (ex_set _ (by decide)).trans <| (ex_set _ (by decide)).trans <| (ex_hi _ _ (by decide)).trans <| ex_lo _ _

theorem bar (p group) : Statement (.bar p group) := by
  refine raw_bar _ _ _ (congrArg BitVec.toNat (a₂ := 1#5) ?_) ?_ ?_
  · exact (ex_set _ (by decide)).trans <| (ex_set _ (by decide)).trans <| (ex_hi _ _ (by decide)).trans <| (ex_hi _ _ (by decide)).trans <| (ex_hi _ _ (by decide)).trans <| ex_all _
  · exact (ex_set _ (by decide)).trans <| (ex_set _ (by decide)).trans <| (ex_hi _ _ (by decide)).trans <| (ex_hi _ _ (by decide)).trans <| ex_lo _ _
  · exact (ex_set _ (by decide)).trans <| (ex_set _ (by decide)).trans <| ex_lo _ _

theorem rdv (p group) : Statement (.rdv p group) := by
  refine raw_rdv _ _ _ (congrArg BitVec.toNat (a₂ := 2#5) ?_) ?_ ?_
  · exact (ex_set _ (by decide)).trans <| (ex_set _ (by decide)).trans <| (ex_hi _ _ (by decide)).trans <| (ex_hi _ _ (by decide)).trans <| (ex_hi _ _ (by decide)).trans <| ex_all _
  · exact (ex_set _ (by decide)).trans <| (ex_set _ (by decide)).trans <| (ex_hi _ _ (by decide)).trans <| (ex_hi _ _ (by decide)).trans <| ex_lo _ _
  · exact (ex_set _ (by decide)).trans <| (ex_set _ (by decide)).trans <| ex_lo _ _

theorem waitdImm (p count) : Statement (.waitdImm p count) := by
  refine raw_waitdImm _ _ _ (congrArg BitVec.toNat (a₂ := 3#5) ?_) ?_ ?_
  · exact (ex_set _ (by decide)).trans <| (ex_set _ (by decide)).trans <| (ex_hi _ _ (by decide)).trans <| (ex_hi _ _ (by decide)).trans <| ex_all _
  · exact (ex_set _ (by decide)).trans <| (ex_set _ (by decide)).trans <| (ex_hi _ _ (by decide)).trans <| ex_lo _ _
  · exact (ex_set _ (by decide)).trans <| (ex_set _ (by decide)).trans <| ex_lo _ _

theorem waitdScalar (p a) : Statement (.waitdScalar p a) := by
  refine raw_waitdScalar _ _ _ (congrArg BitVec.toNat (a₂ := 4#5) ?_) ?_ ?_
  · exact (ex_set _ (by decide)).trans <| (ex_set _ (by decide)).trans <| (ex_hi _ _ (by decide)).trans <| (ex_hi _ _ (by decide)).trans <| (ex_hi _ _ (by decide)).trans <| ex_all _
  · exact (ex_set _ (by decide)).trans <| (ex_set _ (by decide)).trans <| (ex_hi _ _ (by decide)).trans <| (ex_hi _ _ (by decide)).trans <| ex_lo _ _
  · exact (ex_set _ (by decide)).trans <| (ex_set _ (by decide)).trans <| ex_lo _ _

theorem fence (p scope) : Statement (.fence p scope) := by
  refine raw_fence _ _ _ (congrArg BitVec.toNat (a₂ := 5#5) ?_) ?_ ?_
  · exact (ex_set _ (by decide)).trans <| (ex_set _ (by decide)).trans <| (ex_hi _ _ (by decide)).trans <| (ex_hi _ _ (by decide)).trans <| (ex_hi _ _ (by decide)).trans <| ex_all _
  · exact (ex_set _ (by decide)).trans <| (ex_set _ (by decide)).trans <| (ex_hi _ _ (by decide)).trans <| (ex_hi _ _ (by decide)).trans <| ex_lo _ _
  · exact (ex_set _ (by decide)).trans <| (ex_set _ (by decide)).trans <| ex_lo _ _

theorem semsig (p c sem) : Statement (.semsig p c sem) := by
  refine raw_semsig _ _ _ _ (congrArg BitVec.toNat (a₂ := 6#5) ?_) ?_ ?_ ?_
  · exact (ex_set _ (by decide)).trans <| (ex_set _ (by decide)).trans <| (ex_hi _ _ (by decide)).trans <| (ex_hi _ _ (by decide)).trans <| (ex_hi _ _ (by decide)).trans <| (ex_hi _ _ (by decide)).trans <| ex_all _
  · exact (ex_set _ (by decide)).trans <| (ex_set _ (by decide)).trans <| (ex_hi _ _ (by decide)).trans <| (ex_hi _ _ (by decide)).trans <| (ex_hi _ _ (by decide)).trans <| ex_lo _ _
  · exact (ex_set _ (by decide)).trans <| (ex_set _ (by decide)).trans <| (ex_hi _ _ (by decide)).trans <| ex_lo _ _
  · exact (ex_set _ (by decide)).trans <| (ex_set _ (by decide)).trans <| ex_lo _ _

theorem semsigScalar (p c a) : Statement (.semsigScalar p c a) := by
  refine raw_semsigScalar _ _ _ _ (congrArg BitVec.toNat (a₂ := 7#5) ?_) ?_ ?_ ?_
  · exact (ex_set _ (by decide)).trans <| (ex_set _ (by decide)).trans <| (ex_hi _ _ (by decide)).trans <| (ex_hi _ _ (by decide)).trans <| (ex_hi _ _ (by decide)).trans <| (ex_hi _ _ (by decide)).trans <| ex_all _
  · exact (ex_set _ (by decide)).trans <| (ex_set _ (by decide)).trans <| (ex_hi _ _ (by decide)).trans <| (ex_hi _ _ (by decide)).trans <| (ex_hi _ _ (by decide)).trans <| ex_lo _ _
  · exact (ex_set _ (by decide)).trans <| (ex_set _ (by decide)).trans <| (ex_hi _ _ (by decide)).trans <| ex_lo _ _
  · exact (ex_set _ (by decide)).trans <| (ex_set _ (by decide)).trans <| ex_lo _ _

theorem semwait (p c sem) : Statement (.semwait p c sem) := by
  refine raw_semwait _ _ _ _ (congrArg BitVec.toNat (a₂ := 8#5) ?_) ?_ ?_ ?_
  · exact (ex_set _ (by decide)).trans <| (ex_set _ (by decide)).trans <| (ex_hi _ _ (by decide)).trans <| (ex_hi _ _ (by decide)).trans <| (ex_hi _ _ (by decide)).trans <| (ex_hi _ _ (by decide)).trans <| ex_all _
  · exact (ex_set _ (by decide)).trans <| (ex_set _ (by decide)).trans <| (ex_hi _ _ (by decide)).trans <| (ex_hi _ _ (by decide)).trans <| (ex_hi _ _ (by decide)).trans <| ex_lo _ _
  · exact (ex_set _ (by decide)).trans <| (ex_set _ (by decide)).trans <| (ex_hi _ _ (by decide)).trans <| ex_lo _ _
  · exact (ex_set _ (by decide)).trans <| (ex_set _ (by decide)).trans <| ex_lo _ _

theorem yield (p) : Statement (.yield p) := by
  refine raw_yield _ _ (congrArg BitVec.toNat (a₂ := 9#5) ?_) ?_
  · exact (ex_set _ (by decide)).trans <| (ex_set _ (by decide)).trans <| (ex_hi _ _ (by decide)).trans <| (ex_hi _ _ (by decide)).trans <| ex_all _
  · exact (ex_set _ (by decide)).trans <| (ex_set _ (by decide)).trans <| (ex_hi _ _ (by decide)).trans <| ex_lo _ _

theorem svc (p code) : Statement (.svc p code) := by
  refine raw_svc _ _ _ (congrArg BitVec.toNat (a₂ := 10#5) ?_) ?_ ?_
  · exact (ex_set _ (by decide)).trans <| (ex_set _ (by decide)).trans <| (ex_hi _ _ (by decide)).trans <| (ex_hi _ _ (by decide)).trans <| (ex_hi _ _ (by decide)).trans <| ex_all _
  · exact (ex_set _ (by decide)).trans <| (ex_set _ (by decide)).trans <| (ex_hi _ _ (by decide)).trans <| (ex_hi _ _ (by decide)).trans <| ex_lo _ _
  · exact (ex_set _ (by decide)).trans <| (ex_set _ (by decide)).trans <| ex_lo _ _

theorem trap (p code) : Statement (.trap p code) := by
  refine raw_trap _ _ _ (congrArg BitVec.toNat (a₂ := 11#5) ?_) ?_ ?_
  · exact (ex_set _ (by decide)).trans <| (ex_set _ (by decide)).trans <| (ex_hi _ _ (by decide)).trans <| (ex_hi _ _ (by decide)).trans <| (ex_hi _ _ (by decide)).trans <| ex_all _
  · exact (ex_set _ (by decide)).trans <| (ex_set _ (by decide)).trans <| (ex_hi _ _ (by decide)).trans <| (ex_hi _ _ (by decide)).trans <| ex_lo _ _
  · exact (ex_set _ (by decide)).trans <| (ex_set _ (by decide)).trans <| ex_lo _ _

theorem halt (p) : Statement (.halt p) := by
  refine raw_halt _ _ (congrArg BitVec.toNat (a₂ := 12#5) ?_) ?_
  · exact (ex_set _ (by decide)).trans <| (ex_set _ (by decide)).trans <| (ex_hi _ _ (by decide)).trans <| (ex_hi _ _ (by decide)).trans <| ex_all _
  · exact (ex_set _ (by decide)).trans <| (ex_set _ (by decide)).trans <| (ex_hi _ _ (by decide)).trans <| ex_lo _ _

theorem probe (p b a) : Statement (.probe p b a) := by
  refine raw_probe _ _ _ _ (congrArg BitVec.toNat (a₂ := 13#5) ?_) ?_ ?_ ?_
  · exact (ex_set _ (by decide)).trans <| (ex_set _ (by decide)).trans <| (ex_hi _ _ (by decide)).trans <| (ex_hi _ _ (by decide)).trans <| (ex_hi _ _ (by decide)).trans <| (ex_hi _ _ (by decide)).trans <| ex_all _
  · exact (ex_set _ (by decide)).trans <| (ex_set _ (by decide)).trans <| (ex_hi _ _ (by decide)).trans <| (ex_hi _ _ (by decide)).trans <| (ex_hi _ _ (by decide)).trans <| ex_lo _ _
  · exact (ex_set _ (by decide)).trans <| (ex_set _ (by decide)).trans <| (ex_hi _ _ (by decide)).trans <| ex_lo _ _
  · exact (ex_set _ (by decide)).trans <| (ex_set _ (by decide)).trans <| ex_lo _ _

theorem discard (p b a) : Statement (.discard p b a) := by
  refine raw_discard _ _ _ _ (congrArg BitVec.toNat (a₂ := 14#5) ?_) ?_ ?_ ?_
  · exact (ex_set _ (by decide)).trans <| (ex_set _ (by decide)).trans <| (ex_hi _ _ (by decide)).trans <| (ex_hi _ _ (by decide)).trans <| (ex_hi _ _ (by decide)).trans <| (ex_hi _ _ (by decide)).trans <| ex_all _
  · exact (ex_set _ (by decide)).trans <| (ex_set _ (by decide)).trans <| (ex_hi _ _ (by decide)).trans <| (ex_hi _ _ (by decide)).trans <| (ex_hi _ _ (by decide)).trans <| ex_lo _ _
  · exact (ex_set _ (by decide)).trans <| (ex_set _ (by decide)).trans <| (ex_hi _ _ (by decide)).trans <| ex_lo _ _
  · exact (ex_set _ (by decide)).trans <| (ex_set _ (by decide)).trans <| ex_lo _ _

theorem exit (p) : Statement (.exit p) := by
  refine raw_exit _ _ (congrArg BitVec.toNat (a₂ := 15#5) ?_) ?_
  · exact (ex_set _ (by decide)).trans <| (ex_set _ (by decide)).trans <| (ex_hi _ _ (by decide)).trans <| (ex_hi _ _ (by decide)).trans <| ex_all _
  · exact (ex_set _ (by decide)).trans <| (ex_set _ (by decide)).trans <| (ex_hi _ _ (by decide)).trans <| ex_lo _ _

theorem add (p d a b) : Statement (.add p d a b) := by
  refine raw_add _ _ _ _ _ _ (congrArg BitVec.toNat (a₂ := 0#7) ?_) ?_ ?_ ?_ ?_
  · exact (ex_set _ (by decide)).trans <| (ex_set _ (by decide)).trans <| (ex_hi _ _ (by decide)).trans <| (ex_hi _ _ (by decide)).trans <| (ex_hi _ _ (by decide)).trans <| (ex_hi _ _ (by decide)).trans <| (ex_hi _ _ (by decide)).trans <| ex_all _
  · exact (ex_set _ (by decide)).trans <| (ex_set _ (by decide)).trans <| (ex_hi _ _ (by decide)).trans <| (ex_hi _ _ (by decide)).trans <| (ex_hi _ _ (by decide)).trans <| (ex_hi _ _ (by decide)).trans <| ex_lo _ _
  · exact (ex_set _ (by decide)).trans <| (ex_set _ (by decide)).trans <| (ex_hi _ _ (by decide)).trans <| (ex_hi _ _ (by decide)).trans <| (ex_hi _ _ (by decide)).trans <| ex_lo _ _
  · exact (ex_set _ (by decide)).trans <| (ex_set _ (by decide)).trans <| (ex_hi _ _ (by decide)).trans <| (ex_hi _ _ (by decide)).trans <| ex_lo _ _
  · exact (ex_set _ (by decide)).trans <| (ex_set _ (by decide)).trans <| (ex_hi _ _ (by decide)).trans <| ex_lo _ _

theorem sub (p d a b) : Statement (.sub p d a b) := by
  refine raw_sub _ _ _ _ _ _ (congrArg BitVec.toNat (a₂ := 1#7) ?_) ?_ ?_ ?_ ?_
  · exact (ex_set _ (by decide)).trans <| (ex_set _ (by decide)).trans <| (ex_hi _ _ (by decide)).trans <| (ex_hi _ _ (by decide)).trans <| (ex_hi _ _ (by decide)).trans <| (ex_hi _ _ (by decide)).trans <| (ex_hi _ _ (by decide)).trans <| ex_all _
  · exact (ex_set _ (by decide)).trans <| (ex_set _ (by decide)).trans <| (ex_hi _ _ (by decide)).trans <| (ex_hi _ _ (by decide)).trans <| (ex_hi _ _ (by decide)).trans <| (ex_hi _ _ (by decide)).trans <| ex_lo _ _
  · exact (ex_set _ (by decide)).trans <| (ex_set _ (by decide)).trans <| (ex_hi _ _ (by decide)).trans <| (ex_hi _ _ (by decide)).trans <| (ex_hi _ _ (by decide)).trans <| ex_lo _ _
  · exact (ex_set _ (by decide)).trans <| (ex_set _ (by decide)).trans <| (ex_hi _ _ (by decide)).trans <| (ex_hi _ _ (by decide)).trans <| ex_lo _ _
  · exact (ex_set _ (by decide)).trans <| (ex_set _ (by decide)).trans <| (ex_hi _ _ (by decide)).trans <| ex_lo _ _

theorem mul (p d a b) : Statement (.mul p d a b) := by
  refine raw_mul _ _ _ _ _ _ (congrArg BitVec.toNat (a₂ := 2#7) ?_) ?_ ?_ ?_ ?_
  · exact (ex_set _ (by decide)).trans <| (ex_set _ (by decide)).trans <| (ex_hi _ _ (by decide)).trans <| (ex_hi _ _ (by decide)).trans <| (ex_hi _ _ (by decide)).trans <| (ex_hi _ _ (by decide)).trans <| (ex_hi _ _ (by decide)).trans <| ex_all _
  · exact (ex_set _ (by decide)).trans <| (ex_set _ (by decide)).trans <| (ex_hi _ _ (by decide)).trans <| (ex_hi _ _ (by decide)).trans <| (ex_hi _ _ (by decide)).trans <| (ex_hi _ _ (by decide)).trans <| ex_lo _ _
  · exact (ex_set _ (by decide)).trans <| (ex_set _ (by decide)).trans <| (ex_hi _ _ (by decide)).trans <| (ex_hi _ _ (by decide)).trans <| (ex_hi _ _ (by decide)).trans <| ex_lo _ _
  · exact (ex_set _ (by decide)).trans <| (ex_set _ (by decide)).trans <| (ex_hi _ _ (by decide)).trans <| (ex_hi _ _ (by decide)).trans <| ex_lo _ _
  · exact (ex_set _ (by decide)).trans <| (ex_set _ (by decide)).trans <| (ex_hi _ _ (by decide)).trans <| ex_lo _ _

theorem mulh (p d a b) : Statement (.mulh p d a b) := by
  refine raw_mulh _ _ _ _ _ _ (congrArg BitVec.toNat (a₂ := 3#7) ?_) ?_ ?_ ?_ ?_
  · exact (ex_set _ (by decide)).trans <| (ex_set _ (by decide)).trans <| (ex_hi _ _ (by decide)).trans <| (ex_hi _ _ (by decide)).trans <| (ex_hi _ _ (by decide)).trans <| (ex_hi _ _ (by decide)).trans <| (ex_hi _ _ (by decide)).trans <| ex_all _
  · exact (ex_set _ (by decide)).trans <| (ex_set _ (by decide)).trans <| (ex_hi _ _ (by decide)).trans <| (ex_hi _ _ (by decide)).trans <| (ex_hi _ _ (by decide)).trans <| (ex_hi _ _ (by decide)).trans <| ex_lo _ _
  · exact (ex_set _ (by decide)).trans <| (ex_set _ (by decide)).trans <| (ex_hi _ _ (by decide)).trans <| (ex_hi _ _ (by decide)).trans <| (ex_hi _ _ (by decide)).trans <| ex_lo _ _
  · exact (ex_set _ (by decide)).trans <| (ex_set _ (by decide)).trans <| (ex_hi _ _ (by decide)).trans <| (ex_hi _ _ (by decide)).trans <| ex_lo _ _
  · exact (ex_set _ (by decide)).trans <| (ex_set _ (by decide)).trans <| (ex_hi _ _ (by decide)).trans <| ex_lo _ _

theorem mulhs (p d a b) : Statement (.mulhs p d a b) := by
  refine raw_mulhs _ _ _ _ _ _ (congrArg BitVec.toNat (a₂ := 4#7) ?_) ?_ ?_ ?_ ?_
  · exact (ex_set _ (by decide)).trans <| (ex_set _ (by decide)).trans <| (ex_hi _ _ (by decide)).trans <| (ex_hi _ _ (by decide)).trans <| (ex_hi _ _ (by decide)).trans <| (ex_hi _ _ (by decide)).trans <| (ex_hi _ _ (by decide)).trans <| ex_all _
  · exact (ex_set _ (by decide)).trans <| (ex_set _ (by decide)).trans <| (ex_hi _ _ (by decide)).trans <| (ex_hi _ _ (by decide)).trans <| (ex_hi _ _ (by decide)).trans <| (ex_hi _ _ (by decide)).trans <| ex_lo _ _
  · exact (ex_set _ (by decide)).trans <| (ex_set _ (by decide)).trans <| (ex_hi _ _ (by decide)).trans <| (ex_hi _ _ (by decide)).trans <| (ex_hi _ _ (by decide)).trans <| ex_lo _ _
  · exact (ex_set _ (by decide)).trans <| (ex_set _ (by decide)).trans <| (ex_hi _ _ (by decide)).trans <| (ex_hi _ _ (by decide)).trans <| ex_lo _ _
  · exact (ex_set _ (by decide)).trans <| (ex_set _ (by decide)).trans <| (ex_hi _ _ (by decide)).trans <| ex_lo _ _

theorem div (p d a b) : Statement (.div p d a b) := by
  refine raw_div _ _ _ _ _ _ (congrArg BitVec.toNat (a₂ := 5#7) ?_) ?_ ?_ ?_ ?_
  · exact (ex_set _ (by decide)).trans <| (ex_set _ (by decide)).trans <| (ex_hi _ _ (by decide)).trans <| (ex_hi _ _ (by decide)).trans <| (ex_hi _ _ (by decide)).trans <| (ex_hi _ _ (by decide)).trans <| (ex_hi _ _ (by decide)).trans <| ex_all _
  · exact (ex_set _ (by decide)).trans <| (ex_set _ (by decide)).trans <| (ex_hi _ _ (by decide)).trans <| (ex_hi _ _ (by decide)).trans <| (ex_hi _ _ (by decide)).trans <| (ex_hi _ _ (by decide)).trans <| ex_lo _ _
  · exact (ex_set _ (by decide)).trans <| (ex_set _ (by decide)).trans <| (ex_hi _ _ (by decide)).trans <| (ex_hi _ _ (by decide)).trans <| (ex_hi _ _ (by decide)).trans <| ex_lo _ _
  · exact (ex_set _ (by decide)).trans <| (ex_set _ (by decide)).trans <| (ex_hi _ _ (by decide)).trans <| (ex_hi _ _ (by decide)).trans <| ex_lo _ _
  · exact (ex_set _ (by decide)).trans <| (ex_set _ (by decide)).trans <| (ex_hi _ _ (by decide)).trans <| ex_lo _ _

theorem divs (p d a b) : Statement (.divs p d a b) := by
  refine raw_divs _ _ _ _ _ _ (congrArg BitVec.toNat (a₂ := 6#7) ?_) ?_ ?_ ?_ ?_
  · exact (ex_set _ (by decide)).trans <| (ex_set _ (by decide)).trans <| (ex_hi _ _ (by decide)).trans <| (ex_hi _ _ (by decide)).trans <| (ex_hi _ _ (by decide)).trans <| (ex_hi _ _ (by decide)).trans <| (ex_hi _ _ (by decide)).trans <| ex_all _
  · exact (ex_set _ (by decide)).trans <| (ex_set _ (by decide)).trans <| (ex_hi _ _ (by decide)).trans <| (ex_hi _ _ (by decide)).trans <| (ex_hi _ _ (by decide)).trans <| (ex_hi _ _ (by decide)).trans <| ex_lo _ _
  · exact (ex_set _ (by decide)).trans <| (ex_set _ (by decide)).trans <| (ex_hi _ _ (by decide)).trans <| (ex_hi _ _ (by decide)).trans <| (ex_hi _ _ (by decide)).trans <| ex_lo _ _
  · exact (ex_set _ (by decide)).trans <| (ex_set _ (by decide)).trans <| (ex_hi _ _ (by decide)).trans <| (ex_hi _ _ (by decide)).trans <| ex_lo _ _
  · exact (ex_set _ (by decide)).trans <| (ex_set _ (by decide)).trans <| (ex_hi _ _ (by decide)).trans <| ex_lo _ _

theorem rem (p d a b) : Statement (.rem p d a b) := by
  refine raw_rem _ _ _ _ _ _ (congrArg BitVec.toNat (a₂ := 7#7) ?_) ?_ ?_ ?_ ?_
  · exact (ex_set _ (by decide)).trans <| (ex_set _ (by decide)).trans <| (ex_hi _ _ (by decide)).trans <| (ex_hi _ _ (by decide)).trans <| (ex_hi _ _ (by decide)).trans <| (ex_hi _ _ (by decide)).trans <| (ex_hi _ _ (by decide)).trans <| ex_all _
  · exact (ex_set _ (by decide)).trans <| (ex_set _ (by decide)).trans <| (ex_hi _ _ (by decide)).trans <| (ex_hi _ _ (by decide)).trans <| (ex_hi _ _ (by decide)).trans <| (ex_hi _ _ (by decide)).trans <| ex_lo _ _
  · exact (ex_set _ (by decide)).trans <| (ex_set _ (by decide)).trans <| (ex_hi _ _ (by decide)).trans <| (ex_hi _ _ (by decide)).trans <| (ex_hi _ _ (by decide)).trans <| ex_lo _ _
  · exact (ex_set _ (by decide)).trans <| (ex_set _ (by decide)).trans <| (ex_hi _ _ (by decide)).trans <| (ex_hi _ _ (by decide)).trans <| ex_lo _ _
  · exact (ex_set _ (by decide)).trans <| (ex_set _ (by decide)).trans <| (ex_hi _ _ (by decide)).trans <| ex_lo _ _

theorem and (p d a b) : Statement (.and p d a b) := by
  refine raw_and _ _ _ _ _ _ (congrArg BitVec.toNat (a₂ := 8#7) ?_) ?_ ?_ ?_ ?_
  · exact (ex_set _ (by decide)).trans <| (ex_set _ (by decide)).trans <| (ex_hi _ _ (by decide)).trans <| (ex_hi _ _ (by decide)).trans <| (ex_hi _ _ (by decide)).trans <| (ex_hi _ _ (by decide)).trans <| (ex_hi _ _ (by decide)).trans <| ex_all _
  · exact (ex_set _ (by decide)).trans <| (ex_set _ (by decide)).trans <| (ex_hi _ _ (by decide)).trans <| (ex_hi _ _ (by decide)).trans <| (ex_hi _ _ (by decide)).trans <| (ex_hi _ _ (by decide)).trans <| ex_lo _ _
  · exact (ex_set _ (by decide)).trans <| (ex_set _ (by decide)).trans <| (ex_hi _ _ (by decide)).trans <| (ex_hi _ _ (by decide)).trans <| (ex_hi _ _ (by decide)).trans <| ex_lo _ _
  · exact (ex_set _ (by decide)).trans <| (ex_set _ (by decide)).trans <| (ex_hi _ _ (by decide)).trans <| (ex_hi _ _ (by decide)).trans <| ex_lo _ _
  · exact (ex_set _ (by decide)).trans <| (ex_set _ (by decide)).trans <| (ex_hi _ _ (by decide)).trans <| ex_lo _ _

theorem or (p d a b) : Statement (.or p d a b) := by
  refine raw_or _ _ _ _ _ _ (congrArg BitVec.toNat (a₂ := 9#7) ?_) ?_ ?_ ?_ ?_
  · exact (ex_set _ (by decide)).trans <| (ex_set _ (by decide)).trans <| (ex_hi _ _ (by decide)).trans <| (ex_hi _ _ (by decide)).trans <| (ex_hi _ _ (by decide)).trans <| (ex_hi _ _ (by decide)).trans <| (ex_hi _ _ (by decide)).trans <| ex_all _
  · exact (ex_set _ (by decide)).trans <| (ex_set _ (by decide)).trans <| (ex_hi _ _ (by decide)).trans <| (ex_hi _ _ (by decide)).trans <| (ex_hi _ _ (by decide)).trans <| (ex_hi _ _ (by decide)).trans <| ex_lo _ _
  · exact (ex_set _ (by decide)).trans <| (ex_set _ (by decide)).trans <| (ex_hi _ _ (by decide)).trans <| (ex_hi _ _ (by decide)).trans <| (ex_hi _ _ (by decide)).trans <| ex_lo _ _
  · exact (ex_set _ (by decide)).trans <| (ex_set _ (by decide)).trans <| (ex_hi _ _ (by decide)).trans <| (ex_hi _ _ (by decide)).trans <| ex_lo _ _
  · exact (ex_set _ (by decide)).trans <| (ex_set _ (by decide)).trans <| (ex_hi _ _ (by decide)).trans <| ex_lo _ _

theorem xor (p d a b) : Statement (.xor p d a b) := by
  refine raw_xor _ _ _ _ _ _ (congrArg BitVec.toNat (a₂ := 10#7) ?_) ?_ ?_ ?_ ?_
  · exact (ex_set _ (by decide)).trans <| (ex_set _ (by decide)).trans <| (ex_hi _ _ (by decide)).trans <| (ex_hi _ _ (by decide)).trans <| (ex_hi _ _ (by decide)).trans <| (ex_hi _ _ (by decide)).trans <| (ex_hi _ _ (by decide)).trans <| ex_all _
  · exact (ex_set _ (by decide)).trans <| (ex_set _ (by decide)).trans <| (ex_hi _ _ (by decide)).trans <| (ex_hi _ _ (by decide)).trans <| (ex_hi _ _ (by decide)).trans <| (ex_hi _ _ (by decide)).trans <| ex_lo _ _
  · exact (ex_set _ (by decide)).trans <| (ex_set _ (by decide)).trans <| (ex_hi _ _ (by decide)).trans <| (ex_hi _ _ (by decide)).trans <| (ex_hi _ _ (by decide)).trans <| ex_lo _ _
  · exact (ex_set _ (by decide)).trans <| (ex_set _ (by decide)).trans <| (ex_hi _ _ (by decide)).trans <| (ex_hi _ _ (by decide)).trans <| ex_lo _ _
  · exact (ex_set _ (by decide)).trans <| (ex_set _ (by decide)).trans <| (ex_hi _ _ (by decide)).trans <| ex_lo _ _

theorem andn (p d a b) : Statement (.andn p d a b) := by
  refine raw_andn _ _ _ _ _ _ (congrArg BitVec.toNat (a₂ := 11#7) ?_) ?_ ?_ ?_ ?_
  · exact (ex_set _ (by decide)).trans <| (ex_set _ (by decide)).trans <| (ex_hi _ _ (by decide)).trans <| (ex_hi _ _ (by decide)).trans <| (ex_hi _ _ (by decide)).trans <| (ex_hi _ _ (by decide)).trans <| (ex_hi _ _ (by decide)).trans <| ex_all _
  · exact (ex_set _ (by decide)).trans <| (ex_set _ (by decide)).trans <| (ex_hi _ _ (by decide)).trans <| (ex_hi _ _ (by decide)).trans <| (ex_hi _ _ (by decide)).trans <| (ex_hi _ _ (by decide)).trans <| ex_lo _ _
  · exact (ex_set _ (by decide)).trans <| (ex_set _ (by decide)).trans <| (ex_hi _ _ (by decide)).trans <| (ex_hi _ _ (by decide)).trans <| (ex_hi _ _ (by decide)).trans <| ex_lo _ _
  · exact (ex_set _ (by decide)).trans <| (ex_set _ (by decide)).trans <| (ex_hi _ _ (by decide)).trans <| (ex_hi _ _ (by decide)).trans <| ex_lo _ _
  · exact (ex_set _ (by decide)).trans <| (ex_set _ (by decide)).trans <| (ex_hi _ _ (by decide)).trans <| ex_lo _ _

theorem shl (p d a b) : Statement (.shl p d a b) := by
  refine raw_shl _ _ _ _ _ _ (congrArg BitVec.toNat (a₂ := 12#7) ?_) ?_ ?_ ?_ ?_
  · exact (ex_set _ (by decide)).trans <| (ex_set _ (by decide)).trans <| (ex_hi _ _ (by decide)).trans <| (ex_hi _ _ (by decide)).trans <| (ex_hi _ _ (by decide)).trans <| (ex_hi _ _ (by decide)).trans <| (ex_hi _ _ (by decide)).trans <| ex_all _
  · exact (ex_set _ (by decide)).trans <| (ex_set _ (by decide)).trans <| (ex_hi _ _ (by decide)).trans <| (ex_hi _ _ (by decide)).trans <| (ex_hi _ _ (by decide)).trans <| (ex_hi _ _ (by decide)).trans <| ex_lo _ _
  · exact (ex_set _ (by decide)).trans <| (ex_set _ (by decide)).trans <| (ex_hi _ _ (by decide)).trans <| (ex_hi _ _ (by decide)).trans <| (ex_hi _ _ (by decide)).trans <| ex_lo _ _
  · exact (ex_set _ (by decide)).trans <| (ex_set _ (by decide)).trans <| (ex_hi _ _ (by decide)).trans <| (ex_hi _ _ (by decide)).trans <| ex_lo _ _
  · exact (ex_set _ (by decide)).trans <| (ex_set _ (by decide)).trans <| (ex_hi _ _ (by decide)).trans <| ex_lo _ _

theorem shr (p d a b) : Statement (.shr p d a b) := by
  refine raw_shr _ _ _ _ _ _ (congrArg BitVec.toNat (a₂ := 13#7) ?_) ?_ ?_ ?_ ?_
  · exact (ex_set _ (by decide)).trans <| (ex_set _ (by decide)).trans <| (ex_hi _ _ (by decide)).trans <| (ex_hi _ _ (by decide)).trans <| (ex_hi _ _ (by decide)).trans <| (ex_hi _ _ (by decide)).trans <| (ex_hi _ _ (by decide)).trans <| ex_all _
  · exact (ex_set _ (by decide)).trans <| (ex_set _ (by decide)).trans <| (ex_hi _ _ (by decide)).trans <| (ex_hi _ _ (by decide)).trans <| (ex_hi _ _ (by decide)).trans <| (ex_hi _ _ (by decide)).trans <| ex_lo _ _
  · exact (ex_set _ (by decide)).trans <| (ex_set _ (by decide)).trans <| (ex_hi _ _ (by decide)).trans <| (ex_hi _ _ (by decide)).trans <| (ex_hi _ _ (by decide)).trans <| ex_lo _ _
  · exact (ex_set _ (by decide)).trans <| (ex_set _ (by decide)).trans <| (ex_hi _ _ (by decide)).trans <| (ex_hi _ _ (by decide)).trans <| ex_lo _ _
  · exact (ex_set _ (by decide)).trans <| (ex_set _ (by decide)).trans <| (ex_hi _ _ (by decide)).trans <| ex_lo _ _

theorem sar (p d a b) : Statement (.sar p d a b) := by
  refine raw_sar _ _ _ _ _ _ (congrArg BitVec.toNat (a₂ := 14#7) ?_) ?_ ?_ ?_ ?_
  · exact (ex_set _ (by decide)).trans <| (ex_set _ (by decide)).trans <| (ex_hi _ _ (by decide)).trans <| (ex_hi _ _ (by decide)).trans <| (ex_hi _ _ (by decide)).trans <| (ex_hi _ _ (by decide)).trans <| (ex_hi _ _ (by decide)).trans <| ex_all _
  · exact (ex_set _ (by decide)).trans <| (ex_set _ (by decide)).trans <| (ex_hi _ _ (by decide)).trans <| (ex_hi _ _ (by decide)).trans <| (ex_hi _ _ (by decide)).trans <| (ex_hi _ _ (by decide)).trans <| ex_lo _ _
  · exact (ex_set _ (by decide)).trans <| (ex_set _ (by decide)).trans <| (ex_hi _ _ (by decide)).trans <| (ex_hi _ _ (by decide)).trans <| (ex_hi _ _ (by decide)).trans <| ex_lo _ _
  · exact (ex_set _ (by decide)).trans <| (ex_set _ (by decide)).trans <| (ex_hi _ _ (by decide)).trans <| (ex_hi _ _ (by decide)).trans <| ex_lo _ _
  · exact (ex_set _ (by decide)).trans <| (ex_set _ (by decide)).trans <| (ex_hi _ _ (by decide)).trans <| ex_lo _ _

theorem rotl (p d a b) : Statement (.rotl p d a b) := by
  refine raw_rotl _ _ _ _ _ _ (congrArg BitVec.toNat (a₂ := 15#7) ?_) ?_ ?_ ?_ ?_
  · exact (ex_set _ (by decide)).trans <| (ex_set _ (by decide)).trans <| (ex_hi _ _ (by decide)).trans <| (ex_hi _ _ (by decide)).trans <| (ex_hi _ _ (by decide)).trans <| (ex_hi _ _ (by decide)).trans <| (ex_hi _ _ (by decide)).trans <| ex_all _
  · exact (ex_set _ (by decide)).trans <| (ex_set _ (by decide)).trans <| (ex_hi _ _ (by decide)).trans <| (ex_hi _ _ (by decide)).trans <| (ex_hi _ _ (by decide)).trans <| (ex_hi _ _ (by decide)).trans <| ex_lo _ _
  · exact (ex_set _ (by decide)).trans <| (ex_set _ (by decide)).trans <| (ex_hi _ _ (by decide)).trans <| (ex_hi _ _ (by decide)).trans <| (ex_hi _ _ (by decide)).trans <| ex_lo _ _
  · exact (ex_set _ (by decide)).trans <| (ex_set _ (by decide)).trans <| (ex_hi _ _ (by decide)).trans <| (ex_hi _ _ (by decide)).trans <| ex_lo _ _
  · exact (ex_set _ (by decide)).trans <| (ex_set _ (by decide)).trans <| (ex_hi _ _ (by decide)).trans <| ex_lo _ _

theorem min (p d a b) : Statement (.min p d a b) := by
  refine raw_min _ _ _ _ _ _ (congrArg BitVec.toNat (a₂ := 16#7) ?_) ?_ ?_ ?_ ?_
  · exact (ex_set _ (by decide)).trans <| (ex_set _ (by decide)).trans <| (ex_hi _ _ (by decide)).trans <| (ex_hi _ _ (by decide)).trans <| (ex_hi _ _ (by decide)).trans <| (ex_hi _ _ (by decide)).trans <| (ex_hi _ _ (by decide)).trans <| ex_all _
  · exact (ex_set _ (by decide)).trans <| (ex_set _ (by decide)).trans <| (ex_hi _ _ (by decide)).trans <| (ex_hi _ _ (by decide)).trans <| (ex_hi _ _ (by decide)).trans <| (ex_hi _ _ (by decide)).trans <| ex_lo _ _
  · exact (ex_set _ (by decide)).trans <| (ex_set _ (by decide)).trans <| (ex_hi _ _ (by decide)).trans <| (ex_hi _ _ (by decide)).trans <| (ex_hi _ _ (by decide)).trans <| ex_lo _ _
  · exact (ex_set _ (by decide)).trans <| (ex_set _ (by decide)).trans <| (ex_hi _ _ (by decide)).trans <| (ex_hi _ _ (by decide)).trans <| ex_lo _ _
  · exact (ex_set _ (by decide)).trans <| (ex_set _ (by decide)).trans <| (ex_hi _ _ (by decide)).trans <| ex_lo _ _

theorem max (p d a b) : Statement (.max p d a b) := by
  refine raw_max _ _ _ _ _ _ (congrArg BitVec.toNat (a₂ := 17#7) ?_) ?_ ?_ ?_ ?_
  · exact (ex_set _ (by decide)).trans <| (ex_set _ (by decide)).trans <| (ex_hi _ _ (by decide)).trans <| (ex_hi _ _ (by decide)).trans <| (ex_hi _ _ (by decide)).trans <| (ex_hi _ _ (by decide)).trans <| (ex_hi _ _ (by decide)).trans <| ex_all _
  · exact (ex_set _ (by decide)).trans <| (ex_set _ (by decide)).trans <| (ex_hi _ _ (by decide)).trans <| (ex_hi _ _ (by decide)).trans <| (ex_hi _ _ (by decide)).trans <| (ex_hi _ _ (by decide)).trans <| ex_lo _ _
  · exact (ex_set _ (by decide)).trans <| (ex_set _ (by decide)).trans <| (ex_hi _ _ (by decide)).trans <| (ex_hi _ _ (by decide)).trans <| (ex_hi _ _ (by decide)).trans <| ex_lo _ _
  · exact (ex_set _ (by decide)).trans <| (ex_set _ (by decide)).trans <| (ex_hi _ _ (by decide)).trans <| (ex_hi _ _ (by decide)).trans <| ex_lo _ _
  · exact (ex_set _ (by decide)).trans <| (ex_set _ (by decide)).trans <| (ex_hi _ _ (by decide)).trans <| ex_lo _ _

theorem mins (p d a b) : Statement (.mins p d a b) := by
  refine raw_mins _ _ _ _ _ _ (congrArg BitVec.toNat (a₂ := 18#7) ?_) ?_ ?_ ?_ ?_
  · exact (ex_set _ (by decide)).trans <| (ex_set _ (by decide)).trans <| (ex_hi _ _ (by decide)).trans <| (ex_hi _ _ (by decide)).trans <| (ex_hi _ _ (by decide)).trans <| (ex_hi _ _ (by decide)).trans <| (ex_hi _ _ (by decide)).trans <| ex_all _
  · exact (ex_set _ (by decide)).trans <| (ex_set _ (by decide)).trans <| (ex_hi _ _ (by decide)).trans <| (ex_hi _ _ (by decide)).trans <| (ex_hi _ _ (by decide)).trans <| (ex_hi _ _ (by decide)).trans <| ex_lo _ _
  · exact (ex_set _ (by decide)).trans <| (ex_set _ (by decide)).trans <| (ex_hi _ _ (by decide)).trans <| (ex_hi _ _ (by decide)).trans <| (ex_hi _ _ (by decide)).trans <| ex_lo _ _
  · exact (ex_set _ (by decide)).trans <| (ex_set _ (by decide)).trans <| (ex_hi _ _ (by decide)).trans <| (ex_hi _ _ (by decide)).trans <| ex_lo _ _
  · exact (ex_set _ (by decide)).trans <| (ex_set _ (by decide)).trans <| (ex_hi _ _ (by decide)).trans <| ex_lo _ _

theorem maxs (p d a b) : Statement (.maxs p d a b) := by
  refine raw_maxs _ _ _ _ _ _ (congrArg BitVec.toNat (a₂ := 19#7) ?_) ?_ ?_ ?_ ?_
  · exact (ex_set _ (by decide)).trans <| (ex_set _ (by decide)).trans <| (ex_hi _ _ (by decide)).trans <| (ex_hi _ _ (by decide)).trans <| (ex_hi _ _ (by decide)).trans <| (ex_hi _ _ (by decide)).trans <| (ex_hi _ _ (by decide)).trans <| ex_all _
  · exact (ex_set _ (by decide)).trans <| (ex_set _ (by decide)).trans <| (ex_hi _ _ (by decide)).trans <| (ex_hi _ _ (by decide)).trans <| (ex_hi _ _ (by decide)).trans <| (ex_hi _ _ (by decide)).trans <| ex_lo _ _
  · exact (ex_set _ (by decide)).trans <| (ex_set _ (by decide)).trans <| (ex_hi _ _ (by decide)).trans <| (ex_hi _ _ (by decide)).trans <| (ex_hi _ _ (by decide)).trans <| ex_lo _ _
  · exact (ex_set _ (by decide)).trans <| (ex_set _ (by decide)).trans <| (ex_hi _ _ (by decide)).trans <| (ex_hi _ _ (by decide)).trans <| ex_lo _ _
  · exact (ex_set _ (by decide)).trans <| (ex_set _ (by decide)).trans <| (ex_hi _ _ (by decide)).trans <| ex_lo _ _

theorem addsh (p d a b sh) : Statement (.addsh p d a b sh) := by
  refine raw_addsh _ _ _ _ _ _ _ (congrArg BitVec.toNat (a₂ := 20#7) ?_) ?_ ?_ ?_ ?_ ?_
  · exact (ex_set _ (by decide)).trans <| (ex_set _ (by decide)).trans <| (ex_hi _ _ (by decide)).trans <| (ex_hi _ _ (by decide)).trans <| (ex_hi _ _ (by decide)).trans <| (ex_hi _ _ (by decide)).trans <| (ex_hi _ _ (by decide)).trans <| (ex_hi _ _ (by decide)).trans <| ex_all _
  · exact (ex_set _ (by decide)).trans <| (ex_set _ (by decide)).trans <| (ex_hi _ _ (by decide)).trans <| (ex_hi _ _ (by decide)).trans <| (ex_hi _ _ (by decide)).trans <| (ex_hi _ _ (by decide)).trans <| (ex_hi _ _ (by decide)).trans <| ex_lo _ _
  · exact (ex_set _ (by decide)).trans <| (ex_set _ (by decide)).trans <| (ex_hi _ _ (by decide)).trans <| (ex_hi _ _ (by decide)).trans <| (ex_hi _ _ (by decide)).trans <| (ex_hi _ _ (by decide)).trans <| ex_lo _ _
  · exact (ex_set _ (by decide)).trans <| (ex_set _ (by decide)).trans <| (ex_hi _ _ (by decide)).trans <| (ex_hi _ _ (by decide)).trans <| (ex_hi _ _ (by decide)).trans <| ex_lo _ _
  · exact (ex_set _ (by decide)).trans <| (ex_set _ (by decide)).trans <| (ex_hi _ _ (by decide)).trans <| (ex_hi _ _ (by decide)).trans <| ex_lo _ _
  · exact (ex_set _ (by decide)).trans <| (ex_set _ (by decide)).trans <| (ex_hi _ _ (by decide)).trans <| ex_lo _ _

theorem clz (p d a) : Statement (.clz p d a) := by
  refine raw_clz _ _ _ _ _ (congrArg BitVec.toNat (a₂ := 21#7) ?_) ?_ ?_ ?_
  · exact (ex_set _ (by decide)).trans <| (ex_set _ (by decide)).trans <| (ex_hi _ _ (by decide)).trans <| (ex_hi _ _ (by decide)).trans <| (ex_hi _ _ (by decide)).trans <| (ex_hi _ _ (by decide)).trans <| ex_all _
  · exact (ex_set _ (by decide)).trans <| (ex_set _ (by decide)).trans <| (ex_hi _ _ (by decide)).trans <| (ex_hi _ _ (by decide)).trans <| (ex_hi _ _ (by decide)).trans <| ex_lo _ _
  · exact (ex_set _ (by decide)).trans <| (ex_set _ (by decide)).trans <| (ex_hi _ _ (by decide)).trans <| (ex_hi _ _ (by decide)).trans <| ex_lo _ _
  · exact (ex_set _ (by decide)).trans <| (ex_set _ (by decide)).trans <| (ex_hi _ _ (by decide)).trans <| ex_lo _ _

theorem popc (p d a) : Statement (.popc p d a) := by
  refine raw_popc _ _ _ _ _ (congrArg BitVec.toNat (a₂ := 22#7) ?_) ?_ ?_ ?_
  · exact (ex_set _ (by decide)).trans <| (ex_set _ (by decide)).trans <| (ex_hi _ _ (by decide)).trans <| (ex_hi _ _ (by decide)).trans <| (ex_hi _ _ (by decide)).trans <| (ex_hi _ _ (by decide)).trans <| ex_all _
  · exact (ex_set _ (by decide)).trans <| (ex_set _ (by decide)).trans <| (ex_hi _ _ (by decide)).trans <| (ex_hi _ _ (by decide)).trans <| (ex_hi _ _ (by decide)).trans <| ex_lo _ _
  · exact (ex_set _ (by decide)).trans <| (ex_set _ (by decide)).trans <| (ex_hi _ _ (by decide)).trans <| (ex_hi _ _ (by decide)).trans <| ex_lo _ _
  · exact (ex_set _ (by decide)).trans <| (ex_set _ (by decide)).trans <| (ex_hi _ _ (by decide)).trans <| ex_lo _ _

theorem sel (p d a b pc) : Statement (.sel p d a b pc) := by
  refine raw_sel _ _ _ _ _ _ _ (congrArg BitVec.toNat (a₂ := 23#7) ?_) ?_ ?_ ?_ ?_ ?_
  · exact (ex_set _ (by decide)).trans <| (ex_set _ (by decide)).trans <| (ex_hi _ _ (by decide)).trans <| (ex_hi _ _ (by decide)).trans <| (ex_hi _ _ (by decide)).trans <| (ex_hi _ _ (by decide)).trans <| (ex_hi _ _ (by decide)).trans <| (ex_hi _ _ (by decide)).trans <| ex_all _
  · exact (ex_set _ (by decide)).trans <| (ex_set _ (by decide)).trans <| (ex_hi _ _ (by decide)).trans <| (ex_hi _ _ (by decide)).trans <| (ex_hi _ _ (by decide)).trans <| (ex_hi _ _ (by decide)).trans <| (ex_hi _ _ (by decide)).trans <| ex_lo _ _
  · exact (ex_set _ (by decide)).trans <| (ex_set _ (by decide)).trans <| (ex_hi _ _ (by decide)).trans <| (ex_hi _ _ (by decide)).trans <| (ex_hi _ _ (by decide)).trans <| (ex_hi _ _ (by decide)).trans <| ex_lo _ _
  · exact (ex_set _ (by decide)).trans <| (ex_set _ (by decide)).trans <| (ex_hi _ _ (by decide)).trans <| (ex_hi _ _ (by decide)).trans <| (ex_hi _ _ (by decide)).trans <| ex_lo _ _
  · exact (ex_set _ (by decide)).trans <| (ex_set _ (by decide)).trans <| (ex_hi _ _ (by decide)).trans <| (ex_hi _ _ (by decide)).trans <| ex_lo _ _
  · exact (ex_set _ (by decide)).trans <| (ex_set _ (by decide)).trans <| (ex_hi _ _ (by decide)).trans <| ex_lo _ _

theorem addi (p d a psel imm) : Statement (.addi p d a psel imm) := by
  refine raw_addi _ _ _ _ _ _ _ (congrArg BitVec.toNat (a₂ := 32#7) ?_) ?_ ?_ ?_ ?_ ?_
  · exact (ex_set _ (by decide)).trans <| (ex_set _ (by decide)).trans <| (ex_hi _ _ (by decide)).trans <| (ex_hi _ _ (by decide)).trans <| (ex_hi _ _ (by decide)).trans <| (ex_hi _ _ (by decide)).trans <| (ex_hi _ _ (by decide)).trans <| ex_all _
  · exact (ex_set _ (by decide)).trans <| (ex_set _ (by decide)).trans <| (ex_hi _ _ (by decide)).trans <| (ex_hi _ _ (by decide)).trans <| (ex_hi _ _ (by decide)).trans <| (ex_hi _ _ (by decide)).trans <| ex_lo _ _
  · exact (ex_set _ (by decide)).trans <| (ex_set _ (by decide)).trans <| (ex_hi _ _ (by decide)).trans <| (ex_hi _ _ (by decide)).trans <| (ex_hi _ _ (by decide)).trans <| ex_lo _ _
  · exact (ex_set _ (by decide)).trans <| (ex_set _ (by decide)).trans <| (ex_hi _ _ (by decide)).trans <| (ex_hi _ _ (by decide)).trans <| ex_lo _ _
  · exact (ex_set _ (by decide)).trans <| (ex_set _ (by decide)).trans <| (ex_hi _ _ (by decide)).trans <| ex_lo _ _
  · exact (ex_set _ (by decide)).trans <| (ex_set _ (by decide)).trans <| ex_lo _ _

theorem mulImm (p d a psel imm) : Statement (.mulImm p d a psel imm) := by
  refine raw_mulImm _ _ _ _ _ _ _ (congrArg BitVec.toNat (a₂ := 34#7) ?_) ?_ ?_ ?_ ?_ ?_
  · exact (ex_set _ (by decide)).trans <| (ex_set _ (by decide)).trans <| (ex_hi _ _ (by decide)).trans <| (ex_hi _ _ (by decide)).trans <| (ex_hi _ _ (by decide)).trans <| (ex_hi _ _ (by decide)).trans <| (ex_hi _ _ (by decide)).trans <| ex_all _
  · exact (ex_set _ (by decide)).trans <| (ex_set _ (by decide)).trans <| (ex_hi _ _ (by decide)).trans <| (ex_hi _ _ (by decide)).trans <| (ex_hi _ _ (by decide)).trans <| (ex_hi _ _ (by decide)).trans <| ex_lo _ _
  · exact (ex_set _ (by decide)).trans <| (ex_set _ (by decide)).trans <| (ex_hi _ _ (by decide)).trans <| (ex_hi _ _ (by decide)).trans <| (ex_hi _ _ (by decide)).trans <| ex_lo _ _
  · exact (ex_set _ (by decide)).trans <| (ex_set _ (by decide)).trans <| (ex_hi _ _ (by decide)).trans <| (ex_hi _ _ (by decide)).trans <| ex_lo _ _
  · exact (ex_set _ (by decide)).trans <| (ex_set _ (by decide)).trans <| (ex_hi _ _ (by decide)).trans <| ex_lo _ _
  · exact (ex_set _ (by decide)).trans <| (ex_set _ (by decide)).trans <| ex_lo _ _

theorem andImm (p d a psel imm) : Statement (.andImm p d a psel imm) := by
  refine raw_andImm _ _ _ _ _ _ _ (congrArg BitVec.toNat (a₂ := 40#7) ?_) ?_ ?_ ?_ ?_ ?_
  · exact (ex_set _ (by decide)).trans <| (ex_set _ (by decide)).trans <| (ex_hi _ _ (by decide)).trans <| (ex_hi _ _ (by decide)).trans <| (ex_hi _ _ (by decide)).trans <| (ex_hi _ _ (by decide)).trans <| (ex_hi _ _ (by decide)).trans <| ex_all _
  · exact (ex_set _ (by decide)).trans <| (ex_set _ (by decide)).trans <| (ex_hi _ _ (by decide)).trans <| (ex_hi _ _ (by decide)).trans <| (ex_hi _ _ (by decide)).trans <| (ex_hi _ _ (by decide)).trans <| ex_lo _ _
  · exact (ex_set _ (by decide)).trans <| (ex_set _ (by decide)).trans <| (ex_hi _ _ (by decide)).trans <| (ex_hi _ _ (by decide)).trans <| (ex_hi _ _ (by decide)).trans <| ex_lo _ _
  · exact (ex_set _ (by decide)).trans <| (ex_set _ (by decide)).trans <| (ex_hi _ _ (by decide)).trans <| (ex_hi _ _ (by decide)).trans <| ex_lo _ _
  · exact (ex_set _ (by decide)).trans <| (ex_set _ (by decide)).trans <| (ex_hi _ _ (by decide)).trans <| ex_lo _ _
  · exact (ex_set _ (by decide)).trans <| (ex_set _ (by decide)).trans <| ex_lo _ _

theorem orImm (p d a psel imm) : Statement (.orImm p d a psel imm) := by
  refine raw_orImm _ _ _ _ _ _ _ (congrArg BitVec.toNat (a₂ := 41#7) ?_) ?_ ?_ ?_ ?_ ?_
  · exact (ex_set _ (by decide)).trans <| (ex_set _ (by decide)).trans <| (ex_hi _ _ (by decide)).trans <| (ex_hi _ _ (by decide)).trans <| (ex_hi _ _ (by decide)).trans <| (ex_hi _ _ (by decide)).trans <| (ex_hi _ _ (by decide)).trans <| ex_all _
  · exact (ex_set _ (by decide)).trans <| (ex_set _ (by decide)).trans <| (ex_hi _ _ (by decide)).trans <| (ex_hi _ _ (by decide)).trans <| (ex_hi _ _ (by decide)).trans <| (ex_hi _ _ (by decide)).trans <| ex_lo _ _
  · exact (ex_set _ (by decide)).trans <| (ex_set _ (by decide)).trans <| (ex_hi _ _ (by decide)).trans <| (ex_hi _ _ (by decide)).trans <| (ex_hi _ _ (by decide)).trans <| ex_lo _ _
  · exact (ex_set _ (by decide)).trans <| (ex_set _ (by decide)).trans <| (ex_hi _ _ (by decide)).trans <| (ex_hi _ _ (by decide)).trans <| ex_lo _ _
  · exact (ex_set _ (by decide)).trans <| (ex_set _ (by decide)).trans <| (ex_hi _ _ (by decide)).trans <| ex_lo _ _
  · exact (ex_set _ (by decide)).trans <| (ex_set _ (by decide)).trans <| ex_lo _ _

theorem xorImm (p d a psel imm) : Statement (.xorImm p d a psel imm) := by
  refine raw_xorImm _ _ _ _ _ _ _ (congrArg BitVec.toNat (a₂ := 42#7) ?_) ?_ ?_ ?_ ?_ ?_
  · exact (ex_set _ (by decide)).trans <| (ex_set _ (by decide)).trans <| (ex_hi _ _ (by decide)).trans <| (ex_hi _ _ (by decide)).trans <| (ex_hi _ _ (by decide)).trans <| (ex_hi _ _ (by decide)).trans <| (ex_hi _ _ (by decide)).trans <| ex_all _
  · exact (ex_set _ (by decide)).trans <| (ex_set _ (by decide)).trans <| (ex_hi _ _ (by decide)).trans <| (ex_hi _ _ (by decide)).trans <| (ex_hi _ _ (by decide)).trans <| (ex_hi _ _ (by decide)).trans <| ex_lo _ _
  · exact (ex_set _ (by decide)).trans <| (ex_set _ (by decide)).trans <| (ex_hi _ _ (by decide)).trans <| (ex_hi _ _ (by decide)).trans <| (ex_hi _ _ (by decide)).trans <| ex_lo _ _
  · exact (ex_set _ (by decide)).trans <| (ex_set _ (by decide)).trans <| (ex_hi _ _ (by decide)).trans <| (ex_hi _ _ (by decide)).trans <| ex_lo _ _
  · exact (ex_set _ (by decide)).trans <| (ex_set _ (by decide)).trans <| (ex_hi _ _ (by decide)).trans <| ex_lo _ _
  · exact (ex_set _ (by decide)).trans <| (ex_set _ (by decide)).trans <| ex_lo _ _

theorem shlImm (p d a psel imm) : Statement (.shlImm p d a psel imm) := by
  refine raw_shlImm _ _ _ _ _ _ _ (congrArg BitVec.toNat (a₂ := 44#7) ?_) ?_ ?_ ?_ ?_ ?_
  · exact (ex_set _ (by decide)).trans <| (ex_set _ (by decide)).trans <| (ex_hi _ _ (by decide)).trans <| (ex_hi _ _ (by decide)).trans <| (ex_hi _ _ (by decide)).trans <| (ex_hi _ _ (by decide)).trans <| (ex_hi _ _ (by decide)).trans <| ex_all _
  · exact (ex_set _ (by decide)).trans <| (ex_set _ (by decide)).trans <| (ex_hi _ _ (by decide)).trans <| (ex_hi _ _ (by decide)).trans <| (ex_hi _ _ (by decide)).trans <| (ex_hi _ _ (by decide)).trans <| ex_lo _ _
  · exact (ex_set _ (by decide)).trans <| (ex_set _ (by decide)).trans <| (ex_hi _ _ (by decide)).trans <| (ex_hi _ _ (by decide)).trans <| (ex_hi _ _ (by decide)).trans <| ex_lo _ _
  · exact (ex_set _ (by decide)).trans <| (ex_set _ (by decide)).trans <| (ex_hi _ _ (by decide)).trans <| (ex_hi _ _ (by decide)).trans <| ex_lo _ _
  · exact (ex_set _ (by decide)).trans <| (ex_set _ (by decide)).trans <| (ex_hi _ _ (by decide)).trans <| ex_lo _ _
  · exact (ex_set _ (by decide)).trans <| (ex_set _ (by decide)).trans <| ex_lo _ _

theorem shrImm (p d a psel imm) : Statement (.shrImm p d a psel imm) := by
  refine raw_shrImm _ _ _ _ _ _ _ (congrArg BitVec.toNat (a₂ := 45#7) ?_) ?_ ?_ ?_ ?_ ?_
  · exact (ex_set _ (by decide)).trans <| (ex_set _ (by decide)).trans <| (ex_hi _ _ (by decide)).trans <| (ex_hi _ _ (by decide)).trans <| (ex_hi _ _ (by decide)).trans <| (ex_hi _ _ (by decide)).trans <| (ex_hi _ _ (by decide)).trans <| ex_all _
  · exact (ex_set _ (by decide)).trans <| (ex_set _ (by decide)).trans <| (ex_hi _ _ (by decide)).trans <| (ex_hi _ _ (by decide)).trans <| (ex_hi _ _ (by decide)).trans <| (ex_hi _ _ (by decide)).trans <| ex_lo _ _
  · exact (ex_set _ (by decide)).trans <| (ex_set _ (by decide)).trans <| (ex_hi _ _ (by decide)).trans <| (ex_hi _ _ (by decide)).trans <| (ex_hi _ _ (by decide)).trans <| ex_lo _ _
  · exact (ex_set _ (by decide)).trans <| (ex_set _ (by decide)).trans <| (ex_hi _ _ (by decide)).trans <| (ex_hi _ _ (by decide)).trans <| ex_lo _ _
  · exact (ex_set _ (by decide)).trans <| (ex_set _ (by decide)).trans <| (ex_hi _ _ (by decide)).trans <| ex_lo _ _
  · exact (ex_set _ (by decide)).trans <| (ex_set _ (by decide)).trans <| ex_lo _ _

theorem sarImm (p d a psel imm) : Statement (.sarImm p d a psel imm) := by
  refine raw_sarImm _ _ _ _ _ _ _ (congrArg BitVec.toNat (a₂ := 46#7) ?_) ?_ ?_ ?_ ?_ ?_
  · exact (ex_set _ (by decide)).trans <| (ex_set _ (by decide)).trans <| (ex_hi _ _ (by decide)).trans <| (ex_hi _ _ (by decide)).trans <| (ex_hi _ _ (by decide)).trans <| (ex_hi _ _ (by decide)).trans <| (ex_hi _ _ (by decide)).trans <| ex_all _
  · exact (ex_set _ (by decide)).trans <| (ex_set _ (by decide)).trans <| (ex_hi _ _ (by decide)).trans <| (ex_hi _ _ (by decide)).trans <| (ex_hi _ _ (by decide)).trans <| (ex_hi _ _ (by decide)).trans <| ex_lo _ _
  · exact (ex_set _ (by decide)).trans <| (ex_set _ (by decide)).trans <| (ex_hi _ _ (by decide)).trans <| (ex_hi _ _ (by decide)).trans <| (ex_hi _ _ (by decide)).trans <| ex_lo _ _
  · exact (ex_set _ (by decide)).trans <| (ex_set _ (by decide)).trans <| (ex_hi _ _ (by decide)).trans <| (ex_hi _ _ (by decide)).trans <| ex_lo _ _
  · exact (ex_set _ (by decide)).trans <| (ex_set _ (by decide)).trans <| (ex_hi _ _ (by decide)).trans <| ex_lo _ _
  · exact (ex_set _ (by decide)).trans <| (ex_set _ (by decide)).trans <| ex_lo _ _

theorem rotlImm (p d a psel imm) : Statement (.rotlImm p d a psel imm) := by
  refine raw_rotlImm _ _ _ _ _ _ _ (congrArg BitVec.toNat (a₂ := 47#7) ?_) ?_ ?_ ?_ ?_ ?_
  · exact (ex_set _ (by decide)).trans <| (ex_set _ (by decide)).trans <| (ex_hi _ _ (by decide)).trans <| (ex_hi _ _ (by decide)).trans <| (ex_hi _ _ (by decide)).trans <| (ex_hi _ _ (by decide)).trans <| (ex_hi _ _ (by decide)).trans <| ex_all _
  · exact (ex_set _ (by decide)).trans <| (ex_set _ (by decide)).trans <| (ex_hi _ _ (by decide)).trans <| (ex_hi _ _ (by decide)).trans <| (ex_hi _ _ (by decide)).trans <| (ex_hi _ _ (by decide)).trans <| ex_lo _ _
  · exact (ex_set _ (by decide)).trans <| (ex_set _ (by decide)).trans <| (ex_hi _ _ (by decide)).trans <| (ex_hi _ _ (by decide)).trans <| (ex_hi _ _ (by decide)).trans <| ex_lo _ _
  · exact (ex_set _ (by decide)).trans <| (ex_set _ (by decide)).trans <| (ex_hi _ _ (by decide)).trans <| (ex_hi _ _ (by decide)).trans <| ex_lo _ _
  · exact (ex_set _ (by decide)).trans <| (ex_set _ (by decide)).trans <| (ex_hi _ _ (by decide)).trans <| ex_lo _ _
  · exact (ex_set _ (by decide)).trans <| (ex_set _ (by decide)).trans <| ex_lo _ _

theorem minImm (p d a psel imm) : Statement (.minImm p d a psel imm) := by
  refine raw_minImm _ _ _ _ _ _ _ (congrArg BitVec.toNat (a₂ := 48#7) ?_) ?_ ?_ ?_ ?_ ?_
  · exact (ex_set _ (by decide)).trans <| (ex_set _ (by decide)).trans <| (ex_hi _ _ (by decide)).trans <| (ex_hi _ _ (by decide)).trans <| (ex_hi _ _ (by decide)).trans <| (ex_hi _ _ (by decide)).trans <| (ex_hi _ _ (by decide)).trans <| ex_all _
  · exact (ex_set _ (by decide)).trans <| (ex_set _ (by decide)).trans <| (ex_hi _ _ (by decide)).trans <| (ex_hi _ _ (by decide)).trans <| (ex_hi _ _ (by decide)).trans <| (ex_hi _ _ (by decide)).trans <| ex_lo _ _
  · exact (ex_set _ (by decide)).trans <| (ex_set _ (by decide)).trans <| (ex_hi _ _ (by decide)).trans <| (ex_hi _ _ (by decide)).trans <| (ex_hi _ _ (by decide)).trans <| ex_lo _ _
  · exact (ex_set _ (by decide)).trans <| (ex_set _ (by decide)).trans <| (ex_hi _ _ (by decide)).trans <| (ex_hi _ _ (by decide)).trans <| ex_lo _ _
  · exact (ex_set _ (by decide)).trans <| (ex_set _ (by decide)).trans <| (ex_hi _ _ (by decide)).trans <| ex_lo _ _
  · exact (ex_set _ (by decide)).trans <| (ex_set _ (by decide)).trans <| ex_lo _ _

theorem maxImm (p d a psel imm) : Statement (.maxImm p d a psel imm) := by
  refine raw_maxImm _ _ _ _ _ _ _ (congrArg BitVec.toNat (a₂ := 49#7) ?_) ?_ ?_ ?_ ?_ ?_
  · exact (ex_set _ (by decide)).trans <| (ex_set _ (by decide)).trans <| (ex_hi _ _ (by decide)).trans <| (ex_hi _ _ (by decide)).trans <| (ex_hi _ _ (by decide)).trans <| (ex_hi _ _ (by decide)).trans <| (ex_hi _ _ (by decide)).trans <| ex_all _
  · exact (ex_set _ (by decide)).trans <| (ex_set _ (by decide)).trans <| (ex_hi _ _ (by decide)).trans <| (ex_hi _ _ (by decide)).trans <| (ex_hi _ _ (by decide)).trans <| (ex_hi _ _ (by decide)).trans <| ex_lo _ _
  · exact (ex_set _ (by decide)).trans <| (ex_set _ (by decide)).trans <| (ex_hi _ _ (by decide)).trans <| (ex_hi _ _ (by decide)).trans <| (ex_hi _ _ (by decide)).trans <| ex_lo _ _
  · exact (ex_set _ (by decide)).trans <| (ex_set _ (by decide)).trans <| (ex_hi _ _ (by decide)).trans <| (ex_hi _ _ (by decide)).trans <| ex_lo _ _
  · exact (ex_set _ (by decide)).trans <| (ex_set _ (by decide)).trans <| (ex_hi _ _ (by decide)).trans <| ex_lo _ _
  · exact (ex_set _ (by decide)).trans <| (ex_set _ (by decide)).trans <| ex_lo _ _

theorem minsImm (p d a psel imm) : Statement (.minsImm p d a psel imm) := by
  refine raw_minsImm _ _ _ _ _ _ _ (congrArg BitVec.toNat (a₂ := 50#7) ?_) ?_ ?_ ?_ ?_ ?_
  · exact (ex_set _ (by decide)).trans <| (ex_set _ (by decide)).trans <| (ex_hi _ _ (by decide)).trans <| (ex_hi _ _ (by decide)).trans <| (ex_hi _ _ (by decide)).trans <| (ex_hi _ _ (by decide)).trans <| (ex_hi _ _ (by decide)).trans <| ex_all _
  · exact (ex_set _ (by decide)).trans <| (ex_set _ (by decide)).trans <| (ex_hi _ _ (by decide)).trans <| (ex_hi _ _ (by decide)).trans <| (ex_hi _ _ (by decide)).trans <| (ex_hi _ _ (by decide)).trans <| ex_lo _ _
  · exact (ex_set _ (by decide)).trans <| (ex_set _ (by decide)).trans <| (ex_hi _ _ (by decide)).trans <| (ex_hi _ _ (by decide)).trans <| (ex_hi _ _ (by decide)).trans <| ex_lo _ _
  · exact (ex_set _ (by decide)).trans <| (ex_set _ (by decide)).trans <| (ex_hi _ _ (by decide)).trans <| (ex_hi _ _ (by decide)).trans <| ex_lo _ _
  · exact (ex_set _ (by decide)).trans <| (ex_set _ (by decide)).trans <| (ex_hi _ _ (by decide)).trans <| ex_lo _ _
  · exact (ex_set _ (by decide)).trans <| (ex_set _ (by decide)).trans <| ex_lo _ _

theorem maxsImm (p d a psel imm) : Statement (.maxsImm p d a psel imm) := by
  refine raw_maxsImm _ _ _ _ _ _ _ (congrArg BitVec.toNat (a₂ := 51#7) ?_) ?_ ?_ ?_ ?_ ?_
  · exact (ex_set _ (by decide)).trans <| (ex_set _ (by decide)).trans <| (ex_hi _ _ (by decide)).trans <| (ex_hi _ _ (by decide)).trans <| (ex_hi _ _ (by decide)).trans <| (ex_hi _ _ (by decide)).trans <| (ex_hi _ _ (by decide)).trans <| ex_all _
  · exact (ex_set _ (by decide)).trans <| (ex_set _ (by decide)).trans <| (ex_hi _ _ (by decide)).trans <| (ex_hi _ _ (by decide)).trans <| (ex_hi _ _ (by decide)).trans <| (ex_hi _ _ (by decide)).trans <| ex_lo _ _
  · exact (ex_set _ (by decide)).trans <| (ex_set _ (by decide)).trans <| (ex_hi _ _ (by decide)).trans <| (ex_hi _ _ (by decide)).trans <| (ex_hi _ _ (by decide)).trans <| ex_lo _ _
  · exact (ex_set _ (by decide)).trans <| (ex_set _ (by decide)).trans <| (ex_hi _ _ (by decide)).trans <| (ex_hi _ _ (by decide)).trans <| ex_lo _ _
  · exact (ex_set _ (by decide)).trans <| (ex_set _ (by decide)).trans <| (ex_hi _ _ (by decide)).trans <| ex_lo _ _
  · exact (ex_set _ (by decide)).trans <| (ex_set _ (by decide)).trans <| ex_lo _ _

theorem cmpeq (p pd a b) : Statement (.cmpeq p pd a b) := by
  refine raw_cmpeq _ _ _ _ _ _ (congrArg BitVec.toNat (a₂ := 64#7) ?_) ?_ ?_ ?_ ?_
  · exact (ex_set _ (by decide)).trans <| (ex_set _ (by decide)).trans <| (ex_hi _ _ (by decide)).trans <| (ex_hi _ _ (by decide)).trans <| (ex_hi _ _ (by decide)).trans <| (ex_hi _ _ (by decide)).trans <| (ex_hi _ _ (by decide)).trans <| (ex_hi _ _ (by decide)).trans <| ex_all _
  · exact (ex_set _ (by decide)).trans <| (ex_set _ (by decide)).trans <| (ex_hi _ _ (by decide)).trans <| (ex_hi _ _ (by decide)).trans <| (ex_hi _ _ (by decide)).trans <| (ex_hi _ _ (by decide)).trans <| (ex_hi _ _ (by decide)).trans <| ex_lo _ _
  · exact (ex_set _ (by decide)).trans <| (ex_set _ (by decide)).trans <| (ex_hi _ _ (by decide)).trans <| (ex_hi _ _ (by decide)).trans <| (ex_hi _ _ (by decide)).trans <| (ex_hi _ _ (by decide)).trans <| ex_lo _ _
  · exact (ex_set _ (by decide)).trans <| (ex_set _ (by decide)).trans <| (ex_hi _ _ (by decide)).trans <| (ex_hi _ _ (by decide)).trans <| ex_lo _ _
  · exact (ex_set _ (by decide)).trans <| (ex_set _ (by decide)).trans <| (ex_hi _ _ (by decide)).trans <| ex_lo _ _

theorem cmpne (p pd a b) : Statement (.cmpne p pd a b) := by
  refine raw_cmpne _ _ _ _ _ _ (congrArg BitVec.toNat (a₂ := 65#7) ?_) ?_ ?_ ?_ ?_
  · exact (ex_set _ (by decide)).trans <| (ex_set _ (by decide)).trans <| (ex_hi _ _ (by decide)).trans <| (ex_hi _ _ (by decide)).trans <| (ex_hi _ _ (by decide)).trans <| (ex_hi _ _ (by decide)).trans <| (ex_hi _ _ (by decide)).trans <| (ex_hi _ _ (by decide)).trans <| ex_all _
  · exact (ex_set _ (by decide)).trans <| (ex_set _ (by decide)).trans <| (ex_hi _ _ (by decide)).trans <| (ex_hi _ _ (by decide)).trans <| (ex_hi _ _ (by decide)).trans <| (ex_hi _ _ (by decide)).trans <| (ex_hi _ _ (by decide)).trans <| ex_lo _ _
  · exact (ex_set _ (by decide)).trans <| (ex_set _ (by decide)).trans <| (ex_hi _ _ (by decide)).trans <| (ex_hi _ _ (by decide)).trans <| (ex_hi _ _ (by decide)).trans <| (ex_hi _ _ (by decide)).trans <| ex_lo _ _
  · exact (ex_set _ (by decide)).trans <| (ex_set _ (by decide)).trans <| (ex_hi _ _ (by decide)).trans <| (ex_hi _ _ (by decide)).trans <| ex_lo _ _
  · exact (ex_set _ (by decide)).trans <| (ex_set _ (by decide)).trans <| (ex_hi _ _ (by decide)).trans <| ex_lo _ _

theorem cmplt (p pd a b) : Statement (.cmplt p pd a b) := by
  refine raw_cmplt _ _ _ _ _ _ (congrArg BitVec.toNat (a₂ := 66#7) ?_) ?_ ?_ ?_ ?_
  · exact (ex_set _ (by decide)).trans <| (ex_set _ (by decide)).trans <| (ex_hi _ _ (by decide)).trans <| (ex_hi _ _ (by decide)).trans <| (ex_hi _ _ (by decide)).trans <| (ex_hi _ _ (by decide)).trans <| (ex_hi _ _ (by decide)).trans <| (ex_hi _ _ (by decide)).trans <| ex_all _
  · exact (ex_set _ (by decide)).trans <| (ex_set _ (by decide)).trans <| (ex_hi _ _ (by decide)).trans <| (ex_hi _ _ (by decide)).trans <| (ex_hi _ _ (by decide)).trans <| (ex_hi _ _ (by decide)).trans <| (ex_hi _ _ (by decide)).trans <| ex_lo _ _
  · exact (ex_set _ (by decide)).trans <| (ex_set _ (by decide)).trans <| (ex_hi _ _ (by decide)).trans <| (ex_hi _ _ (by decide)).trans <| (ex_hi _ _ (by decide)).trans <| (ex_hi _ _ (by decide)).trans <| ex_lo _ _
  · exact (ex_set _ (by decide)).trans <| (ex_set _ (by decide)).trans <| (ex_hi _ _ (by decide)).trans <| (ex_hi _ _ (by decide)).trans <| ex_lo _ _
  · exact (ex_set _ (by decide)).trans <| (ex_set _ (by decide)).trans <| (ex_hi _ _ (by decide)).trans <| ex_lo _ _

theorem cmplts (p pd a b) : Statement (.cmplts p pd a b) := by
  refine raw_cmplts _ _ _ _ _ _ (congrArg BitVec.toNat (a₂ := 67#7) ?_) ?_ ?_ ?_ ?_
  · exact (ex_set _ (by decide)).trans <| (ex_set _ (by decide)).trans <| (ex_hi _ _ (by decide)).trans <| (ex_hi _ _ (by decide)).trans <| (ex_hi _ _ (by decide)).trans <| (ex_hi _ _ (by decide)).trans <| (ex_hi _ _ (by decide)).trans <| (ex_hi _ _ (by decide)).trans <| ex_all _
  · exact (ex_set _ (by decide)).trans <| (ex_set _ (by decide)).trans <| (ex_hi _ _ (by decide)).trans <| (ex_hi _ _ (by decide)).trans <| (ex_hi _ _ (by decide)).trans <| (ex_hi _ _ (by decide)).trans <| (ex_hi _ _ (by decide)).trans <| ex_lo _ _
  · exact (ex_set _ (by decide)).trans <| (ex_set _ (by decide)).trans <| (ex_hi _ _ (by decide)).trans <| (ex_hi _ _ (by decide)).trans <| (ex_hi _ _ (by decide)).trans <| (ex_hi _ _ (by decide)).trans <| ex_lo _ _
  · exact (ex_set _ (by decide)).trans <| (ex_set _ (by decide)).trans <| (ex_hi _ _ (by decide)).trans <| (ex_hi _ _ (by decide)).trans <| ex_lo _ _
  · exact (ex_set _ (by decide)).trans <| (ex_set _ (by decide)).trans <| (ex_hi _ _ (by decide)).trans <| ex_lo _ _

theorem cmple (p pd a b) : Statement (.cmple p pd a b) := by
  refine raw_cmple _ _ _ _ _ _ (congrArg BitVec.toNat (a₂ := 68#7) ?_) ?_ ?_ ?_ ?_
  · exact (ex_set _ (by decide)).trans <| (ex_set _ (by decide)).trans <| (ex_hi _ _ (by decide)).trans <| (ex_hi _ _ (by decide)).trans <| (ex_hi _ _ (by decide)).trans <| (ex_hi _ _ (by decide)).trans <| (ex_hi _ _ (by decide)).trans <| (ex_hi _ _ (by decide)).trans <| ex_all _
  · exact (ex_set _ (by decide)).trans <| (ex_set _ (by decide)).trans <| (ex_hi _ _ (by decide)).trans <| (ex_hi _ _ (by decide)).trans <| (ex_hi _ _ (by decide)).trans <| (ex_hi _ _ (by decide)).trans <| (ex_hi _ _ (by decide)).trans <| ex_lo _ _
  · exact (ex_set _ (by decide)).trans <| (ex_set _ (by decide)).trans <| (ex_hi _ _ (by decide)).trans <| (ex_hi _ _ (by decide)).trans <| (ex_hi _ _ (by decide)).trans <| (ex_hi _ _ (by decide)).trans <| ex_lo _ _
  · exact (ex_set _ (by decide)).trans <| (ex_set _ (by decide)).trans <| (ex_hi _ _ (by decide)).trans <| (ex_hi _ _ (by decide)).trans <| ex_lo _ _
  · exact (ex_set _ (by decide)).trans <| (ex_set _ (by decide)).trans <| (ex_hi _ _ (by decide)).trans <| ex_lo _ _

theorem cmples (p pd a b) : Statement (.cmples p pd a b) := by
  refine raw_cmples _ _ _ _ _ _ (congrArg BitVec.toNat (a₂ := 69#7) ?_) ?_ ?_ ?_ ?_
  · exact (ex_set _ (by decide)).trans <| (ex_set _ (by decide)).trans <| (ex_hi _ _ (by decide)).trans <| (ex_hi _ _ (by decide)).trans <| (ex_hi _ _ (by decide)).trans <| (ex_hi _ _ (by decide)).trans <| (ex_hi _ _ (by decide)).trans <| (ex_hi _ _ (by decide)).trans <| ex_all _
  · exact (ex_set _ (by decide)).trans <| (ex_set _ (by decide)).trans <| (ex_hi _ _ (by decide)).trans <| (ex_hi _ _ (by decide)).trans <| (ex_hi _ _ (by decide)).trans <| (ex_hi _ _ (by decide)).trans <| (ex_hi _ _ (by decide)).trans <| ex_lo _ _
  · exact (ex_set _ (by decide)).trans <| (ex_set _ (by decide)).trans <| (ex_hi _ _ (by decide)).trans <| (ex_hi _ _ (by decide)).trans <| (ex_hi _ _ (by decide)).trans <| (ex_hi _ _ (by decide)).trans <| ex_lo _ _
  · exact (ex_set _ (by decide)).trans <| (ex_set _ (by decide)).trans <| (ex_hi _ _ (by decide)).trans <| (ex_hi _ _ (by decide)).trans <| ex_lo _ _
  · exact (ex_set _ (by decide)).trans <| (ex_set _ (by decide)).trans <| (ex_hi _ _ (by decide)).trans <| ex_lo _ _

theorem cmpeqImm (p pd a psel imm) : Statement (.cmpeqImm p pd a psel imm) := by
  refine raw_cmpeqImm _ _ _ _ _ _ _ (congrArg BitVec.toNat (a₂ := 72#7) ?_) ?_ ?_ ?_ ?_ ?_
  · exact (ex_set _ (by decide)).trans <| (ex_set _ (by decide)).trans <| (ex_hi _ _ (by decide)).trans <| (ex_hi _ _ (by decide)).trans <| (ex_hi _ _ (by decide)).trans <| (ex_hi _ _ (by decide)).trans <| (ex_hi _ _ (by decide)).trans <| (ex_hi _ _ (by decide)).trans <| ex_all _
  · exact (ex_set _ (by decide)).trans <| (ex_set _ (by decide)).trans <| (ex_hi _ _ (by decide)).trans <| (ex_hi _ _ (by decide)).trans <| (ex_hi _ _ (by decide)).trans <| (ex_hi _ _ (by decide)).trans <| (ex_hi _ _ (by decide)).trans <| ex_lo _ _
  · exact (ex_set _ (by decide)).trans <| (ex_set _ (by decide)).trans <| (ex_hi _ _ (by decide)).trans <| (ex_hi _ _ (by decide)).trans <| (ex_hi _ _ (by decide)).trans <| (ex_hi _ _ (by decide)).trans <| ex_lo _ _
  · exact (ex_set _ (by decide)).trans <| (ex_set _ (by decide)).trans <| (ex_hi _ _ (by decide)).trans <| (ex_hi _ _ (by decide)).trans <| ex_lo _ _
  · exact (ex_set _ (by decide)).trans <| (ex_set _ (by decide)).trans <| (ex_hi _ _ (by decide)).trans <| ex_lo _ _
  · exact (ex_set _ (by decide)).trans <| (ex_set _ (by decide)).trans <| ex_lo _ _

theorem cmpneImm (p pd a psel imm) : Statement (.cmpneImm p pd a psel imm) := by
  refine raw_cmpneImm _ _ _ _ _ _ _ (congrArg BitVec.toNat (a₂ := 73#7) ?_) ?_ ?_ ?_ ?_ ?_
  · exact (ex_set _ (by decide)).trans <| (ex_set _ (by decide)).trans <| (ex_hi _ _ (by decide)).trans <| (ex_hi _ _ (by decide)).trans <| (ex_hi _ _ (by decide)).trans <| (ex_hi _ _ (by decide)).trans <| (ex_hi _ _ (by decide)).trans <| (ex_hi _ _ (by decide)).trans <| ex_all _
  · exact (ex_set _ (by decide)).trans <| (ex_set _ (by decide)).trans <| (ex_hi _ _ (by decide)).trans <| (ex_hi _ _ (by decide)).trans <| (ex_hi _ _ (by decide)).trans <| (ex_hi _ _ (by decide)).trans <| (ex_hi _ _ (by decide)).trans <| ex_lo _ _
  · exact (ex_set _ (by decide)).trans <| (ex_set _ (by decide)).trans <| (ex_hi _ _ (by decide)).trans <| (ex_hi _ _ (by decide)).trans <| (ex_hi _ _ (by decide)).trans <| (ex_hi _ _ (by decide)).trans <| ex_lo _ _
  · exact (ex_set _ (by decide)).trans <| (ex_set _ (by decide)).trans <| (ex_hi _ _ (by decide)).trans <| (ex_hi _ _ (by decide)).trans <| ex_lo _ _
  · exact (ex_set _ (by decide)).trans <| (ex_set _ (by decide)).trans <| (ex_hi _ _ (by decide)).trans <| ex_lo _ _
  · exact (ex_set _ (by decide)).trans <| (ex_set _ (by decide)).trans <| ex_lo _ _

theorem cmpltImm (p pd a psel imm) : Statement (.cmpltImm p pd a psel imm) := by
  refine raw_cmpltImm _ _ _ _ _ _ _ (congrArg BitVec.toNat (a₂ := 74#7) ?_) ?_ ?_ ?_ ?_ ?_
  · exact (ex_set _ (by decide)).trans <| (ex_set _ (by decide)).trans <| (ex_hi _ _ (by decide)).trans <| (ex_hi _ _ (by decide)).trans <| (ex_hi _ _ (by decide)).trans <| (ex_hi _ _ (by decide)).trans <| (ex_hi _ _ (by decide)).trans <| (ex_hi _ _ (by decide)).trans <| ex_all _
  · exact (ex_set _ (by decide)).trans <| (ex_set _ (by decide)).trans <| (ex_hi _ _ (by decide)).trans <| (ex_hi _ _ (by decide)).trans <| (ex_hi _ _ (by decide)).trans <| (ex_hi _ _ (by decide)).trans <| (ex_hi _ _ (by decide)).trans <| ex_lo _ _
  · exact (ex_set _ (by decide)).trans <| (ex_set _ (by decide)).trans <| (ex_hi _ _ (by decide)).trans <| (ex_hi _ _ (by decide)).trans <| (ex_hi _ _ (by decide)).trans <| (ex_hi _ _ (by decide)).trans <| ex_lo _ _
  · exact (ex_set _ (by decide)).trans <| (ex_set _ (by decide)).trans <| (ex_hi _ _ (by decide)).trans <| (ex_hi _ _ (by decide)).trans <| ex_lo _ _
  · exact (ex_set _ (by decide)).trans <| (ex_set _ (by decide)).trans <| (ex_hi _ _ (by decide)).trans <| ex_lo _ _
  · exact (ex_set _ (by decide)).trans <| (ex_set _ (by decide)).trans <| ex_lo _ _

theorem cmpltsImm (p pd a psel imm) : Statement (.cmpltsImm p pd a psel imm) := by
  refine raw_cmpltsImm _ _ _ _ _ _ _ (congrArg BitVec.toNat (a₂ := 75#7) ?_) ?_ ?_ ?_ ?_ ?_
  · exact (ex_set _ (by decide)).trans <| (ex_set _ (by decide)).trans <| (ex_hi _ _ (by decide)).trans <| (ex_hi _ _ (by decide)).trans <| (ex_hi _ _ (by decide)).trans <| (ex_hi _ _ (by decide)).trans <| (ex_hi _ _ (by decide)).trans <| (ex_hi _ _ (by decide)).trans <| ex_all _
  · exact (ex_set _ (by decide)).trans <| (ex_set _ (by decide)).trans <| (ex_hi _ _ (by decide)).trans <| (ex_hi _ _ (by decide)).trans <| (ex_hi _ _ (by decide)).trans <| (ex_hi _ _ (by decide)).trans <| (ex_hi _ _ (by decide)).trans <| ex_lo _ _
  · exact (ex_set _ (by decide)).trans <| (ex_set _ (by decide)).trans <| (ex_hi _ _ (by decide)).trans <| (ex_hi _ _ (by decide)).trans <| (ex_hi _ _ (by decide)).trans <| (ex_hi _ _ (by decide)).trans <| ex_lo _ _
  · exact (ex_set _ (by decide)).trans <| (ex_set _ (by decide)).trans <| (ex_hi _ _ (by decide)).trans <| (ex_hi _ _ (by decide)).trans <| ex_lo _ _
  · exact (ex_set _ (by decide)).trans <| (ex_set _ (by decide)).trans <| (ex_hi _ _ (by decide)).trans <| ex_lo _ _
  · exact (ex_set _ (by decide)).trans <| (ex_set _ (by decide)).trans <| ex_lo _ _

theorem cmpleImm (p pd a psel imm) : Statement (.cmpleImm p pd a psel imm) := by
  refine raw_cmpleImm _ _ _ _ _ _ _ (congrArg BitVec.toNat (a₂ := 76#7) ?_) ?_ ?_ ?_ ?_ ?_
  · exact (ex_set _ (by decide)).trans <| (ex_set _ (by decide)).trans <| (ex_hi _ _ (by decide)).trans <| (ex_hi _ _ (by decide)).trans <| (ex_hi _ _ (by decide)).trans <| (ex_hi _ _ (by decide)).trans <| (ex_hi _ _ (by decide)).trans <| (ex_hi _ _ (by decide)).trans <| ex_all _
  · exact (ex_set _ (by decide)).trans <| (ex_set _ (by decide)).trans <| (ex_hi _ _ (by decide)).trans <| (ex_hi _ _ (by decide)).trans <| (ex_hi _ _ (by decide)).trans <| (ex_hi _ _ (by decide)).trans <| (ex_hi _ _ (by decide)).trans <| ex_lo _ _
  · exact (ex_set _ (by decide)).trans <| (ex_set _ (by decide)).trans <| (ex_hi _ _ (by decide)).trans <| (ex_hi _ _ (by decide)).trans <| (ex_hi _ _ (by decide)).trans <| (ex_hi _ _ (by decide)).trans <| ex_lo _ _
  · exact (ex_set _ (by decide)).trans <| (ex_set _ (by decide)).trans <| (ex_hi _ _ (by decide)).trans <| (ex_hi _ _ (by decide)).trans <| ex_lo _ _
  · exact (ex_set _ (by decide)).trans <| (ex_set _ (by decide)).trans <| (ex_hi _ _ (by decide)).trans <| ex_lo _ _
  · exact (ex_set _ (by decide)).trans <| (ex_set _ (by decide)).trans <| ex_lo _ _

theorem cmplesImm (p pd a psel imm) : Statement (.cmplesImm p pd a psel imm) := by
  refine raw_cmplesImm _ _ _ _ _ _ _ (congrArg BitVec.toNat (a₂ := 77#7) ?_) ?_ ?_ ?_ ?_ ?_
  · exact (ex_set _ (by decide)).trans <| (ex_set _ (by decide)).trans <| (ex_hi _ _ (by decide)).trans <| (ex_hi _ _ (by decide)).trans <| (ex_hi _ _ (by decide)).trans <| (ex_hi _ _ (by decide)).trans <| (ex_hi _ _ (by decide)).trans <| (ex_hi _ _ (by decide)).trans <| ex_all _
  · exact (ex_set _ (by decide)).trans <| (ex_set _ (by decide)).trans <| (ex_hi _ _ (by decide)).trans <| (ex_hi _ _ (by decide)).trans <| (ex_hi _ _ (by decide)).trans <| (ex_hi _ _ (by decide)).trans <| (ex_hi _ _ (by decide)).trans <| ex_lo _ _
  · exact (ex_set _ (by decide)).trans <| (ex_set _ (by decide)).trans <| (ex_hi _ _ (by decide)).trans <| (ex_hi _ _ (by decide)).trans <| (ex_hi _ _ (by decide)).trans <| (ex_hi _ _ (by decide)).trans <| ex_lo _ _
  · exact (ex_set _ (by decide)).trans <| (ex_set _ (by decide)).trans <| (ex_hi _ _ (by decide)).trans <| (ex_hi _ _ (by decide)).trans <| ex_lo _ _
  · exact (ex_set _ (by decide)).trans <| (ex_set _ (by decide)).trans <| (ex_hi _ _ (by decide)).trans <| ex_lo _ _
  · exact (ex_set _ (by decide)).trans <| (ex_set _ (by decide)).trans <| ex_lo _ _

theorem li (p d psel imm) : Statement (.li p d psel imm) := by
  refine raw_li _ _ _ _ _ _ (congrArg BitVec.toNat (a₂ := 80#7) ?_) ?_ ?_ ?_ ?_
  · exact (ex_set _ (by decide)).trans <| (ex_set _ (by decide)).trans <| (ex_hi _ _ (by decide)).trans <| (ex_hi _ _ (by decide)).trans <| (ex_hi _ _ (by decide)).trans <| (ex_hi _ _ (by decide)).trans <| ex_all _
  · exact (ex_set _ (by decide)).trans <| (ex_set _ (by decide)).trans <| (ex_hi _ _ (by decide)).trans <| (ex_hi _ _ (by decide)).trans <| (ex_hi _ _ (by decide)).trans <| ex_lo _ _
  · exact (ex_set _ (by decide)).trans <| (ex_set _ (by decide)).trans <| (ex_hi _ _ (by decide)).trans <| (ex_hi _ _ (by decide)).trans <| ex_lo _ _
  · exact (ex_set _ (by decide)).trans <| (ex_set _ (by decide)).trans <| (ex_hi _ _ (by decide)).trans <| ex_lo _ _
  · exact (ex_set _ (by decide)).trans <| (ex_set _ (by decide)).trans <| ex_lo _ _

theorem liLong (p d imm) : Statement (.liLong p d imm) := by
  refine raw_liLong _ _ _ _ _ (congrArg BitVec.toNat (a₂ := 81#7) ?_) ?_ ?_ ?_
  · exact (ex_set _ (by decide)).trans <| (ex_set _ (by decide)).trans <| (ex_hi _ _ (by decide)).trans <| (ex_hi _ _ (by decide)).trans <| (ex_hi _ _ (by decide)).trans <| ex_all _
  · exact (ex_set _ (by decide)).trans <| (ex_set _ (by decide)).trans <| (ex_hi _ _ (by decide)).trans <| (ex_hi _ _ (by decide)).trans <| ex_lo _ _
  · exact (ex_set _ (by decide)).trans <| (ex_set _ (by decide)).trans <| (ex_hi _ _ (by decide)).trans <| ex_lo _ _
  · exact (congr (congrArg HAppend.hAppend (ex_lo _ _)) ((ex_set _ (by decide)).trans <| (ex_set _ (by decide)).trans <| ex_lo _ _)).trans (ex_join _)

theorem pset (p pd a) : Statement (.pset p pd a) := by
  refine raw_pset _ _ _ _ _ (congrArg BitVec.toNat (a₂ := 84#7) ?_) ?_ ?_ ?_
  · exact (ex_set _ (by decide)).trans <| (ex_set _ (by decide)).trans <| (ex_hi _ _ (by decide)).trans <| (ex_hi _ _ (by decide)).trans <| (ex_hi _ _ (by decide)).trans <| (ex_hi _ _ (by decide)).trans <| (ex_hi _ _ (by decide)).trans <| ex_all _
  · exact (ex_set _ (by decide)).trans <| (ex_set _ (by decide)).trans <| (ex_hi _ _ (by decide)).trans <| (ex_hi _ _ (by decide)).trans <| (ex_hi _ _ (by decide)).trans <| (ex_hi _ _ (by decide)).trans <| ex_lo _ _
  · exact (ex_set _ (by decide)).trans <| (ex_set _ (by decide)).trans <| (ex_hi _ _ (by decide)).trans <| (ex_hi _ _ (by decide)).trans <| (ex_hi _ _ (by decide)).trans <| ex_lo _ _
  · exact (ex_set _ (by decide)).trans <| (ex_set _ (by decide)).trans <| (ex_hi _ _ (by decide)).trans <| ex_lo _ _

theorem pand (p pd pa pb inva invb) : Statement (.pand p pd pa pb inva invb) := by
  refine raw_pand _ _ _ _ _ _ _ _ (congrArg BitVec.toNat (a₂ := 85#7) ?_) ?_ ?_ ?_ ?_ ?_ ?_
  · exact (ex_set _ (by decide)).trans <| (ex_set _ (by decide)).trans <| (ex_hi _ _ (by decide)).trans <| (ex_hi _ _ (by decide)).trans <| (ex_hi _ _ (by decide)).trans <| (ex_hi _ _ (by decide)).trans <| (ex_hi _ _ (by decide)).trans <| (ex_hi _ _ (by decide)).trans <| (ex_hi _ _ (by decide)).trans <| ex_all _
  · exact (ex_set _ (by decide)).trans <| (ex_set _ (by decide)).trans <| (ex_hi _ _ (by decide)).trans <| (ex_hi _ _ (by decide)).trans <| (ex_hi _ _ (by decide)).trans <| (ex_hi _ _ (by decide)).trans <| (ex_hi _ _ (by decide)).trans <| (ex_hi _ _ (by decide)).trans <| ex_lo _ _
  · exact (ex_set _ (by decide)).trans <| (ex_set _ (by decide)).trans <| (ex_hi _ _ (by decide)).trans <| (ex_hi _ _ (by decide)).trans <| (ex_hi _ _ (by decide)).trans <| (ex_hi _ _ (by decide)).trans <| (ex_hi _ _ (by decide)).trans <| ex_lo _ _
  · exact (ex_set _ (by decide)).trans <| (ex_set _ (by decide)).trans <| (ex_hi _ _ (by decide)).trans <| (ex_hi _ _ (by decide)).trans <| (ex_hi _ _ (by decide)).trans <| (ex_hi _ _ (by decide)).trans <| ex_lo _ _
  · exact (ex_set _ (by decide)).trans <| (ex_set _ (by decide)).trans <| (ex_hi _ _ (by decide)).trans <| (ex_hi _ _ (by decide)).trans <| (ex_hi _ _ (by decide)).trans <| ex_lo _ _
  · exact (ex_set _ (by decide)).trans <| (ex_set _ (by decide)).trans <| (ex_hi _ _ (by decide)).trans <| (ex_hi _ _ (by decide)).trans <| ex_lo _ _
  · exact (ex_set _ (by decide)).trans <| (ex_set _ (by decide)).trans <| (ex_hi _ _ (by decide)).trans <| ex_lo _ _

theorem por (p pd pa pb inva invb) : Statement (.por p pd pa pb inva invb) := by
  refine raw_por _ _ _ _ _ _ _ _ (congrArg BitVec.toNat (a₂ := 86#7) ?_) ?_ ?_ ?_ ?_ ?_ ?_
  · exact (ex_set _ (by decide)).trans <| (ex_set _ (by decide)).trans <| (ex_hi _ _ (by decide)).trans <| (ex_hi _ _ (by decide)).trans <| (ex_hi _ _ (by decide)).trans <| (ex_hi _ _ (by decide)).trans <| (ex_hi _ _ (by decide)).trans <| (ex_hi _ _ (by decide)).trans <| (ex_hi _ _ (by decide)).trans <| ex_all _
  · exact (ex_set _ (by decide)).trans <| (ex_set _ (by decide)).trans <| (ex_hi _ _ (by decide)).trans <| (ex_hi _ _ (by decide)).trans <| (ex_hi _ _ (by decide)).trans <| (ex_hi _ _ (by decide)).trans <| (ex_hi _ _ (by decide)).trans <| (ex_hi _ _ (by decide)).trans <| ex_lo _ _
  · exact (ex_set _ (by decide)).trans <| (ex_set _ (by decide)).trans <| (ex_hi _ _ (by decide)).trans <| (ex_hi _ _ (by decide)).trans <| (ex_hi _ _ (by decide)).trans <| (ex_hi _ _ (by decide)).trans <| (ex_hi _ _ (by decide)).trans <| ex_lo _ _
  · exact (ex_set _ (by decide)).trans <| (ex_set _ (by decide)).trans <| (ex_hi _ _ (by decide)).trans <| (ex_hi _ _ (by decide)).trans <| (ex_hi _ _ (by decide)).trans <| (ex_hi _ _ (by decide)).trans <| ex_lo _ _
  · exact (ex_set _ (by decide)).trans <| (ex_set _ (by decide)).trans <| (ex_hi _ _ (by decide)).trans <| (ex_hi _ _ (by decide)).trans <| (ex_hi _ _ (by decide)).trans <| ex_lo _ _
  · exact (ex_set _ (by decide)).trans <| (ex_set _ (by decide)).trans <| (ex_hi _ _ (by decide)).trans <| (ex_hi _ _ (by decide)).trans <| ex_lo _ _
  · exact (ex_set _ (by decide)).trans <| (ex_set _ (by decide)).trans <| (ex_hi _ _ (by decide)).trans <| ex_lo _ _

theorem pxor (p pd pa pb inva invb) : Statement (.pxor p pd pa pb inva invb) := by
  refine raw_pxor _ _ _ _ _ _ _ _ (congrArg BitVec.toNat (a₂ := 87#7) ?_) ?_ ?_ ?_ ?_ ?_ ?_
  · exact (ex_set _ (by decide)).trans <| (ex_set _ (by decide)).trans <| (ex_hi _ _ (by decide)).trans <| (ex_hi _ _ (by decide)).trans <| (ex_hi _ _ (by decide)).trans <| (ex_hi _ _ (by decide)).trans <| (ex_hi _ _ (by decide)).trans <| (ex_hi _ _ (by decide)).trans <| (ex_hi _ _ (by decide)).trans <| ex_all _
  · exact (ex_set _ (by decide)).trans <| (ex_set _ (by decide)).trans <| (ex_hi _ _ (by decide)).trans <| (ex_hi _ _ (by decide)).trans <| (ex_hi _ _ (by decide)).trans <| (ex_hi _ _ (by decide)).trans <| (ex_hi _ _ (by decide)).trans <| (ex_hi _ _ (by decide)).trans <| ex_lo _ _
  · exact (ex_set _ (by decide)).trans <| (ex_set _ (by decide)).trans <| (ex_hi _ _ (by decide)).trans <| (ex_hi _ _ (by decide)).trans <| (ex_hi _ _ (by decide)).trans <| (ex_hi _ _ (by decide)).trans <| (ex_hi _ _ (by decide)).trans <| ex_lo _ _
  · exact (ex_set _ (by decide)).trans <| (ex_set _ (by decide)).trans <| (ex_hi _ _ (by decide)).trans <| (ex_hi _ _ (by decide)).trans <| (ex_hi _ _ (by decide)).trans <| (ex_hi _ _ (by decide)).trans <| ex_lo _ _
  · exact (ex_set _ (by decide)).trans <| (ex_set _ (by decide)).trans <| (ex_hi _ _ (by decide)).trans <| (ex_hi _ _ (by decide)).trans <| (ex_hi _ _ (by decide)).trans <| ex_lo _ _
  · exact (ex_set _ (by decide)).trans <| (ex_set _ (by decide)).trans <| (ex_hi _ _ (by decide)).trans <| (ex_hi _ _ (by decide)).trans <| ex_lo _ _
  · exact (ex_set _ (by decide)).trans <| (ex_set _ (by decide)).trans <| (ex_hi _ _ (by decide)).trans <| ex_lo _ _

theorem pnot (p pd pa) : Statement (.pnot p pd pa) := by
  refine raw_pnot _ _ _ _ _ (congrArg BitVec.toNat (a₂ := 88#7) ?_) ?_ ?_ ?_
  · exact (ex_set _ (by decide)).trans <| (ex_set _ (by decide)).trans <| (ex_hi _ _ (by decide)).trans <| (ex_hi _ _ (by decide)).trans <| (ex_hi _ _ (by decide)).trans <| (ex_hi _ _ (by decide)).trans <| ex_all _
  · exact (ex_set _ (by decide)).trans <| (ex_set _ (by decide)).trans <| (ex_hi _ _ (by decide)).trans <| (ex_hi _ _ (by decide)).trans <| (ex_hi _ _ (by decide)).trans <| ex_lo _ _
  · exact (ex_set _ (by decide)).trans <| (ex_set _ (by decide)).trans <| (ex_hi _ _ (by decide)).trans <| (ex_hi _ _ (by decide)).trans <| ex_lo _ _
  · exact (ex_set _ (by decide)).trans <| (ex_set _ (by decide)).trans <| (ex_hi _ _ (by decide)).trans <| ex_lo _ _

theorem br (p target) : Statement (.br p target) := by
  refine raw_br _ _ _ _ (congrArg BitVec.toNat (a₂ := 96#7) ?_) ?_ ?_
  · exact (ex_set _ (by decide)).trans <| (ex_set _ (by decide)).trans <| (ex_hi _ _ (by decide)).trans <| (ex_hi _ _ (by decide)).trans <| (ex_hi _ _ (by decide)).trans <| ex_all _
  · exact (ex_set _ (by decide)).trans <| (ex_set _ (by decide)).trans <| (ex_hi _ _ (by decide)).trans <| (ex_hi _ _ (by decide)).trans <| ex_lo _ _
  · exact (ex_set _ (by decide)).trans <| (ex_set _ (by decide)).trans <| ex_lo _ _

theorem brScalar (p a) : Statement (.brScalar p a) := by
  refine raw_brScalar _ _ _ _ (congrArg BitVec.toNat (a₂ := 97#7) ?_) ?_ ?_
  · exact (ex_set _ (by decide)).trans <| (ex_set _ (by decide)).trans <| (ex_hi _ _ (by decide)).trans <| (ex_hi _ _ (by decide)).trans <| (ex_hi _ _ (by decide)).trans <| (ex_hi _ _ (by decide)).trans <| ex_all _
  · exact (ex_set _ (by decide)).trans <| (ex_set _ (by decide)).trans <| (ex_hi _ _ (by decide)).trans <| (ex_hi _ _ (by decide)).trans <| (ex_hi _ _ (by decide)).trans <| ex_lo _ _
  · exact (ex_set _ (by decide)).trans <| (ex_set _ (by decide)).trans <| (ex_hi _ _ (by decide)).trans <| ex_lo _ _

theorem bc (p a b cond target) : Statement (.bc p a b cond target) := by
  refine raw_bc _ _ _ _ _ _ _ (congrArg BitVec.toNat (a₂ := 98#7) ?_) ?_ ?_ ?_ ?_ ?_
  · exact (ex_set _ (by decide)).trans <| (ex_set _ (by decide)).trans <| (ex_hi _ _ (by decide)).trans <| (ex_hi _ _ (by decide)).trans <| (ex_hi _ _ (by decide)).trans <| (ex_hi _ _ (by decide)).trans <| (ex_hi _ _ (by decide)).trans <| (ex_hi _ _ (by decide)).trans <| (ex_hi _ _ (by decide)).trans <| ex_all _
  · exact (ex_set _ (by decide)).trans <| (ex_set _ (by decide)).trans <| (ex_hi _ _ (by decide)).trans <| (ex_hi _ _ (by decide)).trans <| (ex_hi _ _ (by decide)).trans <| (ex_hi _ _ (by decide)).trans <| (ex_hi _ _ (by decide)).trans <| (ex_hi _ _ (by decide)).trans <| ex_lo _ _
  · exact (ex_set _ (by decide)).trans <| (ex_set _ (by decide)).trans <| (ex_hi _ _ (by decide)).trans <| (ex_hi _ _ (by decide)).trans <| (ex_hi _ _ (by decide)).trans <| (ex_hi _ _ (by decide)).trans <| ex_lo _ _
  · exact (ex_set _ (by decide)).trans <| (ex_set _ (by decide)).trans <| (ex_hi _ _ (by decide)).trans <| (ex_hi _ _ (by decide)).trans <| (ex_hi _ _ (by decide)).trans <| ex_lo _ _
  · exact (ex_set _ (by decide)).trans <| (ex_set _ (by decide)).trans <| (ex_hi _ _ (by decide)).trans <| (ex_hi _ _ (by decide)).trans <| ex_lo _ _
  · exact (ex_set _ (by decide)).trans <| (ex_set _ (by decide)).trans <| ex_lo _ _

theorem call (p d target) : Statement (.call p d target) := by
  refine raw_call _ _ _ _ _ (congrArg BitVec.toNat (a₂ := 99#7) ?_) ?_ ?_ ?_
  · exact (ex_set _ (by decide)).trans <| (ex_set _ (by decide)).trans <| (ex_hi _ _ (by decide)).trans <| (ex_hi _ _ (by decide)).trans <| (ex_hi _ _ (by decide)).trans <| (ex_hi _ _ (by decide)).trans <| ex_all _
  · exact (ex_set _ (by decide)).trans <| (ex_set _ (by decide)).trans <| (ex_hi _ _ (by decide)).trans <| (ex_hi _ _ (by decide)).trans <| (ex_hi _ _ (by decide)).trans <| ex_lo _ _
  · exact (ex_set _ (by decide)).trans <| (ex_set _ (by decide)).trans <| (ex_hi _ _ (by decide)).trans <| (ex_hi _ _ (by decide)).trans <| ex_lo _ _
  · exact (ex_set _ (by decide)).trans <| (ex_set _ (by decide)).trans <| ex_lo _ _

theorem ret (p a) : Statement (.ret p a) := by
  refine raw_ret _ _ _ _ (congrArg BitVec.toNat (a₂ := 100#7) ?_) ?_ ?_
  · exact (ex_set _ (by decide)).trans <| (ex_set _ (by decide)).trans <| (ex_hi _ _ (by decide)).trans <| (ex_hi _ _ (by decide)).trans <| (ex_hi _ _ (by decide)).trans <| (ex_hi _ _ (by decide)).trans <| ex_all _
  · exact (ex_set _ (by decide)).trans <| (ex_set _ (by decide)).trans <| (ex_hi _ _ (by decide)).trans <| (ex_hi _ _ (by decide)).trans <| (ex_hi _ _ (by decide)).trans <| ex_lo _ _
  · exact (ex_set _ (by decide)).trans <| (ex_set _ (by decide)).trans <| (ex_hi _ _ (by decide)).trans <| ex_lo _ _

theorem loopScalar (p a len) : Statement (.loopScalar p a len) := by
  refine raw_loopScalar _ _ _ _ _ (congrArg BitVec.toNat (a₂ := 101#7) ?_) ?_ ?_ ?_
  · exact (ex_set _ (by decide)).trans <| (ex_set _ (by decide)).trans <| (ex_hi _ _ (by decide)).trans <| (ex_hi _ _ (by decide)).trans <| (ex_hi _ _ (by decide)).trans <| (ex_hi _ _ (by decide)).trans <| (ex_hi _ _ (by decide)).trans <| ex_all _
  · exact (ex_set _ (by decide)).trans <| (ex_set _ (by decide)).trans <| (ex_hi _ _ (by decide)).trans <| (ex_hi _ _ (by decide)).trans <| (ex_hi _ _ (by decide)).trans <| (ex_hi _ _ (by decide)).trans <| ex_lo _ _
  · exact (ex_set _ (by decide)).trans <| (ex_set _ (by decide)).trans <| (ex_hi _ _ (by decide)).trans <| (ex_hi _ _ (by decide)).trans <| ex_lo _ _
  · exact (ex_set _ (by decide)).trans <| (ex_set _ (by decide)).trans <| ex_lo _ _

theorem loopNbound (p n len) : Statement (.loopNbound p n len) := by
  refine raw_loopNbound _ _ _ _ _ (congrArg BitVec.toNat (a₂ := 102#7) ?_) ?_ ?_ ?_
  · exact (ex_set _ (by decide)).trans <| (ex_set _ (by decide)).trans <| (ex_hi _ _ (by decide)).trans <| (ex_hi _ _ (by decide)).trans <| (ex_hi _ _ (by decide)).trans <| (ex_hi _ _ (by decide)).trans <| (ex_hi _ _ (by decide)).trans <| ex_all _
  · exact (ex_set _ (by decide)).trans <| (ex_set _ (by decide)).trans <| (ex_hi _ _ (by decide)).trans <| (ex_hi _ _ (by decide)).trans <| (ex_hi _ _ (by decide)).trans <| (ex_hi _ _ (by decide)).trans <| ex_lo _ _
  · exact (ex_set _ (by decide)).trans <| (ex_set _ (by decide)).trans <| (ex_hi _ _ (by decide)).trans <| (ex_hi _ _ (by decide)).trans <| ex_lo _ _
  · exact (ex_set _ (by decide)).trans <| (ex_set _ (by decide)).trans <| ex_lo _ _

theorem loopImm (p count len) : Statement (.loopImm p count len) := by
  refine raw_loopImm _ _ _ _ _ (congrArg BitVec.toNat (a₂ := 103#7) ?_) ?_ ?_ ?_
  · exact (ex_set _ (by decide)).trans <| (ex_set _ (by decide)).trans <| (ex_hi _ _ (by decide)).trans <| (ex_hi _ _ (by decide)).trans <| (ex_hi _ _ (by decide)).trans <| (ex_hi _ _ (by decide)).trans <| ex_all _
  · exact (ex_set _ (by decide)).trans <| (ex_set _ (by decide)).trans <| (ex_hi _ _ (by decide)).trans <| (ex_hi _ _ (by decide)).trans <| (ex_hi _ _ (by decide)).trans <| ex_lo _ _
  · exact (ex_set _ (by decide)).trans <| (ex_set _ (by decide)).trans <| (ex_hi _ _ (by decide)).trans <| ex_lo _ _
  · exact (ex_set _ (by decide)).trans <| (ex_set _ (by decide)).trans <| ex_lo _ _

theorem lexit (p) : Statement (.lexit p) := by
  refine raw_lexit _ _ _ (congrArg BitVec.toNat (a₂ := 104#7) ?_) ?_
  · exact (ex_set _ (by decide)).trans <| (ex_set _ (by decide)).trans <| (ex_hi _ _ (by decide)).trans <| (ex_hi _ _ (by decide)).trans <| ex_all _
  · exact (ex_set _ (by decide)).trans <| (ex_set _ (by decide)).trans <| (ex_hi _ _ (by decide)).trans <| ex_lo _ _

theorem lidx (p d idx) : Statement (.lidx p d idx) := by
  refine raw_lidx _ _ _ _ _ (congrArg BitVec.toNat (a₂ := 105#7) ?_) ?_ ?_ ?_
  · exact (ex_set _ (by decide)).trans <| (ex_set _ (by decide)).trans <| (ex_hi _ _ (by decide)).trans <| (ex_hi _ _ (by decide)).trans <| (ex_hi _ _ (by decide)).trans <| (ex_hi _ _ (by decide)).trans <| ex_all _
  · exact (ex_set _ (by decide)).trans <| (ex_set _ (by decide)).trans <| (ex_hi _ _ (by decide)).trans <| (ex_hi _ _ (by decide)).trans <| (ex_hi _ _ (by decide)).trans <| ex_lo _ _
  · exact (ex_set _ (by decide)).trans <| (ex_set _ (by decide)).trans <| (ex_hi _ _ (by decide)).trans <| (ex_hi _ _ (by decide)).trans <| ex_lo _ _
  · exact (ex_set _ (by decide)).trans <| (ex_set _ (by decide)).trans <| ex_lo _ _

theorem csrr (p d csr) : Statement (.csrr p d csr) := by
  refine raw_csrr _ _ _ _ _ (congrArg BitVec.toNat (a₂ := 112#7) ?_) ?_ ?_ ?_
  · exact (ex_set _ (by decide)).trans <| (ex_set _ (by decide)).trans <| (ex_hi _ _ (by decide)).trans <| (ex_hi _ _ (by decide)).trans <| (ex_hi _ _ (by decide)).trans <| (ex_hi _ _ (by decide)).trans <| ex_all _
  · exact (ex_set _ (by decide)).trans <| (ex_set _ (by decide)).trans <| (ex_hi _ _ (by decide)).trans <| (ex_hi _ _ (by decide)).trans <| (ex_hi _ _ (by decide)).trans <| ex_lo _ _
  · exact (ex_set _ (by decide)).trans <| (ex_set _ (by decide)).trans <| (ex_hi _ _ (by decide)).trans <| (ex_hi _ _ (by decide)).trans <| ex_lo _ _
  · exact (ex_set _ (by decide)).trans <| (ex_set _ (by decide)).trans <| ex_lo _ _

theorem csrw (p a csr) : Statement (.csrw p a csr) := by
  refine raw_csrw _ _ _ _ _ (congrArg BitVec.toNat (a₂ := 113#7) ?_) ?_ ?_ ?_
  · exact (ex_set _ (by decide)).trans <| (ex_set _ (by decide)).trans <| (ex_hi _ _ (by decide)).trans <| (ex_hi _ _ (by decide)).trans <| (ex_hi _ _ (by decide)).trans <| (ex_hi _ _ (by decide)).trans <| (ex_hi _ _ (by decide)).trans <| ex_all _
  · exact (ex_set _ (by decide)).trans <| (ex_set _ (by decide)).trans <| (ex_hi _ _ (by decide)).trans <| (ex_hi _ _ (by decide)).trans <| (ex_hi _ _ (by decide)).trans <| (ex_hi _ _ (by decide)).trans <| ex_lo _ _
  · exact (ex_set _ (by decide)).trans <| (ex_set _ (by decide)).trans <| (ex_hi _ _ (by decide)).trans <| (ex_hi _ _ (by decide)).trans <| ex_lo _ _
  · exact (ex_set _ (by decide)).trans <| (ex_set _ (by decide)).trans <| ex_lo _ _

theorem csrwImm (p imm csr) : Statement (.csrwImm p imm csr) := by
  refine raw_csrwImm _ _ _ _ _ (congrArg BitVec.toNat (a₂ := 114#7) ?_) ?_ ?_ ?_
  · exact (ex_set _ (by decide)).trans <| (ex_set _ (by decide)).trans <| (ex_hi _ _ (by decide)).trans <| (ex_hi _ _ (by decide)).trans <| (ex_hi _ _ (by decide)).trans <| (ex_hi _ _ (by decide)).trans <| ex_all _
  · exact (ex_set _ (by decide)).trans <| (ex_set _ (by decide)).trans <| (ex_hi _ _ (by decide)).trans <| (ex_hi _ _ (by decide)).trans <| (ex_hi _ _ (by decide)).trans <| ex_lo _ _
  · exact (ex_set _ (by decide)).trans <| (ex_set _ (by decide)).trans <| (ex_hi _ _ (by decide)).trans <| ex_lo _ _
  · exact (ex_set _ (by decide)).trans <| (ex_set _ (by decide)).trans <| ex_lo _ _

theorem nbnd (p n a) : Statement (.nbnd p n a) := by
  refine raw_nbnd _ _ _ _ _ (congrArg BitVec.toNat (a₂ := 115#7) ?_) ?_ ?_ ?_
  · exact (ex_set _ (by decide)).trans <| (ex_set _ (by decide)).trans <| (ex_hi _ _ (by decide)).trans <| (ex_hi _ _ (by decide)).trans <| (ex_hi _ _ (by decide)).trans <| (ex_hi _ _ (by decide)).trans <| (ex_hi _ _ (by decide)).trans <| ex_all _
  · exact (ex_set _ (by decide)).trans <| (ex_set _ (by decide)).trans <| (ex_hi _ _ (by decide)).trans <| (ex_hi _ _ (by decide)).trans <| (ex_hi _ _ (by decide)).trans <| (ex_hi _ _ (by decide)).trans <| ex_lo _ _
  · exact (ex_set _ (by decide)).trans <| (ex_set _ (by decide)).trans <| (ex_hi _ _ (by decide)).trans <| (ex_hi _ _ (by decide)).trans <| (ex_hi _ _ (by decide)).trans <| ex_lo _ _
  · exact (ex_set _ (by decide)).trans <| (ex_set _ (by decide)).trans <| (ex_hi _ _ (by decide)).trans <| ex_lo _ _

theorem nbndImm (p n imm) : Statement (.nbndImm p n imm) := by
  refine raw_nbndImm _ _ _ _ _ (congrArg BitVec.toNat (a₂ := 116#7) ?_) ?_ ?_ ?_
  · exact (ex_set _ (by decide)).trans <| (ex_set _ (by decide)).trans <| (ex_hi _ _ (by decide)).trans <| (ex_hi _ _ (by decide)).trans <| (ex_hi _ _ (by decide)).trans <| ex_all _
  · exact (ex_set _ (by decide)).trans <| (ex_set _ (by decide)).trans <| (ex_hi _ _ (by decide)).trans <| (ex_hi _ _ (by decide)).trans <| ex_lo _ _
  · exact (ex_set _ (by decide)).trans <| (ex_set _ (by decide)).trans <| (ex_hi _ _ (by decide)).trans <| ex_lo _ _
  · exact (ex_set _ (by decide)).trans <| (ex_set _ (by decide)).trans <| ex_lo _ _

theorem vadd (p vd va vb) : Statement (.vadd p vd va vb) := by
  refine raw_vadd _ _ _ _ _ (congrArg BitVec.toNat (a₂ := 0#7) ?_) ?_ ?_ ?_ ?_
  · exact (ex_set _ (by decide)).trans <| (ex_hi _ _ (by decide)).trans <| (ex_hi _ _ (by decide)).trans <| (ex_hi _ _ (by decide)).trans <| (ex_hi _ _ (by decide)).trans <| (ex_hi _ _ (by decide)).trans <| ex_all _
  · exact (ex_set _ (by decide)).trans <| (ex_hi _ _ (by decide)).trans <| (ex_hi _ _ (by decide)).trans <| (ex_hi _ _ (by decide)).trans <| (ex_hi _ _ (by decide)).trans <| ex_lo _ _
  · exact (ex_set _ (by decide)).trans <| (ex_hi _ _ (by decide)).trans <| (ex_hi _ _ (by decide)).trans <| (ex_hi _ _ (by decide)).trans <| ex_lo _ _
  · exact (ex_set _ (by decide)).trans <| (ex_hi _ _ (by decide)).trans <| (ex_hi _ _ (by decide)).trans <| ex_lo _ _
  · exact (ex_set _ (by decide)).trans <| (ex_hi _ _ (by decide)).trans <| ex_lo _ _

theorem vsub (p vd va vb) : Statement (.vsub p vd va vb) := by
  refine raw_vsub _ _ _ _ _ (congrArg BitVec.toNat (a₂ := 1#7) ?_) ?_ ?_ ?_ ?_
  · exact (ex_set _ (by decide)).trans <| (ex_hi _ _ (by decide)).trans <| (ex_hi _ _ (by decide)).trans <| (ex_hi _ _ (by decide)).trans <| (ex_hi _ _ (by decide)).trans <| (ex_hi _ _ (by decide)).trans <| ex_all _
  · exact (ex_set _ (by decide)).trans <| (ex_hi _ _ (by decide)).trans <| (ex_hi _ _ (by decide)).trans <| (ex_hi _ _ (by decide)).trans <| (ex_hi _ _ (by decide)).trans <| ex_lo _ _
  · exact (ex_set _ (by decide)).trans <| (ex_hi _ _ (by decide)).trans <| (ex_hi _ _ (by decide)).trans <| (ex_hi _ _ (by decide)).trans <| ex_lo _ _
  · exact (ex_set _ (by decide)).trans <| (ex_hi _ _ (by decide)).trans <| (ex_hi _ _ (by decide)).trans <| ex_lo _ _
  · exact (ex_set _ (by decide)).trans <| (ex_hi _ _ (by decide)).trans <| ex_lo _ _

theorem vmul (p vd va vb) : Statement (.vmul p vd va vb) := by
  refine raw_vmul _ _ _ _ _ (congrArg BitVec.toNat (a₂ := 2#7) ?_) ?_ ?_ ?_ ?_
  · exact (ex_set _ (by decide)).trans <| (ex_hi _ _ (by decide)).trans <| (ex_hi _ _ (by decide)).trans <| (ex_hi _ _ (by decide)).trans <| (ex_hi _ _ (by decide)).trans <| (ex_hi _ _ (by decide)).trans <| ex_all _
  · exact (ex_set _ (by decide)).trans <| (ex_hi _ _ (by decide)).trans <| (ex_hi _ _ (by decide)).trans <| (ex_hi _ _ (by decide)).trans <| (ex_hi _ _ (by decide)).trans <| ex_lo _ _
  · exact (ex_set _ (by decide)).trans <| (ex_hi _ _ (by decide)).trans <| (ex_hi _ _ (by decide)).trans <| (ex_hi _ _ (by decide)).trans <| ex_lo _ _
  · exact (ex_set _ (by decide)).trans <| (ex_hi _ _ (by decide)).trans <| (ex_hi _ _ (by decide)).trans <| ex_lo _ _
  · exact (ex_set _ (by decide)).trans <| (ex_hi _ _ (by decide)).trans <| ex_lo _ _

theorem vmin (p vd va vb) : Statement (.vmin p vd va vb) := by
  refine raw_vmin _ _ _ _ _ (congrArg BitVec.toNat (a₂ := 3#7) ?_) ?_ ?_ ?_ ?_
  · exact (ex_set _ (by decide)).trans <| (ex_hi _ _ (by decide)).trans <| (ex_hi _ _ (by decide)).trans <| (ex_hi _ _ (by decide)).trans <| (ex_hi _ _ (by decide)).trans <| (ex_hi _ _ (by decide)).trans <| ex_all _
  · exact (ex_set _ (by decide)).trans <| (ex_hi _ _ (by decide)).trans <| (ex_hi _ _ (by decide)).trans <| (ex_hi _ _ (by decide)).trans <| (ex_hi _ _ (by decide)).trans <| ex_lo _ _
  · exact (ex_set _ (by decide)).trans <| (ex_hi _ _ (by decide)).trans <| (ex_hi _ _ (by decide)).trans <| (ex_hi _ _ (by decide)).trans <| ex_lo _ _
  · exact (ex_set _ (by decide)).trans <| (ex_hi _ _ (by decide)).trans <| (ex_hi _ _ (by decide)).trans <| ex_lo _ _
  · exact (ex_set _ (by decide)).trans <| (ex_hi _ _ (by decide)).trans <| ex_lo _ _

theorem vmax (p vd va vb) : Statement (.vmax p vd va vb) := by
  refine raw_vmax _ _ _ _ _ (congrArg BitVec.toNat (a₂ := 4#7) ?_) ?_ ?_ ?_ ?_
  · exact (ex_set _ (by decide)).trans <| (ex_hi _ _ (by decide)).trans <| (ex_hi _ _ (by decide)).trans <| (ex_hi _ _ (by decide)).trans <| (ex_hi _ _ (by decide)).trans <| (ex_hi _ _ (by decide)).trans <| ex_all _
  · exact (ex_set _ (by decide)).trans <| (ex_hi _ _ (by decide)).trans <| (ex_hi _ _ (by decide)).trans <| (ex_hi _ _ (by decide)).trans <| (ex_hi _ _ (by decide)).trans <| ex_lo _ _
  · exact (ex_set _ (by decide)).trans <| (ex_hi _ _ (by decide)).trans <| (ex_hi _ _ (by decide)).trans <| (ex_hi _ _ (by decide)).trans <| ex_lo _ _
  · exact (ex_set _ (by decide)).trans <| (ex_hi _ _ (by decide)).trans <| (ex_hi _ _ (by decide)).trans <| ex_lo _ _
  · exact (ex_set _ (by decide)).trans <| (ex_hi _ _ (by decide)).trans <| ex_lo _ _

theorem vfma (p vd va vb vc) : Statement (.vfma p vd va vb vc) := by
  refine raw_vfma _ _ _ _ _ _ (congrArg BitVec.toNat (a₂ := 5#7) ?_) ?_ ?_ ?_ ?_ ?_
  · exact (ex_set _ (by decide)).trans <| (ex_hi _ _ (by decide)).trans <| (ex_hi _ _ (by decide)).trans <| (ex_hi _ _ (by decide)).trans <| (ex_hi _ _ (by decide)).trans <| (ex_hi _ _ (by decide)).trans <| ex_all _
  · exact (ex_set _ (by decide)).trans <| (ex_hi _ _ (by decide)).trans <| (ex_hi _ _ (by decide)).trans <| (ex_hi _ _ (by decide)).trans <| (ex_hi _ _ (by decide)).trans <| ex_lo _ _
  · exact (ex_set _ (by decide)).trans <| (ex_hi _ _ (by decide)).trans <| (ex_hi _ _ (by decide)).trans <| (ex_hi _ _ (by decide)).trans <| ex_lo _ _
  · exact (ex_set _ (by decide)).trans <| (ex_hi _ _ (by decide)).trans <| (ex_hi _ _ (by decide)).trans <| ex_lo _ _
  · exact (ex_set _ (by decide)).trans <| (ex_hi _ _ (by decide)).trans <| ex_lo _ _
  · exact (ex_set _ (by decide)).trans <| ex_lo _ _

theorem vfms (p vd va vb vc) : Statement (.vfms p vd va vb vc) := by
  refine raw_vfms _ _ _ _ _ _ (congrArg BitVec.toNat (a₂ := 6#7) ?_) ?_ ?_ ?_ ?_ ?_
  · exact (ex_set _ (by decide)).trans <| (ex_hi _ _ (by decide)).trans <| (ex_hi _ _ (by decide)).trans <| (ex_hi _ _ (by decide)).trans <| (ex_hi _ _ (by decide)).trans <| (ex_hi _ _ (by decide)).trans <| ex_all _
  · exact (ex_set _ (by decide)).trans <| (ex_hi _ _ (by decide)).trans <| (ex_hi _ _ (by decide)).trans <| (ex_hi _ _ (by decide)).trans <| (ex_hi _ _ (by decide)).trans <| ex_lo _ _
  · exact (ex_set _ (by decide)).trans <| (ex_hi _ _ (by decide)).trans <| (ex_hi _ _ (by decide)).trans <| (ex_hi _ _ (by decide)).trans <| ex_lo _ _
  · exact (ex_set _ (by decide)).trans <| (ex_hi _ _ (by decide)).trans <| (ex_hi _ _ (by decide)).trans <| ex_lo _ _
  · exact (ex_set _ (by decide)).trans <| (ex_hi _ _ (by decide)).trans <| ex_lo _ _
  · exact (ex_set _ (by decide)).trans <| ex_lo _ _

theorem vfnma (p vd va vb vc) : Statement (.vfnma p vd va vb vc) := by
  refine raw_vfnma _ _ _ _ _ _ (congrArg BitVec.toNat (a₂ := 7#7) ?_) ?_ ?_ ?_ ?_ ?_
  · exact (ex_set _ (by decide)).trans <| (ex_hi _ _ (by decide)).trans <| (ex_hi _ _ (by decide)).trans <| (ex_hi _ _ (by decide)).trans <| (ex_hi _ _ (by decide)).trans <| (ex_hi _ _ (by decide)).trans <| ex_all _
  · exact (ex_set _ (by decide)).trans <| (ex_hi _ _ (by decide)).trans <| (ex_hi _ _ (by decide)).trans <| (ex_hi _ _ (by decide)).trans <| (ex_hi _ _ (by decide)).trans <| ex_lo _ _
  · exact (ex_set _ (by decide)).trans <| (ex_hi _ _ (by decide)).trans <| (ex_hi _ _ (by decide)).trans <| (ex_hi _ _ (by decide)).trans <| ex_lo _ _
  · exact (ex_set _ (by decide)).trans <| (ex_hi _ _ (by decide)).trans <| (ex_hi _ _ (by decide)).trans <| ex_lo _ _
  · exact (ex_set _ (by decide)).trans <| (ex_hi _ _ (by decide)).trans <| ex_lo _ _
  · exact (ex_set _ (by decide)).trans <| ex_lo _ _

theorem vaddScalar (p vd va sb) : Statement (.vaddScalar p vd va sb) := by
  refine raw_vaddScalar _ _ _ _ _ (congrArg BitVec.toNat (a₂ := 8#7) ?_) ?_ ?_ ?_ ?_
  · exact (ex_set _ (by decide)).trans <| (ex_hi _ _ (by decide)).trans <| (ex_hi _ _ (by decide)).trans <| (ex_hi _ _ (by decide)).trans <| (ex_hi _ _ (by decide)).trans <| (ex_hi _ _ (by decide)).trans <| ex_all _
  · exact (ex_set _ (by decide)).trans <| (ex_hi _ _ (by decide)).trans <| (ex_hi _ _ (by decide)).trans <| (ex_hi _ _ (by decide)).trans <| (ex_hi _ _ (by decide)).trans <| ex_lo _ _
  · exact (ex_set _ (by decide)).trans <| (ex_hi _ _ (by decide)).trans <| (ex_hi _ _ (by decide)).trans <| (ex_hi _ _ (by decide)).trans <| ex_lo _ _
  · exact (ex_set _ (by decide)).trans <| (ex_hi _ _ (by decide)).trans <| (ex_hi _ _ (by decide)).trans <| ex_lo _ _
  · exact (ex_set _ (by decide)).trans <| (ex_hi _ _ (by decide)).trans <| ex_lo _ _

theorem vsubScalar (p vd va sb) : Statement (.vsubScalar p vd va sb) := by
  refine raw_vsubScalar _ _ _ _ _ (congrArg BitVec.toNat (a₂ := 9#7) ?_) ?_ ?_ ?_ ?_
  · exact (ex_set _ (by decide)).trans <| (ex_hi _ _ (by decide)).trans <| (ex_hi _ _ (by decide)).trans <| (ex_hi _ _ (by decide)).trans <| (ex_hi _ _ (by decide)).trans <| (ex_hi _ _ (by decide)).trans <| ex_all _
  · exact (ex_set _ (by decide)).trans <| (ex_hi _ _ (by decide)).trans <| (ex_hi _ _ (by decide)).trans <| (ex_hi _ _ (by decide)).trans <| (ex_hi _ _ (by decide)).trans <| ex_lo _ _
  · exact (ex_set _ (by decide)).trans <| (ex_hi _ _ (by decide)).trans <| (ex_hi _ _ (by decide)).trans <| (ex_hi _ _ (by decide)).trans <| ex_lo _ _
  · exact (ex_set _ (by decide)).trans <| (ex_hi _ _ (by decide)).trans <| (ex_hi _ _ (by decide)).trans <| ex_lo _ _
  · exact (ex_set _ (by decide)).trans <| (ex_hi _ _ (by decide)).trans <| ex_lo _ _

theorem vmulScalar (p vd va sb) : Statement (.vmulScalar p vd va sb) := by
  refine raw_vmulScalar _ _ _ _ _ (congrArg BitVec.toNat (a₂ := 10#7) ?_) ?_ ?_ ?_ ?_
  · exact (ex_set _ (by decide)).trans <| (ex_hi _ _ (by decide)).trans <| (ex_hi _ _ (by decide)).trans <| (ex_hi _ _ (by decide)).trans <| (ex_hi _ _ (by decide)).trans <| (ex_hi _ _ (by decide)).trans <| ex_all _
  · exact (ex_set _ (by decide)).trans <| (ex_hi _ _ (by decide)).trans <| (ex_hi _ _ (by decide)).trans <| (ex_hi _ _ (by decide)).trans <| (ex_hi _ _ (by decide)).trans <| ex_lo _ _
  · exact (ex_set _ (by decide)).trans <| (ex_hi _ _ (by decide)).trans <| (ex_hi _ _ (by decide)).trans <| (ex_hi _ _ (by decide)).trans <| ex_lo _ _
  · exact (ex_set _ (by decide)).trans <| (ex_hi _ _ (by decide)).trans <| (ex_hi _ _ (by decide)).trans <| ex_lo _ _
  · exact (ex_set _ (by decide)).trans <| (ex_hi _ _ (by decide)).trans <| ex_lo _ _

theorem vminScalar (p vd va sb) : Statement (.vminScalar p vd va sb) := by
  refine raw_vminScalar _ _ _ _ _ (congrArg BitVec.toNat (a₂ := 11#7) ?_) ?_ ?_ ?_ ?_
  · exact (ex_set _ (by decide)).trans <| (ex_hi _ _ (by decide)).trans <| (ex_hi _ _ (by decide)).trans <| (ex_hi _ _ (by decide)).trans <| (ex_hi _ _ (by decide)).trans <| (ex_hi _ _ (by decide)).trans <| ex_all _
  · exact (ex_set _ (by decide)).trans <| (ex_hi _ _ (by decide)).trans <| (ex_hi _ _ (by decide)).trans <| (ex_hi _ _ (by decide)).trans <| (ex_hi _ _ (by decide)).trans <| ex_lo _ _
  · exact (ex_set _ (by decide)).trans <| (ex_hi _ _ (by decide)).trans <| (ex_hi _ _ (by decide)).trans <| (ex_hi _ _ (by decide)).trans <| ex_lo _ _
  · exact (ex_set _ (by decide)).trans <| (ex_hi _ _ (by decide)).trans <| (ex_hi _ _ (by decide)).trans <| ex_lo _ _
  · exact (ex_set _ (by decide)).trans <| (ex_hi _ _ (by decide)).trans <| ex_lo _ _

theorem vmaxScalar (p vd va sb) : Statement (.vmaxScalar p vd va sb) := by
  refine raw_vmaxScalar _ _ _ _ _ (congrArg BitVec.toNat (a₂ := 12#7) ?_) ?_ ?_ ?_ ?_
  · exact (ex_set _ (by decide)).trans <| (ex_hi _ _ (by decide)).trans <| (ex_hi _ _ (by decide)).trans <| (ex_hi _ _ (by decide)).trans <| (ex_hi _ _ (by decide)).trans <| (ex_hi _ _ (by decide)).trans <| ex_all _
  · exact (ex_set _ (by decide)).trans <| (ex_hi _ _ (by decide)).trans <| (ex_hi _ _ (by decide)).trans <| (ex_hi _ _ (by decide)).trans <| (ex_hi _ _ (by decide)).trans <| ex_lo _ _
  · exact (ex_set _ (by decide)).trans <| (ex_hi _ _ (by decide)).trans <| (ex_hi _ _ (by decide)).trans <| (ex_hi _ _ (by decide)).trans <| ex_lo _ _
  · exact (ex_set _ (by decide)).trans <| (ex_hi _ _ (by decide)).trans <| (ex_hi _ _ (by decide)).trans <| ex_lo _ _
  · exact (ex_set _ (by decide)).trans <| (ex_hi _ _ (by decide)).trans <| ex_lo _ _

theorem vfmaScalar (p vd va sb vc) : Statement (.vfmaScalar p vd va sb vc) := by
  refine raw_vfmaScalar _ _ _ _ _ _ (congrArg BitVec.toNat (a₂ := 13#7) ?_) ?_ ?_ ?_ ?_ ?_
  · exact (ex_set _ (by decide)).trans <| (ex_hi _ _ (by decide)).trans <| (ex_hi _ _ (by decide)).trans <| (ex_hi _ _ (by decide)).trans <| (ex_hi _ _ (by decide)).trans <| (ex_hi _ _ (by decide)).trans <| (ex_hi _ _ (by decide)).trans <| ex_all _
  · exact (ex_set _ (by decide)).trans <| (ex_hi _ _ (by decide)).trans <| (ex_hi _ _ (by decide)).trans <| (ex_hi _ _ (by decide)).trans <| (ex_hi _ _ (by decide)).trans <| (ex_hi _ _ (by decide)).trans <| ex_lo _ _
  · exact (ex_set _ (by decide)).trans <| (ex_hi _ _ (by decide)).trans <| (ex_hi _ _ (by decide)).trans <| (ex_hi _ _ (by decide)).trans <| (ex_hi _ _ (by decide)).trans <| ex_lo _ _
  · exact (ex_set _ (by decide)).trans <| (ex_hi _ _ (by decide)).trans <| (ex_hi _ _ (by decide)).trans <| (ex_hi _ _ (by decide)).trans <| ex_lo _ _
  · exact (ex_set _ (by decide)).trans <| (ex_hi _ _ (by decide)).trans <| (ex_hi _ _ (by decide)).trans <| ex_lo _ _
  · exact (ex_set _ (by decide)).trans <| (ex_hi _ _ (by decide)).trans <| ex_lo _ _

theorem vfmsScalar (p vd va sb vc) : Statement (.vfmsScalar p vd va sb vc) := by
  refine raw_vfmsScalar _ _ _ _ _ _ (congrArg BitVec.toNat (a₂ := 14#7) ?_) ?_ ?_ ?_ ?_ ?_
  · exact (ex_set _ (by decide)).trans <| (ex_hi _ _ (by decide)).trans <| (ex_hi _ _ (by decide)).trans <| (ex_hi _ _ (by decide)).trans <| (ex_hi _ _ (by decide)).trans <| (ex_hi _ _ (by decide)).trans <| (ex_hi _ _ (by decide)).trans <| ex_all _
  · exact (ex_set _ (by decide)).trans <| (ex_hi _ _ (by decide)).trans <| (ex_hi _ _ (by decide)).trans <| (ex_hi _ _ (by decide)).trans <| (ex_hi _ _ (by decide)).trans <| (ex_hi _ _ (by decide)).trans <| ex_lo _ _
  · exact (ex_set _ (by decide)).trans <| (ex_hi _ _ (by decide)).trans <| (ex_hi _ _ (by decide)).trans <| (ex_hi _ _ (by decide)).trans <| (ex_hi _ _ (by decide)).trans <| ex_lo _ _
  · exact (ex_set _ (by decide)).trans <| (ex_hi _ _ (by decide)).trans <| (ex_hi _ _ (by decide)).trans <| (ex_hi _ _ (by decide)).trans <| ex_lo _ _
  · exact (ex_set _ (by decide)).trans <| (ex_hi _ _ (by decide)).trans <| (ex_hi _ _ (by decide)).trans <| ex_lo _ _
  · exact (ex_set _ (by decide)).trans <| (ex_hi _ _ (by decide)).trans <| ex_lo _ _

theorem vfnmaScalar (p vd va sb vc) : Statement (.vfnmaScalar p vd va sb vc) := by
  refine raw_vfnmaScalar _ _ _ _ _ _ (congrArg BitVec.toNat (a₂ := 15#7) ?_) ?_ ?_ ?_ ?_ ?_
  · exact (ex_set _ (by decide)).trans <| (ex_hi _ _ (by decide)).trans <| (ex_hi _ _ (by decide)).trans <| (ex_hi _ _ (by decide)).trans <| (ex_hi _ _ (by decide)).trans <| (ex_hi _ _ (by decide)).trans <| (ex_hi _ _ (by decide)).trans <| ex_all _
  · exact (ex_set _ (by decide)).trans <| (ex_hi _ _ (by decide)).trans <| (ex_hi _ _ (by decide)).trans <| (ex_hi _ _ (by decide)).trans <| (ex_hi _ _ (by decide)).trans <| (ex_hi _ _ (by decide)).trans <| ex_lo _ _
  · exact (ex_set _ (by decide)).trans <| (ex_hi _ _ (by decide)).trans <| (ex_hi _ _ (by decide)).trans <| (ex_hi _ _ (by decide)).trans <| (ex_hi _ _ (by decide)).trans <| ex_lo _ _
  · exact (ex_set _ (by decide)).trans <| (ex_hi _ _ (by decide)).trans <| (ex_hi _ _ (by decide)).trans <| (ex_hi _ _ (by decide)).trans <| ex_lo _ _
  · exact (ex_set _ (by decide)).trans <| (ex_hi _ _ (by decide)).trans <| (ex_hi _ _ (by decide)).trans <| ex_lo _ _
  · exact (ex_set _ (by decide)).trans <| (ex_hi _ _ (by decide)).trans <| ex_lo _ _

theorem vabs (p vd va) : Statement (.vabs p vd va) := by
  refine raw_vabs _ _ _ _ (congrArg BitVec.toNat (a₂ := 16#7) ?_) ?_ ?_ ?_
  · exact (ex_set _ (by decide)).trans <| (ex_hi _ _ (by decide)).trans <| (ex_hi _ _ (by decide)).trans <| (ex_hi _ _ (by decide)).trans <| (ex_hi _ _ (by decide)).trans <| ex_all _
  · exact (ex_set _ (by decide)).trans <| (ex_hi _ _ (by decide)).trans <| (ex_hi _ _ (by decide)).trans <| (ex_hi _ _ (by decide)).trans <| ex_lo _ _
  · exact (ex_set _ (by decide)).trans <| (ex_hi _ _ (by decide)).trans <| (ex_hi _ _ (by decide)).trans <| ex_lo _ _
  · exact (ex_set _ (by decide)).trans <| (ex_hi _ _ (by decide)).trans <| ex_lo _ _

theorem vneg (p vd va) : Statement (.vneg p vd va) := by
  refine raw_vneg _ _ _ _ (congrArg BitVec.toNat (a₂ := 17#7) ?_) ?_ ?_ ?_
  · exact (ex_set _ (by decide)).trans <| (ex_hi _ _ (by decide)).trans <| (ex_hi _ _ (by decide)).trans <| (ex_hi _ _ (by decide)).trans <| (ex_hi _ _ (by decide)).trans <| ex_all _
  · exact (ex_set _ (by decide)).trans <| (ex_hi _ _ (by decide)).trans <| (ex_hi _ _ (by decide)).trans <| (ex_hi _ _ (by decide)).trans <| ex_lo _ _
  · exact (ex_set _ (by decide)).trans <| (ex_hi _ _ (by decide)).trans <| (ex_hi _ _ (by decide)).trans <| ex_lo _ _
  · exact (ex_set _ (by decide)).trans <| (ex_hi _ _ (by decide)).trans <| ex_lo _ _

theorem vrcp (p vd va) : Statement (.vrcp p vd va) := by
  refine raw_vrcp _ _ _ _ (congrArg BitVec.toNat (a₂ := 18#7) ?_) ?_ ?_ ?_
  · exact (ex_set _ (by decide)).trans <| (ex_hi _ _ (by decide)).trans <| (ex_hi _ _ (by decide)).trans <| (ex_hi _ _ (by decide)).trans <| (ex_hi _ _ (by decide)).trans <| ex_all _
  · exact (ex_set _ (by decide)).trans <| (ex_hi _ _ (by decide)).trans <| (ex_hi _ _ (by decide)).trans <| (ex_hi _ _ (by decide)).trans <| ex_lo _ _
  · exact (ex_set _ (by decide)).trans <| (ex_hi _ _ (by decide)).trans <| (ex_hi _ _ (by decide)).trans <| ex_lo _ _
  · exact (ex_set _ (by decide)).trans <| (ex_hi _ _ (by decide)).trans <| ex_lo _ _

theorem vrsq (p vd va) : Statement (.vrsq p vd va) := by
  refine raw_vrsq _ _ _ _ (congrArg BitVec.toNat (a₂ := 19#7) ?_) ?_ ?_ ?_
  · exact (ex_set _ (by decide)).trans <| (ex_hi _ _ (by decide)).trans <| (ex_hi _ _ (by decide)).trans <| (ex_hi _ _ (by decide)).trans <| (ex_hi _ _ (by decide)).trans <| ex_all _
  · exact (ex_set _ (by decide)).trans <| (ex_hi _ _ (by decide)).trans <| (ex_hi _ _ (by decide)).trans <| (ex_hi _ _ (by decide)).trans <| ex_lo _ _
  · exact (ex_set _ (by decide)).trans <| (ex_hi _ _ (by decide)).trans <| (ex_hi _ _ (by decide)).trans <| ex_lo _ _
  · exact (ex_set _ (by decide)).trans <| (ex_hi _ _ (by decide)).trans <| ex_lo _ _

theorem vexp2 (p vd va) : Statement (.vexp2 p vd va) := by
  refine raw_vexp2 _ _ _ _ (congrArg BitVec.toNat (a₂ := 20#7) ?_) ?_ ?_ ?_
  · exact (ex_set _ (by decide)).trans <| (ex_hi _ _ (by decide)).trans <| (ex_hi _ _ (by decide)).trans <| (ex_hi _ _ (by decide)).trans <| (ex_hi _ _ (by decide)).trans <| ex_all _
  · exact (ex_set _ (by decide)).trans <| (ex_hi _ _ (by decide)).trans <| (ex_hi _ _ (by decide)).trans <| (ex_hi _ _ (by decide)).trans <| ex_lo _ _
  · exact (ex_set _ (by decide)).trans <| (ex_hi _ _ (by decide)).trans <| (ex_hi _ _ (by decide)).trans <| ex_lo _ _
  · exact (ex_set _ (by decide)).trans <| (ex_hi _ _ (by decide)).trans <| ex_lo _ _

theorem vlog2 (p vd va) : Statement (.vlog2 p vd va) := by
  refine raw_vlog2 _ _ _ _ (congrArg BitVec.toNat (a₂ := 21#7) ?_) ?_ ?_ ?_
  · exact (ex_set _ (by decide)).trans <| (ex_hi _ _ (by decide)).trans <| (ex_hi _ _ (by decide)).trans <| (ex_hi _ _ (by decide)).trans <| (ex_hi _ _ (by decide)).trans <| ex_all _
  · exact (ex_set _ (by decide)).trans <| (ex_hi _ _ (by decide)).trans <| (ex_hi _ _ (by decide)).trans <| (ex_hi _ _ (by decide)).trans <| ex_lo _ _
  · exact (ex_set _ (by decide)).trans <| (ex_hi _ _ (by decide)).trans <| (ex_hi _ _ (by decide)).trans <| ex_lo _ _
  · exact (ex_set _ (by decide)).trans <| (ex_hi _ _ (by decide)).trans <| ex_lo _ _

theorem vclamp (p vd va slo shi) : Statement (.vclamp p vd va slo shi) := by
  refine raw_vclamp _ _ _ _ _ _ (congrArg BitVec.toNat (a₂ := 22#7) ?_) ?_ ?_ ?_ ?_ ?_
  · exact (ex_set _ (by decide)).trans <| (ex_hi _ _ (by decide)).trans <| (ex_hi _ _ (by decide)).trans <| (ex_hi _ _ (by decide)).trans <| (ex_hi _ _ (by decide)).trans <| (ex_hi _ _ (by decide)).trans <| (ex_hi _ _ (by decide)).trans <| ex_all _
  · exact (ex_set _ (by decide)).trans <| (ex_hi _ _ (by decide)).trans <| (ex_hi _ _ (by decide)).trans <| (ex_hi _ _ (by decide)).trans <| (ex_hi _ _ (by decide)).trans <| (ex_hi _ _ (by decide)).trans <| ex_lo _ _
  · exact (ex_set _ (by decide)).trans <| (ex_hi _ _ (by decide)).trans <| (ex_hi _ _ (by decide)).trans <| (ex_hi _ _ (by decide)).trans <| (ex_hi _ _ (by decide)).trans <| ex_lo _ _
  · exact (ex_set _ (by decide)).trans <| (ex_hi _ _ (by decide)).trans <| (ex_hi _ _ (by decide)).trans <| (ex_hi _ _ (by decide)).trans <| ex_lo _ _
  · exact (ex_set _ (by decide)).trans <| (ex_hi _ _ (by decide)).trans <| (ex_hi _ _ (by decide)).trans <| ex_lo _ _
  · exact (ex_set _ (by decide)).trans <| (ex_hi _ _ (by decide)).trans <| ex_lo _ _

theorem vsel (p vd va vb vc) : Statement (.vsel p vd va vb vc) := by
  refine raw_vsel _ _ _ _ _ _ (congrArg BitVec.toNat (a₂ := 23#7) ?_) ?_ ?_ ?_ ?_ ?_
  · exact (ex_set _ (by decide)).trans <| (ex_hi _ _ (by decide)).trans <| (ex_hi _ _ (by decide)).trans <| (ex_hi _ _ (by decide)).trans <| (ex_hi _ _ (by decide)).trans <| (ex_hi _ _ (by decide)).trans <| ex_all _
  · exact (ex_set _ (by decide)).trans <| (ex_hi _ _ (by decide)).trans <| (ex_hi _ _ (by decide)).trans <| (ex_hi _ _ (by decide)).trans <| (ex_hi _ _ (by decide)).trans <| ex_lo _ _
  · exact (ex_set _ (by decide)).trans <| (ex_hi _ _ (by decide)).trans <| (ex_hi _ _ (by decide)).trans <| (ex_hi _ _ (by decide)).trans <| ex_lo _ _
  · exact (ex_set _ (by decide)).trans <| (ex_hi _ _ (by decide)).trans <| (ex_hi _ _ (by decide)).trans <| ex_lo _ _
  · exact (ex_set _ (by decide)).trans <| (ex_hi _ _ (by decide)).trans <| ex_lo _ _
  · exact (ex_set _ (by decide)).trans <| ex_lo _ _

theorem vcmpeqF (p vd va vb) : Statement (.vcmpeqF p vd va vb) := by
  refine raw_vcmpeqF _ _ _ _ _ (congrArg BitVec.toNat (a₂ := 24#7) ?_) ?_ ?_ ?_ ?_
  · exact (ex_set _ (by decide)).trans <| (ex_hi _ _ (by decide)).trans <| (ex_hi _ _ (by decide)).trans <| (ex_hi _ _ (by decide)).trans <| (ex_hi _ _ (by decide)).trans <| (ex_hi _ _ (by decide)).trans <| ex_all _
  · exact (ex_set _ (by decide)).trans <| (ex_hi _ _ (by decide)).trans <| (ex_hi _ _ (by decide)).trans <| (ex_hi _ _ (by decide)).trans <| (ex_hi _ _ (by decide)).trans <| ex_lo _ _
  · exact (ex_set _ (by decide)).trans <| (ex_hi _ _ (by decide)).trans <| (ex_hi _ _ (by decide)).trans <| (ex_hi _ _ (by decide)).trans <| ex_lo _ _
  · exact (ex_set _ (by decide)).trans <| (ex_hi _ _ (by decide)).trans <| (ex_hi _ _ (by decide)).trans <| ex_lo _ _
  · exact (ex_set _ (by decide)).trans <| (ex_hi _ _ (by decide)).trans <| ex_lo _ _

theorem vcmpeqI (p vd va vb) : Statement (.vcmpeqI p vd va vb) := by
  refine raw_vcmpeqI _ _ _ _ _ (congrArg BitVec.toNat (a₂ := 25#7) ?_) ?_ ?_ ?_ ?_
  · exact (ex_set _ (by decide)).trans <| (ex_hi _ _ (by decide)).trans <| (ex_hi _ _ (by decide)).trans <| (ex_hi _ _ (by decide)).trans <| (ex_hi _ _ (by decide)).trans <| (ex_hi _ _ (by decide)).trans <| ex_all _
  · exact (ex_set _ (by decide)).trans <| (ex_hi _ _ (by decide)).trans <| (ex_hi _ _ (by decide)).trans <| (ex_hi _ _ (by decide)).trans <| (ex_hi _ _ (by decide)).trans <| ex_lo _ _
  · exact (ex_set _ (by decide)).trans <| (ex_hi _ _ (by decide)).trans <| (ex_hi _ _ (by decide)).trans <| (ex_hi _ _ (by decide)).trans <| ex_lo _ _
  · exact (ex_set _ (by decide)).trans <| (ex_hi _ _ (by decide)).trans <| (ex_hi _ _ (by decide)).trans <| ex_lo _ _
  · exact (ex_set _ (by decide)).trans <| (ex_hi _ _ (by decide)).trans <| ex_lo _ _

theorem vcmpltF (p vd va vb) : Statement (.vcmpltF p vd va vb) := by
  refine raw_vcmpltF _ _ _ _ _ (congrArg BitVec.toNat (a₂ := 26#7) ?_) ?_ ?_ ?_ ?_
  · exact (ex_set _ (by decide)).trans <| (ex_hi _ _ (by decide)).trans <| (ex_hi _ _ (by decide)).trans <| (ex_hi _ _ (by decide)).trans <| (ex_hi _ _ (by decide)).trans <| (ex_hi _ _ (by decide)).trans <| ex_all _
  · exact (ex_set _ (by decide)).trans <| (ex_hi _ _ (by decide)).trans <| (ex_hi _ _ (by decide)).trans <| (ex_hi _ _ (by decide)).trans <| (ex_hi _ _ (by decide)).trans <| ex_lo _ _
  · exact (ex_set _ (by decide)).trans <| (ex_hi _ _ (by decide)).trans <| (ex_hi _ _ (by decide)).trans <| (ex_hi _ _ (by decide)).trans <| ex_lo _ _
  · exact (ex_set _ (by decide)).trans <| (ex_hi _ _ (by decide)).trans <| (ex_hi _ _ (by decide)).trans <| ex_lo _ _
  · exact (ex_set _ (by decide)).trans <| (ex_hi _ _ (by decide)).trans <| ex_lo _ _

theorem vcmpltSi (p vd va vb) : Statement (.vcmpltSi p vd va vb) := by
  refine raw_vcmpltSi _ _ _ _ _ (congrArg BitVec.toNat (a₂ := 27#7) ?_) ?_ ?_ ?_ ?_
  · exact (ex_set _ (by decide)).trans <| (ex_hi _ _ (by decide)).trans <| (ex_hi _ _ (by decide)).trans <| (ex_hi _ _ (by decide)).trans <| (ex_hi _ _ (by decide)).trans <| (ex_hi _ _ (by decide)).trans <| ex_all _
  · exact (ex_set _ (by decide)).trans <| (ex_hi _ _ (by decide)).trans <| (ex_hi _ _ (by decide)).trans <| (ex_hi _ _ (by decide)).trans <| (ex_hi _ _ (by decide)).trans <| ex_lo _ _
  · exact (ex_set _ (by decide)).trans <| (ex_hi _ _ (by decide)).trans <| (ex_hi _ _ (by decide)).trans <| (ex_hi _ _ (by decide)).trans <| ex_lo _ _
  · exact (ex_set _ (by decide)).trans <| (ex_hi _ _ (by decide)).trans <| (ex_hi _ _ (by decide)).trans <| ex_lo _ _
  · exact (ex_set _ (by decide)).trans <| (ex_hi _ _ (by decide)).trans <| ex_lo _ _

theorem vcmpltUi (p vd va vb) : Statement (.vcmpltUi p vd va vb) := by
  refine raw_vcmpltUi _ _ _ _ _ (congrArg BitVec.toNat (a₂ := 28#7) ?_) ?_ ?_ ?_ ?_
  · exact (ex_set _ (by decide)).trans <| (ex_hi _ _ (by decide)).trans <| (ex_hi _ _ (by decide)).trans <| (ex_hi _ _ (by decide)).trans <| (ex_hi _ _ (by decide)).trans <| (ex_hi _ _ (by decide)).trans <| ex_all _
  · exact (ex_set _ (by decide)).trans <| (ex_hi _ _ (by decide)).trans <| (ex_hi _ _ (by decide)).trans <| (ex_hi _ _ (by decide)).trans <| (ex_hi _ _ (by decide)).trans <| ex_lo _ _
  · exact (ex_set _ (by decide)).trans <| (ex_hi _ _ (by decide)).trans <| (ex_hi _ _ (by decide)).trans <| (ex_hi _ _ (by decide)).trans <| ex_lo _ _
  · exact (ex_set _ (by decide)).trans <| (ex_hi _ _ (by decide)).trans <| (ex_hi _ _ (by decide)).trans <| ex_lo _ _
  · exact (ex_set _ (by decide)).trans <| (ex_hi _ _ (by decide)).trans <| ex_lo _ _

theorem vcmpleF (p vd va vb) : Statement (.vcmpleF p vd va vb) := by
  refine raw_vcmpleF _ _ _ _ _ (congrArg BitVec.toNat (a₂ := 29#7) ?_) ?_ ?_ ?_ ?_
  · exact (ex_set _ (by decide)).trans <| (ex_hi _ _ (by decide)).trans <| (ex_hi _ _ (by decide)).trans <| (ex_hi _ _ (by decide)).trans <| (ex_hi _ _ (by decide)).trans <| (ex_hi _ _ (by decide)).trans <| ex_all _
  · exact (ex_set _ (by decide)).trans <| (ex_hi _ _ (by decide)).trans <| (ex_hi _ _ (by decide)).trans <| (ex_hi _ _ (by decide)).trans <| (ex_hi _ _ (by decide)).trans <| ex_lo _ _
  · exact (ex_set _ (by decide)).trans <| (ex_hi _ _ (by decide)).trans <| (ex_hi _ _ (by decide)).trans <| (ex_hi _ _ (by decide)).trans <| ex_lo _ _
  · exact (ex_set _ (by decide)).trans <| (ex_hi _ _ (by decide)).trans <| (ex_hi _ _ (by decide)).trans <| ex_lo _ _
  · exact (ex_set _ (by decide)).trans <| (ex_hi _ _ (by decide)).trans <| ex_lo _ _

theorem vcmpleSi (p vd va vb) : Statement (.vcmpleSi p vd va vb) := by
  refine raw_vcmpleSi _ _ _ _ _ (congrArg BitVec.toNat (a₂ := 30#7) ?_) ?_ ?_ ?_ ?_
  · exact (ex_set _ (by decide)).trans <| (ex_hi _ _ (by decide)).trans <| (ex_hi _ _ (by decide)).trans <| (ex_hi _ _ (by decide)).trans <| (ex_hi _ _ (by decide)).trans <| (ex_hi _ _ (by decide)).trans <| ex_all _
  · exact (ex_set _ (by decide)).trans <| (ex_hi _ _ (by decide)).trans <| (ex_hi _ _ (by decide)).trans <| (ex_hi _ _ (by decide)).trans <| (ex_hi _ _ (by decide)).trans <| ex_lo _ _
  · exact (ex_set _ (by decide)).trans <| (ex_hi _ _ (by decide)).trans <| (ex_hi _ _ (by decide)).trans <| (ex_hi _ _ (by decide)).trans <| ex_lo _ _
  · exact (ex_set _ (by decide)).trans <| (ex_hi _ _ (by decide)).trans <| (ex_hi _ _ (by decide)).trans <| ex_lo _ _
  · exact (ex_set _ (by decide)).trans <| (ex_hi _ _ (by decide)).trans <| ex_lo _ _

theorem vcmpleUi (p vd va vb) : Statement (.vcmpleUi p vd va vb) := by
  refine raw_vcmpleUi _ _ _ _ _ (congrArg BitVec.toNat (a₂ := 31#7) ?_) ?_ ?_ ?_ ?_
  · exact (ex_set _ (by decide)).trans <| (ex_hi _ _ (by decide)).trans <| (ex_hi _ _ (by decide)).trans <| (ex_hi _ _ (by decide)).trans <| (ex_hi _ _ (by decide)).trans <| (ex_hi _ _ (by decide)).trans <| ex_all _
  · exact (ex_set _ (by decide)).trans <| (ex_hi _ _ (by decide)).trans <| (ex_hi _ _ (by decide)).trans <| (ex_hi _ _ (by decide)).trans <| (ex_hi _ _ (by decide)).trans <| ex_lo _ _
  · exact (ex_set _ (by decide)).trans <| (ex_hi _ _ (by decide)).trans <| (ex_hi _ _ (by decide)).trans <| (ex_hi _ _ (by decide)).trans <| ex_lo _ _
  · exact (ex_set _ (by decide)).trans <| (ex_hi _ _ (by decide)).trans <| (ex_hi _ _ (by decide)).trans <| ex_lo _ _
  · exact (ex_set _ (by decide)).trans <| (ex_hi _ _ (by decide)).trans <| ex_lo _ _

theorem viaddB (p vd va vb) : Statement (.viaddB p vd va vb) := by
  refine raw_viaddB _ _ _ _ _ (congrArg BitVec.toNat (a₂ := 32#7) ?_) ?_ ?_ ?_ ?_
  · exact (ex_set _ (by decide)).trans <| (ex_hi _ _ (by decide)).trans <| (ex_hi _ _ (by decide)).trans <| (ex_hi _ _ (by decide)).trans <| (ex_hi _ _ (by decide)).trans <| (ex_hi _ _ (by decide)).trans <| ex_all _
  · exact (ex_set _ (by decide)).trans <| (ex_hi _ _ (by decide)).trans <| (ex_hi _ _ (by decide)).trans <| (ex_hi _ _ (by decide)).trans <| (ex_hi _ _ (by decide)).trans <| ex_lo _ _
  · exact (ex_set _ (by decide)).trans <| (ex_hi _ _ (by decide)).trans <| (ex_hi _ _ (by decide)).trans <| (ex_hi _ _ (by decide)).trans <| ex_lo _ _
  · exact (ex_set _ (by decide)).trans <| (ex_hi _ _ (by decide)).trans <| (ex_hi _ _ (by decide)).trans <| ex_lo _ _
  · exact (ex_set _ (by decide)).trans <| (ex_hi _ _ (by decide)).trans <| ex_lo _ _

theorem viaddH (p vd va vb) : Statement (.viaddH p vd va vb) := by
  refine raw_viaddH _ _ _ _ _ (congrArg BitVec.toNat (a₂ := 33#7) ?_) ?_ ?_ ?_ ?_
  · exact (ex_set _ (by decide)).trans <| (ex_hi _ _ (by decide)).trans <| (ex_hi _ _ (by decide)).trans <| (ex_hi _ _ (by decide)).trans <| (ex_hi _ _ (by decide)).trans <| (ex_hi _ _ (by decide)).trans <| ex_all _
  · exact (ex_set _ (by decide)).trans <| (ex_hi _ _ (by decide)).trans <| (ex_hi _ _ (by decide)).trans <| (ex_hi _ _ (by decide)).trans <| (ex_hi _ _ (by decide)).trans <| ex_lo _ _
  · exact (ex_set _ (by decide)).trans <| (ex_hi _ _ (by decide)).trans <| (ex_hi _ _ (by decide)).trans <| (ex_hi _ _ (by decide)).trans <| ex_lo _ _
  · exact (ex_set _ (by decide)).trans <| (ex_hi _ _ (by decide)).trans <| (ex_hi _ _ (by decide)).trans <| ex_lo _ _
  · exact (ex_set _ (by decide)).trans <| (ex_hi _ _ (by decide)).trans <| ex_lo _ _

theorem viaddW (p vd va vb) : Statement (.viaddW p vd va vb) := by
  refine raw_viaddW _ _ _ _ _ (congrArg BitVec.toNat (a₂ := 34#7) ?_) ?_ ?_ ?_ ?_
  · exact (ex_set _ (by decide)).trans <| (ex_hi _ _ (by decide)).trans <| (ex_hi _ _ (by decide)).trans <| (ex_hi _ _ (by decide)).trans <| (ex_hi _ _ (by decide)).trans <| (ex_hi _ _ (by decide)).trans <| ex_all _
  · exact (ex_set _ (by decide)).trans <| (ex_hi _ _ (by decide)).trans <| (ex_hi _ _ (by decide)).trans <| (ex_hi _ _ (by decide)).trans <| (ex_hi _ _ (by decide)).trans <| ex_lo _ _
  · exact (ex_set _ (by decide)).trans <| (ex_hi _ _ (by decide)).trans <| (ex_hi _ _ (by decide)).trans <| (ex_hi _ _ (by decide)).trans <| ex_lo _ _
  · exact (ex_set _ (by decide)).trans <| (ex_hi _ _ (by decide)).trans <| (ex_hi _ _ (by decide)).trans <| ex_lo _ _
  · exact (ex_set _ (by decide)).trans <| (ex_hi _ _ (by decide)).trans <| ex_lo _ _

theorem visubB (p vd va vb) : Statement (.visubB p vd va vb) := by
  refine raw_visubB _ _ _ _ _ (congrArg BitVec.toNat (a₂ := 35#7) ?_) ?_ ?_ ?_ ?_
  · exact (ex_set _ (by decide)).trans <| (ex_hi _ _ (by decide)).trans <| (ex_hi _ _ (by decide)).trans <| (ex_hi _ _ (by decide)).trans <| (ex_hi _ _ (by decide)).trans <| (ex_hi _ _ (by decide)).trans <| ex_all _
  · exact (ex_set _ (by decide)).trans <| (ex_hi _ _ (by decide)).trans <| (ex_hi _ _ (by decide)).trans <| (ex_hi _ _ (by decide)).trans <| (ex_hi _ _ (by decide)).trans <| ex_lo _ _
  · exact (ex_set _ (by decide)).trans <| (ex_hi _ _ (by decide)).trans <| (ex_hi _ _ (by decide)).trans <| (ex_hi _ _ (by decide)).trans <| ex_lo _ _
  · exact (ex_set _ (by decide)).trans <| (ex_hi _ _ (by decide)).trans <| (ex_hi _ _ (by decide)).trans <| ex_lo _ _
  · exact (ex_set _ (by decide)).trans <| (ex_hi _ _ (by decide)).trans <| ex_lo _ _

theorem visubH (p vd va vb) : Statement (.visubH p vd va vb) := by
  refine raw_visubH _ _ _ _ _ (congrArg BitVec.toNat (a₂ := 36#7) ?_) ?_ ?_ ?_ ?_
  · exact (ex_set _ (by decide)).trans <| (ex_hi _ _ (by decide)).trans <| (ex_hi _ _ (by decide)).trans <| (ex_hi _ _ (by decide)).trans <| (ex_hi _ _ (by decide)).trans <| (ex_hi _ _ (by decide)).trans <| ex_all _
  · exact (ex_set _ (by decide)).trans <| (ex_hi _ _ (by decide)).trans <| (ex_hi _ _ (by decide)).trans <| (ex_hi _ _ (by decide)).trans <| (ex_hi _ _ (by decide)).trans <| ex_lo _ _
  · exact (ex_set _ (by decide)).trans <| (ex_hi _ _ (by decide)).trans <| (ex_hi _ _ (by decide)).trans <| (ex_hi _ _ (by decide)).trans <| ex_lo _ _
  · exact (ex_set _ (by decide)).trans <| (ex_hi _ _ (by decide)).trans <| (ex_hi _ _ (by decide)).trans <| ex_lo _ _
  · exact (ex_set _ (by decide)).trans <| (ex_hi _ _ (by decide)).trans <| ex_lo _ _

theorem visubW (p vd va vb) : Statement (.visubW p vd va vb) := by
  refine raw_visubW _ _ _ _ _ (congrArg BitVec.toNat (a₂ := 37#7) ?_) ?_ ?_ ?_ ?_
  · exact (ex_set _ (by decide)).trans <| (ex_hi _ _ (by decide)).trans <| (ex_hi _ _ (by decide)).trans <| (ex_hi _ _ (by decide)).trans <| (ex_hi _ _ (by decide)).trans <| (ex_hi _ _ (by decide)).trans <| ex_all _
  · exact (ex_set _ (by decide)).trans <| (ex_hi _ _ (by decide)).trans <| (ex_hi _ _ (by decide)).trans <| (ex_hi _ _ (by decide)).trans <| (ex_hi _ _ (by decide)).trans <| ex_lo _ _
  · exact (ex_set _ (by decide)).trans <| (ex_hi _ _ (by decide)).trans <| (ex_hi _ _ (by decide)).trans <| (ex_hi _ _ (by decide)).trans <| ex_lo _ _
  · exact (ex_set _ (by decide)).trans <| (ex_hi _ _ (by decide)).trans <| (ex_hi _ _ (by decide)).trans <| ex_lo _ _
  · exact (ex_set _ (by decide)).trans <| (ex_hi _ _ (by decide)).trans <| ex_lo _ _

theorem vimulB (p vd va vb) : Statement (.vimulB p vd va vb) := by
  refine raw_vimulB _ _ _ _ _ (congrArg BitVec.toNat (a₂ := 38#7) ?_) ?_ ?_ ?_ ?_
  · exact (ex_set _ (by decide)).trans <| (ex_hi _ _ (by decide)).trans <| (ex_hi _ _ (by decide)).trans <| (ex_hi _ _ (by decide)).trans <| (ex_hi _ _ (by decide)).trans <| (ex_hi _ _ (by decide)).trans <| ex_all _
  · exact (ex_set _ (by decide)).trans <| (ex_hi _ _ (by decide)).trans <| (ex_hi _ _ (by decide)).trans <| (ex_hi _ _ (by decide)).trans <| (ex_hi _ _ (by decide)).trans <| ex_lo _ _
  · exact (ex_set _ (by decide)).trans <| (ex_hi _ _ (by decide)).trans <| (ex_hi _ _ (by decide)).trans <| (ex_hi _ _ (by decide)).trans <| ex_lo _ _
  · exact (ex_set _ (by decide)).trans <| (ex_hi _ _ (by decide)).trans <| (ex_hi _ _ (by decide)).trans <| ex_lo _ _
  · exact (ex_set _ (by decide)).trans <| (ex_hi _ _ (by decide)).trans <| ex_lo _ _

theorem vimulH (p vd va vb) : Statement (.vimulH p vd va vb) := by
  refine raw_vimulH _ _ _ _ _ (congrArg BitVec.toNat (a₂ := 39#7) ?_) ?_ ?_ ?_ ?_
  · exact (ex_set _ (by decide)).trans <| (ex_hi _ _ (by decide)).trans <| (ex_hi _ _ (by decide)).trans <| (ex_hi _ _ (by decide)).trans <| (ex_hi _ _ (by decide)).trans <| (ex_hi _ _ (by decide)).trans <| ex_all _
  · exact (ex_set _ (by decide)).trans <| (ex_hi _ _ (by decide)).trans <| (ex_hi _ _ (by decide)).trans <| (ex_hi _ _ (by decide)).trans <| (ex_hi _ _ (by decide)).trans <| ex_lo _ _
  · exact (ex_set _ (by decide)).trans <| (ex_hi _ _ (by decide)).trans <| (ex_hi _ _ (by decide)).trans <| (ex_hi _ _ (by decide)).trans <| ex_lo _ _
  · exact (ex_set _ (by decide)).trans <| (ex_hi _ _ (by decide)).trans <| (ex_hi _ _ (by decide)).trans <| ex_lo _ _
  · exact (ex_set _ (by decide)).trans <| (ex_hi _ _ (by decide)).trans <| ex_lo _ _

theorem vimulW (p vd va vb) : Statement (.vimulW p vd va vb) := by
  refine raw_vimulW _ _ _ _ _ (congrArg BitVec.toNat (a₂ := 40#7) ?_) ?_ ?_ ?_ ?_
  · exact (ex_set _ (by decide)).trans <| (ex_hi _ _ (by decide)).trans <| (ex_hi _ _ (by decide)).trans <| (ex_hi _ _ (by decide)).trans <| (ex_hi _ _ (by decide)).trans <| (ex_hi _ _ (by decide)).trans <| ex_all _
  · exact (ex_set _ (by decide)).trans <| (ex_hi _ _ (by decide)).trans <| (ex_hi _ _ (by decide)).trans <| (ex_hi _ _ (by decide)).trans <| (ex_hi _ _ (by decide)).trans <| ex_lo _ _
  · exact (ex_set _ (by decide)).trans <| (ex_hi _ _ (by decide)).trans <| (ex_hi _ _ (by decide)).trans <| (ex_hi _ _ (by decide)).trans <| ex_lo _ _
  · exact (ex_set _ (by decide)).trans <| (ex_hi _ _ (by decide)).trans <| (ex_hi _ _ (by decide)).trans <| ex_lo _ _
  · exact (ex_set _ (by decide)).trans <| (ex_hi _ _ (by decide)).trans <| ex_lo _ _

theorem vimacB (p vd va vb vc) : Statement (.vimacB p vd va vb vc) := by
  refine raw_vimacB _ _ _ _ _ _ (congrArg BitVec.toNat (a₂ := 41#7) ?_) ?_ ?_ ?_ ?_ ?_
  · exact (ex_set _ (by decide)).trans <| (ex_hi _ _ (by decide)).trans <| (ex_hi _ _ (by decide)).trans <| (ex_hi _ _ (by decide)).trans <| (ex_hi _ _ (by decide)).trans <| (ex_hi _ _ (by decide)).trans <| ex_all _
  · exact (ex_set _ (by decide)).trans <| (ex_hi _ _ (by decide)).trans <| (ex_hi _ _ (by decide)).trans <| (ex_hi _ _ (by decide)).trans <| (ex_hi _ _ (by decide)).trans <| ex_lo _ _
  · exact (ex_set _ (by decide)).trans <| (ex_hi _ _ (by decide)).trans <| (ex_hi _ _ (by decide)).trans <| (ex_hi _ _ (by decide)).trans <| ex_lo _ _
  · exact (ex_set _ (by decide)).trans <| (ex_hi _ _ (by decide)).trans <| (ex_hi _ _ (by decide)).trans <| ex_lo _ _
  · exact (ex_set _ (by decide)).trans <| (ex_hi _ _ (by decide)).trans <| ex_lo _ _
  · exact (ex_set _ (by decide)).trans <| ex_lo _ _

theorem vimacH (p vd va vb vc) : Statement (.vimacH p vd va vb vc) := by
  refine raw_vimacH _ _ _ _ _ _ (congrArg BitVec.toNat (a₂ := 42#7) ?_) ?_ ?_ ?_ ?_ ?_
  · exact (ex_set _ (by decide)).trans <| (ex_hi _ _ (by decide)).trans <| (ex_hi _ _ (by decide)).trans <| (ex_hi _ _ (by decide)).trans <| (ex_hi _ _ (by decide)).trans <| (ex_hi _ _ (by decide)).trans <| ex_all _
  · exact (ex_set _ (by decide)).trans <| (ex_hi _ _ (by decide)).trans <| (ex_hi _ _ (by decide)).trans <| (ex_hi _ _ (by decide)).trans <| (ex_hi _ _ (by decide)).trans <| ex_lo _ _
  · exact (ex_set _ (by decide)).trans <| (ex_hi _ _ (by decide)).trans <| (ex_hi _ _ (by decide)).trans <| (ex_hi _ _ (by decide)).trans <| ex_lo _ _
  · exact (ex_set _ (by decide)).trans <| (ex_hi _ _ (by decide)).trans <| (ex_hi _ _ (by decide)).trans <| ex_lo _ _
  · exact (ex_set _ (by decide)).trans <| (ex_hi _ _ (by decide)).trans <| ex_lo _ _
  · exact (ex_set _ (by decide)).trans <| ex_lo _ _

theorem vimacW (p vd va vb vc) : Statement (.vimacW p vd va vb vc) := by
  refine raw_vimacW _ _ _ _ _ _ (congrArg BitVec.toNat (a₂ := 43#7) ?_) ?_ ?_ ?_ ?_ ?_
  · exact (ex_set _ (by decide)).trans <| (ex_hi _ _ (by decide)).trans <| (ex_hi _ _ (by decide)).trans <| (ex_hi _ _ (by decide)).trans <| (ex_hi _ _ (by decide)).trans <| (ex_hi _ _ (by decide)).trans <| ex_all _
  · exact (ex_set _ (by decide)).trans <| (ex_hi _ _ (by decide)).trans <| (ex_hi _ _ (by decide)).trans <| (ex_hi _ _ (by decide)).trans <| (ex_hi _ _ (by decide)).trans <| ex_lo _ _
  · exact (ex_set _ (by decide)).trans <| (ex_hi _ _ (by decide)).trans <| (ex_hi _ _ (by decide)).trans <| (ex_hi _ _ (by decide)).trans <| ex_lo _ _
  · exact (ex_set _ (by decide)).trans <| (ex_hi _ _ (by decide)).trans <| (ex_hi _ _ (by decide)).trans <| ex_lo _ _
  · exact (ex_set _ (by decide)).trans <| (ex_hi _ _ (by decide)).trans <| ex_lo _ _
  · exact (ex_set _ (by decide)).trans <| ex_lo _ _

theorem vand (p vd va vb) : Statement (.vand p vd va vb) := by
  refine raw_vand _ _ _ _ _ (congrArg BitVec.toNat (a₂ := 44#7) ?_) ?_ ?_ ?_ ?_
  · exact (ex_set _ (by decide)).trans <| (ex_hi _ _ (by decide)).trans <| (ex_hi _ _ (by decide)).trans <| (ex_hi _ _ (by decide)).trans <| (ex_hi _ _ (by decide)).trans <| (ex_hi _ _ (by decide)).trans <| ex_all _
  · exact (ex_set _ (by decide)).trans <| (ex_hi _ _ (by decide)).trans <| (ex_hi _ _ (by decide)).trans <| (ex_hi _ _ (by decide)).trans <| (ex_hi _ _ (by decide)).trans <| ex_lo _ _
  · exact (ex_set _ (by decide)).trans <| (ex_hi _ _ (by decide)).trans <| (ex_hi _ _ (by decide)).trans <| (ex_hi _ _ (by decide)).trans <| ex_lo _ _
  · exact (ex_set _ (by decide)).trans <| (ex_hi _ _ (by decide)).trans <| (ex_hi _ _ (by decide)).trans <| ex_lo _ _
  · exact (ex_set _ (by decide)).trans <| (ex_hi _ _ (by decide)).trans <| ex_lo _ _

theorem vor (p vd va vb) : Statement (.vor p vd va vb) := by
  refine raw_vor _ _ _ _ _ (congrArg BitVec.toNat (a₂ := 45#7) ?_) ?_ ?_ ?_ ?_
  · exact (ex_set _ (by decide)).trans <| (ex_hi _ _ (by decide)).trans <| (ex_hi _ _ (by decide)).trans <| (ex_hi _ _ (by decide)).trans <| (ex_hi _ _ (by decide)).trans <| (ex_hi _ _ (by decide)).trans <| ex_all _
  · exact (ex_set _ (by decide)).trans <| (ex_hi _ _ (by decide)).trans <| (ex_hi _ _ (by decide)).trans <| (ex_hi _ _ (by decide)).trans <| (ex_hi _ _ (by decide)).trans <| ex_lo _ _
  · exact (ex_set _ (by decide)).trans <| (ex_hi _ _ (by decide)).trans <| (ex_hi _ _ (by decide)).trans <| (ex_hi _ _ (by decide)).trans <| ex_lo _ _
  · exact (ex_set _ (by decide)).trans <| (ex_hi _ _ (by decide)).trans <| (ex_hi _ _ (by decide)).trans <| ex_lo _ _
  · exact (ex_set _ (by decide)).trans <| (ex_hi _ _ (by decide)).trans <| ex_lo _ _

theorem vxor (p vd va vb) : Statement (.vxor p vd va vb) := by
  refine raw_vxor _ _ _ _ _ (congrArg BitVec.toNat (a₂ := 46#7) ?_) ?_ ?_ ?_ ?_
  · exact (ex_set _ (by decide)).trans <| (ex_hi _ _ (by decide)).trans <| (ex_hi _ _ (by decide)).trans <| (ex_hi _ _ (by decide)).trans <| (ex_hi _ _ (by decide)).trans <| (ex_hi _ _ (by decide)).trans <| ex_all _
  · exact (ex_set _ (by decide)).trans <| (ex_hi _ _ (by decide)).trans <| (ex_hi _ _ (by decide)).trans <| (ex_hi _ _ (by decide)).trans <| (ex_hi _ _ (by decide)).trans <| ex_lo _ _
  · exact (ex_set _ (by decide)).trans <| (ex_hi _ _ (by decide)).trans <| (ex_hi _ _ (by decide)).trans <| (ex_hi _ _ (by decide)).trans <| ex_lo _ _
  · exact (ex_set _ (by decide)).trans <| (ex_hi _ _ (by decide)).trans <| (ex_hi _ _ (by decide)).trans <| ex_lo _ _
  · exact (ex_set _ (by decide)).trans <| (ex_hi _ _ (by decide)).trans <| ex_lo _ _

theorem vpopc (p vd va) : Statement (.vpopc p vd va) := by
  refine raw_vpopc _ _ _ _ (congrArg BitVec.toNat (a₂ := 47#7) ?_) ?_ ?_ ?_
  · exact (ex_set _ (by decide)).trans <| (ex_hi _ _ (by decide)).trans <| (ex_hi _ _ (by decide)).trans <| (ex_hi _ _ (by decide)).trans <| (ex_hi _ _ (by decide)).trans <| ex_all _
  · exact (ex_set _ (by decide)).trans <| (ex_hi _ _ (by decide)).trans <| (ex_hi _ _ (by decide)).trans <| (ex_hi _ _ (by decide)).trans <| ex_lo _ _
  · exact (ex_set _ (by decide)).trans <| (ex_hi _ _ (by decide)).trans <| (ex_hi _ _ (by decide)).trans <| ex_lo _ _
  · exact (ex_set _ (by decide)).trans <| (ex_hi _ _ (by decide)).trans <| ex_lo _ _

theorem viaddBScalar (p vd va sb) : Statement (.viaddBScalar p vd va sb) := by
  refine raw_viaddBScalar _ _ _ _ _ (congrArg BitVec.toNat (a₂ := 48#7) ?_) ?_ ?_ ?_ ?_
  · exact (ex_set _ (by decide)).trans <| (ex_hi _ _ (by decide)).trans <| (ex_hi _ _ (by decide)).trans <| (ex_hi _ _ (by decide)).trans <| (ex_hi _ _ (by decide)).trans <| (ex_hi _ _ (by decide)).trans <| ex_all _
  · exact (ex_set _ (by decide)).trans <| (ex_hi _ _ (by decide)).trans <| (ex_hi _ _ (by decide)).trans <| (ex_hi _ _ (by decide)).trans <| (ex_hi _ _ (by decide)).trans <| ex_lo _ _
  · exact (ex_set _ (by decide)).trans <| (ex_hi _ _ (by decide)).trans <| (ex_hi _ _ (by decide)).trans <| (ex_hi _ _ (by decide)).trans <| ex_lo _ _
  · exact (ex_set _ (by decide)).trans <| (ex_hi _ _ (by decide)).trans <| (ex_hi _ _ (by decide)).trans <| ex_lo _ _
  · exact (ex_set _ (by decide)).trans <| (ex_hi _ _ (by decide)).trans <| ex_lo _ _

theorem viaddHScalar (p vd va sb) : Statement (.viaddHScalar p vd va sb) := by
  refine raw_viaddHScalar _ _ _ _ _ (congrArg BitVec.toNat (a₂ := 49#7) ?_) ?_ ?_ ?_ ?_
  · exact (ex_set _ (by decide)).trans <| (ex_hi _ _ (by decide)).trans <| (ex_hi _ _ (by decide)).trans <| (ex_hi _ _ (by decide)).trans <| (ex_hi _ _ (by decide)).trans <| (ex_hi _ _ (by decide)).trans <| ex_all _
  · exact (ex_set _ (by decide)).trans <| (ex_hi _ _ (by decide)).trans <| (ex_hi _ _ (by decide)).trans <| (ex_hi _ _ (by decide)).trans <| (ex_hi _ _ (by decide)).trans <| ex_lo _ _
  · exact (ex_set _ (by decide)).trans <| (ex_hi _ _ (by decide)).trans <| (ex_hi _ _ (by decide)).trans <| (ex_hi _ _ (by decide)).trans <| ex_lo _ _
  · exact (ex_set _ (by decide)).trans <| (ex_hi _ _ (by decide)).trans <| (ex_hi _ _ (by decide)).trans <| ex_lo _ _
  · exact (ex_set _ (by decide)).trans <| (ex_hi _ _ (by decide)).trans <| ex_lo _ _

theorem viaddWScalar (p vd va sb) : Statement (.viaddWScalar p vd va sb) := by
  refine raw_viaddWScalar _ _ _ _ _ (congrArg BitVec.toNat (a₂ := 50#7) ?_) ?_ ?_ ?_ ?_
  · exact (ex_set _ (by decide)).trans <| (ex_hi _ _ (by decide)).trans <| (ex_hi _ _ (by decide)).trans <| (ex_hi _ _ (by decide)).trans <| (ex_hi _ _ (by decide)).trans <| (ex_hi _ _ (by decide)).trans <| ex_all _
  · exact (ex_set _ (by decide)).trans <| (ex_hi _ _ (by decide)).trans <| (ex_hi _ _ (by decide)).trans <| (ex_hi _ _ (by decide)).trans <| (ex_hi _ _ (by decide)).trans <| ex_lo _ _
  · exact (ex_set _ (by decide)).trans <| (ex_hi _ _ (by decide)).trans <| (ex_hi _ _ (by decide)).trans <| (ex_hi _ _ (by decide)).trans <| ex_lo _ _
  · exact (ex_set _ (by decide)).trans <| (ex_hi _ _ (by decide)).trans <| (ex_hi _ _ (by decide)).trans <| ex_lo _ _
  · exact (ex_set _ (by decide)).trans <| (ex_hi _ _ (by decide)).trans <| ex_lo _ _

theorem visubBScalar (p vd va sb) : Statement (.visubBScalar p vd va sb) := by
  refine raw_visubBScalar _ _ _ _ _ (congrArg BitVec.toNat (a₂ := 51#7) ?_) ?_ ?_ ?_ ?_
  · exact (ex_set _ (by decide)).trans <| (ex_hi _ _ (by decide)).trans <| (ex_hi _ _ (by decide)).trans <| (ex_hi _ _ (by decide)).trans <| (ex_hi _ _ (by decide)).trans <| (ex_hi _ _ (by decide)).trans <| ex_all _
  · exact (ex_set _ (by decide)).trans <| (ex_hi _ _ (by decide)).trans <| (ex_hi _ _ (by decide)).trans <| (ex_hi _ _ (by decide)).trans <| (ex_hi _ _ (by decide)).trans <| ex_lo _ _
  · exact (ex_set _ (by decide)).trans <| (ex_hi _ _ (by decide)).trans <| (ex_hi _ _ (by decide)).trans <| (ex_hi _ _ (by decide)).trans <| ex_lo _ _
  · exact (ex_set _ (by decide)).trans <| (ex_hi _ _ (by decide)).trans <| (ex_hi _ _ (by decide)).trans <| ex_lo _ _
  · exact (ex_set _ (by decide)).trans <| (ex_hi _ _ (by decide)).trans <| ex_lo _ _

theorem visubHScalar (p vd va sb) : Statement (.visubHScalar p vd va sb) := by
  refine raw_visubHScalar _ _ _ _ _ (congrArg BitVec.toNat (a₂ := 52#7) ?_) ?_ ?_ ?_ ?_
  · exact (ex_set _ (by decide)).trans <| (ex_hi _ _ (by decide)).trans <| (ex_hi _ _ (by decide)).trans <| (ex_hi _ _ (by decide)).trans <| (ex_hi _ _ (by decide)).trans <| (ex_hi _ _ (by decide)).trans <| ex_all _
  · exact (ex_set _ (by decide)).trans <| (ex_hi _ _ (by decide)).trans <| (ex_hi _ _ (by decide)).trans <| (ex_hi _ _ (by decide)).trans <| (ex_hi _ _ (by decide)).trans <| ex_lo _ _
  · exact (ex_set _ (by decide)).trans <| (ex_hi _ _ (by decide)).trans <| (ex_hi _ _ (by decide)).trans <| (ex_hi _ _ (by decide)).trans <| ex_lo _ _
  · exact (ex_set _ (by decide)).trans <| (ex_hi _ _ (by decide)).trans <| (ex_hi _ _ (by decide)).trans <| ex_lo _ _
  · exact (ex_set _ (by decide)).trans <| (ex_hi _ _ (by decide)).trans <| ex_lo _ _

theorem visubWScalar (p vd va sb) : Statement (.visubWScalar p vd va sb) := by
  refine raw_visubWScalar _ _ _ _ _ (congrArg BitVec.toNat (a₂ := 53#7) ?_) ?_ ?_ ?_ ?_
  · exact (ex_set _ (by decide)).trans <| (ex_hi _ _ (by decide)).trans <| (ex_hi _ _ (by decide)).trans <| (ex_hi _ _ (by decide)).trans <| (ex_hi _ _ (by decide)).trans <| (ex_hi _ _ (by decide)).trans <| ex_all _
  · exact (ex_set _ (by decide)).trans <| (ex_hi _ _ (by decide)).trans <| (ex_hi _ _ (by decide)).trans <| (ex_hi _ _ (by decide)).trans <| (ex_hi _ _ (by decide)).trans <| ex_lo _ _
  · exact (ex_set _ (by decide)).trans <| (ex_hi _ _ (by decide)).trans <| (ex_hi _ _ (by decide)).trans <| (ex_hi _ _ (by decide)).trans <| ex_lo _ _
  · exact (ex_set _ (by decide)).trans <| (ex_hi _ _ (by decide)).trans <| (ex_hi _ _ (by decide)).trans <| ex_lo _ _
  · exact (ex_set _ (by decide)).trans <| (ex_hi _ _ (by decide)).trans <| ex_lo _ _

theorem vimulBScalar (p vd va sb) : Statement (.vimulBScalar p vd va sb) := by
  refine raw_vimulBScalar _ _ _ _ _ (congrArg BitVec.toNat (a₂ := 54#7) ?_) ?_ ?_ ?_ ?_
  · exact (ex_set _ (by decide)).trans <| (ex_hi _ _ (by decide)).trans <| (ex_hi _ _ (by decide)).trans <| (ex_hi _ _ (by decide)).trans <| (ex_hi _ _ (by decide)).trans <| (ex_hi _ _ (by decide)).trans <| ex_all _
  · exact (ex_set _ (by decide)).trans <| (ex_hi _ _ (by decide)).trans <| (ex_hi _ _ (by decide)).trans <| (ex_hi _ _ (by decide)).trans <| (ex_hi _ _ (by decide)).trans <| ex_lo _ _
  · exact (ex_set _ (by decide)).trans <| (ex_hi _ _ (by decide)).trans <| (ex_hi _ _ (by decide)).trans <| (ex_hi _ _ (by decide)).trans <| ex_lo _ _
  · exact (ex_set _ (by decide)).trans <| (ex_hi _ _ (by decide)).trans <| (ex_hi _ _ (by decide)).trans <| ex_lo _ _
  · exact (ex_set _ (by decide)).trans <| (ex_hi _ _ (by decide)).trans <| ex_lo _ _

theorem vimulHScalar (p vd va sb) : Statement (.vimulHScalar p vd va sb) := by
  refine raw_vimulHScalar _ _ _ _ _ (congrArg BitVec.toNat (a₂ := 55#7) ?_) ?_ ?_ ?_ ?_
  · exact (ex_set _ (by decide)).trans <| (ex_hi _ _ (by decide)).trans <| (ex_hi _ _ (by decide)).trans <| (ex_hi _ _ (by decide)).trans <| (ex_hi _ _ (by decide)).trans <| (ex_hi _ _ (by decide)).trans <| ex_all _
  · exact (ex_set _ (by decide)).trans <| (ex_hi _ _ (by decide)).trans <| (ex_hi _ _ (by decide)).trans <| (ex_hi _ _ (by decide)).trans <| (ex_hi _ _ (by decide)).trans <| ex_lo _ _
  · exact (ex_set _ (by decide)).trans <| (ex_hi _ _ (by decide)).trans <| (ex_hi _ _ (by decide)).trans <| (ex_hi _ _ (by decide)).trans <| ex_lo _ _
  · exact (ex_set _ (by decide)).trans <| (ex_hi _ _ (by decide)).trans <| (ex_hi _ _ (by decide)).trans <| ex_lo _ _
  · exact (ex_set _ (by decide)).trans <| (ex_hi _ _ (by decide)).trans <| ex_lo _ _

theorem vimulWScalar (p vd va sb) : Statement (.vimulWScalar p vd va sb) := by
  refine raw_vimulWScalar _ _ _ _ _ (congrArg BitVec.toNat (a₂ := 56#7) ?_) ?_ ?_ ?_ ?_
  · exact (ex_set _ (by decide)).trans <| (ex_hi _ _ (by decide)).trans <| (ex_hi _ _ (by decide)).trans <| (ex_hi _ _ (by decide)).trans <| (ex_hi _ _ (by decide)).trans <| (ex_hi _ _ (by decide)).trans <| ex_all _
  · exact (ex_set _ (by decide)).trans <| (ex_hi _ _ (by decide)).trans <| (ex_hi _ _ (by decide)).trans <| (ex_hi _ _ (by decide)).trans <| (ex_hi _ _ (by decide)).trans <| ex_lo _ _
  · exact (ex_set _ (by decide)).trans <| (ex_hi _ _ (by decide)).trans <| (ex_hi _ _ (by decide)).trans <| (ex_hi _ _ (by decide)).trans <| ex_lo _ _
  · exact (ex_set _ (by decide)).trans <| (ex_hi _ _ (by decide)).trans <| (ex_hi _ _ (by decide)).trans <| ex_lo _ _
  · exact (ex_set _ (by decide)).trans <| (ex_hi _ _ (by decide)).trans <| ex_lo _ _

theorem vimacBScalar (p vd va sb vc) : Statement (.vimacBScalar p vd va sb vc) := by
  refine raw_vimacBScalar _ _ _ _ _ _ (congrArg BitVec.toNat (a₂ := 57#7) ?_) ?_ ?_ ?_ ?_ ?_
  · exact (ex_set _ (by decide)).trans <| (ex_hi _ _ (by decide)).trans <| (ex_hi _ _ (by decide)).trans <| (ex_hi _ _ (by decide)).trans <| (ex_hi _ _ (by decide)).trans <| (ex_hi _ _ (by decide)).trans <| (ex_hi _ _ (by decide)).trans <| ex_all _
  · exact (ex_set _ (by decide)).trans <| (ex_hi _ _ (by decide)).trans <| (ex_hi _ _ (by decide)).trans <| (ex_hi _ _ (by decide)).trans <| (ex_hi _ _ (by decide)).trans <| (ex_hi _ _ (by decide)).trans <| ex_lo _ _
  · exact (ex_set _ (by decide)).trans <| (ex_hi _ _ (by decide)).trans <| (ex_hi _ _ (by decide)).trans <| (ex_hi _ _ (by decide)).trans <| (ex_hi _ _ (by decide)).trans <| ex_lo _ _
  · exact (ex_set _ (by decide)).trans <| (ex_hi _ _ (by decide)).trans <| (ex_hi _ _ (by decide)).trans <| (ex_hi _ _ (by decide)).trans <| ex_lo _ _
  · exact (ex_set _ (by decide)).trans <| (ex_hi _ _ (by decide)).trans <| (ex_hi _ _ (by decide)).trans <| ex_lo _ _
  · exact (ex_set _ (by decide)).trans <| (ex_hi _ _ (by decide)).trans <| ex_lo _ _

theorem vimacHScalar (p vd va sb vc) : Statement (.vimacHScalar p vd va sb vc) := by
  refine raw_vimacHScalar _ _ _ _ _ _ (congrArg BitVec.toNat (a₂ := 58#7) ?_) ?_ ?_ ?_ ?_ ?_
  · exact (ex_set _ (by decide)).trans <| (ex_hi _ _ (by decide)).trans <| (ex_hi _ _ (by decide)).trans <| (ex_hi _ _ (by decide)).trans <| (ex_hi _ _ (by decide)).trans <| (ex_hi _ _ (by decide)).trans <| (ex_hi _ _ (by decide)).trans <| ex_all _
  · exact (ex_set _ (by decide)).trans <| (ex_hi _ _ (by decide)).trans <| (ex_hi _ _ (by decide)).trans <| (ex_hi _ _ (by decide)).trans <| (ex_hi _ _ (by decide)).trans <| (ex_hi _ _ (by decide)).trans <| ex_lo _ _
  · exact (ex_set _ (by decide)).trans <| (ex_hi _ _ (by decide)).trans <| (ex_hi _ _ (by decide)).trans <| (ex_hi _ _ (by decide)).trans <| (ex_hi _ _ (by decide)).trans <| ex_lo _ _
  · exact (ex_set _ (by decide)).trans <| (ex_hi _ _ (by decide)).trans <| (ex_hi _ _ (by decide)).trans <| (ex_hi _ _ (by decide)).trans <| ex_lo _ _
  · exact (ex_set _ (by decide)).trans <| (ex_hi _ _ (by decide)).trans <| (ex_hi _ _ (by decide)).trans <| ex_lo _ _
  · exact (ex_set _ (by decide)).trans <| (ex_hi _ _ (by decide)).trans <| ex_lo _ _

theorem vimacWScalar (p vd va sb vc) : Statement (.vimacWScalar p vd va sb vc) := by
  refine raw_vimacWScalar _ _ _ _ _ _ (congrArg BitVec.toNat (a₂ := 59#7) ?_) ?_ ?_ ?_ ?_ ?_
  · exact (ex_set _ (by decide)).trans <| (ex_hi _ _ (by decide)).trans <| (ex_hi _ _ (by decide)).trans <| (ex_hi _ _ (by decide)).trans <| (ex_hi _ _ (by decide)).trans <| (ex_hi _ _ (by decide)).trans <| (ex_hi _ _ (by decide)).trans <| ex_all _
  · exact (ex_set _ (by decide)).trans <| (ex_hi _ _ (by decide)).trans <| (ex_hi _ _ (by decide)).trans <| (ex_hi _ _ (by decide)).trans <| (ex_hi _ _ (by decide)).trans <| (ex_hi _ _ (by decide)).trans <| ex_lo _ _
  · exact (ex_set _ (by decide)).trans <| (ex_hi _ _ (by decide)).trans <| (ex_hi _ _ (by decide)).trans <| (ex_hi _ _ (by decide)).trans <| (ex_hi _ _ (by decide)).trans <| ex_lo _ _
  · exact (ex_set _ (by decide)).trans <| (ex_hi _ _ (by decide)).trans <| (ex_hi _ _ (by decide)).trans <| (ex_hi _ _ (by decide)).trans <| ex_lo _ _
  · exact (ex_set _ (by decide)).trans <| (ex_hi _ _ (by decide)).trans <| (ex_hi _ _ (by decide)).trans <| ex_lo _ _
  · exact (ex_set _ (by decide)).trans <| (ex_hi _ _ (by decide)).trans <| ex_lo _ _

theorem vshlB (p vd va amt) : Statement (.vshlB p vd va amt) := by
  refine raw_vshlB _ _ _ _ _ (congrArg BitVec.toNat (a₂ := 64#7) ?_) ?_ ?_ ?_ ?_
  · exact (ex_set _ (by decide)).trans <| (ex_hi _ _ (by decide)).trans <| (ex_hi _ _ (by decide)).trans <| (ex_hi _ _ (by decide)).trans <| (ex_hi _ _ (by decide)).trans <| (ex_hi _ _ (by decide)).trans <| ex_all _
  · exact (ex_set _ (by decide)).trans <| (ex_hi _ _ (by decide)).trans <| (ex_hi _ _ (by decide)).trans <| (ex_hi _ _ (by decide)).trans <| (ex_hi _ _ (by decide)).trans <| ex_lo _ _
  · exact (ex_set _ (by decide)).trans <| (ex_hi _ _ (by decide)).trans <| (ex_hi _ _ (by decide)).trans <| (ex_hi _ _ (by decide)).trans <| ex_lo _ _
  · exact (ex_set _ (by decide)).trans <| (ex_hi _ _ (by decide)).trans <| (ex_hi _ _ (by decide)).trans <| ex_lo _ _
  · exact (ex_set _ (by decide)).trans <| (ex_hi _ _ (by decide)).trans <| ex_lo _ _

theorem vshlH (p vd va amt) : Statement (.vshlH p vd va amt) := by
  refine raw_vshlH _ _ _ _ _ (congrArg BitVec.toNat (a₂ := 65#7) ?_) ?_ ?_ ?_ ?_
  · exact (ex_set _ (by decide)).trans <| (ex_hi _ _ (by decide)).trans <| (ex_hi _ _ (by decide)).trans <| (ex_hi _ _ (by decide)).trans <| (ex_hi _ _ (by decide)).trans <| (ex_hi _ _ (by decide)).trans <| ex_all _
  · exact (ex_set _ (by decide)).trans <| (ex_hi _ _ (by decide)).trans <| (ex_hi _ _ (by decide)).trans <| (ex_hi _ _ (by decide)).trans <| (ex_hi _ _ (by decide)).trans <| ex_lo _ _
  · exact (ex_set _ (by decide)).trans <| (ex_hi _ _ (by decide)).trans <| (ex_hi _ _ (by decide)).trans <| (ex_hi _ _ (by decide)).trans <| ex_lo _ _
  · exact (ex_set _ (by decide)).trans <| (ex_hi _ _ (by decide)).trans <| (ex_hi _ _ (by decide)).trans <| ex_lo _ _
  · exact (ex_set _ (by decide)).trans <| (ex_hi _ _ (by decide)).trans <| ex_lo _ _

theorem vshlW (p vd va amt) : Statement (.vshlW p vd va amt) := by
  refine raw_vshlW _ _ _ _ _ (congrArg BitVec.toNat (a₂ := 66#7) ?_) ?_ ?_ ?_ ?_
  · exact (ex_set _ (by decide)).trans <| (ex_hi _ _ (by decide)).trans <| (ex_hi _ _ (by decide)).trans <| (ex_hi _ _ (by decide)).trans <| (ex_hi _ _ (by decide)).trans <| (ex_hi _ _ (by decide)).trans <| ex_all _
  · exact (ex_set _ (by decide)).trans <| (ex_hi _ _ (by decide)).trans <| (ex_hi _ _ (by decide)).trans <| (ex_hi _ _ (by decide)).trans <| (ex_hi _ _ (by decide)).trans <| ex_lo _ _
  · exact (ex_set _ (by decide)).trans <| (ex_hi _ _ (by decide)).trans <| (ex_hi _ _ (by decide)).trans <| (ex_hi _ _ (by decide)).trans <| ex_lo _ _
  · exact (ex_set _ (by decide)).trans <| (ex_hi _ _ (by decide)).trans <| (ex_hi _ _ (by decide)).trans <| ex_lo _ _
  · exact (ex_set _ (by decide)).trans <| (ex_hi _ _ (by decide)).trans <| ex_lo _ _

theorem vshrB (p vd va amt) : Statement (.vshrB p vd va amt) := by
  refine raw_vshrB _ _ _ _ _ (congrArg BitVec.toNat (a₂ := 67#7) ?_) ?_ ?_ ?_ ?_
  · exact (ex_set _ (by decide)).trans <| (ex_hi _ _ (by decide)).trans <| (ex_hi _ _ (by decide)).trans <| (ex_hi _ _ (by decide)).trans <| (ex_hi _ _ (by decide)).trans <| (ex_hi _ _ (by decide)).trans <| ex_all _
  · exact (ex_set _ (by decide)).trans <| (ex_hi _ _ (by decide)).trans <| (ex_hi _ _ (by decide)).trans <| (ex_hi _ _ (by decide)).trans <| (ex_hi _ _ (by decide)).trans <| ex_lo _ _
  · exact (ex_set _ (by decide)).trans <| (ex_hi _ _ (by decide)).trans <| (ex_hi _ _ (by decide)).trans <| (ex_hi _ _ (by decide)).trans <| ex_lo _ _
  · exact (ex_set _ (by decide)).trans <| (ex_hi _ _ (by decide)).trans <| (ex_hi _ _ (by decide)).trans <| ex_lo _ _
  · exact (ex_set _ (by decide)).trans <| (ex_hi _ _ (by decide)).trans <| ex_lo _ _

theorem vshrH (p vd va amt) : Statement (.vshrH p vd va amt) := by
  refine raw_vshrH _ _ _ _ _ (congrArg BitVec.toNat (a₂ := 68#7) ?_) ?_ ?_ ?_ ?_
  · exact (ex_set _ (by decide)).trans <| (ex_hi _ _ (by decide)).trans <| (ex_hi _ _ (by decide)).trans <| (ex_hi _ _ (by decide)).trans <| (ex_hi _ _ (by decide)).trans <| (ex_hi _ _ (by decide)).trans <| ex_all _
  · exact (ex_set _ (by decide)).trans <| (ex_hi _ _ (by decide)).trans <| (ex_hi _ _ (by decide)).trans <| (ex_hi _ _ (by decide)).trans <| (ex_hi _ _ (by decide)).trans <| ex_lo _ _
  · exact (ex_set _ (by decide)).trans <| (ex_hi _ _ (by decide)).trans <| (ex_hi _ _ (by decide)).trans <| (ex_hi _ _ (by decide)).trans <| ex_lo _ _
  · exact (ex_set _ (by decide)).trans <| (ex_hi _ _ (by decide)).trans <| (ex_hi _ _ (by decide)).trans <| ex_lo _ _
  · exact (ex_set _ (by decide)).trans <| (ex_hi _ _ (by decide)).trans <| ex_lo _ _

theorem vshrW (p vd va amt) : Statement (.vshrW p vd va amt) := by
  refine raw_vshrW _ _ _ _ _ (congrArg BitVec.toNat (a₂ := 69#7) ?_) ?_ ?_ ?_ ?_
  · exact (ex_set _ (by decide)).trans <| (ex_hi _ _ (by decide)).trans <| (ex_hi _ _ (by decide)).trans <| (ex_hi _ _ (by decide)).trans <| (ex_hi _ _ (by decide)).trans <| (ex_hi _ _ (by decide)).trans <| ex_all _
  · exact (ex_set _ (by decide)).trans <| (ex_hi _ _ (by decide)).trans <| (ex_hi _ _ (by decide)).trans <| (ex_hi _ _ (by decide)).trans <| (ex_hi _ _ (by decide)).trans <| ex_lo _ _
  · exact (ex_set _ (by decide)).trans <| (ex_hi _ _ (by decide)).trans <| (ex_hi _ _ (by decide)).trans <| (ex_hi _ _ (by decide)).trans <| ex_lo _ _
  · exact (ex_set _ (by decide)).trans <| (ex_hi _ _ (by decide)).trans <| (ex_hi _ _ (by decide)).trans <| ex_lo _ _
  · exact (ex_set _ (by decide)).trans <| (ex_hi _ _ (by decide)).trans <| ex_lo _ _

theorem vsarB (p vd va amt) : Statement (.vsarB p vd va amt) := by
  refine raw_vsarB _ _ _ _ _ (congrArg BitVec.toNat (a₂ := 70#7) ?_) ?_ ?_ ?_ ?_
  · exact (ex_set _ (by decide)).trans <| (ex_hi _ _ (by decide)).trans <| (ex_hi _ _ (by decide)).trans <| (ex_hi _ _ (by decide)).trans <| (ex_hi _ _ (by decide)).trans <| (ex_hi _ _ (by decide)).trans <| ex_all _
  · exact (ex_set _ (by decide)).trans <| (ex_hi _ _ (by decide)).trans <| (ex_hi _ _ (by decide)).trans <| (ex_hi _ _ (by decide)).trans <| (ex_hi _ _ (by decide)).trans <| ex_lo _ _
  · exact (ex_set _ (by decide)).trans <| (ex_hi _ _ (by decide)).trans <| (ex_hi _ _ (by decide)).trans <| (ex_hi _ _ (by decide)).trans <| ex_lo _ _
  · exact (ex_set _ (by decide)).trans <| (ex_hi _ _ (by decide)).trans <| (ex_hi _ _ (by decide)).trans <| ex_lo _ _
  · exact (ex_set _ (by decide)).trans <| (ex_hi _ _ (by decide)).trans <| ex_lo _ _

theorem vsarH (p vd va amt) : Statement (.vsarH p vd va amt) := by
  refine raw_vsarH _ _ _ _ _ (congrArg BitVec.toNat (a₂ := 71#7) ?_) ?_ ?_ ?_ ?_
  · exact (ex_set _ (by decide)).trans <| (ex_hi _ _ (by decide)).trans <| (ex_hi _ _ (by decide)).trans <| (ex_hi _ _ (by decide)).trans <| (ex_hi _ _ (by decide)).trans <| (ex_hi _ _ (by decide)).trans <| ex_all _
  · exact (ex_set _ (by decide)).trans <| (ex_hi _ _ (by decide)).trans <| (ex_hi _ _ (by decide)).trans <| (ex_hi _ _ (by decide)).trans <| (ex_hi _ _ (by decide)).trans <| ex_lo _ _
  · exact (ex_set _ (by decide)).trans <| (ex_hi _ _ (by decide)).trans <| (ex_hi _ _ (by decide)).trans <| (ex_hi _ _ (by decide)).trans <| ex_lo _ _
  · exact (ex_set _ (by decide)).trans <| (ex_hi _ _ (by decide)).trans <| (ex_hi _ _ (by decide)).trans <| ex_lo _ _
  · exact (ex_set _ (by decide)).trans <| (ex_hi _ _ (by decide)).trans <| ex_lo _ _

theorem vsarW (p vd va amt) : Statement (.vsarW p vd va amt) := by
  refine raw_vsarW _ _ _ _ _ (congrArg BitVec.toNat (a₂ := 72#7) ?_) ?_ ?_ ?_ ?_
  · exact (ex_set _ (by decide)).trans <| (ex_hi _ _ (by decide)).trans <| (ex_hi _ _ (by decide)).trans <| (ex_hi _ _ (by decide)).trans <| (ex_hi _ _ (by decide)).trans <| (ex_hi _ _ (by decide)).trans <| ex_all _
  · exact (ex_set _ (by decide)).trans <| (ex_hi _ _ (by decide)).trans <| (ex_hi _ _ (by decide)).trans <| (ex_hi _ _ (by decide)).trans <| (ex_hi _ _ (by decide)).trans <| ex_lo _ _
  · exact (ex_set _ (by decide)).trans <| (ex_hi _ _ (by decide)).trans <| (ex_hi _ _ (by decide)).trans <| (ex_hi _ _ (by decide)).trans <| ex_lo _ _
  · exact (ex_set _ (by decide)).trans <| (ex_hi _ _ (by decide)).trans <| (ex_hi _ _ (by decide)).trans <| ex_lo _ _
  · exact (ex_set _ (by decide)).trans <| (ex_hi _ _ (by decide)).trans <| ex_lo _ _

theorem vcvt (p vd va sfmt dfmt) : Statement (.vcvt p vd va sfmt dfmt) := by
  refine raw_vcvt _ _ _ _ _ _ (congrArg BitVec.toNat (a₂ := 73#7) ?_) ?_ ?_ ?_ ?_ ?_
  · exact (ex_set _ (by decide)).trans <| (ex_hi _ _ (by decide)).trans <| (ex_hi _ _ (by decide)).trans <| (ex_hi _ _ (by decide)).trans <| (ex_hi _ _ (by decide)).trans <| (ex_hi _ _ (by decide)).trans <| (ex_hi _ _ (by decide)).trans <| ex_all _
  · exact (ex_set _ (by decide)).trans <| (ex_hi _ _ (by decide)).trans <| (ex_hi _ _ (by decide)).trans <| (ex_hi _ _ (by decide)).trans <| (ex_hi _ _ (by decide)).trans <| (ex_hi _ _ (by decide)).trans <| ex_lo _ _
  · exact (ex_set _ (by decide)).trans <| (ex_hi _ _ (by decide)).trans <| (ex_hi _ _ (by decide)).trans <| (ex_hi _ _ (by decide)).trans <| (ex_hi _ _ (by decide)).trans <| ex_lo _ _
  · exact (ex_set _ (by decide)).trans <| (ex_hi _ _ (by decide)).trans <| (ex_hi _ _ (by decide)).trans <| (ex_hi _ _ (by decide)).trans <| ex_lo _ _
  · exact (ex_set _ (by decide)).trans <| (ex_hi _ _ (by decide)).trans <| (ex_hi _ _ (by decide)).trans <| ex_lo _ _
  · exact (ex_set _ (by decide)).trans <| (ex_hi _ _ (by decide)).trans <| ex_lo _ _

theorem vcvtK (p vd va sfmt dfmt) : Statement (.vcvtK p vd va sfmt dfmt) := by
  refine raw_vcvtK _ _ _ _ _ _ (congrArg BitVec.toNat (a₂ := 74#7) ?_) ?_ ?_ ?_ ?_ ?_
  · exact (ex_set _ (by decide)).trans <| (ex_hi _ _ (by decide)).trans <| (ex_hi _ _ (by decide)).trans <| (ex_hi _ _ (by decide)).trans <| (ex_hi _ _ (by decide)).trans <| (ex_hi _ _ (by decide)).trans <| (ex_hi _ _ (by decide)).trans <| ex_all _
  · exact (ex_set _ (by decide)).trans <| (ex_hi _ _ (by decide)).trans <| (ex_hi _ _ (by decide)).trans <| (ex_hi _ _ (by decide)).trans <| (ex_hi _ _ (by decide)).trans <| (ex_hi _ _ (by decide)).trans <| ex_lo _ _
  · exact (ex_set _ (by decide)).trans <| (ex_hi _ _ (by decide)).trans <| (ex_hi _ _ (by decide)).trans <| (ex_hi _ _ (by decide)).trans <| (ex_hi _ _ (by decide)).trans <| ex_lo _ _
  · exact (ex_set _ (by decide)).trans <| (ex_hi _ _ (by decide)).trans <| (ex_hi _ _ (by decide)).trans <| (ex_hi _ _ (by decide)).trans <| ex_lo _ _
  · exact (ex_set _ (by decide)).trans <| (ex_hi _ _ (by decide)).trans <| (ex_hi _ _ (by decide)).trans <| ex_lo _ _
  · exact (ex_set _ (by decide)).trans <| (ex_hi _ _ (by decide)).trans <| ex_lo _ _

theorem vpack (p vd va vb ew3) : Statement (.vpack p vd va vb ew3) := by
  refine raw_vpack _ _ _ _ _ _ (congrArg BitVec.toNat (a₂ := 75#7) ?_) ?_ ?_ ?_ ?_ ?_
  · exact (ex_set _ (by decide)).trans <| (ex_hi _ _ (by decide)).trans <| (ex_hi _ _ (by decide)).trans <| (ex_hi _ _ (by decide)).trans <| (ex_hi _ _ (by decide)).trans <| (ex_hi _ _ (by decide)).trans <| (ex_hi _ _ (by decide)).trans <| ex_all _
  · exact (ex_set _ (by decide)).trans <| (ex_hi _ _ (by decide)).trans <| (ex_hi _ _ (by decide)).trans <| (ex_hi _ _ (by decide)).trans <| (ex_hi _ _ (by decide)).trans <| (ex_hi _ _ (by decide)).trans <| ex_lo _ _
  · exact (ex_set _ (by decide)).trans <| (ex_hi _ _ (by decide)).trans <| (ex_hi _ _ (by decide)).trans <| (ex_hi _ _ (by decide)).trans <| (ex_hi _ _ (by decide)).trans <| ex_lo _ _
  · exact (ex_set _ (by decide)).trans <| (ex_hi _ _ (by decide)).trans <| (ex_hi _ _ (by decide)).trans <| (ex_hi _ _ (by decide)).trans <| ex_lo _ _
  · exact (ex_set _ (by decide)).trans <| (ex_hi _ _ (by decide)).trans <| (ex_hi _ _ (by decide)).trans <| ex_lo _ _
  · exact (ex_set _ (by decide)).trans <| (ex_hi _ _ (by decide)).trans <| ex_lo _ _

theorem vunpk (p vd va ew3 part) : Statement (.vunpk p vd va ew3 part) := by
  refine raw_vunpk _ _ _ _ _ _ (congrArg BitVec.toNat (a₂ := 76#7) ?_) ?_ ?_ ?_ ?_ ?_
  · exact (ex_set _ (by decide)).trans <| (ex_hi _ _ (by decide)).trans <| (ex_hi _ _ (by decide)).trans <| (ex_hi _ _ (by decide)).trans <| (ex_hi _ _ (by decide)).trans <| (ex_hi _ _ (by decide)).trans <| (ex_hi _ _ (by decide)).trans <| ex_all _
  · exact (ex_set _ (by decide)).trans <| (ex_hi _ _ (by decide)).trans <| (ex_hi _ _ (by decide)).trans <| (ex_hi _ _ (by decide)).trans <| (ex_hi _ _ (by decide)).trans <| (ex_hi _ _ (by decide)).trans <| ex_lo _ _
  · exact (ex_set _ (by decide)).trans <| (ex_hi _ _ (by decide)).trans <| (ex_hi _ _ (by decide)).trans <| (ex_hi _ _ (by decide)).trans <| (ex_hi _ _ (by decide)).trans <| ex_lo _ _
  · exact (ex_set _ (by decide)).trans <| (ex_hi _ _ (by decide)).trans <| (ex_hi _ _ (by decide)).trans <| (ex_hi _ _ (by decide)).trans <| ex_lo _ _
  · exact (ex_set _ (by decide)).trans <| (ex_hi _ _ (by decide)).trans <| (ex_hi _ _ (by decide)).trans <| ex_lo _ _
  · exact (ex_set _ (by decide)).trans <| (ex_hi _ _ (by decide)).trans <| ex_lo _ _

theorem vperm (p vd va vb) : Statement (.vperm p vd va vb) := by
  refine raw_vperm _ _ _ _ _ (congrArg BitVec.toNat (a₂ := 80#7) ?_) ?_ ?_ ?_ ?_
  · exact (ex_set _ (by decide)).trans <| (ex_hi _ _ (by decide)).trans <| (ex_hi _ _ (by decide)).trans <| (ex_hi _ _ (by decide)).trans <| (ex_hi _ _ (by decide)).trans <| (ex_hi _ _ (by decide)).trans <| ex_all _
  · exact (ex_set _ (by decide)).trans <| (ex_hi _ _ (by decide)).trans <| (ex_hi _ _ (by decide)).trans <| (ex_hi _ _ (by decide)).trans <| (ex_hi _ _ (by decide)).trans <| ex_lo _ _
  · exact (ex_set _ (by decide)).trans <| (ex_hi _ _ (by decide)).trans <| (ex_hi _ _ (by decide)).trans <| (ex_hi _ _ (by decide)).trans <| ex_lo _ _
  · exact (ex_set _ (by decide)).trans <| (ex_hi _ _ (by decide)).trans <| (ex_hi _ _ (by decide)).trans <| ex_lo _ _
  · exact (ex_set _ (by decide)).trans <| (ex_hi _ _ (by decide)).trans <| ex_lo _ _

theorem vshuf (p vd va vb pattern) : Statement (.vshuf p vd va vb pattern) := by
  refine raw_vshuf _ _ _ _ _ _ (congrArg BitVec.toNat (a₂ := 81#7) ?_) ?_ ?_ ?_ ?_ ?_
  · exact (ex_set _ (by decide)).trans <| (ex_hi _ _ (by decide)).trans <| (ex_hi _ _ (by decide)).trans <| (ex_hi _ _ (by decide)).trans <| (ex_hi _ _ (by decide)).trans <| (ex_hi _ _ (by decide)).trans <| (ex_hi _ _ (by decide)).trans <| ex_all _
  · exact (ex_set _ (by decide)).trans <| (ex_hi _ _ (by decide)).trans <| (ex_hi _ _ (by decide)).trans <| (ex_hi _ _ (by decide)).trans <| (ex_hi _ _ (by decide)).trans <| (ex_hi _ _ (by decide)).trans <| ex_lo _ _
  · exact (ex_set _ (by decide)).trans <| (ex_hi _ _ (by decide)).trans <| (ex_hi _ _ (by decide)).trans <| (ex_hi _ _ (by decide)).trans <| (ex_hi _ _ (by decide)).trans <| ex_lo _ _
  · exact (ex_set _ (by decide)).trans <| (ex_hi _ _ (by decide)).trans <| (ex_hi _ _ (by decide)).trans <| (ex_hi _ _ (by decide)).trans <| ex_lo _ _
  · exact (ex_set _ (by decide)).trans <| (ex_hi _ _ (by decide)).trans <| (ex_hi _ _ (by decide)).trans <| ex_lo _ _
  · exact (ex_set _ (by decide)).trans <| (ex_hi _ _ (by decide)).trans <| ex_lo _ _

theorem vbcastScalar (p vd sa ew) : Statement (.vbcastScalar p vd sa ew) := by
  refine raw_vbcastScalar _ _ _ _ _ (congrArg BitVec.toNat (a₂ := 82#7) ?_) ?_ ?_ ?_ ?_
  · exact (ex_set _ (by decide)).trans <| (ex_hi _ _ (by decide)).trans <| (ex_hi _ _ (by decide)).trans <| (ex_hi _ _ (by decide)).trans <| (ex_hi _ _ (by decide)).trans <| (ex_hi _ _ (by decide)).trans <| ex_all _
  · exact (ex_set _ (by decide)).trans <| (ex_hi _ _ (by decide)).trans <| (ex_hi _ _ (by decide)).trans <| (ex_hi _ _ (by decide)).trans <| (ex_hi _ _ (by decide)).trans <| ex_lo _ _
  · exact (ex_set _ (by decide)).trans <| (ex_hi _ _ (by decide)).trans <| (ex_hi _ _ (by decide)).trans <| (ex_hi _ _ (by decide)).trans <| ex_lo _ _
  · exact (ex_set _ (by decide)).trans <| (ex_hi _ _ (by decide)).trans <| (ex_hi _ _ (by decide)).trans <| ex_lo _ _
  · exact (ex_set _ (by decide)).trans <| (ex_hi _ _ (by decide)).trans <| ex_lo _ _

theorem vbcastElement (p vd va idx ew) : Statement (.vbcastElement p vd va idx ew) := by
  refine raw_vbcastElement _ _ _ _ _ _ (congrArg BitVec.toNat (a₂ := 83#7) ?_) ?_ ?_ ?_ ?_ ?_
  · exact (ex_set _ (by decide)).trans <| (ex_hi _ _ (by decide)).trans <| (ex_hi _ _ (by decide)).trans <| (ex_hi _ _ (by decide)).trans <| (ex_hi _ _ (by decide)).trans <| (ex_hi _ _ (by decide)).trans <| (ex_hi _ _ (by decide)).trans <| ex_all _
  · exact (ex_set _ (by decide)).trans <| (ex_hi _ _ (by decide)).trans <| (ex_hi _ _ (by decide)).trans <| (ex_hi _ _ (by decide)).trans <| (ex_hi _ _ (by decide)).trans <| (ex_hi _ _ (by decide)).trans <| ex_lo _ _
  · exact (ex_set _ (by decide)).trans <| (ex_hi _ _ (by decide)).trans <| (ex_hi _ _ (by decide)).trans <| (ex_hi _ _ (by decide)).trans <| (ex_hi _ _ (by decide)).trans <| ex_lo _ _
  · exact (ex_set _ (by decide)).trans <| (ex_hi _ _ (by decide)).trans <| (ex_hi _ _ (by decide)).trans <| (ex_hi _ _ (by decide)).trans <| ex_lo _ _
  · exact (ex_set _ (by decide)).trans <| (ex_hi _ _ (by decide)).trans <| (ex_hi _ _ (by decide)).trans <| ex_lo _ _
  · exact (ex_set _ (by decide)).trans <| (ex_hi _ _ (by decide)).trans <| ex_lo _ _

theorem vextrImm (p sd va idx ew) : Statement (.vextrImm p sd va idx ew) := by
  refine raw_vextrImm _ _ _ _ _ _ (congrArg BitVec.toNat (a₂ := 84#7) ?_) ?_ ?_ ?_ ?_ ?_
  · exact (ex_set _ (by decide)).trans <| (ex_hi _ _ (by decide)).trans <| (ex_hi _ _ (by decide)).trans <| (ex_hi _ _ (by decide)).trans <| (ex_hi _ _ (by decide)).trans <| (ex_hi _ _ (by decide)).trans <| (ex_hi _ _ (by decide)).trans <| ex_all _
  · exact (ex_set _ (by decide)).trans <| (ex_hi _ _ (by decide)).trans <| (ex_hi _ _ (by decide)).trans <| (ex_hi _ _ (by decide)).trans <| (ex_hi _ _ (by decide)).trans <| (ex_hi _ _ (by decide)).trans <| ex_lo _ _
  · exact (ex_set _ (by decide)).trans <| (ex_hi _ _ (by decide)).trans <| (ex_hi _ _ (by decide)).trans <| (ex_hi _ _ (by decide)).trans <| (ex_hi _ _ (by decide)).trans <| ex_lo _ _
  · exact (ex_set _ (by decide)).trans <| (ex_hi _ _ (by decide)).trans <| (ex_hi _ _ (by decide)).trans <| (ex_hi _ _ (by decide)).trans <| ex_lo _ _
  · exact (ex_set _ (by decide)).trans <| (ex_hi _ _ (by decide)).trans <| (ex_hi _ _ (by decide)).trans <| ex_lo _ _
  · exact (ex_set _ (by decide)).trans <| (ex_hi _ _ (by decide)).trans <| ex_lo _ _

theorem vextrScalar (p sd va si ew) : Statement (.vextrScalar p sd va si ew) := by
  refine raw_vextrScalar _ _ _ _ _ _ (congrArg BitVec.toNat (a₂ := 85#7) ?_) ?_ ?_ ?_ ?_ ?_
  · exact (ex_set _ (by decide)).trans <| (ex_hi _ _ (by decide)).trans <| (ex_hi _ _ (by decide)).trans <| (ex_hi _ _ (by decide)).trans <| (ex_hi _ _ (by decide)).trans <| (ex_hi _ _ (by decide)).trans <| (ex_hi _ _ (by decide)).trans <| ex_all _
  · exact (ex_set _ (by decide)).trans <| (ex_hi _ _ (by decide)).trans <| (ex_hi _ _ (by decide)).trans <| (ex_hi _ _ (by decide)).trans <| (ex_hi _ _ (by decide)).trans <| (ex_hi _ _ (by decide)).trans <| ex_lo _ _
  · exact (ex_set _ (by decide)).trans <| (ex_hi _ _ (by decide)).trans <| (ex_hi _ _ (by decide)).trans <| (ex_hi _ _ (by decide)).trans <| (ex_hi _ _ (by decide)).trans <| ex_lo _ _
  · exact (ex_set _ (by decide)).trans <| (ex_hi _ _ (by decide)).trans <| (ex_hi _ _ (by decide)).trans <| (ex_hi _ _ (by decide)).trans <| ex_lo _ _
  · exact (ex_set _ (by decide)).trans <| (ex_hi _ _ (by decide)).trans <| (ex_hi _ _ (by decide)).trans <| ex_lo _ _
  · exact (ex_set _ (by decide)).trans <| (ex_hi _ _ (by decide)).trans <| ex_lo _ _

theorem vinsImm (p vd va sa idx ew) : Statement (.vinsImm p vd va sa idx ew) := by
  refine raw_vinsImm _ _ _ _ _ _ _ (congrArg BitVec.toNat (a₂ := 86#7) ?_) ?_ ?_ ?_ ?_ ?_ ?_
  · exact (ex_set _ (by decide)).trans <| (ex_hi _ _ (by decide)).trans <| (ex_hi _ _ (by decide)).trans <| (ex_hi _ _ (by decide)).trans <| (ex_hi _ _ (by decide)).trans <| (ex_hi _ _ (by decide)).trans <| (ex_hi _ _ (by decide)).trans <| (ex_hi _ _ (by decide)).trans <| ex_all _
  · exact (ex_set _ (by decide)).trans <| (ex_hi _ _ (by decide)).trans <| (ex_hi _ _ (by decide)).trans <| (ex_hi _ _ (by decide)).trans <| (ex_hi _ _ (by decide)).trans <| (ex_hi _ _ (by decide)).trans <| (ex_hi _ _ (by decide)).trans <| ex_lo _ _
  · exact (ex_set _ (by decide)).trans <| (ex_hi _ _ (by decide)).trans <| (ex_hi _ _ (by decide)).trans <| (ex_hi _ _ (by decide)).trans <| (ex_hi _ _ (by decide)).trans <| (ex_hi _ _ (by decide)).trans <| ex_lo _ _
  · exact (ex_set _ (by decide)).trans <| (ex_hi _ _ (by decide)).trans <| (ex_hi _ _ (by decide)).trans <| (ex_hi _ _ (by decide)).trans <| (ex_hi _ _ (by decide)).trans <| ex_lo _ _
  · exact (ex_set _ (by decide)).trans <| (ex_hi _ _ (by decide)).trans <| (ex_hi _ _ (by decide)).trans <| (ex_hi _ _ (by decide)).trans <| ex_lo _ _
  · exact (ex_set _ (by decide)).trans <| (ex_hi _ _ (by decide)).trans <| (ex_hi _ _ (by decide)).trans <| ex_lo _ _
  · exact (ex_set _ (by decide)).trans <| (ex_hi _ _ (by decide)).trans <| ex_lo _ _

theorem vinsScalar (p vd va sa si ew) : Statement (.vinsScalar p vd va sa si ew) := by
  refine raw_vinsScalar _ _ _ _ _ _ _ (congrArg BitVec.toNat (a₂ := 87#7) ?_) ?_ ?_ ?_ ?_ ?_ ?_
  · exact (ex_set _ (by decide)).trans <| (ex_hi _ _ (by decide)).trans <| (ex_hi _ _ (by decide)).trans <| (ex_hi _ _ (by decide)).trans <| (ex_hi _ _ (by decide)).trans <| (ex_hi _ _ (by decide)).trans <| (ex_hi _ _ (by decide)).trans <| (ex_hi _ _ (by decide)).trans <| ex_all _
  · exact (ex_set _ (by decide)).trans <| (ex_hi _ _ (by decide)).trans <| (ex_hi _ _ (by decide)).trans <| (ex_hi _ _ (by decide)).trans <| (ex_hi _ _ (by decide)).trans <| (ex_hi _ _ (by decide)).trans <| (ex_hi _ _ (by decide)).trans <| ex_lo _ _
  · exact (ex_set _ (by decide)).trans <| (ex_hi _ _ (by decide)).trans <| (ex_hi _ _ (by decide)).trans <| (ex_hi _ _ (by decide)).trans <| (ex_hi _ _ (by decide)).trans <| (ex_hi _ _ (by decide)).trans <| ex_lo _ _
  · exact (ex_set _ (by decide)).trans <| (ex_hi _ _ (by decide)).trans <| (ex_hi _ _ (by decide)).trans <| (ex_hi _ _ (by decide)).trans <| (ex_hi _ _ (by decide)).trans <| ex_lo _ _
  · exact (ex_set _ (by decide)).trans <| (ex_hi _ _ (by decide)).trans <| (ex_hi _ _ (by decide)).trans <| (ex_hi _ _ (by decide)).trans <| ex_lo _ _
  · exact (ex_set _ (by decide)).trans <| (ex_hi _ _ (by decide)).trans <| (ex_hi _ _ (by decide)).trans <| ex_lo _ _
  · exact (ex_set _ (by decide)).trans <| (ex_hi _ _ (by decide)).trans <| ex_lo _ _

theorem vmov (p vd va) : Statement (.vmov p vd va) := by
  refine raw_vmov _ _ _ _ (congrArg BitVec.toNat (a₂ := 88#7) ?_) ?_ ?_ ?_
  · exact (ex_set _ (by decide)).trans <| (ex_hi _ _ (by decide)).trans <| (ex_hi _ _ (by decide)).trans <| (ex_hi _ _ (by decide)).trans <| (ex_hi _ _ (by decide)).trans <| ex_all _
  · exact (ex_set _ (by decide)).trans <| (ex_hi _ _ (by decide)).trans <| (ex_hi _ _ (by decide)).trans <| (ex_hi _ _ (by decide)).trans <| ex_lo _ _
  · exact (ex_set _ (by decide)).trans <| (ex_hi _ _ (by decide)).trans <| (ex_hi _ _ (by decide)).trans <| ex_lo _ _
  · exact (ex_set _ (by decide)).trans <| (ex_hi _ _ (by decide)).trans <| ex_lo _ _

theorem vrng (p vd sseed sseq spos draw) : Statement (.vrng p vd sseed sseq spos draw) := by
  refine raw_vrng _ _ _ _ _ _ _ (congrArg BitVec.toNat (a₂ := 89#7) ?_) ?_ ?_ ?_ ?_ ?_ ?_
  · exact (ex_set _ (by decide)).trans <| (ex_hi _ _ (by decide)).trans <| (ex_hi _ _ (by decide)).trans <| (ex_hi _ _ (by decide)).trans <| (ex_hi _ _ (by decide)).trans <| (ex_hi _ _ (by decide)).trans <| (ex_hi _ _ (by decide)).trans <| (ex_hi _ _ (by decide)).trans <| ex_all _
  · exact (ex_set _ (by decide)).trans <| (ex_hi _ _ (by decide)).trans <| (ex_hi _ _ (by decide)).trans <| (ex_hi _ _ (by decide)).trans <| (ex_hi _ _ (by decide)).trans <| (ex_hi _ _ (by decide)).trans <| (ex_hi _ _ (by decide)).trans <| ex_lo _ _
  · exact (ex_set _ (by decide)).trans <| (ex_hi _ _ (by decide)).trans <| (ex_hi _ _ (by decide)).trans <| (ex_hi _ _ (by decide)).trans <| (ex_hi _ _ (by decide)).trans <| (ex_hi _ _ (by decide)).trans <| ex_lo _ _
  · exact (ex_set _ (by decide)).trans <| (ex_hi _ _ (by decide)).trans <| (ex_hi _ _ (by decide)).trans <| (ex_hi _ _ (by decide)).trans <| (ex_hi _ _ (by decide)).trans <| ex_lo _ _
  · exact (ex_set _ (by decide)).trans <| (ex_hi _ _ (by decide)).trans <| (ex_hi _ _ (by decide)).trans <| (ex_hi _ _ (by decide)).trans <| ex_lo _ _
  · exact (ex_set _ (by decide)).trans <| (ex_hi _ _ (by decide)).trans <| (ex_hi _ _ (by decide)).trans <| ex_lo _ _
  · exact (ex_set _ (by decide)).trans <| (ex_hi _ _ (by decide)).trans <| ex_lo _ _

theorem vrngF (p vd sseed sseq spos draw) : Statement (.vrngF p vd sseed sseq spos draw) := by
  refine raw_vrngF _ _ _ _ _ _ _ (congrArg BitVec.toNat (a₂ := 90#7) ?_) ?_ ?_ ?_ ?_ ?_ ?_
  · exact (ex_set _ (by decide)).trans <| (ex_hi _ _ (by decide)).trans <| (ex_hi _ _ (by decide)).trans <| (ex_hi _ _ (by decide)).trans <| (ex_hi _ _ (by decide)).trans <| (ex_hi _ _ (by decide)).trans <| (ex_hi _ _ (by decide)).trans <| (ex_hi _ _ (by decide)).trans <| ex_all _
  · exact (ex_set _ (by decide)).trans <| (ex_hi _ _ (by decide)).trans <| (ex_hi _ _ (by decide)).trans <| (ex_hi _ _ (by decide)).trans <| (ex_hi _ _ (by decide)).trans <| (ex_hi _ _ (by decide)).trans <| (ex_hi _ _ (by decide)).trans <| ex_lo _ _
  · exact (ex_set _ (by decide)).trans <| (ex_hi _ _ (by decide)).trans <| (ex_hi _ _ (by decide)).trans <| (ex_hi _ _ (by decide)).trans <| (ex_hi _ _ (by decide)).trans <| (ex_hi _ _ (by decide)).trans <| ex_lo _ _
  · exact (ex_set _ (by decide)).trans <| (ex_hi _ _ (by decide)).trans <| (ex_hi _ _ (by decide)).trans <| (ex_hi _ _ (by decide)).trans <| (ex_hi _ _ (by decide)).trans <| ex_lo _ _
  · exact (ex_set _ (by decide)).trans <| (ex_hi _ _ (by decide)).trans <| (ex_hi _ _ (by decide)).trans <| (ex_hi _ _ (by decide)).trans <| ex_lo _ _
  · exact (ex_set _ (by decide)).trans <| (ex_hi _ _ (by decide)).trans <| (ex_hi _ _ (by decide)).trans <| ex_lo _ _
  · exact (ex_set _ (by decide)).trans <| (ex_hi _ _ (by decide)).trans <| ex_lo _ _

theorem tapp (p tap seq va rows) : Statement (.tapp p tap seq va rows) := by
  refine raw_tapp _ _ _ _ _ _ (congrArg BitVec.toNat (a₂ := 92#7) ?_) ?_ ?_ ?_ ?_ ?_
  · exact (ex_set _ (by decide)).trans <| (ex_hi _ _ (by decide)).trans <| (ex_hi _ _ (by decide)).trans <| (ex_hi _ _ (by decide)).trans <| (ex_hi _ _ (by decide)).trans <| (ex_hi _ _ (by decide)).trans <| (ex_hi _ _ (by decide)).trans <| ex_all _
  · exact (ex_set _ (by decide)).trans <| (ex_hi _ _ (by decide)).trans <| (ex_hi _ _ (by decide)).trans <| (ex_hi _ _ (by decide)).trans <| (ex_hi _ _ (by decide)).trans <| (ex_hi _ _ (by decide)).trans <| ex_lo _ _
  · exact (ex_set _ (by decide)).trans <| (ex_hi _ _ (by decide)).trans <| (ex_hi _ _ (by decide)).trans <| (ex_hi _ _ (by decide)).trans <| (ex_hi _ _ (by decide)).trans <| ex_lo _ _
  · exact (ex_set _ (by decide)).trans <| (ex_hi _ _ (by decide)).trans <| (ex_hi _ _ (by decide)).trans <| (ex_hi _ _ (by decide)).trans <| ex_lo _ _
  · exact (ex_set _ (by decide)).trans <| (ex_hi _ _ (by decide)).trans <| (ex_hi _ _ (by decide)).trans <| ex_lo _ _
  · exact (ex_set _ (by decide)).trans <| (ex_hi _ _ (by decide)).trans <| ex_lo _ _

theorem taps (p tap seq va rows sc) : Statement (.taps p tap seq va rows sc) := by
  refine raw_taps _ _ _ _ _ _ _ (congrArg BitVec.toNat (a₂ := 93#7) ?_) ?_ ?_ ?_ ?_ ?_ ?_
  · exact (ex_set _ (by decide)).trans <| (ex_hi _ _ (by decide)).trans <| (ex_hi _ _ (by decide)).trans <| (ex_hi _ _ (by decide)).trans <| (ex_hi _ _ (by decide)).trans <| (ex_hi _ _ (by decide)).trans <| (ex_hi _ _ (by decide)).trans <| (ex_hi _ _ (by decide)).trans <| ex_all _
  · exact (ex_set _ (by decide)).trans <| (ex_hi _ _ (by decide)).trans <| (ex_hi _ _ (by decide)).trans <| (ex_hi _ _ (by decide)).trans <| (ex_hi _ _ (by decide)).trans <| (ex_hi _ _ (by decide)).trans <| (ex_hi _ _ (by decide)).trans <| ex_lo _ _
  · exact (ex_set _ (by decide)).trans <| (ex_hi _ _ (by decide)).trans <| (ex_hi _ _ (by decide)).trans <| (ex_hi _ _ (by decide)).trans <| (ex_hi _ _ (by decide)).trans <| (ex_hi _ _ (by decide)).trans <| ex_lo _ _
  · exact (ex_set _ (by decide)).trans <| (ex_hi _ _ (by decide)).trans <| (ex_hi _ _ (by decide)).trans <| (ex_hi _ _ (by decide)).trans <| (ex_hi _ _ (by decide)).trans <| ex_lo _ _
  · exact (ex_set _ (by decide)).trans <| (ex_hi _ _ (by decide)).trans <| (ex_hi _ _ (by decide)).trans <| (ex_hi _ _ (by decide)).trans <| ex_lo _ _
  · exact (ex_set _ (by decide)).trans <| (ex_hi _ _ (by decide)).trans <| (ex_hi _ _ (by decide)).trans <| ex_lo _ _
  · exact (ex_set _ (by decide)).trans <| (ex_hi _ _ (by decide)).trans <| ex_lo _ _

theorem tapld (p tap sa) : Statement (.tapld p tap sa) := by
  refine raw_tapld _ _ _ _ (congrArg BitVec.toNat (a₂ := 94#7) ?_) ?_ ?_ ?_
  · exact (ex_set _ (by decide)).trans <| (ex_hi _ _ (by decide)).trans <| (ex_hi _ _ (by decide)).trans <| (ex_hi _ _ (by decide)).trans <| (ex_hi _ _ (by decide)).trans <| ex_all _
  · exact (ex_set _ (by decide)).trans <| (ex_hi _ _ (by decide)).trans <| (ex_hi _ _ (by decide)).trans <| (ex_hi _ _ (by decide)).trans <| ex_lo _ _
  · exact (ex_set _ (by decide)).trans <| (ex_hi _ _ (by decide)).trans <| (ex_hi _ _ (by decide)).trans <| ex_lo _ _
  · exact (ex_set _ (by decide)).trans <| (ex_hi _ _ (by decide)).trans <| ex_lo _ _

theorem taprd (p sd tap what) : Statement (.taprd p sd tap what) := by
  refine raw_taprd _ _ _ _ _ (congrArg BitVec.toNat (a₂ := 95#7) ?_) ?_ ?_ ?_ ?_
  · exact (ex_set _ (by decide)).trans <| (ex_hi _ _ (by decide)).trans <| (ex_hi _ _ (by decide)).trans <| (ex_hi _ _ (by decide)).trans <| (ex_hi _ _ (by decide)).trans <| (ex_hi _ _ (by decide)).trans <| ex_all _
  · exact (ex_set _ (by decide)).trans <| (ex_hi _ _ (by decide)).trans <| (ex_hi _ _ (by decide)).trans <| (ex_hi _ _ (by decide)).trans <| (ex_hi _ _ (by decide)).trans <| ex_lo _ _
  · exact (ex_set _ (by decide)).trans <| (ex_hi _ _ (by decide)).trans <| (ex_hi _ _ (by decide)).trans <| (ex_hi _ _ (by decide)).trans <| ex_lo _ _
  · exact (ex_set _ (by decide)).trans <| (ex_hi _ _ (by decide)).trans <| (ex_hi _ _ (by decide)).trans <| ex_lo _ _
  · exact (ex_set _ (by decide)).trans <| (ex_hi _ _ (by decide)).trans <| ex_lo _ _

theorem vredsumF (p vd va) : Statement (.vredsumF p vd va) := by
  refine raw_vredsumF _ _ _ _ (congrArg BitVec.toNat (a₂ := 96#7) ?_) ?_ ?_ ?_
  · exact (ex_set _ (by decide)).trans <| (ex_hi _ _ (by decide)).trans <| (ex_hi _ _ (by decide)).trans <| (ex_hi _ _ (by decide)).trans <| (ex_hi _ _ (by decide)).trans <| ex_all _
  · exact (ex_set _ (by decide)).trans <| (ex_hi _ _ (by decide)).trans <| (ex_hi _ _ (by decide)).trans <| (ex_hi _ _ (by decide)).trans <| ex_lo _ _
  · exact (ex_set _ (by decide)).trans <| (ex_hi _ _ (by decide)).trans <| (ex_hi _ _ (by decide)).trans <| ex_lo _ _
  · exact (ex_set _ (by decide)).trans <| (ex_hi _ _ (by decide)).trans <| ex_lo _ _

theorem vredsumI (p vd va) : Statement (.vredsumI p vd va) := by
  refine raw_vredsumI _ _ _ _ (congrArg BitVec.toNat (a₂ := 97#7) ?_) ?_ ?_ ?_
  · exact (ex_set _ (by decide)).trans <| (ex_hi _ _ (by decide)).trans <| (ex_hi _ _ (by decide)).trans <| (ex_hi _ _ (by decide)).trans <| (ex_hi _ _ (by decide)).trans <| ex_all _
  · exact (ex_set _ (by decide)).trans <| (ex_hi _ _ (by decide)).trans <| (ex_hi _ _ (by decide)).trans <| (ex_hi _ _ (by decide)).trans <| ex_lo _ _
  · exact (ex_set _ (by decide)).trans <| (ex_hi _ _ (by decide)).trans <| (ex_hi _ _ (by decide)).trans <| ex_lo _ _
  · exact (ex_set _ (by decide)).trans <| (ex_hi _ _ (by decide)).trans <| ex_lo _ _

theorem vredmaxF (p vd va) : Statement (.vredmaxF p vd va) := by
  refine raw_vredmaxF _ _ _ _ (congrArg BitVec.toNat (a₂ := 98#7) ?_) ?_ ?_ ?_
  · exact (ex_set _ (by decide)).trans <| (ex_hi _ _ (by decide)).trans <| (ex_hi _ _ (by decide)).trans <| (ex_hi _ _ (by decide)).trans <| (ex_hi _ _ (by decide)).trans <| ex_all _
  · exact (ex_set _ (by decide)).trans <| (ex_hi _ _ (by decide)).trans <| (ex_hi _ _ (by decide)).trans <| (ex_hi _ _ (by decide)).trans <| ex_lo _ _
  · exact (ex_set _ (by decide)).trans <| (ex_hi _ _ (by decide)).trans <| (ex_hi _ _ (by decide)).trans <| ex_lo _ _
  · exact (ex_set _ (by decide)).trans <| (ex_hi _ _ (by decide)).trans <| ex_lo _ _

theorem vredmaxSi (p vd va) : Statement (.vredmaxSi p vd va) := by
  refine raw_vredmaxSi _ _ _ _ (congrArg BitVec.toNat (a₂ := 99#7) ?_) ?_ ?_ ?_
  · exact (ex_set _ (by decide)).trans <| (ex_hi _ _ (by decide)).trans <| (ex_hi _ _ (by decide)).trans <| (ex_hi _ _ (by decide)).trans <| (ex_hi _ _ (by decide)).trans <| ex_all _
  · exact (ex_set _ (by decide)).trans <| (ex_hi _ _ (by decide)).trans <| (ex_hi _ _ (by decide)).trans <| (ex_hi _ _ (by decide)).trans <| ex_lo _ _
  · exact (ex_set _ (by decide)).trans <| (ex_hi _ _ (by decide)).trans <| (ex_hi _ _ (by decide)).trans <| ex_lo _ _
  · exact (ex_set _ (by decide)).trans <| (ex_hi _ _ (by decide)).trans <| ex_lo _ _

theorem vredminF (p vd va) : Statement (.vredminF p vd va) := by
  refine raw_vredminF _ _ _ _ (congrArg BitVec.toNat (a₂ := 100#7) ?_) ?_ ?_ ?_
  · exact (ex_set _ (by decide)).trans <| (ex_hi _ _ (by decide)).trans <| (ex_hi _ _ (by decide)).trans <| (ex_hi _ _ (by decide)).trans <| (ex_hi _ _ (by decide)).trans <| ex_all _
  · exact (ex_set _ (by decide)).trans <| (ex_hi _ _ (by decide)).trans <| (ex_hi _ _ (by decide)).trans <| (ex_hi _ _ (by decide)).trans <| ex_lo _ _
  · exact (ex_set _ (by decide)).trans <| (ex_hi _ _ (by decide)).trans <| (ex_hi _ _ (by decide)).trans <| ex_lo _ _
  · exact (ex_set _ (by decide)).trans <| (ex_hi _ _ (by decide)).trans <| ex_lo _ _

theorem vredminSi (p vd va) : Statement (.vredminSi p vd va) := by
  refine raw_vredminSi _ _ _ _ (congrArg BitVec.toNat (a₂ := 101#7) ?_) ?_ ?_ ?_
  · exact (ex_set _ (by decide)).trans <| (ex_hi _ _ (by decide)).trans <| (ex_hi _ _ (by decide)).trans <| (ex_hi _ _ (by decide)).trans <| (ex_hi _ _ (by decide)).trans <| ex_all _
  · exact (ex_set _ (by decide)).trans <| (ex_hi _ _ (by decide)).trans <| (ex_hi _ _ (by decide)).trans <| (ex_hi _ _ (by decide)).trans <| ex_lo _ _
  · exact (ex_set _ (by decide)).trans <| (ex_hi _ _ (by decide)).trans <| (ex_hi _ _ (by decide)).trans <| ex_lo _ _
  · exact (ex_set _ (by decide)).trans <| (ex_hi _ _ (by decide)).trans <| ex_lo _ _

theorem vargmax (p vd va) : Statement (.vargmax p vd va) := by
  refine raw_vargmax _ _ _ _ (congrArg BitVec.toNat (a₂ := 102#7) ?_) ?_ ?_ ?_
  · exact (ex_set _ (by decide)).trans <| (ex_hi _ _ (by decide)).trans <| (ex_hi _ _ (by decide)).trans <| (ex_hi _ _ (by decide)).trans <| (ex_hi _ _ (by decide)).trans <| ex_all _
  · exact (ex_set _ (by decide)).trans <| (ex_hi _ _ (by decide)).trans <| (ex_hi _ _ (by decide)).trans <| (ex_hi _ _ (by decide)).trans <| ex_lo _ _
  · exact (ex_set _ (by decide)).trans <| (ex_hi _ _ (by decide)).trans <| (ex_hi _ _ (by decide)).trans <| ex_lo _ _
  · exact (ex_set _ (by decide)).trans <| (ex_hi _ _ (by decide)).trans <| ex_lo _ _

theorem vscanF (p vd va) : Statement (.vscanF p vd va) := by
  refine raw_vscanF _ _ _ _ (congrArg BitVec.toNat (a₂ := 103#7) ?_) ?_ ?_ ?_
  · exact (ex_set _ (by decide)).trans <| (ex_hi _ _ (by decide)).trans <| (ex_hi _ _ (by decide)).trans <| (ex_hi _ _ (by decide)).trans <| (ex_hi _ _ (by decide)).trans <| ex_all _
  · exact (ex_set _ (by decide)).trans <| (ex_hi _ _ (by decide)).trans <| (ex_hi _ _ (by decide)).trans <| (ex_hi _ _ (by decide)).trans <| ex_lo _ _
  · exact (ex_set _ (by decide)).trans <| (ex_hi _ _ (by decide)).trans <| (ex_hi _ _ (by decide)).trans <| ex_lo _ _
  · exact (ex_set _ (by decide)).trans <| (ex_hi _ _ (by decide)).trans <| ex_lo _ _

theorem vscanI (p vd va) : Statement (.vscanI p vd va) := by
  refine raw_vscanI _ _ _ _ (congrArg BitVec.toNat (a₂ := 104#7) ?_) ?_ ?_ ?_
  · exact (ex_set _ (by decide)).trans <| (ex_hi _ _ (by decide)).trans <| (ex_hi _ _ (by decide)).trans <| (ex_hi _ _ (by decide)).trans <| (ex_hi _ _ (by decide)).trans <| ex_all _
  · exact (ex_set _ (by decide)).trans <| (ex_hi _ _ (by decide)).trans <| (ex_hi _ _ (by decide)).trans <| (ex_hi _ _ (by decide)).trans <| ex_lo _ _
  · exact (ex_set _ (by decide)).trans <| (ex_hi _ _ (by decide)).trans <| (ex_hi _ _ (by decide)).trans <| ex_lo _ _
  · exact (ex_set _ (by decide)).trans <| (ex_hi _ _ (by decide)).trans <| ex_lo _ _

theorem ksetImm (p kd axis format block value) : Statement (.ksetImm p kd axis format block value) := by
  refine raw_ksetImm _ _ _ _ _ _ _ (congrArg BitVec.toNat (a₂ := 106#7) ?_) ?_ ?_ ?_ ?_ ?_ ?_
  · exact (ex_set _ (by decide)).trans <| (ex_hi _ _ (by decide)).trans <| (ex_hi _ _ (by decide)).trans <| (ex_hi _ _ (by decide)).trans <| (ex_hi _ _ (by decide)).trans <| (ex_hi _ _ (by decide)).trans <| (ex_hi _ _ (by decide)).trans <| (ex_hi _ _ (by decide)).trans <| ex_all _
  · exact (ex_set _ (by decide)).trans <| (ex_hi _ _ (by decide)).trans <| (ex_hi _ _ (by decide)).trans <| (ex_hi _ _ (by decide)).trans <| (ex_hi _ _ (by decide)).trans <| (ex_hi _ _ (by decide)).trans <| (ex_hi _ _ (by decide)).trans <| ex_lo _ _
  · exact (ex_set _ (by decide)).trans <| (ex_hi _ _ (by decide)).trans <| (ex_hi _ _ (by decide)).trans <| (ex_hi _ _ (by decide)).trans <| (ex_hi _ _ (by decide)).trans <| (ex_hi _ _ (by decide)).trans <| ex_lo _ _
  · exact (ex_set _ (by decide)).trans <| (ex_hi _ _ (by decide)).trans <| (ex_hi _ _ (by decide)).trans <| (ex_hi _ _ (by decide)).trans <| (ex_hi _ _ (by decide)).trans <| ex_lo _ _
  · exact (ex_set _ (by decide)).trans <| (ex_hi _ _ (by decide)).trans <| (ex_hi _ _ (by decide)).trans <| (ex_hi _ _ (by decide)).trans <| ex_lo _ _
  · exact (ex_set _ (by decide)).trans <| (ex_hi _ _ (by decide)).trans <| (ex_hi _ _ (by decide)).trans <| ex_lo _ _
  · exact (ex_set _ (by decide)).trans <| (ex_hi _ _ (by decide)).trans <| ex_lo _ _

theorem ksetScalar (p kd axis format block sa) : Statement (.ksetScalar p kd axis format block sa) := by
  refine raw_ksetScalar _ _ _ _ _ _ _ (congrArg BitVec.toNat (a₂ := 107#7) ?_) ?_ ?_ ?_ ?_ ?_ ?_
  · exact (ex_set _ (by decide)).trans <| (ex_hi _ _ (by decide)).trans <| (ex_hi _ _ (by decide)).trans <| (ex_hi _ _ (by decide)).trans <| (ex_hi _ _ (by decide)).trans <| (ex_hi _ _ (by decide)).trans <| (ex_hi _ _ (by decide)).trans <| (ex_hi _ _ (by decide)).trans <| ex_all _
  · exact (ex_set _ (by decide)).trans <| (ex_hi _ _ (by decide)).trans <| (ex_hi _ _ (by decide)).trans <| (ex_hi _ _ (by decide)).trans <| (ex_hi _ _ (by decide)).trans <| (ex_hi _ _ (by decide)).trans <| (ex_hi _ _ (by decide)).trans <| ex_lo _ _
  · exact (ex_set _ (by decide)).trans <| (ex_hi _ _ (by decide)).trans <| (ex_hi _ _ (by decide)).trans <| (ex_hi _ _ (by decide)).trans <| (ex_hi _ _ (by decide)).trans <| (ex_hi _ _ (by decide)).trans <| ex_lo _ _
  · exact (ex_set _ (by decide)).trans <| (ex_hi _ _ (by decide)).trans <| (ex_hi _ _ (by decide)).trans <| (ex_hi _ _ (by decide)).trans <| (ex_hi _ _ (by decide)).trans <| ex_lo _ _
  · exact (ex_set _ (by decide)).trans <| (ex_hi _ _ (by decide)).trans <| (ex_hi _ _ (by decide)).trans <| (ex_hi _ _ (by decide)).trans <| ex_lo _ _
  · exact (ex_set _ (by decide)).trans <| (ex_hi _ _ (by decide)).trans <| (ex_hi _ _ (by decide)).trans <| ex_lo _ _
  · exact (ex_set _ (by decide)).trans <| (ex_hi _ _ (by decide)).trans <| ex_lo _ _

theorem kmov (p kd ka) : Statement (.kmov p kd ka) := by
  refine raw_kmov _ _ _ _ (congrArg BitVec.toNat (a₂ := 108#7) ?_) ?_ ?_ ?_
  · exact (ex_set _ (by decide)).trans <| (ex_hi _ _ (by decide)).trans <| (ex_hi _ _ (by decide)).trans <| (ex_hi _ _ (by decide)).trans <| (ex_hi _ _ (by decide)).trans <| ex_all _
  · exact (ex_set _ (by decide)).trans <| (ex_hi _ _ (by decide)).trans <| (ex_hi _ _ (by decide)).trans <| (ex_hi _ _ (by decide)).trans <| ex_lo _ _
  · exact (ex_set _ (by decide)).trans <| (ex_hi _ _ (by decide)).trans <| (ex_hi _ _ (by decide)).trans <| ex_lo _ _
  · exact (ex_set _ (by decide)).trans <| (ex_hi _ _ (by decide)).trans <| ex_lo _ _

theorem kmul (p kd ka kb) : Statement (.kmul p kd ka kb) := by
  refine raw_kmul _ _ _ _ _ (congrArg BitVec.toNat (a₂ := 109#7) ?_) ?_ ?_ ?_ ?_
  · exact (ex_set _ (by decide)).trans <| (ex_hi _ _ (by decide)).trans <| (ex_hi _ _ (by decide)).trans <| (ex_hi _ _ (by decide)).trans <| (ex_hi _ _ (by decide)).trans <| (ex_hi _ _ (by decide)).trans <| ex_all _
  · exact (ex_set _ (by decide)).trans <| (ex_hi _ _ (by decide)).trans <| (ex_hi _ _ (by decide)).trans <| (ex_hi _ _ (by decide)).trans <| (ex_hi _ _ (by decide)).trans <| ex_lo _ _
  · exact (ex_set _ (by decide)).trans <| (ex_hi _ _ (by decide)).trans <| (ex_hi _ _ (by decide)).trans <| (ex_hi _ _ (by decide)).trans <| ex_lo _ _
  · exact (ex_set _ (by decide)).trans <| (ex_hi _ _ (by decide)).trans <| (ex_hi _ _ (by decide)).trans <| ex_lo _ _
  · exact (ex_set _ (by decide)).trans <| (ex_hi _ _ (by decide)).trans <| ex_lo _ _

theorem kaddeImm (p kd ka step) : Statement (.kaddeImm p kd ka step) := by
  refine raw_kaddeImm _ _ _ _ _ (congrArg BitVec.toNat (a₂ := 110#7) ?_) ?_ ?_ ?_ ?_
  · exact (ex_set _ (by decide)).trans <| (ex_hi _ _ (by decide)).trans <| (ex_hi _ _ (by decide)).trans <| (ex_hi _ _ (by decide)).trans <| (ex_hi _ _ (by decide)).trans <| (ex_hi _ _ (by decide)).trans <| ex_all _
  · exact (ex_set _ (by decide)).trans <| (ex_hi _ _ (by decide)).trans <| (ex_hi _ _ (by decide)).trans <| (ex_hi _ _ (by decide)).trans <| (ex_hi _ _ (by decide)).trans <| ex_lo _ _
  · exact (ex_set _ (by decide)).trans <| (ex_hi _ _ (by decide)).trans <| (ex_hi _ _ (by decide)).trans <| (ex_hi _ _ (by decide)).trans <| ex_lo _ _
  · exact (ex_set _ (by decide)).trans <| (ex_hi _ _ (by decide)).trans <| (ex_hi _ _ (by decide)).trans <| ex_lo _ _
  · exact (ex_set _ (by decide)).trans <| (ex_hi _ _ (by decide)).trans <| ex_lo _ _

theorem kaddeScalar (p kd ka sb) : Statement (.kaddeScalar p kd ka sb) := by
  refine raw_kaddeScalar _ _ _ _ _ (congrArg BitVec.toNat (a₂ := 111#7) ?_) ?_ ?_ ?_ ?_
  · exact (ex_set _ (by decide)).trans <| (ex_hi _ _ (by decide)).trans <| (ex_hi _ _ (by decide)).trans <| (ex_hi _ _ (by decide)).trans <| (ex_hi _ _ (by decide)).trans <| (ex_hi _ _ (by decide)).trans <| ex_all _
  · exact (ex_set _ (by decide)).trans <| (ex_hi _ _ (by decide)).trans <| (ex_hi _ _ (by decide)).trans <| (ex_hi _ _ (by decide)).trans <| (ex_hi _ _ (by decide)).trans <| ex_lo _ _
  · exact (ex_set _ (by decide)).trans <| (ex_hi _ _ (by decide)).trans <| (ex_hi _ _ (by decide)).trans <| (ex_hi _ _ (by decide)).trans <| ex_lo _ _
  · exact (ex_set _ (by decide)).trans <| (ex_hi _ _ (by decide)).trans <| (ex_hi _ _ (by decide)).trans <| ex_lo _ _
  · exact (ex_set _ (by decide)).trans <| (ex_hi _ _ (by decide)).trans <| ex_lo _ _

theorem kmaxe (p kd ka kb) : Statement (.kmaxe p kd ka kb) := by
  refine raw_kmaxe _ _ _ _ _ (congrArg BitVec.toNat (a₂ := 112#7) ?_) ?_ ?_ ?_ ?_
  · exact (ex_set _ (by decide)).trans <| (ex_hi _ _ (by decide)).trans <| (ex_hi _ _ (by decide)).trans <| (ex_hi _ _ (by decide)).trans <| (ex_hi _ _ (by decide)).trans <| (ex_hi _ _ (by decide)).trans <| ex_all _
  · exact (ex_set _ (by decide)).trans <| (ex_hi _ _ (by decide)).trans <| (ex_hi _ _ (by decide)).trans <| (ex_hi _ _ (by decide)).trans <| (ex_hi _ _ (by decide)).trans <| ex_lo _ _
  · exact (ex_set _ (by decide)).trans <| (ex_hi _ _ (by decide)).trans <| (ex_hi _ _ (by decide)).trans <| (ex_hi _ _ (by decide)).trans <| ex_lo _ _
  · exact (ex_set _ (by decide)).trans <| (ex_hi _ _ (by decide)).trans <| (ex_hi _ _ (by decide)).trans <| ex_lo _ _
  · exact (ex_set _ (by decide)).trans <| (ex_hi _ _ (by decide)).trans <| ex_lo _ _

theorem kcvtBf16 (p kd ka) : Statement (.kcvtBf16 p kd ka) := by
  refine raw_kcvtBf16 _ _ _ _ (congrArg BitVec.toNat (a₂ := 113#7) ?_) ?_ ?_ ?_
  · exact (ex_set _ (by decide)).trans <| (ex_hi _ _ (by decide)).trans <| (ex_hi _ _ (by decide)).trans <| (ex_hi _ _ (by decide)).trans <| (ex_hi _ _ (by decide)).trans <| ex_all _
  · exact (ex_set _ (by decide)).trans <| (ex_hi _ _ (by decide)).trans <| (ex_hi _ _ (by decide)).trans <| (ex_hi _ _ (by decide)).trans <| ex_lo _ _
  · exact (ex_set _ (by decide)).trans <| (ex_hi _ _ (by decide)).trans <| (ex_hi _ _ (by decide)).trans <| ex_lo _ _
  · exact (ex_set _ (by decide)).trans <| (ex_hi _ _ (by decide)).trans <| ex_lo _ _

theorem kcvtE8m0 (p kd ka) : Statement (.kcvtE8m0 p kd ka) := by
  refine raw_kcvtE8m0 _ _ _ _ (congrArg BitVec.toNat (a₂ := 114#7) ?_) ?_ ?_ ?_
  · exact (ex_set _ (by decide)).trans <| (ex_hi _ _ (by decide)).trans <| (ex_hi _ _ (by decide)).trans <| (ex_hi _ _ (by decide)).trans <| (ex_hi _ _ (by decide)).trans <| ex_all _
  · exact (ex_set _ (by decide)).trans <| (ex_hi _ _ (by decide)).trans <| (ex_hi _ _ (by decide)).trans <| (ex_hi _ _ (by decide)).trans <| ex_lo _ _
  · exact (ex_set _ (by decide)).trans <| (ex_hi _ _ (by decide)).trans <| (ex_hi _ _ (by decide)).trans <| ex_lo _ _
  · exact (ex_set _ (by decide)).trans <| (ex_hi _ _ (by decide)).trans <| ex_lo _ _

theorem kbindTile (p tile ks axis block) : Statement (.kbindTile p tile ks axis block) := by
  refine raw_kbindTile _ _ _ _ _ _ (congrArg BitVec.toNat (a₂ := 115#7) ?_) ?_ ?_ ?_ ?_ ?_
  · exact (ex_set _ (by decide)).trans <| (ex_hi _ _ (by decide)).trans <| (ex_hi _ _ (by decide)).trans <| (ex_hi _ _ (by decide)).trans <| (ex_hi _ _ (by decide)).trans <| (ex_hi _ _ (by decide)).trans <| (ex_hi _ _ (by decide)).trans <| ex_all _
  · exact (ex_set _ (by decide)).trans <| (ex_hi _ _ (by decide)).trans <| (ex_hi _ _ (by decide)).trans <| (ex_hi _ _ (by decide)).trans <| (ex_hi _ _ (by decide)).trans <| (ex_hi _ _ (by decide)).trans <| ex_lo _ _
  · exact (ex_set _ (by decide)).trans <| (ex_hi _ _ (by decide)).trans <| (ex_hi _ _ (by decide)).trans <| (ex_hi _ _ (by decide)).trans <| (ex_hi _ _ (by decide)).trans <| ex_lo _ _
  · exact (ex_set _ (by decide)).trans <| (ex_hi _ _ (by decide)).trans <| (ex_hi _ _ (by decide)).trans <| (ex_hi _ _ (by decide)).trans <| ex_lo _ _
  · exact (ex_set _ (by decide)).trans <| (ex_hi _ _ (by decide)).trans <| (ex_hi _ _ (by decide)).trans <| ex_lo _ _
  · exact (ex_set _ (by decide)).trans <| (ex_hi _ _ (by decide)).trans <| ex_lo _ _

theorem kbindBank (p cm bank ks axis block) : Statement (.kbindBank p cm bank ks axis block) := by
  refine raw_kbindBank _ _ _ _ _ _ _ (congrArg BitVec.toNat (a₂ := 116#7) ?_) ?_ ?_ ?_ ?_ ?_ ?_
  · exact (ex_set _ (by decide)).trans <| (ex_hi _ _ (by decide)).trans <| (ex_hi _ _ (by decide)).trans <| (ex_hi _ _ (by decide)).trans <| (ex_hi _ _ (by decide)).trans <| (ex_hi _ _ (by decide)).trans <| (ex_hi _ _ (by decide)).trans <| (ex_hi _ _ (by decide)).trans <| ex_all _
  · exact (ex_set _ (by decide)).trans <| (ex_hi _ _ (by decide)).trans <| (ex_hi _ _ (by decide)).trans <| (ex_hi _ _ (by decide)).trans <| (ex_hi _ _ (by decide)).trans <| (ex_hi _ _ (by decide)).trans <| (ex_hi _ _ (by decide)).trans <| ex_lo _ _
  · exact (ex_set _ (by decide)).trans <| (ex_hi _ _ (by decide)).trans <| (ex_hi _ _ (by decide)).trans <| (ex_hi _ _ (by decide)).trans <| (ex_hi _ _ (by decide)).trans <| (ex_hi _ _ (by decide)).trans <| ex_lo _ _
  · exact (ex_set _ (by decide)).trans <| (ex_hi _ _ (by decide)).trans <| (ex_hi _ _ (by decide)).trans <| (ex_hi _ _ (by decide)).trans <| (ex_hi _ _ (by decide)).trans <| ex_lo _ _
  · exact (ex_set _ (by decide)).trans <| (ex_hi _ _ (by decide)).trans <| (ex_hi _ _ (by decide)).trans <| (ex_hi _ _ (by decide)).trans <| ex_lo _ _
  · exact (ex_set _ (by decide)).trans <| (ex_hi _ _ (by decide)).trans <| (ex_hi _ _ (by decide)).trans <| ex_lo _ _
  · exact (ex_set _ (by decide)).trans <| (ex_hi _ _ (by decide)).trans <| ex_lo _ _

theorem kunbindTile (p tile) : Statement (.kunbindTile p tile) := by
  refine raw_kunbindTile _ _ _ (congrArg BitVec.toNat (a₂ := 117#7) ?_) ?_ ?_
  · exact (ex_set _ (by decide)).trans <| (ex_hi _ _ (by decide)).trans <| (ex_hi _ _ (by decide)).trans <| (ex_hi _ _ (by decide)).trans <| ex_all _
  · exact (ex_set _ (by decide)).trans <| (ex_hi _ _ (by decide)).trans <| (ex_hi _ _ (by decide)).trans <| ex_lo _ _
  · exact (ex_set _ (by decide)).trans <| (ex_hi _ _ (by decide)).trans <| ex_lo _ _

theorem kunbindBank (p cm bank) : Statement (.kunbindBank p cm bank) := by
  refine raw_kunbindBank _ _ _ _ (congrArg BitVec.toNat (a₂ := 118#7) ?_) ?_ ?_ ?_
  · exact (ex_set _ (by decide)).trans <| (ex_hi _ _ (by decide)).trans <| (ex_hi _ _ (by decide)).trans <| (ex_hi _ _ (by decide)).trans <| (ex_hi _ _ (by decide)).trans <| ex_all _
  · exact (ex_set _ (by decide)).trans <| (ex_hi _ _ (by decide)).trans <| (ex_hi _ _ (by decide)).trans <| (ex_hi _ _ (by decide)).trans <| ex_lo _ _
  · exact (ex_set _ (by decide)).trans <| (ex_hi _ _ (by decide)).trans <| (ex_hi _ _ (by decide)).trans <| ex_lo _ _
  · exact (ex_set _ (by decide)).trans <| (ex_hi _ _ (by decide)).trans <| ex_lo _ _

theorem krdRow (p vd ks) : Statement (.krdRow p vd ks) := by
  refine raw_krdRow _ _ _ _ (congrArg BitVec.toNat (a₂ := 119#7) ?_) ?_ ?_ ?_
  · exact (ex_set _ (by decide)).trans <| (ex_hi _ _ (by decide)).trans <| (ex_hi _ _ (by decide)).trans <| (ex_hi _ _ (by decide)).trans <| (ex_hi _ _ (by decide)).trans <| ex_all _
  · exact (ex_set _ (by decide)).trans <| (ex_hi _ _ (by decide)).trans <| (ex_hi _ _ (by decide)).trans <| (ex_hi _ _ (by decide)).trans <| ex_lo _ _
  · exact (ex_set _ (by decide)).trans <| (ex_hi _ _ (by decide)).trans <| (ex_hi _ _ (by decide)).trans <| ex_lo _ _
  · exact (ex_set _ (by decide)).trans <| (ex_hi _ _ (by decide)).trans <| ex_lo _ _

theorem krdScalar (p sd ks entry sel) : Statement (.krdScalar p sd ks entry sel) := by
  refine raw_krdScalar _ _ _ _ _ _ (congrArg BitVec.toNat (a₂ := 120#7) ?_) ?_ ?_ ?_ ?_ ?_
  · exact (ex_set _ (by decide)).trans <| (ex_hi _ _ (by decide)).trans <| (ex_hi _ _ (by decide)).trans <| (ex_hi _ _ (by decide)).trans <| (ex_hi _ _ (by decide)).trans <| (ex_hi _ _ (by decide)).trans <| (ex_hi _ _ (by decide)).trans <| ex_all _
  · exact (ex_set _ (by decide)).trans <| (ex_hi _ _ (by decide)).trans <| (ex_hi _ _ (by decide)).trans <| (ex_hi _ _ (by decide)).trans <| (ex_hi _ _ (by decide)).trans <| (ex_hi _ _ (by decide)).trans <| ex_lo _ _
  · exact (ex_set _ (by decide)).trans <| (ex_hi _ _ (by decide)).trans <| (ex_hi _ _ (by decide)).trans <| (ex_hi _ _ (by decide)).trans <| (ex_hi _ _ (by decide)).trans <| ex_lo _ _
  · exact (ex_set _ (by decide)).trans <| (ex_hi _ _ (by decide)).trans <| (ex_hi _ _ (by decide)).trans <| (ex_hi _ _ (by decide)).trans <| ex_lo _ _
  · exact (ex_set _ (by decide)).trans <| (ex_hi _ _ (by decide)).trans <| (ex_hi _ _ (by decide)).trans <| ex_lo _ _
  · exact (ex_set _ (by decide)).trans <| (ex_hi _ _ (by decide)).trans <| ex_lo _ _

theorem kwrRow (p kd va) : Statement (.kwrRow p kd va) := by
  refine raw_kwrRow _ _ _ _ (congrArg BitVec.toNat (a₂ := 121#7) ?_) ?_ ?_ ?_
  · exact (ex_set _ (by decide)).trans <| (ex_hi _ _ (by decide)).trans <| (ex_hi _ _ (by decide)).trans <| (ex_hi _ _ (by decide)).trans <| (ex_hi _ _ (by decide)).trans <| ex_all _
  · exact (ex_set _ (by decide)).trans <| (ex_hi _ _ (by decide)).trans <| (ex_hi _ _ (by decide)).trans <| (ex_hi _ _ (by decide)).trans <| ex_lo _ _
  · exact (ex_set _ (by decide)).trans <| (ex_hi _ _ (by decide)).trans <| (ex_hi _ _ (by decide)).trans <| ex_lo _ _
  · exact (ex_set _ (by decide)).trans <| (ex_hi _ _ (by decide)).trans <| ex_lo _ _

theorem kwrScalar (p kd sa entry) : Statement (.kwrScalar p kd sa entry) := by
  refine raw_kwrScalar _ _ _ _ _ (congrArg BitVec.toNat (a₂ := 122#7) ?_) ?_ ?_ ?_ ?_
  · exact (ex_set _ (by decide)).trans <| (ex_hi _ _ (by decide)).trans <| (ex_hi _ _ (by decide)).trans <| (ex_hi _ _ (by decide)).trans <| (ex_hi _ _ (by decide)).trans <| (ex_hi _ _ (by decide)).trans <| ex_all _
  · exact (ex_set _ (by decide)).trans <| (ex_hi _ _ (by decide)).trans <| (ex_hi _ _ (by decide)).trans <| (ex_hi _ _ (by decide)).trans <| (ex_hi _ _ (by decide)).trans <| ex_lo _ _
  · exact (ex_set _ (by decide)).trans <| (ex_hi _ _ (by decide)).trans <| (ex_hi _ _ (by decide)).trans <| (ex_hi _ _ (by decide)).trans <| ex_lo _ _
  · exact (ex_set _ (by decide)).trans <| (ex_hi _ _ (by decide)).trans <| (ex_hi _ _ (by decide)).trans <| ex_lo _ _
  · exact (ex_set _ (by decide)).trans <| (ex_hi _ _ (by decide)).trans <| ex_lo _ _

theorem kgen (p kd va axis block format) : Statement (.kgen p kd va axis block format) := by
  refine raw_kgen _ _ _ _ _ _ _ (congrArg BitVec.toNat (a₂ := 123#7) ?_) ?_ ?_ ?_ ?_ ?_ ?_
  · exact (ex_set _ (by decide)).trans <| (ex_hi _ _ (by decide)).trans <| (ex_hi _ _ (by decide)).trans <| (ex_hi _ _ (by decide)).trans <| (ex_hi _ _ (by decide)).trans <| (ex_hi _ _ (by decide)).trans <| (ex_hi _ _ (by decide)).trans <| (ex_hi _ _ (by decide)).trans <| ex_all _
  · exact (ex_set _ (by decide)).trans <| (ex_hi _ _ (by decide)).trans <| (ex_hi _ _ (by decide)).trans <| (ex_hi _ _ (by decide)).trans <| (ex_hi _ _ (by decide)).trans <| (ex_hi _ _ (by decide)).trans <| (ex_hi _ _ (by decide)).trans <| ex_lo _ _
  · exact (ex_set _ (by decide)).trans <| (ex_hi _ _ (by decide)).trans <| (ex_hi _ _ (by decide)).trans <| (ex_hi _ _ (by decide)).trans <| (ex_hi _ _ (by decide)).trans <| (ex_hi _ _ (by decide)).trans <| ex_lo _ _
  · exact (ex_set _ (by decide)).trans <| (ex_hi _ _ (by decide)).trans <| (ex_hi _ _ (by decide)).trans <| (ex_hi _ _ (by decide)).trans <| (ex_hi _ _ (by decide)).trans <| ex_lo _ _
  · exact (ex_set _ (by decide)).trans <| (ex_hi _ _ (by decide)).trans <| (ex_hi _ _ (by decide)).trans <| (ex_hi _ _ (by decide)).trans <| ex_lo _ _
  · exact (ex_set _ (by decide)).trans <| (ex_hi _ _ (by decide)).trans <| (ex_hi _ _ (by decide)).trans <| ex_lo _ _
  · exact (ex_set _ (by decide)).trans <| (ex_hi _ _ (by decide)).trans <| ex_lo _ _

theorem mmaL6 (p vd abay aoff bbay boff alane blane sg sc) : Statement (.mmaL6 p vd abay aoff bbay boff alane blane sg sc) := by
  refine raw_mmaL6 _ _ _ _ _ _ _ _ _ _ _ (congrArg BitVec.toNat (a₂ := 0#5) ?_) ?_ ?_ ?_ ?_ ?_ ?_ ?_ ?_ ?_ ?_
  · exact (ex_set _ (by decide)).trans <| (ex_hi _ _ (by decide)).trans <| (ex_hi _ _ (by decide)).trans <| (ex_hi _ _ (by decide)).trans <| (ex_hi _ _ (by decide)).trans <| (ex_hi _ _ (by decide)).trans <| (ex_hi _ _ (by decide)).trans <| (ex_hi _ _ (by decide)).trans <| (ex_hi _ _ (by decide)).trans <| (ex_hi _ _ (by decide)).trans <| (ex_hi _ _ (by decide)).trans <| (ex_hi _ _ (by decide)).trans <| ex_all _
  · exact (ex_set _ (by decide)).trans <| (ex_hi _ _ (by decide)).trans <| (ex_hi _ _ (by decide)).trans <| (ex_hi _ _ (by decide)).trans <| (ex_hi _ _ (by decide)).trans <| (ex_hi _ _ (by decide)).trans <| (ex_hi _ _ (by decide)).trans <| (ex_hi _ _ (by decide)).trans <| (ex_hi _ _ (by decide)).trans <| (ex_hi _ _ (by decide)).trans <| (ex_hi _ _ (by decide)).trans <| ex_lo _ _
  · exact (ex_set _ (by decide)).trans <| (ex_hi _ _ (by decide)).trans <| (ex_hi _ _ (by decide)).trans <| (ex_hi _ _ (by decide)).trans <| (ex_hi _ _ (by decide)).trans <| (ex_hi _ _ (by decide)).trans <| (ex_hi _ _ (by decide)).trans <| (ex_hi _ _ (by decide)).trans <| (ex_hi _ _ (by decide)).trans <| (ex_hi _ _ (by decide)).trans <| ex_lo _ _
  · exact (ex_set _ (by decide)).trans <| (ex_hi _ _ (by decide)).trans <| (ex_hi _ _ (by decide)).trans <| (ex_hi _ _ (by decide)).trans <| (ex_hi _ _ (by decide)).trans <| (ex_hi _ _ (by decide)).trans <| (ex_hi _ _ (by decide)).trans <| (ex_hi _ _ (by decide)).trans <| (ex_hi _ _ (by decide)).trans <| ex_lo _ _
  · exact (ex_set _ (by decide)).trans <| (ex_hi _ _ (by decide)).trans <| (ex_hi _ _ (by decide)).trans <| (ex_hi _ _ (by decide)).trans <| (ex_hi _ _ (by decide)).trans <| (ex_hi _ _ (by decide)).trans <| (ex_hi _ _ (by decide)).trans <| (ex_hi _ _ (by decide)).trans <| ex_lo _ _
  · exact (ex_set _ (by decide)).trans <| (ex_hi _ _ (by decide)).trans <| (ex_hi _ _ (by decide)).trans <| (ex_hi _ _ (by decide)).trans <| (ex_hi _ _ (by decide)).trans <| (ex_hi _ _ (by decide)).trans <| (ex_hi _ _ (by decide)).trans <| ex_lo _ _
  · exact (ex_set _ (by decide)).trans <| (ex_hi _ _ (by decide)).trans <| (ex_hi _ _ (by decide)).trans <| (ex_hi _ _ (by decide)).trans <| (ex_hi _ _ (by decide)).trans <| (ex_hi _ _ (by decide)).trans <| ex_lo _ _
  · exact (ex_set _ (by decide)).trans <| (ex_hi _ _ (by decide)).trans <| (ex_hi _ _ (by decide)).trans <| (ex_hi _ _ (by decide)).trans <| (ex_hi _ _ (by decide)).trans <| ex_lo _ _
  · exact (ex_set _ (by decide)).trans <| (ex_hi _ _ (by decide)).trans <| (ex_hi _ _ (by decide)).trans <| (ex_hi _ _ (by decide)).trans <| ex_lo _ _
  · exact (ex_set _ (by decide)).trans <| (ex_hi _ _ (by decide)).trans <| (ex_hi _ _ (by decide)).trans <| ex_lo _ _
  · exact (ex_set _ (by decide)).trans <| (ex_hi _ _ (by decide)).trans <| ex_lo _ _

theorem mmaI8 (p vd abay aoff bbay boff alane blane sg sc) : Statement (.mmaI8 p vd abay aoff bbay boff alane blane sg sc) := by
  refine raw_mmaI8 _ _ _ _ _ _ _ _ _ _ _ (congrArg BitVec.toNat (a₂ := 1#5) ?_) ?_ ?_ ?_ ?_ ?_ ?_ ?_ ?_ ?_ ?_
  · exact (ex_set _ (by decide)).trans <| (ex_hi _ _ (by decide)).trans <| (ex_hi _ _ (by decide)).trans <| (ex_hi _ _ (by decide)).trans <| (ex_hi _ _ (by decide)).trans <| (ex_hi _ _ (by decide)).trans <| (ex_hi _ _ (by decide)).trans <| (ex_hi _ _ (by decide)).trans <| (ex_hi _ _ (by decide)).trans <| (ex_hi _ _ (by decide)).trans <| (ex_hi _ _ (by decide)).trans <| (ex_hi _ _ (by decide)).trans <| ex_all _
  · exact (ex_set _ (by decide)).trans <| (ex_hi _ _ (by decide)).trans <| (ex_hi _ _ (by decide)).trans <| (ex_hi _ _ (by decide)).trans <| (ex_hi _ _ (by decide)).trans <| (ex_hi _ _ (by decide)).trans <| (ex_hi _ _ (by decide)).trans <| (ex_hi _ _ (by decide)).trans <| (ex_hi _ _ (by decide)).trans <| (ex_hi _ _ (by decide)).trans <| (ex_hi _ _ (by decide)).trans <| ex_lo _ _
  · exact (ex_set _ (by decide)).trans <| (ex_hi _ _ (by decide)).trans <| (ex_hi _ _ (by decide)).trans <| (ex_hi _ _ (by decide)).trans <| (ex_hi _ _ (by decide)).trans <| (ex_hi _ _ (by decide)).trans <| (ex_hi _ _ (by decide)).trans <| (ex_hi _ _ (by decide)).trans <| (ex_hi _ _ (by decide)).trans <| (ex_hi _ _ (by decide)).trans <| ex_lo _ _
  · exact (ex_set _ (by decide)).trans <| (ex_hi _ _ (by decide)).trans <| (ex_hi _ _ (by decide)).trans <| (ex_hi _ _ (by decide)).trans <| (ex_hi _ _ (by decide)).trans <| (ex_hi _ _ (by decide)).trans <| (ex_hi _ _ (by decide)).trans <| (ex_hi _ _ (by decide)).trans <| (ex_hi _ _ (by decide)).trans <| ex_lo _ _
  · exact (ex_set _ (by decide)).trans <| (ex_hi _ _ (by decide)).trans <| (ex_hi _ _ (by decide)).trans <| (ex_hi _ _ (by decide)).trans <| (ex_hi _ _ (by decide)).trans <| (ex_hi _ _ (by decide)).trans <| (ex_hi _ _ (by decide)).trans <| (ex_hi _ _ (by decide)).trans <| ex_lo _ _
  · exact (ex_set _ (by decide)).trans <| (ex_hi _ _ (by decide)).trans <| (ex_hi _ _ (by decide)).trans <| (ex_hi _ _ (by decide)).trans <| (ex_hi _ _ (by decide)).trans <| (ex_hi _ _ (by decide)).trans <| (ex_hi _ _ (by decide)).trans <| ex_lo _ _
  · exact (ex_set _ (by decide)).trans <| (ex_hi _ _ (by decide)).trans <| (ex_hi _ _ (by decide)).trans <| (ex_hi _ _ (by decide)).trans <| (ex_hi _ _ (by decide)).trans <| (ex_hi _ _ (by decide)).trans <| ex_lo _ _
  · exact (ex_set _ (by decide)).trans <| (ex_hi _ _ (by decide)).trans <| (ex_hi _ _ (by decide)).trans <| (ex_hi _ _ (by decide)).trans <| (ex_hi _ _ (by decide)).trans <| ex_lo _ _
  · exact (ex_set _ (by decide)).trans <| (ex_hi _ _ (by decide)).trans <| (ex_hi _ _ (by decide)).trans <| (ex_hi _ _ (by decide)).trans <| ex_lo _ _
  · exact (ex_set _ (by decide)).trans <| (ex_hi _ _ (by decide)).trans <| (ex_hi _ _ (by decide)).trans <| ex_lo _ _
  · exact (ex_set _ (by decide)).trans <| (ex_hi _ _ (by decide)).trans <| ex_lo _ _

theorem mmaE4m3 (p vd abay aoff bbay boff alane blane sg sc) : Statement (.mmaE4m3 p vd abay aoff bbay boff alane blane sg sc) := by
  refine raw_mmaE4m3 _ _ _ _ _ _ _ _ _ _ _ (congrArg BitVec.toNat (a₂ := 2#5) ?_) ?_ ?_ ?_ ?_ ?_ ?_ ?_ ?_ ?_ ?_
  · exact (ex_set _ (by decide)).trans <| (ex_hi _ _ (by decide)).trans <| (ex_hi _ _ (by decide)).trans <| (ex_hi _ _ (by decide)).trans <| (ex_hi _ _ (by decide)).trans <| (ex_hi _ _ (by decide)).trans <| (ex_hi _ _ (by decide)).trans <| (ex_hi _ _ (by decide)).trans <| (ex_hi _ _ (by decide)).trans <| (ex_hi _ _ (by decide)).trans <| (ex_hi _ _ (by decide)).trans <| (ex_hi _ _ (by decide)).trans <| ex_all _
  · exact (ex_set _ (by decide)).trans <| (ex_hi _ _ (by decide)).trans <| (ex_hi _ _ (by decide)).trans <| (ex_hi _ _ (by decide)).trans <| (ex_hi _ _ (by decide)).trans <| (ex_hi _ _ (by decide)).trans <| (ex_hi _ _ (by decide)).trans <| (ex_hi _ _ (by decide)).trans <| (ex_hi _ _ (by decide)).trans <| (ex_hi _ _ (by decide)).trans <| (ex_hi _ _ (by decide)).trans <| ex_lo _ _
  · exact (ex_set _ (by decide)).trans <| (ex_hi _ _ (by decide)).trans <| (ex_hi _ _ (by decide)).trans <| (ex_hi _ _ (by decide)).trans <| (ex_hi _ _ (by decide)).trans <| (ex_hi _ _ (by decide)).trans <| (ex_hi _ _ (by decide)).trans <| (ex_hi _ _ (by decide)).trans <| (ex_hi _ _ (by decide)).trans <| (ex_hi _ _ (by decide)).trans <| ex_lo _ _
  · exact (ex_set _ (by decide)).trans <| (ex_hi _ _ (by decide)).trans <| (ex_hi _ _ (by decide)).trans <| (ex_hi _ _ (by decide)).trans <| (ex_hi _ _ (by decide)).trans <| (ex_hi _ _ (by decide)).trans <| (ex_hi _ _ (by decide)).trans <| (ex_hi _ _ (by decide)).trans <| (ex_hi _ _ (by decide)).trans <| ex_lo _ _
  · exact (ex_set _ (by decide)).trans <| (ex_hi _ _ (by decide)).trans <| (ex_hi _ _ (by decide)).trans <| (ex_hi _ _ (by decide)).trans <| (ex_hi _ _ (by decide)).trans <| (ex_hi _ _ (by decide)).trans <| (ex_hi _ _ (by decide)).trans <| (ex_hi _ _ (by decide)).trans <| ex_lo _ _
  · exact (ex_set _ (by decide)).trans <| (ex_hi _ _ (by decide)).trans <| (ex_hi _ _ (by decide)).trans <| (ex_hi _ _ (by decide)).trans <| (ex_hi _ _ (by decide)).trans <| (ex_hi _ _ (by decide)).trans <| (ex_hi _ _ (by decide)).trans <| ex_lo _ _
  · exact (ex_set _ (by decide)).trans <| (ex_hi _ _ (by decide)).trans <| (ex_hi _ _ (by decide)).trans <| (ex_hi _ _ (by decide)).trans <| (ex_hi _ _ (by decide)).trans <| (ex_hi _ _ (by decide)).trans <| ex_lo _ _
  · exact (ex_set _ (by decide)).trans <| (ex_hi _ _ (by decide)).trans <| (ex_hi _ _ (by decide)).trans <| (ex_hi _ _ (by decide)).trans <| (ex_hi _ _ (by decide)).trans <| ex_lo _ _
  · exact (ex_set _ (by decide)).trans <| (ex_hi _ _ (by decide)).trans <| (ex_hi _ _ (by decide)).trans <| (ex_hi _ _ (by decide)).trans <| ex_lo _ _
  · exact (ex_set _ (by decide)).trans <| (ex_hi _ _ (by decide)).trans <| (ex_hi _ _ (by decide)).trans <| ex_lo _ _
  · exact (ex_set _ (by decide)).trans <| (ex_hi _ _ (by decide)).trans <| ex_lo _ _

theorem mmaE5m2 (p vd abay aoff bbay boff alane blane sg sc) : Statement (.mmaE5m2 p vd abay aoff bbay boff alane blane sg sc) := by
  refine raw_mmaE5m2 _ _ _ _ _ _ _ _ _ _ _ (congrArg BitVec.toNat (a₂ := 3#5) ?_) ?_ ?_ ?_ ?_ ?_ ?_ ?_ ?_ ?_ ?_
  · exact (ex_set _ (by decide)).trans <| (ex_hi _ _ (by decide)).trans <| (ex_hi _ _ (by decide)).trans <| (ex_hi _ _ (by decide)).trans <| (ex_hi _ _ (by decide)).trans <| (ex_hi _ _ (by decide)).trans <| (ex_hi _ _ (by decide)).trans <| (ex_hi _ _ (by decide)).trans <| (ex_hi _ _ (by decide)).trans <| (ex_hi _ _ (by decide)).trans <| (ex_hi _ _ (by decide)).trans <| (ex_hi _ _ (by decide)).trans <| ex_all _
  · exact (ex_set _ (by decide)).trans <| (ex_hi _ _ (by decide)).trans <| (ex_hi _ _ (by decide)).trans <| (ex_hi _ _ (by decide)).trans <| (ex_hi _ _ (by decide)).trans <| (ex_hi _ _ (by decide)).trans <| (ex_hi _ _ (by decide)).trans <| (ex_hi _ _ (by decide)).trans <| (ex_hi _ _ (by decide)).trans <| (ex_hi _ _ (by decide)).trans <| (ex_hi _ _ (by decide)).trans <| ex_lo _ _
  · exact (ex_set _ (by decide)).trans <| (ex_hi _ _ (by decide)).trans <| (ex_hi _ _ (by decide)).trans <| (ex_hi _ _ (by decide)).trans <| (ex_hi _ _ (by decide)).trans <| (ex_hi _ _ (by decide)).trans <| (ex_hi _ _ (by decide)).trans <| (ex_hi _ _ (by decide)).trans <| (ex_hi _ _ (by decide)).trans <| (ex_hi _ _ (by decide)).trans <| ex_lo _ _
  · exact (ex_set _ (by decide)).trans <| (ex_hi _ _ (by decide)).trans <| (ex_hi _ _ (by decide)).trans <| (ex_hi _ _ (by decide)).trans <| (ex_hi _ _ (by decide)).trans <| (ex_hi _ _ (by decide)).trans <| (ex_hi _ _ (by decide)).trans <| (ex_hi _ _ (by decide)).trans <| (ex_hi _ _ (by decide)).trans <| ex_lo _ _
  · exact (ex_set _ (by decide)).trans <| (ex_hi _ _ (by decide)).trans <| (ex_hi _ _ (by decide)).trans <| (ex_hi _ _ (by decide)).trans <| (ex_hi _ _ (by decide)).trans <| (ex_hi _ _ (by decide)).trans <| (ex_hi _ _ (by decide)).trans <| (ex_hi _ _ (by decide)).trans <| ex_lo _ _
  · exact (ex_set _ (by decide)).trans <| (ex_hi _ _ (by decide)).trans <| (ex_hi _ _ (by decide)).trans <| (ex_hi _ _ (by decide)).trans <| (ex_hi _ _ (by decide)).trans <| (ex_hi _ _ (by decide)).trans <| (ex_hi _ _ (by decide)).trans <| ex_lo _ _
  · exact (ex_set _ (by decide)).trans <| (ex_hi _ _ (by decide)).trans <| (ex_hi _ _ (by decide)).trans <| (ex_hi _ _ (by decide)).trans <| (ex_hi _ _ (by decide)).trans <| (ex_hi _ _ (by decide)).trans <| ex_lo _ _
  · exact (ex_set _ (by decide)).trans <| (ex_hi _ _ (by decide)).trans <| (ex_hi _ _ (by decide)).trans <| (ex_hi _ _ (by decide)).trans <| (ex_hi _ _ (by decide)).trans <| ex_lo _ _
  · exact (ex_set _ (by decide)).trans <| (ex_hi _ _ (by decide)).trans <| (ex_hi _ _ (by decide)).trans <| (ex_hi _ _ (by decide)).trans <| ex_lo _ _
  · exact (ex_set _ (by decide)).trans <| (ex_hi _ _ (by decide)).trans <| (ex_hi _ _ (by decide)).trans <| ex_lo _ _
  · exact (ex_set _ (by decide)).trans <| (ex_hi _ _ (by decide)).trans <| ex_lo _ _

theorem mmaE4e5 (p vd abay aoff bbay boff alane blane sg sc) : Statement (.mmaE4e5 p vd abay aoff bbay boff alane blane sg sc) := by
  refine raw_mmaE4e5 _ _ _ _ _ _ _ _ _ _ _ (congrArg BitVec.toNat (a₂ := 4#5) ?_) ?_ ?_ ?_ ?_ ?_ ?_ ?_ ?_ ?_ ?_
  · exact (ex_set _ (by decide)).trans <| (ex_hi _ _ (by decide)).trans <| (ex_hi _ _ (by decide)).trans <| (ex_hi _ _ (by decide)).trans <| (ex_hi _ _ (by decide)).trans <| (ex_hi _ _ (by decide)).trans <| (ex_hi _ _ (by decide)).trans <| (ex_hi _ _ (by decide)).trans <| (ex_hi _ _ (by decide)).trans <| (ex_hi _ _ (by decide)).trans <| (ex_hi _ _ (by decide)).trans <| (ex_hi _ _ (by decide)).trans <| ex_all _
  · exact (ex_set _ (by decide)).trans <| (ex_hi _ _ (by decide)).trans <| (ex_hi _ _ (by decide)).trans <| (ex_hi _ _ (by decide)).trans <| (ex_hi _ _ (by decide)).trans <| (ex_hi _ _ (by decide)).trans <| (ex_hi _ _ (by decide)).trans <| (ex_hi _ _ (by decide)).trans <| (ex_hi _ _ (by decide)).trans <| (ex_hi _ _ (by decide)).trans <| (ex_hi _ _ (by decide)).trans <| ex_lo _ _
  · exact (ex_set _ (by decide)).trans <| (ex_hi _ _ (by decide)).trans <| (ex_hi _ _ (by decide)).trans <| (ex_hi _ _ (by decide)).trans <| (ex_hi _ _ (by decide)).trans <| (ex_hi _ _ (by decide)).trans <| (ex_hi _ _ (by decide)).trans <| (ex_hi _ _ (by decide)).trans <| (ex_hi _ _ (by decide)).trans <| (ex_hi _ _ (by decide)).trans <| ex_lo _ _
  · exact (ex_set _ (by decide)).trans <| (ex_hi _ _ (by decide)).trans <| (ex_hi _ _ (by decide)).trans <| (ex_hi _ _ (by decide)).trans <| (ex_hi _ _ (by decide)).trans <| (ex_hi _ _ (by decide)).trans <| (ex_hi _ _ (by decide)).trans <| (ex_hi _ _ (by decide)).trans <| (ex_hi _ _ (by decide)).trans <| ex_lo _ _
  · exact (ex_set _ (by decide)).trans <| (ex_hi _ _ (by decide)).trans <| (ex_hi _ _ (by decide)).trans <| (ex_hi _ _ (by decide)).trans <| (ex_hi _ _ (by decide)).trans <| (ex_hi _ _ (by decide)).trans <| (ex_hi _ _ (by decide)).trans <| (ex_hi _ _ (by decide)).trans <| ex_lo _ _
  · exact (ex_set _ (by decide)).trans <| (ex_hi _ _ (by decide)).trans <| (ex_hi _ _ (by decide)).trans <| (ex_hi _ _ (by decide)).trans <| (ex_hi _ _ (by decide)).trans <| (ex_hi _ _ (by decide)).trans <| (ex_hi _ _ (by decide)).trans <| ex_lo _ _
  · exact (ex_set _ (by decide)).trans <| (ex_hi _ _ (by decide)).trans <| (ex_hi _ _ (by decide)).trans <| (ex_hi _ _ (by decide)).trans <| (ex_hi _ _ (by decide)).trans <| (ex_hi _ _ (by decide)).trans <| ex_lo _ _
  · exact (ex_set _ (by decide)).trans <| (ex_hi _ _ (by decide)).trans <| (ex_hi _ _ (by decide)).trans <| (ex_hi _ _ (by decide)).trans <| (ex_hi _ _ (by decide)).trans <| ex_lo _ _
  · exact (ex_set _ (by decide)).trans <| (ex_hi _ _ (by decide)).trans <| (ex_hi _ _ (by decide)).trans <| (ex_hi _ _ (by decide)).trans <| ex_lo _ _
  · exact (ex_set _ (by decide)).trans <| (ex_hi _ _ (by decide)).trans <| (ex_hi _ _ (by decide)).trans <| ex_lo _ _
  · exact (ex_set _ (by decide)).trans <| (ex_hi _ _ (by decide)).trans <| ex_lo _ _

theorem mmaE5e4 (p vd abay aoff bbay boff alane blane sg sc) : Statement (.mmaE5e4 p vd abay aoff bbay boff alane blane sg sc) := by
  refine raw_mmaE5e4 _ _ _ _ _ _ _ _ _ _ _ (congrArg BitVec.toNat (a₂ := 5#5) ?_) ?_ ?_ ?_ ?_ ?_ ?_ ?_ ?_ ?_ ?_
  · exact (ex_set _ (by decide)).trans <| (ex_hi _ _ (by decide)).trans <| (ex_hi _ _ (by decide)).trans <| (ex_hi _ _ (by decide)).trans <| (ex_hi _ _ (by decide)).trans <| (ex_hi _ _ (by decide)).trans <| (ex_hi _ _ (by decide)).trans <| (ex_hi _ _ (by decide)).trans <| (ex_hi _ _ (by decide)).trans <| (ex_hi _ _ (by decide)).trans <| (ex_hi _ _ (by decide)).trans <| (ex_hi _ _ (by decide)).trans <| ex_all _
  · exact (ex_set _ (by decide)).trans <| (ex_hi _ _ (by decide)).trans <| (ex_hi _ _ (by decide)).trans <| (ex_hi _ _ (by decide)).trans <| (ex_hi _ _ (by decide)).trans <| (ex_hi _ _ (by decide)).trans <| (ex_hi _ _ (by decide)).trans <| (ex_hi _ _ (by decide)).trans <| (ex_hi _ _ (by decide)).trans <| (ex_hi _ _ (by decide)).trans <| (ex_hi _ _ (by decide)).trans <| ex_lo _ _
  · exact (ex_set _ (by decide)).trans <| (ex_hi _ _ (by decide)).trans <| (ex_hi _ _ (by decide)).trans <| (ex_hi _ _ (by decide)).trans <| (ex_hi _ _ (by decide)).trans <| (ex_hi _ _ (by decide)).trans <| (ex_hi _ _ (by decide)).trans <| (ex_hi _ _ (by decide)).trans <| (ex_hi _ _ (by decide)).trans <| (ex_hi _ _ (by decide)).trans <| ex_lo _ _
  · exact (ex_set _ (by decide)).trans <| (ex_hi _ _ (by decide)).trans <| (ex_hi _ _ (by decide)).trans <| (ex_hi _ _ (by decide)).trans <| (ex_hi _ _ (by decide)).trans <| (ex_hi _ _ (by decide)).trans <| (ex_hi _ _ (by decide)).trans <| (ex_hi _ _ (by decide)).trans <| (ex_hi _ _ (by decide)).trans <| ex_lo _ _
  · exact (ex_set _ (by decide)).trans <| (ex_hi _ _ (by decide)).trans <| (ex_hi _ _ (by decide)).trans <| (ex_hi _ _ (by decide)).trans <| (ex_hi _ _ (by decide)).trans <| (ex_hi _ _ (by decide)).trans <| (ex_hi _ _ (by decide)).trans <| (ex_hi _ _ (by decide)).trans <| ex_lo _ _
  · exact (ex_set _ (by decide)).trans <| (ex_hi _ _ (by decide)).trans <| (ex_hi _ _ (by decide)).trans <| (ex_hi _ _ (by decide)).trans <| (ex_hi _ _ (by decide)).trans <| (ex_hi _ _ (by decide)).trans <| (ex_hi _ _ (by decide)).trans <| ex_lo _ _
  · exact (ex_set _ (by decide)).trans <| (ex_hi _ _ (by decide)).trans <| (ex_hi _ _ (by decide)).trans <| (ex_hi _ _ (by decide)).trans <| (ex_hi _ _ (by decide)).trans <| (ex_hi _ _ (by decide)).trans <| ex_lo _ _
  · exact (ex_set _ (by decide)).trans <| (ex_hi _ _ (by decide)).trans <| (ex_hi _ _ (by decide)).trans <| (ex_hi _ _ (by decide)).trans <| (ex_hi _ _ (by decide)).trans <| ex_lo _ _
  · exact (ex_set _ (by decide)).trans <| (ex_hi _ _ (by decide)).trans <| (ex_hi _ _ (by decide)).trans <| (ex_hi _ _ (by decide)).trans <| ex_lo _ _
  · exact (ex_set _ (by decide)).trans <| (ex_hi _ _ (by decide)).trans <| (ex_hi _ _ (by decide)).trans <| ex_lo _ _
  · exact (ex_set _ (by decide)).trans <| (ex_hi _ _ (by decide)).trans <| ex_lo _ _

theorem mmaBf16 (p vd abay aoff bbay boff alane blane sg sc) : Statement (.mmaBf16 p vd abay aoff bbay boff alane blane sg sc) := by
  refine raw_mmaBf16 _ _ _ _ _ _ _ _ _ _ _ (congrArg BitVec.toNat (a₂ := 6#5) ?_) ?_ ?_ ?_ ?_ ?_ ?_ ?_ ?_ ?_ ?_
  · exact (ex_set _ (by decide)).trans <| (ex_hi _ _ (by decide)).trans <| (ex_hi _ _ (by decide)).trans <| (ex_hi _ _ (by decide)).trans <| (ex_hi _ _ (by decide)).trans <| (ex_hi _ _ (by decide)).trans <| (ex_hi _ _ (by decide)).trans <| (ex_hi _ _ (by decide)).trans <| (ex_hi _ _ (by decide)).trans <| (ex_hi _ _ (by decide)).trans <| (ex_hi _ _ (by decide)).trans <| (ex_hi _ _ (by decide)).trans <| ex_all _
  · exact (ex_set _ (by decide)).trans <| (ex_hi _ _ (by decide)).trans <| (ex_hi _ _ (by decide)).trans <| (ex_hi _ _ (by decide)).trans <| (ex_hi _ _ (by decide)).trans <| (ex_hi _ _ (by decide)).trans <| (ex_hi _ _ (by decide)).trans <| (ex_hi _ _ (by decide)).trans <| (ex_hi _ _ (by decide)).trans <| (ex_hi _ _ (by decide)).trans <| (ex_hi _ _ (by decide)).trans <| ex_lo _ _
  · exact (ex_set _ (by decide)).trans <| (ex_hi _ _ (by decide)).trans <| (ex_hi _ _ (by decide)).trans <| (ex_hi _ _ (by decide)).trans <| (ex_hi _ _ (by decide)).trans <| (ex_hi _ _ (by decide)).trans <| (ex_hi _ _ (by decide)).trans <| (ex_hi _ _ (by decide)).trans <| (ex_hi _ _ (by decide)).trans <| (ex_hi _ _ (by decide)).trans <| ex_lo _ _
  · exact (ex_set _ (by decide)).trans <| (ex_hi _ _ (by decide)).trans <| (ex_hi _ _ (by decide)).trans <| (ex_hi _ _ (by decide)).trans <| (ex_hi _ _ (by decide)).trans <| (ex_hi _ _ (by decide)).trans <| (ex_hi _ _ (by decide)).trans <| (ex_hi _ _ (by decide)).trans <| (ex_hi _ _ (by decide)).trans <| ex_lo _ _
  · exact (ex_set _ (by decide)).trans <| (ex_hi _ _ (by decide)).trans <| (ex_hi _ _ (by decide)).trans <| (ex_hi _ _ (by decide)).trans <| (ex_hi _ _ (by decide)).trans <| (ex_hi _ _ (by decide)).trans <| (ex_hi _ _ (by decide)).trans <| (ex_hi _ _ (by decide)).trans <| ex_lo _ _
  · exact (ex_set _ (by decide)).trans <| (ex_hi _ _ (by decide)).trans <| (ex_hi _ _ (by decide)).trans <| (ex_hi _ _ (by decide)).trans <| (ex_hi _ _ (by decide)).trans <| (ex_hi _ _ (by decide)).trans <| (ex_hi _ _ (by decide)).trans <| ex_lo _ _
  · exact (ex_set _ (by decide)).trans <| (ex_hi _ _ (by decide)).trans <| (ex_hi _ _ (by decide)).trans <| (ex_hi _ _ (by decide)).trans <| (ex_hi _ _ (by decide)).trans <| (ex_hi _ _ (by decide)).trans <| ex_lo _ _
  · exact (ex_set _ (by decide)).trans <| (ex_hi _ _ (by decide)).trans <| (ex_hi _ _ (by decide)).trans <| (ex_hi _ _ (by decide)).trans <| (ex_hi _ _ (by decide)).trans <| ex_lo _ _
  · exact (ex_set _ (by decide)).trans <| (ex_hi _ _ (by decide)).trans <| (ex_hi _ _ (by decide)).trans <| (ex_hi _ _ (by decide)).trans <| ex_lo _ _
  · exact (ex_set _ (by decide)).trans <| (ex_hi _ _ (by decide)).trans <| (ex_hi _ _ (by decide)).trans <| ex_lo _ _
  · exact (ex_set _ (by decide)).trans <| (ex_hi _ _ (by decide)).trans <| ex_lo _ _

theorem mmaFp16 (p vd abay aoff bbay boff alane blane sg sc) : Statement (.mmaFp16 p vd abay aoff bbay boff alane blane sg sc) := by
  refine raw_mmaFp16 _ _ _ _ _ _ _ _ _ _ _ (congrArg BitVec.toNat (a₂ := 7#5) ?_) ?_ ?_ ?_ ?_ ?_ ?_ ?_ ?_ ?_ ?_
  · exact (ex_set _ (by decide)).trans <| (ex_hi _ _ (by decide)).trans <| (ex_hi _ _ (by decide)).trans <| (ex_hi _ _ (by decide)).trans <| (ex_hi _ _ (by decide)).trans <| (ex_hi _ _ (by decide)).trans <| (ex_hi _ _ (by decide)).trans <| (ex_hi _ _ (by decide)).trans <| (ex_hi _ _ (by decide)).trans <| (ex_hi _ _ (by decide)).trans <| (ex_hi _ _ (by decide)).trans <| (ex_hi _ _ (by decide)).trans <| ex_all _
  · exact (ex_set _ (by decide)).trans <| (ex_hi _ _ (by decide)).trans <| (ex_hi _ _ (by decide)).trans <| (ex_hi _ _ (by decide)).trans <| (ex_hi _ _ (by decide)).trans <| (ex_hi _ _ (by decide)).trans <| (ex_hi _ _ (by decide)).trans <| (ex_hi _ _ (by decide)).trans <| (ex_hi _ _ (by decide)).trans <| (ex_hi _ _ (by decide)).trans <| (ex_hi _ _ (by decide)).trans <| ex_lo _ _
  · exact (ex_set _ (by decide)).trans <| (ex_hi _ _ (by decide)).trans <| (ex_hi _ _ (by decide)).trans <| (ex_hi _ _ (by decide)).trans <| (ex_hi _ _ (by decide)).trans <| (ex_hi _ _ (by decide)).trans <| (ex_hi _ _ (by decide)).trans <| (ex_hi _ _ (by decide)).trans <| (ex_hi _ _ (by decide)).trans <| (ex_hi _ _ (by decide)).trans <| ex_lo _ _
  · exact (ex_set _ (by decide)).trans <| (ex_hi _ _ (by decide)).trans <| (ex_hi _ _ (by decide)).trans <| (ex_hi _ _ (by decide)).trans <| (ex_hi _ _ (by decide)).trans <| (ex_hi _ _ (by decide)).trans <| (ex_hi _ _ (by decide)).trans <| (ex_hi _ _ (by decide)).trans <| (ex_hi _ _ (by decide)).trans <| ex_lo _ _
  · exact (ex_set _ (by decide)).trans <| (ex_hi _ _ (by decide)).trans <| (ex_hi _ _ (by decide)).trans <| (ex_hi _ _ (by decide)).trans <| (ex_hi _ _ (by decide)).trans <| (ex_hi _ _ (by decide)).trans <| (ex_hi _ _ (by decide)).trans <| (ex_hi _ _ (by decide)).trans <| ex_lo _ _
  · exact (ex_set _ (by decide)).trans <| (ex_hi _ _ (by decide)).trans <| (ex_hi _ _ (by decide)).trans <| (ex_hi _ _ (by decide)).trans <| (ex_hi _ _ (by decide)).trans <| (ex_hi _ _ (by decide)).trans <| (ex_hi _ _ (by decide)).trans <| ex_lo _ _
  · exact (ex_set _ (by decide)).trans <| (ex_hi _ _ (by decide)).trans <| (ex_hi _ _ (by decide)).trans <| (ex_hi _ _ (by decide)).trans <| (ex_hi _ _ (by decide)).trans <| (ex_hi _ _ (by decide)).trans <| ex_lo _ _
  · exact (ex_set _ (by decide)).trans <| (ex_hi _ _ (by decide)).trans <| (ex_hi _ _ (by decide)).trans <| (ex_hi _ _ (by decide)).trans <| (ex_hi _ _ (by decide)).trans <| ex_lo _ _
  · exact (ex_set _ (by decide)).trans <| (ex_hi _ _ (by decide)).trans <| (ex_hi _ _ (by decide)).trans <| (ex_hi _ _ (by decide)).trans <| ex_lo _ _
  · exact (ex_set _ (by decide)).trans <| (ex_hi _ _ (by decide)).trans <| (ex_hi _ _ (by decide)).trans <| ex_lo _ _
  · exact (ex_set _ (by decide)).trans <| (ex_hi _ _ (by decide)).trans <| ex_lo _ _

theorem mmazL6 (p vd abay aoff bbay boff alane blane sg sc) : Statement (.mmazL6 p vd abay aoff bbay boff alane blane sg sc) := by
  refine raw_mmazL6 _ _ _ _ _ _ _ _ _ _ _ (congrArg BitVec.toNat (a₂ := 8#5) ?_) ?_ ?_ ?_ ?_ ?_ ?_ ?_ ?_ ?_ ?_
  · exact (ex_set _ (by decide)).trans <| (ex_hi _ _ (by decide)).trans <| (ex_hi _ _ (by decide)).trans <| (ex_hi _ _ (by decide)).trans <| (ex_hi _ _ (by decide)).trans <| (ex_hi _ _ (by decide)).trans <| (ex_hi _ _ (by decide)).trans <| (ex_hi _ _ (by decide)).trans <| (ex_hi _ _ (by decide)).trans <| (ex_hi _ _ (by decide)).trans <| (ex_hi _ _ (by decide)).trans <| (ex_hi _ _ (by decide)).trans <| ex_all _
  · exact (ex_set _ (by decide)).trans <| (ex_hi _ _ (by decide)).trans <| (ex_hi _ _ (by decide)).trans <| (ex_hi _ _ (by decide)).trans <| (ex_hi _ _ (by decide)).trans <| (ex_hi _ _ (by decide)).trans <| (ex_hi _ _ (by decide)).trans <| (ex_hi _ _ (by decide)).trans <| (ex_hi _ _ (by decide)).trans <| (ex_hi _ _ (by decide)).trans <| (ex_hi _ _ (by decide)).trans <| ex_lo _ _
  · exact (ex_set _ (by decide)).trans <| (ex_hi _ _ (by decide)).trans <| (ex_hi _ _ (by decide)).trans <| (ex_hi _ _ (by decide)).trans <| (ex_hi _ _ (by decide)).trans <| (ex_hi _ _ (by decide)).trans <| (ex_hi _ _ (by decide)).trans <| (ex_hi _ _ (by decide)).trans <| (ex_hi _ _ (by decide)).trans <| (ex_hi _ _ (by decide)).trans <| ex_lo _ _
  · exact (ex_set _ (by decide)).trans <| (ex_hi _ _ (by decide)).trans <| (ex_hi _ _ (by decide)).trans <| (ex_hi _ _ (by decide)).trans <| (ex_hi _ _ (by decide)).trans <| (ex_hi _ _ (by decide)).trans <| (ex_hi _ _ (by decide)).trans <| (ex_hi _ _ (by decide)).trans <| (ex_hi _ _ (by decide)).trans <| ex_lo _ _
  · exact (ex_set _ (by decide)).trans <| (ex_hi _ _ (by decide)).trans <| (ex_hi _ _ (by decide)).trans <| (ex_hi _ _ (by decide)).trans <| (ex_hi _ _ (by decide)).trans <| (ex_hi _ _ (by decide)).trans <| (ex_hi _ _ (by decide)).trans <| (ex_hi _ _ (by decide)).trans <| ex_lo _ _
  · exact (ex_set _ (by decide)).trans <| (ex_hi _ _ (by decide)).trans <| (ex_hi _ _ (by decide)).trans <| (ex_hi _ _ (by decide)).trans <| (ex_hi _ _ (by decide)).trans <| (ex_hi _ _ (by decide)).trans <| (ex_hi _ _ (by decide)).trans <| ex_lo _ _
  · exact (ex_set _ (by decide)).trans <| (ex_hi _ _ (by decide)).trans <| (ex_hi _ _ (by decide)).trans <| (ex_hi _ _ (by decide)).trans <| (ex_hi _ _ (by decide)).trans <| (ex_hi _ _ (by decide)).trans <| ex_lo _ _
  · exact (ex_set _ (by decide)).trans <| (ex_hi _ _ (by decide)).trans <| (ex_hi _ _ (by decide)).trans <| (ex_hi _ _ (by decide)).trans <| (ex_hi _ _ (by decide)).trans <| ex_lo _ _
  · exact (ex_set _ (by decide)).trans <| (ex_hi _ _ (by decide)).trans <| (ex_hi _ _ (by decide)).trans <| (ex_hi _ _ (by decide)).trans <| ex_lo _ _
  · exact (ex_set _ (by decide)).trans <| (ex_hi _ _ (by decide)).trans <| (ex_hi _ _ (by decide)).trans <| ex_lo _ _
  · exact (ex_set _ (by decide)).trans <| (ex_hi _ _ (by decide)).trans <| ex_lo _ _

theorem mmazI8 (p vd abay aoff bbay boff alane blane sg sc) : Statement (.mmazI8 p vd abay aoff bbay boff alane blane sg sc) := by
  refine raw_mmazI8 _ _ _ _ _ _ _ _ _ _ _ (congrArg BitVec.toNat (a₂ := 9#5) ?_) ?_ ?_ ?_ ?_ ?_ ?_ ?_ ?_ ?_ ?_
  · exact (ex_set _ (by decide)).trans <| (ex_hi _ _ (by decide)).trans <| (ex_hi _ _ (by decide)).trans <| (ex_hi _ _ (by decide)).trans <| (ex_hi _ _ (by decide)).trans <| (ex_hi _ _ (by decide)).trans <| (ex_hi _ _ (by decide)).trans <| (ex_hi _ _ (by decide)).trans <| (ex_hi _ _ (by decide)).trans <| (ex_hi _ _ (by decide)).trans <| (ex_hi _ _ (by decide)).trans <| (ex_hi _ _ (by decide)).trans <| ex_all _
  · exact (ex_set _ (by decide)).trans <| (ex_hi _ _ (by decide)).trans <| (ex_hi _ _ (by decide)).trans <| (ex_hi _ _ (by decide)).trans <| (ex_hi _ _ (by decide)).trans <| (ex_hi _ _ (by decide)).trans <| (ex_hi _ _ (by decide)).trans <| (ex_hi _ _ (by decide)).trans <| (ex_hi _ _ (by decide)).trans <| (ex_hi _ _ (by decide)).trans <| (ex_hi _ _ (by decide)).trans <| ex_lo _ _
  · exact (ex_set _ (by decide)).trans <| (ex_hi _ _ (by decide)).trans <| (ex_hi _ _ (by decide)).trans <| (ex_hi _ _ (by decide)).trans <| (ex_hi _ _ (by decide)).trans <| (ex_hi _ _ (by decide)).trans <| (ex_hi _ _ (by decide)).trans <| (ex_hi _ _ (by decide)).trans <| (ex_hi _ _ (by decide)).trans <| (ex_hi _ _ (by decide)).trans <| ex_lo _ _
  · exact (ex_set _ (by decide)).trans <| (ex_hi _ _ (by decide)).trans <| (ex_hi _ _ (by decide)).trans <| (ex_hi _ _ (by decide)).trans <| (ex_hi _ _ (by decide)).trans <| (ex_hi _ _ (by decide)).trans <| (ex_hi _ _ (by decide)).trans <| (ex_hi _ _ (by decide)).trans <| (ex_hi _ _ (by decide)).trans <| ex_lo _ _
  · exact (ex_set _ (by decide)).trans <| (ex_hi _ _ (by decide)).trans <| (ex_hi _ _ (by decide)).trans <| (ex_hi _ _ (by decide)).trans <| (ex_hi _ _ (by decide)).trans <| (ex_hi _ _ (by decide)).trans <| (ex_hi _ _ (by decide)).trans <| (ex_hi _ _ (by decide)).trans <| ex_lo _ _
  · exact (ex_set _ (by decide)).trans <| (ex_hi _ _ (by decide)).trans <| (ex_hi _ _ (by decide)).trans <| (ex_hi _ _ (by decide)).trans <| (ex_hi _ _ (by decide)).trans <| (ex_hi _ _ (by decide)).trans <| (ex_hi _ _ (by decide)).trans <| ex_lo _ _
  · exact (ex_set _ (by decide)).trans <| (ex_hi _ _ (by decide)).trans <| (ex_hi _ _ (by decide)).trans <| (ex_hi _ _ (by decide)).trans <| (ex_hi _ _ (by decide)).trans <| (ex_hi _ _ (by decide)).trans <| ex_lo _ _
  · exact (ex_set _ (by decide)).trans <| (ex_hi _ _ (by decide)).trans <| (ex_hi _ _ (by decide)).trans <| (ex_hi _ _ (by decide)).trans <| (ex_hi _ _ (by decide)).trans <| ex_lo _ _
  · exact (ex_set _ (by decide)).trans <| (ex_hi _ _ (by decide)).trans <| (ex_hi _ _ (by decide)).trans <| (ex_hi _ _ (by decide)).trans <| ex_lo _ _
  · exact (ex_set _ (by decide)).trans <| (ex_hi _ _ (by decide)).trans <| (ex_hi _ _ (by decide)).trans <| ex_lo _ _
  · exact (ex_set _ (by decide)).trans <| (ex_hi _ _ (by decide)).trans <| ex_lo _ _

theorem mmazE4m3 (p vd abay aoff bbay boff alane blane sg sc) : Statement (.mmazE4m3 p vd abay aoff bbay boff alane blane sg sc) := by
  refine raw_mmazE4m3 _ _ _ _ _ _ _ _ _ _ _ (congrArg BitVec.toNat (a₂ := 10#5) ?_) ?_ ?_ ?_ ?_ ?_ ?_ ?_ ?_ ?_ ?_
  · exact (ex_set _ (by decide)).trans <| (ex_hi _ _ (by decide)).trans <| (ex_hi _ _ (by decide)).trans <| (ex_hi _ _ (by decide)).trans <| (ex_hi _ _ (by decide)).trans <| (ex_hi _ _ (by decide)).trans <| (ex_hi _ _ (by decide)).trans <| (ex_hi _ _ (by decide)).trans <| (ex_hi _ _ (by decide)).trans <| (ex_hi _ _ (by decide)).trans <| (ex_hi _ _ (by decide)).trans <| (ex_hi _ _ (by decide)).trans <| ex_all _
  · exact (ex_set _ (by decide)).trans <| (ex_hi _ _ (by decide)).trans <| (ex_hi _ _ (by decide)).trans <| (ex_hi _ _ (by decide)).trans <| (ex_hi _ _ (by decide)).trans <| (ex_hi _ _ (by decide)).trans <| (ex_hi _ _ (by decide)).trans <| (ex_hi _ _ (by decide)).trans <| (ex_hi _ _ (by decide)).trans <| (ex_hi _ _ (by decide)).trans <| (ex_hi _ _ (by decide)).trans <| ex_lo _ _
  · exact (ex_set _ (by decide)).trans <| (ex_hi _ _ (by decide)).trans <| (ex_hi _ _ (by decide)).trans <| (ex_hi _ _ (by decide)).trans <| (ex_hi _ _ (by decide)).trans <| (ex_hi _ _ (by decide)).trans <| (ex_hi _ _ (by decide)).trans <| (ex_hi _ _ (by decide)).trans <| (ex_hi _ _ (by decide)).trans <| (ex_hi _ _ (by decide)).trans <| ex_lo _ _
  · exact (ex_set _ (by decide)).trans <| (ex_hi _ _ (by decide)).trans <| (ex_hi _ _ (by decide)).trans <| (ex_hi _ _ (by decide)).trans <| (ex_hi _ _ (by decide)).trans <| (ex_hi _ _ (by decide)).trans <| (ex_hi _ _ (by decide)).trans <| (ex_hi _ _ (by decide)).trans <| (ex_hi _ _ (by decide)).trans <| ex_lo _ _
  · exact (ex_set _ (by decide)).trans <| (ex_hi _ _ (by decide)).trans <| (ex_hi _ _ (by decide)).trans <| (ex_hi _ _ (by decide)).trans <| (ex_hi _ _ (by decide)).trans <| (ex_hi _ _ (by decide)).trans <| (ex_hi _ _ (by decide)).trans <| (ex_hi _ _ (by decide)).trans <| ex_lo _ _
  · exact (ex_set _ (by decide)).trans <| (ex_hi _ _ (by decide)).trans <| (ex_hi _ _ (by decide)).trans <| (ex_hi _ _ (by decide)).trans <| (ex_hi _ _ (by decide)).trans <| (ex_hi _ _ (by decide)).trans <| (ex_hi _ _ (by decide)).trans <| ex_lo _ _
  · exact (ex_set _ (by decide)).trans <| (ex_hi _ _ (by decide)).trans <| (ex_hi _ _ (by decide)).trans <| (ex_hi _ _ (by decide)).trans <| (ex_hi _ _ (by decide)).trans <| (ex_hi _ _ (by decide)).trans <| ex_lo _ _
  · exact (ex_set _ (by decide)).trans <| (ex_hi _ _ (by decide)).trans <| (ex_hi _ _ (by decide)).trans <| (ex_hi _ _ (by decide)).trans <| (ex_hi _ _ (by decide)).trans <| ex_lo _ _
  · exact (ex_set _ (by decide)).trans <| (ex_hi _ _ (by decide)).trans <| (ex_hi _ _ (by decide)).trans <| (ex_hi _ _ (by decide)).trans <| ex_lo _ _
  · exact (ex_set _ (by decide)).trans <| (ex_hi _ _ (by decide)).trans <| (ex_hi _ _ (by decide)).trans <| ex_lo _ _
  · exact (ex_set _ (by decide)).trans <| (ex_hi _ _ (by decide)).trans <| ex_lo _ _

theorem mmazE5m2 (p vd abay aoff bbay boff alane blane sg sc) : Statement (.mmazE5m2 p vd abay aoff bbay boff alane blane sg sc) := by
  refine raw_mmazE5m2 _ _ _ _ _ _ _ _ _ _ _ (congrArg BitVec.toNat (a₂ := 11#5) ?_) ?_ ?_ ?_ ?_ ?_ ?_ ?_ ?_ ?_ ?_
  · exact (ex_set _ (by decide)).trans <| (ex_hi _ _ (by decide)).trans <| (ex_hi _ _ (by decide)).trans <| (ex_hi _ _ (by decide)).trans <| (ex_hi _ _ (by decide)).trans <| (ex_hi _ _ (by decide)).trans <| (ex_hi _ _ (by decide)).trans <| (ex_hi _ _ (by decide)).trans <| (ex_hi _ _ (by decide)).trans <| (ex_hi _ _ (by decide)).trans <| (ex_hi _ _ (by decide)).trans <| (ex_hi _ _ (by decide)).trans <| ex_all _
  · exact (ex_set _ (by decide)).trans <| (ex_hi _ _ (by decide)).trans <| (ex_hi _ _ (by decide)).trans <| (ex_hi _ _ (by decide)).trans <| (ex_hi _ _ (by decide)).trans <| (ex_hi _ _ (by decide)).trans <| (ex_hi _ _ (by decide)).trans <| (ex_hi _ _ (by decide)).trans <| (ex_hi _ _ (by decide)).trans <| (ex_hi _ _ (by decide)).trans <| (ex_hi _ _ (by decide)).trans <| ex_lo _ _
  · exact (ex_set _ (by decide)).trans <| (ex_hi _ _ (by decide)).trans <| (ex_hi _ _ (by decide)).trans <| (ex_hi _ _ (by decide)).trans <| (ex_hi _ _ (by decide)).trans <| (ex_hi _ _ (by decide)).trans <| (ex_hi _ _ (by decide)).trans <| (ex_hi _ _ (by decide)).trans <| (ex_hi _ _ (by decide)).trans <| (ex_hi _ _ (by decide)).trans <| ex_lo _ _
  · exact (ex_set _ (by decide)).trans <| (ex_hi _ _ (by decide)).trans <| (ex_hi _ _ (by decide)).trans <| (ex_hi _ _ (by decide)).trans <| (ex_hi _ _ (by decide)).trans <| (ex_hi _ _ (by decide)).trans <| (ex_hi _ _ (by decide)).trans <| (ex_hi _ _ (by decide)).trans <| (ex_hi _ _ (by decide)).trans <| ex_lo _ _
  · exact (ex_set _ (by decide)).trans <| (ex_hi _ _ (by decide)).trans <| (ex_hi _ _ (by decide)).trans <| (ex_hi _ _ (by decide)).trans <| (ex_hi _ _ (by decide)).trans <| (ex_hi _ _ (by decide)).trans <| (ex_hi _ _ (by decide)).trans <| (ex_hi _ _ (by decide)).trans <| ex_lo _ _
  · exact (ex_set _ (by decide)).trans <| (ex_hi _ _ (by decide)).trans <| (ex_hi _ _ (by decide)).trans <| (ex_hi _ _ (by decide)).trans <| (ex_hi _ _ (by decide)).trans <| (ex_hi _ _ (by decide)).trans <| (ex_hi _ _ (by decide)).trans <| ex_lo _ _
  · exact (ex_set _ (by decide)).trans <| (ex_hi _ _ (by decide)).trans <| (ex_hi _ _ (by decide)).trans <| (ex_hi _ _ (by decide)).trans <| (ex_hi _ _ (by decide)).trans <| (ex_hi _ _ (by decide)).trans <| ex_lo _ _
  · exact (ex_set _ (by decide)).trans <| (ex_hi _ _ (by decide)).trans <| (ex_hi _ _ (by decide)).trans <| (ex_hi _ _ (by decide)).trans <| (ex_hi _ _ (by decide)).trans <| ex_lo _ _
  · exact (ex_set _ (by decide)).trans <| (ex_hi _ _ (by decide)).trans <| (ex_hi _ _ (by decide)).trans <| (ex_hi _ _ (by decide)).trans <| ex_lo _ _
  · exact (ex_set _ (by decide)).trans <| (ex_hi _ _ (by decide)).trans <| (ex_hi _ _ (by decide)).trans <| ex_lo _ _
  · exact (ex_set _ (by decide)).trans <| (ex_hi _ _ (by decide)).trans <| ex_lo _ _

theorem mmazE4e5 (p vd abay aoff bbay boff alane blane sg sc) : Statement (.mmazE4e5 p vd abay aoff bbay boff alane blane sg sc) := by
  refine raw_mmazE4e5 _ _ _ _ _ _ _ _ _ _ _ (congrArg BitVec.toNat (a₂ := 12#5) ?_) ?_ ?_ ?_ ?_ ?_ ?_ ?_ ?_ ?_ ?_
  · exact (ex_set _ (by decide)).trans <| (ex_hi _ _ (by decide)).trans <| (ex_hi _ _ (by decide)).trans <| (ex_hi _ _ (by decide)).trans <| (ex_hi _ _ (by decide)).trans <| (ex_hi _ _ (by decide)).trans <| (ex_hi _ _ (by decide)).trans <| (ex_hi _ _ (by decide)).trans <| (ex_hi _ _ (by decide)).trans <| (ex_hi _ _ (by decide)).trans <| (ex_hi _ _ (by decide)).trans <| (ex_hi _ _ (by decide)).trans <| ex_all _
  · exact (ex_set _ (by decide)).trans <| (ex_hi _ _ (by decide)).trans <| (ex_hi _ _ (by decide)).trans <| (ex_hi _ _ (by decide)).trans <| (ex_hi _ _ (by decide)).trans <| (ex_hi _ _ (by decide)).trans <| (ex_hi _ _ (by decide)).trans <| (ex_hi _ _ (by decide)).trans <| (ex_hi _ _ (by decide)).trans <| (ex_hi _ _ (by decide)).trans <| (ex_hi _ _ (by decide)).trans <| ex_lo _ _
  · exact (ex_set _ (by decide)).trans <| (ex_hi _ _ (by decide)).trans <| (ex_hi _ _ (by decide)).trans <| (ex_hi _ _ (by decide)).trans <| (ex_hi _ _ (by decide)).trans <| (ex_hi _ _ (by decide)).trans <| (ex_hi _ _ (by decide)).trans <| (ex_hi _ _ (by decide)).trans <| (ex_hi _ _ (by decide)).trans <| (ex_hi _ _ (by decide)).trans <| ex_lo _ _
  · exact (ex_set _ (by decide)).trans <| (ex_hi _ _ (by decide)).trans <| (ex_hi _ _ (by decide)).trans <| (ex_hi _ _ (by decide)).trans <| (ex_hi _ _ (by decide)).trans <| (ex_hi _ _ (by decide)).trans <| (ex_hi _ _ (by decide)).trans <| (ex_hi _ _ (by decide)).trans <| (ex_hi _ _ (by decide)).trans <| ex_lo _ _
  · exact (ex_set _ (by decide)).trans <| (ex_hi _ _ (by decide)).trans <| (ex_hi _ _ (by decide)).trans <| (ex_hi _ _ (by decide)).trans <| (ex_hi _ _ (by decide)).trans <| (ex_hi _ _ (by decide)).trans <| (ex_hi _ _ (by decide)).trans <| (ex_hi _ _ (by decide)).trans <| ex_lo _ _
  · exact (ex_set _ (by decide)).trans <| (ex_hi _ _ (by decide)).trans <| (ex_hi _ _ (by decide)).trans <| (ex_hi _ _ (by decide)).trans <| (ex_hi _ _ (by decide)).trans <| (ex_hi _ _ (by decide)).trans <| (ex_hi _ _ (by decide)).trans <| ex_lo _ _
  · exact (ex_set _ (by decide)).trans <| (ex_hi _ _ (by decide)).trans <| (ex_hi _ _ (by decide)).trans <| (ex_hi _ _ (by decide)).trans <| (ex_hi _ _ (by decide)).trans <| (ex_hi _ _ (by decide)).trans <| ex_lo _ _
  · exact (ex_set _ (by decide)).trans <| (ex_hi _ _ (by decide)).trans <| (ex_hi _ _ (by decide)).trans <| (ex_hi _ _ (by decide)).trans <| (ex_hi _ _ (by decide)).trans <| ex_lo _ _
  · exact (ex_set _ (by decide)).trans <| (ex_hi _ _ (by decide)).trans <| (ex_hi _ _ (by decide)).trans <| (ex_hi _ _ (by decide)).trans <| ex_lo _ _
  · exact (ex_set _ (by decide)).trans <| (ex_hi _ _ (by decide)).trans <| (ex_hi _ _ (by decide)).trans <| ex_lo _ _
  · exact (ex_set _ (by decide)).trans <| (ex_hi _ _ (by decide)).trans <| ex_lo _ _

theorem mmazE5e4 (p vd abay aoff bbay boff alane blane sg sc) : Statement (.mmazE5e4 p vd abay aoff bbay boff alane blane sg sc) := by
  refine raw_mmazE5e4 _ _ _ _ _ _ _ _ _ _ _ (congrArg BitVec.toNat (a₂ := 13#5) ?_) ?_ ?_ ?_ ?_ ?_ ?_ ?_ ?_ ?_ ?_
  · exact (ex_set _ (by decide)).trans <| (ex_hi _ _ (by decide)).trans <| (ex_hi _ _ (by decide)).trans <| (ex_hi _ _ (by decide)).trans <| (ex_hi _ _ (by decide)).trans <| (ex_hi _ _ (by decide)).trans <| (ex_hi _ _ (by decide)).trans <| (ex_hi _ _ (by decide)).trans <| (ex_hi _ _ (by decide)).trans <| (ex_hi _ _ (by decide)).trans <| (ex_hi _ _ (by decide)).trans <| (ex_hi _ _ (by decide)).trans <| ex_all _
  · exact (ex_set _ (by decide)).trans <| (ex_hi _ _ (by decide)).trans <| (ex_hi _ _ (by decide)).trans <| (ex_hi _ _ (by decide)).trans <| (ex_hi _ _ (by decide)).trans <| (ex_hi _ _ (by decide)).trans <| (ex_hi _ _ (by decide)).trans <| (ex_hi _ _ (by decide)).trans <| (ex_hi _ _ (by decide)).trans <| (ex_hi _ _ (by decide)).trans <| (ex_hi _ _ (by decide)).trans <| ex_lo _ _
  · exact (ex_set _ (by decide)).trans <| (ex_hi _ _ (by decide)).trans <| (ex_hi _ _ (by decide)).trans <| (ex_hi _ _ (by decide)).trans <| (ex_hi _ _ (by decide)).trans <| (ex_hi _ _ (by decide)).trans <| (ex_hi _ _ (by decide)).trans <| (ex_hi _ _ (by decide)).trans <| (ex_hi _ _ (by decide)).trans <| (ex_hi _ _ (by decide)).trans <| ex_lo _ _
  · exact (ex_set _ (by decide)).trans <| (ex_hi _ _ (by decide)).trans <| (ex_hi _ _ (by decide)).trans <| (ex_hi _ _ (by decide)).trans <| (ex_hi _ _ (by decide)).trans <| (ex_hi _ _ (by decide)).trans <| (ex_hi _ _ (by decide)).trans <| (ex_hi _ _ (by decide)).trans <| (ex_hi _ _ (by decide)).trans <| ex_lo _ _
  · exact (ex_set _ (by decide)).trans <| (ex_hi _ _ (by decide)).trans <| (ex_hi _ _ (by decide)).trans <| (ex_hi _ _ (by decide)).trans <| (ex_hi _ _ (by decide)).trans <| (ex_hi _ _ (by decide)).trans <| (ex_hi _ _ (by decide)).trans <| (ex_hi _ _ (by decide)).trans <| ex_lo _ _
  · exact (ex_set _ (by decide)).trans <| (ex_hi _ _ (by decide)).trans <| (ex_hi _ _ (by decide)).trans <| (ex_hi _ _ (by decide)).trans <| (ex_hi _ _ (by decide)).trans <| (ex_hi _ _ (by decide)).trans <| (ex_hi _ _ (by decide)).trans <| ex_lo _ _
  · exact (ex_set _ (by decide)).trans <| (ex_hi _ _ (by decide)).trans <| (ex_hi _ _ (by decide)).trans <| (ex_hi _ _ (by decide)).trans <| (ex_hi _ _ (by decide)).trans <| (ex_hi _ _ (by decide)).trans <| ex_lo _ _
  · exact (ex_set _ (by decide)).trans <| (ex_hi _ _ (by decide)).trans <| (ex_hi _ _ (by decide)).trans <| (ex_hi _ _ (by decide)).trans <| (ex_hi _ _ (by decide)).trans <| ex_lo _ _
  · exact (ex_set _ (by decide)).trans <| (ex_hi _ _ (by decide)).trans <| (ex_hi _ _ (by decide)).trans <| (ex_hi _ _ (by decide)).trans <| ex_lo _ _
  · exact (ex_set _ (by decide)).trans <| (ex_hi _ _ (by decide)).trans <| (ex_hi _ _ (by decide)).trans <| ex_lo _ _
  · exact (ex_set _ (by decide)).trans <| (ex_hi _ _ (by decide)).trans <| ex_lo _ _

theorem mmazBf16 (p vd abay aoff bbay boff alane blane sg sc) : Statement (.mmazBf16 p vd abay aoff bbay boff alane blane sg sc) := by
  refine raw_mmazBf16 _ _ _ _ _ _ _ _ _ _ _ (congrArg BitVec.toNat (a₂ := 14#5) ?_) ?_ ?_ ?_ ?_ ?_ ?_ ?_ ?_ ?_ ?_
  · exact (ex_set _ (by decide)).trans <| (ex_hi _ _ (by decide)).trans <| (ex_hi _ _ (by decide)).trans <| (ex_hi _ _ (by decide)).trans <| (ex_hi _ _ (by decide)).trans <| (ex_hi _ _ (by decide)).trans <| (ex_hi _ _ (by decide)).trans <| (ex_hi _ _ (by decide)).trans <| (ex_hi _ _ (by decide)).trans <| (ex_hi _ _ (by decide)).trans <| (ex_hi _ _ (by decide)).trans <| (ex_hi _ _ (by decide)).trans <| ex_all _
  · exact (ex_set _ (by decide)).trans <| (ex_hi _ _ (by decide)).trans <| (ex_hi _ _ (by decide)).trans <| (ex_hi _ _ (by decide)).trans <| (ex_hi _ _ (by decide)).trans <| (ex_hi _ _ (by decide)).trans <| (ex_hi _ _ (by decide)).trans <| (ex_hi _ _ (by decide)).trans <| (ex_hi _ _ (by decide)).trans <| (ex_hi _ _ (by decide)).trans <| (ex_hi _ _ (by decide)).trans <| ex_lo _ _
  · exact (ex_set _ (by decide)).trans <| (ex_hi _ _ (by decide)).trans <| (ex_hi _ _ (by decide)).trans <| (ex_hi _ _ (by decide)).trans <| (ex_hi _ _ (by decide)).trans <| (ex_hi _ _ (by decide)).trans <| (ex_hi _ _ (by decide)).trans <| (ex_hi _ _ (by decide)).trans <| (ex_hi _ _ (by decide)).trans <| (ex_hi _ _ (by decide)).trans <| ex_lo _ _
  · exact (ex_set _ (by decide)).trans <| (ex_hi _ _ (by decide)).trans <| (ex_hi _ _ (by decide)).trans <| (ex_hi _ _ (by decide)).trans <| (ex_hi _ _ (by decide)).trans <| (ex_hi _ _ (by decide)).trans <| (ex_hi _ _ (by decide)).trans <| (ex_hi _ _ (by decide)).trans <| (ex_hi _ _ (by decide)).trans <| ex_lo _ _
  · exact (ex_set _ (by decide)).trans <| (ex_hi _ _ (by decide)).trans <| (ex_hi _ _ (by decide)).trans <| (ex_hi _ _ (by decide)).trans <| (ex_hi _ _ (by decide)).trans <| (ex_hi _ _ (by decide)).trans <| (ex_hi _ _ (by decide)).trans <| (ex_hi _ _ (by decide)).trans <| ex_lo _ _
  · exact (ex_set _ (by decide)).trans <| (ex_hi _ _ (by decide)).trans <| (ex_hi _ _ (by decide)).trans <| (ex_hi _ _ (by decide)).trans <| (ex_hi _ _ (by decide)).trans <| (ex_hi _ _ (by decide)).trans <| (ex_hi _ _ (by decide)).trans <| ex_lo _ _
  · exact (ex_set _ (by decide)).trans <| (ex_hi _ _ (by decide)).trans <| (ex_hi _ _ (by decide)).trans <| (ex_hi _ _ (by decide)).trans <| (ex_hi _ _ (by decide)).trans <| (ex_hi _ _ (by decide)).trans <| ex_lo _ _
  · exact (ex_set _ (by decide)).trans <| (ex_hi _ _ (by decide)).trans <| (ex_hi _ _ (by decide)).trans <| (ex_hi _ _ (by decide)).trans <| (ex_hi _ _ (by decide)).trans <| ex_lo _ _
  · exact (ex_set _ (by decide)).trans <| (ex_hi _ _ (by decide)).trans <| (ex_hi _ _ (by decide)).trans <| (ex_hi _ _ (by decide)).trans <| ex_lo _ _
  · exact (ex_set _ (by decide)).trans <| (ex_hi _ _ (by decide)).trans <| (ex_hi _ _ (by decide)).trans <| ex_lo _ _
  · exact (ex_set _ (by decide)).trans <| (ex_hi _ _ (by decide)).trans <| ex_lo _ _

theorem mmazFp16 (p vd abay aoff bbay boff alane blane sg sc) : Statement (.mmazFp16 p vd abay aoff bbay boff alane blane sg sc) := by
  refine raw_mmazFp16 _ _ _ _ _ _ _ _ _ _ _ (congrArg BitVec.toNat (a₂ := 15#5) ?_) ?_ ?_ ?_ ?_ ?_ ?_ ?_ ?_ ?_ ?_
  · exact (ex_set _ (by decide)).trans <| (ex_hi _ _ (by decide)).trans <| (ex_hi _ _ (by decide)).trans <| (ex_hi _ _ (by decide)).trans <| (ex_hi _ _ (by decide)).trans <| (ex_hi _ _ (by decide)).trans <| (ex_hi _ _ (by decide)).trans <| (ex_hi _ _ (by decide)).trans <| (ex_hi _ _ (by decide)).trans <| (ex_hi _ _ (by decide)).trans <| (ex_hi _ _ (by decide)).trans <| (ex_hi _ _ (by decide)).trans <| ex_all _
  · exact (ex_set _ (by decide)).trans <| (ex_hi _ _ (by decide)).trans <| (ex_hi _ _ (by decide)).trans <| (ex_hi _ _ (by decide)).trans <| (ex_hi _ _ (by decide)).trans <| (ex_hi _ _ (by decide)).trans <| (ex_hi _ _ (by decide)).trans <| (ex_hi _ _ (by decide)).trans <| (ex_hi _ _ (by decide)).trans <| (ex_hi _ _ (by decide)).trans <| (ex_hi _ _ (by decide)).trans <| ex_lo _ _
  · exact (ex_set _ (by decide)).trans <| (ex_hi _ _ (by decide)).trans <| (ex_hi _ _ (by decide)).trans <| (ex_hi _ _ (by decide)).trans <| (ex_hi _ _ (by decide)).trans <| (ex_hi _ _ (by decide)).trans <| (ex_hi _ _ (by decide)).trans <| (ex_hi _ _ (by decide)).trans <| (ex_hi _ _ (by decide)).trans <| (ex_hi _ _ (by decide)).trans <| ex_lo _ _
  · exact (ex_set _ (by decide)).trans <| (ex_hi _ _ (by decide)).trans <| (ex_hi _ _ (by decide)).trans <| (ex_hi _ _ (by decide)).trans <| (ex_hi _ _ (by decide)).trans <| (ex_hi _ _ (by decide)).trans <| (ex_hi _ _ (by decide)).trans <| (ex_hi _ _ (by decide)).trans <| (ex_hi _ _ (by decide)).trans <| ex_lo _ _
  · exact (ex_set _ (by decide)).trans <| (ex_hi _ _ (by decide)).trans <| (ex_hi _ _ (by decide)).trans <| (ex_hi _ _ (by decide)).trans <| (ex_hi _ _ (by decide)).trans <| (ex_hi _ _ (by decide)).trans <| (ex_hi _ _ (by decide)).trans <| (ex_hi _ _ (by decide)).trans <| ex_lo _ _
  · exact (ex_set _ (by decide)).trans <| (ex_hi _ _ (by decide)).trans <| (ex_hi _ _ (by decide)).trans <| (ex_hi _ _ (by decide)).trans <| (ex_hi _ _ (by decide)).trans <| (ex_hi _ _ (by decide)).trans <| (ex_hi _ _ (by decide)).trans <| ex_lo _ _
  · exact (ex_set _ (by decide)).trans <| (ex_hi _ _ (by decide)).trans <| (ex_hi _ _ (by decide)).trans <| (ex_hi _ _ (by decide)).trans <| (ex_hi _ _ (by decide)).trans <| (ex_hi _ _ (by decide)).trans <| ex_lo _ _
  · exact (ex_set _ (by decide)).trans <| (ex_hi _ _ (by decide)).trans <| (ex_hi _ _ (by decide)).trans <| (ex_hi _ _ (by decide)).trans <| (ex_hi _ _ (by decide)).trans <| ex_lo _ _
  · exact (ex_set _ (by decide)).trans <| (ex_hi _ _ (by decide)).trans <| (ex_hi _ _ (by decide)).trans <| (ex_hi _ _ (by decide)).trans <| ex_lo _ _
  · exact (ex_set _ (by decide)).trans <| (ex_hi _ _ (by decide)).trans <| (ex_hi _ _ (by decide)).trans <| ex_lo _ _
  · exact (ex_set _ (by decide)).trans <| (ex_hi _ _ (by decide)).trans <| ex_lo _ _

theorem mxhint (p burst) : Statement (.mxhint p burst) := by
  refine raw_mxhint _ _ _ (congrArg BitVec.toNat (a₂ := 16#5) ?_) ?_ ?_
  · exact (ex_set _ (by decide)).trans <| (ex_hi _ _ (by decide)).trans <| (ex_hi _ _ (by decide)).trans <| (ex_hi _ _ (by decide)).trans <| ex_all _
  · exact (ex_set _ (by decide)).trans <| (ex_hi _ _ (by decide)).trans <| (ex_hi _ _ (by decide)).trans <| ex_lo _ _
  · exact (ex_set _ (by decide)).trans <| ex_lo _ _

theorem cmode (p mode mask) : Statement (.cmode p mode mask) := by
  refine raw_cmode _ _ _ _ (congrArg BitVec.toNat (a₂ := 17#5) ?_) ?_ ?_ ?_
  · exact (ex_set _ (by decide)).trans <| (ex_hi _ _ (by decide)).trans <| (ex_hi _ _ (by decide)).trans <| (ex_hi _ _ (by decide)).trans <| (ex_hi _ _ (by decide)).trans <| ex_all _
  · exact (ex_set _ (by decide)).trans <| (ex_hi _ _ (by decide)).trans <| (ex_hi _ _ (by decide)).trans <| (ex_hi _ _ (by decide)).trans <| ex_lo _ _
  · exact (ex_set _ (by decide)).trans <| (ex_hi _ _ (by decide)).trans <| ex_lo _ _
  · exact (ex_set _ (by decide)).trans <| ex_lo _ _

theorem cloadRow (p vs cm first wfmt) : Statement (.cloadRow p vs cm first wfmt) := by
  refine raw_cloadRow _ _ _ _ _ _ (congrArg BitVec.toNat (a₂ := 18#5) ?_) ?_ ?_ ?_ ?_ ?_
  · exact (ex_set _ (by decide)).trans <| (ex_hi _ _ (by decide)).trans <| (ex_hi _ _ (by decide)).trans <| (ex_hi _ _ (by decide)).trans <| (ex_hi _ _ (by decide)).trans <| (ex_hi _ _ (by decide)).trans <| (ex_hi _ _ (by decide)).trans <| ex_all _
  · exact (ex_set _ (by decide)).trans <| (ex_hi _ _ (by decide)).trans <| (ex_hi _ _ (by decide)).trans <| (ex_hi _ _ (by decide)).trans <| (ex_hi _ _ (by decide)).trans <| (ex_hi _ _ (by decide)).trans <| ex_lo _ _
  · exact (ex_set _ (by decide)).trans <| (ex_hi _ _ (by decide)).trans <| (ex_hi _ _ (by decide)).trans <| (ex_hi _ _ (by decide)).trans <| (ex_hi _ _ (by decide)).trans <| ex_lo _ _
  · exact (ex_set _ (by decide)).trans <| (ex_hi _ _ (by decide)).trans <| (ex_hi _ _ (by decide)).trans <| (ex_hi _ _ (by decide)).trans <| ex_lo _ _
  · exact (ex_set _ (by decide)).trans <| (ex_hi _ _ (by decide)).trans <| (ex_hi _ _ (by decide)).trans <| ex_lo _ _
  · exact (ex_set _ (by decide)).trans <| (ex_hi _ _ (by decide)).trans <| ex_lo _ _

theorem cloadRound (p bay off lane cm first wfmt) : Statement (.cloadRound p bay off lane cm first wfmt) := by
  refine raw_cloadRound _ _ _ _ _ _ _ _ (congrArg BitVec.toNat (a₂ := 19#5) ?_) ?_ ?_ ?_ ?_ ?_ ?_ ?_
  · exact (ex_set _ (by decide)).trans <| (ex_hi _ _ (by decide)).trans <| (ex_hi _ _ (by decide)).trans <| (ex_hi _ _ (by decide)).trans <| (ex_hi _ _ (by decide)).trans <| (ex_hi _ _ (by decide)).trans <| (ex_hi _ _ (by decide)).trans <| (ex_hi _ _ (by decide)).trans <| (ex_hi _ _ (by decide)).trans <| ex_all _
  · exact (ex_set _ (by decide)).trans <| (ex_hi _ _ (by decide)).trans <| (ex_hi _ _ (by decide)).trans <| (ex_hi _ _ (by decide)).trans <| (ex_hi _ _ (by decide)).trans <| (ex_hi _ _ (by decide)).trans <| (ex_hi _ _ (by decide)).trans <| (ex_hi _ _ (by decide)).trans <| ex_lo _ _
  · exact (ex_set _ (by decide)).trans <| (ex_hi _ _ (by decide)).trans <| (ex_hi _ _ (by decide)).trans <| (ex_hi _ _ (by decide)).trans <| (ex_hi _ _ (by decide)).trans <| (ex_hi _ _ (by decide)).trans <| (ex_hi _ _ (by decide)).trans <| ex_lo _ _
  · exact (ex_set _ (by decide)).trans <| (ex_hi _ _ (by decide)).trans <| (ex_hi _ _ (by decide)).trans <| (ex_hi _ _ (by decide)).trans <| (ex_hi _ _ (by decide)).trans <| (ex_hi _ _ (by decide)).trans <| ex_lo _ _
  · exact (ex_set _ (by decide)).trans <| (ex_hi _ _ (by decide)).trans <| (ex_hi _ _ (by decide)).trans <| (ex_hi _ _ (by decide)).trans <| (ex_hi _ _ (by decide)).trans <| ex_lo _ _
  · exact (ex_set _ (by decide)).trans <| (ex_hi _ _ (by decide)).trans <| (ex_hi _ _ (by decide)).trans <| (ex_hi _ _ (by decide)).trans <| ex_lo _ _
  · exact (ex_set _ (by decide)).trans <| (ex_hi _ _ (by decide)).trans <| (ex_hi _ _ (by decide)).trans <| ex_lo _ _
  · exact (ex_set _ (by decide)).trans <| (ex_hi _ _ (by decide)).trans <| ex_lo _ _

theorem cswap (p mask) : Statement (.cswap p mask) := by
  refine raw_cswap _ _ _ (congrArg BitVec.toNat (a₂ := 20#5) ?_) ?_ ?_
  · exact (ex_set _ (by decide)).trans <| (ex_hi _ _ (by decide)).trans <| (ex_hi _ _ (by decide)).trans <| (ex_hi _ _ (by decide)).trans <| ex_all _
  · exact (ex_set _ (by decide)).trans <| (ex_hi _ _ (by decide)).trans <| (ex_hi _ _ (by decide)).trans <| ex_lo _ _
  · exact (ex_set _ (by decide)).trans <| ex_lo _ _

theorem cmacRow (p mask va abits asigned wacc) : Statement (.cmacRow p mask va abits asigned wacc) := by
  refine raw_cmacRow _ _ _ _ _ _ _ (congrArg BitVec.toNat (a₂ := 21#5) ?_) ?_ ?_ ?_ ?_ ?_ ?_
  · exact (ex_set _ (by decide)).trans <| (ex_hi _ _ (by decide)).trans <| (ex_hi _ _ (by decide)).trans <| (ex_hi _ _ (by decide)).trans <| (ex_hi _ _ (by decide)).trans <| (ex_hi _ _ (by decide)).trans <| (ex_hi _ _ (by decide)).trans <| (ex_hi _ _ (by decide)).trans <| ex_all _
  · exact (ex_set _ (by decide)).trans <| (ex_hi _ _ (by decide)).trans <| (ex_hi _ _ (by decide)).trans <| (ex_hi _ _ (by decide)).trans <| (ex_hi _ _ (by decide)).trans <| (ex_hi _ _ (by decide)).trans <| (ex_hi _ _ (by decide)).trans <| ex_lo _ _
  · exact (ex_set _ (by decide)).trans <| (ex_hi _ _ (by decide)).trans <| (ex_hi _ _ (by decide)).trans <| (ex_hi _ _ (by decide)).trans <| (ex_hi _ _ (by decide)).trans <| (ex_hi _ _ (by decide)).trans <| ex_lo _ _
  · exact (ex_set _ (by decide)).trans <| (ex_hi _ _ (by decide)).trans <| (ex_hi _ _ (by decide)).trans <| (ex_hi _ _ (by decide)).trans <| (ex_hi _ _ (by decide)).trans <| ex_lo _ _
  · exact (ex_set _ (by decide)).trans <| (ex_hi _ _ (by decide)).trans <| (ex_hi _ _ (by decide)).trans <| (ex_hi _ _ (by decide)).trans <| ex_lo _ _
  · exact (ex_set _ (by decide)).trans <| (ex_hi _ _ (by decide)).trans <| (ex_hi _ _ (by decide)).trans <| ex_lo _ _
  · exact (ex_set _ (by decide)).trans <| (ex_hi _ _ (by decide)).trans <| ex_lo _ _

theorem cmacRound (p mask bay off lane abits asigned wacc) : Statement (.cmacRound p mask bay off lane abits asigned wacc) := by
  refine raw_cmacRound _ _ _ _ _ _ _ _ _ (congrArg BitVec.toNat (a₂ := 22#5) ?_) ?_ ?_ ?_ ?_ ?_ ?_ ?_ ?_
  · exact (ex_set _ (by decide)).trans <| (ex_hi _ _ (by decide)).trans <| (ex_hi _ _ (by decide)).trans <| (ex_hi _ _ (by decide)).trans <| (ex_hi _ _ (by decide)).trans <| (ex_hi _ _ (by decide)).trans <| (ex_hi _ _ (by decide)).trans <| (ex_hi _ _ (by decide)).trans <| (ex_hi _ _ (by decide)).trans <| (ex_hi _ _ (by decide)).trans <| ex_all _
  · exact (ex_set _ (by decide)).trans <| (ex_hi _ _ (by decide)).trans <| (ex_hi _ _ (by decide)).trans <| (ex_hi _ _ (by decide)).trans <| (ex_hi _ _ (by decide)).trans <| (ex_hi _ _ (by decide)).trans <| (ex_hi _ _ (by decide)).trans <| (ex_hi _ _ (by decide)).trans <| (ex_hi _ _ (by decide)).trans <| ex_lo _ _
  · exact (ex_set _ (by decide)).trans <| (ex_hi _ _ (by decide)).trans <| (ex_hi _ _ (by decide)).trans <| (ex_hi _ _ (by decide)).trans <| (ex_hi _ _ (by decide)).trans <| (ex_hi _ _ (by decide)).trans <| (ex_hi _ _ (by decide)).trans <| (ex_hi _ _ (by decide)).trans <| ex_lo _ _
  · exact (ex_set _ (by decide)).trans <| (ex_hi _ _ (by decide)).trans <| (ex_hi _ _ (by decide)).trans <| (ex_hi _ _ (by decide)).trans <| (ex_hi _ _ (by decide)).trans <| (ex_hi _ _ (by decide)).trans <| (ex_hi _ _ (by decide)).trans <| ex_lo _ _
  · exact (ex_set _ (by decide)).trans <| (ex_hi _ _ (by decide)).trans <| (ex_hi _ _ (by decide)).trans <| (ex_hi _ _ (by decide)).trans <| (ex_hi _ _ (by decide)).trans <| (ex_hi _ _ (by decide)).trans <| ex_lo _ _
  · exact (ex_set _ (by decide)).trans <| (ex_hi _ _ (by decide)).trans <| (ex_hi _ _ (by decide)).trans <| (ex_hi _ _ (by decide)).trans <| (ex_hi _ _ (by decide)).trans <| ex_lo _ _
  · exact (ex_set _ (by decide)).trans <| (ex_hi _ _ (by decide)).trans <| (ex_hi _ _ (by decide)).trans <| (ex_hi _ _ (by decide)).trans <| ex_lo _ _
  · exact (ex_set _ (by decide)).trans <| (ex_hi _ _ (by decide)).trans <| (ex_hi _ _ (by decide)).trans <| ex_lo _ _
  · exact (ex_set _ (by decide)).trans <| (ex_hi _ _ (by decide)).trans <| ex_lo _ _

theorem cread (p vd cm half) : Statement (.cread p vd cm half) := by
  refine raw_cread _ _ _ _ _ (congrArg BitVec.toNat (a₂ := 23#5) ?_) ?_ ?_ ?_ ?_
  · exact (ex_set _ (by decide)).trans <| (ex_hi _ _ (by decide)).trans <| (ex_hi _ _ (by decide)).trans <| (ex_hi _ _ (by decide)).trans <| (ex_hi _ _ (by decide)).trans <| (ex_hi _ _ (by decide)).trans <| ex_all _
  · exact (ex_set _ (by decide)).trans <| (ex_hi _ _ (by decide)).trans <| (ex_hi _ _ (by decide)).trans <| (ex_hi _ _ (by decide)).trans <| (ex_hi _ _ (by decide)).trans <| ex_lo _ _
  · exact (ex_set _ (by decide)).trans <| (ex_hi _ _ (by decide)).trans <| (ex_hi _ _ (by decide)).trans <| (ex_hi _ _ (by decide)).trans <| ex_lo _ _
  · exact (ex_set _ (by decide)).trans <| (ex_hi _ _ (by decide)).trans <| (ex_hi _ _ (by decide)).trans <| ex_lo _ _
  · exact (ex_set _ (by decide)).trans <| (ex_hi _ _ (by decide)).trans <| ex_lo _ _

theorem creadK (p vd cm half) : Statement (.creadK p vd cm half) := by
  refine raw_creadK _ _ _ _ _ (congrArg BitVec.toNat (a₂ := 24#5) ?_) ?_ ?_ ?_ ?_
  · exact (ex_set _ (by decide)).trans <| (ex_hi _ _ (by decide)).trans <| (ex_hi _ _ (by decide)).trans <| (ex_hi _ _ (by decide)).trans <| (ex_hi _ _ (by decide)).trans <| (ex_hi _ _ (by decide)).trans <| ex_all _
  · exact (ex_set _ (by decide)).trans <| (ex_hi _ _ (by decide)).trans <| (ex_hi _ _ (by decide)).trans <| (ex_hi _ _ (by decide)).trans <| (ex_hi _ _ (by decide)).trans <| ex_lo _ _
  · exact (ex_set _ (by decide)).trans <| (ex_hi _ _ (by decide)).trans <| (ex_hi _ _ (by decide)).trans <| (ex_hi _ _ (by decide)).trans <| ex_lo _ _
  · exact (ex_set _ (by decide)).trans <| (ex_hi _ _ (by decide)).trans <| (ex_hi _ _ (by decide)).trans <| ex_lo _ _
  · exact (ex_set _ (by decide)).trans <| (ex_hi _ _ (by decide)).trans <| ex_lo _ _

theorem cclr (p mask) : Statement (.cclr p mask) := by
  refine raw_cclr _ _ _ (congrArg BitVec.toNat (a₂ := 25#5) ?_) ?_ ?_
  · exact (ex_set _ (by decide)).trans <| (ex_hi _ _ (by decide)).trans <| (ex_hi _ _ (by decide)).trans <| (ex_hi _ _ (by decide)).trans <| ex_all _
  · exact (ex_set _ (by decide)).trans <| (ex_hi _ _ (by decide)).trans <| (ex_hi _ _ (by decide)).trans <| ex_lo _ _
  · exact (ex_set _ (by decide)).trans <| ex_lo _ _

theorem cchk (p bank cm) : Statement (.cchk p bank cm) := by
  refine raw_cchk _ _ _ _ (congrArg BitVec.toNat (a₂ := 26#5) ?_) ?_ ?_ ?_
  · exact (ex_set _ (by decide)).trans <| (ex_hi _ _ (by decide)).trans <| (ex_hi _ _ (by decide)).trans <| (ex_hi _ _ (by decide)).trans <| (ex_hi _ _ (by decide)).trans <| ex_all _
  · exact (ex_set _ (by decide)).trans <| (ex_hi _ _ (by decide)).trans <| (ex_hi _ _ (by decide)).trans <| (ex_hi _ _ (by decide)).trans <| ex_lo _ _
  · exact (ex_set _ (by decide)).trans <| (ex_hi _ _ (by decide)).trans <| ex_lo _ _
  · exact (ex_set _ (by decide)).trans <| ex_lo _ _

theorem ld (p vd w kd delay) : Statement (.ld p vd w kd delay) := by
  refine raw_ld _ _ _ _ _ _ (congrArg BitVec.toNat (a₂ := 0#4) ?_) ?_ ?_ ?_ ?_ ?_
  · exact (ex_set _ (by decide)).trans <| (ex_set _ (by decide)).trans <| (ex_hi _ _ (by decide)).trans <| (ex_hi _ _ (by decide)).trans <| (ex_hi _ _ (by decide)).trans <| (ex_hi _ _ (by decide)).trans <| (ex_hi _ _ (by decide)).trans <| (ex_hi _ _ (by decide)).trans <| ex_all _
  · exact (ex_set _ (by decide)).trans <| (ex_set _ (by decide)).trans <| (ex_hi _ _ (by decide)).trans <| (ex_hi _ _ (by decide)).trans <| (ex_hi _ _ (by decide)).trans <| (ex_hi _ _ (by decide)).trans <| (ex_hi _ _ (by decide)).trans <| ex_lo _ _
  · exact (ex_set _ (by decide)).trans <| (ex_set _ (by decide)).trans <| (ex_hi _ _ (by decide)).trans <| (ex_hi _ _ (by decide)).trans <| (ex_hi _ _ (by decide)).trans <| (ex_hi _ _ (by decide)).trans <| ex_lo _ _
  · exact (ex_set _ (by decide)).trans <| (ex_set _ (by decide)).trans <| (ex_hi _ _ (by decide)).trans <| (ex_hi _ _ (by decide)).trans <| (ex_hi _ _ (by decide)).trans <| ex_lo _ _
  · exact (ex_set _ (by decide)).trans <| (ex_set _ (by decide)).trans <| (ex_hi _ _ (by decide)).trans <| (ex_hi _ _ (by decide)).trans <| ex_lo _ _
  · exact (ex_set _ (by decide)).trans <| (ex_set _ (by decide)).trans <| (ex_hi _ _ (by decide)).trans <| ex_lo _ _

theorem ldr (p vd bay off lane) : Statement (.ldr p vd bay off lane) := by
  refine raw_ldr _ _ _ _ _ _ (congrArg BitVec.toNat (a₂ := 1#4) ?_) ?_ ?_ ?_ ?_ ?_
  · exact (ex_set _ (by decide)).trans <| (ex_set _ (by decide)).trans <| (ex_hi _ _ (by decide)).trans <| (ex_hi _ _ (by decide)).trans <| (ex_hi _ _ (by decide)).trans <| (ex_hi _ _ (by decide)).trans <| (ex_hi _ _ (by decide)).trans <| (ex_hi _ _ (by decide)).trans <| ex_all _
  · exact (ex_set _ (by decide)).trans <| (ex_set _ (by decide)).trans <| (ex_hi _ _ (by decide)).trans <| (ex_hi _ _ (by decide)).trans <| (ex_hi _ _ (by decide)).trans <| (ex_hi _ _ (by decide)).trans <| (ex_hi _ _ (by decide)).trans <| ex_lo _ _
  · exact (ex_set _ (by decide)).trans <| (ex_set _ (by decide)).trans <| (ex_hi _ _ (by decide)).trans <| (ex_hi _ _ (by decide)).trans <| (ex_hi _ _ (by decide)).trans <| (ex_hi _ _ (by decide)).trans <| ex_lo _ _
  · exact (ex_set _ (by decide)).trans <| (ex_set _ (by decide)).trans <| (ex_hi _ _ (by decide)).trans <| (ex_hi _ _ (by decide)).trans <| (ex_hi _ _ (by decide)).trans <| ex_lo _ _
  · exact (ex_set _ (by decide)).trans <| (ex_set _ (by decide)).trans <| (ex_hi _ _ (by decide)).trans <| (ex_hi _ _ (by decide)).trans <| ex_lo _ _
  · exact (ex_set _ (by decide)).trans <| (ex_set _ (by decide)).trans <| (ex_hi _ _ (by decide)).trans <| ex_lo _ _

theorem ldkStream (p kd w delay) : Statement (.ldkStream p kd w delay) := by
  refine raw_ldkStream _ _ _ _ _ (congrArg BitVec.toNat (a₂ := 2#4) ?_) ?_ ?_ ?_ ?_
  · exact (ex_set _ (by decide)).trans <| (ex_set _ (by decide)).trans <| (ex_hi _ _ (by decide)).trans <| (ex_hi _ _ (by decide)).trans <| (ex_hi _ _ (by decide)).trans <| (ex_hi _ _ (by decide)).trans <| (ex_hi _ _ (by decide)).trans <| ex_all _
  · exact (ex_set _ (by decide)).trans <| (ex_set _ (by decide)).trans <| (ex_hi _ _ (by decide)).trans <| (ex_hi _ _ (by decide)).trans <| (ex_hi _ _ (by decide)).trans <| (ex_hi _ _ (by decide)).trans <| ex_lo _ _
  · exact (ex_set _ (by decide)).trans <| (ex_set _ (by decide)).trans <| (ex_hi _ _ (by decide)).trans <| (ex_hi _ _ (by decide)).trans <| (ex_hi _ _ (by decide)).trans <| ex_lo _ _
  · exact (ex_set _ (by decide)).trans <| (ex_set _ (by decide)).trans <| (ex_hi _ _ (by decide)).trans <| (ex_hi _ _ (by decide)).trans <| ex_lo _ _
  · exact (ex_set _ (by decide)).trans <| (ex_set _ (by decide)).trans <| (ex_hi _ _ (by decide)).trans <| ex_lo _ _

theorem ldkRound (p kd bay off lane) : Statement (.ldkRound p kd bay off lane) := by
  refine raw_ldkRound _ _ _ _ _ _ (congrArg BitVec.toNat (a₂ := 3#4) ?_) ?_ ?_ ?_ ?_ ?_
  · exact (ex_set _ (by decide)).trans <| (ex_set _ (by decide)).trans <| (ex_hi _ _ (by decide)).trans <| (ex_hi _ _ (by decide)).trans <| (ex_hi _ _ (by decide)).trans <| (ex_hi _ _ (by decide)).trans <| (ex_hi _ _ (by decide)).trans <| (ex_hi _ _ (by decide)).trans <| ex_all _
  · exact (ex_set _ (by decide)).trans <| (ex_set _ (by decide)).trans <| (ex_hi _ _ (by decide)).trans <| (ex_hi _ _ (by decide)).trans <| (ex_hi _ _ (by decide)).trans <| (ex_hi _ _ (by decide)).trans <| (ex_hi _ _ (by decide)).trans <| ex_lo _ _
  · exact (ex_set _ (by decide)).trans <| (ex_set _ (by decide)).trans <| (ex_hi _ _ (by decide)).trans <| (ex_hi _ _ (by decide)).trans <| (ex_hi _ _ (by decide)).trans <| (ex_hi _ _ (by decide)).trans <| ex_lo _ _
  · exact (ex_set _ (by decide)).trans <| (ex_set _ (by decide)).trans <| (ex_hi _ _ (by decide)).trans <| (ex_hi _ _ (by decide)).trans <| (ex_hi _ _ (by decide)).trans <| ex_lo _ _
  · exact (ex_set _ (by decide)).trans <| (ex_set _ (by decide)).trans <| (ex_hi _ _ (by decide)).trans <| (ex_hi _ _ (by decide)).trans <| ex_lo _ _
  · exact (ex_set _ (by decide)).trans <| (ex_set _ (by decide)).trans <| (ex_hi _ _ (by decide)).trans <| ex_lo _ _

theorem ldsRound (p sd bay off8 lane) : Statement (.ldsRound p sd bay off8 lane) := by
  refine raw_ldsRound _ _ _ _ _ _ (congrArg BitVec.toNat (a₂ := 4#4) ?_) ?_ ?_ ?_ ?_ ?_
  · exact (ex_set _ (by decide)).trans <| (ex_set _ (by decide)).trans <| (ex_hi _ _ (by decide)).trans <| (ex_hi _ _ (by decide)).trans <| (ex_hi _ _ (by decide)).trans <| (ex_hi _ _ (by decide)).trans <| (ex_hi _ _ (by decide)).trans <| (ex_hi _ _ (by decide)).trans <| ex_all _
  · exact (ex_set _ (by decide)).trans <| (ex_set _ (by decide)).trans <| (ex_hi _ _ (by decide)).trans <| (ex_hi _ _ (by decide)).trans <| (ex_hi _ _ (by decide)).trans <| (ex_hi _ _ (by decide)).trans <| (ex_hi _ _ (by decide)).trans <| ex_lo _ _
  · exact (ex_set _ (by decide)).trans <| (ex_set _ (by decide)).trans <| (ex_hi _ _ (by decide)).trans <| (ex_hi _ _ (by decide)).trans <| (ex_hi _ _ (by decide)).trans <| (ex_hi _ _ (by decide)).trans <| ex_lo _ _
  · exact (ex_set _ (by decide)).trans <| (ex_set _ (by decide)).trans <| (ex_hi _ _ (by decide)).trans <| (ex_hi _ _ (by decide)).trans <| (ex_hi _ _ (by decide)).trans <| ex_lo _ _
  · exact (ex_set _ (by decide)).trans <| (ex_set _ (by decide)).trans <| (ex_hi _ _ (by decide)).trans <| (ex_hi _ _ (by decide)).trans <| ex_lo _ _
  · exact (ex_set _ (by decide)).trans <| (ex_set _ (by decide)).trans <| (ex_hi _ _ (by decide)).trans <| ex_lo _ _

theorem ldsStream (p sd w delay) : Statement (.ldsStream p sd w delay) := by
  refine raw_ldsStream _ _ _ _ _ (congrArg BitVec.toNat (a₂ := 5#4) ?_) ?_ ?_ ?_ ?_
  · exact (ex_set _ (by decide)).trans <| (ex_set _ (by decide)).trans <| (ex_hi _ _ (by decide)).trans <| (ex_hi _ _ (by decide)).trans <| (ex_hi _ _ (by decide)).trans <| (ex_hi _ _ (by decide)).trans <| (ex_hi _ _ (by decide)).trans <| ex_all _
  · exact (ex_set _ (by decide)).trans <| (ex_set _ (by decide)).trans <| (ex_hi _ _ (by decide)).trans <| (ex_hi _ _ (by decide)).trans <| (ex_hi _ _ (by decide)).trans <| (ex_hi _ _ (by decide)).trans <| ex_lo _ _
  · exact (ex_set _ (by decide)).trans <| (ex_set _ (by decide)).trans <| (ex_hi _ _ (by decide)).trans <| (ex_hi _ _ (by decide)).trans <| (ex_hi _ _ (by decide)).trans <| ex_lo _ _
  · exact (ex_set _ (by decide)).trans <| (ex_set _ (by decide)).trans <| (ex_hi _ _ (by decide)).trans <| (ex_hi _ _ (by decide)).trans <| ex_lo _ _
  · exact (ex_set _ (by decide)).trans <| (ex_set _ (by decide)).trans <| (ex_hi _ _ (by decide)).trans <| ex_lo _ _

theorem popVector (p vd q delay) : Statement (.popVector p vd q delay) := by
  refine raw_popVector _ _ _ _ _ (congrArg BitVec.toNat (a₂ := 6#4) ?_) ?_ ?_ ?_ ?_
  · exact (ex_set _ (by decide)).trans <| (ex_set _ (by decide)).trans <| (ex_hi _ _ (by decide)).trans <| (ex_hi _ _ (by decide)).trans <| (ex_hi _ _ (by decide)).trans <| (ex_hi _ _ (by decide)).trans <| (ex_hi _ _ (by decide)).trans <| ex_all _
  · exact (ex_set _ (by decide)).trans <| (ex_set _ (by decide)).trans <| (ex_hi _ _ (by decide)).trans <| (ex_hi _ _ (by decide)).trans <| (ex_hi _ _ (by decide)).trans <| (ex_hi _ _ (by decide)).trans <| ex_lo _ _
  · exact (ex_set _ (by decide)).trans <| (ex_set _ (by decide)).trans <| (ex_hi _ _ (by decide)).trans <| (ex_hi _ _ (by decide)).trans <| (ex_hi _ _ (by decide)).trans <| ex_lo _ _
  · exact (ex_set _ (by decide)).trans <| (ex_set _ (by decide)).trans <| (ex_hi _ _ (by decide)).trans <| (ex_hi _ _ (by decide)).trans <| ex_lo _ _
  · exact (ex_set _ (by decide)).trans <| (ex_set _ (by decide)).trans <| (ex_hi _ _ (by decide)).trans <| ex_lo _ _

theorem popScalar (p sd q delay) : Statement (.popScalar p sd q delay) := by
  refine raw_popScalar _ _ _ _ _ (congrArg BitVec.toNat (a₂ := 7#4) ?_) ?_ ?_ ?_ ?_
  · exact (ex_set _ (by decide)).trans <| (ex_set _ (by decide)).trans <| (ex_hi _ _ (by decide)).trans <| (ex_hi _ _ (by decide)).trans <| (ex_hi _ _ (by decide)).trans <| (ex_hi _ _ (by decide)).trans <| (ex_hi _ _ (by decide)).trans <| ex_all _
  · exact (ex_set _ (by decide)).trans <| (ex_set _ (by decide)).trans <| (ex_hi _ _ (by decide)).trans <| (ex_hi _ _ (by decide)).trans <| (ex_hi _ _ (by decide)).trans <| (ex_hi _ _ (by decide)).trans <| ex_lo _ _
  · exact (ex_set _ (by decide)).trans <| (ex_set _ (by decide)).trans <| (ex_hi _ _ (by decide)).trans <| (ex_hi _ _ (by decide)).trans <| (ex_hi _ _ (by decide)).trans <| ex_lo _ _
  · exact (ex_set _ (by decide)).trans <| (ex_set _ (by decide)).trans <| (ex_hi _ _ (by decide)).trans <| (ex_hi _ _ (by decide)).trans <| ex_lo _ _
  · exact (ex_set _ (by decide)).trans <| (ex_set _ (by decide)).trans <| (ex_hi _ _ (by decide)).trans <| ex_lo _ _

theorem fill (p tok tile w) : Statement (.fill p tok tile w) := by
  refine raw_fill _ _ _ _ _ (congrArg BitVec.toNat (a₂ := 8#4) ?_) ?_ ?_ ?_ ?_
  · exact (ex_set _ (by decide)).trans <| (ex_set _ (by decide)).trans <| (ex_hi _ _ (by decide)).trans <| (ex_hi _ _ (by decide)).trans <| (ex_hi _ _ (by decide)).trans <| (ex_hi _ _ (by decide)).trans <| (ex_hi _ _ (by decide)).trans <| ex_all _
  · exact (ex_set _ (by decide)).trans <| (ex_set _ (by decide)).trans <| (ex_hi _ _ (by decide)).trans <| (ex_hi _ _ (by decide)).trans <| (ex_hi _ _ (by decide)).trans <| (ex_hi _ _ (by decide)).trans <| ex_lo _ _
  · exact (ex_set _ (by decide)).trans <| (ex_set _ (by decide)).trans <| (ex_hi _ _ (by decide)).trans <| (ex_hi _ _ (by decide)).trans <| (ex_hi _ _ (by decide)).trans <| ex_lo _ _
  · exact (ex_set _ (by decide)).trans <| (ex_set _ (by decide)).trans <| (ex_hi _ _ (by decide)).trans <| (ex_hi _ _ (by decide)).trans <| ex_lo _ _
  · exact (ex_set _ (by decide)).trans <| (ex_set _ (by decide)).trans <| (ex_hi _ _ (by decide)).trans <| ex_lo _ _

theorem st (p w vs ks) : Statement (.st p w vs ks) := by
  refine congrArg (Option.map XOp.instr) (raw_st _ _ _ _ _ (congrArg BitVec.toNat (a₂ := 0#4) ?_) ?_ ?_ ?_ ?_)
  · exact (ex_set _ (by decide)).trans <| (ex_set _ (by decide)).trans <| (ex_hi _ _ (by decide)).trans <| (ex_hi _ _ (by decide)).trans <| (ex_hi _ _ (by decide)).trans <| (ex_hi _ _ (by decide)).trans <| (ex_hi _ _ (by decide)).trans <| ex_all _
  · exact (ex_set _ (by decide)).trans <| (ex_set _ (by decide)).trans <| (ex_hi _ _ (by decide)).trans <| (ex_hi _ _ (by decide)).trans <| (ex_hi _ _ (by decide)).trans <| (ex_hi _ _ (by decide)).trans <| ex_lo _ _
  · exact (ex_set _ (by decide)).trans <| (ex_set _ (by decide)).trans <| (ex_hi _ _ (by decide)).trans <| (ex_hi _ _ (by decide)).trans <| (ex_hi _ _ (by decide)).trans <| ex_lo _ _
  · exact (ex_set _ (by decide)).trans <| (ex_set _ (by decide)).trans <| (ex_hi _ _ (by decide)).trans <| (ex_hi _ _ (by decide)).trans <| ex_lo _ _
  · exact (ex_set _ (by decide)).trans <| (ex_set _ (by decide)).trans <| (ex_hi _ _ (by decide)).trans <| ex_lo _ _

theorem str (p bay off lane vs) : Statement (.str p bay off lane vs) := by
  refine congrArg (Option.map XOp.instr) (raw_str _ _ _ _ _ _ (congrArg BitVec.toNat (a₂ := 1#4) ?_) ?_ ?_ ?_ ?_ ?_)
  · exact (ex_set _ (by decide)).trans <| (ex_set _ (by decide)).trans <| (ex_hi _ _ (by decide)).trans <| (ex_hi _ _ (by decide)).trans <| (ex_hi _ _ (by decide)).trans <| (ex_hi _ _ (by decide)).trans <| (ex_hi _ _ (by decide)).trans <| (ex_hi _ _ (by decide)).trans <| ex_all _
  · exact (ex_set _ (by decide)).trans <| (ex_set _ (by decide)).trans <| (ex_hi _ _ (by decide)).trans <| (ex_hi _ _ (by decide)).trans <| (ex_hi _ _ (by decide)).trans <| (ex_hi _ _ (by decide)).trans <| (ex_hi _ _ (by decide)).trans <| ex_lo _ _
  · exact (ex_set _ (by decide)).trans <| (ex_set _ (by decide)).trans <| (ex_hi _ _ (by decide)).trans <| (ex_hi _ _ (by decide)).trans <| (ex_hi _ _ (by decide)).trans <| (ex_hi _ _ (by decide)).trans <| ex_lo _ _
  · exact (ex_set _ (by decide)).trans <| (ex_set _ (by decide)).trans <| (ex_hi _ _ (by decide)).trans <| (ex_hi _ _ (by decide)).trans <| (ex_hi _ _ (by decide)).trans <| ex_lo _ _
  · exact (ex_set _ (by decide)).trans <| (ex_set _ (by decide)).trans <| (ex_hi _ _ (by decide)).trans <| (ex_hi _ _ (by decide)).trans <| ex_lo _ _
  · exact (ex_set _ (by decide)).trans <| (ex_set _ (by decide)).trans <| (ex_hi _ _ (by decide)).trans <| ex_lo _ _

theorem stkStream (p w ks) : Statement (.stkStream p w ks) := by
  refine congrArg (Option.map XOp.instr) (raw_stkStream _ _ _ _ (congrArg BitVec.toNat (a₂ := 2#4) ?_) ?_ ?_ ?_)
  · exact (ex_set _ (by decide)).trans <| (ex_set _ (by decide)).trans <| (ex_hi _ _ (by decide)).trans <| (ex_hi _ _ (by decide)).trans <| (ex_hi _ _ (by decide)).trans <| (ex_hi _ _ (by decide)).trans <| ex_all _
  · exact (ex_set _ (by decide)).trans <| (ex_set _ (by decide)).trans <| (ex_hi _ _ (by decide)).trans <| (ex_hi _ _ (by decide)).trans <| (ex_hi _ _ (by decide)).trans <| ex_lo _ _
  · exact (ex_set _ (by decide)).trans <| (ex_set _ (by decide)).trans <| (ex_hi _ _ (by decide)).trans <| (ex_hi _ _ (by decide)).trans <| ex_lo _ _
  · exact (ex_set _ (by decide)).trans <| (ex_set _ (by decide)).trans <| (ex_hi _ _ (by decide)).trans <| ex_lo _ _

theorem stkRound (p bay off lane ks) : Statement (.stkRound p bay off lane ks) := by
  refine congrArg (Option.map XOp.instr) (raw_stkRound _ _ _ _ _ _ (congrArg BitVec.toNat (a₂ := 3#4) ?_) ?_ ?_ ?_ ?_ ?_)
  · exact (ex_set _ (by decide)).trans <| (ex_set _ (by decide)).trans <| (ex_hi _ _ (by decide)).trans <| (ex_hi _ _ (by decide)).trans <| (ex_hi _ _ (by decide)).trans <| (ex_hi _ _ (by decide)).trans <| (ex_hi _ _ (by decide)).trans <| (ex_hi _ _ (by decide)).trans <| ex_all _
  · exact (ex_set _ (by decide)).trans <| (ex_set _ (by decide)).trans <| (ex_hi _ _ (by decide)).trans <| (ex_hi _ _ (by decide)).trans <| (ex_hi _ _ (by decide)).trans <| (ex_hi _ _ (by decide)).trans <| (ex_hi _ _ (by decide)).trans <| ex_lo _ _
  · exact (ex_set _ (by decide)).trans <| (ex_set _ (by decide)).trans <| (ex_hi _ _ (by decide)).trans <| (ex_hi _ _ (by decide)).trans <| (ex_hi _ _ (by decide)).trans <| (ex_hi _ _ (by decide)).trans <| ex_lo _ _
  · exact (ex_set _ (by decide)).trans <| (ex_set _ (by decide)).trans <| (ex_hi _ _ (by decide)).trans <| (ex_hi _ _ (by decide)).trans <| (ex_hi _ _ (by decide)).trans <| ex_lo _ _
  · exact (ex_set _ (by decide)).trans <| (ex_set _ (by decide)).trans <| (ex_hi _ _ (by decide)).trans <| (ex_hi _ _ (by decide)).trans <| ex_lo _ _
  · exact (ex_set _ (by decide)).trans <| (ex_set _ (by decide)).trans <| (ex_hi _ _ (by decide)).trans <| ex_lo _ _

theorem stsRound (p bay off8 lane a) : Statement (.stsRound p bay off8 lane a) := by
  refine congrArg (Option.map XOp.instr) (raw_stsRound _ _ _ _ _ _ (congrArg BitVec.toNat (a₂ := 4#4) ?_) ?_ ?_ ?_ ?_ ?_)
  · exact (ex_set _ (by decide)).trans <| (ex_set _ (by decide)).trans <| (ex_hi _ _ (by decide)).trans <| (ex_hi _ _ (by decide)).trans <| (ex_hi _ _ (by decide)).trans <| (ex_hi _ _ (by decide)).trans <| (ex_hi _ _ (by decide)).trans <| (ex_hi _ _ (by decide)).trans <| ex_all _
  · exact (ex_set _ (by decide)).trans <| (ex_set _ (by decide)).trans <| (ex_hi _ _ (by decide)).trans <| (ex_hi _ _ (by decide)).trans <| (ex_hi _ _ (by decide)).trans <| (ex_hi _ _ (by decide)).trans <| (ex_hi _ _ (by decide)).trans <| ex_lo _ _
  · exact (ex_set _ (by decide)).trans <| (ex_set _ (by decide)).trans <| (ex_hi _ _ (by decide)).trans <| (ex_hi _ _ (by decide)).trans <| (ex_hi _ _ (by decide)).trans <| (ex_hi _ _ (by decide)).trans <| ex_lo _ _
  · exact (ex_set _ (by decide)).trans <| (ex_set _ (by decide)).trans <| (ex_hi _ _ (by decide)).trans <| (ex_hi _ _ (by decide)).trans <| (ex_hi _ _ (by decide)).trans <| ex_lo _ _
  · exact (ex_set _ (by decide)).trans <| (ex_set _ (by decide)).trans <| (ex_hi _ _ (by decide)).trans <| (ex_hi _ _ (by decide)).trans <| ex_lo _ _
  · exact (ex_set _ (by decide)).trans <| (ex_set _ (by decide)).trans <| (ex_hi _ _ (by decide)).trans <| ex_lo _ _

theorem stsStream (p w a) : Statement (.stsStream p w a) := by
  refine congrArg (Option.map XOp.instr) (raw_stsStream _ _ _ _ (congrArg BitVec.toNat (a₂ := 5#4) ?_) ?_ ?_ ?_)
  · exact (ex_set _ (by decide)).trans <| (ex_set _ (by decide)).trans <| (ex_hi _ _ (by decide)).trans <| (ex_hi _ _ (by decide)).trans <| (ex_hi _ _ (by decide)).trans <| (ex_hi _ _ (by decide)).trans <| ex_all _
  · exact (ex_set _ (by decide)).trans <| (ex_set _ (by decide)).trans <| (ex_hi _ _ (by decide)).trans <| (ex_hi _ _ (by decide)).trans <| (ex_hi _ _ (by decide)).trans <| ex_lo _ _
  · exact (ex_set _ (by decide)).trans <| (ex_set _ (by decide)).trans <| (ex_hi _ _ (by decide)).trans <| (ex_hi _ _ (by decide)).trans <| ex_lo _ _
  · exact (ex_set _ (by decide)).trans <| (ex_set _ (by decide)).trans <| (ex_hi _ _ (by decide)).trans <| ex_lo _ _

theorem pushVector (p q vs) : Statement (.pushVector p q vs) := by
  refine congrArg (Option.map XOp.instr) (raw_pushVector _ _ _ _ (congrArg BitVec.toNat (a₂ := 6#4) ?_) ?_ ?_ ?_)
  · exact (ex_set _ (by decide)).trans <| (ex_set _ (by decide)).trans <| (ex_hi _ _ (by decide)).trans <| (ex_hi _ _ (by decide)).trans <| (ex_hi _ _ (by decide)).trans <| (ex_hi _ _ (by decide)).trans <| ex_all _
  · exact (ex_set _ (by decide)).trans <| (ex_set _ (by decide)).trans <| (ex_hi _ _ (by decide)).trans <| (ex_hi _ _ (by decide)).trans <| (ex_hi _ _ (by decide)).trans <| ex_lo _ _
  · exact (ex_set _ (by decide)).trans <| (ex_set _ (by decide)).trans <| (ex_hi _ _ (by decide)).trans <| (ex_hi _ _ (by decide)).trans <| ex_lo _ _
  · exact (ex_set _ (by decide)).trans <| (ex_set _ (by decide)).trans <| (ex_hi _ _ (by decide)).trans <| ex_lo _ _

theorem pushScalar (p q a) : Statement (.pushScalar p q a) := by
  refine congrArg (Option.map XOp.instr) (raw_pushScalar _ _ _ _ (congrArg BitVec.toNat (a₂ := 7#4) ?_) ?_ ?_ ?_)
  · exact (ex_set _ (by decide)).trans <| (ex_set _ (by decide)).trans <| (ex_hi _ _ (by decide)).trans <| (ex_hi _ _ (by decide)).trans <| (ex_hi _ _ (by decide)).trans <| (ex_hi _ _ (by decide)).trans <| ex_all _
  · exact (ex_set _ (by decide)).trans <| (ex_set _ (by decide)).trans <| (ex_hi _ _ (by decide)).trans <| (ex_hi _ _ (by decide)).trans <| (ex_hi _ _ (by decide)).trans <| ex_lo _ _
  · exact (ex_set _ (by decide)).trans <| (ex_set _ (by decide)).trans <| (ex_hi _ _ (by decide)).trans <| (ex_hi _ _ (by decide)).trans <| ex_lo _ _
  · exact (ex_set _ (by decide)).trans <| (ex_set _ (by decide)).trans <| (ex_hi _ _ (by decide)).trans <| ex_lo _ _

theorem spill (p tok tile w) : Statement (.spill p tok tile w) := by
  refine congrArg (Option.map XOp.instr) (raw_spill _ _ _ _ _ (congrArg BitVec.toNat (a₂ := 8#4) ?_) ?_ ?_ ?_ ?_)
  · exact (ex_set _ (by decide)).trans <| (ex_set _ (by decide)).trans <| (ex_hi _ _ (by decide)).trans <| (ex_hi _ _ (by decide)).trans <| (ex_hi _ _ (by decide)).trans <| (ex_hi _ _ (by decide)).trans <| (ex_hi _ _ (by decide)).trans <| ex_all _
  · exact (ex_set _ (by decide)).trans <| (ex_set _ (by decide)).trans <| (ex_hi _ _ (by decide)).trans <| (ex_hi _ _ (by decide)).trans <| (ex_hi _ _ (by decide)).trans <| (ex_hi _ _ (by decide)).trans <| ex_lo _ _
  · exact (ex_set _ (by decide)).trans <| (ex_set _ (by decide)).trans <| (ex_hi _ _ (by decide)).trans <| (ex_hi _ _ (by decide)).trans <| (ex_hi _ _ (by decide)).trans <| ex_lo _ _
  · exact (ex_set _ (by decide)).trans <| (ex_set _ (by decide)).trans <| (ex_hi _ _ (by decide)).trans <| (ex_hi _ _ (by decide)).trans <| ex_lo _ _
  · exact (ex_set _ (by decide)).trans <| (ex_set _ (by decide)).trans <| (ex_hi _ _ (by decide)).trans <| ex_lo _ _

theorem movpRound (p bay off lane port) : Statement (.movpRound p bay off lane port) := by
  refine congrArg (Option.map XOp.instr) (raw_movpRound _ _ _ _ _ _ (congrArg BitVec.toNat (a₂ := 0#4) ?_) ?_ ?_ ?_ ?_ ?_)
  · exact (ex_set _ (by decide)).trans <| (ex_set _ (by decide)).trans <| (ex_hi _ _ (by decide)).trans <| (ex_hi _ _ (by decide)).trans <| (ex_hi _ _ (by decide)).trans <| (ex_hi _ _ (by decide)).trans <| (ex_hi _ _ (by decide)).trans <| (ex_hi _ _ (by decide)).trans <| ex_all _
  · exact (ex_set _ (by decide)).trans <| (ex_set _ (by decide)).trans <| (ex_hi _ _ (by decide)).trans <| (ex_hi _ _ (by decide)).trans <| (ex_hi _ _ (by decide)).trans <| (ex_hi _ _ (by decide)).trans <| (ex_hi _ _ (by decide)).trans <| ex_lo _ _
  · exact (ex_set _ (by decide)).trans <| (ex_set _ (by decide)).trans <| (ex_hi _ _ (by decide)).trans <| (ex_hi _ _ (by decide)).trans <| (ex_hi _ _ (by decide)).trans <| (ex_hi _ _ (by decide)).trans <| ex_lo _ _
  · exact (ex_set _ (by decide)).trans <| (ex_set _ (by decide)).trans <| (ex_hi _ _ (by decide)).trans <| (ex_hi _ _ (by decide)).trans <| (ex_hi _ _ (by decide)).trans <| ex_lo _ _
  · exact (ex_set _ (by decide)).trans <| (ex_set _ (by decide)).trans <| (ex_hi _ _ (by decide)).trans <| (ex_hi _ _ (by decide)).trans <| ex_lo _ _
  · exact (ex_set _ (by decide)).trans <| (ex_set _ (by decide)).trans <| (ex_hi _ _ (by decide)).trans <| ex_lo _ _

theorem movpScalar (p a port lane) : Statement (.movpScalar p a port lane) := by
  refine congrArg (Option.map XOp.instr) (raw_movpScalar _ _ _ _ _ (congrArg BitVec.toNat (a₂ := 1#4) ?_) ?_ ?_ ?_ ?_)
  · exact (ex_set _ (by decide)).trans <| (ex_set _ (by decide)).trans <| (ex_hi _ _ (by decide)).trans <| (ex_hi _ _ (by decide)).trans <| (ex_hi _ _ (by decide)).trans <| (ex_hi _ _ (by decide)).trans <| (ex_hi _ _ (by decide)).trans <| ex_all _
  · exact (ex_set _ (by decide)).trans <| (ex_set _ (by decide)).trans <| (ex_hi _ _ (by decide)).trans <| (ex_hi _ _ (by decide)).trans <| (ex_hi _ _ (by decide)).trans <| (ex_hi _ _ (by decide)).trans <| ex_lo _ _
  · exact (ex_set _ (by decide)).trans <| (ex_set _ (by decide)).trans <| (ex_hi _ _ (by decide)).trans <| (ex_hi _ _ (by decide)).trans <| (ex_hi _ _ (by decide)).trans <| ex_lo _ _
  · exact (ex_set _ (by decide)).trans <| (ex_set _ (by decide)).trans <| (ex_hi _ _ (by decide)).trans <| (ex_hi _ _ (by decide)).trans <| ex_lo _ _
  · exact (ex_set _ (by decide)).trans <| (ex_set _ (by decide)).trans <| (ex_hi _ _ (by decide)).trans <| ex_lo _ _

theorem xfer (p frm dest lane fromaddr toaddr) : Statement (.xfer p frm dest lane fromaddr toaddr) := by
  refine congrArg (Option.map XOp.instr) (raw_xfer _ _ _ _ _ _ _ (congrArg BitVec.toNat (a₂ := 2#4) ?_) ?_ ?_ ?_ ?_ ?_ ?_)
  · exact (ex_set _ (by decide)).trans <| (ex_set _ (by decide)).trans <| (ex_hi _ _ (by decide)).trans <| (ex_hi _ _ (by decide)).trans <| (ex_hi _ _ (by decide)).trans <| (ex_hi _ _ (by decide)).trans <| (ex_hi _ _ (by decide)).trans <| (ex_hi _ _ (by decide)).trans <| (ex_hi _ _ (by decide)).trans <| ex_all _
  · exact (ex_set _ (by decide)).trans <| (ex_set _ (by decide)).trans <| (ex_hi _ _ (by decide)).trans <| (ex_hi _ _ (by decide)).trans <| (ex_hi _ _ (by decide)).trans <| (ex_hi _ _ (by decide)).trans <| (ex_hi _ _ (by decide)).trans <| (ex_hi _ _ (by decide)).trans <| ex_lo _ _
  · exact (ex_set _ (by decide)).trans <| (ex_set _ (by decide)).trans <| (ex_hi _ _ (by decide)).trans <| (ex_hi _ _ (by decide)).trans <| (ex_hi _ _ (by decide)).trans <| (ex_hi _ _ (by decide)).trans <| (ex_hi _ _ (by decide)).trans <| ex_lo _ _
  · exact (ex_set _ (by decide)).trans <| (ex_set _ (by decide)).trans <| (ex_hi _ _ (by decide)).trans <| (ex_hi _ _ (by decide)).trans <| (ex_hi _ _ (by decide)).trans <| (ex_hi _ _ (by decide)).trans <| ex_lo _ _
  · exact (ex_set _ (by decide)).trans <| (ex_set _ (by decide)).trans <| (ex_hi _ _ (by decide)).trans <| (ex_hi _ _ (by decide)).trans <| (ex_hi _ _ (by decide)).trans <| ex_lo _ _
  · exact (ex_set _ (by decide)).trans <| (ex_set _ (by decide)).trans <| (ex_hi _ _ (by decide)).trans <| (ex_hi _ _ (by decide)).trans <| ex_lo _ _
  · exact (ex_set _ (by decide)).trans <| (ex_set _ (by decide)).trans <| (ex_hi _ _ (by decide)).trans <| ex_lo _ _

theorem redsVector (p vs t op ty sem) : Statement (.redsVector p vs t op ty sem) := by
  refine congrArg (Option.map XOp.instr) (raw_redsVector _ _ _ _ _ _ _ (congrArg BitVec.toNat (a₂ := 3#4) ?_) ?_ ?_ ?_ ?_ ?_ ?_)
  · exact (ex_set _ (by decide)).trans <| (ex_set _ (by decide)).trans <| (ex_hi _ _ (by decide)).trans <| (ex_hi _ _ (by decide)).trans <| (ex_hi _ _ (by decide)).trans <| (ex_hi _ _ (by decide)).trans <| (ex_hi _ _ (by decide)).trans <| (ex_hi _ _ (by decide)).trans <| (ex_hi _ _ (by decide)).trans <| ex_all _
  · exact (ex_set _ (by decide)).trans <| (ex_set _ (by decide)).trans <| (ex_hi _ _ (by decide)).trans <| (ex_hi _ _ (by decide)).trans <| (ex_hi _ _ (by decide)).trans <| (ex_hi _ _ (by decide)).trans <| (ex_hi _ _ (by decide)).trans <| (ex_hi _ _ (by decide)).trans <| ex_lo _ _
  · exact (ex_set _ (by decide)).trans <| (ex_set _ (by decide)).trans <| (ex_hi _ _ (by decide)).trans <| (ex_hi _ _ (by decide)).trans <| (ex_hi _ _ (by decide)).trans <| (ex_hi _ _ (by decide)).trans <| (ex_hi _ _ (by decide)).trans <| ex_lo _ _
  · exact (ex_set _ (by decide)).trans <| (ex_set _ (by decide)).trans <| (ex_hi _ _ (by decide)).trans <| (ex_hi _ _ (by decide)).trans <| (ex_hi _ _ (by decide)).trans <| (ex_hi _ _ (by decide)).trans <| ex_lo _ _
  · exact (ex_set _ (by decide)).trans <| (ex_set _ (by decide)).trans <| (ex_hi _ _ (by decide)).trans <| (ex_hi _ _ (by decide)).trans <| (ex_hi _ _ (by decide)).trans <| ex_lo _ _
  · exact (ex_set _ (by decide)).trans <| (ex_set _ (by decide)).trans <| (ex_hi _ _ (by decide)).trans <| (ex_hi _ _ (by decide)).trans <| ex_lo _ _
  · exact (ex_set _ (by decide)).trans <| (ex_set _ (by decide)).trans <| (ex_hi _ _ (by decide)).trans <| ex_lo _ _

theorem redsScalar (p a t op ty sem) : Statement (.redsScalar p a t op ty sem) := by
  refine congrArg (Option.map XOp.instr) (raw_redsScalar _ _ _ _ _ _ _ (congrArg BitVec.toNat (a₂ := 4#4) ?_) ?_ ?_ ?_ ?_ ?_ ?_)
  · exact (ex_set _ (by decide)).trans <| (ex_set _ (by decide)).trans <| (ex_hi _ _ (by decide)).trans <| (ex_hi _ _ (by decide)).trans <| (ex_hi _ _ (by decide)).trans <| (ex_hi _ _ (by decide)).trans <| (ex_hi _ _ (by decide)).trans <| (ex_hi _ _ (by decide)).trans <| (ex_hi _ _ (by decide)).trans <| ex_all _
  · exact (ex_set _ (by decide)).trans <| (ex_set _ (by decide)).trans <| (ex_hi _ _ (by decide)).trans <| (ex_hi _ _ (by decide)).trans <| (ex_hi _ _ (by decide)).trans <| (ex_hi _ _ (by decide)).trans <| (ex_hi _ _ (by decide)).trans <| (ex_hi _ _ (by decide)).trans <| ex_lo _ _
  · exact (ex_set _ (by decide)).trans <| (ex_set _ (by decide)).trans <| (ex_hi _ _ (by decide)).trans <| (ex_hi _ _ (by decide)).trans <| (ex_hi _ _ (by decide)).trans <| (ex_hi _ _ (by decide)).trans <| (ex_hi _ _ (by decide)).trans <| ex_lo _ _
  · exact (ex_set _ (by decide)).trans <| (ex_set _ (by decide)).trans <| (ex_hi _ _ (by decide)).trans <| (ex_hi _ _ (by decide)).trans <| (ex_hi _ _ (by decide)).trans <| (ex_hi _ _ (by decide)).trans <| ex_lo _ _
  · exact (ex_set _ (by decide)).trans <| (ex_set _ (by decide)).trans <| (ex_hi _ _ (by decide)).trans <| (ex_hi _ _ (by decide)).trans <| (ex_hi _ _ (by decide)).trans <| ex_lo _ _
  · exact (ex_set _ (by decide)).trans <| (ex_set _ (by decide)).trans <| (ex_hi _ _ (by decide)).trans <| (ex_hi _ _ (by decide)).trans <| ex_lo _ _
  · exact (ex_set _ (by decide)).trans <| (ex_set _ (by decide)).trans <| (ex_hi _ _ (by decide)).trans <| ex_lo _ _

theorem scfgTable (p w entry) : Statement (.scfgTable p w entry) := by
  refine congrArg (Option.map XOp.instr) (raw_scfgTable _ _ _ _ (congrArg BitVec.toNat (a₂ := 5#4) ?_) ?_ ?_ ?_)
  · exact (ex_set _ (by decide)).trans <| (ex_set _ (by decide)).trans <| (ex_hi _ _ (by decide)).trans <| (ex_hi _ _ (by decide)).trans <| (ex_hi _ _ (by decide)).trans <| (ex_hi _ _ (by decide)).trans <| ex_all _
  · exact (ex_set _ (by decide)).trans <| (ex_set _ (by decide)).trans <| (ex_hi _ _ (by decide)).trans <| (ex_hi _ _ (by decide)).trans <| (ex_hi _ _ (by decide)).trans <| ex_lo _ _
  · exact (ex_set _ (by decide)).trans <| (ex_set _ (by decide)).trans <| (ex_hi _ _ (by decide)).trans <| (ex_hi _ _ (by decide)).trans <| ex_lo _ _
  · exact (ex_set _ (by decide)).trans <| (ex_set _ (by decide)).trans <| (ex_hi _ _ (by decide)).trans <| ex_lo _ _

theorem scfgScalar (p w word a) : Statement (.scfgScalar p w word a) := by
  refine congrArg (Option.map XOp.instr) (raw_scfgScalar _ _ _ _ _ (congrArg BitVec.toNat (a₂ := 6#4) ?_) ?_ ?_ ?_ ?_)
  · exact (ex_set _ (by decide)).trans <| (ex_set _ (by decide)).trans <| (ex_hi _ _ (by decide)).trans <| (ex_hi _ _ (by decide)).trans <| (ex_hi _ _ (by decide)).trans <| (ex_hi _ _ (by decide)).trans <| (ex_hi _ _ (by decide)).trans <| ex_all _
  · exact (ex_set _ (by decide)).trans <| (ex_set _ (by decide)).trans <| (ex_hi _ _ (by decide)).trans <| (ex_hi _ _ (by decide)).trans <| (ex_hi _ _ (by decide)).trans <| (ex_hi _ _ (by decide)).trans <| ex_lo _ _
  · exact (ex_set _ (by decide)).trans <| (ex_set _ (by decide)).trans <| (ex_hi _ _ (by decide)).trans <| (ex_hi _ _ (by decide)).trans <| (ex_hi _ _ (by decide)).trans <| ex_lo _ _
  · exact (ex_set _ (by decide)).trans <| (ex_set _ (by decide)).trans <| (ex_hi _ _ (by decide)).trans <| (ex_hi _ _ (by decide)).trans <| ex_lo _ _
  · exact (ex_set _ (by decide)).trans <| (ex_set _ (by decide)).trans <| (ex_hi _ _ (by decide)).trans <| ex_lo _ _

theorem sadv (p w dim steps) : Statement (.sadv p w dim steps) := by
  refine congrArg (Option.map XOp.instr) (raw_sadv _ _ _ _ _ (congrArg BitVec.toNat (a₂ := 7#4) ?_) ?_ ?_ ?_ ?_)
  · exact (ex_set _ (by decide)).trans <| (ex_set _ (by decide)).trans <| (ex_hi _ _ (by decide)).trans <| (ex_hi _ _ (by decide)).trans <| (ex_hi _ _ (by decide)).trans <| (ex_hi _ _ (by decide)).trans <| (ex_hi _ _ (by decide)).trans <| ex_all _
  · exact (ex_set _ (by decide)).trans <| (ex_set _ (by decide)).trans <| (ex_hi _ _ (by decide)).trans <| (ex_hi _ _ (by decide)).trans <| (ex_hi _ _ (by decide)).trans <| (ex_hi _ _ (by decide)).trans <| ex_lo _ _
  · exact (ex_set _ (by decide)).trans <| (ex_set _ (by decide)).trans <| (ex_hi _ _ (by decide)).trans <| (ex_hi _ _ (by decide)).trans <| (ex_hi _ _ (by decide)).trans <| ex_lo _ _
  · exact (ex_set _ (by decide)).trans <| (ex_set _ (by decide)).trans <| (ex_hi _ _ (by decide)).trans <| (ex_hi _ _ (by decide)).trans <| ex_lo _ _
  · exact (ex_set _ (by decide)).trans <| (ex_set _ (by decide)).trans <| (ex_hi _ _ (by decide)).trans <| ex_lo _ _

theorem srst (p w) : Statement (.srst p w) := by
  refine congrArg (Option.map XOp.instr) (raw_srst _ _ _ (congrArg BitVec.toNat (a₂ := 8#4) ?_) ?_ ?_)
  · exact (ex_set _ (by decide)).trans <| (ex_set _ (by decide)).trans <| (ex_hi _ _ (by decide)).trans <| (ex_hi _ _ (by decide)).trans <| (ex_hi _ _ (by decide)).trans <| ex_all _
  · exact (ex_set _ (by decide)).trans <| (ex_set _ (by decide)).trans <| (ex_hi _ _ (by decide)).trans <| (ex_hi _ _ (by decide)).trans <| ex_lo _ _
  · exact (ex_set _ (by decide)).trans <| (ex_set _ (by decide)).trans <| (ex_hi _ _ (by decide)).trans <| ex_lo _ _

theorem yardCycle : Statement .yardCycle := ⟨rfl, rfl⟩

theorem rewindRestore (c) : Statement (.rewindRestore c) := ⟨rfl, rfl⟩

theorem segmentEntry (c) : Statement (.segmentEntry c) := ⟨rfl, rfl⟩

theorem yieldBundle (c) : Statement (.yieldBundle c) := ⟨rfl, rfl⟩

theorem deadlineExpiry (c) : Statement (.deadlineExpiry c) := ⟨rfl, rfl⟩

theorem checkRetest (c) : Statement (.checkRetest c) := ⟨rfl, rfl⟩

theorem offdieLoadLanding (c id) : Statement (.offdieLoadLanding c id) := ⟨rfl, rfl⟩

theorem offcoreAccessPerform (c id) : Statement (.offcoreAccessPerform c id) := ⟨rfl, rfl⟩

theorem pushAccepted (c id) : Statement (.pushAccepted c id) := ⟨rfl, rfl⟩

theorem tokenComplete (c id) : Statement (.tokenComplete c id) := ⟨rfl, rfl⟩

theorem probeAnswer (c id) : Statement (.probeAnswer c id) := ⟨rfl, rfl⟩

theorem rendezvousRelease (l group) : Statement (.rendezvousRelease l group) := ⟨rfl, rfl⟩

theorem barrierRelease (l group yard) : Statement (.barrierRelease l group yard) := ⟨rfl, rfl⟩

theorem redsApply (stable) : Statement (.redsApply stable) := ⟨rfl, rfl⟩

theorem mxwinWrite (c code) : Statement (.mxwinWrite c code) := ⟨rfl, rfl⟩

theorem mxwinTakesEffect (stable) : Statement (.mxwinTakesEffect stable) := ⟨rfl, rfl⟩

theorem dxBackref (c) : Statement (.dxBackref c) := ⟨rfl, rfl⟩

theorem dxCopy (c) : Statement (.dxCopy c) := ⟨rfl, rfl⟩

theorem txTranspose (c) : Statement (.txTranspose c) := ⟨rfl, rfl⟩

theorem hxSha256 (c) : Statement (.hxSha256 c) := ⟨rfl, rfl⟩

theorem qxConvert (c) : Statement (.qxConvert c) := ⟨rfl, rfl⟩

theorem stationJobEnd (stable id) : Statement (.stationJobEnd stable id) := ⟨rfl, rfl⟩

theorem arrayCold (stable) : Statement (.arrayCold stable) := ⟨rfl, rfl⟩

theorem shadowFillAccept (c cm) : Statement (.shadowFillAccept c cm) := ⟨rfl, rfl⟩

theorem shadowFillEnd (c cm) : Statement (.shadowFillEnd c cm) := ⟨rfl, rfl⟩

theorem hangTimeout (c) : Statement (.hangTimeout c) := ⟨rfl, rfl⟩

theorem hostWrite (addr data) : Statement (.hostWrite addr data) := ⟨rfl, rfl⟩

theorem hostRead (addr len excl) : Statement (.hostRead addr len excl) := ⟨rfl, rfl⟩

theorem queueResume (q seq) : Statement (.queueResume q seq) := ⟨rfl, rfl⟩

theorem queueEnd (q seq) : Statement (.queueEnd q seq) := ⟨rfl, rfl⟩

theorem queueCancel (q seq) : Statement (.queueCancel q seq) := ⟨rfl, rfl⟩

theorem placementDecision : Statement .placementDecision := ⟨rfl, rfl⟩

theorem launchRunStart (l) : Statement (.launchRunStart l) := ⟨rfl, rfl⟩

theorem contextRelease (c) : Statement (.contextRelease c) := ⟨rfl, rfl⟩

theorem launchCompletion (l) : Statement (.launchCompletion l) := ⟨rfl, rfl⟩

theorem swapOut (l yard) : Statement (.swapOut l yard) := ⟨rfl, rfl⟩

theorem swapOutSave (l yard) : Statement (.swapOutSave l yard) := ⟨rfl, rfl⟩

theorem dramMeterWindow (l) : Statement (.dramMeterWindow l) := ⟨rfl, rfl⟩

theorem auditVerdict (stall replay sig) : Statement (.auditVerdict stall replay sig) := ⟨rfl, rfl⟩

theorem scrubPass : Statement .scrubPass := ⟨rfl, rfl⟩

theorem sieveAgeing : Statement .sieveAgeing := ⟨rfl, rfl⟩

theorem linkCrcError (struct owner retries) : Statement (.linkCrcError struct owner retries) := ⟨rfl, rfl⟩

theorem repairRequest (v) : Statement (.repairRequest v) := ⟨rfl, rfl⟩

theorem repairCopy : Statement .repairCopy := ⟨rfl, rfl⟩

theorem yardLost (yard cause) : Statement (.yardLost yard cause) := ⟨rfl, rfl⟩

theorem thermalTrip (yard) : Statement (.thermalTrip yard) := ⟨rfl, rfl⟩

theorem yardActivate (site yard) : Statement (.yardActivate site yard) := ⟨rfl, rfl⟩

theorem yardDeclareLost (yard) : Statement (.yardDeclareLost yard) := ⟨rfl, rfl⟩

theorem yardSelfTestDone (yard passed) : Statement (.yardSelfTestDone yard passed) := ⟨rfl, rfl⟩

theorem degrArrayFailed (stall) : Statement (.degrArrayFailed stall) := ⟨rfl, rfl⟩

theorem degrMacroFailed (stall cm partner) : Statement (.degrMacroFailed stall cm partner) := ⟨rfl, rfl⟩

theorem degrClear (stall) : Statement (.degrClear stall) := ⟨rfl, rfl⟩

theorem rqCompact : Statement .rqCompact := ⟨rfl, rfl⟩

theorem rqExpand : Statement .rqExpand := ⟨rfl, rfl⟩

theorem rqMove : Statement .rqMove := ⟨rfl, rfl⟩

theorem rqMakeAbsent : Statement .rqMakeAbsent := ⟨rfl, rfl⟩

theorem rqMakeResident : Statement .rqMakeResident := ⟨rfl, rfl⟩

theorem rqJobEnd : Statement .rqJobEnd := ⟨rfl, rfl⟩

theorem hostMemwr (addr data) : Statement (.hostMemwr addr data) := ⟨rfl, rfl⟩

theorem birsp (region) : Statement (.birsp region) := ⟨rfl, rfl⟩

theorem regionWindowEnd (region) : Statement (.regionWindowEnd region) := ⟨rfl, rfl⟩

theorem hostSnoop (line inval) : Statement (.hostSnoop line inval) := ⟨rfl, rfl⟩

theorem gpfPhase1 : Statement .gpfPhase1 := ⟨rfl, rfl⟩

theorem hostHotReset : Statement .hostHotReset := ⟨rfl, rfl⟩

theorem hostLinkDown : Statement .hostLinkDown := ⟨rfl, rfl⟩

theorem tableSweep : Statement .tableSweep := ⟨rfl, rfl⟩

theorem linkRetrained : Statement .linkRetrained := ⟨rfl, rfl⟩

theorem tokenElementAccept (l reads) : Statement (.tokenElementAccept l reads) := ⟨rfl, rfl⟩

theorem commitElementDelivery (l) : Statement (.commitElementDelivery l) := ⟨rfl, rfl⟩

theorem ringRecordWrite (l) : Statement (.ringRecordWrite l) := ⟨rfl, rfl⟩

theorem freeFaultEntry : Statement .freeFaultEntry := ⟨rfl, rfl⟩

theorem firmwareRequestPost (v) : Statement (.firmwareRequestPost v) := ⟨rfl, rfl⟩

theorem openQueues (v) : Statement (.openQueues v) := ⟨rfl, rfl⟩

theorem eventClear (v) : Statement (.eventClear v) := ⟨rfl, rfl⟩

theorem fbstatOverflowClear (v) : Statement (.fbstatOverflowClear v) := ⟨rfl, rfl⟩

theorem suspectClear (n v) : Statement (.suspectClear n v) := ⟨rfl, rfl⟩

theorem regionEntryWrite (v) : Statement (.regionEntryWrite v) := ⟨rfl, rfl⟩

theorem svdataAccess (c wr v) : Statement (.svdataAccess c wr v) := ⟨rfl, rfl⟩

theorem measurementExtend (v) : Statement (.measurementExtend v) := ⟨rfl, rfl⟩

theorem hashRegistration (addr) : Statement (.hashRegistration addr) := ⟨rfl, rfl⟩

theorem clockFloorChange (yard) : Statement (.clockFloorChange yard) := ⟨rfl, rfl⟩

theorem privCsrWrite (c n v) : Statement (.privCsrWrite c n v) := ⟨rfl, rfl⟩

theorem eventTimer : Statement .eventTimer := ⟨rfl, rfl⟩

theorem controlContextEntry : Statement .controlContextEntry := ⟨rfl, rfl⟩

theorem quote (data) : Statement (.quote data) := ⟨rfl, rfl⟩

theorem certificate (data) : Statement (.certificate data) := ⟨rfl, rfl⟩

theorem writeImageChunk (data) : Statement (.writeImageChunk data) := ⟨rfl, rfl⟩

theorem commitImage (data) : Statement (.commitImage data) := ⟨rfl, rfl⟩

theorem advanceSecurityVersion (data) : Statement (.advanceSecurityVersion data) := ⟨rfl, rfl⟩

theorem readErrorLog (data) : Statement (.readErrorLog data) := ⟨rfl, rfl⟩

theorem readHangRecord (data) : Statement (.readHangRecord data) := ⟨rfl, rfl⟩

theorem readLostLineRing (data) : Statement (.readLostLineRing data) := ⟨rfl, rfl⟩

theorem mailboxStandardCommand (opcode data) : Statement (.mailboxStandardCommand opcode data) := ⟨rfl, rfl⟩

theorem mailboxUnsupported (opcode) : Statement (.mailboxUnsupported opcode) := ⟨rfl, rfl⟩

theorem moduleReset : Statement .moduleReset := ⟨rfl, rfl⟩

theorem memoryTrained : Statement .memoryTrained := ⟨rfl, rfl⟩

theorem trainingFailure (sub) : Statement (.trainingFailure sub) := ⟨rfl, rfl⟩

theorem imageVerify : Statement .imageVerify := ⟨rfl, rfl⟩

theorem bringupSelfTestDone (failed) : Statement (.bringupSelfTestDone failed) := ⟨rfl, rfl⟩

theorem tapldCopyComplete (c) : Statement (.tapldCopyComplete c) := ⟨rfl, rfl⟩

theorem registrationEnd : Statement .registrationEnd := ⟨rfl, rfl⟩

end Sys2Proof.Laws.Coding
end

