-- ==== Sys2Proof/Safety.lean ====
section
/-!
DEFINITION. What holds of the machine's data in every state a run passes: the memories in canonical form, and no more fault-buffer
entries than the buffer has.
-/

namespace Sys2Proof.Machine

/-- The canonical form of a memory: addresses strictly rising, and no listed byte equal to what an unlisted address reads as, 0 (log 2,
log 3). -/
def Memory.wf (m : List Host.Cell) : Bool := mwf (0 : Byte) m

/-- Every memory of the machine is in canonical form (R21, R24, R27, R242, R345, R410, R413). -/
def State.memories (s : State) : Bool :=
  Memory.wf s.round && Memory.wf s.istore && Memory.wf s.sstore && Memory.wf s.dev && Memory.wf s.hostMem && Memory.wf s.sec.flash

/-- The invariant of every step: canonical memories, and at most 1,024 entries in the fault buffer (R402). -/
def State.Inv (s : State) : Prop := s.memories = true ∧ s.fbuf.length ≤ 1024

/-- A step that goes on: neither a fault nor a refusal. -/
def goesOn (s : State) : Prop := ∃ t, step s = .next t

/-- No SPILL or FILL that an earlier bundle issued and that is still pending locks a tile: FILL against every use, SPILL against
writes (R201). -/
def Unlocked (c : Ctx) (reads writes : List Nat) : Prop :=
  ∀ o ∈ c.ops, o.performed = false → o.issue < c.ccycle →
    match o.kind with
    | .spill _ t _ _ _ => t ∉ writes
    | .fill _ t _ _ => t ∉ reads ∧ t ∉ writes
    | _ => True

/-- No word that the running operation reads from these vector operands and scale registers is poisoned (R384). -/
def Sound (s : State) (src : List (BitVec 13)) (ks : List (BitVec 8)) : Prop :=
  ∀ m ∈ s.marks, m.bad = true → m.owner = s.cur.ctx →
    (m.struct = 1 → ∀ v ∈ src, m.unit ∉ viewRows (vnum v) (vdir v)) ∧ (m.struct = 2 → ∀ k ∈ ks, k.toNat ≠ m.unit)

/-- No word of these vector rows is poisoned (R384). -/
def SoundRows (s : State) (rows : List Nat) : Prop :=
  ∀ m ∈ s.marks, m.bad = true → m.owner = s.cur.ctx → m.struct = 1 → m.unit ∉ rows

/-- No word of the scale register that a tag names is poisoned (R384). -/
def SoundTag (s : State) (t : Nat) : Prop :=
  ∀ m ∈ s.marks, m.bad = true → m.owner = s.cur.ctx → m.struct = 2 → m.unit ≠ fld (tagOf (me s) t) 16 8

/-- The running operation may use its operands: its vector destinations and sources and the scale registers it reads lie in the
context's grant (R26), no tile they name is locked (R201), and no word it reads is poisoned (R384). -/
def Usable (s : State) (dst src : List (BitVec 13)) (ks : List (BitVec 8)) : Prop :=
  (∀ v ∈ dst ++ src, vnum v < 64 * (me s).grant.tiles) ∧ (∀ k ∈ ks, k.toNat < (me s).grant.kregs) ∧
    Unlocked (me s) (src.map vtile) (dst.map vtile) ∧ Sound s src ks

/-- A scale register that the running operation writes lies in the context's grant (R26). -/
def InGrant (s : State) (kd : BitVec 8) : Prop := kd.toNat < (me s).grant.kregs

/-- The round traffic of the running operation meets nothing: its ranges lie in its bays and in its launch's extents (R189), its
trains meet no train of its class (R231), and its bay accesses meet no reservation of its class (R216). -/
def RoundFree (s : State) (r : Traffic) : Prop :=
  (∀ t ∈ r.1, inExtent (myLaunch s) t.bay t.off t.n = true) ∧
    (∀ b ∈ (stableAt s (stableOf s.cur.ctx)).trains, ∀ a ∈ trainsOf s r, sameClass a.ctx b.ctx = true → meet s a b = false) ∧
    (∀ v ∈ (stableAt s (stableOf s.cur.ctx)).reserves, sameClass v.ctx s.cur.ctx = true → ∀ t ∈ r.1,
      v.abay = t.bay ∨ v.bbay = t.bay → ¬ (v.first ≤ yardOfUse s t.cyc ∧ yardOfUse s t.cyc ≤ v.last))

/-- The immediate operand of R121: the instruction's field, or the literal-pool value that psel names, sign- or zero-extended to 64
bits (R85, R105). -/
def immediate {n : Nat} (s : State) (psel : BitVec 2) (imm : BitVec n) (sext : Bool) : Word :=
  let wide {w : Nat} (x : BitVec w) : Word := if sext then x.signExtend 64 else x.setWidth 64
  if psel = 0 then wide imm
  else if psel = 1 then wide s.cur.pool
  else if psel = 2 then wide (s.cur.pool.extractLsb' 0 16)
  else wide (s.cur.pool.extractLsb' 16 16)

/-- A stream access of the running operation may go on: its stream register is granted and its descriptor legal (R26, R238), its
tensor `t` begins a byte at the offset (R240), may be written where it is a store (R245), has a scale half where one is needed, on the
same side of the boundary and in the same bay (R233), its round traffic is free, and a scoreboard entry is free where it takes one
(R274). -/
def StreamReady (s : State) (wn : BitVec 5) (n : Nat) (data scale store : Bool) (t : Tensor) : Prop :=
  let w := wreg (me s) wn.toNat
  wn.toNat < (me s).grant.streams ∧ descBad (myLaunch s) w = false ∧ tensorOf (myLaunch s) (sTensor w) = some t ∧
    sOffset w * containerBits t.fmt % 8 = 0 ∧ (store = true → namesFramed (myLaunch s) w = false) ∧ (data = true ∨ sStride w ≠ 0) ∧
    (scale = true → sStride w ≠ 0 → ∀ k, tensorOf (myLaunch s) (sScaleT w) = some k →
      (t.kind = 0 → k.kind = 0 ∧ k.bay = t.bay) ∧ (t.kind ≠ 0 → k.kind ≠ 0)) ∧
    RoundFree s (streamTraffic s w n data (scale && sStride w != 0) store) ∧
    boardUsed s s.cur.ctx + (if t.kind = 0 then 0 else 1) ≤ 48

/-- No part that an operation takes of the macros of a mask is occupied by an earlier one (R219). -/
def Idle (s : State) (mask : BitVec 8) (act shad acc : Bool) : Prop :=
  ∀ m < 8, bit mask m = true →
    (act = true → (macroOf (me s) m).time.busyActive.1 ≤ s.cur.cycle) ∧
    (shad = true → (macroOf (me s) m).time.busyShadow.1 ≤ s.cur.cycle) ∧
    (acc = true → (macroOf (me s) m).time.busyAcc.1 ≤ s.cur.cycle)

/-- No shadow fill of the macros of a mask is pending or has failed (R274, R280). -/
def NoFill (c : Ctx) (mask : BitVec 8) : Prop :=
  ∀ m < 8, bit mask m = true → (macroOf c m).fillFailed = none ∧ (macroOf c m).fillOn = none

/-- No active bank of the macros of a mask holds, in scratch mode, a row with bad parity (R234). -/
def GoodParity (s : State) (mask : BitVec 8) : Prop :=
  ∀ m < 8, bit mask m = true → (macroOf (me s) m).scratch = true → (macroOf (me s) m).active.badRows = []

/-- No accumulator of a macro of the running context is bad (R384). -/
def GoodAcc (s : State) (cm : BitVec 3) : Prop :=
  ∀ m ∈ s.marks, m.bad = true → m.struct = 0x0A → m.owner = s.cur.ctx → m.unit / 64 ≠ cm.toNat

/-- A legal fill request: its tensor on the device, its macro granted and in weights mode, its rows within a bank and in whole planes of
a format of R44, its bytes aligned and inside the tensor (R279). -/
def FillRequest (s : State) (v : Row) : Prop :=
  let rows := fld v 32 16
  let bits := containerBits (fld v 48 8)
  bit (me s).grant.macros (fld v 16 3) = true ∧ (macroOf (me s) (fld v 16 3)).scratch = false ∧ 1 ≤ rows ∧ fld v 24 8 + rows ≤ 256 ∧
    fld v 48 8 ≤ 0x0F ∧ rows % (64 / bits) = 0 ∧ fld v 64 48 % 512 = 0 ∧
    ∃ t, tensorOf (myLaunch s) (fld v 0 16) = some t ∧ t.kind = 1 ∧ (fld v 64 48 + rows * 8 * bits - 1) / 65536 < t.tiles

/-- A well-formed entry of the probe table for the tap position that a configuration word names: its dimension a multiple of 128 up to
8,192, its position, arms and enable in range, its reserved bytes zero (R180, R181). -/
def TapEntry (s : State) (w : Word) : Prop :=
  let a := tapEntryAddr s w
  let d := readLe s.dev a 2
  128 ≤ d ∧ d ≤ 8192 ∧ d % 128 = 0 ∧ readLe s.dev (a + 2) 1 = fld w 18 1 ∧ readLe s.dev (a + 3) 1 ≤ 7 ∧ readLe s.dev (a + 8) 1 ≤ 1 ∧
    ∀ e ∈ s.dev, a ≤ e.1 → e.1 < a + 36864 → tapReserved d (e.1 - a) = true → e.2 = 0

/-- What R213 to R217 ask of an MMA or MMAZ of variant `v`: its result rows in the grant and unlocked, its operands in the extents, its
bays and lanes as R216 orders them, no bay access of its class in its window, the window its Stall's (or a secondary context), and, scaled,
a variant that may be, with a current tag of axis 0 whose block fits. -/
def MmaReady (s : State) (v : Nat) (vd : BitVec 11) (abay : BitVec 3) (aoff : BitVec 12) (bbay : BitVec 3) (boff : BitVec 12)
    (alane blane : BitVec 4) (sc : BitVec 1) : Prop :=
  let n := mmaRows v (sc == 1#1)
  let tiles := if vd.toNat / 64 = (vd.toNat + n - 1) / 64 then [vd.toNat / 64] else [vd.toNat / 64, (vd.toNat + n - 1) / 64]
  let st := stableAt s (stableOf s.cur.ctx)
  let y := yardNow s s.cur.ctx
  let t := vd.toNat / 64
  Unlocked (me s) tiles tiles ∧ vd.toNat + n ≤ 64 * (me s).grant.tiles ∧
    inExtent (myLaunch s) abay.toNat (aoff.toNat * 64 : Nat) 1024 = true ∧ inExtent (myLaunch s) bbay.toNat (boff.toNat * 64 : Nat) 1024 = true ∧
    abay.toNat < 4 ∧ 4 ≤ bbay.toNat ∧ mmaLaneOk abay alane = true ∧ mmaLaneOk bbay blane = true ∧
    (∀ u ∈ st.uses, sameClass u.ctx s.cur.ctx = true → u.bay = abay.toNat ∨ u.bay = bbay.toNat →
      ¬ ((y / mxLen st * mxLen st : Nat) ≤ useYard s u ∧ useYard s u < (y / mxLen st * mxLen st : Nat) + (mxLen st : Nat))) ∧
    (slotOf s.cur.ctx = 1 ∨ windowOwner st y = stallOf s.cur.ctx % 2) ∧
    (sc = 1 → v ≠ 1 ∧ tagCurrent (me s) t = true ∧ tagAxis (me s) t = 0 ∧ 16 ≤ tagBlock (me s) t ∧ tagBlock (me s) t ≤ mmaK v ∧
      mmaK v / tagBlock (me s) t ≤ 2 ∧ SoundTag s t)

end Sys2Proof.Machine
end

