-- ==== Sys2Proof/Certificates/Slice0/Obligations.lean ====
section
/-!
DEFINITION. The statements for the provers. Each docstring says which rules of the spec it formalises; a statement that an instruction
completes has as its conclusion that `exec` answers a next state.
-/

section

open Sys2Proof Sys2Proof.Machine

/-- With a true predicate ADD, SUB, MUL, MULH, MULHS and ADDSH issue from every state, and the only effect is that d lands with the sum,
difference, product, unsigned or signed high product, or shifted sum modulo 2^64, at issue + 1 (products at issue + 3). With a true
predicate AND, OR, XOR, ANDN, SHL, SHR, SAR, ROTL (by b<5:0>), MIN, MAX, MINS, MAXS and SEL issue from every state and land d at issue + 1.
With a true predicate each of the thirteen immediate codes issues from every state and lands d as its register code does, with the field or
the pool value psel names, sign-extended for ADD, MUL, MINS and MAXS and zero-extended for the others, in place of b. (R85, R105, R117,
R119, R121) -/
def Obligations.ScalarResultsWrite : Prop :=
  (∀ (s : State) (p : BitVec 5) (d a b : BitVec 6) (sh : BitVec 3), predTrue (me s) p = true →
    let x := sreg (me s) a.toNat
    let y := sreg (me s) b.toNat
    exec (.add p d a b) s = .next (emitS s 1 d (x + y)) ∧
    exec (.sub p d a b) s = .next (emitS s 1 d (x - y)) ∧
    exec (.mul p d a b) s = .next (emitS s 3 d (x * y)) ∧
    exec (.mulh p d a b) s = .next (emitS s 3 d (BitVec.ofNat 64 (x.toNat * y.toNat / 2 ^ 64))) ∧
    exec (.mulhs p d a b) s = .next (emitS s 3 d (BitVec.ofInt 64 (x.toInt * y.toInt / 2 ^ 64))) ∧
    exec (.addsh p d a b sh) s = .next (emitS s 1 d (x + y <<< sh.toNat))) ∧
  (∀ (s : State) (p : BitVec 5) (d a b : BitVec 6) (pc : BitVec 4), predTrue (me s) p = true →
    let x := sreg (me s) a.toNat
    let y := sreg (me s) b.toNat
    exec (.and p d a b) s = .next (emitS s 1 d (x &&& y)) ∧
    exec (.or p d a b) s = .next (emitS s 1 d (x ||| y)) ∧
    exec (.xor p d a b) s = .next (emitS s 1 d (x ^^^ y)) ∧
    exec (.andn p d a b) s = .next (emitS s 1 d (x &&& ~~~y)) ∧
    exec (.shl p d a b) s = .next (emitS s 1 d (x <<< (y.extractLsb' 0 6).toNat)) ∧
    exec (.shr p d a b) s = .next (emitS s 1 d (x >>> (y.extractLsb' 0 6).toNat)) ∧
    exec (.sar p d a b) s = .next (emitS s 1 d (x.sshiftRight (y.extractLsb' 0 6).toNat)) ∧
    exec (.rotl p d a b) s = .next (emitS s 1 d (x.rotateLeft (y.extractLsb' 0 6).toNat)) ∧
    exec (.min p d a b) s = .next (emitS s 1 d (if x.toNat ≤ y.toNat then x else y)) ∧
    exec (.max p d a b) s = .next (emitS s 1 d (if x.toNat ≤ y.toNat then y else x)) ∧
    exec (.mins p d a b) s = .next (emitS s 1 d (if x.toInt ≤ y.toInt then x else y)) ∧
    exec (.maxs p d a b) s = .next (emitS s 1 d (if x.toInt ≤ y.toInt then y else x)) ∧
    exec (.sel p d a b pc) s = .next (emitS s 1 d (if preg (me s) pc.toNat = true then x else y))) ∧
  (∀ (s : State) (p : BitVec 5) (d a : BitVec 6) (psel : BitVec 2) (imm : BitVec 22), predTrue (me s) p = true →
    let x := sreg (me s) a.toNat
    let y := immediate s psel imm true
    let z := immediate s psel imm false
    exec (.addi p d a psel imm) s = .next (emitS s 1 d (x + y)) ∧
    exec (.mulImm p d a psel imm) s = .next (emitS s 3 d (x * y)) ∧
    exec (.andImm p d a psel imm) s = .next (emitS s 1 d (x &&& z)) ∧
    exec (.orImm p d a psel imm) s = .next (emitS s 1 d (x ||| z)) ∧
    exec (.xorImm p d a psel imm) s = .next (emitS s 1 d (x ^^^ z)) ∧
    exec (.shlImm p d a psel imm) s = .next (emitS s 1 d (x <<< (z.extractLsb' 0 6).toNat)) ∧
    exec (.shrImm p d a psel imm) s = .next (emitS s 1 d (x >>> (z.extractLsb' 0 6).toNat)) ∧
    exec (.sarImm p d a psel imm) s = .next (emitS s 1 d (x.sshiftRight (z.extractLsb' 0 6).toNat)) ∧
    exec (.rotlImm p d a psel imm) s = .next (emitS s 1 d (x.rotateLeft (z.extractLsb' 0 6).toNat)) ∧
    exec (.minImm p d a psel imm) s = .next (emitS s 1 d (if x.toNat ≤ z.toNat then x else z)) ∧
    exec (.maxImm p d a psel imm) s = .next (emitS s 1 d (if x.toNat ≤ z.toNat then z else x)) ∧
    exec (.minsImm p d a psel imm) s = .next (emitS s 1 d (if x.toInt ≤ y.toInt then x else y)) ∧
    exec (.maxsImm p d a psel imm) s = .next (emitS s 1 d (if x.toInt ≤ y.toInt then y else x)))

/-- DIV, DIVS and REM with a true predicate issue from every state and land their result at issue + 18: all ones for a zero divisor (the
dividend for REM), else the unsigned quotient, the signed quotient truncated towards zero (which for -2^63 by -1 is -2^63), the unsigned
remainder. No fault is raised and no flag is set: the one effect is the landing of d. (R120) -/
def Obligations.ScalarDivisionWrites : Prop :=
  ∀ (s : State) (p : BitVec 5) (d a b : BitVec 6), predTrue (me s) p = true →
    let x := sreg (me s) a.toNat
    let y := sreg (me s) b.toNat
    exec (.div p d a b) s = .next (emitS s 18 d (if y = 0 then BitVec.allOnes 64 else BitVec.ofNat 64 (x.toNat / y.toNat))) ∧
    exec (.divs p d a b) s = .next (emitS s 18 d (if y = 0 then BitVec.allOnes 64 else if x = BitVec.intMin 64 ∧ y = BitVec.allOnes 64 then BitVec.intMin 64 else BitVec.ofInt 64 (x.toInt.tdiv y.toInt))) ∧
    exec (.rem p d a b) s = .next (emitS s 18 d (if y = 0 then x else BitVec.ofNat 64 (x.toNat - y.toNat * (x.toNat / y.toNat))))

/-- CLZ with a true predicate lands d at issue + 1 with the one n of 0 to 64 for which a has n leading zero bits; POPC lands the number of
positions 0 to 63 whose bit of a is one. (R119) -/
def Obligations.BitCountsWrite : Prop :=
  ∀ (s : State) (p : BitVec 5) (d a : BitVec 6) (n : Nat), predTrue (me s) p = true →
    let x := sreg (me s) a.toNat
    (n ≤ 64 → x.toNat < 2 ^ (64 - n) → (n < 64 → 2 ^ (63 - n) ≤ x.toNat) →
      exec (.clz p d a) s = .next (emitS s 1 d (BitVec.ofNat 64 n))) ∧
    exec (.popc p d a) s = .next (emitS s 1 d (BitVec.ofNat 64 ((List.range 64).filter (fun i => x.getLsbD i)).length))

/-- With a true predicate the six comparisons, and the same with an immediate (sign-extended for equality and the signed orders,
zero-extended for the unsigned orders), issue from every state and land pd at issue + 1 with the truth of a = b, a ≠ b, ua < ub, sa < sb,
ua ≤ ub or sa ≤ sb. (R122) -/
def Obligations.ComparisonsWritePredicate : Prop :=
  ∀ (s : State) (p : BitVec 5) (pd : BitVec 4) (a b : BitVec 6) (psel : BitVec 2) (imm : BitVec 22), predTrue (me s) p = true →
    let x := sreg (me s) a.toNat
    let y := sreg (me s) b.toNat
    let i := immediate s psel imm true
    let j := immediate s psel imm false
    exec (.cmpeq p pd a b) s = .next (emitP s 1 pd (decide (x = y))) ∧
    exec (.cmpne p pd a b) s = .next (emitP s 1 pd (decide (x ≠ y))) ∧
    exec (.cmplt p pd a b) s = .next (emitP s 1 pd (decide (x.toNat < y.toNat))) ∧
    exec (.cmplts p pd a b) s = .next (emitP s 1 pd (decide (x.toInt < y.toInt))) ∧
    exec (.cmple p pd a b) s = .next (emitP s 1 pd (decide (x.toNat ≤ y.toNat))) ∧
    exec (.cmples p pd a b) s = .next (emitP s 1 pd (decide (x.toInt ≤ y.toInt))) ∧
    exec (.cmpeqImm p pd a psel imm) s = .next (emitP s 1 pd (decide (x = i))) ∧
    exec (.cmpneImm p pd a psel imm) s = .next (emitP s 1 pd (decide (x ≠ i))) ∧
    exec (.cmpltImm p pd a psel imm) s = .next (emitP s 1 pd (decide (x.toNat < j.toNat))) ∧
    exec (.cmpltsImm p pd a psel imm) s = .next (emitP s 1 pd (decide (x.toInt < i.toInt))) ∧
    exec (.cmpleImm p pd a psel imm) s = .next (emitP s 1 pd (decide (x.toNat ≤ j.toNat))) ∧
    exec (.cmplesImm p pd a psel imm) s = .next (emitP s 1 pd (decide (x.toInt ≤ i.toInt)))

/-- With a true predicate PSET, PAND, POR, PXOR and PNOT land pd at issue + 1 with R123's value, an operand inverted where its invert bit
is set, and LI short and long land d at issue + 1 with the sign-extended immediate or pool value, or the whole 64-bit immediate. (R106,
R123, R124) -/
def Obligations.PredicateOperationsWrite : Prop :=
  ∀ (s : State) (p : BitVec 5) (pd pa pb : BitVec 4) (inva invb : BitVec 1) (d a : BitVec 6) (psel : BitVec 2) (imm : BitVec 28) (long : BitVec 64),
    predTrue (me s) p = true →
    let u := Bool.xor (preg (me s) pa.toNat) (decide (inva = 1))
    let v := Bool.xor (preg (me s) pb.toNat) (decide (invb = 1))
    exec (.pset p pd a) s = .next (emitP s 1 pd (decide (sreg (me s) a.toNat ≠ 0))) ∧
    exec (.pand p pd pa pb inva invb) s = .next (emitP s 1 pd (u && v)) ∧
    exec (.por p pd pa pb inva invb) s = .next (emitP s 1 pd (u || v)) ∧
    exec (.pxor p pd pa pb inva invb) s = .next (emitP s 1 pd (Bool.xor u v)) ∧
    exec (.pnot p pd pa) s = .next (emitP s 1 pd (!preg (me s) pa.toNat)) ∧
    exec (.li p d psel imm) s = .next (emitS s 1 d (immediate s psel imm true)) ∧
    exec (.liLong p d long) s = .next (emitS s 1 d long)

/-- With a true predicate LIDX lands d at issue + 1 with the zero-extended index of the loop entry idx places below the top, or 0 where the
stack is not that deep, and NBND lands n at issue + 1 with the low 32 bits of a or its immediate. (R132, R135) -/
def Obligations.LoopIndexAndBoundWrites : Prop :=
  ∀ (s : State) (p : BitVec 5) (d a : BitVec 6) (idx : BitVec 3) (n : BitVec 4) (imm : BitVec 32), predTrue (me s) p = true →
    exec (.lidx p d idx) s = .next (emitS s 1 d (match (me s).loops[idx.toNat]? with | some e => e.index.setWidth 64 | none => 0)) ∧
    exec (.nbnd p n a) s = .next (emit s 1 (.nreg n.toNat ((sreg (me s) a.toNat).extractLsb' 0 32))) ∧
    exec (.nbndImm p n imm) s = .next (emit s 1 (.nreg n.toNat imm))

/-- With a true predicate, for a CSR number below 0x800 or in a service context: CSRR (of a register of the I/O die once its value has come
back) lands d at issue + 1 with the register's value at issue (and moves csr.svoff on where it reads csr.svdata), and CSRW lands a write of
a, or of its zero-extended immediate, at issue + 1. Until the value of such a register has come back its CSRR freezes the context. The
counters and the mode, flag and semaphore-grant registers read as the state holds them. No encoding with an unassigned number, of a CSRR of
a write-only register or of a CSRW of a read-only one decodes in any slot, so its bundle raises fault 0x01. (R37, R38, R103, R134, R411,
R412) -/
def Obligations.CsrAccessCompletes : Prop :=
  (∀ (s : State) (p : BitVec 5) (d a : BitVec 6) (csr : BitVec 12) (imm : BitVec 16), predTrue (me s) p = true →
    (csr.toNat < 0x800 ∨ isSvc s.cur.ctx = true) →
    (csr.toNat < 0x808 ∨ (me s).probeOk = true → exec (.csrr p d csr) s = .next (emitS (csrReadEffect s csr.toNat) 1 d (csrRead s s.cur.ctx csr.toNat))) ∧
    (0x808 ≤ csr.toNat → (me s).probeOk = false → exec (.csrr p d csr) s = .next (freezeHere s .csr)) ∧
    exec (.csrw p a csr) s = .next (emit s 1 (.csr csr.toNat (sreg (me s) a.toNat))) ∧
    exec (.csrwImm p imm csr) s = .next (emit s 1 (.csr csr.toNat (imm.setWidth 64))) ∧
    (csr.toNat < 0x800 → csrReadEffect s csr.toNat = s) ∧
    csrRead s s.cur.ctx 0x000 = BitVec.ofNat 64 s.mcycle ∧
    csrRead s s.cur.ctx 0x001 = BitVec.ofNat 64 (yardNow s s.cur.ctx) ∧
    csrRead s s.cur.ctx 0x003 = BitVec.ofNat 64 (me s).ccycle ∧
    csrRead s s.cur.ctx 0x012 = (me s).grant.sems ∧
    csrRead s s.cur.ctx 0x020 = (me s).mode.setWidth 64 ∧
    csrRead s s.cur.ctx 0x021 = (me s).fflags.setWidth 64 ∧
    csrRead s s.cur.ctx 0x040 = BitVec.ofNat 64 (me s).deadline) ∧
  (∀ (slot : Nat) (x ext : BitVec 64) (o : SlotOp) (p : BitVec 5) (d a : BitVec 6) (csr : BitVec 12) (imm : BitVec 16), decodeField slot x ext = .ok o →
    let n := csr.toNat
    let rw := 0x020 ≤ n ∧ n ≤ 0x029 ∨ n = 0x030
    let privRw := 0x800 ≤ n ∧ n ≤ 0x801 ∨ 0x810 ≤ n ∧ n ≤ 0x817 ∧ n ≠ 0x813 ∨ 0x820 ≤ n ∧ n ≤ 0x825 ∨ n = 0x828 ∨ 0x830 ≤ n ∧ n ≤ 0x836 ∨ 0x840 ≤ n ∧ n ≤ 0x844 ∨ 0x850 ≤ n ∧ n ≤ 0x852 ∨ n = 0x858 ∨
      0x860 ≤ n ∧ n ≤ 0x873 ∨ n = 0x883 ∨ n = 0x8B1 ∨ 0x8C0 ≤ n ∧ n ≤ 0x8C1
    (o = .ins (.csrr p d csr) → rw ∨ n ≤ 3 ∨ 0x010 ≤ n ∧ n ≤ 0x012 ∨ n = 0x040 ∨ n = 0x041 ∨ n = 0x050 ∨ privRw ∨ n = 0x802 ∨ n = 0x803 ∨ n = 0x813 ∨ n = 0x829 ∨ 0x845 ≤ n ∧ n ≤ 0x848 ∨ n = 0x880 ∨
      0x890 ≤ n ∧ n ≤ 0x8AF ∨ n = 0x8C2) ∧
    (o = .ins (.csrw p a csr) ∨ o = .ins (.csrwImm p imm csr) → rw ∨ privRw ∨ n = 0x808 ∨ n = 0x849 ∨ n = 0x881 ∨ n = 0x882 ∨ n = 0x8B0)) ∧
  (∀ (s : State) (c slot : Nat) (e : Reject), slotInstr (bundleAt s c (ctxOf s c).pc) slot = .error e → fetchSlot exec s c slot = .next (faultAt s c 1 0 slot))

/-- In a context that is no service context, CSRR and CSRW of a number at or above 0x800, TAPLD and FENCE of scope 9 raise fault 0x01 at
their bundle and slot, whatever their predicate. (R37, R75, R103, R134, R141, R181) -/
def Obligations.ServiceOnlyFormsFault : Prop :=
  ∀ (s : State) (p : BitVec 5) (q : BitVec 3) (d a : BitVec 6) (csr : BitVec 12) (imm : BitVec 16) (tap : BitVec 3), isSvc s.cur.ctx = false → 0x800 ≤ csr.toNat →
    exec (.csrr p d csr) s = .next (raiseHere s 1 0) ∧
    exec (.csrw p a csr) s = .next (raiseHere s 1 0) ∧
    exec (.csrwImm p imm csr) s = .next (raiseHere s 1 0) ∧
    exec (.tapld p tap a) s = .next (raiseHere s 1 0) ∧
    exec (.fence q 9) s = .next (raiseHere s 1 0)

/-- With a true predicate and a target below the code length, BR (label or scalar), CALL, RET and a BC whose comparison holds set the next
bundle to the target with frame base issue + 2; CALL also lands its link, the index of the bundle after it, at issue + 1; a BC whose
comparison fails changes nothing. (R125, R126, R127) -/
def Obligations.TransfersSetNextBundle : Prop :=
  ∀ (s : State) (p : BitVec 5) (d a b : BitVec 6) (cond : BitVec 3) (target : BitVec 12), predTrue (me s) p = true →
    let x := sreg (me s) a.toNat
    let y := sreg (me s) b.toNat
    let far (t : State) (n : Nat) : State := { t with cur := { t.cur with next := some (n, s.cur.cycle + 2) } }
    let holds : Prop := match cond.toNat with
      | 0 => x = y | 1 => x ≠ y | 2 => x.toNat < y.toNat | 3 => x.toInt < y.toInt | 4 => x.toNat ≤ y.toNat | _ => x.toInt ≤ y.toInt
    (target.toNat < (me s).grant.codeLen →
      exec (.br p target) s = .next (far s target.toNat) ∧
      exec (.call p d target) s = .next (far (emitS s 1 d (BitVec.ofNat 64 (s.cur.pc + 1))) target.toNat) ∧
      (holds → exec (.bc p a b cond target) s = .next (far s target.toNat))) ∧
    (¬ holds → exec (.bc p a b cond target) s = .next (s)) ∧
    (x.toNat < (me s).grant.codeLen →
      exec (.brScalar p a) s = .next (far s x.toNat) ∧ exec (.ret p a) s = .next (far s x.toNat))

/-- With a true predicate a LOOP whose end lies in the code extent, within the body it stands in, and whose push the declared depth holds,
starts the body as a new frame at issue + 1 with the entry (index 0, trip, start, len) pushed, or, with a trip count of 0, pushes nothing
and starts the bundle past the body at issue + 1. LEXIT with a non-empty stack whose top body ends below the code length pops the top entry
and starts the bundle past its body at issue + 2. (R126, R128, R129, R131) -/
def Obligations.LoopsPushAndLeave : Prop :=
  ∀ (s : State) (p : BitVec 5) (a : BitVec 6) (n : BitVec 4) (count : BitVec 16) (len : BitVec 12), predTrue (me s) p = true →
    let start := s.cur.pc + 1
    let after (trip : BitVec 32) : State :=
      if trip = 0 then { s with cur := { s.cur with next := some (start + len.toNat, s.cur.cycle + 1) } }
      else
        let t := modMe s (fun c => { c with loops := { index := 0, trip := trip, start := start, len := len.toNat } :: c.loops })
        { t with cur := { t.cur with next := some (start, t.cur.cycle + 1) } }
    let fits (trip : BitVec 32) : Prop := (trip = 0 ∨ (me s).loops.length < (me s).grant.loops) ∧ start + len.toNat ≤ (me s).grant.codeLen ∧
      ∀ e ∈ (me s).loops.head?, e.start ≤ s.cur.pc → s.cur.pc < e.start + e.len → start + len.toNat ≤ e.start + e.len
    (fits ((sreg (me s) a.toNat).extractLsb' 0 32) → exec (.loopScalar p a len) s = .next (after ((sreg (me s) a.toNat).extractLsb' 0 32))) ∧
    (fits (nreg (me s) n.toNat) → exec (.loopNbound p n len) s = .next (after (nreg (me s) n.toNat))) ∧
    (fits (count.setWidth 32) → exec (.loopImm p count len) s = .next (after (count.setWidth 32))) ∧
    (∀ e r, (me s).loops = e :: r → e.start + e.len < (me s).grant.codeLen → exec (.lexit p) s =
      .next (let t := modMe s (fun c => { c with loops := r }); { t with cur := { t.cur with next := some (e.start + e.len, t.cur.cycle + 2) } }))

/-- With a true predicate: BR, CALL, RET, BR scalar and a taken BC whose target (for a scalar the whole 64-bit value) is at or above the
code length, a LOOP of any form (LPI, LPS, LPN) that would push beyond the declared depth or end beyond the code length or beyond the body
it stands in, and a LEXIT with an empty stack, or out of a body that ends at the code length, raise fault 0x02 at their bundle and slot.
(R126, R129, R131) -/
def Obligations.TransfersBeyondCodeFault : Prop :=
  ∀ (s : State) (p : BitVec 5) (d a b : BitVec 6) (cond : BitVec 3) (target len : BitVec 12) (count : BitVec 16) (n : BitVec 4), predTrue (me s) p = true →
    let past (trip : BitVec 32) : Prop := trip ≠ 0 ∧ (me s).grant.loops ≤ (me s).loops.length ∨ (me s).grant.codeLen < s.cur.pc + 1 + len.toNat ∨
      (∃ e ∈ (me s).loops.head?, e.start ≤ s.cur.pc ∧ s.cur.pc < e.start + e.len ∧ e.start + e.len < s.cur.pc + 1 + len.toNat)
    let x := sreg (me s) a.toNat
    ((me s).grant.codeLen ≤ target.toNat → exec (.br p target) s = .next (raiseHere s 2 0) ∧ exec (.call p d target) s = .next (raiseHere s 2 0) ∧
      (compare cond.toNat x (sreg (me s) b.toNat) = true → exec (.bc p a b cond target) s = .next (raiseHere s 2 0))) ∧
    ((me s).grant.codeLen ≤ x.toNat → exec (.brScalar p a) s = .next (raiseHere s 2 0) ∧ exec (.ret p a) s = .next (raiseHere s 2 0)) ∧
    (past (count.setWidth 32) → exec (.loopImm p count len) s = .next (raiseHere s 2 0)) ∧
    (past ((sreg (me s) a.toNat).extractLsb' 0 32) → exec (.loopScalar p a len) s = .next (raiseHere s 2 0)) ∧
    (past (nreg (me s) n.toNat) → exec (.loopNbound p n len) s = .next (raiseHere s 2 0)) ∧
    ((me s).loops = [] ∨ (∃ e ∈ (me s).loops.head?, (me s).grant.codeLen ≤ e.start + e.len) → exec (.lexit p) s = .next (raiseHere s 2 0))

/-- With a true predicate NOP changes nothing; WAITD, immediate or scalar (clipped to 65,535), changes nothing when no variable-latency
access issued at least its count before is still to perform; FENCE of scopes 0 to 4 changes nothing, and of scopes 5 to 8 (9 in a service
context) adds the fence behind the accesses entered so far. With a true predicate and a semaphore in the launch's grant, SEMSIG and SEMSIG
from a scalar (semaphore a<5:0>) issue a signal of count c + 1 that performs at issue + 2. (R22, R107, R139, R140, R141, R142, R258) -/
def Obligations.OrderingOperationsComplete : Prop :=
  (∀ (s : State) (p : BitVec 3) (count : BitVec 16) (a : BitVec 6) (scope : BitVec 4), predTrue (me s) (0#2 ++ p) = true →
    exec (.nop p) s = .next (s) ∧
    (lateSet s s.cur.cycle count.toNat = [] → exec (.waitdImm p count) s = .next (s)) ∧
    (lateSet s s.cur.cycle (min (sreg (me s) a.toNat).toNat 65535) = [] → exec (.waitdScalar p a) s = .next (s)) ∧
    (scope.toNat < 5 → exec (.fence p scope) s = .next (s)) ∧
    (5 ≤ scope.toNat → scope.toNat ≠ 9 ∨ isSvc s.cur.ctx = true →
      exec (.fence p scope) s = .next (modMe s (fun c => { c with fences := c.fences ++ [(c.opId, scope.toNat)] })))) ∧
  (∀ (s : State) (p : BitVec 3) (c sem a : BitVec 6), predTrue (me s) (0#2 ++ p) = true →
    (bit (me s).grant.sems sem.toNat = true → exec (.semsig p c sem) s = .next (emit s 2 (.sem sem.toNat (c.toNat + 1)))) ∧
    (bit (me s).grant.sems (fld (sreg (me s) a.toNat) 0 6) = true →
      exec (.semsigScalar p c a) s = .next (emit s 2 (.sem (fld (sreg (me s) a.toNat) 0 6) (c.toNat + 1)))))

/-- With a true predicate, a granted semaphore whose value is at least c + 1, and room for its undo charge in its segment (which is empty
where its bundle enters one), SEMWAIT answers a next state in which that semaphore has lost c + 1, every other semaphore of every Stable
keeps its value, the context's registers, rows and memory spaces are unchanged, and the undo charge has risen by 8 where the context has a
segment budget. (R142, R285, R286) -/
def Obligations.SemwaitTakesTheCount : Prop :=
  ∀ (s : State) (p : BitVec 3) (c sem : BitVec 6), predTrue (me s) (0#2 ++ p) = true → bit (me s).grant.sems sem.toNat = true →
    c.toNat + 1 ≤ (semVal s sem.toNat).toNat → ((me s).grant.segbudget = 0 ∨ openCharge s + 8 ≤ (me s).grant.segbudget) →
    ∃ t, exec (.semwait p c sem) s = .next t ∧
      mget (stableAt t (stableOf s.cur.ctx)).sems sem.toNat 0 = semVal s sem.toNat - BitVec.ofNat 32 (c.toNat + 1) ∧
      (∀ n m, (n ≠ stableOf s.cur.ctx ∨ m ≠ sem.toNat) → mget (stableAt t n).sems m 0 = mget (stableAt s n).sems m 0) ∧
      (me t).charge = (if (me s).grant.segbudget = 0 then (me s).charge else (me s).charge + 8) ∧
      (me t).sregs = (me s).sregs ∧ (me t).pregs = (me s).pregs ∧ (me t).vrows = (me s).vrows ∧ (me t).kregs = (me s).kregs ∧ (me t).flight = (me s).flight ∧
      (∀ k, k ≠ s.cur.ctx → ctxOf t k = ctxOf s k) ∧
      t.round = s.round ∧ t.dev = s.dev ∧ t.istore = s.istore

/-- With a true predicate and a granted semaphore whose value is below c + 1, SEMWAIT takes nothing: with csr.mode.dctrap 0 the context
freezes at its bundle waiting for the semaphore, and with dctrap 1 fault 0x07 is raised at the bundle with the operation itself as second
operation. (R142, R274, R275) -/
def Obligations.SemwaitShortWaitsOrFaults : Prop :=
  ∀ (s : State) (p : BitVec 3) (c sem : BitVec 6), predTrue (me s) (0#2 ++ p) = true → bit (me s).grant.sems sem.toNat = true → (semVal s sem.toNat).toNat < c.toNat + 1 →
    (dctrap (me s) = false → exec (.semwait p c sem) s = .next (freezeHere s (.sem sem.toNat))) ∧
    (dctrap (me s) = true → exec (.semwait p c sem) s = .next (raiseHere s 7 (hereSrc s)))

/-- With a true predicate and a group declared for the launch that the context belongs to: RDV issues when all members are in one Yard and
each other one has arrived at this ordinal, and BAR issues when the release of its ordinal has reached the context; each then has used that
ordinal of the group. (R136, R137, R138, R386) -/
def Obligations.GroupOperationsComplete : Prop :=
  ∀ (s : State) (p : BitVec 3) (group : BitVec 4) (a b : Nat), predTrue (me s) (0#2 ++ p) = true →
    groupOf (myLaunch s) group.toNat = some (a, b) → a ≤ (me s).k → (me s).k ≤ b →
    let g := group.toNat
    let used := modMe s (fun c => { c with rdv := mset c.rdv g (max (issuedOrd c g) (ordinal c g + 1)) 0, bar := mset c.bar g (ordinal c g + 1) 0 })
    ((∀ m ∈ membersOf (myLaunch s) g, yardOf m = yardOf s.cur.ctx) →
      (∀ m ∈ membersOf (myLaunch s) g, m ≠ s.cur.ctx → arrived s m g (ordinal (me s) g) = true) → exec (.rdv p group) s = .next (used)) ∧
    (ordinal (me s) g < mget (me s).barOpen g 0 → exec (.bar p group) s = .next (used))

/-- With a true predicate SVC, TRAP, HALT and EXIT issue from every state, and YIELD in a bundle with the yield mark; each leaves in the
running bundle what happens once it has committed, the code with SVC and TRAP, and changes nothing else. (R144, R145, R146, R147) -/
def Obligations.SystemOperationsTakeEffectAtCommit : Prop :=
  ∀ (s : State) (p : BitVec 3) (code : BitVec 12), predTrue (me s) (0#2 ++ p) = true →
    let later (a : After) : State := { s with cur := { s.cur with after := a } }
    exec (.svc p code) s = .next (later (.svc code.toNat)) ∧
    exec (.trap p code) s = .next (later (.trap code.toNat)) ∧
    exec (.halt p) s = .next (later .halt) ∧
    exec (.exit p) s = .next (later .exit) ∧
    (s.cur.yieldMark = true → exec (.yield p) s = .next (later .offer))

/-- With a true predicate, for an empty range or a range inside the tiles of a device or host tensor: PROBE whose answer has come (or whose
range is empty) issues and uses the answer up, one whose tiles are resident and all in the tile-translation cache, with no earlier store,
SPILL or DISCARD of its queue still to perform, issues without a wait, pins them and uses them in the cache (the shortcut is the model's,
log 44), and another freezes its context for the answer; DISCARD of an empty range changes nothing, and of another range enters the
tensor's queue as an off-core access without landing. (R148, R149, R243, R247, R339) -/
def Obligations.ProbeAndDiscardComplete : Prop :=
  ∀ (s : State) (p : BitVec 3) (a b : BitVec 6), predTrue (me s) (0#2 ++ p) = true →
    let x := sreg (me s) a.toNat
    let len := fld (sreg (me s) b.toNat) 0 48
    (len = 0 →
      exec (.probe p b a) s = .next (modMe s (fun c => { c with probeOk := false })) ∧ exec (.discard p b a) s = .next (s)) ∧
    (∀ t, tensorOf (myLaunch s) (fld x 48 16) = some t → t.kind ≠ 0 → len ≠ 0 → (fld x 0 48 + len - 1) / 65536 < t.tiles →
      ((me s).probeOk = true → exec (.probe p b a) s = .next (modMe s (fun c => { c with probeOk := false }))) ∧
      (let hit := (∀ o ∈ (me s).ops, o.performed = false → o.q = kindQueue t → changesTiles o.kind = false) ∧
          ∀ i ∈ tilesIn (fld x 0 48) len false, cached s s.cur.ctx (fld x 48 16) i = true ∧ (tileState s t i = 1 ∨ tileState s t i = 2)
       ((me s).probeOk = false → hit → ∀ u, pinTiles s s.cur.ctx t.table (tilesIn (fld x 0 48) len false) = some u → exec (.probe p b a) s = .next (cacheRanges u s.cur.ctx [(t, fld x 0 48, len)])) ∧
       ((me s).probeOk = false → ¬ hit → exec (.probe p b a) s = .next (freezeHere s (.probe (fld x 48 16) (fld x 0 48) len)))) ∧
      exec (.discard p b a) s = .next (enqueue s (kindQueue t) (.discard (fld x 48 16) (fld x 0 48) len) .none 0xE false))

/-- With a true predicate and usable operands (rows in the grant, no tile locked, no poison) the FP32 lane arithmetic of R155, vector and
scalar forms, VCLAMP, and the reference functions of R64 to R66 issue, and their 128 lanes land with the OR of the lanes' flags at issue +
3, + 5 (products) or + 7 (reference functions). (R64, R65, R66, R152, R153, R155, R156) -/
def Obligations.VectorFloatCompletes : Prop :=
  ∀ (s : State) (p : BitVec 5) (vd va vb vc : BitVec 13) (sb slo shi : BitVec 6), predTrue (me s) p = true →
    let x := readVec (me s) va
    let y := readVec (me s) vb
    let z := readVec (me s) vc
    let w := splat 32 (sreg (me s) sb.toNat)
    (Usable s [vd] [va, vb] [] →
      exec (.vadd p vd va vb) s = .next (emitRes s 3 vd (mapRow2 fadd x y)) ∧
      exec (.vsub p vd va vb) s = .next (emitRes s 3 vd (mapRow2 fsub x y)) ∧
      exec (.vmul p vd va vb) s = .next (emitRes s 5 vd (mapRow2 fmul x y)) ∧
      exec (.vmin p vd va vb) s = .next (emitRes s 3 vd (mapRow2 fmin x y)) ∧
      exec (.vmax p vd va vb) s = .next (emitRes s 3 vd (mapRow2 fmax x y))) ∧
    (Usable s [vd] [va, vb, vc] [] →
      exec (.vfma p vd va vb vc) s = .next (emitRes s 5 vd (mapRow3 ffma x y z)) ∧
      exec (.vfms p vd va vb vc) s = .next (emitRes s 5 vd (mapRow3 ffms x y z)) ∧
      exec (.vfnma p vd va vb vc) s = .next (emitRes s 5 vd (mapRow3 ffnma x y z))) ∧
    (Usable s [vd] [va] [] →
      exec (.vaddScalar p vd va sb) s = .next (emitRes s 3 vd (mapRow2 fadd x w)) ∧
      exec (.vsubScalar p vd va sb) s = .next (emitRes s 3 vd (mapRow2 fsub x w)) ∧
      exec (.vmulScalar p vd va sb) s = .next (emitRes s 5 vd (mapRow2 fmul x w)) ∧
      exec (.vminScalar p vd va sb) s = .next (emitRes s 3 vd (mapRow2 fmin x w)) ∧
      exec (.vmaxScalar p vd va sb) s = .next (emitRes s 3 vd (mapRow2 fmax x w)) ∧
      exec (.vabs p vd va) s = .next (emitRes s 3 vd (mapRow fabs x)) ∧
      exec (.vneg p vd va) s = .next (emitRes s 3 vd (mapRow fneg x)) ∧
      exec (.vrcp p vd va) s = .next (emitRes s 7 vd (mapRow vrcp x)) ∧
      exec (.vrsq p vd va) s = .next (emitRes s 7 vd (mapRow vrsq x)) ∧
      exec (.vexp2 p vd va) s = .next (emitRes s 7 vd (mapRow vexp2 x)) ∧
      exec (.vlog2 p vd va) s = .next (emitRes s 7 vd (mapRow vlog2 x)) ∧
      exec (.vclamp p vd va slo shi) s = .next (emitRes s 3 vd (mapRow (clampLane ((sreg (me s) slo.toNat).extractLsb' 0 32) ((sreg (me s) shi.toNat).extractLsb' 0 32)) x))) ∧
    (Usable s [vd] [va, vc] [] →
      exec (.vfmaScalar p vd va sb vc) s = .next (emitRes s 5 vd (mapRow3 ffma x w z)) ∧
      exec (.vfmsScalar p vd va sb vc) s = .next (emitRes s 5 vd (mapRow3 ffms x w z)) ∧
      exec (.vfnmaScalar p vd va sb vc) s = .next (emitRes s 5 vd (mapRow3 ffnma x w z)))

/-- With a true predicate and usable operands the compares land, at issue + 3, all ones in each lane where the comparison holds and zero
elsewhere (FP32 with the flags of their lanes), and VSEL lands byte i of va where bit 7 of byte i of vc is 1, else of vb. (R157, R158) -/
def Obligations.VectorComparesAndSelectComplete : Prop :=
  ∀ (s : State) (p : BitVec 5) (vd va vb vc : BitVec 13), predTrue (me s) p = true →
    let x := readVec (me s) va
    let y := readVec (me s) vb
    let z := readVec (me s) vc
    (Usable s [vd] [va, vb] [] →
      exec (.vcmpeqF p vd va vb) s = .next (emitRes s 3 vd (mapRow2 fcmpEq x y)) ∧
      exec (.vcmpltF p vd va vb) s = .next (emitRes s 3 vd (mapRow2 fcmpLt x y)) ∧
      exec (.vcmpleF p vd va vb) s = .next (emitRes s 3 vd (mapRow2 fcmpLe x y)) ∧
      exec (.vcmpeqI p vd va vb) s = .next (emitRes s 3 vd (mapRow2 (fun a b => (if a = b then BitVec.allOnes 32 else 0, 0)) x y)) ∧
      exec (.vcmpltSi p vd va vb) s = .next (emitRes s 3 vd (mapRow2 (fun a b => (if a.toInt < b.toInt then BitVec.allOnes 32 else 0, 0)) x y)) ∧
      exec (.vcmpltUi p vd va vb) s = .next (emitRes s 3 vd (mapRow2 (fun a b => (if a.toNat < b.toNat then BitVec.allOnes 32 else 0, 0)) x y)) ∧
      exec (.vcmpleSi p vd va vb) s = .next (emitRes s 3 vd (mapRow2 (fun a b => (if a.toInt ≤ b.toInt then BitVec.allOnes 32 else 0, 0)) x y)) ∧
      exec (.vcmpleUi p vd va vb) s = .next (emitRes s 3 vd (mapRow2 (fun a b => (if a.toNat ≤ b.toNat then BitVec.allOnes 32 else 0, 0)) x y))) ∧
    (Usable s [vd] [va, vb, vc] [] →
      exec (.vsel p vd va vb vc) s = .next (emitVec s 3 vd (mapElem3 8 (fun a b c => if 128 ≤ c then a else b) x y z)))

/-- With a true predicate and usable operands the integer sums, differences, products and multiply-accumulates of 8-, 16- and 32-bit
elements, vector and scalar forms, the logic, population counts and immediate shifts issue; each element of the result lands at issue + 3
(products + 5) and no flag is raised. (R108, R152, R159, R160) -/
def Obligations.VectorIntegersComplete : Prop :=
  ∀ (s : State) (p : BitVec 5) (vd va vb vc : BitVec 13) (sb : BitVec 6) (amt : BitVec 5), predTrue (me s) p = true →
    let x := readVec (me s) va
    let y := readVec (me s) vb
    let z := readVec (me s) vc
    let c := sreg (me s) sb.toNat
    (Usable s [vd] [va, vb] [] →
      exec (.viaddB p vd va vb) s = .next (emitVec s 3 vd (mapElem2 8 (fun a b => a + b) x y)) ∧
      exec (.vimulB p vd va vb) s = .next (emitVec s 5 vd (mapElem2 8 (fun a b => a * b) x y)) ∧
      exec (.visubB p vd va vb) s = .next (emitVec s 3 vd (mapElem2 8 (fun a b => a + (2 ^ 8 - b)) x y)) ∧
      exec (.viaddH p vd va vb) s = .next (emitVec s 3 vd (mapElem2 16 (fun a b => a + b) x y)) ∧
      exec (.vimulH p vd va vb) s = .next (emitVec s 5 vd (mapElem2 16 (fun a b => a * b) x y)) ∧
      exec (.visubH p vd va vb) s = .next (emitVec s 3 vd (mapElem2 16 (fun a b => a + (2 ^ 16 - b)) x y)) ∧
      exec (.viaddW p vd va vb) s = .next (emitVec s 3 vd (mapElem2 32 (fun a b => a + b) x y)) ∧
      exec (.vimulW p vd va vb) s = .next (emitVec s 5 vd (mapElem2 32 (fun a b => a * b) x y)) ∧
      exec (.visubW p vd va vb) s = .next (emitVec s 3 vd (mapElem2 32 (fun a b => a + (2 ^ 32 - b)) x y)) ∧
      exec (.vand p vd va vb) s = .next (emitVec s 3 vd (x &&& y)) ∧
      exec (.vor p vd va vb) s = .next (emitVec s 3 vd (x ||| y)) ∧
      exec (.vxor p vd va vb) s = .next (emitVec s 3 vd (x ^^^ y))) ∧
    (Usable s [vd] [va, vb, vc] [] →
      exec (.vimacB p vd va vb vc) s = .next (emitVec s 5 vd (mapElem3 8 (fun a b c => a * b + c) x y z)) ∧
      exec (.vimacH p vd va vb vc) s = .next (emitVec s 5 vd (mapElem3 16 (fun a b c => a * b + c) x y z)) ∧
      exec (.vimacW p vd va vb vc) s = .next (emitVec s 5 vd (mapElem3 32 (fun a b c => a * b + c) x y z))) ∧
    (Usable s [vd] [va] [] →
      exec (.viaddBScalar p vd va sb) s = .next (emitVec s 3 vd (mapElem2 8 (fun a b => a + b) x (splat 8 c))) ∧
      exec (.vimulBScalar p vd va sb) s = .next (emitVec s 5 vd (mapElem2 8 (fun a b => a * b) x (splat 8 c))) ∧
      exec (.visubBScalar p vd va sb) s = .next (emitVec s 3 vd (mapElem2 8 (fun a b => a + (2 ^ 8 - b)) x (splat 8 c))) ∧
      exec (.vshlB p vd va amt) s = .next (emitVec s 3 vd (mapElem 8 (fun a => a <<< amt.toNat) x)) ∧
      exec (.vshrB p vd va amt) s = .next (emitVec s 3 vd (mapElem 8 (fun a => a >>> amt.toNat) x)) ∧
      exec (.vsarB p vd va amt) s = .next (emitVec s 3 vd (mapElem 8 (fun a => lowBits 8 (signed 8 a / (2 ^ amt.toNat : Nat))) x)) ∧
      exec (.viaddHScalar p vd va sb) s = .next (emitVec s 3 vd (mapElem2 16 (fun a b => a + b) x (splat 16 c))) ∧
      exec (.vimulHScalar p vd va sb) s = .next (emitVec s 5 vd (mapElem2 16 (fun a b => a * b) x (splat 16 c))) ∧
      exec (.visubHScalar p vd va sb) s = .next (emitVec s 3 vd (mapElem2 16 (fun a b => a + (2 ^ 16 - b)) x (splat 16 c))) ∧
      exec (.vshlH p vd va amt) s = .next (emitVec s 3 vd (mapElem 16 (fun a => a <<< amt.toNat) x)) ∧
      exec (.vshrH p vd va amt) s = .next (emitVec s 3 vd (mapElem 16 (fun a => a >>> amt.toNat) x)) ∧
      exec (.vsarH p vd va amt) s = .next (emitVec s 3 vd (mapElem 16 (fun a => lowBits 16 (signed 16 a / (2 ^ amt.toNat : Nat))) x)) ∧
      exec (.viaddWScalar p vd va sb) s = .next (emitVec s 3 vd (mapElem2 32 (fun a b => a + b) x (splat 32 c))) ∧
      exec (.vimulWScalar p vd va sb) s = .next (emitVec s 5 vd (mapElem2 32 (fun a b => a * b) x (splat 32 c))) ∧
      exec (.visubWScalar p vd va sb) s = .next (emitVec s 3 vd (mapElem2 32 (fun a b => a + (2 ^ 32 - b)) x (splat 32 c))) ∧
      exec (.vshlW p vd va amt) s = .next (emitVec s 3 vd (mapElem 32 (fun a => a <<< amt.toNat) x)) ∧
      exec (.vshrW p vd va amt) s = .next (emitVec s 3 vd (mapElem 32 (fun a => a >>> amt.toNat) x)) ∧
      exec (.vsarW p vd va amt) s = .next (emitVec s 3 vd (mapElem 32 (fun a => lowBits 32 (signed 32 a / (2 ^ amt.toNat : Nat))) x)) ∧
      exec (.vpopc p vd va) s = .next (emitVec s 3 vd (mapElem 32 (fun a => countOnes a 32) x))) ∧
    (Usable s [vd] [va, vc] [] →
      exec (.vimacBScalar p vd va sb vc) s = .next (emitVec s 5 vd (mapElem3 8 (fun a b c => a * b + c) x (splat 8 c) z)) ∧
      exec (.vimacHScalar p vd va sb vc) s = .next (emitVec s 5 vd (mapElem3 16 (fun a b c => a * b + c) x (splat 16 c) z)) ∧
      exec (.vimacWScalar p vd va sb vc) s = .next (emitVec s 5 vd (mapElem3 32 (fun a b c => a * b + c) x (splat 32 c) z)))

/-- With a true predicate and usable operands VCVT (and VCVT.k with a current binding whose scale entries are all within 0 to 63 and
unpoisoned), VPACK, VUNPK, VPERM, VSHUF, VBCAST, VEXTR, VINS, VMOV and VRNG issue and land what R161 to R167 and R171 say, at issue + 4
(conversions), + 2 (movement), + 3 (extracts) and + 5 (random numbers). (R161, R162, R163, R164, R165, R166, R167, R171) -/
def Obligations.VectorDataMovementCompletes : Prop :=
  ∀ (s : State) (p : BitVec 5) (vd va vb : BitVec 13) (sa si spos : BitVec 6) (sfmt dfmt pattern : BitVec 5) (ew3 : BitVec 3) (part : BitVec 4) (idx : BitVec 9) (ew : BitVec 2) (draw : BitVec 16), predTrue (me s) p = true →
    let x := readVec (me s) va
    let y := readVec (me s) vb
    let a := sreg (me s) sa.toNat
    let i := idxOf ew (sreg (me s) si.toNat)
    (Usable s [vd] [va] [] →
      exec (.vcvt p vd va sfmt dfmt) s = .next (emitRes s 4 vd (convert sfmt.toNat dfmt.toNat (fun _ => none) x)) ∧
      (tagCurrent (me s) (vtile va) = true → SoundTag s (vtile va) →
        (∀ e < 4096 / max (containerBits sfmt.toNat) (containerBits dfmt.toNat), scaleEntry (me s) va (containerBits sfmt.toNat) e < 64) →
        exec (.vcvtK p vd va sfmt dfmt) s = .next (emitRes s 4 vd (convert sfmt.toNat dfmt.toNat (fun e => some (scaleOf (me s) va (containerBits sfmt.toNat) e)) x))) ∧
      exec (.vunpk p vd va ew3 part) s = .next (emitVec s 2 vd (unpackRow (ew3Bits ew3) (unpkWide ew3) part.toNat x)) ∧
      exec (.vbcastElement p vd va idx ew) s = .next (emitVec s 2 vd (splat (ewBits ew) (BitVec.ofNat 64 (elem (ewBits ew) x.toNat idx.toNat)))) ∧
      exec (.vinsImm p vd va sa idx ew) s = .next (emitVec s 2 vd (insElem (ewBits ew) idx.toNat a x)) ∧
      exec (.vinsScalar p vd va sa si ew) s = .next (emitVec s 2 vd (insElem (ewBits ew) i a x)) ∧
      exec (.vmov p vd va) s = .next (emitVec s 2 vd (x))) ∧
    (Usable s [vd] [va, vb] [] →
      exec (.vpack p vd va vb ew3) s = .next (emitVec s 2 vd (packRow (ew3Bits ew3) x y)) ∧
      exec (.vperm p vd va vb) s = .next (emitVec s 2 vd (permRow x y)) ∧
      exec (.vshuf p vd va vb pattern) s = .next (emitVec s 2 vd (shufRow pattern x y))) ∧
    (Usable s [vd] [] [] →
      exec (.vbcastScalar p vd sa ew) s = .next (emitVec s 2 vd (splat (ewBits ew) a)) ∧
      exec (.vrng p vd sa si spos draw) s = .next (emitVec s 5 vd (rngRow rngU32 a (sreg (me s) si.toNat) (sreg (me s) spos.toNat) draw.toNat)) ∧
      exec (.vrngF p vd sa si spos draw) s = .next (emitVec s 5 vd (rngRow rngF32 a (sreg (me s) si.toNat) (sreg (me s) spos.toNat) draw.toNat))) ∧
    (Usable s [] [va] [] →
      exec (.vextrImm p sa va idx ew) s = .next (emitS s 3 sa (BitVec.ofNat 64 (elem (ewBits ew) x.toNat idx.toNat))) ∧
      exec (.vextrScalar p sa va si ew) s = .next (emitS s 3 sa (BitVec.ofNat 64 (elem (ewBits ew) x.toNat i))))

/-- With a true predicate and usable operands the FP32 and integer reductions land their one result in lane 0 with zero elsewhere, VARGMAX
its index and value, and the scans their 128 prefix sums, at issue + 9, the FP32 ones with their flags. (R67, R68, R69, R168, R169, R170) -/
def Obligations.VectorReductionsComplete : Prop :=
  ∀ (s : State) (p : BitVec 5) (vd va : BitVec 13), predTrue (me s) p = true → Usable s [vd] [va] [] →
    let x := readVec (me s) va
    exec (.vredsumF p vd va) s = .next (emitRes s 9 vd (((redSumF x).1.setWidth 4096, (redSumF x).2))) ∧
    exec (.vredmaxF p vd va) s = .next (emitRes s 9 vd (((redExtF fmax x).1.setWidth 4096, (redExtF fmax x).2))) ∧
    exec (.vredminF p vd va) s = .next (emitRes s 9 vd (((redExtF fmin x).1.setWidth 4096, (redExtF fmin x).2))) ∧
    exec (.vredsumI p vd va) s = .next (emitVec s 9 vd ((redSumI x).setWidth 4096)) ∧
    exec (.vredmaxSi p vd va) s = .next (emitVec s 9 vd ((redExtS true x).setWidth 4096)) ∧
    exec (.vredminSi p vd va) s = .next (emitVec s 9 vd ((redExtS false x).setWidth 4096)) ∧
    exec (.vargmax p vd va) s = .next (emitVec s 9 vd (argMaxRow x)) ∧
    exec (.vscanF p vd va) s = .next (emitRes s 9 vd (scanOut (scanRow fadd x))) ∧
    exec (.vscanI p vd va) s = .next (emitVec s 9 vd ((scanOut (scanRow (fun a b => (a + b, 0)) x)).1))

/-- With a true predicate, in a context that owns taps, for a sequence the tap carries and as many granted, unlocked, unpoisoned rows as
its dimension takes: TAPP lands its score and crossing at issue + rows + 9, TAPS lands each steered row r at issue + 5 + r where the tap
allows steering; where it does not, TAPS changes nothing, whatever its range and sequence; TAPRD lands the crossing and withhold bits or
the margins at issue + 2. In a service context whose copy is complete, with a legal entry for this tap position, TAPLD loads the served
context's tap, or raises fault 0x30 where a word of the entry is poisoned. (R26, R180, R181, R182, R184, R185) -/
def Obligations.TapOperationsComplete : Prop :=
  ∀ (s : State) (p : BitVec 5) (tap seq : BitVec 3) (va : BitVec 13) (rows : BitVec 11) (sc sd sa : BitVec 6) (what : BitVec 1), predTrue (me s) p = true →
    let t := tapOf (me s) tap.toNat
    let n := rows.toNat + 1
    let acc := tapScore (me s) t (vnum va) n
    ((me s).grant.taps ≠ 0 → seq.toNat ≤ fld t.cfg 15 3 → n * 128 = t.dim → vnum va + n ≤ 64 * (me s).grant.tiles →
      SoundRows s ((List.range n).map (vnum va + ·)) →
      (Usable s [] [va] [] → (∀ j ∈ (List.range n).map (fun r => (vnum va + r) / 64), Unlocked (me s) [j] []) → exec (.tapp p tap seq va rows) s = .next (emit s (n + 9) (.tapp tap.toNat seq.toNat acc (tapCrossed t acc) s.cur.stamp))) ∧
      ((∀ j ∈ (List.range n).map (fun r => (vnum va + r) / 64), Unlocked (me s) [j] [j]) → bit t.cfg 19 = true → exec (.taps p tap seq va rows sc) s = .next ((List.range n).foldl (steerRow (me s) t ((sreg (me s) sc.toNat).extractLsb' 0 32) (vnum va)) s))) ∧
    ((me s).grant.taps ≠ 0 → bit t.cfg 19 = false → vnum va < 64 * (me s).grant.tiles → exec (.taps p tap seq va rows sc) s = .next (s)) ∧
    ((me s).grant.taps ≠ 0 → exec (.taprd p sd tap what) s = .next (emitS s 2 sd (if what = 0 then BitVec.ofNat 64 (t.cross.toNat + fld (me s).tapstat 16 12 * 256) else BitVec.ofNat 64 (pack 8 8 (marginOf t))))) ∧
    (isSvc s.cur.ctx = true → (me s).probeOk = true → TapEntry s (sreg (me s) sa.toNat) →
      let bad := poisonIn s 0x18 0 64 (tapEntryAddr s (sreg (me s) sa.toNat) % 2 ^ 39) 36864
      (∀ i, bad = some i → exec (.tapld p tap sa) s = .next (raiseHere s 0x30 i)) ∧
      (bad = none → exec (.tapld p tap sa) s = .next (modCtx s (served s.cur.ctx) (fun c => { c with taps := mput c.taps tap.toNat (tapLoaded s (sreg (me s) sa.toNat)) }))))

/-- With a true predicate and scale registers in the grant, unpoisoned, with their formats set where the rule needs it: KSET, KMOV, KMUL,
KADDE, KMAXE, KCVT, KWR, KRD and KGEN issue and land what R174 to R177 say, at issue + 2 (sets, copies, reads), + 3 (arithmetic) and + 9
(KGEN). (R30, R173, R174, R175, R176, R177) -/
def Obligations.ScaleOperationsComplete : Prop :=
  ∀ (s : State) (p : BitVec 5) (kd ka kb : BitVec 8) (vd va : BitVec 13) (axis : BitVec 1) (format : BitVec 2) (block : BitVec 4) (value : BitVec 16) (step : BitVec 8) (sa entry : BitVec 6) (sel : BitVec 1), predTrue (me s) p = true →
    let a := kreg (me s) ka.toNat
    let b := kreg (me s) kb.toNat
    let c := sreg (me s) sa.toNat
    (InGrant s kd →
      exec (.ksetImm p kd axis format block value) s = .next (emitScale s 2 kd (packEntries (fun _ => value.toNat)) allEntries (some (axis ++ format ++ block))) ∧
      exec (.ksetScalar p kd axis format block sa) s = .next (emitScale s 2 kd (packEntries (fun _ => c.toNat)) allEntries (some (axis ++ format ++ block))) ∧
      exec (.kwrScalar p kd sa entry) s = .next (emitScale s 2 kd (packEntries (fun _ => c.toNat)) (BitVec.ofNat 64 (2 ^ entry.toNat)) none) ∧
      (Usable s [] [va] [] →
        exec (.kwrRow p kd va) s = .next (emitScale s 2 kd ((readVec (me s) va).extractLsb' 0 1024) allEntries none) ∧
        (let r := genEntries format.toNat block.toNat (readVec (me s) va)
         exec (.kgen p kd va axis block format) s = .next (emitFlags (emitScale s 9 kd (BitVec.ofNat 1024 (packList 16 (r.map (·.code))))
           (BitVec.ofNat 64 (2 ^ r.length - 1)) (some (axis ++ format ++ block))) 9 (r.foldl (fun g x => g ||| x.flags) 0)))) ∧
      (Usable s [] [] [ka] →
        exec (.kmov p kd ka) s = .next (emitScale s 2 kd a.entries allEntries (some (a.desc.extractLsb' 16 7))) ∧
        (kfmt a ≠ 0 →
          exec (.kaddeImm p kd ka step) s = .next (scaleArith s kd a (kfmt a) (fun j => scale2 (entryVal a j) step.toInt)) ∧
          exec (.kaddeScalar p kd ka sa) s = .next (scaleArith s kd a (kfmt a) (fun j => scale2 (entryVal a j) (max (-255) (min 255 c.toInt)))) ∧
          exec (.kcvtBf16 p kd ka) s = .next (scaleArith s kd a 2 (entryVal a)) ∧
          exec (.kcvtE8m0 p kd ka) s = .next (scaleArith s kd a 1 (entryVal a)))) ∧
      (Usable s [] [] [ka, kb] → kfmt a ≠ 0 → kfmt b ≠ 0 →
        exec (.kmul p kd ka kb) s = .next (scaleArith s kd a (kfmt a) (fun j => mulV (entryVal a j) (entryVal b j))) ∧
        exec (.kmaxe p kd ka kb) s = .next (scaleArith s kd a (kfmt a) (fun j => maxMag (entryVal a j) (entryVal b j))))) ∧
    (Usable s [vd] [] [ka] → exec (.krdRow p vd ka) s = .next (emitVec s 2 vd ((a.desc ++ a.entries).setWidth 4096))) ∧
    (Usable s [] [] [ka] → exec (.krdScalar p sa ka entry sel) s = .next (emitS s 2 sa (if sel = 1 then a.desc.setWidth 64 else BitVec.ofNat 64 (kentry a entry.toNat))))

/-- With a true predicate, for a granted tile or macro and a granted, unpoisoned scale register whose format is set, KBIND lands at issue +
1 a tag that is bound, with the given axis and block, naming the register and the generation it holds at issue; KUNBIND lands a cleared tag
for a granted tile or macro. (R32, R33, R178) -/
def Obligations.BindingOperationsComplete : Prop :=
  ∀ (s : State) (p tile : BitVec 5) (cm : BitVec 3) (bank : BitVec 1) (ks : BitVec 8) (axis : BitVec 1) (block : BitVec 4), predTrue (me s) p = true →
    let tag := 1#1 ++ 0#2 ++ (axis ++ block) ++ BitVec.ofNat 8 ks.toNat ++ BitVec.ofNat 16 (kgen (kreg (me s) ks.toNat))
    let bound := Usable s [] [] [ks] ∧ kfmt (kreg (me s) ks.toNat) ≠ 0
    (tile.toNat < (me s).grant.tiles → (bound → exec (.kbindTile p tile ks axis block) s = .next (emit s 1 (.tag tile.toNat tag))) ∧
      exec (.kunbindTile p tile) s = .next (emit s 1 (.tag tile.toNat 0))) ∧
    (bit (me s).grant.macros cm.toNat = true → (bound → exec (.kbindBank p cm bank ks axis block) s = .next (emit s 1 (.tag (32 + 2 * cm.toNat + bank.toNat) tag))) ∧
      exec (.kunbindBank p cm bank) s = .next (emit s 1 (.tag (32 + 2 * cm.toNat + bank.toNat) 0)))

/-- With a true predicate, a usable or granted destination and free round traffic, LDR (512 bytes), LDK (128) and LDS (8) enter their train
on the lane from the bay to the Stall's port and read the bay at issue + 2, to land in their row, scale register or scalar at issue + 4 + h
for the lane's hop count h. (R188, R191, R229, R230) -/
def Obligations.RoundLoadsComplete : Prop :=
  ∀ (s : State) (p : BitVec 5) (vd : BitVec 13) (kd : BitVec 8) (sd : BitVec 6) (bay : BitVec 3) (off : BitVec 12) (off8 : BitVec 15) (lane : BitVec 4), predTrue (me s) p = true →
    let h := hops lane.toNat (2 * bay.toNat) (portPos s.cur.ctx)
    (Usable s [vd] [] [] → RoundFree s (loadTraffic s bay (off.toNat * 64) 512 lane 2 8) →
      exec (.ldr p vd bay off lane) s = .next (emit (ride s (loadTraffic s bay (off.toNat * 64) 512 lane 2 8)) 2 (.read bay.toNat (off.toNat * 64) 512 (s.cur.cycle + 4 + h) (.row (vnum vd) (vdir vd))))) ∧
    (InGrant s kd → RoundFree s (loadTraffic s bay (off.toNat * 64) 128 lane 2 2) →
      exec (.ldkRound p kd bay off lane) s = .next (emit (ride s (loadTraffic s bay (off.toNat * 64) 128 lane 2 2)) 2 (.read bay.toNat (off.toNat * 64) 128 (s.cur.cycle + 4 + h) (.scale kd.toNat)))) ∧
    (RoundFree s (loadTraffic s bay (off8.toNat * 8) 8 lane 2 1) →
      exec (.ldsRound p sd bay off8 lane) s = .next (emit (ride s (loadTraffic s bay (off8.toNat * 8) 8 lane 2 1)) 2 (.read bay.toNat (off8.toNat * 8) 8 (s.cur.cycle + 4 + h) (.scalar sd.toNat))))

/-- With a true predicate, usable sources and free round traffic, STR, STK and STS enter their train from the Stall's port to the bay and
write, at issue + 2 + h, the 512 bytes of the row, the 128 bytes of the scale entries or the 8 bytes of the scalar, lowest byte first, at
the offset they name. (R6, R188, R191, R229, R230) -/
def Obligations.RoundStoresComplete : Prop :=
  ∀ (s : State) (p : BitVec 5) (vs : BitVec 13) (ks : BitVec 8) (a : BitVec 6) (bay : BitVec 3) (off : BitVec 12) (off8 : BitVec 15) (lane : BitVec 4), predTrue (me s) p = true →
    let h := hops lane.toNat (portPos s.cur.ctx) (2 * bay.toNat)
    (Usable s [] [vs] [] → RoundFree s (storeTraffic s bay (off.toNat * 64) 512 lane 1 8) →
      exec (.str p bay off lane vs) s = .next (emit (ride s (storeTraffic s bay (off.toNat * 64) 512 lane 1 8)) (2 + h) (.write bay.toNat (off.toNat * 64) (leBytes 512 (readVec (me s) vs).toNat) (List.replicate 512 255)))) ∧
    (Usable s [] [] [ks] → RoundFree s (storeTraffic s bay (off.toNat * 64) 128 lane 1 2) →
      exec (.stkRound p bay off lane ks) s = .next (emit (ride s (storeTraffic s bay (off.toNat * 64) 128 lane 1 2)) (2 + h) (.write bay.toNat (off.toNat * 64) (leBytes 128 (kreg (me s) ks.toNat).entries.toNat) (List.replicate 128 255)))) ∧
    (RoundFree s (storeTraffic s bay (off8.toNat * 8) 8 lane 1 1) →
      exec (.stsRound p bay off8 lane a) s = .next (emit (ride s (storeTraffic s bay (off8.toNat * 8) 8 lane 1 1)) (2 + h) (.write bay.toNat (off8.toNat * 8) (leBytes 8 (sreg (me s) a.toNat).toNat) (List.replicate 8 255))))

/-- With a true predicate and free round traffic MOVP from the round reads 64 bytes of its bay at issue + 2 and MOVP from a scalar delivers
to its port at issue + 2 + h. XFER between legal ends, with granted, unlocked, unpoisoned rows at the Stall's own port, reads its source at
issue and delivers it at issue + h + 1, a read poisoned bay letting nothing land. A move that triggers a DX job first takes its place in
the station queue, whose number goes with it: where the source that it will find is known to be a tensor the place needs a free scoreboard
entry and stands for the access from then on, and else it is undecided until more is known (log 35). (R114, R140, R188, R202, R209, R230,
R254, R274, R384) -/
def Obligations.MovesToStationsAndXferComplete : Prop :=
  ∀ (s : State) (p : BitVec 5) (a : BitVec 6) (bay : BitVec 3) (off fromaddr toaddr : BitVec 12) (lane frm dest : BitVec 4) (port : BitVec 8), predTrue (me s) p = true →
    let room (far : Bool) : Prop := boardUsed s s.cur.ctx + (if far then 1 else 0) ≤ 48
    let began (dx far : Bool) (opc : Nat) : State :=
      let t := enqueue s .station (.dx none) .none opc false
      if dx = false then s else if far then t
      else modMe t (fun x => { x with ops := x.ops.map (fun o => if o.id = (me s).opId then { o with performed := true, landed := false } else o) })
    let number (dx : Bool) : Option Nat := if dx then some (me s).opId else none
    let dp := port.toNat == 0x10 || port.toNat == 0x11
    let dy := dest.toNat == 5 && (toaddr.toNat % 32 == 0x10 || toaddr.toNat % 32 == 0x11)
    let fr := leavesDie s port.toNat (movpArrive s bay lane port)
    let fs := leavesDie s port.toNat (movpsArrive s lane port)
    let fx := xferLeaves s frm dest lane toaddr
    (room fr → RoundFree s (movpTraffic bay off lane port) →
      exec (.movpRound p bay off lane port) s = .next (emit (ride (began dp fr 0) (movpTraffic bay off lane port)) 2
        (.read bay.toNat (off.toNat * 64) 64 (s.cur.cycle + 4 + hops lane.toNat (2 * bay.toNat) (stationPos port)) (.port port.toNat (number dp))))) ∧
    (room fs → RoundFree s (movpsTraffic s lane port) →
      exec (.movpScalar p a port lane) s = .next (emit (ride (began dp fs 1) (movpsTraffic s lane port)) (2 + hops lane.toNat (portPos s.cur.ctx) (stationPos port))
        (.move port.toNat (sreg (me s) a.toNat) (number dp)))) ∧
    (room fx → frm.toNat ≠ 10 - portPos s.cur.ctx → dest.toNat ≠ 10 - portPos s.cur.ctx →
      (∀ e ∈ [(frm, fromaddr), (dest, toaddr)], (e.1.toNat % 2 = 0 → e.2.toNat ≤ 4088) ∧ (e.1.toNat = portPos s.cur.ctx → e.2.toNat < 64 * (me s).grant.tiles)) →
      (Unlocked (me s) (if frm.toNat = portPos s.cur.ctx then [fromaddr.toNat / 64] else []) (if dest.toNat = portPos s.cur.ctx then [toaddr.toNat / 64] else [])) →
      (frm.toNat = portPos s.cur.ctx → SoundRows s [fromaddr.toNat]) → RoundFree s (xferTraffic frm dest lane fromaddr toaddr) →
      exec (.xfer p frm dest lane fromaddr toaddr) s = .next (let h := hops lane.toNat frm.toNat dest.toNat
        readAtIssue (ride (began dy fx 2) (xferTraffic frm dest lane fromaddr toaddr)) (xferRanges frm fromaddr) (s.cur.cycle + h + 1)
          (fun t => emit t (h + 1) (xferEffect s dest toaddr (xferSource s frm fromaddr) (number dy)))))

/-- With a true predicate and a stream that is ready, LD, LDK and LDS through a stream step their stream by one at issue + 1 and, for a
tensor in the round, read its bay at issue + 2 to land at issue + 6 + h; for a device or host tensor the access enters that tensor's queue
and lands at issue + max(delay, 8). With a true predicate, usable sources and a stream that is ready for writing, ST, STK and STS through a
stream issue; for a device or host tensor the access enters that tensor's queue with the elements rounded into the storage format (their
flags landing at issue + 2) and its scale record, and the stream steps by one at issue + 1; for a tensor in the round its lane is ridden
and at issue + 4 + h the bytes of the rounded elements that lie in the tensor are written to its bay, at its offset plus theirs, and, for a
scaled stream, the bytes of the scale record in the scale tensor's bay, at the scale tensor's offset plus theirs. (R188, R192, R193, R194,
R195, R196, R197, R240) -/
def Obligations.StreamTransfersComplete : Prop :=
  (∀ (s : State) (p : BitVec 5) (vd : BitVec 13) (kd : BitVec 8) (sd : BitVec 6) (wn : BitVec 5) (delay : BitVec 12) (t : Tensor), predTrue (me s) p = true →
    let w := wreg (me s) wn.toNat
    let h := loadHops s (BitVec.ofNat 3 t.bay) (BitVec.ofNat 4 (sLane w))
    let split := sStride w != 0
    let inRound (n : Nat) (data scale : Bool) (dst reg dir k : Nat) : State :=
      emit (emit (ride s (streamTraffic s w n data scale false)) 2
        (.read t.bay 0 n (s.cur.cycle + 6 + h) (.stream dst reg dir k (wword w 0) (wword w 1) (sOffset w)))) 1 (.advance wn.toNat 0 1)
    let beyond (n : Nat) (data scale : Bool) (d : OffDst) (opc : Nat) : State :=
      emit (emit (enqueue s (kindQueue t) (.load (sTensor w) (sOffset w) n data (if scale then scaleRefOf w else none)) d opc true)
        (max delay.toNat 8) (.offcore (me s).opId)) 1 (.advance wn.toNat 0 1)
    (Usable s [vd] [] [] → (sStride w ≠ 0 → InGrant s kd) → StreamReady s wn (groupCount w) true true false t →
      exec (.ld p vd wn kd delay) s = .next (if t.kind = 0 then inRound (groupCount w) true split 0 (vnum vd) (vdir vd) kd.toNat
        else beyond (groupCount w) true split (.row (vnum vd) (vdir vd) (wword w 0) (wword w 1) kd.toNat) 0)) ∧
    (InGrant s kd → StreamReady s wn (groupCount w) false true false t → sStride w ≠ 0 →
      exec (.ldkStream p kd wn delay) s = .next (if t.kind = 0 then inRound 1 false true 1 0 0 kd.toNat else beyond 1 false true (.scale kd.toNat (wword w 0) (wword w 1)) 2)) ∧
    (StreamReady s wn 1 true false false t →
      exec (.ldsStream p sd wn delay) s = .next (if t.kind = 0 then inRound 1 true false 2 sd.toNat 0 0 else beyond 1 true false (.scalar sd.toNat (wword w 0)) 5))) ∧
  (∀ (s : State) (p : BitVec 5) (vs : BitVec 13) (ks : BitVec 8) (a : BitVec 6) (wn : BitVec 5) (t : Tensor), predTrue (me s) p = true →
    let w := wreg (me s) wn.toNat
    let n := groupCount w
    let k := (kreg (me s) ks.toNat).entries
    let beyond (data scale : Bool) (n src : Nat) (k : BitVec 1024) (opc : Nat) : State :=
      let e := storeElems t (sFmt w) n src
      emit (enqueue (if data then emitFlags s 2 e.2 else s) (kindQueue t)
        (.store (sTensor w) (sOffset w) n data e.1 (if scale then (scaleRefOf w).map (fun r => (r, k)) else none)) .none opc false) 1 (.advance wn.toNat 0 1)
    let inRound (data scale : Bool) (n src : Nat) (k : BitVec 1024) : State :=
      let e := storeElems t (sFmt w) n src
      let s := if data then emitFlags s 2 e.2 else s
      let lat := 4 + storeHops s (BitVec.ofNat 3 t.bay) (BitVec.ofNat 4 (sLane w))
      let u := ride s (streamTraffic s w n data scale true)
      let b := storeBytes t (sOffset w) n e.1
      let v := if data ∧ b.2.1 ≠ [] then emit u lat (.write t.bay (t.off + b.1) b.2.1 b.2.2) else u
      let x := match tensorOf (myLaunch v) (sScaleT w) with
        | some st =>
          let r := scaleBytes st (scaleOff w) k
          if scale ∧ r.2 ≠ [] then emit v lat (.write st.bay (st.off + r.1) r.2 (fullMask r.2.length)) else v
        | none => v
      emit x 1 (.advance wn.toNat 0 1)
    (Usable s [] [vs] [] → (sStride w ≠ 0 → InGrant s ks ∧ Sound s [] [ks]) → StreamReady s wn n true true true t →
      exec (.st p wn vs ks) s = .next (if t.kind = 0 then inRound true (sStride w != 0) n (readVec (me s) vs).toNat k
        else beyond true (sStride w != 0) n (readVec (me s) vs).toNat k 0)) ∧
    (Usable s [] [] [ks] → sStride w ≠ 0 → StreamReady s wn n false true true t →
      exec (.stkStream p wn ks) s = .next (if t.kind = 0 then inRound false true 0 0 k else beyond false true 0 0 k 2)) ∧
    (StreamReady s wn 1 true false true t →
      exec (.stsStream p wn a) s = .next (if t.kind = 0 then inRound true false 1 (sreg (me s) a.toNat).toNat 0 else beyond true false 1 (sreg (me s) a.toNat).toNat 0 5)))

/-- With a true predicate and a granted stream register: SCFG from the stream table lands an existing entry with its positions zero, SCFG
from a scalar (whose word 0 names a format of R41) lands one descriptor word, SADV advances from a dimension the descriptor has, and SRST
zeroes the positions, all at issue + 1. (R34, R41, R198, R237, R239) -/
def Obligations.StreamConfigurationCompletes : Prop :=
  ∀ (s : State) (p wn : BitVec 5) (entry : BitVec 12) (word : BitVec 4) (a : BitVec 6) (dim : BitVec 2) (steps : BitVec 16) (d : List Word), predTrue (me s) p = true → wn.toNat < (me s).grant.streams →
    ((myLaunch s).streams[entry.toNat]? = some d →
      exec (.scfgTable p wn entry) s = .next (emit s 1 (.wload wn.toNat (resetPos (wregOf d)).words))) ∧
    (word ≠ 0 ∨ fmtOk (fld (sreg (me s) a.toNat) 16 5) = true →
      exec (.scfgScalar p wn word a) s = .next (emit s 1 (.wword wn.toNat word.toNat (sreg (me s) a.toNat)))) ∧
    (dim.toNat < sDims (wreg (me s) wn.toNat) → exec (.sadv p wn dim steps) s = .next (emit s 1 (.advance wn.toNat dim.toNat steps.toNat))) ∧
    exec (.srst p wn) s = .next (emit s 1 (.wreset wn.toNat))

/-- With a true predicate and a free scoreboard entry: PUSH to a FIFO bound as source enters the FIFO's queue with the row, or with the
scalar zero-extended to 512 bytes (a legal fill request where the FIFO is bound to the shadow-fill endpoint); POP from a FIFO bound as sink
enters its queue and lands at issue + max(delay, 2), the scalar form from any but a commit FIFO. With a true predicate, a granted stream
and tile, a legal descriptor of a device or host tensor aligned to bytes at each of the 64 rows, a token not pending, an unlocked tile and
a free scoreboard entry, FILL and SPILL (a writable tensor, unpoisoned rows) enter the tensor's queue with the 64 row offsets, and the
stream steps by 64 at issue + 1. With a true predicate, a target Stable of the kernel's shape, an aligned offset whose range lies in the
launch's extent there, and a semaphore of the launch's grant, REDS sends a packet of its lanes with its operation, target and semaphore: to
a Stable of the same Yard it is applied 6 cycles (its own Stable) or 10 + 4d cycles after issue, and towards another Yard it enters the
link queue. (R114, R194, R199, R200, R201, R210, R211, R245, R274, R279, R306, R363) -/
def Obligations.QueuedTransfersComplete : Prop :=
  (∀ (s : State) (p : BitVec 5) (vd vs : BitVec 13) (sd a : BitVec 6) (q : BitVec 5) (delay : BitVec 12) (b : List Nat), predTrue (me s) p = true → boardUsed s s.cur.ctx < 48 →
    (pushKind (myLaunch s) (me s).k q.toNat = some b → b.getD 0 0 ≠ 2 →
      (Usable s [] [vs] [] → exec (.pushVector p q vs) s = .next (enqueue s (.fifo q.toNat) (.push (readVec (me s) vs)) .none 6 false)) ∧
      exec (.pushScalar p q a) s = .next (enqueue s (.fifo q.toNat) (.push ((sreg (me s) a.toNat).setWidth 4096)) .none 7 false)) ∧
    (pushKind (myLaunch s) (me s).k q.toNat = some b → b.getD 0 0 = 2 → FillRequest s (readVec (me s) vs) → Usable s [] [vs] [] →
      exec (.pushVector p q vs) s = .next (enqueue s (.fifo q.toNat) (.fillReq (readVec (me s) vs)) .none 6 false)) ∧
    ((popKind (myLaunch s) (me s).k q.toNat).isSome = true →
      (Usable s [vd] [] [] → exec (.popVector p vd q delay) s = .next (emit (enqueue s (.fifo q.toNat) .pop (.popRow (vnum vd) (vdir vd)) 6 true) (max delay.toNat 2) (.offcore (me s).opId))) ∧
      (commitFifo s q = false → exec (.popScalar p sd q delay) s = .next (emit (enqueue s (.fifo q.toNat) .pop (.popScalar sd.toNat) 7 true) (max delay.toNat 2) (.offcore (me s).opId))))) ∧
  (∀ (s : State) (p : BitVec 5) (tok : BitVec 6) (tile wn : BitVec 5) (t : Tensor), predTrue (me s) p = true → wn.toNat < (me s).grant.streams → tile.toNat < (me s).grant.tiles →
    let w := wreg (me s) wn.toNat
    descBad (myLaunch s) w = false → tensorOf (myLaunch s) (sTensor w) = some t → t.kind ≠ 0 → boardUsed s s.cur.ctx < 48 →
    (∀ o ∈ spillOffs w, o * containerBits t.fmt % 8 = 0) →
    (∀ o ∈ (me s).ops, o.performed = false → match o.kind with | .spill k _ _ _ _ => k ≠ tok.toNat | .fill k _ _ _ => k ≠ tok.toNat | _ => True) →
    (Unlocked (me s) [] [tile.toNat] → exec (.fill p tok tile wn) s = .next (emit (enqueue s (kindQueue t) (.fill tok.toNat tile.toNat (sTensor w) (spillOffs w)) .none 8 false) 1 (.advance wn.toNat 0 64))) ∧
    (Unlocked (me s) [tile.toNat] [] → namesFramed (myLaunch s) w = false → SoundRows s ((List.range 64).map (64 * tile.toNat + ·)) →
      exec (.spill p tok tile wn) s = .next (emit (enqueue s (kindQueue t)
        (.spill tok.toNat tile.toNat (sTensor w) (spillOffs w) ((List.range 64).map (fun r => vrow (me s) (64 * tile.toNat + r)))) .none 8 false) 1 (.advance wn.toNat 0 64)))) ∧
  (∀ (s : State) (p : BitVec 5) (vs : BitVec 13) (a t : BitVec 6) (op : BitVec 3) (ty : BitVec 1) (sem : BitVec 6), predTrue (me s) p = true →
    let x := sreg (me s) t.toNat
    let j := (x.extractLsb' 24 8).toNat
    let bay := (x.extractLsb' 18 3).toNat
    let off := (x.extractLsb' 0 18).toNat
    let dst := stableOfLocal (myLaunch s) j
    let sent (vec : Bool) (data : Row) (opc : Nat) : State :=
      let pk : Packet := { stable := dst, bay := bay, off := off, op := op.toNat, ty := ty == 1, vec := vec, data := data, sem := sem.toNat, sender := s.cur.ctx, poison := false, access := if dst / 16 = stableOf s.cur.ctx / 16 then none else some (me s).opId }
      if dst / 16 = stableOf s.cur.ctx / 16 then emit s (redsLat (stableOf s.cur.ctx) dst) (.packet pk)
      else enqueue s (.link j) (.reds pk) .none opc false
    j < stableCount (myLaunch s) → bit (myLaunch s).semmask sem.toNat = true →
    (off % 64 = 0 → inExtent (myLaunch s) bay (off : Nat) 512 = true → Usable s [] [vs] [] → exec (.redsVector p vs t op ty sem) s = .next (sent true (readVec (me s) vs) 3)) ∧
    (off % 4 = 0 → inExtent (myLaunch s) bay (off : Nat) 4 = true → exec (.redsScalar p a t op ty sem) s = .next (sent false ((sreg (me s) a.toNat).setWidth 4096) 4)))

/-- With a true predicate and what R213 to R217 ask of the variant (rows, operand extents, bays and lanes, the window, the tag of a scaled
form) each of the sixteen MMA and MMAZ forms issues its matrix product; MMA also asks that the accumulator rows hold no poison. Where no
word is damaged, the sums of all 256 outputs over the K products of A's row i and B's column j, read at issue, are in flight at issue + 11
(for I8 the exact sum modulo 2^48). From there the result rows land one cycle later, at issue + 12: cell n of row vd + r (a lane, for FP32)
is output 64r + n (128r + n), for MMA added to what that row holds at issue + 11. With a true predicate MXHINT of a burst length other than
0 issues from every state: the array counts as warm, the context's hint is in force until that many Yard cycles from now (log 116: R273
counts context cycles), and 64 pulses are owed where the array was cold; a length of 0 ends the context's own hint. The hints of other
contexts stand. (R40, R213, R214, R215, R216, R217, R218, R272, R273) -/
def Obligations.MatrixOperationsComplete : Prop :=
  (∀ (s : State) (p : BitVec 5) (vd : BitVec 11) (abay : BitVec 3) (aoff : BitVec 12) (bbay : BitVec 3) (boff : BitVec 12) (alane blane : BitVec 4) (sg : BitVec 2) (sc : BitVec 1), predTrue (me s) p = true →
    (MmaReady s 0 vd abay aoff bbay boff alane blane sc →
      (SoundRows s ((List.range (mmaRows 0 (sc == 1#1))).map (vd.toNat + ·)) → exec (.mmaL6 p vd abay aoff bbay boff alane blane sg sc) s = .next (runMma s 0 true vd abay aoff bbay boff sg sc)) ∧
      exec (.mmazL6 p vd abay aoff bbay boff alane blane sg sc) s = .next (runMma s 0 false vd abay aoff bbay boff sg sc)) ∧
    (MmaReady s 1 vd abay aoff bbay boff alane blane sc →
      (SoundRows s ((List.range (mmaRows 1 (sc == 1#1))).map (vd.toNat + ·)) → exec (.mmaI8 p vd abay aoff bbay boff alane blane sg sc) s = .next (runMma s 1 true vd abay aoff bbay boff sg sc)) ∧
      exec (.mmazI8 p vd abay aoff bbay boff alane blane sg sc) s = .next (runMma s 1 false vd abay aoff bbay boff sg sc)) ∧
    (MmaReady s 2 vd abay aoff bbay boff alane blane sc →
      (SoundRows s ((List.range (mmaRows 2 (sc == 1#1))).map (vd.toNat + ·)) → exec (.mmaE4m3 p vd abay aoff bbay boff alane blane sg sc) s = .next (runMma s 2 true vd abay aoff bbay boff sg sc)) ∧
      exec (.mmazE4m3 p vd abay aoff bbay boff alane blane sg sc) s = .next (runMma s 2 false vd abay aoff bbay boff sg sc)) ∧
    (MmaReady s 3 vd abay aoff bbay boff alane blane sc →
      (SoundRows s ((List.range (mmaRows 3 (sc == 1#1))).map (vd.toNat + ·)) → exec (.mmaE5m2 p vd abay aoff bbay boff alane blane sg sc) s = .next (runMma s 3 true vd abay aoff bbay boff sg sc)) ∧
      exec (.mmazE5m2 p vd abay aoff bbay boff alane blane sg sc) s = .next (runMma s 3 false vd abay aoff bbay boff sg sc)) ∧
    (MmaReady s 4 vd abay aoff bbay boff alane blane sc →
      (SoundRows s ((List.range (mmaRows 4 (sc == 1#1))).map (vd.toNat + ·)) → exec (.mmaE4e5 p vd abay aoff bbay boff alane blane sg sc) s = .next (runMma s 4 true vd abay aoff bbay boff sg sc)) ∧
      exec (.mmazE4e5 p vd abay aoff bbay boff alane blane sg sc) s = .next (runMma s 4 false vd abay aoff bbay boff sg sc)) ∧
    (MmaReady s 5 vd abay aoff bbay boff alane blane sc →
      (SoundRows s ((List.range (mmaRows 5 (sc == 1#1))).map (vd.toNat + ·)) → exec (.mmaE5e4 p vd abay aoff bbay boff alane blane sg sc) s = .next (runMma s 5 true vd abay aoff bbay boff sg sc)) ∧
      exec (.mmazE5e4 p vd abay aoff bbay boff alane blane sg sc) s = .next (runMma s 5 false vd abay aoff bbay boff sg sc)) ∧
    (MmaReady s 6 vd abay aoff bbay boff alane blane sc →
      (SoundRows s ((List.range (mmaRows 6 (sc == 1#1))).map (vd.toNat + ·)) → exec (.mmaBf16 p vd abay aoff bbay boff alane blane sg sc) s = .next (runMma s 6 true vd abay aoff bbay boff sg sc)) ∧
      exec (.mmazBf16 p vd abay aoff bbay boff alane blane sg sc) s = .next (runMma s 6 false vd abay aoff bbay boff sg sc)) ∧
    (MmaReady s 7 vd abay aoff bbay boff alane blane sc →
      (SoundRows s ((List.range (mmaRows 7 (sc == 1#1))).map (vd.toNat + ·)) → exec (.mmaFp16 p vd abay aoff bbay boff alane blane sg sc) s = .next (runMma s 7 true vd abay aoff bbay boff sg sc)) ∧
      exec (.mmazFp16 p vd abay aoff bbay boff alane blane sg sc) s = .next (runMma s 7 false vd abay aoff bbay boff sg sc)) ∧
    (∀ v add, s.marks = [] →
      let ad := roundRead s (stableOf s.cur.ctx) abay.toNat (aoff.toNat * 64) 1024
      let bd := roundRead s (stableOf s.cur.ctx) bbay.toNat (boff.toNat * 64) 1024
      let out := fun i j => mmaOut (me s) v vd.toNat sg (sc == 1) i j (operandRow ad (mmaK v) i) (operandRow bd (mmaK v) j)
      (∃ g parts nan fl, (me (runMma s v add vd abay aoff bbay boff sg sc)).flight = (me s).flight ++ [g] ∧ g.due = s.cur.cycle + 11 ∧
        g.eff = .mma vd.toNat (if sc = 1 ∨ 3 ≤ v then 1 else 0) parts nan add fl ∧ ∀ i < 16, ∀ j < 16, nth parts (16 * i + j) 0 = (out i j).1 ∧ nth nan (16 * i + j) false = (out i j).2.1) ∧
      (v = 1 → sc = 0 → ∀ i j, out i j = (BitVec.ofInt 48 (((operandRow ad 64 i).zipWith (fun x y => int8Val (bit sg 1) x * int8Val (bit sg 0) y) (operandRow bd 64 j)).foldl (· + ·) 0), false, 0))) ∧
    (∀ (c : Nat) (f : Flight) (rd : Nat) (parts : List (BitVec 48)) (nan : List Bool) (add : Bool) (fl : Flags5), (f.eff = .mma rd 0 parts nan add fl → (∀ i, nth nan i false = false) → ∀ r < 4,
        { f with due := f.due + 1, eff := .row (rd + r) 0 (rowOf 64 64 (fun n =>
          (BitVec.signExtend 64 (if add then nth parts (64 * r + n) 0 + BitVec.ofNat 48 (elem 64 (vrow (ctxOf s c) (rd + r)).toNat n) else nth parts (64 * r + n) 0)).toNat)) allBytes } ∈ (ctxOf (finishMma s c f) c).flight) ∧
      (f.eff = .mma rd 1 parts nan add fl → ∀ r < 2, ∃ w, { f with due := f.due + 1, eff := .row (rd + r) 0 w allBytes } ∈ (ctxOf (finishMma s c f) c).flight ∧
        ∀ n < 128, elem 32 w.toNat n = (if add then (fadd (lane (vrow (ctxOf s c) (rd + r)) n) ((nth parts (128 * r + n) 0).truncate 32)).1 else ((nth parts (128 * r + n) 0).truncate 32 : BitVec 32)).toNat))) ∧
  (∀ (s : State) (p : BitVec 5) (burst : BitVec 16), predTrue (me s) p = true →
    let c := s.cur.ctx
    (burst ≠ 0 → exec (.mxhint p burst) s = .next (let u := if (stableAt s (stableOf c)).warm then s else modYard s (yardOf c) (fun r => { r with owed := r.owed + 64 })
      modStable u (stableOf c) (fun t => { t with warm := true, hints := mput t.hints c (yardNow s c + burst.toNat) }))) ∧
    (burst = 0 → exec (.mxhint p burst) s = .next (modStable s (stableOf c) (fun t => { t with hints := mdel t.hints c }))))

/-- With a true predicate, macros in the context's mask, the parts each takes idle, no shadow fill pending where it waits for one, planes
that fit the bank and (for a round form) free round traffic, CMODE, CLOAD, CSWAP, CMAC, CREAD, CREAD.k (a current tag that fits the split),
CCLR and CCHK issue, occupy their parts and land what R220 to R226 say. That CREAD.k lands the flags of its columns' conversions is the
model's reading (log 33), and so is that a CCHK of a scratch macro leaves the state as it is, its bank not occupied (log 117). (R26, R219,
R220, R221, R222, R223, R224, R225, R226) -/
def Obligations.CimOperationsComplete : Prop :=
  ∀ (s : State) (p : BitVec 5) (vd vs va : BitVec 13) (mode : BitVec 1) (mask : BitVec 8) (cm : BitVec 3) (first : BitVec 8) (wfmt wacc : BitVec 5) (bay : BitVec 3) (off : BitVec 12) (lane : BitVec 4) (abits : BitVec 3) (asigned half bank : BitVec 1), predTrue (me s) p = true →
    let one := cmMask cm
    let scr := (macroOf (me s) cm.toNat).scratch
    let h := loadHops s bay lane
    let n := abits.toNat + 1
    (mask &&& ~~~(me s).grant.macros = 0 →
      (Idle s mask true true false → NoFill (me s) mask →
        exec (.cmode p mode mask) s = .next (let lat := if mode = 1 then 2 else 258
          emit (occupy s mask true true false (s.cur.cycle + lat)) lat (.cmode mask.toNat (mode == 1))) ∧
        exec (.cswap p mask) s = .next (let u := occupy s mask true true false (s.cur.cycle + 1)
          emit (modMe u (fun c => modMacros c mask (fun x => { x with time := { x.time with swapsDue := x.time.swapsDue + 1 } }))) 2 (.cswap mask.toNat))) ∧
      (Idle s mask true false false → GoodParity s mask →
        (Usable s [] [va] [] → exec (.cmacRow p mask va abits asigned wacc) s = .next (emitSums (fixSplits (occupy (occupy s mask true false false (s.cur.cycle + n - 1)) mask false false true (s.cur.cycle + n + 3)) mask)
          (n + 4) mask (readVec (me s) va) n (asigned == 1) (wacc.toNat + 12))) ∧
        (RoundFree s (loadTraffic s bay (off.toNat * 64) 512 lane 2 8) →
          exec (.cmacRound p mask bay off lane abits asigned wacc) s = .next (emit (ride (fixSplits (occupy (occupy s mask true false false (s.cur.cycle + n + 1 + h)) mask false false true (s.cur.cycle + n + 5 + h)) mask)
            (loadTraffic s bay (off.toNat * 64) 512 lane 2 8)) 2 (.read bay.toNat (off.toNat * 64) 512 (s.cur.cycle + n + 6 + h) (.cmac mask.toNat n (asigned == 1) (wacc.toNat + 12)))))) ∧
      (Idle s mask false false true → exec (.cclr p mask) s = .next (emit (occupy s mask false false true s.cur.cycle) 1 (.cclr mask.toNat)))) ∧
    (bit (me s).grant.macros cm.toNat = true →
      (first.toNat + 64 / containerBits wfmt.toNat ≤ 256 → Idle s one scr (!scr) false → (scr = false → NoFill (me s) one) →
        (Usable s [] [vs] [] → exec (.cloadRow p vs cm first wfmt) s = .next (emit (occupy s one scr (!scr) false (s.cur.cycle + 2)) 2 (.cload cm.toNat first.toNat wfmt.toNat (readVec (me s) vs)))) ∧
        (RoundFree s (loadTraffic s bay (off.toNat * 64) 512 lane 2 8) →
          exec (.cloadRound p bay off lane cm first wfmt) s = .next (loadRound (occupy s one scr (!scr) false (s.cur.cycle + 4 + h)) bay (off.toNat * 64) 512 lane 2 8 (.cload cm.toNat first.toNat wfmt.toNat)))) ∧
      (Usable s [vd] [] [] → GoodAcc s cm → exec (.cread p vd cm half) s = .next (let r := creadCols (macroOf (me s) cm.toNat)
        let overs := pack 1 64 (fun c => if (nth r c (0, false)).2 then 1 else 0)
        let u := emit s 3 (.row (vnum vd) (vdir vd) (halfRow half (fun c => BitVec.ofInt 32 (nth r c (0, false)).1)) (halfMask half))
        if overs = 0 then u else emit u 3 (.cov cm.toNat (BitVec.ofNat 64 overs)))) ∧
      (Usable s [vd] [] [] → GoodAcc s cm → tagCurrent (me s) (bankTag cm.toNat 0) = true → (if tagAxis (me s) (bankTag cm.toNat 0) = 1 ∧ tagBlock (me s) (bankTag cm.toNat 0) ≤ 128 then 256 / tagBlock (me s) (bankTag cm.toNat 0) else 1) = blocksOf (macroOf (me s) cm.toNat) →
        SoundTag s (bankTag cm.toNat 0) → exec (.creadK p vd cm half) s = .next (let r := (List.range 64).map (creadkCol (me s) cm.toNat)
        emitFlags (emit s 3 (.row (vnum vd) (vdir vd) (halfRow half (fun c => (nth r c (0, 0)).1)) (halfMask half))) 3 (r.foldl (fun f x => f ||| x.2) 0))) ∧
      (Idle s one (bank == 0) (bank == 1) false → (bank = 1 → scr = false → NoFill (me s) one) →
        exec (.cchk p bank cm) s = .next (if scr = true then s else
          let u := checkBank s cm.toNat (bank == 1)
          let u := modMe u (fun c => modMacro c cm.toNat (fun x => if bank = 1 then { x with shadowRead := true } else { x with activeRead := true }))
          occupy u one (bank == 0) (bank == 1) false (s.cur.cycle + 7))))

/-- A segment entry records the context's program counter, time, registers, results in flight and off-core accesses in the snapshot; where
a segment was open it commits: its number rises by one, and its undo log and charge are empty; nothing else of the context but its macros'
read marks changes. The check of a bundle that is due, in a context that is no replay, is made again: the bundle issues, its fault is
delivered, or it waits on with the wait the check names. A context whose off-die result is due lands all its results of the cycle and takes
its skips; while one of them is not answered it is frozen on it instead. A context past its EXIT that has drained, and is no replay, has
ended and holds no pins; and where it was the last of its running launch to end, the launch is ending with status 0. (R82, R147, R148,
R194, R268, R274, R284, R318, R322) -/
def Obligations.SequencerEventsComplete : Prop :=
  ∀ (s : State) (c id : Nat),
    let x := ctxOf s c
    (∃ t n, exec (.segmentEntry c) s = .next (t) ∧ (ctxOf t c).snap = some n ∧ n.pc = x.pc ∧ n.base = x.base ∧ n.ccycle = x.ccycle ∧ n.loops = x.loops ∧ n.sregs = x.sregs ∧
      n.pregs = x.pregs ∧ n.nregs = x.nregs ∧ n.wregs = x.wregs ∧ n.mode = x.mode ∧ n.fflags = x.fflags ∧ n.cov = x.cov ∧ n.taps = x.taps ∧ n.flight = x.flight ∧ n.ops = x.ops ∧
      (x.snap = none → ctxOf t c = { x with snap := some n, segEntry := x.pc }) ∧
      (x.snap ≠ none → ctxOf t c = { x with snap := some n, segEntry := x.pc, seg := x.seg + 1, undo := [], charge := 0, segRewound := false, macros := (ctxOf t c).macros }) ∧
      ∀ d, d ≠ c → ctxOf t d = ctxOf s d) ∧
    (runnable x = true → x.landedNow = true → x.status ≠ .exiting → x.pc < x.grant.codeLen → isDue s c = true → replaying s c = false →
      (slotOf c = 1 → x.wait = .none ∨ merged s c 0 = false) →
      (∀ sl, judge s c = .issue sl → exec (.checkRetest c) s = .next (issueBundle s c sl)) ∧
      (∀ h, judge s c = .fault h → exec (.checkRetest c) s = .next (deliverHit s c h)) ∧
      (∀ k w, judge s c = .wait k w → exec (.checkRetest c) s = .next (keepWaiting (askProbe s c w) c w))) ∧
    ((dueFlights x).any (fun f => decide (f.eff = .offcore id)) = true → runnable x = true → x.landedNow = false → x.seenYard ≠ yardNow s c →
      (x.expired = false ∨ x.status ≠ .running) → replaying s c = false →
      (landingWait x = none → (slotOf c = 1 → merged (landAndSkip s c) c (rowsDue s c) = false) →
        exec (.offdieLoadLanding c id) s = .next (foreseeDx (acceptFills (countRows (makeUses (modCtx (landAndSkip s c) c (fun x => { x with ranAt := yardNow s c })) c) c (rowsDue s c)) c) c)) ∧
      (∀ o, landingWait x = some o → exec (.offdieLoadLanding c id) s = .next (keepWaiting s c (.landing o.id)))) ∧
    (x.status = .exiting → x.after = .exit → drained s c = true → replaying s c = false →
      ∃ t, exec (.contextRelease c) s = .next (t) ∧ (ctxOf t c).status = .ended ∧ (ctxOf t c).pins = [] ∧
        ((launchAt s x.launch).state = .running → (∀ d ∈ launchCtxs (launchAt s x.launch), d ≠ c → (ctxOf s d).launch = x.launch ∧ (ctxOf s d).status = .ended) →
          (launchAt t x.launch).state = .ending ∧ (launchAt t x.launch).status = 0))

/-- A rendezvous release lets every member's bundle be checked next. A barrier release raises, for each member in the Yard whose group, all
in its launch, has arrived at its ordinal, the ordinals released past it. A write to csr.mxwin from a context that may make it is pending
until a Yard count that is a multiple of 8, where it takes effect. An idle warm array without a hint in force becomes cold and gives its
Yard a ramp-down. A clock floor written in an earlier module cycle comes into force at a multiple of 1,024 module cycles, and at no other.
A meter restarts at 0. An ageing interval clears the sieves and frees the tracked rows whose count did not rise. The timer sets event 4 at
each multiple of 2^24 module cycles, and at no other. An event that the mask lets through enters the control context with cause 0x03. A
window's end returns a region's flips to 0; a contested region without a line flip in it and without a host-held line is then device-owned,
and one with such lines has a flip of all its lines under way. (R40, R137, R138, R272, R321, R347, R394, R395, R409, R429) -/
def Obligations.ReleasesAndWindowsComplete : Prop :=
  ∀ (s : State) (l c group yard stable code : Nat),
    exec (.rendezvousRelease l group) s = .next ({ s with agenda := (membersOf (launchAt s l) group).map Work.issue ++ s.agenda }) ∧
    (∃ t, exec (.barrierRelease l group yard) s = .next (t) ∧ ∀ m ∈ membersOf (launchAt s l) group, yardOf m = yard →
      (∀ n ∈ membersOf (launchAt s l) group, (ctxOf s n).launch = l ∧ barArrived s n group (ordinal (ctxOf s m) group) = true) →
      ordinal (ctxOf s m) group < mget (ctxOf t m).barOpen group 0) ∧
    ((slotOf c = 1 → primaryPlaced s (stableOf c) = false) → exec (.mxwinWrite c code) s = .next (modStable s (stableOf c) (fun t =>
      if (yardAt s (stableOf c / 16)).ycycle % 8 = 0 then { t with mxwin := BitVec.ofNat 2 code, mxPending := none } else { t with mxPending := some (BitVec.ofNat 2 code) }))) ∧
    (∀ v, (stableAt s stable).mxPending = some v → (yardAt s (stable / 16)).ycycle % 8 = 0 →
      ∃ t, exec (.mxwinTakesEffect stable) s = .next (t) ∧ (stableAt t stable).mxwin = v ∧ (stableAt t stable).mxPending = none) ∧
    ((stableAt s stable).warm = true → (∀ h ∈ (stableAt s stable).hints, h.2 < (yardAt s (stable / 16)).ycycle) →
      (∀ m, (stableAt s stable).lastMma = some m → m + 512 < (yardAt s (stable / 16)).ycycle) →
      ∃ t, exec (.arrayCold stable) s = .next (t) ∧ (stableAt t stable).warm = false ∧ (yardAt t (stable / 16)).ramps = (yardAt s (stable / 16)).ramps ++ [(4, 128, false)]) ∧
    (∀ f, (yardAt s yard).floorNext = some f → (s.mcycle % 1024 = 0 → f.2 < s.mcycle → exec (.clockFloorChange yard) s = .next (modYard s yard (fun y => { y with floor := f.1, floorNext := none }))) ∧
      (s.mcycle % 1024 ≠ 0 → ∃ t, exec (.clockFloorChange yard) s = .next (t) ∧ yardAt t yard = yardAt s yard)) ∧
    exec (.dramMeterWindow l) s = .next (modLaunch s l (fun l => { l with traffic := 0 })) ∧
    exec (.sieveAgeing) s = .next ({ s with rel := { s.rel with sieve := [], tracked := (s.rel.tracked.filter (·.rose)).map (fun e => { e with rose := false }) } }) ∧
    (s.mcycle % 2 ^ 24 = 0 → exec (.eventTimer) s = .next (setIo s 0x8C0 (ioCsr s 0x8C0 ||| 16))) ∧
    (s.mcycle % 2 ^ 24 ≠ 0 → exec (.eventTimer) s = .next (s)) ∧
    (∀ g, booted s = true → eventPending s = true → controlStall s = some g → s.control = false → (ctxOf s (4 * g + 2)).inSvc = false →
      exec (.controlContextEntry) s = .next ({ enterService s (4 * g + 2) 0x03 0 0 with control := true })) ∧
    (∃ t, exec (.regionWindowEnd code) s = .next (t) ∧ regFlips (region t code) = 0 ∧
      (regState (region s code) = 3 → s.cxl.active.any (· == code) = false → (∀ f ∈ s.cxl.flips, f.region ≠ code) →
        ((∀ e ∈ s.cxl.directory, inRegion (region s code) e.1 = false) → regState (region t code) = 0) ∧
        ((∃ e ∈ s.cxl.directory, inRegion (region s code) e.1 = true) → ∃ f ∈ t.cxl.flips, f.region = code ∧ f.line = none)))

/-- A reference period first forms a quote that waits, then advances csr.mcycle by one before the running Yards take their pulses, and ends
with the module's periodic work; with no quote waiting, no Yard running and no strike due nothing else happens but that due clock floors
change. This order inside a period, with the running Yards in the order of their list, is the model's choice (log 5). A placement decision
over heads brought forward starts a ready launch that has a place, puts back a swapped one, and changes nothing more where there is no
candidate and no replay to start. A scrub pass leaves every marked LPDDR6 word poison, with every word of a line that was newly found
uncorrectable among them, and every other mark, device memory and the contexts as they were. (R9, R18, R312, R318, R326, R383, R391, R417) -/
def Obligations.ClockAndScrubComplete : Prop :=
  ∀ (s : State),
    (exec (.yardCycle) s = .next (let w := formQuote s
      let u := takeStrikes (takeFloors { w with mcycle := w.mcycle + 1 })
      let v := ((u.yards.filter (fun e => e.2.status == .running)).map (·.1)).foldl openYard u
      { v with agenda := v.agenda ++ [.period] })) ∧
    (s.sec.quote = none → (∀ e ∈ s.yards, e.2.status ≠ .running) → (∀ e ∈ s.strikes, s.mcycle + 1 < e.1) →
      exec (.yardCycle) s = .next (let u := takeFloors { s with mcycle := s.mcycle + 1 }
        { u with agenda := s.agenda ++ [.period] })) ∧
    (candidates (advanceQueues s) = [] → exec (.placementDecision) s = .next (startReplays (advanceQueues s)) ∧
      ((advanceQueues s).rel.captures = [] → exec (.placementDecision) s = .next (advanceQueues s))) ∧
    (∀ n l r p, candidates (advanceQueues s) = (n, l) :: r → findPlace (advanceQueues s) n l = some p →
      exec (.placementDecision) s = .next (startReplays (advanceQueues (if waitsBack l then resumePlaced (advanceQueues s) n p else startPlaced (advanceQueues s) n p)))) ∧
    (∃ t, exec (.scrubPass) s = .next (t) ∧ (∀ m ∈ t.marks, m.struct = 0x18 → m.bad = true ∧ m.synd = 0x7F) ∧
      (∀ m ∈ s.marks, m.struct = 0x18 → m.bad = true → m.synd ≠ 0x7F → ∀ w < 8, ∃ k ∈ t.marks, k.struct = 0x18 ∧ k.unit = m.unit ∧ k.word = w) ∧
      (∀ m, m.struct ≠ 0x18 → (m ∈ t.marks ↔ m ∈ s.marks)) ∧ t.dev = s.dev ∧ t.ctxs = s.ctxs)

/-- An access that its queue's order lets perform, with no registration, flip, half-made host store or swapped-out Yard to wait for, takes
its effect once its reads are corrected and its traffic counted, and its tiles enter the tile-translation cache (log 44). A PUSH with room
at its peer puts its element at the tail of the FIFO. A SPILL writes the rows it holds, and a FILL whose rows all read logs its tile's rows
and gives them to the tile, or, where a non-zero undo budget does not hold the log, holds the landings with fault 0x02; a PROBE of tiles
all resident or dead whose pins fit pins them and lets its bundle issue, one with a lost tile raises fault 0x13, and else one with an
absent tile raises fault 0x10 that names the first. A fill request that may be accepted makes the macro's fill pending; its end writes the
rows it read to the bank, whole (log 51) and zero past the tensor's end (log 123), and leaves none pending. The copy that a TAPLD waits for
completes. Packets that reached a Stable are applied by sender and taken off, each with a signal one cycle later. (R148, R181, R199, R201,
R211, R212, R247, R254, R255, R256, R280, R339) -/
def Obligations.OffcoreAccessesPerform : Prop :=
  ∀ (s : State) (c id cm stable : Nat),
    let x := ctxOf s c
    let l := launchAt s x.launch
    (∀ o, opOf s c id = some o → inOrder s c o = true → waitsTree s (opRanges s c o) = false → halfStored s c id (opRanges s c o) = false → (toHost s c o = true → linkUp s = true) →
      let rs := opRanges s c o
      let dev := deviceRanges s rs
      (plainKind o.kind = true → targetOut s c o = false → deviceGate s dev (writesMem o) (.device c id) = none →
        let u := takeEffect (meter (correctRanges s rs) c dev) c o
        exec (.offcoreAccessPerform c id) s = .next (cacheRanges (if writesMem o then u else foundRanges u rs) c rs)) ∧
      (∀ tok tile tid offs rows t, o.kind = .spill tok tile tid offs rows → x.heldRows = false → replaying s c = false → tensorOf l tid = some t → deviceGate s dev true (.device c id) = none →
        (∀ r ∈ opRanges s c o, storeOk s r.1 r.2.1 r.2.2 = true) →
        exec (.tokenComplete c id) s = .next (opDone (cacheRanges (spillRows (meter s c dev) t offs rows) c rs) c id (.data 0 0))) ∧
      (∀ tok tile tid offs rows t, o.kind = .fill tok tile tid offs → x.heldRows = false → replaying s c = false → tensorOf l tid = some t → deviceGate s dev false (.device c id) = none →
        fillRows (meter (correctRanges s rs) c dev) t offs = .ok rows →
        let v := modCtx (cacheRanges (meter (correctRanges s rs) c dev) c rs) c (fun x => logRows x ((List.range 64).map (64 * tile + ·)))
        ∃ u, exec (.tokenComplete c id) s = .next (u) ∧
          (x.grant.segbudget = 0 ∨ (ctxOf v c).charge ≤ x.grant.segbudget → ∀ r < 64, vrow (ctxOf u c) (64 * tile + r) = rows.getD r 0) ∧
          (x.grant.segbudget ≠ 0 → x.grant.segbudget < (ctxOf v c).charge → u = holdLandings (meter (correctRanges s rs) c dev) c 2 ∧ (ctxOf u c).heldRows = true ∧ (ctxOf u c).vrows = x.vrows)) ∧
      (∀ tid off len t, o.kind = .probe tid off len → tensorOf l tid = some t →
        let done := opDone s c id (.data 0 0)
        ((∀ i ∈ tilesIn off len false, tileState s t i = 1 ∨ tileState s t i = 2) →
          ∀ v, pinTiles done c t.table (tilesIn off len false) = some v → exec (.probeAnswer c id) s = .next (modCtx (cacheRanges v c [(t, off, len)]) c (fun x => { x with probeOk := true, missed := none }))) ∧
        ((∃ i ∈ tilesIn off len false, tileState s t i = 3) → exec (.probeAnswer c id) s = .next (faultDue done c 0x13 0 o.slot)) ∧
        (∀ i, (∀ j ∈ tilesIn off len false, tileState s t j ≠ 3) → (tilesIn off len false).find? (fun j => tileState s t j == 0) = some i →
          exec (.probeAnswer c id) s = .next (faultDue (modCtx done c (fun x => { x with missed := some i })) c 0x10 i o.slot))) ∧
      (∀ v q i, o.kind = .push v → o.q = .fifo q → sourceOf l x.k q = some i → (l.fifos.getD i []).getD 0 0 ≠ 3 →
        (mget l.fifoData i []).length < 64 → ∃ t, exec (.pushAccepted c id) s = .next (t) ∧
          mget (launchAt t x.launch).fifoData i [] = mget l.fifoData i [] ++ [v] ∧ mget (launchAt t x.launch).pushed i 0 = mget l.pushed i 0 + 1)) ∧
    (∀ o v, nextFill x cm = some (o, v) → inOrder s c o = true → (macroOf x cm).time.swapsDue = 0 → (macroOf x cm).fillOn = none →
      exec (.shadowFillAccept c cm) s = .next (opDone (modCtx s c (fun x => modMacro x cm (fun m => { m with fillOn := some (srcOf o.pc o.slot, v), fillActive := false }))) c o.id (.data 0 0))) ∧
    (∀ src v t b, (macroOf x cm).fillOn = some (src, v) → tensorOf l (fld v 0 16) = some t →
      let off := fld v 64 48
      let n := fld v 32 16 * 8 * containerBits (fld v 48 8)
      let top := min (off + n) ((t.len * containerBits t.fmt + 7) / 8) - off
      waitsTree s [(t, off, n)] = false → tensorRead (correctRanges s [(t, off, top)]) t off top = .ok b →
      ∃ u, exec (.shadowFillEnd c cm) s = .next (u) ∧ (macroOf (ctxOf u c) cm).fillOn = none ∧
        ((macroOf x cm).fillActive = false →
          (macroOf (ctxOf u c) cm).shadow = fillBank (nibbled s c cm) (macroOf x cm).shadow v (b ++ List.replicate (n - b.length) 0))) ∧
    (x.wait = .copy → exec (.tapldCopyComplete c) s = .next (modCtx (readEntry s c) c (fun x => { x with probeOk := true }))) ∧
    (∃ t, exec (.redsApply stable) s = .next (t) ∧ (stableAt t stable).packets = [] ∧ (stableAt t stable).signals = (stableAt s stable).signals ++
      (sortBy (fun p => p.2.sender) (stableAt s stable).packets).map (fun p => { sem := p.2.sem, count := 1, due := (yardAt s (stable / 16)).ycycle + 1, charged := 0 }))

/-- For each trigger of DX, TX, HX and QX: where a job of the context's class runs on the station the trigger sets only the refusal bit 62
of the status; else a job is added that ends its duration of R205 after the Yard cycle of the trigger (log 113), with the bytes, flags and
error its decode, copy, transposition, hash or conversion gives where its arguments are legal and its source lies in the round, error 6 for
an illegal option and else 4 for ranges the launch does not hold, and the status reads busy. A job whose time has come is taken off with
its destination written, its status as R208 gives it, and its semaphore, if any, signalled; an end asked for any other job changes nothing.
That a job's time goes on while its context is frozen on a semaphore or off the Yard, and stands still while its context waits otherwise,
is the model's reading (log 113), and so is a busy status with every other field 0 (log 14). (R204, R205, R206, R207, R208) -/
def Obligations.StationJobsRun : Prop :=
  ∀ (s : State) (c stable id : Nat),
    let x := ctxOf s c
    let l := launchAt s x.launch
    let sb := stableOf c
    let rule (i : Instr) (st trig : Nat) : Prop :=
      let a := jobArgs x st
      ((∃ j, runningJob (stableAt s sb) st (slotOf c) = some j) →
        exec i s = .next (modCtx s c (fun x => { x with stationStatus := mput x.stationStatus st (setField (mget x.stationStatus st 0) 62 1 1) }))) ∧
      (runningJob (stableAt s sb) st (slotOf c) = none →
        ∃ t j, exec i s = .next t ∧ (stableAt t sb).jobs = (stableAt s sb).jobs ++ [j] ∧ mget (ctxOf t c).stationStatus st 0 = BitVec.ofNat 64 (2 ^ 63) ∧
          j.station = st ∧ j.ctx = c ∧ j.ends = yardNow s c + jobTime st trig a ∧ j.bay = argBay (a.getD 1 0) ∧
          (jobOptBad st a = true → j.error = 6 ∧ j.chunks = []) ∧ (jobOptBad st a = false → jobRangeBad l st trig a = true → j.error = 4 ∧ j.chunks = []) ∧
          (jobOptBad st a = false → jobRangeBad l st trig a = false → fld (a.getD 0 0) 48 16 = 0 →
            (j.chunks, j.flags, j.error) = jobResult st trig a ((jobRanges st trig a).1.map (fun r => roundRead s sb (argBay (a.getD 0 0)) r.1 r.2))))
    rule (.dxBackref c) 0 16 ∧
    rule (.dxCopy c) 0 17 ∧
    rule (.txTranspose c) 1 16 ∧
    rule (.hxSha256 c) 2 16 ∧
    rule (.qxConvert c) 3 16 ∧
    (∀ j, (stableAt s stable).jobs.find? (fun j => j.id == id && !j.waits && decide (j.ends ≤ (yardAt s (stable / 16)).ycycle)) = some j →
      ∃ t, exec (.stationJobEnd stable id) s = .next (t) ∧ (∀ k ∈ (stableAt t stable).jobs, k.id ≠ j.id) ∧
        mget (ctxOf t j.ctx).stationStatus j.station 0 = jobStatus (mget (ctxOf s j.ctx).stationStatus j.station 0) j ∧
        (stableAt t stable).signals = (stableAt s stable).signals ++
          (match j.signal with | some n => [{ sem := n, count := 1, due := (yardAt s (stable / 16)).ycycle, charged := 0 }] | none => [])) ∧
    ((∀ j ∈ (stableAt s stable).jobs, j.id = id → j.waits = true ∨ (yardAt s (stable / 16)).ycycle < j.ends) → exec (.stationJobEnd stable id) s = .next (s))

/-- A starting launch that nothing keeps from starting, no context of it having raised a fault since its placement, becomes running with
every context running from the next Yard cycle on, and the array windows of its Stables return to code 0, for an open launch (log 128)
where no primary context is placed. An ending launch whose contexts have settled and whose sequence unit is done frees its slots, is
retired (entry, message, token) and is gone. Resume lets every resumable held context of the named launch run on and leaves its other
contexts. End moves the named launch to ending with status 4 and its contexts freeze. Cancel retires the named waiting launch with status
3. A swap-out of a Yard of a running launch freezes its contexts there and the launch is swapping; without a save area nothing happens.
When the contexts on such a Yard may be saved and all is quiet on every Yard that the swap-out takes, the slots there are freed (a fault
not yet delivered stays); with the last Yard of the launch it is swapped, else with the last of those asked for the rest of it runs on (log
69). (R40, R318, R323, R325, R332, R333, R334) -/
def Obligations.LaunchEventsComplete : Prop :=
  ∀ (s : State) (n yard q seq : Nat),
    let l := launchAt s n
    (l.state = .starting → l.prepared = true → l.taploads = [] → (∀ g, l.gen = some g → g.opened = true ∧ g.reading = none ∧ g.commits = []) → (∀ c ∈ launchCtxs l, (ctxOf s c).status = .placed) →
      let u := writeCommit0 s n
      ∃ t, exec (.launchRunStart n) s = .next (t) ∧ (launchAt t n).state = .running ∧
        (∀ c ∈ launchCtxs l, ctxOf t c = { ctxOf u c with status := .running, seenYard := yardNow u c }) ∧
        (∀ sb ∈ launchStables l, l.openCls = false ∨ primaryPlaced u sb = false →
          if (yardAt u (sb / 16)).ycycle % 8 = 0 then (stableAt t sb).mxwin = 0 ∧ (stableAt t sb).mxPending = none else (stableAt t sb).mxPending = some 0)) ∧
    (l.state = .ending → (∀ c ∈ launchHeld s n, settled s c = true) → (∀ g, l.gen = some g → g.ending = true ∧ g.records = []) →
      ∃ v, exec (.launchCompletion n) s = .next (advanceQueues (retire v n)) ∧ launchAt v n = l ∧ (∀ c ∈ launchHeld s n, ∃ z, ctxOf v c = { ctxInit with taps := z, raised := (ctxOf s c).raised }) ∧
        mfind (advanceQueues (retire v n)).launches n = none) ∧
    (namedLaunch s q seq (fun l => l.state == .running) = some n → ∃ t, exec (.queueResume q seq) s = .next (t) ∧ ∀ c ∈ launchHeld s n,
        ctxOf t c = if resumable s c then { unhold (ctxOf s c) with seenYard := yardNow s c } else ctxOf s c) ∧
    (namedLaunch s q seq (fun l => l.state == .running || l.state == .swapping || l.state == .swapped) = some n → l.state ≠ .ended → l.state ≠ .ending →
      ∃ t, exec (.queueEnd q seq) s = .next (t) ∧ (launchAt t n).state = .ending ∧ (launchAt t n).status = 4 ∧ (launchAt t n).fault = 0 ∧ ∀ c ∈ launchHeld s n, (ctxOf t c).status = .ended) ∧
    (namedLaunch s q seq waiting = some n → exec (.queueCancel q seq) s = .next (advanceQueues (retireWith s n 3 0))) ∧
    (l.state = .running → recSave l.record ≠ 0 → yard ∈ l.yards → yard ∉ l.swapDone → ∃ t, exec (.swapOut n yard) s = .next (t) ∧ (launchAt t n).state = .swapping ∧ (launchAt t n).since = s.mcycle ∧
        ∀ c, ctxOf t c = if c ∈ launchHeld s n ∧ yardOf c = yard then { ctxOf s c with frozen := true } else ctxOf s c) ∧
    (recSave l.record = 0 → exec (.swapOut n yard) s = .next (s)) ∧
    (l.state = .swapping → yard ∈ l.swapAsked → yard ∉ l.swapDone → (∀ c ∈ heldOn s n yard, mayCommit s c = true) →
      (∀ y ∈ l.swapAsked, y ∉ l.swapDone → (∀ c ∈ heldOn s n y, (ctxOf s c).snap = none ∧ settled s c = true) ∧
        ∀ sb ∈ launchStables l, sb / 16 = y → stableQuiet s l.semmask sb = true) →
      ∃ t, exec (.swapOutSave n yard) s = .next (t) ∧ (∀ c ∈ heldOn s n yard, ∃ z, ctxOf t c = { ctxInit with taps := z, raised := (ctxOf s c).raised }) ∧ (launchAt t n).swapDone = yard :: l.swapDone ∧
        ((∀ y ∈ l.yards, y = yard ∨ y ∈ l.swapDone) → (launchAt t n).state = .swapped) ∧
        ((∃ y ∈ l.yards, y ≠ yard ∧ y ∉ l.swapDone) → (∀ y ∈ l.swapAsked, y = yard ∨ y ∈ l.swapDone) → (launchAt t n).state = .running))

/-- A host write within one line, below the end of the HDM range, outside the command region, the bound tables and any region, with no host
write waiting before it, puts its bytes in device memory and is completed; a read is answered with the bytes that stand there; a write-back
puts its bytes; a write that reaches beyond the range faults, and a request while the link is down does nothing (log 82). When the host has
answered a flip of a whole region that nothing waits behind, the region is device-owned and its flip is counted, or, where it was
contested, its flips are 0. A snooped line that the device holds modified is answered with its bytes and written back; another without
bytes. A flush begins with the link flushing and is answered at once where nothing is held. A hot reset or link-down empties the cache, the
directory and the flips and returns every region to the device, the flips of those it takes back being 0. The sweep drops waiting launches,
silences the others, starting, ending and swapping ones among them (log 81), and after it the retrained link is up, with the host accesses
issued meanwhile dropped (log 47). (R264, R266, R303, R340, R345, R347, R349, R350, R351, R352) -/
def Obligations.HostPortComplete : Prop :=
  ∀ (s : State) (a n i line : Nat) (data : List Byte) (e inv : Bool),
    (data ≠ [] → data.length ≤ 64 - a % 64 → a + data.length ≤ hdmEnd s → hostLinked s = true → writeFlip s = none → inCommand s a = false → regionAt s (64 * (a / 64)) = none →
      (∀ k < data.length, inBoundTable s (a + k) = false) → exec (.hostWrite a data) s = .next (emitOut (devPut s a data) (.writeDone a)) ∧ exec (.hostMemwr a data) s = .next (devPut s a data)) ∧
    (hdmEnd s < a + data.length → exec (.hostWrite a data) s = .fault .noSuchAddress ∧ exec (.hostMemwr a data) s = .fault .noSuchAddress ∧ exec (.hostRead a data.length e) s = .fault .noSuchAddress) ∧
    (a + data.length ≤ hdmEnd s → hostLinked s = false → exec (.hostWrite a data) s = .next (s) ∧ exec (.hostMemwr a data) s = .next (s) ∧ exec (.hostRead a data.length e) s = .next (s)) ∧
    (0 < n → n ≤ 64 - a % 64 → a + n ≤ hdmEnd s → hostLinked s = true → regionAt s (64 * (a / 64)) = none →
      exec (.hostRead a n e) s = .next (emitOut (readWords s 0x18 0 64 [(devAddr a, n)]) (.readData a (devRead s a n)))) ∧
    (∀ f, s.cxl.flips.find? (fun f => f.region == i) = some f → f.waiting = [] → f.line = none → s.cxl.link = .linked → regState (region s i) ≠ 3 → regFlips (region s i) + 1 < flipLimit s →
      ∃ t, exec (.birsp i) s = .next (t) ∧ regState (region t i) = 0 ∧ regFlips (region t i) = regFlips (region s i) + 1 ∧ f ∉ t.cxl.flips) ∧
    (∀ f, s.cxl.flips.find? (fun f => f.region == i) = some f → f.waiting = [] → f.line = none → s.cxl.link = .linked → regState (region s i) = 3 →
      ∃ t, exec (.birsp i) s = .next (t) ∧ regState (region t i) = 0 ∧ regFlips (region t i) = 0 ∧ f ∉ t.cxl.flips) ∧
    (∀ v, s.cxl.cache.find? (fun e => e.1 == line) = some v → ∃ b, exec (.hostSnoop line inv) s = .next (emitOut (writeBack s line) (.snooped line (some v.2) b))) ∧
    (s.cxl.cache.find? (fun e => e.1 == line) = none → exec (.hostSnoop line inv) s = .next (emitOut s (.snooped line none false))) ∧
    (s.cxl.link = .linked → ∃ t, exec (.gpfPhase1) s = .next (t) ∧ t.cxl.link = .flushing ∧
      (s.cxl.cache = [] → s.cxl.directory = [] → s.cxl.flips = [] → (∀ r ∈ s.cxl.regions, regValid r.2 = true → regState r.2 ≠ 1 ∧ regState r.2 ≠ 2) → t.out = .flushed :: s.out)) ∧
    (hostLinked s = true → ∃ t, exec (.hostHotReset) s = .next (t) ∧ exec (.hostLinkDown) s = .next (t) ∧ t.cxl.link = .restarting ∧ t.cxl.cache = [] ∧ t.cxl.directory = [] ∧
      t.cxl.flips = [] ∧ ∀ r ∈ t.cxl.regions, regState r.2 = 0 ∧ (r ∈ s.cxl.regions ∨ regFlips r.2 = 0)) ∧
    (s.cxl.link = .restarting → ∃ t, exec (.tableSweep) s = .next (t) ∧ t.cxl.link = .retraining ∧ (∀ k l, mfind t.launches k = some l → l.silent = true) ∧
      (s.sec.boot = .opened → ∀ q < 16, mget t.expected q 0 = 1 ∧ mget t.lastCmd q 0 = 0)) ∧
    (s.cxl.link = .retraining → exec (.linkRetrained) s = .next (modCxl (dropHostOps s) (fun x => { x with link := .linked })) ∧
      (hostPending s = [] → exec (.linkRetrained) s = .next (modCxl s (fun x => { x with link := .linked }))))

/-- A running Yard declared lost, by a failure with its cause, by the thermal trip with cause 4 or by firmware with cause 5, gives each
context of a launch on it the status lost and its fault 0x32, delivered at the module cycle's end, and sets event 6. A lost Yard is
activated on a free site; its self-test then makes it run from cycle 0 with nothing placed but lost contexts whose launch has yet to end,
or leaves it lost. The degrade commands mark an array or a macro failed, keeping the stored weights, or clear both marks. A repair request
starts draining its Stable, the Stall clamped to 191 (log 53), unless one is under way; once every context there is at rest the copy
begins, and then the row's unit is mapped to the lowest free spare, the contexts resuming in the next step, or, where none is free, the
Stable leaves placement at once, as a whole (log 99), and its contexts resume; those that a swap-out holds stay frozen. A rewound context
that is quiet goes back, in the cycle in which it is found so (log 76), to its snapshot with an empty log and 15 + ceil(charge / 256)
restore cycles to run, and runs again after the last, the station jobs of the snapshot with it; with a damaged log or writes that could not
be logged fault 0x31 takes the place of the fault before it (log 75). A link error of at most 8 retries is recorded as corrected; beyond
them an I/O-die port loses its Yard. A run of a replay equal to the original signature closes the audit; the first that differs is kept; a
second makes suspect the run that differs, or all three. (R16, R383, R385, R388, R392, R393, R397, R398, R399, R400, R401, R412) -/
def Obligations.YardsAndRepairComplete : Prop :=
  ∀ (s : State) (y site cause g m p v c retries : Nat) (pass : Bool),
    let x := ctxOf s c
    ((yardAt s y).status = .running → ∃ t4 t5 t,
      exec (.thermalTrip y) s = .next (t4) ∧ exec (.yardDeclareLost y) s = .next (t5) ∧ exec (.yardLost y cause) s = .next (t) ∧ t4 = loseYard s y 4 ∧ t5 = loseYard s y 5 ∧ t = loseYard s y cause ∧
      (∀ c ∈ yardHolders s y, replaying s c = false → (ctxOf t c).status = .lost ∧ (ctxOf t c).ops = [] ∧ (ctxOf t c).flight = [] ∧ ∃ f ∈ (ctxOf t c).raised, f.ctx = c ∧ f.code = 0x32 ∧ f.launch = (ctxOf s c).launch) ∧ bit (ioCsr t 0x8C0) 6 = true) ∧
    (y < 6 → (yardAt s y).status = .lost → (∀ e ∈ s.yards, e.1 ≠ y → e.2.status = .running ∨ e.2.status = .activating → e.2.site ≠ site) →
      exec (.yardActivate site y) s = .next (modYard s y (fun x => { x with status := .activating, site := site }))) ∧
    ((yardAt s y).status = .activating → ∃ t, exec (.yardSelfTestDone y pass) s = .next (t) ∧
      (pass = true → (yardAt t y).status = .running ∧ (yardAt t y).ycycle = 0 ∧ (yardAt t y).since = s.mcycle ∧ ∀ k < 128, (ctxOf s (128 * y + k)).status ≠ .lost → (ctxOf s (128 * y + k)).raised = [] → (ctxOf t (128 * y + k)).status = .absent) ∧
      (pass = false → (yardAt t y).status = .lost)) ∧
    (∃ t, exec (.degrArrayFailed g) s = .next (t) ∧ (stableAt t (g / 2)).arrayFailed = true) ∧
    (∃ t, exec (.degrMacroFailed g m p) s = .next (t) ∧ (stallAt t g).failedMacros = (stallAt s g).failedMacros ||| BitVec.ofNat 8 (2 ^ m) ∧ (stallAt t g).partners = mput (stallAt s g).partners m p ∧
      ∀ d k, (macroOf (ctxOf t d) k).active.rows = (macroOf (ctxOf s d) k).active.rows ∧ (macroOf (ctxOf t d) k).shadow.rows = (macroOf (ctxOf s d) k).shadow.rows) ∧
    (∃ t, exec (.degrClear g) s = .next (t) ∧ (stallAt t g).failedMacros = 0 ∧ (stallAt t g).partners = [] ∧ (stableAt t (g / 2)).arrayFailed = false) ∧
    (s.rel.repair = 0 → fld (BitVec.ofNat 64 v) 6 8 < 192 → ∃ t, exec (.repairRequest v) s = .next (t) ∧ t.rel.repair = 1 ∧ fld t.rel.target 0 6 = fld (BitVec.ofNat 64 v) 0 6 ∧ fld t.rel.target 6 8 = fld (BitVec.ofNat 64 v) 6 8 ∧
      fld t.rel.target 14 16 = fld (BitVec.ofNat 64 v) 14 16 ∧ (stableAt t (fld (BitVec.ofNat 64 v) 6 8 / 2)).draining = true) ∧
    (s.rel.repair = 0 → 192 ≤ fld (BitVec.ofNat 64 v) 6 8 → ∃ t, exec (.repairRequest v) s = .next (t) ∧ t.rel.repair = 1 ∧ fld t.rel.target 6 8 = 191 ∧ (stableAt t 95).draining = true) ∧
    (s.rel.repair ≠ 0 → exec (.repairRequest v) s = .next (s)) ∧
    (let struct := fld s.rel.target 0 6
      let h := fld s.rel.target 6 8
      let row := fld s.rel.target 14 16
      let resumed := fun (t : State) => ∀ d ∈ stableCtxs (h / 2), (ctxOf t d).frozen = (swapFrozen s d && (ctxOf s d).frozen)
      (s.rel.repair = 1 → (∀ d ∈ stableCtxs (h / 2), atRest (ctxOf s d) = true) → exec (.repairCopy) s = .next (modRel s (fun r => { r with repair := 2 }))) ∧
      (s.rel.repair = 1 → (∃ d ∈ stableCtxs (h / 2), atRest (ctxOf s d) = false) → exec (.repairCopy) s = .next (s)) ∧
      (s.rel.repair = 2 → (∀ i, freeSpare s struct h row = some i → ∃ t, exec (.repairCopy) s = .next (t) ∧ t.rel.repair = 3 ∧
          mget (stallAt t (remapStall struct h)).remap i.2 0 = BitVec.ofNat 32 (2 ^ 31 + row * 2 ^ 12 + i.1)) ∧
        (freeSpare s struct h row = none → ∃ t, exec (.repairCopy) s = .next (t) ∧ t.rel.repair = 0 ∧ t.rel.noSpare = true ∧ (stableAt t (h / 2)).failed = true ∧ resumed t)) ∧
      (s.rel.repair = 3 → ∃ t, exec (.repairCopy) s = .next (t) ∧ t.rel.repair = 0 ∧ (stableAt t (h / 2)).draining = false ∧ resumed t)) ∧
    (x.status = .rewound → x.rewind = 1 → rewindQuiet s c = true →
      (∀ n, damagedLog s c = none → overrun x = false → x.snap = some n →
        ∃ t, exec (.rewindRestore c) s = .next (t) ∧ (ctxOf t c).pc = n.pc ∧ (ctxOf t c).ccycle = n.ccycle ∧ (ctxOf t c).loops = n.loops ∧ (ctxOf t c).sregs = n.sregs ∧
          (ctxOf t c).pregs = n.pregs ∧ (ctxOf t c).nregs = n.nregs ∧ (ctxOf t c).mode = n.mode ∧ (ctxOf t c).fflags = n.fflags ∧ (ctxOf t c).cov = n.cov ∧
          (ctxOf t c).undo = [] ∧ (ctxOf t c).charge = 0 ∧ (ctxOf t c).restores = 15 + (x.charge + 255) / 256) ∧
      (damagedLog s c ≠ none ∨ overrun x = true → exec (.rewindRestore c) s = .next (exhaustRewind (findBad s (fun m => (m.struct == 5 || m.struct == 6) && m.owner == c) true) c))) ∧
    (x.status = .rewound → x.rewind ≠ 1 →
      (1 < x.restores → exec (.rewindRestore c) s = .next (modCtx s c (fun x => { x with restores := x.restores - 1 }))) ∧
      (x.restores ≤ 1 → ∃ t, exec (.rewindRestore c) s = .next (t) ∧ ctxOf t c = { x with status := .running, rewind := 3, restores := 0, consumed := none, seenYard := yardNow s c } ∧
        ((stableAt s (stableOf c)).jobs = [] → ∀ n, x.snap = some n → (stableAt t (stableOf c)).jobs.map (·.id) = n.jobs.map (·.id)))) ∧
    (retries ≤ 8 → exec (.linkCrcError 0x10 y retries) s = .next (corrected s (y, 0, 0, 0) 0x10 0 0xFFF 0 0)) ∧
    (8 < retries → (yardAt s y).status = .running → exec (.linkCrcError 0x10 y retries) s = .next (loseYard s y 1)) ∧
    (∀ k o rep w, mfind s.rel.captures g = some k → k.sig = some o → k.ended = some (rep, w) → ∃ t, exec (.auditVerdict g rep w.toNat) s = .next (t) ∧
      (k.runs = [] → w = o → mfind t.rel.captures g = none ∧ t.stalls = s.stalls) ∧
      (k.runs = [] → w ≠ o → mfind t.rel.captures g = some { k with ended := none, runs := [(rep, w)] } ∧ t.stalls = s.stalls) ∧
      (∀ r rest, k.runs = r :: rest → mfind t.rel.captures g = none ∧ (w = o → (stallAt t r.1).suspect = true) ∧ (w ≠ o → (stallAt t g).suspect = true) ∧
        (w ≠ o → w ≠ r.2 → (stallAt t r.1).suspect = true ∧ (stallAt t rep).suspect = true)))

/-- With a job in hand that has not been carried out and no region in the way, its operation runs with the result code of R340: reserved
fields set give 6; else, for a resident or dead tile, its damaged words read (log 142): compacting a requantisable tile of encoding 0
without non-finite elements writes the compact frame and the entry with encoding 1, a dead tile as zeros; expanding a compact tile writes
its values, or a dead one's zeros, at a new frame with encoding 0; a move copies the frame's bytes; each keeps the tile's state. An
unpinned tile becomes absent and a pinned one gives 1; an absent or lost tile becomes resident. A tile in another state or encoding gives
2, then one not requantisable 4, a misaligned frame 5 and a non-finite element 3: this order of the codes, and that a field b is not looked
at outside compact, are the model's reading (log 79). The job's end puts the code in csr.rqjob's result, frees the job and sets event 2.
(R340, R341, R342, R343, R409) -/
def Obligations.RequantJobsComplete : Prop :=
  ∀ (s : State) (r : Nat),
    let op := devLe s (r + 12) 1
    let table := devLe s r 8
    let i := devLe s (r + 8) 4
    let a := devLe s (r + 16) 8
    let b := devLe s (r + 24) 8
    let t := jobTensor s table i
    let st := tileState s t i
    let w0 := entryWord s t.table i 0
    let w1 := entryWord s t.table i 1
    let live := st = 1 ∨ st = 2
    let done (u : State) (code : Nat) : State := { u with rqDone := some code, fresh := u.fresh + 1 }
    let ins := fun n => match n with | 1 => Instr.rqCompact | 2 => .rqExpand | 3 => .rqMove | 4 => .rqMakeAbsent | _ => .rqMakeResident
    (s.rqJob = some r → s.rqDone = none → s.cxl.regions = [] → 1 ≤ op → op ≤ 5 →
      (devLe s (r + 13) 3 ≠ 0 → exec (ins op) s = .next { s with rqDone := some 6 }) ∧
      (devLe s (r + 13) 3 = 0 →
      (op = 1 → live → entEnc w0 = 0 → requantisable s t.table = true → a % 2048 = 0 → b % 32768 = 0 →
        (tileElems s t i).any (fun x => notFinite (decodeElem t.fmt x.toNat)) = false →
        exec .rqCompact s = .next (let u := readSource s t i 1
          let v := writeCompact u t.fmt b a (tileElems s t i)
          done (tileRecord (writeEntry (if st = 2 then v else poisonBlocks u v (plainBlock (entFrame w0)) (packedBlock b a)) t.table i st 1 b a) 2 table i 1 0) 0)) ∧
      (st = 2 → tileElems s t i = List.replicate 65536 0) ∧
      (op = 1 → live → entEnc w0 = 0 → (requantisable s t.table = false → exec .rqCompact s = .next (done (readSource s t i 1) 4)) ∧
        (requantisable s t.table = true → a % 2048 ≠ 0 ∨ b % 32768 ≠ 0 → exec .rqCompact s = .next (done (readSource s t i 1) 5)) ∧
        (requantisable s t.table = true → a % 2048 = 0 → b % 32768 = 0 → (tileElems s t i).any (fun x => notFinite (decodeElem t.fmt x.toNat)) = true → exec .rqCompact s = .next (done (readSource s t i 1) 3))) ∧
      (op = 2 → live → entEnc w0 = 1 → (a % 65536 = 0 →
        exec .rqExpand s = .next (let u := readSource s t i 2
          let v := devPut u a (if st = 2 then List.replicate 65536 0 else compactRead s t.fmt (entFrame w0) (entScales w1) 0 65536)
          done (tileRecord (writeEntry (if st = 2 then v else poisonBlocks u v (packedBlock (entFrame w0) (entScales w1)) (plainBlock a)) t.table i st 0 a 0) 3 table i 2 0) 0)) ∧
        (a % 65536 ≠ 0 → exec .rqExpand s = .next (done (readSource s t i 2) 5))) ∧
      (op = 3 → live → (a % (if entEnc w0 = 1 then 32768 else 65536) = 0 → let n := frameBytes t w0 w1
        exec .rqMove s = .next (let v := memWrite (readSource s t i 3) t a (memRead s t (entFrame w0) n) (List.replicate n 255)
          done (writeEntry (if t.kind = 2 then copyMarks v 0x19 (entFrame w0) a n else copyMarks v 0x18 (devAddr (entFrame w0)) (devAddr a) n) t.table i st (entEnc w0) a (entScales w1)) 0)) ∧
        (a % (if entEnc w0 = 1 then 32768 else 65536) ≠ 0 → exec .rqMove s = .next (done (readSource s t i 3) 5))) ∧
      ((op = 1 ∧ entEnc w0 ≠ 0 ∨ op = 2 ∧ entEnc w0 ≠ 1) → live → exec (ins op) s = .next (done (readSource s t i op) 2)) ∧
      (op = 4 → st ≠ 0 → entPins w0 = 0 → exec .rqMakeAbsent s = .next (done (putEntry s t.table i (setField w0 0 2 0) w1) 0)) ∧
      (op = 4 → st ≠ 0 → entPins w0 ≠ 0 → exec .rqMakeAbsent s = .next (done s 1)) ∧
      (op = 5 → st = 0 ∨ st = 3 → a % 65536 = 0 → exec .rqMakeResident s = .next (done (writeEntry s t.table i 1 0 a 0) 0)) ∧
      ((op = 1 ∨ op = 2 ∨ op = 3) ∧ (st = 0 ∨ st = 3) ∨ op = 4 ∧ st = 0 ∨ op = 5 ∧ (st = 1 ∨ st = 2) → exec (ins op) s = .next (done s 2)))) ∧
    (∀ code, s.rqJob = some r → s.rqDone = some code → exec .rqJobEnd s = .next (postEvent { s with rqJob := none, rqDone := none, rqResult := code } 2))

/-- With no region in the way, an idle unit with a token element takes the head: its slots accept their tokens and give their records, W is
cleared and the next snapshot begins. A record goes to the ring at the place of its number modulo the room, the produced count in memory
rises after it, and a full ring holds it back. A commit copy goes to the tail of its FIFO where that has room. (R359, R363, R365, R366,
R367, R368) -/
def Obligations.SequenceUnitSteps : Prop :=
  ∀ (s : State) (l reads : Nat) (g : GenUnit),
    let n := launchAt s l
    n.gen = some g →
    (∀ v r, g.tokens = v :: r → genIdle g = true → s.cxl.regions = [] → ∃ t h, exec (.tokenElementAccept l 0) s = .next (t) ∧ (launchAt t l).gen = some h ∧ h.tokens = r ∧ h.n = g.n + 1 ∧ h.w = 0 ∧ h.reading = some 0 ∧
      h.slots = (acceptSlots s n.desc g v).map (·.1) ∧ h.records = (acceptSlots s n.desc g v).flatMap (·.2)) ∧
    (g.records ≠ [] → (g.tokens = [] ∨ genIdle g = false) → exec (.tokenElementAccept l reads) s = .next (s)) ∧
    (∀ b r, g.records = b :: r → s.cxl.regions = [] →
      ((g.produced : Int) - devLe s (gBatch n.desc + 64) 8 < gRoom n.desc →
        exec (.ringRecordWrite l) s = .next (modLaunch (devPut (devPut s (gRing n.desc + 16 * (g.produced % gRoom n.desc)) b) (gBatch n.desc + 8) (leBytes 8 (g.produced + 1))) l
          (fun n => { n with gen := some { g with records := r, produced := g.produced + 1 } }))) ∧
      (¬ (g.produced : Int) - devLe s (gBatch n.desc + 64) 8 < gRoom n.desc → exec (.ringRecordWrite l) s = .next (s))) ∧
    (∀ i v, g.records = [] → g.reading = none → g.commits = [(i, v)] → (mget n.fifoData i []).length < 64 →
      ∃ t, exec (.commitElementDelivery l) s = .next (t) ∧ mget (launchAt t l).fifoData i [] = mget n.fifoData i [] ++ [v] ∧ (launchAt t l).gen = some { g with commits := [] } ∧
        mget (launchAt t l).pushed i 0 = mget n.pushed i 0 + 1)

/-- csr.fbfree frees the oldest entry, and the first held fault is delivered. csr.svpost posts a request, its code at least 1 and its Stall
clamped to 191, or serves at once a halted context or one held on 0x09 or 0x10 whose fault has its entry (log 56). A csr.cmdbase write with
the link up opens the queues, the low bits of its base dropped (log 52), with every expected sequence 1; any other is ignored. A 1 written
to csr.evpend clears that event and no other; a 1 to the overflow bit of csr.fbstat clears it and the held total; a 1 to a suspect bit
clears it. csr.rtent installs a well-formed entry that, where valid, overlaps no other valid entry, the command region or the service
reserve, or changes nothing. csr.svdata writes the served word and steps the offset by 8. csr.measext extends its register by SHA-256,
never M0 or M1 (log 127). csr.htreg starts a registration unless one runs, and its end extends the register with the tree's root and
registers the table, or only leaves its code, with event 2. csr.svoff takes an offset that is a multiple of 8, and a CSR with clamped
fields takes the clamped word, csr.errlog with its log inside the reserve (log 52, 53). (R346, R354, R355, R393, R409, R411, R412, R416,
R422) -/
def Obligations.PrivilegedWritesComplete : Prop :=
  ∀ (s : State) (c v n addr : Nat),
    let w := BitVec.ofNat 64 v
    let apart (a n b m : Nat) : Prop := a + n ≤ b ∨ b + m ≤ a
    let d := min 191 (fld w 0 8) * 4 + (if bit w 8 then 2 else 0)
    (s.heldFaults = [] → exec (.freeFaultEntry) s = .next ({ s with fbuf := s.fbuf.drop 1 })) ∧
    (∀ f, firstHeld s.heldFaults = some f → exec (.freeFaultEntry) s = .next (let u := { s with fbuf := s.fbuf.drop 1, heldFaults := s.heldFaults.filter (fun g => g != f) }
      dueFault (if ownFault u f then modCtx u f.ctx (fun x => { x with waited := 0 }) else u) { f with mc := s.mcycle })) ∧
    ((ctxOf s d).status = .running → exec (.firmwareRequestPost v) s = .next (modCtx s d (fun x => { x with request := max 1 (fld w 16 8) }))) ∧
    ((ctxOf s d).status = .held 0x09 ∨ (ctxOf s d).status = .held 0x10 ∨ (ctxOf s d).status = .halted → (ctxOf s d).inSvc = false → heldFor s d = false →
      exec (.firmwareRequestPost v) s = .next (enterService (modCtx (modCtx s d (fun x => { x with request := max 1 (fld w 16 8) })) d (fun x => { x with request := 0 })) d 0x02 0 (max 1 (fld w 16 8)))) ∧
    (s.sec.boot = .linked → ∃ t, exec (.openQueues v) s = .next (t) ∧ t.sec.boot = .opened ∧ ioCsr t 0x811 = BitVec.ofNat 64 (w.toNat / 524288 * 524288) ∧ ∀ q < 16, mget t.expected q 0 = 1) ∧
    (s.sec.boot ≠ .linked → exec (.openQueues v) s = .next (s)) ∧
    (∃ t, exec (.eventClear v) s = .next (t) ∧ ∀ i < 64, bit (ioCsr t 0x8C0) i = (bit (ioCsr s 0x8C0) i && !bit w i)) ∧
    exec (.fbstatOverflowClear v) s = .next (if bit w 63 then { s with fbOverflow := false, heldTotal := 0 } else s) ∧
    (∃ t, exec (.suspectClear n v) s = .next (t) ∧ ∀ i < 64, (stallAt t (64 * (n % 3) + i)).suspect = ((stallAt s (64 * (n % 3) + i)).suspect && !bit w i)) ∧
    (fld w 52 12 = 0 → fld w 6 2 = 0 → fld w 8 4 ≤ 9 → regBase w % regSize w = 0 →
      (regValid w = true → (∀ e ∈ s.cxl.regions, e.1 ≠ fld (ioCsr s 0x850) 0 13 → regValid e.2 = true → apart (regBase w) (regSize w) (regBase e.2) (regSize e.2)) ∧
        (s.sec.boot = .opened → apart (regBase w) (regSize w) (ioCsr s 0x811).toNat 524288) ∧
        apart (regBase w) (regSize w) (2 ^ 39 - fld (ioCsr s 0x813) 0 5 * 2 ^ 30) (fld (ioCsr s 0x813) 0 5 * 2 ^ 30)) →
      exec (.regionEntryWrite v) s = .next (modCxl s (fun x => { x with regions := mset x.regions (fld (ioCsr s 0x850) 0 13) w 0 }))) ∧
    (regBase w % regSize w ≠ 0 → exec (.regionEntryWrite v) s = .next (s)) ∧
    ((∃ e ∈ s.cxl.regions, e.1 ≠ fld (ioCsr s 0x850) 0 13 ∧ regValid e.2 = true ∧ ¬ apart (regBase w) (regSize w) (regBase e.2) (regSize e.2)) → regValid w = true → exec (.regionEntryWrite v) s = .next (s)) ∧
    (∃ t, exec (.svdataAccess c true v) s = .next (t) ∧ mget (stallAt t (stallOf c)).svoff (slotOf c) 0 = (mget (stallAt s (stallOf c)).svoff (slotOf c) 0 + 8) % 2 ^ 21 ∧
      ctxOf t (served c) = putBlockWord (ctxOf s (served c)) (mget (stallAt s (stallOf c)).svoff (slotOf c) 0) w) ∧
    (∃ t, exec (.svdataAccess c false v) s = .next (t) ∧ mget (stallAt t (stallOf c)).svoff (slotOf c) 0 = (mget (stallAt s (stallOf c)).svoff (slotOf c) 0 + 8) % 2 ^ 21 ∧ t.ctxs = s.ctxs) ∧
    (∃ t, exec (.measurementExtend v) s = .next (t) ∧ mget t.sec.meas 0 0 = mget s.sec.meas 0 0 ∧ mget t.sec.meas 1 0 = mget s.sec.meas 1 0 ∧ (2 ≤ fld w 0 3 → mget t.sec.meas (fld w 0 3) 0 =
      BitVec.ofNat 256 (leNat (sha256 (measBytes s (fld w 0 3) ++ devRead s (fld w 5 59 * 32) 32))))) ∧
    (s.sec.job = none → exec (.hashRegistration addr) s = .next (modSec s (fun c => { c with job := some addr }))) ∧
    (∀ a, s.sec.job = some a → ∃ t, exec (.registrationEnd) s = .next (t) ∧ t.sec.job = none ∧ t.sec.result = registrationCode s a ∧ bit (ioCsr t 0x8C0) 2 = true ∧
      (registrationCode s a ≠ 0 → t.sec.meas = s.sec.meas ∧ t.sec.trees = s.sec.trees) ∧
      (registrationCode s a = 0 → let n := devLe s (a + 16) 4
        mget t.sec.meas (devLe s (a + 20) 1) 0 = BitVec.ofNat 256 (leNat (sha256 (measBytes s (devLe s (a + 20) 1) ++
          treeRoot (n + 1) ((List.range n).map (fun i => devRead s (devLe s (a + 8) 8 + 32 * i) 32))))) ∧ t.sec.trees.any (fun x => x.table == devLe s a 8))) ∧
    (∃ t, exec (.privCsrWrite c 0x800 v) s = .next (t) ∧ mget (stallAt t (stallOf c)).svoff (slotOf c) 0 = fld w 3 18 * 8) ∧
    (∃ t, exec (.privCsrWrite c 0x812 v) s = .next (t) ∧ (0 < fld (ioCsr s 0x813) 0 5 → fld (ioCsr s 0x813) 0 5 ≤ 16 → let e := ioCsr t 0x812
      let n := fld e 0 16
      let a := fld e 16 48 * 65536
      1024 ≤ n ∧ n ≤ 32768 ∧ (∃ k, n = 2 ^ k) ∧ 2 ^ 39 - fld (ioCsr s 0x813) 0 5 * 2 ^ 30 ≤ a ∧ a + 32 * n ≤ 2 ^ 39 ∧
      (∀ k, fld w 0 16 = 2 ^ k → 10 ≤ k → k ≤ 15 → n = 2 ^ k ∧ (2 ^ 39 - fld (ioCsr s 0x813) 0 5 * 2 ^ 30 ≤ fld w 16 48 * 65536 → fld w 16 48 * 65536 + 32 * n ≤ 2 ^ 39 → a = fld w 16 48 * 65536)))) ∧
    (∀ k, (k = 0x828 ∨ k = 0x830 ∨ k = 0x831 ∨ k = 0x832 ∨ k = 0x833 ∨ k = 0x850 ∨ k = 0x852 ∨ k = 0x858 ∨ k = 0x871 ∨ k = 0x872 ∨ k = 0x8C1) →
      exec (.privCsrWrite c k v) s = .next (setIo s k (clampCsr k w)))

/-- Module reset puts everything at its reset value but the flash, the security-version fuse and the records in flash. Trained memory is
zero and the image is verified next; a training failure leaves recovery with its record. Verification takes slot A where it verifies with a
version not below B's, else B, extends M0 by the image's and M1 by its configuration section's hash, and leaves recovery where neither
verifies. After the self-tests the service stores hold the image's section, the state is loaded, and where no site failed each Yard runs at
cycle 0 on its mapped site. (R410, R412, R413, R414, R416, R425, R426) -/
def Obligations.BringUpComplete : Prop :=
  ∀ (s : State) (sub : Nat),
    (∃ t, exec (.moduleReset) s = .next (t) ∧ t.ctxs = State.reset.ctxs ∧ t.iocsr = State.reset.iocsr ∧ t.dev = State.reset.dev ∧ t.launches = [] ∧ t.mcycle = 0 ∧ t.fbuf = [] ∧
      t.sec.boot = State.reset.sec.boot ∧ t.sec.meas = State.reset.sec.meas ∧ t.sec.flash = s.sec.flash ∧ t.sec.svnFuse = s.sec.svnFuse ∧ t.sec.records = s.sec.records) ∧
    (s.sec.boot = .memory → ∃ t, exec (.memoryTrained) s = .next (t) ∧ t.dev = [] ∧ t.sec.boot = .verify ∧ t.sec.meas = s.sec.meas) ∧
    (s.sec.boot = .memory → ∃ t r, exec (.trainingFailure sub) s = .next (t) ∧ t.sec.boot = .recovery ∧ t.sec.records = s.sec.records ++ [r]) ∧
    (s.sec.boot = .verify → bootSlot s = none → exec (.imageVerify) s = .next (modSec s (fun c => { c with boot := .recovery }))) ∧
    (∀ k, s.sec.boot = .verify → bootSlot s = some k → ∃ t, exec (.imageVerify) s = .next (t) ∧ t.sec.boot = .yards ∧ t.sec.slot = k ∧ t.sec.svn = slotLe s k 4 2 ∧ t.sec.svnFuse = s.sec.svnFuse ∧
      mget t.sec.meas 0 0 = BitVec.ofNat 256 (leNat (sha256 (measBytes s 0 ++ sha256 (slotImage s k)))) ∧
      mget t.sec.meas 1 0 = BitVec.ofNat 256 (leNat (sha256 (measBytes s 1 ++ sha256 (sectionOf s k 2))))) ∧
    (bootSlot s = some 0 ↔ slotVerifies s 0 = true ∧ (slotVerifies s 1 = true → slotLe s 1 4 2 ≤ slotLe s 0 4 2)) ∧
    (s.sec.boot = .yards → ∃ t, exec (.bringupSelfTestDone 0) s = .next (t) ∧ t.sec.boot = .loaded ∧ t.sstore = (loadServiceStores s).sstore ∧
      ∀ y < 6, (yardAt t y).status = .running ∧ (yardAt t y).ycycle = 0 ∧ (yardAt t y).site = mappedSite s y)

/-- Where the mailbox can be reached, no quote is being formed and the module is not in recovery: each vendor command with the payload
length of R419 and legal arguments completes with code 0 and its output (a quote when the module cycle ends, the certificate where it can
be read, an image chunk written in the spare slot, a commit of a slot that verifies, the security version advanced to the running one,
error-log entries, a hang record, lost-line entries, zeros where there are none); a wrong length, a payload of certificate or commit that
is not empty, an error log not yet placed, or illegal arguments, give Invalid Input. A standard command gets its answer, and an unknown
vendor opcode Unsupported, with csr.mblast and event 3 like any other vendor command (log 89). In recovery only quote, certificate, chunk
and commit are taken, and a commit that verifies resets the module. Where it cannot be reached nothing happens. The answers of standard
commands, the certificate's length and readability, and what fills svn and build in a quote are free values (log 22, 25); the mailbox's
registers, its doorbell and its interrupt enable are the standard's (log 135). (R409, R413, R414, R415, R417, R418, R419, R425) -/
def Obligations.MailboxCommandsComplete : Prop :=
  ∀ (s : State) (data : List Byte) (opcode : Nat),
    (mailboxOpen s = true → s.sec.boot ≠ .recovery →
      (data.length = 32 → exec (.quote data) s = .next (modSec (ringDoorbell s 0xC100 data) (fun c => { c with quote := some data }))) ∧
      (8 ≤ data.length ∧ data.length = 8 + leNat ((data.drop 4).take 4) → leNat (data.take 4) % 8 = 0 ∧ leNat ((data.drop 4).take 4) % 8 = 0 ∧ 8 ≤ leNat ((data.drop 4).take 4) ∧ leNat ((data.drop 4).take 4) ≤ 65528 ∧ leNat (data.take 4) + leNat ((data.drop 4).take 4) ≤ 0x1FF0000 → exec (.writeImageChunk data) s = .next (mailboxDone (modSec (ringDoorbell s 0xC110 data) (fun c => { c with flash := writeBytes c.flash (spareSlot s * 0x2000000 + leNat (data.take 4)) (data.drop 8) })) 0xC110 0 [])) ∧
      (data.length = 2 → leNat data = s.sec.svn → exec (.advanceSecurityVersion data) s = .next (mailboxDone (modSec (ringDoorbell s 0xC112 data) (fun c => { c with svnFuse := max c.svnFuse (leNat data) })) 0xC112 0 [])) ∧
      (data.length = 6 → ioCsr s 0x812 ≠ 0 ∧ leNat (data.drop 4) ≠ 0 ∧ leNat (data.drop 4) ≤ 2048 → exec (.readErrorLog data) s = .next (mailboxDone (ringDoorbell s 0xC120 data) 0xC120 0 ((List.range (leNat (data.drop 4))).flatMap (fun i =>
        let e := devRead s (fld (ioCsr s 0x812) 16 48 * 65536 + 32 * ((leNat (data.take 4) + i) % max 1 (fld (ioCsr s 0x812) 0 16))) 32
        if byteAt e 15 / 16 = 0 then List.replicate 32 0 else e)))) ∧
      (data.length = 1 → leNat data < 16 → exec (.readHangRecord data) s = .next (mailboxDone (ringDoorbell s 0xC121 data) 0xC121 0 (if ioCsr s 0x814 = 0 then List.replicate 4096 0 else devRead s (fld (ioCsr s 0x814) 16 48 * 65536 + 4096 * leNat data) 4096))) ∧
      (data.length = 6 → leNat (data.drop 4) ≠ 0 ∧ leNat (data.drop 4) ≤ 4094 → exec (.readLostLineRing data) s = .next (mailboxDone (ringDoorbell s 0xC122 data) 0xC122 0 (leBytes 8 (ioCsr s 0x816).toNat ++ leBytes 8 (ioCsr s 0x817).toNat ++
        (List.range (leNat (data.drop 4))).flatMap (fun i =>
          if ioCsr s 0x815 = 0 then List.replicate 16 0 else devRead s (fld (ioCsr s 0x815) 16 48 * 65536 + 16 * ((leNat (data.take 4) + i) % 4096)) 16)))) ∧
      (¬ (data.length = 32) → exec (.quote data) s = .next (mailboxDone (ringDoorbell s 0xC100 data) 0xC100 2 [])) ∧
      (¬ (8 ≤ data.length ∧ data.length = 8 + leNat ((data.drop 4).take 4)) → exec (.writeImageChunk data) s = .next (mailboxDone (ringDoorbell s 0xC110 data) 0xC110 2 [])) ∧
      (¬ (data.length = 2) → exec (.advanceSecurityVersion data) s = .next (mailboxDone (ringDoorbell s 0xC112 data) 0xC112 2 [])) ∧
      (¬ (data.length = 6) → exec (.readErrorLog data) s = .next (mailboxDone (ringDoorbell s 0xC120 data) 0xC120 2 [])) ∧
      (¬ (data.length = 1) → exec (.readHangRecord data) s = .next (mailboxDone (ringDoorbell s 0xC121 data) 0xC121 2 [])) ∧
      (¬ (data.length = 6) → exec (.readLostLineRing data) s = .next (mailboxDone (ringDoorbell s 0xC122 data) 0xC122 2 [])) ∧
      (¬ (leNat (data.take 4) % 8 = 0 ∧ leNat ((data.drop 4).take 4) % 8 = 0 ∧ 8 ≤ leNat ((data.drop 4).take 4) ∧ leNat ((data.drop 4).take 4) ≤ 65528 ∧ leNat (data.take 4) + leNat ((data.drop 4).take 4) ≤ 0x1FF0000) → 8 ≤ data.length ∧ data.length = 8 + leNat ((data.drop 4).take 4) → exec (.writeImageChunk data) s = .next (mailboxDone (ringDoorbell s 0xC110 data) 0xC110 2 [])) ∧
      (leNat data ≠ s.sec.svn → data.length = 2 → exec (.advanceSecurityVersion data) s = .next (mailboxDone (ringDoorbell s 0xC112 data) 0xC112 2 [])) ∧
      (exec (.certificate []) s = .next (if Sys2Proof.Config.certReadable then mailboxDone (ringDoorbell s 0xC101 []) 0xC101 0 (readBytes s.sec.flash 0x3FF0000 (Sys2Proof.Config.certLength % 65537)) else mailboxDone (ringDoorbell s 0xC101 []) 0xC101 4 [])) ∧
      (data ≠ [] → exec (.certificate data) s = .next (mailboxDone (ringDoorbell s 0xC101 data) 0xC101 2 []) ∧ exec (.commitImage data) s = .next (mailboxDone (ringDoorbell s 0xC111 data) 0xC111 2 [])) ∧
      (data.length = 6 → ioCsr s 0x812 = 0 ∨ leNat (data.drop 4) = 0 ∨ 2048 < leNat (data.drop 4) → exec (.readErrorLog data) s = .next (mailboxDone (ringDoorbell s 0xC120 data) 0xC120 2 [])) ∧
      (slotVerifies s (spareSlot s) = true → exec (.commitImage []) s = .next (mailboxDone (ringDoorbell s 0xC111 []) 0xC111 0 (slotBytes s (spareSlot s) 4 2))) ∧
      (slotVerifies s (spareSlot s) = false → exec (.commitImage []) s = .next (mailboxDone (ringDoorbell s 0xC111 []) 0xC111 2 [])) ∧
      (opcode < 0xC000 → Sys2Proof.Config.standardOpcode opcode = true →
        exec (.mailboxStandardCommand opcode data) s = .next (mailboxDone (ringDoorbell s opcode data) opcode (Sys2Proof.Config.standardAnswer opcode data).1 (Sys2Proof.Config.standardAnswer opcode data).2)) ∧
      (0xC000 ≤ opcode → opcode ∉ vendorOpcodes → exec (.mailboxUnsupported opcode) s = .next (mailboxDone (ringDoorbell s opcode []) opcode 3 []))) ∧
    (s.sec.boot = .recovery → s.sec.quote = none → (opcode ∉ [0xC100, 0xC101, 0xC110, 0xC111] → exec (.mailboxUnsupported opcode) s = .next (mailboxDone (ringDoorbell s opcode []) opcode 3 [])) ∧
      (slotVerifies s (spareSlot s) = true → exec (.commitImage []) s = .next (moduleReset (mailboxDone (ringDoorbell s 0xC111 []) 0xC111 0 (slotBytes s (spareSlot s) 4 2)))) ∧ exec (.readHangRecord data) s = .next (mailboxDone (ringDoorbell s 0xC121 data) 0xC121 3 [])) ∧
    (mailboxOpen s = false → exec (.quote data) s = .next (s) ∧
      exec (.certificate data) s = .next (s) ∧
      exec (.writeImageChunk data) s = .next (s) ∧
      exec (.commitImage data) s = .next (s) ∧
      exec (.advanceSecurityVersion data) s = .next (s) ∧
      exec (.readErrorLog data) s = .next (s) ∧
      exec (.readHangRecord data) s = .next (s) ∧
      exec (.readLostLineRing data) s = .next (s) ∧
      exec (.mailboxStandardCommand opcode data) s = .next (s) ∧
      exec (.mailboxUnsupported opcode) s = .next (s)) ∧
    (∀ nonce, s.sec.quote = some nonce → formQuote s = mailboxDone (modSec s (fun c => { c with quote := none })) 0xC100 0 (quoteOf s nonce))

/-- At reset the module cycle counter is 0, no Yard runs, no context is placed, every queue's expected sequence is 1, every token cell is
(0, clear), the hang time-out is 2^24, every resource of the partition registers is primary (24 tiles, 256 scale registers, 32 streams,
every macro, 4,096 bundles, an undo budget of 768 × 64 bytes, 64 units of each bay, every semaphore), the measurement registers are zero,
no region entry is valid, no fault is recorded, and bring-up stands at memory training. (R18, R276, R304, R310, R314, R412, R416, R424,
R425) -/
def Obligations.ResetState : Prop :=
  State.reset.mcycle = 0 ∧
  (∀ n, (yardAt State.reset n).status = .inactive) ∧
  (∀ c, (ctxOf State.reset c).status = .absent) ∧
  (∀ q, mget State.reset.expected q 1 = 1) ∧
  (∀ k, mget State.reset.tokens k 0 = 0) ∧
  2 ^ fld (ioCsr State.reset 0x832) 0 6 = 2 ^ 24 ∧
  (fld (ioCsr State.reset 0x871) 0 5 = 24 ∧ fld (ioCsr State.reset 0x871) 5 9 = 256 ∧ fld (ioCsr State.reset 0x871) 14 6 = 32 ∧ fld (ioCsr State.reset 0x871) 20 8 = 255 ∧
    fld (ioCsr State.reset 0x871) 28 13 = 4096 ∧ fld (ioCsr State.reset 0x871) 41 10 = 768) ∧
  (∀ b < 8, fld (ioCsr State.reset 0x872) (7 * b) 7 = 64) ∧
  ioCsr State.reset 0x873 = BitVec.allOnes 64 ∧
  (∀ i, mget State.reset.sec.meas i 0 = 0) ∧
  (∀ i, regValid (region State.reset i) = false) ∧
  State.reset.fbuf = [] ∧
  State.reset.heldFaults = [] ∧
  State.reset.sec.boot = .memory

/-- The invariant that every step keeps holds at reset: every memory in canonical form, and at most 1,024 fault-buffer entries. (R402,
R424) -/
def Obligations.InvariantAtReset : Prop :=
  State.reset.Inv

/-- From every state that meets the invariant, a step that answers a next state gives one that meets it: the round, the instruction and
service stores, device and host memory and the flash keep their canonical form, so that equal memories are equal data, and the fault buffer
never holds more than its 1,024 entries. (R21, R24, R242, R345, R353, R402, R410, R413) -/
def Obligations.StepKeepsInvariant : Prop :=
  ∀ s t : State, s.Inv → step s = .next t → t.Inv

/-- A step that changes the fuse counter is the step of a waiting ADVANCE_SECURITY_VERSION command with nothing on the agenda; afterwards
the counter stands at the running image's security version, above its earlier value. No instruction, no other event and no step of a Yard
changes it. (R414, R419) -/
def Obligations.FuseOnlyByCommand : Prop :=
  ∀ s t : State, s.Inv → step s = .next t → t.sec.svnFuse ≠ s.sec.svnFuse →
    s.agenda = [] ∧ (∃ d r, s.inbox = .advanceSecurityVersion d :: r) ∧ t.sec.svnFuse = s.sec.svn ∧ s.sec.svnFuse < t.sec.svnFuse

/-- For every instruction that has an encoding and whose fields are legal, in the slot its map names (VA or VB for a vector code, VB only
for one that is not VA-only): the field and extension that the encoder writes decode to an operation that is that instruction, with every
operand. (R74, R100, R104, R105, R106, R107, R108, R109, R110, R111, R112, R114) -/
def Obligations.EncodeDecode : Prop :=
  ∀ (i : Instr) (e : Encoded) (slot : Nat), i.wf = true → encode i = some e →
    ((e.map = .s → slot = 0) ∧ (e.map = .v → slot = 1 ∨ slot = 2 ∧ vaOnlyCode (e.field.extractLsb' 57 7).toNat = false) ∧ (e.map = .m → slot = 3) ∧
      (e.map = .l → slot = 4) ∧ (e.map = .w → slot = 5) ∧ (e.map = .c → slot = 6) ∧ (e.map = .y → slot = 7)) →
    ∃ o, decodeField slot e.field e.ext = .ok o ∧ o.instr = i

/-- The fields that the spec works out bit by bit decode to their instructions: ADDI, LI long, BC with (!p3), LOOP and CSRW in S; VFMA,
VCVT, VRNG.F and TAPP in VA; MMA.I8, MMAZ.E4M3, MXHINT, CLOAD and CMAC in M; LDR and LD in L; PUSH in W; MOVP, SCFG and REDS in C; FENCE
and SEMWAIT in Y. An unassigned code and a set reserved bit are refused. (R116, R117, R127, R161, R171, R185, R209, R218, R221, R223, R238,
R267) -/
def Obligations.DecodeWords : Prop :=
  decodeField 0 0x4000C3000040 0x0 = .ok (.ins (.addi 0 3 3 0 64)) ∧
    decodeField 0 0xA20309ABCDEF 0x48D159E = .ok (.ins (.liLong 0 12 0x0123456789ABCDEF)) ∧
    decodeField 0 0xC53004258012 0x0 = .ok (.ins (.bc 0x13 4 9 3 18)) ∧
    decodeField 0 0xCE0000003002 0x0 = .ok (.ins (.loopImm 0 3 2)) ∧
    decodeField 0 0xE20005000822 0x0 = .ok (.ins (.csrw 0 5 0x822)) ∧
    decodeField 1 0xA0018001001000C 0x0 = .ok (.ins (.vfma 0 48 4 8 12)) ∧
    decodeField 1 0x92025800C2F10000 0x0 = .ok (.ins (.vcvt 0 1200 48 0x17 0x11)) ∧
    decodeField 1 0xB4005028AAC00040 0x0 = .ok (.ins (.vrngF 0 160 20 21 22 2)) ∧
    decodeField 1 0xB8044C8000000000 0x0 = .ok (.ins (.tapp 0 2 1 1600 0)) ∧
    decodeField 3 0x80641010A040338 0x0 = .ok (.ins (.mmaI8 0 200 1 16 5 32 1 9 3 0)) ∧
    decodeField 3 0x5004010008000304 0x0 = .ok (.ins (.mmazE4m3 0 128 1 0 4 0 1 8 0 1)) ∧
    decodeField 3 0x80000000000007D0 0x0 = .ok (.ins (.mxhint 0 2000)) ∧
    decodeField 3 0x900200840E000000 0x0 = .ok (.ins (.cloadRow 0 256 2 16 7)) ∧
    decodeField 3 0xA8010FA0E8000000 0x0 = .ok (.ins (.cmacRow 0 4 2000 3 1 8)) ∧
    decodeField 4 0x10028100248000 0x0 = .ok (.ins (.ldr 0 160 2 4 9)) ∧
    decodeField 4 0x40060A4B000 0x0 = .ok (.ins (.ld 0 256 3 5 600)) ∧
    decodeField 5 0x600ABC000000 0x0 = .ok (.wc (.pushVector 0 2 5600)) ∧
    decodeField 6 0x103020000000 0x0 = .ok (.wc (.movpScalar 0 24 0x10 0)) ∧
    decodeField 6 0x600C87000000 0x0 = .ok (.wc (.scfgScalar 0 3 2 7)) ∧
    decodeField 6 0x300280A20800 0x0 = .ok (.wc (.redsVector 0 160 10 1 0 2)) ∧
    decodeField 7 0x280006 0x0 = .ok (.ins (.fence 0 6)) ∧
    decodeField 7 0x400049 0x0 = .ok (.ins (.semwait 0 1 9)) ∧
    decodeField 7 0xF80000 0 = .error .unassignedOpcode ∧
    decodeField 7 0x000001 0 = .error .reservedBits

/-- When a step fetches a slot of a context and the field of that slot, in the bundle that the context's store holds at its program
counter, decodes to an operation, the step is exec of that instruction, with the running operation set to the context, its slot and program
counter, the bundle's stamp and the context cycle, and everything else as it was; a field that decodes to none raises fault 0x01 at that
slot. With an empty agenda the step is exec of the next waiting event, and with none waiting exec of the Yard cycle. (R72, R74, R94, R268) -/
def Obligations.StepRunsDecoded : Prop :=
  (∀ (s : State) (c slot : Nat) (r : List Work), s.agenda = .fetch c slot :: r →
    (∀ o, slotInstr (bundleAt s c (ctxOf s c).pc) slot = .ok o → step s = exec o.instr (enterSlot { s with agenda := r } c slot)) ∧
    (∀ e, slotInstr (bundleAt s c (ctxOf s c).pc) slot = .error e → step s = .next (faultAt { s with agenda := r } c 1 0 slot)) ∧
    (let u := enterSlot { s with agenda := r } c slot
     me u = ctxOf s c ∧ u.cur.ctx = c ∧ u.cur.slot = slot ∧ u.cur.pc = (ctxOf s c).pc ∧ u.cur.cycle = (ctxOf s c).ccycle ∧
       u.cur.stamp = bStamp (bundleAt s c (ctxOf s c).pc) ∧ u.cur.pool = bPool (bundleAt s c (ctxOf s c).pc) ∧ u = { s with agenda := r, cur := u.cur })) ∧
  (∀ (s : State) (i : Instr) (r : List Instr), s.agenda = [] → s.inbox = i :: r → step s = exec i { s with inbox := r }) ∧
  (∀ s : State, s.agenda = [] → s.inbox = [] → step s = exec .yardCycle s)

/-- For every slot operation of the opcode map and every state in which its predicate, the register the field names XOR its invert bit, is
false: running it leaves the whole machine unchanged, or it raises fault 0x01 or the resource-bound fault 0x02 of the dispatch checks, and
never waits. The predicate field of a decoded operation is never (!p0), and in Y it names p0 to p7 without inversion. (R26, R75, R76, R94) -/
def Obligations.FalsePredicateDoesNothing : Prop :=
  (∀ (s : State) (o : SlotOp), o.enc ≠ none → (preg (me s) (fld o.predField 0 4) != bit o.predField 4) = false →
    runOp exec o s = .next s ∨ ∃ code info, (code = 1 ∨ code = 2) ∧ runOp exec o s = .next (raiseHere s code info)) ∧
  (∀ (slot : Nat) (x ext : BitVec 64) (o : SlotOp), decodeField slot x ext = .ok o → o.predField ≠ 0b10000#5 ∧ (slot = 7 → o.predField.toNat < 8))

/-- NBND issues a write of its register, due at issue + 1, of a<31:0> or of the immediate; when that write lands the register reads that
value and no other register changes; and a LOOP of form LPN whose register reads zero skips its body while one with another value pushes an
entry of that trip count. (R135) -/
def Obligations.LoopBoundsWriteAndRead : Prop :=
  (∀ (s : State) (p : BitVec 5) (a : BitVec 6) (n : BitVec 4) (imm : BitVec 32), predTrue (me s) p = true →
    exec (.nbnd p n a) s = .next (emit s 1 (.nreg n.toNat ((sreg (me s) a.toNat).extractLsb' 0 32))) ∧ exec (.nbndImm p n imm) s = .next (emit s 1 (.nreg n.toNat imm))) ∧
  (∀ (s : State) (c n : Nat) (f : Flight) (v : BitVec 32), f.eff = .nreg n v →
    ∀ d m, nreg (ctxOf (landEff s c f) d) m = if d = c ∧ m = n then v else nreg (ctxOf s d) m) ∧
  (∀ (s : State) (p : BitVec 5) (n : BitVec 4) (len : BitVec 12), checkI s (.loopNbound p n len) = .ok → predTrue (me s) p = true → ∃ t, exec (.loopNbound p n len) s = .next t ∧
    (nreg (me s) n.toNat = 0 → (me t).loops = (me s).loops) ∧
    (nreg (me s) n.toNat ≠ 0 → (me t).loops = { index := 0, trip := nreg (me s) n.toNat, start := s.cur.pc + 1, len := len.toNat } :: (me s).loops))

/-- When a scalar result lands, s0 still reads zero and any other register reads the value; when a predicate lands, p0 still reads true and
any other reads the value; a flag result sets its sticky bits and clears none. No other register, context, memory or part of the machine
changes. (R10, R37, R57, R76, R89) -/
def Obligations.ResultsLandInRegisters : Prop :=
  ∀ (s : State) (c : Nat) (f : Flight),
    let t := landEff s c f
    (∀ n v, f.eff = .sreg n v → (∀ m, sreg (ctxOf t c) m = if m = 0 then 0 else if m = n then v else sreg (ctxOf s c) m) ∧
      ctxOf t c = { ctxOf s c with sregs := (ctxOf t c).sregs } ∧ t = { s with ctxs := t.ctxs } ∧ ∀ d, d ≠ c → ctxOf t d = ctxOf s d) ∧
    (∀ n v, n < 16 → f.eff = .preg n v → (∀ m < 16, preg (ctxOf t c) m = if m = 0 then true else if m = n then v else preg (ctxOf s c) m) ∧
      ctxOf t c = { ctxOf s c with pregs := (ctxOf t c).pregs } ∧ t = { s with ctxs := t.ctxs } ∧ ∀ d, d ≠ c → ctxOf t d = ctxOf s d) ∧
    (∀ g, f.eff = .flags g → ctxOf t c = { ctxOf s c with fflags := (ctxOf s c).fflags ||| g } ∧ t = { s with ctxs := t.ctxs } ∧ ∀ d, d ≠ c → ctxOf t d = ctxOf s d)

/-- Element e of register N is bytes 8e to 8e + 7 of row N in the row direction, cell (e, N mod 64) of tile N div 64 in the column
direction, and cell (e, (e + N mod 64) mod 64) in the diagonal direction. A landing result writes the bytes its mask names of those cells
and no other byte of any row. (R28, R29, R152) -/
def Obligations.VectorViewsReadAndWrite : Prop :=
  ∀ (s : State) (c n d e : Nat), d < 3 → e < 64 →
    let at' := fun k => if d = 0 then (n, k) else (n / 64 * 64 + k, if d = 1 then n % 64 else (k + n % 64) % 64)
    elem 64 (readView (ctxOf s c) n d).toNat e = elem 64 (vrow (ctxOf s c) (at' e).1).toNat (at' e).2 ∧
    ∀ (f : Flight) (v : Row) (m : BitVec 512), f.eff = .row n d v m →
      (∀ b < 8, elem 8 (vrow (ctxOf (landEff s c f) c) (at' e).1).toNat (8 * (at' e).2 + b) =
        if m.getLsbD (8 * e + b) then elem 8 v.toNat (8 * e + b) else elem 8 (vrow (ctxOf s c) (at' e).1).toNat (8 * (at' e).2 + b)) ∧
      (∀ r, ∀ j < 64, (∀ k < 64, at' k ≠ (r, j)) → elem 64 (vrow (ctxOf (landEff s c f) c) r).toNat j = elem 64 (vrow (ctxOf s c) r).toNat j)

/-- When a store's bay write performs, it joins the writes of its Stable for that Yard cycle and no byte of the round changes yet. At the
end of the cycle, with no job or packet there, every byte of the round outside the queued writes reads as before; a byte of one write takes
the new value in its mask's bits; and where two writes with full masks meet, the byte takes the write of the higher slot number, then of
the higher Stall. (R6, R21, R188, R190) -/
def Obligations.RoundStoresWriteTheirBytes : Prop :=
  ∀ (s : State),
    (∀ (c : Nat) (f : Flight) (bay off : Nat) (data mask : List Byte), f.eff = .write bay off data mask →
      (landEff s c f).round = s.round ∧ (stableAt (landEff s c f) (stableOf c)).writes =
        (stableAt s (stableOf c)).writes ++ [{ slot := f.slot, stall := stallOf c, bay := bay, off := off, data := data, mask := mask }]) ∧
    (∀ (sb : Nat) (w : BayWrite), (stableAt s sb).writes = [w] → (stableAt s sb).jobs = [] → (stableAt s sb).packets = [] → w.mask.length = w.data.length →
      ∀ a, mget (closeStable s sb).round a 0 =
        if roundKey sb w.bay w.off ≤ a ∧ a < roundKey sb w.bay w.off + w.data.length then
          (mget s.round a 0 &&& ~~~(nth w.mask (a - roundKey sb w.bay w.off) 0)) ||| (nth w.data (a - roundKey sb w.bay w.off) 0 &&& nth w.mask (a - roundKey sb w.bay w.off) 0)
        else mget s.round a 0) ∧
    (∀ (sb : Nat) (v w : BayWrite), (stableAt s sb).writes = [v, w] ∨ (stableAt s sb).writes = [w, v] → (stableAt s sb).jobs = [] → (stableAt s sb).packets = [] →
      v.mask = fullMask v.data.length → w.mask = fullMask w.data.length → v.stall < 2 ^ 20 → w.stall < 2 ^ 20 → v.slot < w.slot ∨ v.slot = w.slot ∧ v.stall < w.stall →
      ∀ a, mget (closeStable s sb).round a 0 =
        if roundKey sb w.bay w.off ≤ a ∧ a < roundKey sb w.bay w.off + w.data.length then nth w.data (a - roundKey sb w.bay w.off) 0
        else if roundKey sb v.bay v.off ≤ a ∧ a < roundKey sb v.bay v.off + v.data.length then nth v.data (a - roundKey sb v.bay v.off) 0
        else mget s.round a 0)

/-- A context's fault other than a launch refusal that finds a free entry appends its record and detail, which name the code, the global
Stall, the context slot, the bundle index, the slot and the context cycle, and raises event 0; then a fault whose default ends the launch
freezes every context of a running launch and leaves it ending with status 1 and the code; one held for firmware or the launcher (0x07,
0x22, a checksum mismatch 0x09 of a known row, a probe miss 0x10) holds its context and no other, a request already posted for 0x09 or 0x10
being served at once; a tap's fault 0x20 lets its context, what its landings withheld aside, enter its service context with cause 0x20 (log
125); a hang lets its context wait on, and has its record written next, in the slot of the ring that the fault names; a consumed error of a
segment that can rewind freezes its context for the rewind; a service call enters the service context. With a full buffer nothing of that
happens: the fault is held, its context freezes, the flag is set and the count rises, and no launch or other context changes. A replay that
meets a fault is over, and the fault is no one's (log 134). A context that has waited past the time-out holds with fault 0x40, delivered at
the end of the module cycle (log 125); the record that follows goes to its slot of the ring, and event 1 is set. (R276, R277, R331, R332,
R353, R354, R355, R391, R402, R403, R406, R409) -/
def Obligations.FaultsAreTaken : Prop :=
  (∀ (s : State) (g : Raised), g.code ≠ 0x14 → g.entry = none →
    let f := exhausted s g
    let t := takeFault s g
    let l := (ctxOf s f.ctx).launch
    (replaying s g.ctx = true → t = endRun s g.ctx none) ∧
    (replaying s g.ctx = false → s.fbuf.length < 1024 →
      t.fbuf = s.fbuf ++ [⟨recordOf s f, detailOf f⟩] ∧
      bit (ioCsr t 0x8C0) 0 = true ∧
      t.heldFaults = s.heldFaults ∧
      fld (recordOf s f) 116 8 = f.code % 256 ∧
      fld (recordOf s f) 113 3 * 32 + fld (recordOf s f) 106 4 * 2 + fld (recordOf s f) 105 1 = stallOf f.ctx % 256 ∧
      fld (recordOf s f) 104 1 = slotOf f.ctx ∧
      fld (detailOf f) 0 64 = f.cycle % 2 ^ 64 ∧
      fld (detailOf f) 64 16 = f.pc % 2 ^ 16 ∧
      fld (detailOf f) 80 8 = f.slot % 256 ∧
      (endsLaunch f.code = true → (launchAt s l).state = .running →
        (launchAt t l).state = .ending ∧ (launchAt t l).status = 1 ∧ (launchAt t l).fault = f.code ∧ (launchAt t l).faultPc = f.pc ∧ ∀ c ∈ launchHeld s l, (ctxOf t c).status = .ended) ∧
      (f.code = 0x07 ∨ f.code = 0x22 ∨ f.code = 0x10 ∧ (ctxOf s f.ctx).request = 0 → (ctxOf t f.ctx).status = .held f.code ∧ ∀ d, d ≠ f.ctx → ctxOf t d = ctxOf s d) ∧
      (f.code = 0x10 → (ctxOf s f.ctx).request ≠ 0 → (ctxOf t f.ctx).status = .held f.code ∧ (ctxOf t f.ctx).inSvc = true ∧ (ctxOf t f.ctx).request = 0) ∧
      (f.code = 0x40 → t.agenda = .record f.ctx f.info :: s.agenda ∧ t.hangSlot = (f.info + 1) % 16 ∧ (∀ d, d ≠ f.ctx → ctxOf t d = ctxOf s d) ∧
        ctxOf t f.ctx = if (ctxOf s f.ctx).status = .held 0x40 then unhold (ctxOf s f.ctx) else ctxOf s f.ctx) ∧
      (f.code = 0x09 → f.info < 4096 → (ctxOf t f.ctx).status = .held f.code ∧ (ctxOf t f.ctx).inSvc = ((ctxOf s f.ctx).inSvc || (ctxOf s f.ctx).request != 0) ∧ (ctxOf t f.ctx).request = 0 ∧ (ctxOf t f.ctx).missed = some f.info ∧
        ∀ d, d ≠ f.ctx → d ≠ f.ctx + 1 → ctxOf t d = ctxOf s d) ∧
      (f.code = 0x20 → (ctxOf t f.ctx).inSvc = true ∧ (ctxOf t (f.ctx + 1)).status = .running ∧ (ctxOf t (f.ctx + 1)).pc = 0 ∧
        mget (stallAt t (stallOf f.ctx)).svcause (slotOf f.ctx) 0 = 0x20 ∧ ∀ d, d ≠ f.ctx → d ≠ f.ctx + 1 → ctxOf t d = ctxOf s d) ∧
      (f.code = 0x30 → ctxOf t f.ctx = freezeRun f (ctxOf s f.ctx) ∧ ∀ d, d ≠ f.ctx → ctxOf t d = ctxOf s d) ∧
      (f.code = 0x21 → (ctxOf t f.ctx).inSvc = true ∧ (ctxOf t (f.ctx + 1)).status = .running ∧ (ctxOf t (f.ctx + 1)).pc = 0 ∧ ∀ d, d ≠ f.ctx → d ≠ f.ctx + 1 → ctxOf t d = ctxOf s d)) ∧
    (replaying s g.ctx = false → 1024 ≤ s.fbuf.length → t.fbuf = s.fbuf ∧ t.heldFaults = s.heldFaults ++ [f] ∧ t.fbOverflow = true ∧ t.heldTotal = min 65535 (s.heldTotal + 1) ∧
      (ctxOf t f.ctx).status = .held f.code ∧ (∀ d, d ≠ f.ctx → ctxOf t d = ctxOf s d) ∧ t.launches = s.launches ∧ t.agenda = s.agenda)) ∧
  (∀ (s : State) (c n : Nat) (r : List Work),
    let x := ctxOf s c
    (x.wait ≠ .none → 2 ^ fld (ioCsr s 0x832) 0 6 < x.waited → exec (.hangTimeout c) s = .next (postFault s (raisedAt s c 0x40 s.hangSlot (waitSlot s c) x.pc x.ccycle))) ∧
    (s.agenda = .record c n :: r → let u := { s with agenda := r }
      step s = .next (postEvent (devPut u (fld (ioCsr u 0x814) 16 48 * 65536 + 4096 * (n % 16)) (hangRecord u c)) 1)))

/-- Entering the service context of a primary or secondary context marks the served context as served and changes nothing else of it but
the Yard cycle it has seen; csr.svcause takes the cause, the SVC code and the request; the service context runs at bundle 0 of the service
store with empty loops, its own scalars, predicates and loop bounds kept, and its first bundle's base at cycle 1. The return frees the
served context; after a tap trap csr.tapstat and every crossing bit are clear, after any other cause they stand; and a halted context, or
one held on a checksum mismatch or a probe miss, runs on. After a yield bundle a pending crossing holds the context with fault 0x20; else a
request that waits enters the service context with cause 0x02; with neither, and nothing else left to do, the context goes on. A running
context whose deadline has expired has it reloaded and enters the service context with cause 0x01 and the request that waits, if any (log
30). The entry's bundle, depth and base are the model's reading (log 40), and so is that a return lets a held or halted context run on (log
56). (R145, R146, R183, R328, R329, R330, R331, R412) -/
def Obligations.ServiceEntryAndReturn : Prop :=
  ∀ (s : State) (c cause code request : Nat), c % 2 = 0 →
    (let t := enterService s c cause code request
     ctxOf t c = { ctxOf s c with inSvc := true, seenYard := yardNow s c } ∧
     mget (stallAt t (stallOf c)).svcause (slotOf c) 0 = cause + code % 4096 * 256 + request % 256 * 2 ^ 20 ∧
     (ctxOf t (c + 1)).status = .running ∧
     (ctxOf t (c + 1)).pc = 0 ∧
     (ctxOf t (c + 1)).base = 1 ∧
     (ctxOf t (c + 1)).ccycle = 0 ∧
     (ctxOf t (c + 1)).loops = [] ∧
     (ctxOf t (c + 1)).grant.loops = 2 ∧
     (ctxOf t (c + 1)).sregs = (ctxOf s (c + 1)).sregs ∧
     (ctxOf t (c + 1)).pregs = (ctxOf s (c + 1)).pregs ∧
     (ctxOf t (c + 1)).nregs = (ctxOf s (c + 1)).nregs ∧
     (∀ d, d ≠ c → d ≠ c + 1 → ctxOf t d = ctxOf s d) ∧
     t.round = s.round ∧
     t.dev = s.dev) ∧
    (let t := resumeServed s c
     let was := mget (stallAt s (stallOf c)).svcause (slotOf c) 0 % 256
     (ctxOf t c).inSvc = false ∧
     (ctxOf t c).pc = (ctxOf s c).pc ∧
     (ctxOf t c).ccycle = (ctxOf s c).ccycle ∧
     (was = 0x20 → (ctxOf t c).tapstat = 0 ∧ ∀ n, (tapOf (ctxOf t c) n).cross = 0 ∧ (tapOf (ctxOf t c) n).stamp = 0) ∧
     (was ≠ 0x20 → (ctxOf t c).tapstat = (ctxOf s c).tapstat ∧ (ctxOf t c).taps = (ctxOf s c).taps) ∧
     ((ctxOf s c).status = .held 0x09 ∨ (ctxOf s c).status = .held 0x10 ∨ (ctxOf s c).status = .halted → (ctxOf s c).after = .none → (ctxOf t c).status = .running) ∧
     ((ctxOf s c).status = .running → (ctxOf t c).status = .running) ∧
     (∀ d, d ≠ c → ctxOf t d = ctxOf s d)) ∧
    (let x := ctxOf s c
     let u := modCtx s c (fun x => { x with yielded := true })
     (tapPending x = true → exec (.yieldBundle c) s = .next (postFault u (raisedAt u c 0x20 0 7 x.lastPc x.lastIssue))) ∧
     (tapPending x = false → x.request ≠ 0 → exec (.yieldBundle c) s = .next (enterService (modCtx u c (fun x => { x with request := 0 })) c 0x02 0 x.request)) ∧
     (tapPending x = false → x.request = 0 → x.after = .none → ∃ t, exec (.yieldBundle c) s = .next (t) ∧ ctxOf t c = { x with yielded := false } ∧ ∀ d, d ≠ c → ctxOf t d = ctxOf s d) ∧
     (x.status = .running → x.inSvc = false → x.frozen = false → x.expired = true → (stableAt s (stableOf c)).draining = false → exec (.deadlineExpiry c) s = .next (let v := modCtx s c (fun x => { x with expired := false, deadline := classDeadline s c })
      enterService (modCtx v c (fun x => { x with request := 0 })) c 0x01 0 x.request)))

end
end

