-- ==== Sys2Proof/Laws/Bits.lean ====
section
/-!
SUPPORT. Reading a field after writing one (R411): the field written, and every field beside it.
-/

namespace Sys2Proof.Machine

theorem setField_bit {w : Nat} (x : BitVec w) (lo len v i : Nat) (h : i < w) :
    (setField x lo len v).getLsbD i = if lo ≤ i ∧ i < lo + len then v.testBit (i - lo) else x.getLsbD i := by
  unfold setField
  rw [BitVec.getLsbD_or, BitVec.getLsbD_and, BitVec.getLsbD_not, BitVec.getLsbD_ofNat, BitVec.getLsbD_ofNat]
  simp only [h, decide_true, Bool.true_and, Nat.testBit_shiftLeft, Nat.testBit_mod_two_pow, Nat.testBit_two_pow_sub_one]
  by_cases h1 : lo ≤ i
  · by_cases h2 : i < lo + len
    · have h3 : i - lo < len := by omega
      simp [h1, h2, h3]
    · have h3 : ¬ i - lo < len := by omega
      simp [h1, h2, h3]
  · simp [h1]

/-- The field written reads as the value written. -/
theorem fld_setField {w : Nat} (x : BitVec w) {lo len : Nat} (v : Nat) (h : lo + len ≤ w) : fld (setField x lo len v) lo len = v % 2 ^ len := by
  have : (setField x lo len v).extractLsb' lo len = BitVec.ofNat len v := by
    apply BitVec.eq_of_getLsbD_eq
    intro i hi
    rw [BitVec.getLsbD_extractLsb', BitVec.getLsbD_ofNat, setField_bit _ _ _ _ _ (by omega), if_pos (by omega)]
    simp [hi]
  unfold fld; rw [this, BitVec.toNat_ofNat]

/-- A field that shares no bit with the one written is unchanged. -/
theorem fld_setField_ne {w : Nat} (x : BitVec w) {lo len a n : Nat} (v : Nat) (h : a + n ≤ lo ∨ lo + len ≤ a) :
    fld (setField x lo len v) a n = fld x a n := by
  have : (setField x lo len v).extractLsb' a n = x.extractLsb' a n := by
    apply BitVec.eq_of_getLsbD_eq
    intro i hi
    rw [BitVec.getLsbD_extractLsb', BitVec.getLsbD_extractLsb']
    by_cases hw : a + i < w
    · rw [setField_bit _ _ _ _ _ hw, if_neg (by omega)]
    · rw [BitVec.getLsbD_of_ge _ _ (by omega), BitVec.getLsbD_of_ge _ _ (by omega)]
  unfold fld; rw [this]

end Sys2Proof.Machine
end

