-- ==== Sys2Proof/Laws/Memory.lean ====
section
/-!
SUPPORT. The laws of the sparse maps that hold every memory and register file: a read after a write, and the canonical form
that every memory operation keeps.
-/

namespace Sys2Proof.Machine

/-- The value just stored at a key is read back. -/
@[simp] theorem mget_mput_same {α : Type} (m : Map α) (k : Nat) (v d : α) : mget (mput m k v) k d = v := by
  induction m with
  | nil => simp [mput, mget]
  | cons e r ih =>
    obtain ⟨j, u⟩ := e
    unfold mput
    split
    · simp [mget]
    · split
      · simp [mget]
      · simp [mget, *]

/-- Storing at one key leaves every other key as it was. -/
theorem mget_mput_other {α : Type} (m : Map α) (k i : Nat) (v d : α) (h : i ≠ k) : mget (mput m k v) i d = mget m i d := by
  induction m with
  | nil => simp [mput, mget, Ne.symm h]
  | cons e r ih =>
    obtain ⟨j, u⟩ := e
    unfold mput
    split
    · subst_vars; simp [mget, Ne.symm h]
    · split
      · simp [mget, Ne.symm h]
      · simp [mget, ih]

/-- A removed key reads as the default. -/
@[simp] theorem mget_mdel_same {α : Type} (m : Map α) (k : Nat) (d : α) : mget (mdel m k) k d = d := by
  induction m with
  | nil => rfl
  | cons e r ih =>
    obtain ⟨j, u⟩ := e
    unfold mdel at *
    by_cases h : j = k <;> simp [h, mget, ih]

/-- Removing one key leaves every other key as it was. -/
theorem mget_mdel_other {α : Type} (m : Map α) (k i : Nat) (d : α) (h : i ≠ k) : mget (mdel m k) i d = mget m i d := by
  induction m with
  | nil => rfl
  | cons e r ih =>
    obtain ⟨j, u⟩ := e
    unfold mdel at *
    by_cases hj : j = k
    · subst hj; simp [mget, Ne.symm h, ih]
    · simp [hj, mget, ih]

/-- A store that keeps the canonical form is read back. -/
@[simp] theorem mget_mset_same {α : Type} [DecidableEq α] (m : Map α) (k : Nat) (v d : α) : mget (mset m k v d) k d = v := by
  unfold mset
  split
  · subst_vars; simp
  · simp

/-- A store that keeps the canonical form leaves every other key as it was. -/
theorem mget_mset_other {α : Type} [DecidableEq α] (m : Map α) (k i : Nat) (v d : α) (h : i ≠ k) :
    mget (mset m k v d) i d = mget m i d := by
  unfold mset
  split
  · exact mget_mdel_other m k i d h
  · exact mget_mput_other m k i v d h

/-- The canonical form as two facts: keys strictly rising, and no entry equal to the default. -/
theorem mwf_iff {α : Type} [DecidableEq α] (d : α) (m : Map α) :
    mwf d m = true ↔ m.Pairwise (fun a b => a.1 < b.1) ∧ ∀ e ∈ m, e.2 ≠ d := by
  induction m with
  | nil => simp [mwf]
  | cons e r ih =>
    obtain ⟨j, v⟩ := e
    cases r with
    | nil => simp [mwf]
    | cons f r =>
      obtain ⟨k, u⟩ := f
      simp only [mwf, Bool.and_eq_true, bne_iff_ne, ne_eq, decide_eq_true_eq, ih, List.pairwise_cons, List.mem_cons,
        forall_eq_or_imp]
      constructor
      · rintro ⟨⟨hv, hjk⟩, ⟨hk, hr⟩, hu, hd⟩
        exact ⟨⟨⟨hjk, fun a ha => Nat.lt_trans hjk (hk a ha)⟩, hk, hr⟩, hv, hu, hd⟩
      · rintro ⟨⟨⟨hjk, -⟩, hk, hr⟩, hv, hu, hd⟩
        exact ⟨⟨hv, hjk⟩, ⟨hk, hr⟩, hu, hd⟩

/-- A filtered map stays canonical. -/
theorem mwf_filter {α : Type} [DecidableEq α] (d : α) (m : Map α) (p : Nat × α → Bool) (h : mwf d m = true) :
    mwf d (m.filter p) = true := by
  rw [mwf_iff] at *
  exact ⟨h.1.filter p, fun e he => h.2 e (List.mem_filter.1 he).1⟩

/-- The entries of a map after a store are the new one and old ones. -/
theorem mem_mput {α : Type} (m : Map α) (k : Nat) (v : α) (e : Nat × α) (h : e ∈ mput m k v) : e = (k, v) ∨ e ∈ m := by
  induction m with
  | nil => simpa [mput] using h
  | cons f r ih =>
    obtain ⟨j, u⟩ := f
    unfold mput at h
    split at h
    · rcases List.mem_cons.1 h with h | h <;> simp [h]
    · split at h
      · simpa using h
      · rcases List.mem_cons.1 h with h | h
        · simp [h]
        · rcases ih h with h | h <;> simp [h]

/-- Storing a value that is not the default keeps the canonical form. -/
theorem mwf_mput {α : Type} [DecidableEq α] (d : α) (m : Map α) (k : Nat) (v : α) (hv : v ≠ d) (h : mwf d m = true) :
    mwf d (mput m k v) = true := by
  rw [mwf_iff] at *
  refine ⟨?_, fun e he => ?_⟩
  · obtain ⟨h1, -⟩ := h
    induction m with
    | nil => simp [mput]
    | cons f r ih =>
      obtain ⟨j, u⟩ := f
      rw [List.pairwise_cons] at h1
      unfold mput
      split
      · subst_vars; exact List.pairwise_cons.2 h1
      · split
        · rename_i _ hk
          exact List.pairwise_cons.2 ⟨fun a ha => by
            rcases List.mem_cons.1 ha with ha | ha
            · subst ha; exact hk
            · exact Nat.lt_trans hk (h1.1 a ha), List.pairwise_cons.2 h1⟩
        · refine List.pairwise_cons.2 ⟨fun a ha => ?_, ih h1.2⟩
          rcases mem_mput r k v a ha with ha | ha
          · subst ha; show j < k; omega
          · exact h1.1 a ha
  · rcases mem_mput m k v e he with he | he
    · subst he; exact hv
    · exact h.2 e he

/-- A store keeps the canonical form, whatever the value. -/
theorem mwf_mset {α : Type} [DecidableEq α] (d : α) (m : Map α) (k : Nat) (v : α) (h : mwf d m = true) :
    mwf d (mset m k v d) = true := by
  unfold mset
  split
  · exact mwf_filter d m _ h
  · exact mwf_mput d m k v ‹_› h

/-- A byte string stored keeps a memory canonical. -/
theorem wf_writeBytes (m : Map Byte) (a : Nat) (l : List Byte) (h : Memory.wf m = true) : Memory.wf (writeBytes m a l) = true := by
  induction l generalizing m a with
  | nil => exact h
  | cons b l ih => exact ih _ _ (mwf_mset 0 m a b h)

/-- A byte string stored under a mask keeps a memory canonical. -/
theorem wf_writeMasked (m : Map Byte) (a : Nat) (l k : List Byte) (h : Memory.wf m = true) :
    Memory.wf (writeMasked m a l k) = true := by
  induction l generalizing m a k with
  | nil => cases k <;> exact h
  | cons b l ih =>
    cases k with
    | nil => exact h
    | cons x k =>
      unfold writeMasked
      refine ih _ _ _ ?_
      split
      · exact h
      · exact mwf_mset 0 m a _ h

/-- A cleared range keeps a memory canonical. -/
theorem wf_mclear (m : Map Byte) (a n : Nat) (h : Memory.wf m = true) : Memory.wf (mclear m a n) = true := mwf_filter 0 m _ h

/-- The empty memory is canonical. -/
theorem wf_nil : Memory.wf [] = true := rfl

/-- A byte string stored leaves every byte outside it as it was. -/
theorem mget_writeBytes_other (m : Map Byte) (a i : Nat) (l : List Byte) (h : i < a ∨ a + l.length ≤ i) :
    mget (writeBytes m a l) i 0 = mget m i 0 := by
  induction l generalizing m a with
  | nil => rfl
  | cons b l ih =>
    simp only [List.length_cons] at h
    unfold writeBytes
    rw [ih _ _ (by omega), mget_mset_other m a i b 0 (by omega)]

/-- A byte string stored is read back byte by byte. -/
theorem mget_writeBytes_same (m : Map Byte) (a i : Nat) (l : List Byte) (h : i < l.length) :
    mget (writeBytes m a l) (a + i) 0 = l.getD i 0 := by
  induction l generalizing m a i with
  | nil => simp at h
  | cons b l ih =>
    unfold writeBytes
    cases i with
    | zero => rw [mget_writeBytes_other _ _ _ _ (by omega)]; simp
    | succ i =>
      have := ih (mset m a b 0) (a + 1) i (by simpa using h)
      rw [show a + (i + 1) = a + 1 + i by omega, this]; simp

/-- A masked store leaves every byte outside it as it was. -/
theorem mget_writeMasked_other (m : Map Byte) (a i : Nat) (l k : List Byte) (h : i < a ∨ a + l.length ≤ i) :
    mget (writeMasked m a l k) i 0 = mget m i 0 := by
  induction l generalizing m a k with
  | nil => cases k <;> rfl
  | cons b l ih =>
    cases k with
    | nil => rfl
    | cons x k =>
      simp only [List.length_cons] at h
      unfold writeMasked
      rw [ih _ _ _ (by omega)]
      split
      · rfl
      · rw [mget_mset_other m a i _ 0 (by omega)]

/-- A cleared range leaves every byte outside it as it was. -/
theorem mget_mclear_other {α : Type} (m : Map α) (a n i : Nat) (d : α) (h : i < a ∨ a + n ≤ i) :
    mget (mclear m a n) i d = mget m i d := by
  induction m with
  | nil => rfl
  | cons e r ih =>
    obtain ⟨j, u⟩ := e
    unfold mclear at *
    by_cases hj : j < a ∨ a + n ≤ j
    · simp [hj, mget, ih]
    · have : j ≠ i := by omega
      simp [hj, mget, ih, this]

/-- A cleared range reads as the default. -/
theorem mget_mclear_same {α : Type} (m : Map α) (a n i : Nat) (d : α) (h : a ≤ i) (h2 : i < a + n) :
    mget (mclear m a n) i d = d := by
  induction m with
  | nil => rfl
  | cons e r ih =>
    obtain ⟨j, u⟩ := e
    unfold mclear at *
    by_cases hj : j < a ∨ a + n ≤ j
    · have : j ≠ i := by omega
      simp [hj, mget, ih, this]
    · simp [hj, ih]

end Sys2Proof.Machine
end

