-- ==== Sys2Proof/Laws/State.lean ====
section
/-!
SUPPORT. What reading a map gives after a write to it, and what each update of the state leaves unchanged: one lemma for each field.
-/

namespace Sys2Proof.Machine

theorem mget_mput_ne {α : Type} {k n : Nat} (h : n ≠ k) (m : Map α) (v d : α) : mget (mput m k v) n d = mget m n d := by
  induction m with
  | nil => simp [mput, mget, Ne.symm h]
  | cons e r ih =>
    obtain ⟨j, u⟩ := e
    simp only [mput]
    split
    · next hj => subst hj; simp [mget, Ne.symm h]
    · split
      · simp [mget, Ne.symm h]
      · simp only [mget, ih]

@[simp] theorem mget_mput {α : Type} (m : Map α) (k n : Nat) (v d : α) :
    mget (mput m k v) n d = if n = k then v else mget m n d := by
  by_cases h : n = k
  · subst h; rw [if_pos rfl]; exact mget_mput_same m n v d
  · rw [if_neg h]; exact mget_mput_ne h m v d

theorem mget_mdel {α : Type} (m : Map α) (k n : Nat) (d : α) : mget (mdel m k) n d = if n = k then d else mget m n d := by
  induction m with
  | nil => simp [mdel, mget]
  | cons e r ih =>
    obtain ⟨j, u⟩ := e
    simp only [mdel, List.filter_cons] at ih ⊢
    by_cases h : j = k
    · subst h
      simp only [bne_self_eq_false, Bool.false_eq_true, if_false, ih, mget]
      split
      · rfl
      · next hn => rw [if_neg (Ne.symm hn)]
    · have : (j != k) = true := by simpa using h
      simp only [this, if_true, mget, ih]
      by_cases hj : j = n
      · subst hj; simp [h]
      · simp [hj]

@[simp] theorem mget_mset {α : Type} [DecidableEq α] (m : Map α) (k n : Nat) (v d : α) :
    mget (mset m k v d) n d = if n = k then v else mget m n d := by
  unfold mset
  split
  · next h => subst h; exact mget_mdel m k n v
  · exact mget_mput m k n v d

@[simp] theorem modCtx_agenda (s : State) (c : Nat) (f : Ctx → Ctx) : (modCtx s c f).agenda = s.agenda := rfl
@[simp] theorem modCtx_inbox (s : State) (c : Nat) (f : Ctx → Ctx) : (modCtx s c f).inbox = s.inbox := rfl
@[simp] theorem modCtx_cur (s : State) (c : Nat) (f : Ctx → Ctx) : (modCtx s c f).cur = s.cur := rfl
@[simp] theorem modCtx_fresh (s : State) (c : Nat) (f : Ctx → Ctx) : (modCtx s c f).fresh = s.fresh := rfl
@[simp] theorem modCtx_mcycle (s : State) (c : Nat) (f : Ctx → Ctx) : (modCtx s c f).mcycle = s.mcycle := rfl
@[simp] theorem modCtx_yards (s : State) (c : Nat) (f : Ctx → Ctx) : (modCtx s c f).yards = s.yards := rfl
@[simp] theorem modCtx_stables (s : State) (c : Nat) (f : Ctx → Ctx) : (modCtx s c f).stables = s.stables := rfl
@[simp] theorem modCtx_stalls (s : State) (c : Nat) (f : Ctx → Ctx) : (modCtx s c f).stalls = s.stalls := rfl
@[simp] theorem modCtx_round (s : State) (c : Nat) (f : Ctx → Ctx) : (modCtx s c f).round = s.round := rfl
@[simp] theorem modCtx_istore (s : State) (c : Nat) (f : Ctx → Ctx) : (modCtx s c f).istore = s.istore := rfl
@[simp] theorem modCtx_sstore (s : State) (c : Nat) (f : Ctx → Ctx) : (modCtx s c f).sstore = s.sstore := rfl
@[simp] theorem modCtx_dev (s : State) (c : Nat) (f : Ctx → Ctx) : (modCtx s c f).dev = s.dev := rfl
@[simp] theorem modCtx_hostMem (s : State) (c : Nat) (f : Ctx → Ctx) : (modCtx s c f).hostMem = s.hostMem := rfl
@[simp] theorem modCtx_launches (s : State) (c : Nat) (f : Ctx → Ctx) : (modCtx s c f).launches = s.launches := rfl
@[simp] theorem modCtx_expected (s : State) (c : Nat) (f : Ctx → Ctx) : (modCtx s c f).expected = s.expected := rfl
@[simp] theorem modCtx_lastCmd (s : State) (c : Nat) (f : Ctx → Ctx) : (modCtx s c f).lastCmd = s.lastCmd := rfl
@[simp] theorem modCtx_tokens (s : State) (c : Nat) (f : Ctx → Ctx) : (modCtx s c f).tokens = s.tokens := rfl
@[simp] theorem modCtx_residents (s : State) (c : Nat) (f : Ctx → Ctx) : (modCtx s c f).residents = s.residents := rfl
@[simp] theorem modCtx_pinned (s : State) (c : Nat) (f : Ctx → Ctx) : (modCtx s c f).pinned = s.pinned := rfl
@[simp] theorem modCtx_iocsr (s : State) (c : Nat) (f : Ctx → Ctx) : (modCtx s c f).iocsr = s.iocsr := rfl
@[simp] theorem modCtx_ioWrites (s : State) (c : Nat) (f : Ctx → Ctx) : (modCtx s c f).ioWrites = s.ioWrites := rfl
@[simp] theorem modCtx_fbuf (s : State) (c : Nat) (f : Ctx → Ctx) : (modCtx s c f).fbuf = s.fbuf := rfl
@[simp] theorem modCtx_heldFaults (s : State) (c : Nat) (f : Ctx → Ctx) : (modCtx s c f).heldFaults = s.heldFaults := rfl
@[simp] theorem modCtx_fbOverflow (s : State) (c : Nat) (f : Ctx → Ctx) : (modCtx s c f).fbOverflow = s.fbOverflow := rfl
@[simp] theorem modCtx_heldTotal (s : State) (c : Nat) (f : Ctx → Ctx) : (modCtx s c f).heldTotal = s.heldTotal := rfl
@[simp] theorem modCtx_out (s : State) (c : Nat) (f : Ctx → Ctx) : (modCtx s c f).out = s.out := rfl
@[simp] theorem modCtx_cxl (s : State) (c : Nat) (f : Ctx → Ctx) : (modCtx s c f).cxl = s.cxl := rfl
@[simp] theorem modCtx_strikes (s : State) (c : Nat) (f : Ctx → Ctx) : (modCtx s c f).strikes = s.strikes := rfl
@[simp] theorem modCtx_marks (s : State) (c : Nat) (f : Ctx → Ctx) : (modCtx s c f).marks = s.marks := rfl
@[simp] theorem modCtx_rqJob (s : State) (c : Nat) (f : Ctx → Ctx) : (modCtx s c f).rqJob = s.rqJob := rfl
@[simp] theorem modCtx_rqDone (s : State) (c : Nat) (f : Ctx → Ctx) : (modCtx s c f).rqDone = s.rqDone := rfl
@[simp] theorem modCtx_rqResult (s : State) (c : Nat) (f : Ctx → Ctx) : (modCtx s c f).rqResult = s.rqResult := rfl
@[simp] theorem modCtx_hangSlot (s : State) (c : Nat) (f : Ctx → Ctx) : (modCtx s c f).hangSlot = s.hangSlot := rfl
@[simp] theorem modCtx_tcache (s : State) (c : Nat) (f : Ctx → Ctx) : (modCtx s c f).tcache = s.tcache := rfl
@[simp] theorem modCtx_rel (s : State) (c : Nat) (f : Ctx → Ctx) : (modCtx s c f).rel = s.rel := rfl
@[simp] theorem modCtx_sec (s : State) (c : Nat) (f : Ctx → Ctx) : (modCtx s c f).sec = s.sec := rfl
@[simp] theorem modCtx_control (s : State) (c : Nat) (f : Ctx → Ctx) : (modCtx s c f).control = s.control := rfl

@[simp] theorem modMe_agenda (s : State) (f : Ctx → Ctx) : (modMe s f).agenda = s.agenda := rfl
@[simp] theorem modMe_inbox (s : State) (f : Ctx → Ctx) : (modMe s f).inbox = s.inbox := rfl
@[simp] theorem modMe_cur (s : State) (f : Ctx → Ctx) : (modMe s f).cur = s.cur := rfl
@[simp] theorem modMe_fresh (s : State) (f : Ctx → Ctx) : (modMe s f).fresh = s.fresh := rfl
@[simp] theorem modMe_mcycle (s : State) (f : Ctx → Ctx) : (modMe s f).mcycle = s.mcycle := rfl
@[simp] theorem modMe_yards (s : State) (f : Ctx → Ctx) : (modMe s f).yards = s.yards := rfl
@[simp] theorem modMe_stables (s : State) (f : Ctx → Ctx) : (modMe s f).stables = s.stables := rfl
@[simp] theorem modMe_stalls (s : State) (f : Ctx → Ctx) : (modMe s f).stalls = s.stalls := rfl
@[simp] theorem modMe_round (s : State) (f : Ctx → Ctx) : (modMe s f).round = s.round := rfl
@[simp] theorem modMe_istore (s : State) (f : Ctx → Ctx) : (modMe s f).istore = s.istore := rfl
@[simp] theorem modMe_sstore (s : State) (f : Ctx → Ctx) : (modMe s f).sstore = s.sstore := rfl
@[simp] theorem modMe_dev (s : State) (f : Ctx → Ctx) : (modMe s f).dev = s.dev := rfl
@[simp] theorem modMe_hostMem (s : State) (f : Ctx → Ctx) : (modMe s f).hostMem = s.hostMem := rfl
@[simp] theorem modMe_launches (s : State) (f : Ctx → Ctx) : (modMe s f).launches = s.launches := rfl
@[simp] theorem modMe_expected (s : State) (f : Ctx → Ctx) : (modMe s f).expected = s.expected := rfl
@[simp] theorem modMe_lastCmd (s : State) (f : Ctx → Ctx) : (modMe s f).lastCmd = s.lastCmd := rfl
@[simp] theorem modMe_tokens (s : State) (f : Ctx → Ctx) : (modMe s f).tokens = s.tokens := rfl
@[simp] theorem modMe_residents (s : State) (f : Ctx → Ctx) : (modMe s f).residents = s.residents := rfl
@[simp] theorem modMe_pinned (s : State) (f : Ctx → Ctx) : (modMe s f).pinned = s.pinned := rfl
@[simp] theorem modMe_iocsr (s : State) (f : Ctx → Ctx) : (modMe s f).iocsr = s.iocsr := rfl
@[simp] theorem modMe_ioWrites (s : State) (f : Ctx → Ctx) : (modMe s f).ioWrites = s.ioWrites := rfl
@[simp] theorem modMe_fbuf (s : State) (f : Ctx → Ctx) : (modMe s f).fbuf = s.fbuf := rfl
@[simp] theorem modMe_heldFaults (s : State) (f : Ctx → Ctx) : (modMe s f).heldFaults = s.heldFaults := rfl
@[simp] theorem modMe_fbOverflow (s : State) (f : Ctx → Ctx) : (modMe s f).fbOverflow = s.fbOverflow := rfl
@[simp] theorem modMe_heldTotal (s : State) (f : Ctx → Ctx) : (modMe s f).heldTotal = s.heldTotal := rfl
@[simp] theorem modMe_out (s : State) (f : Ctx → Ctx) : (modMe s f).out = s.out := rfl
@[simp] theorem modMe_cxl (s : State) (f : Ctx → Ctx) : (modMe s f).cxl = s.cxl := rfl
@[simp] theorem modMe_strikes (s : State) (f : Ctx → Ctx) : (modMe s f).strikes = s.strikes := rfl
@[simp] theorem modMe_marks (s : State) (f : Ctx → Ctx) : (modMe s f).marks = s.marks := rfl
@[simp] theorem modMe_rqJob (s : State) (f : Ctx → Ctx) : (modMe s f).rqJob = s.rqJob := rfl
@[simp] theorem modMe_rqDone (s : State) (f : Ctx → Ctx) : (modMe s f).rqDone = s.rqDone := rfl
@[simp] theorem modMe_rqResult (s : State) (f : Ctx → Ctx) : (modMe s f).rqResult = s.rqResult := rfl
@[simp] theorem modMe_hangSlot (s : State) (f : Ctx → Ctx) : (modMe s f).hangSlot = s.hangSlot := rfl
@[simp] theorem modMe_tcache (s : State) (f : Ctx → Ctx) : (modMe s f).tcache = s.tcache := rfl
@[simp] theorem modMe_rel (s : State) (f : Ctx → Ctx) : (modMe s f).rel = s.rel := rfl
@[simp] theorem modMe_sec (s : State) (f : Ctx → Ctx) : (modMe s f).sec = s.sec := rfl
@[simp] theorem modMe_control (s : State) (f : Ctx → Ctx) : (modMe s f).control = s.control := rfl

@[simp] theorem modStable_agenda (s : State) (n : Nat) (f : Stable → Stable) : (modStable s n f).agenda = s.agenda := rfl
@[simp] theorem modStable_inbox (s : State) (n : Nat) (f : Stable → Stable) : (modStable s n f).inbox = s.inbox := rfl
@[simp] theorem modStable_cur (s : State) (n : Nat) (f : Stable → Stable) : (modStable s n f).cur = s.cur := rfl
@[simp] theorem modStable_fresh (s : State) (n : Nat) (f : Stable → Stable) : (modStable s n f).fresh = s.fresh := rfl
@[simp] theorem modStable_mcycle (s : State) (n : Nat) (f : Stable → Stable) : (modStable s n f).mcycle = s.mcycle := rfl
@[simp] theorem modStable_yards (s : State) (n : Nat) (f : Stable → Stable) : (modStable s n f).yards = s.yards := rfl
@[simp] theorem modStable_stalls (s : State) (n : Nat) (f : Stable → Stable) : (modStable s n f).stalls = s.stalls := rfl
@[simp] theorem modStable_ctxs (s : State) (n : Nat) (f : Stable → Stable) : (modStable s n f).ctxs = s.ctxs := rfl
@[simp] theorem modStable_round (s : State) (n : Nat) (f : Stable → Stable) : (modStable s n f).round = s.round := rfl
@[simp] theorem modStable_istore (s : State) (n : Nat) (f : Stable → Stable) : (modStable s n f).istore = s.istore := rfl
@[simp] theorem modStable_sstore (s : State) (n : Nat) (f : Stable → Stable) : (modStable s n f).sstore = s.sstore := rfl
@[simp] theorem modStable_dev (s : State) (n : Nat) (f : Stable → Stable) : (modStable s n f).dev = s.dev := rfl
@[simp] theorem modStable_hostMem (s : State) (n : Nat) (f : Stable → Stable) : (modStable s n f).hostMem = s.hostMem := rfl
@[simp] theorem modStable_launches (s : State) (n : Nat) (f : Stable → Stable) : (modStable s n f).launches = s.launches := rfl
@[simp] theorem modStable_expected (s : State) (n : Nat) (f : Stable → Stable) : (modStable s n f).expected = s.expected := rfl
@[simp] theorem modStable_lastCmd (s : State) (n : Nat) (f : Stable → Stable) : (modStable s n f).lastCmd = s.lastCmd := rfl
@[simp] theorem modStable_tokens (s : State) (n : Nat) (f : Stable → Stable) : (modStable s n f).tokens = s.tokens := rfl
@[simp] theorem modStable_residents (s : State) (n : Nat) (f : Stable → Stable) : (modStable s n f).residents = s.residents := rfl
@[simp] theorem modStable_pinned (s : State) (n : Nat) (f : Stable → Stable) : (modStable s n f).pinned = s.pinned := rfl
@[simp] theorem modStable_iocsr (s : State) (n : Nat) (f : Stable → Stable) : (modStable s n f).iocsr = s.iocsr := rfl
@[simp] theorem modStable_ioWrites (s : State) (n : Nat) (f : Stable → Stable) : (modStable s n f).ioWrites = s.ioWrites := rfl
@[simp] theorem modStable_fbuf (s : State) (n : Nat) (f : Stable → Stable) : (modStable s n f).fbuf = s.fbuf := rfl
@[simp] theorem modStable_heldFaults (s : State) (n : Nat) (f : Stable → Stable) : (modStable s n f).heldFaults = s.heldFaults := rfl
@[simp] theorem modStable_fbOverflow (s : State) (n : Nat) (f : Stable → Stable) : (modStable s n f).fbOverflow = s.fbOverflow := rfl
@[simp] theorem modStable_heldTotal (s : State) (n : Nat) (f : Stable → Stable) : (modStable s n f).heldTotal = s.heldTotal := rfl
@[simp] theorem modStable_out (s : State) (n : Nat) (f : Stable → Stable) : (modStable s n f).out = s.out := rfl
@[simp] theorem modStable_cxl (s : State) (n : Nat) (f : Stable → Stable) : (modStable s n f).cxl = s.cxl := rfl
@[simp] theorem modStable_strikes (s : State) (n : Nat) (f : Stable → Stable) : (modStable s n f).strikes = s.strikes := rfl
@[simp] theorem modStable_marks (s : State) (n : Nat) (f : Stable → Stable) : (modStable s n f).marks = s.marks := rfl
@[simp] theorem modStable_rqJob (s : State) (n : Nat) (f : Stable → Stable) : (modStable s n f).rqJob = s.rqJob := rfl
@[simp] theorem modStable_rqDone (s : State) (n : Nat) (f : Stable → Stable) : (modStable s n f).rqDone = s.rqDone := rfl
@[simp] theorem modStable_rqResult (s : State) (n : Nat) (f : Stable → Stable) : (modStable s n f).rqResult = s.rqResult := rfl
@[simp] theorem modStable_hangSlot (s : State) (n : Nat) (f : Stable → Stable) : (modStable s n f).hangSlot = s.hangSlot := rfl
@[simp] theorem modStable_tcache (s : State) (n : Nat) (f : Stable → Stable) : (modStable s n f).tcache = s.tcache := rfl
@[simp] theorem modStable_rel (s : State) (n : Nat) (f : Stable → Stable) : (modStable s n f).rel = s.rel := rfl
@[simp] theorem modStable_sec (s : State) (n : Nat) (f : Stable → Stable) : (modStable s n f).sec = s.sec := rfl
@[simp] theorem modStable_control (s : State) (n : Nat) (f : Stable → Stable) : (modStable s n f).control = s.control := rfl

@[simp] theorem modYard_agenda (s : State) (n : Nat) (f : Yard → Yard) : (modYard s n f).agenda = s.agenda := rfl
@[simp] theorem modYard_inbox (s : State) (n : Nat) (f : Yard → Yard) : (modYard s n f).inbox = s.inbox := rfl
@[simp] theorem modYard_cur (s : State) (n : Nat) (f : Yard → Yard) : (modYard s n f).cur = s.cur := rfl
@[simp] theorem modYard_fresh (s : State) (n : Nat) (f : Yard → Yard) : (modYard s n f).fresh = s.fresh := rfl
@[simp] theorem modYard_mcycle (s : State) (n : Nat) (f : Yard → Yard) : (modYard s n f).mcycle = s.mcycle := rfl
@[simp] theorem modYard_stables (s : State) (n : Nat) (f : Yard → Yard) : (modYard s n f).stables = s.stables := rfl
@[simp] theorem modYard_stalls (s : State) (n : Nat) (f : Yard → Yard) : (modYard s n f).stalls = s.stalls := rfl
@[simp] theorem modYard_ctxs (s : State) (n : Nat) (f : Yard → Yard) : (modYard s n f).ctxs = s.ctxs := rfl
@[simp] theorem modYard_round (s : State) (n : Nat) (f : Yard → Yard) : (modYard s n f).round = s.round := rfl
@[simp] theorem modYard_istore (s : State) (n : Nat) (f : Yard → Yard) : (modYard s n f).istore = s.istore := rfl
@[simp] theorem modYard_sstore (s : State) (n : Nat) (f : Yard → Yard) : (modYard s n f).sstore = s.sstore := rfl
@[simp] theorem modYard_dev (s : State) (n : Nat) (f : Yard → Yard) : (modYard s n f).dev = s.dev := rfl
@[simp] theorem modYard_hostMem (s : State) (n : Nat) (f : Yard → Yard) : (modYard s n f).hostMem = s.hostMem := rfl
@[simp] theorem modYard_launches (s : State) (n : Nat) (f : Yard → Yard) : (modYard s n f).launches = s.launches := rfl
@[simp] theorem modYard_expected (s : State) (n : Nat) (f : Yard → Yard) : (modYard s n f).expected = s.expected := rfl
@[simp] theorem modYard_lastCmd (s : State) (n : Nat) (f : Yard → Yard) : (modYard s n f).lastCmd = s.lastCmd := rfl
@[simp] theorem modYard_tokens (s : State) (n : Nat) (f : Yard → Yard) : (modYard s n f).tokens = s.tokens := rfl
@[simp] theorem modYard_residents (s : State) (n : Nat) (f : Yard → Yard) : (modYard s n f).residents = s.residents := rfl
@[simp] theorem modYard_pinned (s : State) (n : Nat) (f : Yard → Yard) : (modYard s n f).pinned = s.pinned := rfl
@[simp] theorem modYard_iocsr (s : State) (n : Nat) (f : Yard → Yard) : (modYard s n f).iocsr = s.iocsr := rfl
@[simp] theorem modYard_ioWrites (s : State) (n : Nat) (f : Yard → Yard) : (modYard s n f).ioWrites = s.ioWrites := rfl
@[simp] theorem modYard_fbuf (s : State) (n : Nat) (f : Yard → Yard) : (modYard s n f).fbuf = s.fbuf := rfl
@[simp] theorem modYard_heldFaults (s : State) (n : Nat) (f : Yard → Yard) : (modYard s n f).heldFaults = s.heldFaults := rfl
@[simp] theorem modYard_fbOverflow (s : State) (n : Nat) (f : Yard → Yard) : (modYard s n f).fbOverflow = s.fbOverflow := rfl
@[simp] theorem modYard_heldTotal (s : State) (n : Nat) (f : Yard → Yard) : (modYard s n f).heldTotal = s.heldTotal := rfl
@[simp] theorem modYard_out (s : State) (n : Nat) (f : Yard → Yard) : (modYard s n f).out = s.out := rfl
@[simp] theorem modYard_cxl (s : State) (n : Nat) (f : Yard → Yard) : (modYard s n f).cxl = s.cxl := rfl
@[simp] theorem modYard_strikes (s : State) (n : Nat) (f : Yard → Yard) : (modYard s n f).strikes = s.strikes := rfl
@[simp] theorem modYard_marks (s : State) (n : Nat) (f : Yard → Yard) : (modYard s n f).marks = s.marks := rfl
@[simp] theorem modYard_rqJob (s : State) (n : Nat) (f : Yard → Yard) : (modYard s n f).rqJob = s.rqJob := rfl
@[simp] theorem modYard_rqDone (s : State) (n : Nat) (f : Yard → Yard) : (modYard s n f).rqDone = s.rqDone := rfl
@[simp] theorem modYard_rqResult (s : State) (n : Nat) (f : Yard → Yard) : (modYard s n f).rqResult = s.rqResult := rfl
@[simp] theorem modYard_hangSlot (s : State) (n : Nat) (f : Yard → Yard) : (modYard s n f).hangSlot = s.hangSlot := rfl
@[simp] theorem modYard_tcache (s : State) (n : Nat) (f : Yard → Yard) : (modYard s n f).tcache = s.tcache := rfl
@[simp] theorem modYard_rel (s : State) (n : Nat) (f : Yard → Yard) : (modYard s n f).rel = s.rel := rfl
@[simp] theorem modYard_sec (s : State) (n : Nat) (f : Yard → Yard) : (modYard s n f).sec = s.sec := rfl
@[simp] theorem modYard_control (s : State) (n : Nat) (f : Yard → Yard) : (modYard s n f).control = s.control := rfl

@[simp] theorem modStall_agenda (s : State) (n : Nat) (f : Stall → Stall) : (modStall s n f).agenda = s.agenda := rfl
@[simp] theorem modStall_inbox (s : State) (n : Nat) (f : Stall → Stall) : (modStall s n f).inbox = s.inbox := rfl
@[simp] theorem modStall_cur (s : State) (n : Nat) (f : Stall → Stall) : (modStall s n f).cur = s.cur := rfl
@[simp] theorem modStall_fresh (s : State) (n : Nat) (f : Stall → Stall) : (modStall s n f).fresh = s.fresh := rfl
@[simp] theorem modStall_mcycle (s : State) (n : Nat) (f : Stall → Stall) : (modStall s n f).mcycle = s.mcycle := rfl
@[simp] theorem modStall_yards (s : State) (n : Nat) (f : Stall → Stall) : (modStall s n f).yards = s.yards := rfl
@[simp] theorem modStall_stables (s : State) (n : Nat) (f : Stall → Stall) : (modStall s n f).stables = s.stables := rfl
@[simp] theorem modStall_ctxs (s : State) (n : Nat) (f : Stall → Stall) : (modStall s n f).ctxs = s.ctxs := rfl
@[simp] theorem modStall_round (s : State) (n : Nat) (f : Stall → Stall) : (modStall s n f).round = s.round := rfl
@[simp] theorem modStall_istore (s : State) (n : Nat) (f : Stall → Stall) : (modStall s n f).istore = s.istore := rfl
@[simp] theorem modStall_sstore (s : State) (n : Nat) (f : Stall → Stall) : (modStall s n f).sstore = s.sstore := rfl
@[simp] theorem modStall_dev (s : State) (n : Nat) (f : Stall → Stall) : (modStall s n f).dev = s.dev := rfl
@[simp] theorem modStall_hostMem (s : State) (n : Nat) (f : Stall → Stall) : (modStall s n f).hostMem = s.hostMem := rfl
@[simp] theorem modStall_launches (s : State) (n : Nat) (f : Stall → Stall) : (modStall s n f).launches = s.launches := rfl
@[simp] theorem modStall_expected (s : State) (n : Nat) (f : Stall → Stall) : (modStall s n f).expected = s.expected := rfl
@[simp] theorem modStall_lastCmd (s : State) (n : Nat) (f : Stall → Stall) : (modStall s n f).lastCmd = s.lastCmd := rfl
@[simp] theorem modStall_tokens (s : State) (n : Nat) (f : Stall → Stall) : (modStall s n f).tokens = s.tokens := rfl
@[simp] theorem modStall_residents (s : State) (n : Nat) (f : Stall → Stall) : (modStall s n f).residents = s.residents := rfl
@[simp] theorem modStall_pinned (s : State) (n : Nat) (f : Stall → Stall) : (modStall s n f).pinned = s.pinned := rfl
@[simp] theorem modStall_iocsr (s : State) (n : Nat) (f : Stall → Stall) : (modStall s n f).iocsr = s.iocsr := rfl
@[simp] theorem modStall_ioWrites (s : State) (n : Nat) (f : Stall → Stall) : (modStall s n f).ioWrites = s.ioWrites := rfl
@[simp] theorem modStall_fbuf (s : State) (n : Nat) (f : Stall → Stall) : (modStall s n f).fbuf = s.fbuf := rfl
@[simp] theorem modStall_heldFaults (s : State) (n : Nat) (f : Stall → Stall) : (modStall s n f).heldFaults = s.heldFaults := rfl
@[simp] theorem modStall_fbOverflow (s : State) (n : Nat) (f : Stall → Stall) : (modStall s n f).fbOverflow = s.fbOverflow := rfl
@[simp] theorem modStall_heldTotal (s : State) (n : Nat) (f : Stall → Stall) : (modStall s n f).heldTotal = s.heldTotal := rfl
@[simp] theorem modStall_out (s : State) (n : Nat) (f : Stall → Stall) : (modStall s n f).out = s.out := rfl
@[simp] theorem modStall_cxl (s : State) (n : Nat) (f : Stall → Stall) : (modStall s n f).cxl = s.cxl := rfl
@[simp] theorem modStall_strikes (s : State) (n : Nat) (f : Stall → Stall) : (modStall s n f).strikes = s.strikes := rfl
@[simp] theorem modStall_marks (s : State) (n : Nat) (f : Stall → Stall) : (modStall s n f).marks = s.marks := rfl
@[simp] theorem modStall_rqJob (s : State) (n : Nat) (f : Stall → Stall) : (modStall s n f).rqJob = s.rqJob := rfl
@[simp] theorem modStall_rqDone (s : State) (n : Nat) (f : Stall → Stall) : (modStall s n f).rqDone = s.rqDone := rfl
@[simp] theorem modStall_rqResult (s : State) (n : Nat) (f : Stall → Stall) : (modStall s n f).rqResult = s.rqResult := rfl
@[simp] theorem modStall_hangSlot (s : State) (n : Nat) (f : Stall → Stall) : (modStall s n f).hangSlot = s.hangSlot := rfl
@[simp] theorem modStall_tcache (s : State) (n : Nat) (f : Stall → Stall) : (modStall s n f).tcache = s.tcache := rfl
@[simp] theorem modStall_rel (s : State) (n : Nat) (f : Stall → Stall) : (modStall s n f).rel = s.rel := rfl
@[simp] theorem modStall_sec (s : State) (n : Nat) (f : Stall → Stall) : (modStall s n f).sec = s.sec := rfl
@[simp] theorem modStall_control (s : State) (n : Nat) (f : Stall → Stall) : (modStall s n f).control = s.control := rfl

@[simp] theorem modLaunch_agenda (s : State) (n : Nat) (f : Launch → Launch) : (modLaunch s n f).agenda = s.agenda := rfl
@[simp] theorem modLaunch_inbox (s : State) (n : Nat) (f : Launch → Launch) : (modLaunch s n f).inbox = s.inbox := rfl
@[simp] theorem modLaunch_cur (s : State) (n : Nat) (f : Launch → Launch) : (modLaunch s n f).cur = s.cur := rfl
@[simp] theorem modLaunch_fresh (s : State) (n : Nat) (f : Launch → Launch) : (modLaunch s n f).fresh = s.fresh := rfl
@[simp] theorem modLaunch_mcycle (s : State) (n : Nat) (f : Launch → Launch) : (modLaunch s n f).mcycle = s.mcycle := rfl
@[simp] theorem modLaunch_yards (s : State) (n : Nat) (f : Launch → Launch) : (modLaunch s n f).yards = s.yards := rfl
@[simp] theorem modLaunch_stables (s : State) (n : Nat) (f : Launch → Launch) : (modLaunch s n f).stables = s.stables := rfl
@[simp] theorem modLaunch_stalls (s : State) (n : Nat) (f : Launch → Launch) : (modLaunch s n f).stalls = s.stalls := rfl
@[simp] theorem modLaunch_ctxs (s : State) (n : Nat) (f : Launch → Launch) : (modLaunch s n f).ctxs = s.ctxs := rfl
@[simp] theorem modLaunch_round (s : State) (n : Nat) (f : Launch → Launch) : (modLaunch s n f).round = s.round := rfl
@[simp] theorem modLaunch_istore (s : State) (n : Nat) (f : Launch → Launch) : (modLaunch s n f).istore = s.istore := rfl
@[simp] theorem modLaunch_sstore (s : State) (n : Nat) (f : Launch → Launch) : (modLaunch s n f).sstore = s.sstore := rfl
@[simp] theorem modLaunch_dev (s : State) (n : Nat) (f : Launch → Launch) : (modLaunch s n f).dev = s.dev := rfl
@[simp] theorem modLaunch_hostMem (s : State) (n : Nat) (f : Launch → Launch) : (modLaunch s n f).hostMem = s.hostMem := rfl
@[simp] theorem modLaunch_expected (s : State) (n : Nat) (f : Launch → Launch) : (modLaunch s n f).expected = s.expected := rfl
@[simp] theorem modLaunch_lastCmd (s : State) (n : Nat) (f : Launch → Launch) : (modLaunch s n f).lastCmd = s.lastCmd := rfl
@[simp] theorem modLaunch_tokens (s : State) (n : Nat) (f : Launch → Launch) : (modLaunch s n f).tokens = s.tokens := rfl
@[simp] theorem modLaunch_residents (s : State) (n : Nat) (f : Launch → Launch) : (modLaunch s n f).residents = s.residents := rfl
@[simp] theorem modLaunch_pinned (s : State) (n : Nat) (f : Launch → Launch) : (modLaunch s n f).pinned = s.pinned := rfl
@[simp] theorem modLaunch_iocsr (s : State) (n : Nat) (f : Launch → Launch) : (modLaunch s n f).iocsr = s.iocsr := rfl
@[simp] theorem modLaunch_ioWrites (s : State) (n : Nat) (f : Launch → Launch) : (modLaunch s n f).ioWrites = s.ioWrites := rfl
@[simp] theorem modLaunch_fbuf (s : State) (n : Nat) (f : Launch → Launch) : (modLaunch s n f).fbuf = s.fbuf := rfl
@[simp] theorem modLaunch_heldFaults (s : State) (n : Nat) (f : Launch → Launch) : (modLaunch s n f).heldFaults = s.heldFaults := rfl
@[simp] theorem modLaunch_fbOverflow (s : State) (n : Nat) (f : Launch → Launch) : (modLaunch s n f).fbOverflow = s.fbOverflow := rfl
@[simp] theorem modLaunch_heldTotal (s : State) (n : Nat) (f : Launch → Launch) : (modLaunch s n f).heldTotal = s.heldTotal := rfl
@[simp] theorem modLaunch_out (s : State) (n : Nat) (f : Launch → Launch) : (modLaunch s n f).out = s.out := rfl
@[simp] theorem modLaunch_cxl (s : State) (n : Nat) (f : Launch → Launch) : (modLaunch s n f).cxl = s.cxl := rfl
@[simp] theorem modLaunch_strikes (s : State) (n : Nat) (f : Launch → Launch) : (modLaunch s n f).strikes = s.strikes := rfl
@[simp] theorem modLaunch_marks (s : State) (n : Nat) (f : Launch → Launch) : (modLaunch s n f).marks = s.marks := rfl
@[simp] theorem modLaunch_rqJob (s : State) (n : Nat) (f : Launch → Launch) : (modLaunch s n f).rqJob = s.rqJob := rfl
@[simp] theorem modLaunch_rqDone (s : State) (n : Nat) (f : Launch → Launch) : (modLaunch s n f).rqDone = s.rqDone := rfl
@[simp] theorem modLaunch_rqResult (s : State) (n : Nat) (f : Launch → Launch) : (modLaunch s n f).rqResult = s.rqResult := rfl
@[simp] theorem modLaunch_hangSlot (s : State) (n : Nat) (f : Launch → Launch) : (modLaunch s n f).hangSlot = s.hangSlot := rfl
@[simp] theorem modLaunch_tcache (s : State) (n : Nat) (f : Launch → Launch) : (modLaunch s n f).tcache = s.tcache := rfl
@[simp] theorem modLaunch_rel (s : State) (n : Nat) (f : Launch → Launch) : (modLaunch s n f).rel = s.rel := rfl
@[simp] theorem modLaunch_sec (s : State) (n : Nat) (f : Launch → Launch) : (modLaunch s n f).sec = s.sec := rfl
@[simp] theorem modLaunch_control (s : State) (n : Nat) (f : Launch → Launch) : (modLaunch s n f).control = s.control := rfl

@[simp] theorem setIo_agenda (s : State) (n : Nat) (v : Word) : (setIo s n v).agenda = s.agenda := rfl
@[simp] theorem setIo_inbox (s : State) (n : Nat) (v : Word) : (setIo s n v).inbox = s.inbox := rfl
@[simp] theorem setIo_cur (s : State) (n : Nat) (v : Word) : (setIo s n v).cur = s.cur := rfl
@[simp] theorem setIo_fresh (s : State) (n : Nat) (v : Word) : (setIo s n v).fresh = s.fresh := rfl
@[simp] theorem setIo_mcycle (s : State) (n : Nat) (v : Word) : (setIo s n v).mcycle = s.mcycle := rfl
@[simp] theorem setIo_yards (s : State) (n : Nat) (v : Word) : (setIo s n v).yards = s.yards := rfl
@[simp] theorem setIo_stables (s : State) (n : Nat) (v : Word) : (setIo s n v).stables = s.stables := rfl
@[simp] theorem setIo_stalls (s : State) (n : Nat) (v : Word) : (setIo s n v).stalls = s.stalls := rfl
@[simp] theorem setIo_ctxs (s : State) (n : Nat) (v : Word) : (setIo s n v).ctxs = s.ctxs := rfl
@[simp] theorem setIo_round (s : State) (n : Nat) (v : Word) : (setIo s n v).round = s.round := rfl
@[simp] theorem setIo_istore (s : State) (n : Nat) (v : Word) : (setIo s n v).istore = s.istore := rfl
@[simp] theorem setIo_sstore (s : State) (n : Nat) (v : Word) : (setIo s n v).sstore = s.sstore := rfl
@[simp] theorem setIo_dev (s : State) (n : Nat) (v : Word) : (setIo s n v).dev = s.dev := rfl
@[simp] theorem setIo_hostMem (s : State) (n : Nat) (v : Word) : (setIo s n v).hostMem = s.hostMem := rfl
@[simp] theorem setIo_launches (s : State) (n : Nat) (v : Word) : (setIo s n v).launches = s.launches := rfl
@[simp] theorem setIo_expected (s : State) (n : Nat) (v : Word) : (setIo s n v).expected = s.expected := rfl
@[simp] theorem setIo_lastCmd (s : State) (n : Nat) (v : Word) : (setIo s n v).lastCmd = s.lastCmd := rfl
@[simp] theorem setIo_tokens (s : State) (n : Nat) (v : Word) : (setIo s n v).tokens = s.tokens := rfl
@[simp] theorem setIo_residents (s : State) (n : Nat) (v : Word) : (setIo s n v).residents = s.residents := rfl
@[simp] theorem setIo_pinned (s : State) (n : Nat) (v : Word) : (setIo s n v).pinned = s.pinned := rfl
@[simp] theorem setIo_ioWrites (s : State) (n : Nat) (v : Word) : (setIo s n v).ioWrites = s.ioWrites := rfl
@[simp] theorem setIo_fbuf (s : State) (n : Nat) (v : Word) : (setIo s n v).fbuf = s.fbuf := rfl
@[simp] theorem setIo_heldFaults (s : State) (n : Nat) (v : Word) : (setIo s n v).heldFaults = s.heldFaults := rfl
@[simp] theorem setIo_fbOverflow (s : State) (n : Nat) (v : Word) : (setIo s n v).fbOverflow = s.fbOverflow := rfl
@[simp] theorem setIo_heldTotal (s : State) (n : Nat) (v : Word) : (setIo s n v).heldTotal = s.heldTotal := rfl
@[simp] theorem setIo_out (s : State) (n : Nat) (v : Word) : (setIo s n v).out = s.out := rfl
@[simp] theorem setIo_cxl (s : State) (n : Nat) (v : Word) : (setIo s n v).cxl = s.cxl := rfl
@[simp] theorem setIo_strikes (s : State) (n : Nat) (v : Word) : (setIo s n v).strikes = s.strikes := rfl
@[simp] theorem setIo_marks (s : State) (n : Nat) (v : Word) : (setIo s n v).marks = s.marks := rfl
@[simp] theorem setIo_rqJob (s : State) (n : Nat) (v : Word) : (setIo s n v).rqJob = s.rqJob := rfl
@[simp] theorem setIo_rqDone (s : State) (n : Nat) (v : Word) : (setIo s n v).rqDone = s.rqDone := rfl
@[simp] theorem setIo_rqResult (s : State) (n : Nat) (v : Word) : (setIo s n v).rqResult = s.rqResult := rfl
@[simp] theorem setIo_hangSlot (s : State) (n : Nat) (v : Word) : (setIo s n v).hangSlot = s.hangSlot := rfl
@[simp] theorem setIo_tcache (s : State) (n : Nat) (v : Word) : (setIo s n v).tcache = s.tcache := rfl
@[simp] theorem setIo_rel (s : State) (n : Nat) (v : Word) : (setIo s n v).rel = s.rel := rfl
@[simp] theorem setIo_sec (s : State) (n : Nat) (v : Word) : (setIo s n v).sec = s.sec := rfl
@[simp] theorem setIo_control (s : State) (n : Nat) (v : Word) : (setIo s n v).control = s.control := rfl

@[simp] theorem emit_agenda (s : State) (lat : Nat) (e : Eff) : (emit s lat e).agenda = s.agenda := rfl
@[simp] theorem emit_inbox (s : State) (lat : Nat) (e : Eff) : (emit s lat e).inbox = s.inbox := rfl
@[simp] theorem emit_cur (s : State) (lat : Nat) (e : Eff) : (emit s lat e).cur = s.cur := rfl
@[simp] theorem emit_fresh (s : State) (lat : Nat) (e : Eff) : (emit s lat e).fresh = s.fresh := rfl
@[simp] theorem emit_mcycle (s : State) (lat : Nat) (e : Eff) : (emit s lat e).mcycle = s.mcycle := rfl
@[simp] theorem emit_yards (s : State) (lat : Nat) (e : Eff) : (emit s lat e).yards = s.yards := rfl
@[simp] theorem emit_stables (s : State) (lat : Nat) (e : Eff) : (emit s lat e).stables = s.stables := rfl
@[simp] theorem emit_stalls (s : State) (lat : Nat) (e : Eff) : (emit s lat e).stalls = s.stalls := rfl
@[simp] theorem emit_round (s : State) (lat : Nat) (e : Eff) : (emit s lat e).round = s.round := rfl
@[simp] theorem emit_istore (s : State) (lat : Nat) (e : Eff) : (emit s lat e).istore = s.istore := rfl
@[simp] theorem emit_sstore (s : State) (lat : Nat) (e : Eff) : (emit s lat e).sstore = s.sstore := rfl
@[simp] theorem emit_dev (s : State) (lat : Nat) (e : Eff) : (emit s lat e).dev = s.dev := rfl
@[simp] theorem emit_hostMem (s : State) (lat : Nat) (e : Eff) : (emit s lat e).hostMem = s.hostMem := rfl
@[simp] theorem emit_launches (s : State) (lat : Nat) (e : Eff) : (emit s lat e).launches = s.launches := rfl
@[simp] theorem emit_expected (s : State) (lat : Nat) (e : Eff) : (emit s lat e).expected = s.expected := rfl
@[simp] theorem emit_lastCmd (s : State) (lat : Nat) (e : Eff) : (emit s lat e).lastCmd = s.lastCmd := rfl
@[simp] theorem emit_tokens (s : State) (lat : Nat) (e : Eff) : (emit s lat e).tokens = s.tokens := rfl
@[simp] theorem emit_residents (s : State) (lat : Nat) (e : Eff) : (emit s lat e).residents = s.residents := rfl
@[simp] theorem emit_pinned (s : State) (lat : Nat) (e : Eff) : (emit s lat e).pinned = s.pinned := rfl
@[simp] theorem emit_iocsr (s : State) (lat : Nat) (e : Eff) : (emit s lat e).iocsr = s.iocsr := rfl
@[simp] theorem emit_ioWrites (s : State) (lat : Nat) (e : Eff) : (emit s lat e).ioWrites = s.ioWrites := rfl
@[simp] theorem emit_fbuf (s : State) (lat : Nat) (e : Eff) : (emit s lat e).fbuf = s.fbuf := rfl
@[simp] theorem emit_heldFaults (s : State) (lat : Nat) (e : Eff) : (emit s lat e).heldFaults = s.heldFaults := rfl
@[simp] theorem emit_fbOverflow (s : State) (lat : Nat) (e : Eff) : (emit s lat e).fbOverflow = s.fbOverflow := rfl
@[simp] theorem emit_heldTotal (s : State) (lat : Nat) (e : Eff) : (emit s lat e).heldTotal = s.heldTotal := rfl
@[simp] theorem emit_out (s : State) (lat : Nat) (e : Eff) : (emit s lat e).out = s.out := rfl
@[simp] theorem emit_cxl (s : State) (lat : Nat) (e : Eff) : (emit s lat e).cxl = s.cxl := rfl
@[simp] theorem emit_strikes (s : State) (lat : Nat) (e : Eff) : (emit s lat e).strikes = s.strikes := rfl
@[simp] theorem emit_marks (s : State) (lat : Nat) (e : Eff) : (emit s lat e).marks = s.marks := rfl
@[simp] theorem emit_rqJob (s : State) (lat : Nat) (e : Eff) : (emit s lat e).rqJob = s.rqJob := rfl
@[simp] theorem emit_rqDone (s : State) (lat : Nat) (e : Eff) : (emit s lat e).rqDone = s.rqDone := rfl
@[simp] theorem emit_rqResult (s : State) (lat : Nat) (e : Eff) : (emit s lat e).rqResult = s.rqResult := rfl
@[simp] theorem emit_hangSlot (s : State) (lat : Nat) (e : Eff) : (emit s lat e).hangSlot = s.hangSlot := rfl
@[simp] theorem emit_tcache (s : State) (lat : Nat) (e : Eff) : (emit s lat e).tcache = s.tcache := rfl
@[simp] theorem emit_rel (s : State) (lat : Nat) (e : Eff) : (emit s lat e).rel = s.rel := rfl
@[simp] theorem emit_sec (s : State) (lat : Nat) (e : Eff) : (emit s lat e).sec = s.sec := rfl
@[simp] theorem emit_control (s : State) (lat : Nat) (e : Eff) : (emit s lat e).control = s.control := rfl

@[simp] theorem stableAt_modCtx (s : State) (c : Nat) (f : Ctx → Ctx) (i : Nat) : stableAt (modCtx s c f) i = stableAt s i := rfl
@[simp] theorem yardAt_modCtx (s : State) (c : Nat) (f : Ctx → Ctx) (i : Nat) : yardAt (modCtx s c f) i = yardAt s i := rfl
@[simp] theorem stallAt_modCtx (s : State) (c : Nat) (f : Ctx → Ctx) (i : Nat) : stallAt (modCtx s c f) i = stallAt s i := rfl
@[simp] theorem launchAt_modCtx (s : State) (c : Nat) (f : Ctx → Ctx) (i : Nat) : launchAt (modCtx s c f) i = launchAt s i := rfl
@[simp] theorem ioCsr_modCtx (s : State) (c : Nat) (f : Ctx → Ctx) (i : Nat) : ioCsr (modCtx s c f) i = ioCsr s i := rfl
@[simp] theorem stableAt_modMe (s : State) (f : Ctx → Ctx) (i : Nat) : stableAt (modMe s f) i = stableAt s i := rfl
@[simp] theorem yardAt_modMe (s : State) (f : Ctx → Ctx) (i : Nat) : yardAt (modMe s f) i = yardAt s i := rfl
@[simp] theorem stallAt_modMe (s : State) (f : Ctx → Ctx) (i : Nat) : stallAt (modMe s f) i = stallAt s i := rfl
@[simp] theorem launchAt_modMe (s : State) (f : Ctx → Ctx) (i : Nat) : launchAt (modMe s f) i = launchAt s i := rfl
@[simp] theorem ioCsr_modMe (s : State) (f : Ctx → Ctx) (i : Nat) : ioCsr (modMe s f) i = ioCsr s i := rfl
@[simp] theorem ctxOf_modStable (s : State) (n : Nat) (f : Stable → Stable) (i : Nat) : ctxOf (modStable s n f) i = ctxOf s i := rfl
@[simp] theorem yardAt_modStable (s : State) (n : Nat) (f : Stable → Stable) (i : Nat) : yardAt (modStable s n f) i = yardAt s i := rfl
@[simp] theorem stallAt_modStable (s : State) (n : Nat) (f : Stable → Stable) (i : Nat) : stallAt (modStable s n f) i = stallAt s i := rfl
@[simp] theorem launchAt_modStable (s : State) (n : Nat) (f : Stable → Stable) (i : Nat) : launchAt (modStable s n f) i = launchAt s i := rfl
@[simp] theorem ioCsr_modStable (s : State) (n : Nat) (f : Stable → Stable) (i : Nat) : ioCsr (modStable s n f) i = ioCsr s i := rfl
@[simp] theorem ctxOf_modYard (s : State) (n : Nat) (f : Yard → Yard) (i : Nat) : ctxOf (modYard s n f) i = ctxOf s i := rfl
@[simp] theorem stableAt_modYard (s : State) (n : Nat) (f : Yard → Yard) (i : Nat) : stableAt (modYard s n f) i = stableAt s i := rfl
@[simp] theorem stallAt_modYard (s : State) (n : Nat) (f : Yard → Yard) (i : Nat) : stallAt (modYard s n f) i = stallAt s i := rfl
@[simp] theorem launchAt_modYard (s : State) (n : Nat) (f : Yard → Yard) (i : Nat) : launchAt (modYard s n f) i = launchAt s i := rfl
@[simp] theorem ioCsr_modYard (s : State) (n : Nat) (f : Yard → Yard) (i : Nat) : ioCsr (modYard s n f) i = ioCsr s i := rfl
@[simp] theorem ctxOf_modStall (s : State) (n : Nat) (f : Stall → Stall) (i : Nat) : ctxOf (modStall s n f) i = ctxOf s i := rfl
@[simp] theorem stableAt_modStall (s : State) (n : Nat) (f : Stall → Stall) (i : Nat) : stableAt (modStall s n f) i = stableAt s i := rfl
@[simp] theorem yardAt_modStall (s : State) (n : Nat) (f : Stall → Stall) (i : Nat) : yardAt (modStall s n f) i = yardAt s i := rfl
@[simp] theorem launchAt_modStall (s : State) (n : Nat) (f : Stall → Stall) (i : Nat) : launchAt (modStall s n f) i = launchAt s i := rfl
@[simp] theorem ioCsr_modStall (s : State) (n : Nat) (f : Stall → Stall) (i : Nat) : ioCsr (modStall s n f) i = ioCsr s i := rfl
@[simp] theorem ctxOf_modLaunch (s : State) (n : Nat) (f : Launch → Launch) (i : Nat) : ctxOf (modLaunch s n f) i = ctxOf s i := rfl
@[simp] theorem stableAt_modLaunch (s : State) (n : Nat) (f : Launch → Launch) (i : Nat) : stableAt (modLaunch s n f) i = stableAt s i := rfl
@[simp] theorem yardAt_modLaunch (s : State) (n : Nat) (f : Launch → Launch) (i : Nat) : yardAt (modLaunch s n f) i = yardAt s i := rfl
@[simp] theorem stallAt_modLaunch (s : State) (n : Nat) (f : Launch → Launch) (i : Nat) : stallAt (modLaunch s n f) i = stallAt s i := rfl
@[simp] theorem ioCsr_modLaunch (s : State) (n : Nat) (f : Launch → Launch) (i : Nat) : ioCsr (modLaunch s n f) i = ioCsr s i := rfl
@[simp] theorem ctxOf_setIo (s : State) (n : Nat) (v : Word) (i : Nat) : ctxOf (setIo s n v) i = ctxOf s i := rfl
@[simp] theorem stableAt_setIo (s : State) (n : Nat) (v : Word) (i : Nat) : stableAt (setIo s n v) i = stableAt s i := rfl
@[simp] theorem yardAt_setIo (s : State) (n : Nat) (v : Word) (i : Nat) : yardAt (setIo s n v) i = yardAt s i := rfl
@[simp] theorem stallAt_setIo (s : State) (n : Nat) (v : Word) (i : Nat) : stallAt (setIo s n v) i = stallAt s i := rfl
@[simp] theorem launchAt_setIo (s : State) (n : Nat) (v : Word) (i : Nat) : launchAt (setIo s n v) i = launchAt s i := rfl
@[simp] theorem stableAt_emit (s : State) (lat : Nat) (e : Eff) (i : Nat) : stableAt (emit s lat e) i = stableAt s i := rfl
@[simp] theorem yardAt_emit (s : State) (lat : Nat) (e : Eff) (i : Nat) : yardAt (emit s lat e) i = yardAt s i := rfl
@[simp] theorem stallAt_emit (s : State) (lat : Nat) (e : Eff) (i : Nat) : stallAt (emit s lat e) i = stallAt s i := rfl
@[simp] theorem launchAt_emit (s : State) (lat : Nat) (e : Eff) (i : Nat) : launchAt (emit s lat e) i = launchAt s i := rfl
@[simp] theorem ioCsr_emit (s : State) (lat : Nat) (e : Eff) (i : Nat) : ioCsr (emit s lat e) i = ioCsr s i := rfl

/-- A context after an update of one. -/
@[simp] theorem ctxOf_modCtx (s : State) (c : Nat) (f : Ctx → Ctx) (i : Nat) :
    ctxOf (modCtx s c f) i = if i = c then f (ctxOf s c) else ctxOf s i := mget_mput s.ctxs c i (f (ctxOf s c)) ctxInit

@[simp] theorem stableAt_modStable (s : State) (c : Nat) (f : Stable → Stable) (i : Nat) :
    stableAt (modStable s c f) i = if i = c then f (stableAt s c) else stableAt s i := mget_mput s.stables c i (f (stableAt s c)) stableInit

@[simp] theorem yardAt_modYard (s : State) (c : Nat) (f : Yard → Yard) (i : Nat) :
    yardAt (modYard s c f) i = if i = c then f (yardAt s c) else yardAt s i := mget_mput s.yards c i (f (yardAt s c)) yardInit

@[simp] theorem stallAt_modStall (s : State) (c : Nat) (f : Stall → Stall) (i : Nat) :
    stallAt (modStall s c f) i = if i = c then f (stallAt s c) else stallAt s i := mget_mput s.stalls c i (f (stallAt s c)) stallInit

@[simp] theorem launchAt_modLaunch (s : State) (c : Nat) (f : Launch → Launch) (i : Nat) :
    launchAt (modLaunch s c f) i = if i = c then f (launchAt s c) else launchAt s i := mget_mput s.launches c i (f (launchAt s c)) launchInit

@[simp] theorem ioCsr_setIo (s : State) (n : Nat) (v : Word) (i : Nat) :
    ioCsr (setIo s n v) i = if i = n then v else ioCsr s i := mget_mput s.iocsr n i v 0

/-- The running context after an update of it. -/
@[simp] theorem me_modMe (s : State) (f : Ctx → Ctx) : me (modMe s f) = f (me s) := by
  simp [me, modMe]

@[simp] theorem me_modStable (s : State) (n : Nat) (f : Stable → Stable) : me (modStable s n f) = me s := rfl
@[simp] theorem me_modYard (s : State) (n : Nat) (f : Yard → Yard) : me (modYard s n f) = me s := rfl
@[simp] theorem me_modStall (s : State) (n : Nat) (f : Stall → Stall) : me (modStall s n f) = me s := rfl
@[simp] theorem me_modLaunch (s : State) (n : Nat) (f : Launch → Launch) : me (modLaunch s n f) = me s := rfl

@[simp] theorem ctxOf_modMe (s : State) (f : Ctx → Ctx) (i : Nat) :
    ctxOf (modMe s f) i = if i = s.cur.ctx then f (me s) else ctxOf s i := ctxOf_modCtx s s.cur.ctx f i

/-- What `emit` does: one result joins those in flight of the running context, at its latency after the cycle of issue (R9). -/
theorem me_emit (s : State) (lat : Nat) (e : Eff) :
    me (emit s lat e) = { me s with flight := (me s).flight ++ [⟨s.cur.cycle + lat, s.cur.slot, (me s).ord, s.cur.pc, e⟩], ord := (me s).ord + 1 } :=
  me_modMe s _

/-- `emit` changes no other context. -/
theorem ctxOf_emit_ne {s : State} {i : Nat} (h : i ≠ s.cur.ctx) (lat : Nat) (e : Eff) : ctxOf (emit s lat e) i = ctxOf s i := by
  show ctxOf (modMe s _) i = _
  simp [h]

/-- A scalar after a write: s0 reads zero and discards writes (R76). -/
theorem sreg_setSreg (c : Ctx) (n : Nat) (v : Word) (i : Nat) :
    sreg (setSreg c n v) i = if i = 0 then 0 else if i = n then v else sreg c i := by
  unfold sreg setSreg
  by_cases hi : i = 0
  · simp [hi]
  · by_cases hn : n = 0
    · subst hn; simp [hi]
    · simp [hi, hn]

end Sys2Proof.Machine
end

