-- ==== Sys2Proof/Laws/Cim.lean ====
section
/-!
SUPPORT. What the bookkeeping of the compute-in-memory macros leaves unchanged: the rows of the context, and where the step stands.
-/

namespace Sys2Proof.Machine

theorem modMacro_vrows (c : Ctx) (m : Nat) (f : Macro → Macro) : (modMacro c m f).vrows = c.vrows := rfl

/-- A fold over macros that changes only macros keeps the rows. -/
theorem foldl_vrows (g : Ctx → Nat → Ctx) (h : ∀ c m, (g c m).vrows = c.vrows) (l : List Nat) (c : Ctx) :
    (l.foldl g c).vrows = c.vrows := by
  induction l generalizing c with
  | nil => rfl
  | cons a r ih => rw [List.foldl_cons, ih, h]

theorem modMacros_vrows (c : Ctx) (mask : BitVec 8) (f : Macro → Macro) : (modMacros c mask f).vrows = c.vrows := by
  unfold modMacros
  apply foldl_vrows
  intro c m; split <;> rfl

@[simp] theorem occupy_vrows (s : State) (mask : BitVec 8) (a b c : Bool) (n : Nat) : (me (occupy s mask a b c n)).vrows = (me s).vrows := by
  unfold occupy
  rw [me_modMe]
  exact modMacros_vrows _ _ _

@[simp] theorem fixSplits_vrows (s : State) (mask : BitVec 8) : (me (fixSplits s mask)).vrows = (me s).vrows := by
  unfold fixSplits
  rw [me_modMe]
  apply foldl_vrows
  intro c m; split <;> rfl

/-- A row or column read depends on the rows alone. -/
theorem readVec_congr {c d : Ctx} (h : c.vrows = d.vrows) (v : BitVec 13) : readVec c v = readVec d v := by
  simp only [readVec, readView, vrow, h]

@[simp] theorem checkBank_cur (s : State) (m : Nat) (b : Bool) : (checkBank s m b).cur = s.cur := by
  unfold checkBank; dsimp only; split <;> rfl

end Sys2Proof.Machine
end

