-- ==== Sys2Proof/Laws/Frames.lean ====
section
/-!
SUPPORT. What the record and correction operations leave alone: everything but the marks, the fault buffer, the I/O die's registers
and the reliability tables; and small laws about folds and choices.
-/

namespace Sys2Proof.Machine

/-- A property that every step of a fold keeps holds at its end. -/
theorem foldl_keep {α β : Type} (P : β → Prop) (f : β → α → β) (h : ∀ b a, P b → P (f b a)) : ∀ (l : List α) (b : β), P b → P (l.foldl f b)
  | [], _, hb => hb
  | a :: r, b, hb => foldl_keep P f h r (f b a) (h b a hb)

/-- A property that every step of a fold over members of a list keeps holds at its end. -/
theorem foldl_keep_mem {α β : Type} (P : β → Prop) (f : β → α → β) : ∀ (l : List α) (b : β), (∀ b, ∀ a ∈ l, P b → P (f b a)) → P b → P (l.foldl f b)
  | [], _, _, hb => hb
  | a :: r, b, h, hb =>
    foldl_keep_mem P f r (f b a) (fun b x hx => h b x (List.mem_cons_of_mem _ hx)) (h b a List.mem_cons_self hb)

/-- A property of both branches holds of the choice. -/
theorem ite_both {α : Type} (P : α → Prop) {c : Prop} [Decidable c] {a b : α} (ha : P a) (hb : P b) : P (if c then a else b) := by
  split
  · exact ha
  · exact hb

/-- The places where programs run and their data agree in two states. -/
def SameRun (t s : State) : Prop :=
  t.ctxs = s.ctxs ∧ t.stables = s.stables ∧ t.stalls = s.stalls ∧ t.yards = s.yards ∧ t.launches = s.launches ∧ t.round = s.round ∧
  t.dev = s.dev ∧ t.hostMem = s.hostMem ∧ t.istore = s.istore ∧ t.sstore = s.sstore ∧ t.cxl = s.cxl

theorem SameRun.refl (s : State) : SameRun s s := ⟨rfl, rfl, rfl, rfl, rfl, rfl, rfl, rfl, rfl, rfl, rfl⟩
theorem SameRun.trans {t u s : State} (h : SameRun t u) (k : SameRun u s) : SameRun t s := by
  obtain ⟨a, b, c, d, e, f, g, i, j, l, m⟩ := h
  obtain ⟨a2, b2, c2, d2, e2, f2, g2, i2, j2, l2, m2⟩ := k
  exact ⟨a.trans a2, b.trans b2, c.trans c2, d.trans d2, e.trans e2, f.trans f2, g.trans g2, i.trans i2, j.trans j2, l.trans l2, m.trans m2⟩
theorem SameRun.ctxOf {t s : State} (h : SameRun t s) (i : Nat) : ctxOf t i = ctxOf s i := by unfold Machine.ctxOf; rw [h.1]
theorem SameRun.stableAt {t s : State} (h : SameRun t s) (i : Nat) : stableAt t i = stableAt s i := by
  unfold Machine.stableAt; rw [h.2.1]
theorem SameRun.yardAt {t s : State} (h : SameRun t s) (i : Nat) : yardAt t i = yardAt s i := by
  unfold Machine.yardAt; rw [h.2.2.2.1]
theorem SameRun.launchAt {t s : State} (h : SameRun t s) (i : Nat) : launchAt t i = launchAt s i := by
  unfold Machine.launchAt; rw [h.2.2.2.2.1]

theorem SameRun.devRead {t s : State} (h : SameRun t s) (a n : Nat) : devRead t a n = devRead s a n := by
  unfold Machine.devRead; rw [h.2.2.2.2.2.2.1]
theorem SameRun.devLe {t s : State} (h : SameRun t s) (a n : Nat) : devLe t a n = devLe s a n := by unfold Machine.devLe; rw [h.devRead]
theorem SameRun.entryWord {t s : State} (h : SameRun t s) (table i k : Nat) : entryWord t table i k = entryWord s table i k := by
  unfold Machine.entryWord; rw [h.devLe]
theorem SameRun.requantisable {t s : State} (h : SameRun t s) (table : Nat) : requantisable t table = requantisable s table := by
  unfold Machine.requantisable; rw [h.devLe]
theorem SameRun.tileState {t s : State} (h : SameRun t s) (x : Tensor) (i : Nat) : tileState t x i = tileState s x i := by
  unfold Machine.tileState entryBad headerWrong headerBad; simp only [h.entryWord, h.requantisable, h.devRead]
theorem SameRun.memRead {t s : State} (h : SameRun t s) (x : Tensor) (a n : Nat) : memRead t x a n = memRead s x a n := by
  unfold Machine.memRead hostRead hostLine; rw [h.devRead, h.2.2.2.2.2.2.2.1, h.2.2.2.2.2.2.2.2.2.2]
theorem SameRun.compactRead {t s : State} (h : SameRun t s) (f a b off n : Nat) : compactRead t f a b off n = compactRead s f a b off n := by
  unfold Machine.compactRead; simp only [h.devLe]

theorem ctxOf_congr {s t : State} (h : s.ctxs = t.ctxs) (i : Nat) : ctxOf s i = ctxOf t i := by unfold ctxOf; rw [h]
theorem launchAt_congr {s t : State} (h : s.launches = t.launches) (i : Nat) : launchAt s i = launchAt t i := by unfold launchAt; rw [h]

theorem putRecord_run (s : State) (r d) : SameRun (putRecord s r d) s := ite_both (SameRun · s) (SameRun.refl s) (SameRun.refl s)
theorem putRecord_marks (s : State) (r d) : (putRecord s r d).marks = s.marks := ite_both (fun t : State => t.marks = s.marks) rfl rfl
theorem trackRow_run (s : State) (k r) : SameRun (trackRow s k r) s := by
  unfold trackRow; dsimp only; split
  · exact ite_both (SameRun · s) (putRecord_run ..) (SameRun.refl s)
  · exact ite_both (SameRun · s) (putRecord_run ..) (SameRun.refl s)
theorem trackRow_marks (s : State) (k r) : (trackRow s k r).marks = s.marks := by
  unfold trackRow; dsimp only; split
  · exact ite_both (fun t : State => t.marks = s.marks) (putRecord_marks ..) rfl
  · exact ite_both (fun t : State => t.marks = s.marks) (putRecord_marks ..) rfl
theorem corrected_run (s : State) (p st row b sy ad) : SameRun (corrected s p st row b sy ad) s :=
  ite_both (SameRun · s) (trackRow_run ..) (putRecord_run ..)
theorem corrected_marks (s : State) (p st row b sy ad) : (corrected s p st row b sy ad).marks = s.marks :=
  ite_both (fun t : State => t.marks = s.marks) (trackRow_marks ..) (putRecord_marks ..)
theorem correctMark_run (s : State) (m) : SameRun (correctMark s m) s := corrected_run ..
theorem correctMark_marks (s : State) (m) : (correctMark s m).marks = s.marks.filter (· != m) := corrected_marks ..
theorem correctList_run (l : List Mark) (s : State) : SameRun (l.foldl correctMark s) s :=
  foldl_keep (SameRun · s) _ (fun _ m h => (correctMark_run _ m).trans h) l s (SameRun.refl s)
theorem correctList_marks (l : List Mark) : ∀ (s : State), (l.foldl correctMark s).marks = s.marks.filter (fun m => !l.contains m) := by
  induction l with
  | nil => intro s; exact (List.filter_eq_self.mpr (fun _ _ => rfl)).symm
  | cons a r ih =>
    intro s
    rw [List.foldl_cons, ih, correctMark_marks, List.filter_filter]; congr 1; funext m
    simp only [List.contains_cons, Bool.not_or]; rw [Bool.and_comm]; rfl
/-- Correcting single-bit errors changes nothing where programs run. -/
theorem correctAll_run (s : State) (hit : Mark → Bool) : SameRun (correctAll s hit) s := correctList_run ..
/-- The marks left by a correction. -/
theorem correctAll_marks (s : State) (hit : Mark → Bool) :
    (correctAll s hit).marks = s.marks.filter (fun m => !(s.marks.filter (fun m => !m.bad && hit m)).contains m) := correctList_marks ..
theorem correctRanges_run (s : State) (rs : List (Tensor × Nat × Nat)) : SameRun (correctRanges s rs) s := by
  unfold correctRanges; split
  · exact SameRun.refl s
  · exact correctAll_run ..
/-- Finding uncorrectable errors changes nothing where programs run. -/
theorem findBad_run (s : State) (hit : Mark → Bool) (told : Bool) : SameRun (findBad s hit told) s := by
  unfold findBad; dsimp only; split
  · exact SameRun.refl s
  · refine ite_both (SameRun · s) ?_ (SameRun.refl s)
    exact foldl_keep (SameRun · s) _ (fun b m h => (putRecord_run ..).trans h) _ _ (SameRun.refl s)
/-- A read of stored words, which corrects and finds their errors, changes nothing where programs run. -/
theorem readWords_run (s : State) (st ow sz rs) : SameRun (readWords s st ow sz rs) s := by
  unfold readWords; split
  · exact SameRun.refl s
  · exact (findBad_run ..).trans (correctAll_run ..)
/-- What a requantisation job's read of its source leaves alone (R383, log 142). -/
theorem readSource_run (s : State) (t : Tensor) (i op : Nat) : SameRun (readSource s t i op) s := by
  unfold readSource; dsimp only; split
  · exact SameRun.refl s
  · split <;> exact readWords_run ..
theorem SameRun.tileElems {t s : State} (h : SameRun t s) (x : Tensor) (i : Nat) : tileElems t x i = tileElems s x i := by
  unfold Machine.tileElems; rw [h.tileState, h.devRead, h.entryWord]
@[simp] theorem clearMarks_ctxs (s : State) (st ow sz lo hi : Nat) : (clearMarks s st ow sz lo hi).ctxs = s.ctxs := rfl
@[simp] theorem clearMarks_launches (s : State) (st ow sz lo hi : Nat) : (clearMarks s st ow sz lo hi).launches = s.launches := rfl
@[simp] theorem clearMarks_stables (s : State) (st ow sz lo hi : Nat) : (clearMarks s st ow sz lo hi).stables = s.stables := rfl
@[simp] theorem clearMarks_yards (s : State) (st ow sz lo hi : Nat) : (clearMarks s st ow sz lo hi).yards = s.yards := rfl
@[simp] theorem clearMarks_stalls (s : State) (st ow sz lo hi : Nat) : (clearMarks s st ow sz lo hi).stalls = s.stalls := rfl
@[simp] theorem clearMarks_mcycle (s : State) (st ow sz lo hi : Nat) : (clearMarks s st ow sz lo hi).mcycle = s.mcycle := rfl
@[simp] theorem clearMarks_cxl (s : State) (st ow sz lo hi : Nat) : (clearMarks s st ow sz lo hi).cxl = s.cxl := rfl
@[simp] theorem clearMarks_sec (s : State) (st ow sz lo hi : Nat) : (clearMarks s st ow sz lo hi).sec = s.sec := rfl
@[simp] theorem ctxOf_clearMarks (s : State) (st ow sz lo hi : Nat) (i' : Nat) : ctxOf (clearMarks s st ow sz lo hi) i' = ctxOf s i' := rfl
@[simp] theorem launchAt_clearMarks (s : State) (st ow sz lo hi : Nat) (i' : Nat) : launchAt (clearMarks s st ow sz lo hi) i' = launchAt s i' := rfl
@[simp] theorem stableAt_clearMarks (s : State) (st ow sz lo hi : Nat) (i' : Nat) : stableAt (clearMarks s st ow sz lo hi) i' = stableAt s i' := rfl
@[simp] theorem yardAt_clearMarks (s : State) (st ow sz lo hi : Nat) (i' : Nat) : yardAt (clearMarks s st ow sz lo hi) i' = yardAt s i' := rfl
@[simp] theorem devWrite_ctxs (s : State) (a : Nat) (d m : List Byte) : (devWrite s a d m).ctxs = s.ctxs := by
  unfold devWrite; dsimp only; split <;> rfl
@[simp] theorem devWrite_launches (s : State) (a : Nat) (d m : List Byte) : (devWrite s a d m).launches = s.launches := by
  unfold devWrite; dsimp only; split <;> rfl
@[simp] theorem devWrite_stables (s : State) (a : Nat) (d m : List Byte) : (devWrite s a d m).stables = s.stables := by
  unfold devWrite; dsimp only; split <;> rfl
@[simp] theorem devWrite_yards (s : State) (a : Nat) (d m : List Byte) : (devWrite s a d m).yards = s.yards := by
  unfold devWrite; dsimp only; split <;> rfl
@[simp] theorem devWrite_stalls (s : State) (a : Nat) (d m : List Byte) : (devWrite s a d m).stalls = s.stalls := by
  unfold devWrite; dsimp only; split <;> rfl
@[simp] theorem devWrite_mcycle (s : State) (a : Nat) (d m : List Byte) : (devWrite s a d m).mcycle = s.mcycle := by
  unfold devWrite; dsimp only; split <;> rfl
@[simp] theorem devWrite_cxl (s : State) (a : Nat) (d m : List Byte) : (devWrite s a d m).cxl = s.cxl := by
  unfold devWrite; dsimp only; split <;> rfl
@[simp] theorem devWrite_sec (s : State) (a : Nat) (d m : List Byte) : (devWrite s a d m).sec = s.sec := by
  unfold devWrite; dsimp only; split <;> rfl
@[simp] theorem ctxOf_devWrite (s : State) (a : Nat) (d m : List Byte) (i' : Nat) : ctxOf (devWrite s a d m) i' = ctxOf s i' := by
  unfold ctxOf; rw [devWrite_ctxs]
@[simp] theorem launchAt_devWrite (s : State) (a : Nat) (d m : List Byte) (i' : Nat) : launchAt (devWrite s a d m) i' = launchAt s i' := by
  unfold launchAt; rw [devWrite_launches]
@[simp] theorem stableAt_devWrite (s : State) (a : Nat) (d m : List Byte) (i' : Nat) : stableAt (devWrite s a d m) i' = stableAt s i' := by
  unfold stableAt; rw [devWrite_stables]
@[simp] theorem yardAt_devWrite (s : State) (a : Nat) (d m : List Byte) (i' : Nat) : yardAt (devWrite s a d m) i' = yardAt s i' := by
  unfold yardAt; rw [devWrite_yards]
@[simp] theorem devPut_ctxs (s : State) (a : Nat) (d : List Byte) : (devPut s a d).ctxs = s.ctxs := devWrite_ctxs ..
@[simp] theorem devPut_launches (s : State) (a : Nat) (d : List Byte) : (devPut s a d).launches = s.launches := devWrite_launches ..
@[simp] theorem devPut_stables (s : State) (a : Nat) (d : List Byte) : (devPut s a d).stables = s.stables := devWrite_stables ..
@[simp] theorem devPut_yards (s : State) (a : Nat) (d : List Byte) : (devPut s a d).yards = s.yards := devWrite_yards ..
@[simp] theorem devPut_stalls (s : State) (a : Nat) (d : List Byte) : (devPut s a d).stalls = s.stalls := devWrite_stalls ..
@[simp] theorem devPut_mcycle (s : State) (a : Nat) (d : List Byte) : (devPut s a d).mcycle = s.mcycle := devWrite_mcycle ..
@[simp] theorem devPut_cxl (s : State) (a : Nat) (d : List Byte) : (devPut s a d).cxl = s.cxl := devWrite_cxl ..
@[simp] theorem devPut_sec (s : State) (a : Nat) (d : List Byte) : (devPut s a d).sec = s.sec := devWrite_sec ..
@[simp] theorem ctxOf_devPut (s : State) (a : Nat) (d : List Byte) (i' : Nat) : ctxOf (devPut s a d) i' = ctxOf s i' := by
  unfold ctxOf; rw [devPut_ctxs]
@[simp] theorem launchAt_devPut (s : State) (a : Nat) (d : List Byte) (i' : Nat) : launchAt (devPut s a d) i' = launchAt s i' := by
  unfold launchAt; rw [devPut_launches]
@[simp] theorem stableAt_devPut (s : State) (a : Nat) (d : List Byte) (i' : Nat) : stableAt (devPut s a d) i' = stableAt s i' := by
  unfold stableAt; rw [devPut_stables]
@[simp] theorem yardAt_devPut (s : State) (a : Nat) (d : List Byte) (i' : Nat) : yardAt (devPut s a d) i' = yardAt s i' := by
  unfold yardAt; rw [devPut_yards]
@[simp] theorem roundWrite_ctxs (s : State) (sb bay off : Nat) (d m : List Byte) : (roundWrite s sb bay off d m).ctxs = s.ctxs := rfl
@[simp] theorem roundWrite_launches (s : State) (sb bay off : Nat) (d m : List Byte) : (roundWrite s sb bay off d m).launches = s.launches := rfl
@[simp] theorem roundWrite_stables (s : State) (sb bay off : Nat) (d m : List Byte) : (roundWrite s sb bay off d m).stables = s.stables := rfl
@[simp] theorem roundWrite_yards (s : State) (sb bay off : Nat) (d m : List Byte) : (roundWrite s sb bay off d m).yards = s.yards := rfl
@[simp] theorem roundWrite_stalls (s : State) (sb bay off : Nat) (d m : List Byte) : (roundWrite s sb bay off d m).stalls = s.stalls := rfl
@[simp] theorem roundWrite_mcycle (s : State) (sb bay off : Nat) (d m : List Byte) : (roundWrite s sb bay off d m).mcycle = s.mcycle := rfl
@[simp] theorem roundWrite_cxl (s : State) (sb bay off : Nat) (d m : List Byte) : (roundWrite s sb bay off d m).cxl = s.cxl := rfl
@[simp] theorem roundWrite_sec (s : State) (sb bay off : Nat) (d m : List Byte) : (roundWrite s sb bay off d m).sec = s.sec := rfl
@[simp] theorem ctxOf_roundWrite (s : State) (sb bay off : Nat) (d m : List Byte) (i' : Nat) : ctxOf (roundWrite s sb bay off d m) i' = ctxOf s i' := rfl
@[simp] theorem launchAt_roundWrite (s : State) (sb bay off : Nat) (d m : List Byte) (i' : Nat) : launchAt (roundWrite s sb bay off d m) i' = launchAt s i' := rfl
@[simp] theorem stableAt_roundWrite (s : State) (sb bay off : Nat) (d m : List Byte) (i' : Nat) : stableAt (roundWrite s sb bay off d m) i' = stableAt s i' := rfl
@[simp] theorem yardAt_roundWrite (s : State) (sb bay off : Nat) (d m : List Byte) (i' : Nat) : yardAt (roundWrite s sb bay off d m) i' = yardAt s i' := rfl
@[simp] theorem poisonRange_ctxs (s : State) (st ow sz lo n : Nat) : (poisonRange s st ow sz lo n).ctxs = s.ctxs := rfl
@[simp] theorem poisonRange_launches (s : State) (st ow sz lo n : Nat) : (poisonRange s st ow sz lo n).launches = s.launches := rfl
@[simp] theorem poisonRange_stables (s : State) (st ow sz lo n : Nat) : (poisonRange s st ow sz lo n).stables = s.stables := rfl
@[simp] theorem poisonRange_yards (s : State) (st ow sz lo n : Nat) : (poisonRange s st ow sz lo n).yards = s.yards := rfl
@[simp] theorem poisonRange_stalls (s : State) (st ow sz lo n : Nat) : (poisonRange s st ow sz lo n).stalls = s.stalls := rfl
@[simp] theorem poisonRange_mcycle (s : State) (st ow sz lo n : Nat) : (poisonRange s st ow sz lo n).mcycle = s.mcycle := rfl
@[simp] theorem poisonRange_cxl (s : State) (st ow sz lo n : Nat) : (poisonRange s st ow sz lo n).cxl = s.cxl := rfl
@[simp] theorem poisonRange_sec (s : State) (st ow sz lo n : Nat) : (poisonRange s st ow sz lo n).sec = s.sec := rfl
@[simp] theorem ctxOf_poisonRange (s : State) (st ow sz lo n : Nat) (i' : Nat) : ctxOf (poisonRange s st ow sz lo n) i' = ctxOf s i' := rfl
@[simp] theorem launchAt_poisonRange (s : State) (st ow sz lo n : Nat) (i' : Nat) : launchAt (poisonRange s st ow sz lo n) i' = launchAt s i' := rfl
@[simp] theorem stableAt_poisonRange (s : State) (st ow sz lo n : Nat) (i' : Nat) : stableAt (poisonRange s st ow sz lo n) i' = stableAt s i' := rfl
@[simp] theorem yardAt_poisonRange (s : State) (st ow sz lo n : Nat) (i' : Nat) : yardAt (poisonRange s st ow sz lo n) i' = yardAt s i' := rfl
@[simp] theorem emitOut_ctxs (s : State) (o : Out) : (emitOut s o).ctxs = s.ctxs := rfl
@[simp] theorem emitOut_launches (s : State) (o : Out) : (emitOut s o).launches = s.launches := rfl
@[simp] theorem emitOut_stables (s : State) (o : Out) : (emitOut s o).stables = s.stables := rfl
@[simp] theorem emitOut_yards (s : State) (o : Out) : (emitOut s o).yards = s.yards := rfl
@[simp] theorem emitOut_stalls (s : State) (o : Out) : (emitOut s o).stalls = s.stalls := rfl
@[simp] theorem emitOut_mcycle (s : State) (o : Out) : (emitOut s o).mcycle = s.mcycle := rfl
@[simp] theorem emitOut_cxl (s : State) (o : Out) : (emitOut s o).cxl = s.cxl := rfl
@[simp] theorem emitOut_sec (s : State) (o : Out) : (emitOut s o).sec = s.sec := rfl
@[simp] theorem ctxOf_emitOut (s : State) (o : Out) (i' : Nat) : ctxOf (emitOut s o) i' = ctxOf s i' := rfl
@[simp] theorem launchAt_emitOut (s : State) (o : Out) (i' : Nat) : launchAt (emitOut s o) i' = launchAt s i' := rfl
@[simp] theorem stableAt_emitOut (s : State) (o : Out) (i' : Nat) : stableAt (emitOut s o) i' = stableAt s i' := rfl
@[simp] theorem yardAt_emitOut (s : State) (o : Out) (i' : Nat) : yardAt (emitOut s o) i' = yardAt s i' := rfl
@[simp] theorem postEvent_ctxs (s : State) (b : Nat) : (postEvent s b).ctxs = s.ctxs := rfl
@[simp] theorem postEvent_launches (s : State) (b : Nat) : (postEvent s b).launches = s.launches := rfl
@[simp] theorem postEvent_stables (s : State) (b : Nat) : (postEvent s b).stables = s.stables := rfl
@[simp] theorem postEvent_yards (s : State) (b : Nat) : (postEvent s b).yards = s.yards := rfl
@[simp] theorem postEvent_stalls (s : State) (b : Nat) : (postEvent s b).stalls = s.stalls := rfl
@[simp] theorem postEvent_mcycle (s : State) (b : Nat) : (postEvent s b).mcycle = s.mcycle := rfl
@[simp] theorem postEvent_cxl (s : State) (b : Nat) : (postEvent s b).cxl = s.cxl := rfl
@[simp] theorem postEvent_sec (s : State) (b : Nat) : (postEvent s b).sec = s.sec := rfl
@[simp] theorem ctxOf_postEvent (s : State) (b : Nat) (i' : Nat) : ctxOf (postEvent s b) i' = ctxOf s i' := rfl
@[simp] theorem launchAt_postEvent (s : State) (b : Nat) (i' : Nat) : launchAt (postEvent s b) i' = launchAt s i' := rfl
@[simp] theorem stableAt_postEvent (s : State) (b : Nat) (i' : Nat) : stableAt (postEvent s b) i' = stableAt s i' := rfl
@[simp] theorem yardAt_postEvent (s : State) (b : Nat) (i' : Nat) : yardAt (postEvent s b) i' = yardAt s i' := rfl
@[simp] theorem setPins_ctxs (s : State) (t i n : Nat) : (setPins s t i n).ctxs = s.ctxs := devPut_ctxs ..
@[simp] theorem setPins_launches (s : State) (t i n : Nat) : (setPins s t i n).launches = s.launches := devPut_launches ..
@[simp] theorem setPins_stables (s : State) (t i n : Nat) : (setPins s t i n).stables = s.stables := devPut_stables ..
@[simp] theorem setPins_yards (s : State) (t i n : Nat) : (setPins s t i n).yards = s.yards := devPut_yards ..
@[simp] theorem setPins_stalls (s : State) (t i n : Nat) : (setPins s t i n).stalls = s.stalls := devPut_stalls ..
@[simp] theorem setPins_mcycle (s : State) (t i n : Nat) : (setPins s t i n).mcycle = s.mcycle := devPut_mcycle ..
@[simp] theorem setPins_cxl (s : State) (t i n : Nat) : (setPins s t i n).cxl = s.cxl := devPut_cxl ..
@[simp] theorem setPins_sec (s : State) (t i n : Nat) : (setPins s t i n).sec = s.sec := devPut_sec ..
@[simp] theorem ctxOf_setPins (s : State) (t i n : Nat) (i' : Nat) : ctxOf (setPins s t i n) i' = ctxOf s i' := ctxOf_devPut ..
@[simp] theorem launchAt_setPins (s : State) (t i n : Nat) (i' : Nat) : launchAt (setPins s t i n) i' = launchAt s i' := launchAt_devPut ..
@[simp] theorem stableAt_setPins (s : State) (t i n : Nat) (i' : Nat) : stableAt (setPins s t i n) i' = stableAt s i' := stableAt_devPut ..
@[simp] theorem yardAt_setPins (s : State) (t i n : Nat) (i' : Nat) : yardAt (setPins s t i n) i' = yardAt s i' := yardAt_devPut ..

/-- Traffic counted changes no context, Stable, Yard or memory. -/
@[simp] theorem meter_ctxOf (s : State) (c : Nat) (rs) (i : Nat) : ctxOf (meter s c rs) i = ctxOf s i := rfl

end Sys2Proof.Machine
end

