-- ==== Sys2Proof/Laws/Inv.lean ====
section
/-!
SUPPORT. The parts of the step invariant, and how the shapes that definitions are made of keep it: a record update, a choice, a
fold, an outcome.
-/

namespace Sys2Proof.Machine

/-- The invariant part by part. -/
theorem State.inv_iff (s : State) :
    s.Inv ↔ Memory.wf s.round = true ∧ Memory.wf s.istore = true ∧ Memory.wf s.sstore = true ∧ Memory.wf s.dev = true ∧
      Memory.wf s.hostMem = true ∧ Memory.wf s.sec.flash = true ∧ s.fbuf.length ≤ 1024 := by
  simp [State.Inv, State.memories, and_assoc]

/-- The invariant with the two things that only a mailbox command of its own changes: the fuse counter at `n` and the flash at `f`
(R413, R414, R419). -/
def State.Good (s : State) (n : Nat) (f : List Host.Cell) : Prop := s.Inv ∧ s.sec.svnFuse = n ∧ s.sec.flash = f

variable {nF : Nat} {fl : List Host.Cell}

/-- Any state with the invariant is good at its own fuse counter and flash. -/
theorem good_self {s : State} (h : s.Inv) : s.Good s.sec.svnFuse s.sec.flash := ⟨h, rfl, rfl⟩

/-- The same part by part. -/
theorem State.good_iff (s : State) :
    s.Good nF fl ↔ Memory.wf s.round = true ∧ Memory.wf s.istore = true ∧ Memory.wf s.sstore = true ∧ Memory.wf s.dev = true ∧
      Memory.wf s.hostMem = true ∧ Memory.wf s.sec.flash = true ∧ s.fbuf.length ≤ 1024 ∧ s.sec.svnFuse = nF ∧ s.sec.flash = fl := by
  simp [State.Good, State.inv_iff, and_assoc]

/-- A state with the same memories and fault buffer keeps the invariant. -/
theorem inv_mk {s : State} {agenda inbox cur fresh mcycle yards stables stalls ctxs launches expected lastCmd tokens residents
    pinned iocsr ioWrites heldFaults fbOverflow heldTotal out cxl strikes marks rqJob rqDone rqResult hangSlot tcache rel sec control}
    (hf : (sec.svnFuse, sec.flash) = (s.sec.svnFuse, s.sec.flash)) (h : s.Good nF fl) :
    State.Good
      { agenda := agenda, inbox := inbox, cur := cur, fresh := fresh, mcycle := mcycle, yards := yards, stables := stables,
        stalls := stalls, ctxs := ctxs, round := s.round, istore := s.istore, sstore := s.sstore, dev := s.dev,
        hostMem := s.hostMem, launches := launches, expected := expected, lastCmd := lastCmd, tokens := tokens,
        residents := residents, pinned := pinned, iocsr := iocsr, ioWrites := ioWrites, fbuf := s.fbuf, heldFaults := heldFaults, fbOverflow := fbOverflow,
        heldTotal := heldTotal, out := out, cxl := cxl, strikes := strikes, marks := marks, rqJob := rqJob, rqDone := rqDone,
        rqResult := rqResult, hangSlot := hangSlot, tcache := tcache, rel := rel, sec := sec, control := control } nF fl := by
  obtain ⟨hn, hf⟩ := Prod.mk.inj hf
  rw [State.good_iff] at *
  simpa only [hf, hn] using h

/-- A choice keeps the invariant where its second branch does and its first builds on it. -/
theorem inv_ite {c : Prop} [Decidable c] {a b : State} (hb : b.Good nF fl) (ha : b.Good nF fl → a.Good nF fl) : (if c then a else b).Good nF fl := by
  split
  · exact ha hb
  · exact hb

/-- A choice keeps the invariant where both branches do. -/
theorem inv_ite' {c : Prop} [Decidable c] {a b : State} (ha : a.Good nF fl) (hb : b.Good nF fl) : (if c then a else b).Good nF fl := by
  split
  · exact ha
  · exact hb

/-- A fold keeps the invariant where each step does. -/
theorem inv_foldl {α : Type} {f : State → α → State} {l : List α} {s : State} (hs : s.Good nF fl)
    (hf : ∀ t a, State.Good t nF fl → State.Good (f t a) nF fl) : (l.foldl f s).Good nF fl := by
  induction l generalizing s with
  | nil => exact hs
  | cons a l ih => exact ih (hf s a hs)

/-- A value that may be absent: the state stays, or the step made with it keeps the invariant. -/
theorem inv_elim {α : Type} {o : Option α} {s : State} {f : α → State} (hs : s.Good nF fl) (hf : ∀ a, (f a).Good nF fl) : (o.elim s f).Good nF fl := by
  cases o
  · exact hs
  · exact hf _

/-- An outcome that keeps the invariant, the fuse counter and the flash: any next state has them. -/
def KeepsGood (n : Nat) (f : List Host.Cell) (o : Host.Outcome State Fault Refusal) : Prop := ∀ t, o = .next t → t.Good n f

/-- A good next state is such an outcome. -/
theorem keeps_next {t : State} (h : t.Good nF fl) : KeepsGood nF fl (.next t) := by
  rintro _ ⟨⟩; exact h

/-- A fault has no next state. -/
theorem keeps_fault {f : Fault} : KeepsGood nF fl (.fault f) := by rintro _ ⟨⟩

/-- A refusal has no next state. -/
theorem keeps_refused {r : Refusal} : KeepsGood nF fl (.refused r) := by rintro _ ⟨⟩

end Sys2Proof.Machine
end

