-- ==== Sys2Proof/Laws/Issue.lean ====
section
/-!
SUPPORT. When an operation's checks pass, and what it does then: once each for the shared checks and for `perform`.
-/

namespace Sys2Proof.Machine

@[simp] theorem need_true (code : Nat) : need true code = fine := rfl
theorem need_ok {b : Bool} (h : b = true) (code : Nat) : need b code = fine := by rw [h]; rfl
@[simp] theorem needBy_true (code n : Nat) : needBy true code n = fine := rfl
@[simp] theorem waitIf_false (w : Wait) (n : Nat) : waitIf false w n = fine := rfl
theorem waitIf_no {b : Bool} (h : b = false) (w : Wait) (n : Nat) : waitIf b w n = fine := by rw [h]; rfl
@[simp] theorem both_fine (a : Found) : both fine a = a := rfl
@[simp] theorem both_fine' (a : Found) : both a fine = a := by simp [both, fine]
@[simp] theorem allOf_nil : allOf [] = fine := rfl
@[simp] theorem allOf_cons (a : Found) (l : List Found) : allOf (a :: l) = both a (allOf l) := rfl
@[simp] theorem settle_fine (c : Ctx) : settle c fine = .ok := by simp [settle, fine, outcome, lowest]
@[simp] theorem illegalUnless_true : illegalUnless true = fine := rfl
theorem illegalUnless_false : illegalUnless false = ([(1, 0)], []) := rfl

theorem lockOn_none {c : Ctx} {tile : Nat} {w : Bool}
    (h : ∀ o ∈ c.ops, o.performed = false → o.issue < c.ccycle →
      match o.kind with | .spill _ t _ _ _ => w = true → t ≠ tile | .fill _ t _ _ => t ≠ tile | _ => True) :
    lockOn c tile w = none := by
  unfold lockOn
  rw [Option.map_eq_none_iff, List.find?_eq_none]
  intro o ho hp
  have := h o ho
  simp only [Bool.and_eq_true, Bool.not_eq_true', decide_eq_true_eq] at hp
  obtain ⟨⟨hp, hi⟩, hk⟩ := hp
  have := this hp hi
  cases hk' : o.kind <;> rw [hk'] at hk this <;> simp_all

theorem locks_fine {c : Ctx} {reads writes : List Nat} (h : Unlocked c reads writes) : locks c reads writes = fine := by
  have hr : reads.filterMap (fun t => lockOn c t false) = [] := by
    rw [List.filterMap_eq_nil_iff]; intro t ht
    apply lockOn_none; intro o ho hp hi
    have := h o ho hp hi
    cases hk : o.kind <;> rw [hk] at this <;> simp_all
    rintro rfl; exact this.1 ht
  have hw : writes.filterMap (fun t => lockOn c t true) = [] := by
    rw [List.filterMap_eq_nil_iff]; intro t ht
    apply lockOn_none; intro o ho hp hi
    have := h o ho hp hi
    cases hk : o.kind <;> rw [hk] at this <;> simp_all
    · rintro rfl; exact this ht
    · rintro rfl; exact this.2 ht
  simp [locks, hr, hw, fine]

theorem poisonFound_fine {s : State} {src : List (BitVec 13)} {ks : List (BitVec 8)} (h : Sound s src ks) :
    poisonFound s src ks = fine := by
  have : s.marks.filter (fun m => m.bad && m.owner == s.cur.ctx &&
      (m.struct == 1 && (src.flatMap (fun v => viewRows (vnum v) (vdir v))).any (· == m.unit) ||
        m.struct == 2 && ks.any (fun k => k.toNat == m.unit))) = [] := by
    rw [List.filter_eq_nil_iff]; intro m hm hb
    simp only [Bool.and_eq_true, beq_iff_eq, Bool.or_eq_true, List.any_eq_true, List.mem_flatMap] at hb
    obtain ⟨⟨hb, ho⟩, ⟨h1, x, ⟨v, hv, hx⟩, rfl⟩ | ⟨h2, k, hk, he⟩⟩ := hb
    · exact (h m hm hb ho).1 h1 v hv hx
    · exact (h m hm hb ho).2 h2 k hk he
  simp only [poisonFound]
  rw [this]
  rfl

theorem poisonRows_fine {s : State} {rows : List Nat} (h : SoundRows s rows) : poisonRows s rows = fine := by
  have : s.marks.filter (fun m => m.bad && m.owner == s.cur.ctx && m.struct == 1 && rows.any (· == m.unit)) = [] := by
    rw [List.filter_eq_nil_iff]; intro m hm hb
    simp only [Bool.and_eq_true, beq_iff_eq, List.any_eq_true] at hb
    obtain ⟨⟨⟨hb, ho⟩, h1⟩, x, hx, rfl⟩ := hb
    exact h m hm hb ho h1 hx
  simp only [poisonRows]
  rw [this]
  rfl

theorem usable_nil (s : State) : Usable s [] [] [] := by
  refine ⟨by simp, by simp, ?_, by simp [Sound]⟩
  intro o _ _ _; cases o.kind <;> simp

theorem common_ok {s : State} {p : BitVec 5} {dst src : List (BitVec 13)} {ks : List (BitVec 8)} {always rest : Found}
    (hu : Usable s dst src ks) (ha : always = fine) (hr : rest = fine) : common s p dst src ks always rest = .ok := by
  obtain ⟨h1, h2, h3, h4⟩ := hu
  have hv : (dst ++ src).all (vOk (me s)) = true := by
    rw [List.all_eq_true]; intro v hv; exact decide_eq_true (h1 v hv)
  have hk : ks.all (kOk (me s)) = true := by
    rw [List.all_eq_true]; intro v hv; exact decide_eq_true (h2 v hv)
  simp only [common, hv, hk, ha, hr, Bool.and_self, need_true, both_fine]
  split
  · rw [locks_fine h3, poisonFound_fine h4]; simp
  · simp

theorem common_nil {s : State} {p : BitVec 5} {always rest : Found} (ha : always = fine) (hr : rest = fine) :
    common s p [] [] [] always rest = .ok := common_ok (usable_nil s) ha hr

/-- The findings of an operation that names no vector operand and reads no scale register. -/
theorem common_nil_eq (s : State) (p : BitVec 5) (always rest : Found) :
    common s p [] [] [] always rest = settle (me s) (both always (if predTrue (me s) p then rest else fine)) := by
  have h1 : locks (me s) [] [] = fine := rfl
  have h2 : poisonFound s [] [] = fine := poisonFound_fine (usable_nil s).2.2.2
  show settle (me s) (both (both always fine)
    (if predTrue (me s) p then allOf [locks (me s) [] [], poisonFound s [] [], rest] else fine)) = _
  rw [h1, h2]
  simp

theorem perform_ok {s : State} {ck : Check} {p : BitVec 5} {eff : State → State} (h : ck = .ok) (hp : predTrue (me s) p = true) :
    perform s ck p eff = .next (eff s) := by subst h; simp [perform, hp]

theorem perform_off {s : State} {ck : Check} {p : BitVec 5} {eff : State → State} (h : ck = .ok) (hp : predTrue (me s) p = false) :
    perform s ck p eff = .next s := by subst h; simp [perform, hp]

theorem trafficFound_fine {s : State} {r : Traffic} (h : RoundFree s r) : trafficFound s r = fine := by
  obtain ⟨h1, h2, h3⟩ := h
  have a : r.1.all (fun t => inExtent (myLaunch s) t.bay t.off t.n) = true := by
    rw [List.all_eq_true]; exact h1
  have b : (stableAt s (stableOf s.cur.ctx)).trains.find?
      (fun b => (trainsOf s r).any (fun a => sameClass a.ctx b.ctx && meet s a b)) = none := by
    rw [List.find?_eq_none]; intro x hx hy
    simp only [List.any_eq_true, Bool.and_eq_true] at hy
    obtain ⟨y, hy, hc, hm⟩ := hy
    rw [h2 x hx y hy hc] at hm; cases hm
  have c : (stableAt s (stableOf s.cur.ctx)).reserves.find? (fun v => sameClass v.ctx s.cur.ctx &&
      r.1.any (fun t => (v.abay == t.bay || v.bbay == t.bay) &&
        decide (v.first ≤ yardOfUse s t.cyc) && decide (yardOfUse s t.cyc ≤ v.last))) = none := by
    rw [List.find?_eq_none]; intro x hx hy
    simp only [List.any_eq_true, Bool.and_eq_true, Bool.or_eq_true, beq_iff_eq, decide_eq_true_eq] at hy
    obtain ⟨hs, t, ht, ⟨hb, hf⟩, hl⟩ := hy
    exact h3 x hx hs t ht hb ⟨hf, hl⟩
  simp only [trafficFound, a, b, c, need_true]
  simp

theorem signed_toNat {w : Nat} (x : BitVec w) : signed w x.toNat = x.toInt := by
  unfold signed
  rw [BitVec.toInt_eq_toNat_cond, Nat.mod_eq_of_lt x.isLt]

theorem ofNat_toNat_setWidth {w : Nat} (x : BitVec w) : BitVec.ofNat 64 x.toNat = x.setWidth 64 := by
  apply BitVec.eq_of_toNat_eq; simp

theorem signExtend_eq {w : Nat} (x : BitVec w) : BitVec.ofInt 64 (signed w x.toNat) = x.signExtend 64 := by
  rw [signed_toNat]; rfl

theorem immOf_eq {n : Nat} (s : State) (psel : BitVec 2) (imm : BitVec n) (sext : Bool) :
    immOf s psel imm sext = immediate s psel imm sext := by
  have : psel = 0 ∨ psel = 1 ∨ psel = 2 ∨ psel = 3 := by revert psel; decide
  rcases this with rfl | rfl | rfl | rfl <;> cases sext <;>
    simp [immOf, immediate, poolValue, fld, -BitVec.extractLsb'_toNat, signExtend_eq]
theorem lowest_spec : ∀ (l : List (Nat × Nat)),
    match lowest l with | none => l = [] | some g => g ∈ l ∧ ∀ f ∈ l, g.1 ≤ f.1
  | [] => rfl
  | f :: r => by
    have ih := lowest_spec r
    unfold lowest
    cases hl : lowest r with
    | none => rw [hl] at ih; simp [ih]
    | some g =>
      rw [hl] at ih
      by_cases hg : g.1 < f.1
      · simp only [hg, if_true]
        refine ⟨List.mem_cons_of_mem _ ih.1, fun x hx => ?_⟩
        rcases List.mem_cons.mp hx with rfl | hx
        · omega
        · exact ih.2 x hx
      · simp only [hg, if_false]
        refine ⟨List.mem_cons_self, fun x hx => ?_⟩
        rcases List.mem_cons.mp hx with rfl | hx
        · omega
        · have := ih.2 x hx; omega

/-- The lowest of a list where one code and detail undercut all others. -/
theorem lowest_is {l : List (Nat × Nat)} {code info : Nat} (hm : (code, info) ∈ l) (hs : ∀ g ∈ l, code ≤ g.1 ∧ (g.1 = code → g.2 = info)) :
    lowest l = some (code, info) := by
  have sp := lowest_spec l
  cases h : lowest l with
  | none => rw [h] at sp; rw [sp] at hm; cases hm
  | some g =>
    rw [h] at sp
    have h1 := sp.2 _ hm
    have h2 := hs g sp.1
    cases g; simp only at h1 h2; rw [h2.2 (by omega)]; congr 1; ext <;> simp; omega

/-- A fault that no fault of the issue undercuts is the outcome, whatever waits there are (R93, R231). -/
theorem outcome_fault {hard soft : List (Nat × Nat)} {waits : List (Wait × Nat)} {code info : Nat} (hl : lowest hard = some (code, info))
    (hs : ∀ g ∈ soft, code ≤ g.1) : outcome hard soft waits = .fault code info := by
  have sp := lowest_spec soft
  unfold outcome; rw [hl]
  cases waits with
  | cons w r => rfl
  | nil =>
    cases h : lowest soft with
    | none => rfl
    | some g =>
      rw [h] at sp
      have := hs g sp.1
      dsimp only; rw [if_neg (by omega)]

/-- What R93 reports among findings: a fault whose code no finding undercuts, one of an issue (coded 256 above) among them. -/
theorem settle_fault {c : Ctx} {f : Found} {code info : Nat} (hm : (code, info) ∈ f.1) (hs : ∀ g ∈ f.1, code ≤ g.1 ∧ (g.1 = code → g.2 = info))
    (hi : ∀ g ∈ f.1, 256 ≤ g.1 → 256 + code ≤ g.1) (h7 : code < 7) : settle c f = .fault code info := by
  have soft : ∀ g ∈ (f.1.filter (fun g => 256 ≤ g.1)).map (fun g => (g.1 - 256, g.2)), code ≤ g.1 := by
    intro g hg
    simp only [List.mem_map, List.mem_filter, decide_eq_true_eq] at hg
    obtain ⟨a, ⟨ha, h2⟩, rfl⟩ := hg
    have := hi a ha h2; simp only; omega
  unfold settle; dsimp only
  split
  · refine outcome_fault (lowest_is (List.mem_append_left _ (by simp [hm]; omega)) fun g hg => ?_) soft
    rcases List.mem_append.mp hg with hg | hg
    · exact hs g (List.mem_filter.mp hg).1
    · simp only [List.mem_map] at hg; obtain ⟨_, _, rfl⟩ := hg; simp only; omega
  · exact outcome_fault (lowest_is (by simp [hm]; omega) fun g hg => hs g (List.mem_filter.mp hg).1) soft

end Sys2Proof.Machine
end

