-- ==== Sys2Proof/Laws/KeepOps.lean ====
section
/-!
SUPPORT. What each operation of Ops, Operands, Errors keeps: the invariant of every step (generated by form, one lemma for each operation).
-/

namespace Sys2Proof.Machine

variable {nF : Nat} {fl : List Host.Cell}

theorem modCtx_inv (s : State) (c : Nat) (f : Ctx → Ctx) (hInv : s.Good nF fl) : (modCtx s c f).Good nF fl := by
  unfold modCtx
  repeat' first | (with_reducible assumption) | ((with_reducible refine inv_mk rfl ?_); first | with_reducible assumption)

theorem modMe_inv (s : State) (f : Ctx → Ctx) (hInv : s.Good nF fl) : (modMe s f).Good nF fl := by
  unfold modMe
  repeat' first | (with_reducible assumption) | (with_reducible apply modCtx_inv)

theorem modStable_inv (s : State) (n : Nat) (f : Stable → Stable) (hInv : s.Good nF fl) : (modStable s n f).Good nF fl := by
  unfold modStable
  repeat' first | (with_reducible assumption) | ((with_reducible refine inv_mk rfl ?_); first | with_reducible assumption)

theorem modYard_inv (s : State) (n : Nat) (f : Yard → Yard) (hInv : s.Good nF fl) : (modYard s n f).Good nF fl := by
  unfold modYard
  repeat' first | (with_reducible assumption) | ((with_reducible refine inv_mk rfl ?_); first | with_reducible assumption)

theorem modStall_inv (s : State) (n : Nat) (f : Stall → Stall) (hInv : s.Good nF fl) : (modStall s n f).Good nF fl := by
  unfold modStall
  repeat' first | (with_reducible assumption) | ((with_reducible refine inv_mk rfl ?_); first | with_reducible assumption)

theorem modLaunch_inv (s : State) (n : Nat) (f : Launch → Launch) (hInv : s.Good nF fl) : (modLaunch s n f).Good nF fl := by
  unfold modLaunch
  repeat' first | (with_reducible assumption) | ((with_reducible refine inv_mk rfl ?_); first | with_reducible assumption)

theorem setIo_inv (s : State) (n : Nat) (v : Word) (hInv : s.Good nF fl) : (setIo s n v).Good nF fl := by
  unfold setIo
  repeat' first | (with_reducible assumption) | ((with_reducible refine inv_mk rfl ?_); first | with_reducible assumption)

theorem emit_inv (s : State) (lat : Nat) (e : Eff) (hInv : s.Good nF fl) : (emit s lat e).Good nF fl := by
  unfold emit
  repeat'
    first
      | (with_reducible assumption) | (with_reducible apply modMe_inv)
      | ((with_reducible refine inv_mk rfl ?_); first | with_reducible assumption | with_reducible apply modMe_inv)
      | (dsimp only)

theorem emitVec_inv (s : State) (lat : Nat) (vd : BitVec 13) (v : Row) (hInv : s.Good nF fl) :
    (emitVec s lat vd v).Good nF fl := by
  unfold emitVec
  repeat' first | (with_reducible assumption) | (with_reducible apply emit_inv)

theorem emitFlags_inv (s : State) (lat : Nat) (f : BitVec 5) (hInv : s.Good nF fl) : (emitFlags s lat f).Good nF fl := by
  unfold emitFlags
  repeat'
    first
      | (with_reducible assumption) | (with_reducible apply emit_inv) | (with_reducible apply inv_ite; rotate_left; intro _)
      | (split) | (dsimp only)

theorem emitS_inv (s : State) (lat : Nat) (d : BitVec 6) (v : Word) (hInv : s.Good nF fl) : (emitS s lat d v).Good nF fl := by
  unfold emitS
  repeat' first | (with_reducible assumption) | (with_reducible apply emit_inv)

theorem emitP_inv (s : State) (lat : Nat) (d : BitVec 4) (v : Bool) (hInv : s.Good nF fl) : (emitP s lat d v).Good nF fl := by
  unfold emitP
  repeat' first | (with_reducible assumption) | (with_reducible apply emit_inv)

theorem roundWrite_inv (s : State) (stable bay off : Nat) (data mask : List Byte) (h : s.Good nF fl) :
    (roundWrite s stable bay off data mask).Good nF fl := by
  rw [State.good_iff] at *
  exact ⟨wf_writeMasked _ _ _ _ h.1, h.2⟩

theorem foundHere_inv (s : State) (f : Raised) (hInv : s.Good nF fl) : (foundHere s f).Good nF fl := by
  unfold foundHere
  repeat'
    first
      | (with_reducible assumption) | (with_reducible apply inv_ite; rotate_left; intro _)
      | ((with_reducible refine inv_mk rfl ?_); first | with_reducible assumption | (with_reducible apply inv_ite; rotate_left; intro _) | split)
      | (split) | (dsimp only)

theorem postEvent_inv (s : State) (b : Nat) (hInv : s.Good nF fl) : (postEvent s b).Good nF fl := by
  unfold postEvent
  repeat' first | (with_reducible assumption) | (with_reducible apply setIo_inv)

theorem outTrains_inv (s : State) (c : Nat) (hInv : s.Good nF fl) : (outTrains s c).Good nF fl := by
  unfold outTrains
  repeat'
    first
      | (with_reducible assumption) | (with_reducible apply modStable_inv) | (with_reducible apply inv_ite; rotate_left; intro _)
      | ((with_reducible refine inv_mk rfl ?_); first | with_reducible assumption | with_reducible apply modStable_inv | (with_reducible apply inv_ite; rotate_left; intro _) | split)
      | (split) | (dsimp only)

theorem dropCapture_inv (s : State) (c : Nat) (hInv : s.Good nF fl) : (dropCapture s c).Good nF fl := by
  unfold dropCapture
  repeat'
    first
      | (with_reducible assumption) | (with_reducible apply inv_ite; rotate_left; intro _)
      | ((with_reducible refine inv_mk rfl ?_); first | with_reducible assumption | (with_reducible apply inv_ite; rotate_left; intro _) | split)
      | (split) | (dsimp only)

theorem logInputs_inv (s : State) (c n : Nat) (answers : List (Nat × Nat × OffAns)) (hInv : s.Good nF fl) :
    (logInputs s c n answers).Good nF fl := by
  unfold logInputs
  repeat'
    first
      | (with_reducible assumption) | (with_reducible apply dropCapture_inv)
      | (with_reducible apply inv_ite; rotate_left; intro _)
      | ((with_reducible refine inv_mk rfl ?_); first | with_reducible assumption | with_reducible apply dropCapture_inv | (with_reducible apply inv_ite; rotate_left; intro _) | split)
      | (split) | (dsimp only)

theorem endRun_inv (s : State) (c : Nat) (sig : Option Word) (hInv : s.Good nF fl) : (endRun s c sig).Good nF fl := by
  unfold endRun
  repeat'
    first
      | (with_reducible assumption) | (with_reducible apply modStable_inv) | (with_reducible apply outTrains_inv)
      | (with_reducible apply modCtx_inv)
      | ((with_reducible refine inv_mk rfl ?_); first | with_reducible assumption | with_reducible apply modStable_inv | with_reducible apply outTrains_inv | with_reducible apply modCtx_inv | split)
      | (split) | (dsimp only)

theorem endLaunch_inv (s : State) (n status code stall slot pc : Nat) (hInv : s.Good nF fl) :
    (endLaunch s n status code stall slot pc).Good nF fl := by
  unfold endLaunch
  repeat'
    first
      | (with_reducible assumption) | (with_reducible apply modCtx_inv) | (with_reducible apply dropCapture_inv)
      | (with_reducible apply modLaunch_inv) | (with_reducible apply inv_ite; rotate_left; intro _)
      | (with_reducible apply inv_foldl; rotate_left; intro _ _ _)
      | ((with_reducible refine inv_mk rfl ?_); first | with_reducible assumption | with_reducible apply modCtx_inv | with_reducible apply dropCapture_inv | with_reducible apply modLaunch_inv | (with_reducible apply inv_ite; rotate_left; intro _) | (with_reducible apply inv_foldl; rotate_left; intro _ _ _) | split)
      | (split) | (dsimp only)

theorem enterService_inv (s : State) (c cause code request : Nat) (hInv : s.Good nF fl) :
    (enterService s c cause code request).Good nF fl := by
  unfold enterService
  repeat'
    first
      | (with_reducible assumption) | (with_reducible apply modCtx_inv) | (with_reducible apply modStall_inv)
      | ((with_reducible refine inv_mk rfl ?_); first | with_reducible assumption | with_reducible apply modCtx_inv | with_reducible apply modStall_inv)
      | (dsimp only)

theorem opDone_inv (s : State) (c id : Nat) (a : OffAns) (hInv : s.Good nF fl) : (opDone s c id a).Good nF fl := by
  unfold opDone
  repeat'
    first
      | (with_reducible assumption) | (with_reducible apply modCtx_inv) | (with_reducible apply inv_ite; rotate_left; intro _)
      | ((with_reducible refine inv_mk rfl ?_); first | with_reducible assumption | with_reducible apply modCtx_inv | (with_reducible apply inv_ite; rotate_left; intro _) | split)
      | (split) | (dsimp only)

theorem opUnder_inv (s : State) (c id : Nat) (hInv : s.Good nF fl) : (opUnder s c id).Good nF fl := by
  unfold opUnder
  repeat'
    first
      | (with_reducible assumption) | (with_reducible apply modCtx_inv) | (with_reducible apply inv_ite; rotate_left; intro _)
      | ((with_reducible refine inv_mk rfl ?_); first | with_reducible assumption | with_reducible apply modCtx_inv | (with_reducible apply inv_ite; rotate_left; intro _) | split)
      | (split) | (dsimp only)

theorem dropAccess_inv (s : State) (c : Nat) (op : Option Nat) (hInv : s.Good nF fl) : (dropAccess s c op).Good nF fl := by
  unfold dropAccess
  repeat'
    first
      | (with_reducible assumption) | (with_reducible apply opDone_inv) | (with_reducible apply modCtx_inv)
      | (with_reducible apply inv_ite; rotate_left; intro _)
      | ((with_reducible refine inv_mk rfl ?_); first | with_reducible assumption | with_reducible apply opDone_inv | with_reducible apply modCtx_inv | (with_reducible apply inv_ite; rotate_left; intro _) | split)
      | (split) | (dsimp only)

theorem withhold_inv (s : State) (c : Nat) (hInv : s.Good nF fl) : (withhold s c).Good nF fl := by
  unfold withhold
  repeat'
    first
      | (with_reducible assumption) | (with_reducible apply modLaunch_inv) | (with_reducible apply inv_ite; rotate_left; intro _)
      | ((with_reducible refine inv_mk rfl ?_); first | with_reducible assumption | with_reducible apply modLaunch_inv | (with_reducible apply inv_ite; rotate_left; intro _) | split)
      | (split) | (dsimp only)

theorem holdMended_inv (s : State) (f : Raised) (hInv : s.Good nF fl) : (holdMended s f).Good nF fl := by
  unfold holdMended
  repeat'
    first
      | (with_reducible assumption) | (with_reducible apply modCtx_inv) | (with_reducible apply enterService_inv)
      | (with_reducible apply inv_ite; rotate_left; intro _)
      | ((with_reducible refine inv_mk rfl ?_); first | with_reducible assumption | with_reducible apply modCtx_inv | with_reducible apply enterService_inv | (with_reducible apply inv_ite; rotate_left; intro _) | split)
      | (split) | (dsimp only)

theorem handleFault_inv (s : State) (f : Raised) (hInv : s.Good nF fl) : (handleFault s f).Good nF fl := by
  unfold handleFault
  repeat'
    first
      | (with_reducible assumption) | (with_reducible apply enterService_inv) | (with_reducible apply withhold_inv)
      | (with_reducible apply modCtx_inv) | (with_reducible apply endLaunch_inv) | (with_reducible apply holdMended_inv)
      | (with_reducible apply inv_ite; rotate_left; intro _)
      | ((with_reducible refine inv_mk rfl ?_); first | with_reducible assumption | with_reducible apply enterService_inv | with_reducible apply withhold_inv | with_reducible apply modCtx_inv | with_reducible apply endLaunch_inv | with_reducible apply holdMended_inv | (with_reducible apply inv_ite; rotate_left; intro _) | split)
      | (split) | (dsimp only)

/-- A new entry of a fault buffer with room keeps the invariant. -/
theorem pushEntry_inv (s : State) (e : Entry) (h : s.Good nF fl) (hl : s.fbuf.length < 1024) :
    State.Good { s with fbuf := s.fbuf ++ [e] } nF fl := by
  rw [State.good_iff] at *
  refine ⟨h.1, h.2.1, h.2.2.1, h.2.2.2.1, h.2.2.2.2.1, h.2.2.2.2.2.1, ?_, h.2.2.2.2.2.2.2⟩
  simp; omega

theorem takeFault_inv (s : State) (g : Raised) (h : s.Good nF fl) : (takeFault s g).Good nF fl := by
  unfold takeFault
  split
  · exact endRun_inv _ _ _ h
  · extract_lets f u v w
    have hv : v.Good nF fl := foundHere_inv _ _ (inv_ite h fun h => dropCapture_inv _ _ h)
    clear_value v
    split
    · exact endLaunch_inv _ _ _ _ _ _ _ hv
    · split
      · exact handleFault_inv _ _ (postEvent_inv _ _ (pushEntry_inv _ _ hv ‹_›))
      · exact modCtx_inv _ _ _ (inv_mk rfl hv)

theorem placeFault_inv (s : State) (f : Raised) (h : s.Good nF fl) : (placeFault s f).Good nF fl := by
  unfold placeFault
  split
  · exact postEvent_inv _ _ (pushEntry_inv _ _ h ‹_›)
  · exact inv_mk rfl h

theorem lostFault_inv (s : State) (f : Raised) (hInv : s.Good nF fl) : (lostFault s f).Good nF fl := by
  unfold lostFault
  repeat'
    first
      | (with_reducible assumption) | (with_reducible apply placeFault_inv) | (with_reducible apply endLaunch_inv)
      | (with_reducible apply inv_ite; rotate_left; intro _) | (split) | (dsimp only)

theorem dueFault_inv (s : State) (f : Raised) (hInv : s.Good nF fl) : (dueFault s f).Good nF fl := by
  unfold dueFault
  repeat'
    first
      | (with_reducible assumption) | (with_reducible apply placeFault_inv) | (with_reducible apply lostFault_inv)
      | (with_reducible apply takeFault_inv) | (with_reducible apply inv_ite; rotate_left; intro _) | (split) | (dsimp only)

theorem postFault_inv (s : State) (f : Raised) (hInv : s.Good nF fl) : (postFault s f).Good nF fl := by
  unfold postFault
  repeat'
    first
      | (with_reducible assumption) | (with_reducible apply modCtx_inv) | (with_reducible apply inv_ite; rotate_left; intro _)
      | ((with_reducible refine inv_mk rfl ?_); first | with_reducible assumption | with_reducible apply modCtx_inv | (with_reducible apply inv_ite; rotate_left; intro _) | split)
      | (split) | (dsimp only)

theorem raiseHere_inv (s : State) (code info : Nat) (hInv : s.Good nF fl) : (raiseHere s code info).Good nF fl := by
  unfold raiseHere
  repeat' first | (with_reducible assumption) | (with_reducible apply takeFault_inv)

theorem resumeServed_inv (s : State) (c : Nat) (hInv : s.Good nF fl) : (resumeServed s c).Good nF fl := by
  unfold resumeServed
  repeat'
    first
      | (with_reducible assumption) | (with_reducible apply modLaunch_inv) | (with_reducible apply modCtx_inv)
      | (with_reducible apply inv_ite; rotate_left; intro _)
      | ((with_reducible refine inv_mk rfl ?_); first | with_reducible assumption | with_reducible apply modLaunch_inv | with_reducible apply modCtx_inv | (with_reducible apply inv_ite; rotate_left; intro _) | split)
      | (split) | (dsimp only)

theorem putRecord_inv (s : State) (r d : BitVec 128) (h : s.Good nF fl) : (putRecord s r d).Good nF fl := by
  unfold putRecord
  split
  · exact postEvent_inv _ _ (pushEntry_inv _ _ h ‹_›)
  · exact setIo_inv _ _ _ h

theorem trackRow_inv (s : State) (key : Nat) (rec : BitVec 128) (hInv : s.Good nF fl) : (trackRow s key rec).Good nF fl := by
  unfold trackRow
  repeat'
    first
      | (with_reducible assumption) | (with_reducible apply putRecord_inv) | (with_reducible apply inv_ite; rotate_left; intro _)
      | (with_reducible apply inv_foldl; rotate_left; intro _ _ _)
      | ((with_reducible refine inv_mk rfl ?_); first | with_reducible assumption | with_reducible apply putRecord_inv | (with_reducible apply inv_ite; rotate_left; intro _) | (with_reducible apply inv_foldl; rotate_left; intro _ _ _) | split)
      | (split) | (dsimp only)

theorem corrected_inv (s : State) (place : Nat × Nat × Nat × Nat) (struct row bit synd addr : Nat) (hInv : s.Good nF fl) :
    (corrected s place struct row bit synd addr).Good nF fl := by
  unfold corrected
  repeat'
    first
      | (with_reducible assumption) | (with_reducible apply trackRow_inv) | (with_reducible apply putRecord_inv)
      | (with_reducible apply inv_ite; rotate_left; intro _) | (with_reducible apply inv_foldl; rotate_left; intro _ _ _)
      | ((with_reducible refine inv_mk rfl ?_); first | with_reducible assumption | with_reducible apply trackRow_inv | with_reducible apply putRecord_inv | (with_reducible apply inv_ite; rotate_left; intro _) | (with_reducible apply inv_foldl; rotate_left; intro _ _ _) | split)
      | (split) | (dsimp only)

theorem poisonRecord_inv (s : State) (m : Mark) (hInv : s.Good nF fl) : (poisonRecord s m).Good nF fl := by
  unfold poisonRecord
  repeat' first | (with_reducible assumption) | (with_reducible apply putRecord_inv)

theorem correctMark_inv (s : State) (m : Mark) (hInv : s.Good nF fl) : (correctMark s m).Good nF fl := by
  unfold correctMark
  repeat'
    first
      | (with_reducible assumption) | (with_reducible apply corrected_inv)
      | ((with_reducible refine inv_mk rfl ?_); first | with_reducible assumption | with_reducible apply corrected_inv)
      | (dsimp only)

theorem correctAll_inv (s : State) (hit : Mark → Bool) (hInv : s.Good nF fl) : (correctAll s hit).Good nF fl := by
  unfold correctAll
  repeat'
    first
      | (with_reducible assumption) | (with_reducible apply correctMark_inv)
      | (with_reducible apply inv_foldl; rotate_left; intro _ _ _) | (dsimp only)

theorem findBad_inv (s : State) (hit : Mark → Bool) (told : Bool) (hInv : s.Good nF fl) : (findBad s hit told).Good nF fl := by
  unfold findBad
  repeat'
    first
      | (with_reducible assumption) | (with_reducible apply poisonRecord_inv)
      | (with_reducible apply inv_ite; rotate_left; intro _) | (with_reducible apply inv_foldl; rotate_left; intro _ _ _)
      | ((with_reducible refine inv_mk rfl ?_); first | with_reducible assumption | with_reducible apply poisonRecord_inv | (with_reducible apply inv_ite; rotate_left; intro _) | (with_reducible apply inv_foldl; rotate_left; intro _ _ _) | split)
      | (split) | (dsimp only)

theorem clearMarks_inv (s : State) (struct owner size lo hi : Nat) (hInv : s.Good nF fl) :
    (clearMarks s struct owner size lo hi).Good nF fl := by
  unfold clearMarks
  repeat'
    first
      | (with_reducible assumption) | ((with_reducible refine inv_mk rfl ?_); first | with_reducible assumption) | (dsimp only)

theorem readWords_inv (s : State) (struct owner size : Nat) (rs : List (Nat × Nat)) (hInv : s.Good nF fl) :
    (readWords s struct owner size rs).Good nF fl := by
  unfold readWords
  repeat'
    first
      | (with_reducible assumption) | (with_reducible apply findBad_inv) | (with_reducible apply correctAll_inv)
      | (with_reducible apply inv_ite; rotate_left; intro _) | (split) | (dsimp only)

theorem poisonRange_inv (s : State) (struct owner size lo n : Nat) (hInv : s.Good nF fl) :
    (poisonRange s struct owner size lo n).Good nF fl := by
  unfold poisonRange
  repeat'
    first
      | (with_reducible assumption) | ((with_reducible refine inv_mk rfl ?_); first | with_reducible assumption) | (dsimp only)

end Sys2Proof.Machine
end

