-- ==== Sys2Proof/Laws/KeepTiles.lean ====
section
/-!
SUPPORT. What each operation of Tiles, Cxl, Replay, Block, Yards, Secure, Priv, Checks, Flags, Perform keeps: the invariant of every step (generated by form, one lemma for each operation).
-/

namespace Sys2Proof.Machine

variable {nF : Nat} {fl : List Host.Cell}

/-- Device memory replaced by canonical contents keeps the invariant. -/
theorem inv_dev {s : State} {m : Map Byte} (h : s.Good nF fl) (hm : Memory.wf m = true) :
    State.Good { s with dev := m } nF fl := by
  rw [State.good_iff] at *
  exact ⟨h.1, h.2.1, h.2.2.1, hm, h.2.2.2.2⟩

/-- The round replaced by canonical contents keeps the invariant. -/
theorem inv_round {s : State} {m : Map Byte} (h : s.Good nF fl) (hm : Memory.wf m = true) :
    State.Good { s with round := m } nF fl := by
  rw [State.good_iff] at *
  exact ⟨hm, h.2⟩

/-- The instruction store replaced by canonical contents keeps the invariant. -/
theorem inv_istore {s : State} {m : Map Byte} (h : s.Good nF fl) (hm : Memory.wf m = true) :
    State.Good { s with istore := m } nF fl := by
  rw [State.good_iff] at *
  exact ⟨h.1, hm, h.2.2⟩

/-- The service stores replaced by canonical contents keep the invariant. -/
theorem inv_sstore {s : State} {m : Map Byte} (h : s.Good nF fl) (hm : Memory.wf m = true) :
    State.Good { s with sstore := m } nF fl := by
  rw [State.good_iff] at *
  exact ⟨h.1, h.2.1, hm, h.2.2.2⟩

/-- Host memory replaced by canonical contents keeps the invariant. -/
theorem inv_hostMem {s : State} {m : Map Byte} (h : s.Good nF fl) (hm : Memory.wf m = true) :
    State.Good { s with hostMem := m } nF fl := by
  rw [State.good_iff] at *
  exact ⟨h.1, h.2.1, h.2.2.1, h.2.2.2.1, hm, h.2.2.2.2.2⟩

/-- The security block replaced by one with a canonical flash keeps the invariant. -/
theorem inv_sec {s : State} {c : Sec} (h : s.Good nF fl) (hm : Memory.wf c.flash = true) :
    State.Good { s with sec := c } c.svnFuse c.flash := by
  rw [State.good_iff] at *
  exact ⟨h.1, h.2.1, h.2.2.1, h.2.2.2.1, h.2.2.2.2.1, hm, h.2.2.2.2.2.2.1, rfl, rfl⟩

/-- A fault buffer with no more entries keeps the invariant. -/
theorem inv_fbuf {s : State} {l : List Entry} (h : s.Good nF fl) (hl : l.length ≤ s.fbuf.length) :
    State.Good { s with fbuf := l } nF fl := by
  rw [State.good_iff] at *
  exact ⟨h.1, h.2.1, h.2.2.1, h.2.2.2.1, h.2.2.2.2.1, h.2.2.2.2.2.1, Nat.le_trans hl h.2.2.2.2.2.2.1, h.2.2.2.2.2.2.2⟩

/-- The invariant's part on device memory. -/
theorem State.Good.dev {s : State} (h : s.Good nF fl) : Memory.wf s.dev = true := ((State.good_iff s).1 h).2.2.2.1

/-- The invariant's part on the round. -/
theorem State.Good.round {s : State} (h : s.Good nF fl) : Memory.wf s.round = true := ((State.good_iff s).1 h).1

/-- The invariant's part on the instruction store. -/
theorem State.Good.istore {s : State} (h : s.Good nF fl) : Memory.wf s.istore = true := ((State.good_iff s).1 h).2.1

/-- The invariant's part on host memory. -/
theorem State.Good.hostMem {s : State} (h : s.Good nF fl) : Memory.wf s.hostMem = true := ((State.good_iff s).1 h).2.2.2.2.1

/-- The invariant's part on the service stores. -/
theorem State.Good.sstore {s : State} (h : s.Good nF fl) : Memory.wf s.sstore = true := ((State.good_iff s).1 h).2.2.1

/-- The invariant's part on the flash. -/
theorem State.Good.flash {s : State} (h : s.Good nF fl) : Memory.wf s.sec.flash = true := ((State.good_iff s).1 h).2.2.2.2.2.1

theorem devWrite_inv (s : State) (a : Nat) (data mask : List Byte) (h : s.Good nF fl) : (devWrite s a data mask).Good nF fl := by
  unfold devWrite
  extract_lets m u t
  have hu : u.Good nF fl := inv_ite' (clearMarks_inv s 0x18 0 64 _ _ h) (inv_mk rfl h)
  clear_value u
  exact inv_mk rfl (inv_dev hu (wf_writeMasked _ _ _ _ hu.dev))

theorem devPut_inv (s : State) (a : Nat) (data : List Byte) (hInv : s.Good nF fl) : (devPut s a data).Good nF fl := by
  unfold devPut
  repeat' first | (with_reducible assumption) | (with_reducible apply devWrite_inv)

theorem writeBack_inv (s : State) (line : Nat) (h : s.Good nF fl) : (writeBack s line).Good nF fl := by
  unfold writeBack
  split
  · rename_i e _
    have hr := readWords_inv s 0x19 0 64 [(64 * line, 64)] h
    exact inv_mk rfl (inv_hostMem hr (wf_writeBytes _ (64 * line) (leBytes 64 e.2.toNat) hr.hostMem))
  · exact h

theorem holdLine_inv (s : State) (line : Nat) (v : BitVec 512) (hInv : s.Good nF fl) : (holdLine s line v).Good nF fl := by
  unfold holdLine
  repeat'
    first
      | (with_reducible assumption) | (with_reducible apply writeBack_inv) | (with_reducible apply inv_ite; rotate_left; intro _)
      | ((with_reducible refine inv_mk rfl ?_); first | with_reducible assumption | with_reducible apply writeBack_inv | (with_reducible apply inv_ite; rotate_left; intro _) | split)
      | (split) | (dsimp only)

theorem hostWrite_inv (s : State) (a : Nat) (data mask : List Byte) (hInv : s.Good nF fl) :
    (hostWrite s a data mask).Good nF fl := by
  unfold hostWrite
  repeat'
    first
      | (with_reducible assumption) | (with_reducible apply holdLine_inv) | (with_reducible apply inv_ite; rotate_left; intro _)
      | (with_reducible apply inv_foldl; rotate_left; intro _ _ _)
      | ((with_reducible refine inv_mk rfl ?_); first | with_reducible assumption | with_reducible apply holdLine_inv | (with_reducible apply inv_ite; rotate_left; intro _) | (with_reducible apply inv_foldl; rotate_left; intro _ _ _) | split)
      | (split) | (dsimp only)

theorem memWrite_inv (s : State) (t : Tensor) (a : Nat) (data mask : List Byte) (hInv : s.Good nF fl) :
    (memWrite s t a data mask).Good nF fl := by
  unfold memWrite
  repeat'
    first
      | (with_reducible assumption) | (with_reducible apply hostWrite_inv) | (with_reducible apply devWrite_inv)
      | (with_reducible apply inv_ite; rotate_left; intro _) | (split) | (dsimp only)

theorem putEntry_inv (s : State) (table i : Nat) (w0 w1 : Word) (hInv : s.Good nF fl) :
    (putEntry s table i w0 w1).Good nF fl := by
  unfold putEntry
  repeat' first | (with_reducible assumption) | (with_reducible apply devPut_inv)

theorem putBlock_inv (s : State) (frame scales k : Nat) (vs : List FVal) (hInv : s.Good nF fl) :
    (putBlock s frame scales k vs).Good nF fl := by
  unfold putBlock
  repeat' first | (with_reducible assumption) | (with_reducible apply devPut_inv) | (dsimp only)

theorem compactWrite_inv (s : State) (fmt frame scales off : Nat) (data mask : List Byte) (hInv : s.Good nF fl) :
    (compactWrite s fmt frame scales off data mask).Good nF fl := by
  unfold compactWrite
  repeat'
    first
      | (with_reducible assumption) | (with_reducible apply putBlock_inv) | (with_reducible apply setIo_inv)
      | (with_reducible apply inv_ite; rotate_left; intro _) | (with_reducible apply inv_foldl; rotate_left; intro _ _ _)
      | (split) | (dsimp only)

theorem reviveTile_inv (s : State) (t : Tensor) (i : Nat) (hInv : s.Good nF fl) : (reviveTile s t i).Good nF fl := by
  unfold reviveTile
  repeat'
    first
      | (with_reducible assumption) | (with_reducible apply devPut_inv) | (with_reducible apply memWrite_inv)
      | (with_reducible apply putEntry_inv) | (with_reducible apply inv_ite; rotate_left; intro _) | (split) | (dsimp only)

theorem tileWrite_inv (s : State) (t : Tensor) (i off : Nat) (data mask : List Byte) (hInv : s.Good nF fl) :
    (tileWrite s t i off data mask).Good nF fl := by
  unfold tileWrite
  repeat'
    first
      | (with_reducible assumption) | (with_reducible apply reviveTile_inv) | (with_reducible apply compactWrite_inv)
      | (with_reducible apply memWrite_inv) | (with_reducible apply inv_ite; rotate_left; intro _) | (split) | (dsimp only)

theorem tensorWrite_inv (s : State) (t : Tensor) (b : Nat) (data mask : List Byte) (hInv : s.Good nF fl) :
    (tensorWrite s t b data mask).Good nF fl := by
  unfold tensorWrite
  repeat'
    first
      | (with_reducible assumption) | (with_reducible apply tileWrite_inv)
      | (with_reducible apply inv_foldl; rotate_left; intro _ _ _) | (dsimp only)

theorem setPins_inv (s : State) (table i n : Nat) (hInv : s.Good nF fl) : (setPins s table i n).Good nF fl := by
  unfold setPins
  repeat' first | (with_reducible assumption) | (with_reducible apply putEntry_inv)

theorem uncache_inv (s : State) (lo hi : Nat) (hInv : s.Good nF fl) : (uncache s lo hi).Good nF fl := by
  unfold uncache
  repeat'
    first
      | (with_reducible assumption) | ((with_reducible refine inv_mk rfl ?_); first | with_reducible assumption) | (dsimp only)

theorem uncacheCtx_inv (s : State) (c : Nat) (hInv : s.Good nF fl) : (uncacheCtx s c).Good nF fl := by
  unfold uncacheCtx
  repeat'
    first
      | (with_reducible assumption) | ((with_reducible refine inv_mk rfl ?_); first | with_reducible assumption) | (dsimp only)

theorem cacheTile_inv (s : State) (c : Nat) (t : Tensor) (i : Nat) (hInv : s.Good nF fl) : (cacheTile s c t i).Good nF fl := by
  unfold cacheTile
  repeat'
    first
      | (with_reducible assumption) | (with_reducible apply inv_ite; rotate_left; intro _)
      | ((with_reducible refine inv_mk rfl ?_); first | with_reducible assumption | (with_reducible apply inv_ite; rotate_left; intro _) | split)
      | (split) | (dsimp only)

theorem cacheRanges_inv (s : State) (c : Nat) (rs : List (Tensor × Nat × Nat)) (hInv : s.Good nF fl) :
    (cacheRanges s c rs).Good nF fl := by
  unfold cacheRanges
  repeat'
    first
      | (with_reducible assumption) | (with_reducible apply cacheTile_inv) | (with_reducible apply inv_ite; rotate_left; intro _)
      | (with_reducible apply inv_foldl; rotate_left; intro _ _ _) | (split) | (dsimp only)

theorem pinTiles_pair (s : State) (c table : Nat) (l : List Nat) (hInv : s.Good nF fl) {t : State} (he : pinTiles s c table l = some t) :
    t.Good nF fl := by
  induction l generalizing s with
  | nil => cases he; exact hInv
  | cons i r ih =>
    unfold pinTiles at he
    dsimp only at he
    split at he
    · exact ih _ hInv he
    · split at he
      · cases he
      · exact ih _ (modCtx_inv _ _ _ (setPins_inv _ _ _ _ hInv)) he

theorem releasePins_inv (s : State) (c : Nat) (hInv : s.Good nF fl) : (releasePins s c).Good nF fl := by
  unfold releasePins
  repeat'
    first
      | (with_reducible assumption) | (with_reducible apply setPins_inv) | (with_reducible apply modCtx_inv)
      | (with_reducible apply inv_foldl; rotate_left; intro _ _ _)
      | ((with_reducible refine inv_mk rfl ?_); first | with_reducible assumption | with_reducible apply setPins_inv | with_reducible apply modCtx_inv | (with_reducible apply inv_foldl; rotate_left; intro _ _ _))
      | (dsimp only)

theorem modCxl_inv (s : State) (f : Cxl → Cxl) (hInv : s.Good nF fl) : (modCxl s f).Good nF fl := by
  unfold modCxl
  repeat' first | (with_reducible assumption) | ((with_reducible refine inv_mk rfl ?_); first | with_reducible assumption)

theorem setRegState_inv (s : State) (i st : Nat) (hInv : s.Good nF fl) : (setRegState s i st).Good nF fl := by
  unfold setRegState
  repeat'
    first
      | (with_reducible assumption) | (with_reducible apply uncache_inv) | (with_reducible apply modCxl_inv)
      | (with_reducible apply inv_ite; rotate_left; intro _)
      | ((with_reducible refine inv_mk rfl ?_); first | with_reducible assumption | with_reducible apply uncache_inv | with_reducible apply modCxl_inv | (with_reducible apply inv_ite; rotate_left; intro _) | split)
      | (split) | (dsimp only)

theorem emitOut_inv (s : State) (o : Out) (hInv : s.Good nF fl) : (emitOut s o).Good nF fl := by
  unfold emitOut
  repeat' first | (with_reducible assumption) | ((with_reducible refine inv_mk rfl ?_); first | with_reducible assumption)

theorem setLine_inv (s : State) (line st : Nat) (hInv : s.Good nF fl) : (setLine s line st).Good nF fl := by
  unfold setLine
  repeat'
    first
      | (with_reducible assumption) | (with_reducible apply modCxl_inv) | (with_reducible apply uncache_inv)
      | (with_reducible apply inv_ite; rotate_left; intro _)
      | ((with_reducible refine inv_mk rfl ?_); first | with_reducible assumption | with_reducible apply modCxl_inv | with_reducible apply uncache_inv | (with_reducible apply inv_ite; rotate_left; intro _) | split)
      | (split) | (dsimp only)

theorem contest_inv (s : State) (i : Nat) (hInv : s.Good nF fl) : (contest s i).Good nF fl := by
  unfold contest
  repeat'
    first
      | (with_reducible assumption) | (with_reducible apply setLine_inv) | (with_reducible apply modCxl_inv)
      | (with_reducible apply setRegState_inv) | (with_reducible apply inv_ite; rotate_left; intro _)
      | (with_reducible apply inv_foldl; rotate_left; intro _ _ _)
      | ((with_reducible refine inv_mk rfl ?_); first | with_reducible assumption | with_reducible apply setLine_inv | with_reducible apply modCxl_inv | with_reducible apply setRegState_inv | (with_reducible apply inv_ite; rotate_left; intro _) | (with_reducible apply inv_foldl; rotate_left; intro _ _ _) | split)
      | (split) | (dsimp only)

theorem countFlip_inv (s : State) (i : Nat) (hInv : s.Good nF fl) : (countFlip s i).Good nF fl := by
  unfold countFlip
  repeat'
    first
      | (with_reducible assumption) | (with_reducible apply modCxl_inv) | (with_reducible apply contest_inv)
      | (with_reducible apply inv_ite; rotate_left; intro _)
      | ((with_reducible refine inv_mk rfl ?_); first | with_reducible assumption | with_reducible apply modCxl_inv | with_reducible apply contest_inv | (with_reducible apply inv_ite; rotate_left; intro _) | split)
      | (split) | (dsimp only)

theorem lineFlipped_inv (s : State) (i : Nat) (hInv : s.Good nF fl) : (lineFlipped s i).Good nF fl := by
  unfold lineFlipped
  repeat'
    first
      | (with_reducible assumption) | (with_reducible apply modCxl_inv)
      | ((with_reducible refine inv_mk rfl ?_); first | with_reducible assumption | with_reducible apply modCxl_inv)
      | (dsimp only)

theorem waitBehind_inv (s : State) (g : Flip) (w : PortWait) (hInv : s.Good nF fl) : (waitBehind s g w).Good nF fl := by
  unfold waitBehind
  repeat'
    first
      | (with_reducible assumption) | (with_reducible apply modCxl_inv) | (with_reducible apply inv_ite; rotate_left; intro _)
      | ((with_reducible refine inv_mk rfl ?_); first | with_reducible assumption | with_reducible apply modCxl_inv | (with_reducible apply inv_ite; rotate_left; intro _) | split)
      | (split) | (dsimp only)

theorem startFlip_inv (s : State) (i : Nat) (line : Option Nat) (w : PortWait) (hInv : s.Good nF fl) :
    (startFlip s i line w).Good nF fl := by
  unfold startFlip
  repeat'
    first
      | (with_reducible assumption) | (with_reducible apply emitOut_inv) | (with_reducible apply modCxl_inv)
      | ((with_reducible refine inv_mk rfl ?_); first | with_reducible assumption | with_reducible apply emitOut_inv | with_reducible apply modCxl_inv | split)
      | (split) | (dsimp only)

theorem deviceGate_pair (s : State) (ranges : List (Nat × Nat)) (wr : Bool) (w : PortWait) (hInv : s.Good nF fl) {t : State} (he : deviceGate s ranges wr w = some t) :
    t.Good nF fl := by
  unfold deviceGate at he
  revert he
  repeat'
    first
      | (rintro ⟨⟩; done) | (rintro ⟨⟩) | (intro he; cases he) | (with_reducible assumption)
      | (with_reducible apply waitBehind_inv) | (with_reducible apply startFlip_inv)
      | (with_reducible apply inv_ite; rotate_left; intro _) | (split) | (dsimp only)

theorem hostGate_inv (s : State) (line : Nat) (own : Bool) (w : PortWait) (hInv : s.Good nF fl) :
    (hostGate s line own w).1.Good nF fl := by
  unfold hostGate
  repeat'
    first
      | (with_reducible assumption) | (with_reducible apply waitBehind_inv) | (with_reducible apply countFlip_inv)
      | (with_reducible apply setRegState_inv) | (with_reducible apply lineFlipped_inv) | (with_reducible apply setLine_inv)
      | (with_reducible apply startFlip_inv) | (with_reducible apply inv_ite; rotate_left; intro _) | (split) | (dsimp only)

theorem hostGate_pair (s : State) (line : Nat) (own : Bool) (w : PortWait) (hInv : s.Good nF fl) {tNext : State} {xNext : Bool} (he : hostGate s line own w = (tNext, xNext)) :
    tNext.Good nF fl := by
  have := hostGate_inv s line own w hInv
  rwa [he] at this

theorem endContest_inv (s : State) (i : Nat) (hInv : s.Good nF fl) : (endContest s i).Good nF fl := by
  unfold endContest
  repeat'
    first
      | (with_reducible assumption) | (with_reducible apply setRegState_inv) | (with_reducible apply modCxl_inv)
      | ((with_reducible refine inv_mk rfl ?_); first | with_reducible assumption | with_reducible apply setRegState_inv | with_reducible apply modCxl_inv)
      | (dsimp only)

theorem endFlip_inv (s : State) (f : Flip) (hInv : s.Good nF fl) : (endFlip s f).Good nF fl := by
  unfold endFlip
  repeat'
    first
      | (with_reducible assumption) | (with_reducible apply modCxl_inv) | (with_reducible apply lineFlipped_inv)
      | (with_reducible apply setLine_inv) | (with_reducible apply endContest_inv) | (with_reducible apply countFlip_inv)
      | (with_reducible apply setRegState_inv) | (with_reducible apply inv_ite; rotate_left; intro _)
      | ((with_reducible refine inv_mk rfl ?_); first | with_reducible assumption | with_reducible apply modCxl_inv | with_reducible apply lineFlipped_inv | with_reducible apply setLine_inv | with_reducible apply endContest_inv | with_reducible apply countFlip_inv | with_reducible apply setRegState_inv | (with_reducible apply inv_ite; rotate_left; intro _) | split)
      | (split) | (dsimp only)

theorem calmRegion_inv (s : State) (i : Nat) (hInv : s.Good nF fl) : (calmRegion s i).Good nF fl := by
  unfold calmRegion
  repeat'
    first
      | (with_reducible assumption) | (with_reducible apply endContest_inv) | (with_reducible apply modCxl_inv)
      | (with_reducible apply emitOut_inv) | (with_reducible apply inv_foldl; rotate_left; intro _ _ _)
      | ((with_reducible refine inv_mk rfl ?_); first | with_reducible assumption | with_reducible apply endContest_inv | with_reducible apply modCxl_inv | with_reducible apply emitOut_inv | (with_reducible apply inv_foldl; rotate_left; intro _ _ _) | split)
      | (split) | (dsimp only)

theorem closeWindow_inv (s : State) (i : Nat) (hInv : s.Good nF fl) : (closeWindow s i).Good nF fl := by
  unfold closeWindow
  repeat'
    first
      | (with_reducible assumption) | (with_reducible apply calmRegion_inv) | (with_reducible apply modCxl_inv)
      | (with_reducible apply inv_ite; rotate_left; intro _)
      | ((with_reducible refine inv_mk rfl ?_); first | with_reducible assumption | with_reducible apply calmRegion_inv | with_reducible apply modCxl_inv | (with_reducible apply inv_ite; rotate_left; intro _) | split)
      | (split) | (dsimp only)

theorem reportLost_inv (s : State) (addr lines kind stall : Nat) (hInv : s.Good nF fl) :
    (reportLost s addr lines kind stall).Good nF fl := by
  unfold reportLost
  repeat'
    first
      | (with_reducible assumption) | (with_reducible apply devPut_inv) | (with_reducible apply setIo_inv)
      | (with_reducible apply inv_ite; rotate_left; intro _) | (split) | (dsimp only)

theorem reportLines_inv (s : State) (lines : List Nat) (kind stall : Nat) (hInv : s.Good nF fl) :
    (reportLines s lines kind stall).Good nF fl := by
  unfold reportLines
  repeat'
    first
      | (with_reducible assumption) | (with_reducible apply reportLost_inv)
      | (with_reducible apply inv_foldl; rotate_left; intro _ _ _) | (dsimp only)

theorem execRegionWindowEnd_keeps (region : Nat) (s : State) (hInv : s.Good nF fl) :
    KeepsGood nF fl (execRegionWindowEnd region s) := by
  unfold execRegionWindowEnd
  repeat' first | (with_reducible apply keeps_next) | (with_reducible assumption) | (with_reducible apply closeWindow_inv)

theorem snoopLine_inv (s : State) (line : Nat) (hInv : s.Good nF fl) : (snoopLine s line).Good nF fl := by
  unfold snoopLine
  repeat'
    first
      | (with_reducible assumption) | (with_reducible apply emitOut_inv) | (with_reducible apply writeBack_inv) | (split)
      | (dsimp only)

theorem execHostSnoop_keeps (line : Nat) (_inval : Bool) (s : State) (hInv : s.Good nF fl) :
    KeepsGood nF fl (execHostSnoop line _inval s) := by
  unfold execHostSnoop
  repeat' first | (with_reducible apply keeps_next) | (with_reducible assumption) | (with_reducible apply snoopLine_inv)

theorem writeRegion_inv (s : State) (v : Word) (hInv : s.Good nF fl) : (writeRegion s v).Good nF fl := by
  unfold writeRegion
  repeat'
    first
      | (with_reducible assumption) | (with_reducible apply modCxl_inv) | (with_reducible apply inv_ite; rotate_left; intro _)
      | ((with_reducible refine inv_mk rfl ?_); first | with_reducible assumption | with_reducible apply modCxl_inv | (with_reducible apply inv_ite; rotate_left; intro _) | split)
      | (split) | (dsimp only)

theorem endHandlers_inv (s : State) (y : Nat) (hInv : s.Good nF fl) : (endHandlers s y).Good nF fl := by
  unfold endHandlers
  repeat'
    first
      | (with_reducible assumption) | (with_reducible apply modCtx_inv)
      | (with_reducible apply inv_foldl; rotate_left; intro _ _ _)
      | ((with_reducible refine inv_mk rfl ?_); first | with_reducible assumption | with_reducible apply modCtx_inv | (with_reducible apply inv_foldl; rotate_left; intro _ _ _))
      | (dsimp only)

theorem loseCaptures_inv (s : State) (y : Nat) (hInv : s.Good nF fl) : (loseCaptures s y).Good nF fl := by
  unfold loseCaptures
  repeat'
    first
      | (with_reducible assumption) | (with_reducible apply endRun_inv)
      | (with_reducible apply inv_foldl; rotate_left; intro _ _ _)
      | ((with_reducible refine inv_mk rfl ?_); first | with_reducible assumption | with_reducible apply endRun_inv | (with_reducible apply inv_foldl; rotate_left; intro _ _ _))
      | (dsimp only)

theorem loseYard_inv (s : State) (y cause : Nat) (hInv : s.Good nF fl) : (loseYard s y cause).Good nF fl := by
  unfold loseYard
  repeat'
    first
      | (with_reducible assumption) | (with_reducible apply loseCaptures_inv) | (with_reducible apply modYard_inv)
      | (with_reducible apply modCtx_inv) | (with_reducible apply endHandlers_inv) | (with_reducible apply dropAccess_inv)
      | (with_reducible apply modStable_inv) | (with_reducible apply postEvent_inv)
      | (with_reducible apply inv_foldl; rotate_left; intro _ _ _)
      | ((with_reducible refine inv_mk rfl ?_); first | with_reducible assumption | with_reducible apply loseCaptures_inv | with_reducible apply modYard_inv | with_reducible apply modCtx_inv | with_reducible apply endHandlers_inv | with_reducible apply dropAccess_inv | with_reducible apply modStable_inv | with_reducible apply postEvent_inv | (with_reducible apply inv_foldl; rotate_left; intro _ _ _))
      | (dsimp only)

theorem declareLost_inv (s : State) (y cause : Nat) (hInv : s.Good nF fl) : (declareLost s y cause).Good nF fl := by
  unfold declareLost
  repeat'
    first
      | (with_reducible assumption) | (with_reducible apply loseYard_inv) | (with_reducible apply inv_ite; rotate_left; intro _)
      | (split) | (dsimp only)

theorem activateSite_inv (s : State) (site y : Nat) (hInv : s.Good nF fl) : (activateSite s site y).Good nF fl := by
  unfold activateSite
  repeat'
    first
      | (with_reducible assumption) | (with_reducible apply modYard_inv) | (with_reducible apply inv_ite; rotate_left; intro _)
      | ((with_reducible refine inv_mk rfl ?_); first | with_reducible assumption | with_reducible apply modYard_inv | (with_reducible apply inv_ite; rotate_left; intro _) | split)
      | (split) | (dsimp only)

theorem selfTestDone_inv (s : State) (y : Nat) (passed : Bool) (h : s.Good nF fl) : (selfTestDone s y passed).Good nF fl := by
  unfold selfTestDone
  split
  · exact h
  · split
    · exact putRecord_inv _ _ _ (modYard_inv _ _ _ (inv_mk rfl (inv_istore (inv_round h (wf_mclear _ (16 * y * 2 ^ 21) (16 * 2 ^ 21) h.round))
        (wf_mclear _ (32 * y * 2 ^ 18) (32 * 2 ^ 18) h.istore))))
    · exact putRecord_inv _ _ _ (modYard_inv _ _ _ h)

theorem writeYctl_inv (s : State) (v : Word) (hInv : s.Good nF fl) : (writeYctl s v).Good nF fl := by
  unfold writeYctl
  repeat'
    first
      | (with_reducible assumption) | (with_reducible apply activateSite_inv) | (with_reducible apply declareLost_inv) | (split)
      | (dsimp only)

theorem failArray_inv (s : State) (sb : Nat) (hInv : s.Good nF fl) : (failArray s sb).Good nF fl := by
  unfold failArray
  repeat'
    first
      | (with_reducible assumption) | (with_reducible apply modStable_inv)
      | ((with_reducible refine inv_mk rfl ?_); first | with_reducible assumption | with_reducible apply modStable_inv)
      | (dsimp only)

theorem changeNibbles_inv (s : State) (g : Nat) (f : Stall → Stall) (hInv : s.Good nF fl) : (changeNibbles s g f).Good nF fl := by
  unfold changeNibbles
  repeat'
    first
      | (with_reducible assumption) | (with_reducible apply modStall_inv) | (with_reducible apply modCtx_inv)
      | (with_reducible apply inv_foldl; rotate_left; intro _ _ _) | (dsimp only)

theorem failMacro_inv (s : State) (g m partner : Nat) (hInv : s.Good nF fl) : (failMacro s g m partner).Good nF fl := by
  unfold failMacro
  repeat'
    first
      | (with_reducible assumption) | (with_reducible apply changeNibbles_inv)
      | ((with_reducible refine inv_mk rfl ?_); first | with_reducible assumption | with_reducible apply changeNibbles_inv)
      | (dsimp only)

theorem clearDegraded_inv (s : State) (g : Nat) (hInv : s.Good nF fl) : (clearDegraded s g).Good nF fl := by
  unfold clearDegraded
  repeat'
    first
      | (with_reducible assumption) | (with_reducible apply modStable_inv) | (with_reducible apply changeNibbles_inv)
      | ((with_reducible refine inv_mk rfl ?_); first | with_reducible assumption | with_reducible apply modStable_inv | with_reducible apply changeNibbles_inv)
      | (dsimp only)

theorem writeDegr_inv (s : State) (v : Word) (hInv : s.Good nF fl) : (writeDegr s v).Good nF fl := by
  unfold writeDegr
  repeat'
    first
      | (with_reducible assumption) | (with_reducible apply failArray_inv) | (with_reducible apply failMacro_inv)
      | (with_reducible apply clearDegraded_inv) | (split) | (dsimp only)

theorem modRel_inv (s : State) (f : Rel → Rel) (hInv : s.Good nF fl) : (modRel s f).Good nF fl := by
  unfold modRel
  repeat' first | (with_reducible assumption) | ((with_reducible refine inv_mk rfl ?_); first | with_reducible assumption)

theorem requestRepair_inv (s : State) (v : Word) (hInv : s.Good nF fl) : (requestRepair s v).Good nF fl := by
  unfold requestRepair
  repeat'
    first
      | (with_reducible assumption) | (with_reducible apply modRel_inv) | (with_reducible apply modStable_inv)
      | (with_reducible apply inv_ite; rotate_left; intro _)
      | ((with_reducible refine inv_mk rfl ?_); first | with_reducible assumption | with_reducible apply modRel_inv | with_reducible apply modStable_inv | (with_reducible apply inv_ite; rotate_left; intro _) | split)
      | (split) | (dsimp only)

theorem endRepair_inv (s : State) (sb : Nat) (noSpare : Bool) (hInv : s.Good nF fl) : (endRepair s sb noSpare).Good nF fl := by
  unfold endRepair
  repeat'
    first
      | (with_reducible assumption) | (with_reducible apply modCtx_inv) | (with_reducible apply modStable_inv)
      | (with_reducible apply modRel_inv) | (with_reducible apply inv_ite; rotate_left; intro _)
      | (with_reducible apply inv_foldl; rotate_left; intro _ _ _)
      | ((with_reducible refine inv_mk rfl ?_); first | with_reducible assumption | with_reducible apply modCtx_inv | with_reducible apply modStable_inv | with_reducible apply modRel_inv | (with_reducible apply inv_ite; rotate_left; intro _) | (with_reducible apply inv_foldl; rotate_left; intro _ _ _) | split)
      | (split) | (dsimp only)

theorem copyUnit_inv (s : State) (struct g row : Nat) (spare : Nat × Nat) (hInv : s.Good nF fl) :
    (copyUnit s struct g row spare).Good nF fl := by
  unfold copyUnit
  repeat'
    first
      | (with_reducible assumption) | (with_reducible apply findBad_inv) | (with_reducible apply correctAll_inv)
      | (with_reducible apply modStall_inv) | (with_reducible apply modRel_inv)
      | (with_reducible apply inv_ite; rotate_left; intro _)
      | ((with_reducible refine inv_mk rfl ?_); first | with_reducible assumption | with_reducible apply findBad_inv | with_reducible apply correctAll_inv | with_reducible apply modStall_inv | with_reducible apply modRel_inv | (with_reducible apply inv_ite; rotate_left; intro _) | split)
      | (split) | (dsimp only)

theorem copyRepair_inv (s : State) (hInv : s.Good nF fl) : (copyRepair s).Good nF fl := by
  unfold copyRepair
  repeat'
    first
      | (with_reducible assumption) | (with_reducible apply modRel_inv) | (with_reducible apply endRepair_inv)
      | (with_reducible apply copyUnit_inv) | (with_reducible apply putRecord_inv)
      | (with_reducible apply inv_ite; rotate_left; intro _)
      | ((with_reducible refine inv_mk rfl ?_); first | with_reducible assumption | with_reducible apply modRel_inv | with_reducible apply endRepair_inv | with_reducible apply copyUnit_inv | with_reducible apply putRecord_inv | (with_reducible apply inv_ite; rotate_left; intro _) | split)
      | (split) | (dsimp only)

theorem execRepairRequest_keeps (v : Nat) (s : State) (hInv : s.Good nF fl) : KeepsGood nF fl (execRepairRequest v s) := by
  unfold execRepairRequest
  repeat' first | (with_reducible apply keeps_next) | (with_reducible assumption) | (with_reducible apply requestRepair_inv)

theorem execRepairCopy_keeps (s : State) (hInv : s.Good nF fl) : KeepsGood nF fl (execRepairCopy s) := by
  unfold execRepairCopy
  repeat' first | (with_reducible apply keeps_next) | (with_reducible assumption) | (with_reducible apply copyRepair_inv)

theorem failPort_inv (s : State) (y bit : Nat) (hInv : s.Good nF fl) : (failPort s y bit).Good nF fl := by
  unfold failPort
  repeat'
    first
      | (with_reducible assumption) | (with_reducible apply modYard_inv) | (with_reducible apply declareLost_inv)
      | (with_reducible apply inv_ite; rotate_left; intro _)
      | ((with_reducible refine inv_mk rfl ?_); first | with_reducible assumption | with_reducible apply modYard_inv | with_reducible apply declareLost_inv | (with_reducible apply inv_ite; rotate_left; intro _) | split)
      | (split) | (dsimp only)

theorem execYardLost_keeps (yard cause : Nat) (s : State) (hInv : s.Good nF fl) :
    KeepsGood nF fl (execYardLost yard cause s) := by
  unfold execYardLost
  repeat' first | (with_reducible apply keeps_next) | (with_reducible assumption) | (with_reducible apply declareLost_inv)

theorem execThermalTrip_keeps (yard : Nat) (s : State) (hInv : s.Good nF fl) : KeepsGood nF fl (execThermalTrip yard s) := by
  unfold execThermalTrip
  repeat' first | (with_reducible apply keeps_next) | (with_reducible assumption) | (with_reducible apply declareLost_inv)

theorem execYardActivate_keeps (site yard : Nat) (s : State) (hInv : s.Good nF fl) :
    KeepsGood nF fl (execYardActivate site yard s) := by
  unfold execYardActivate
  repeat' first | (with_reducible apply keeps_next) | (with_reducible assumption) | (with_reducible apply activateSite_inv)

theorem execYardDeclareLost_keeps (yard : Nat) (s : State) (hInv : s.Good nF fl) :
    KeepsGood nF fl (execYardDeclareLost yard s) := by
  unfold execYardDeclareLost
  repeat' first | (with_reducible apply keeps_next) | (with_reducible assumption) | (with_reducible apply declareLost_inv)

theorem execYardSelfTestDone_keeps (yard : Nat) (passed : Bool) (s : State) (hInv : s.Good nF fl) :
    KeepsGood nF fl (execYardSelfTestDone yard passed s) := by
  unfold execYardSelfTestDone
  repeat' first | (with_reducible apply keeps_next) | (with_reducible assumption) | (with_reducible apply selfTestDone_inv)

theorem execDegrArrayFailed_keeps (stall : Nat) (s : State) (hInv : s.Good nF fl) :
    KeepsGood nF fl (execDegrArrayFailed stall s) := by
  unfold execDegrArrayFailed
  repeat' first | (with_reducible apply keeps_next) | (with_reducible assumption) | (with_reducible apply failArray_inv)

theorem execDegrMacroFailed_keeps (stall cm partner : Nat) (s : State) (hInv : s.Good nF fl) :
    KeepsGood nF fl (execDegrMacroFailed stall cm partner s) := by
  unfold execDegrMacroFailed
  repeat' first | (with_reducible apply keeps_next) | (with_reducible assumption) | (with_reducible apply failMacro_inv)

theorem execDegrClear_keeps (stall : Nat) (s : State) (hInv : s.Good nF fl) : KeepsGood nF fl (execDegrClear stall s) := by
  unfold execDegrClear
  repeat' first | (with_reducible apply keeps_next) | (with_reducible assumption) | (with_reducible apply clearDegraded_inv)

theorem modSec_inv (s : State) (f : Sec → Sec)
    (hf : ((f s.sec).svnFuse, (f s.sec).flash) = (s.sec.svnFuse, s.sec.flash)) (h : s.Good nF fl) : (modSec s f).Good nF fl :=
  inv_mk hf h

theorem extendMeas_inv (s : State) (i : Nat) (v : List Byte) (hInv : s.Good nF fl) : (extendMeas s i v).Good nF fl := by
  unfold extendMeas
  repeat'
    first
      | (with_reducible assumption) | (with_reducible refine modSec_inv _ _ rfl ?_)
      | ((with_reducible refine inv_mk rfl ?_); first | with_reducible assumption | with_reducible refine modSec_inv _ _ rfl ?_)
      | (dsimp only)

theorem measExtend_inv (s : State) (v : Word) (hInv : s.Good nF fl) : (measExtend s v).Good nF fl := by
  unfold measExtend
  repeat'
    first
      | (with_reducible assumption) | (with_reducible apply extendMeas_inv)
      | (with_reducible apply inv_ite; rotate_left; intro _) | (split) | (dsimp only)

theorem startRegistration_inv (s : State) (addr : Nat) (hInv : s.Good nF fl) : (startRegistration s addr).Good nF fl := by
  unfold startRegistration
  repeat'
    first
      | (with_reducible assumption) | (with_reducible refine modSec_inv _ _ rfl ?_)
      | (with_reducible apply inv_ite; rotate_left; intro _)
      | ((with_reducible refine inv_mk rfl ?_); first | with_reducible assumption | with_reducible refine modSec_inv _ _ rfl ?_ | (with_reducible apply inv_ite; rotate_left; intro _) | split)
      | (split) | (dsimp only)

theorem endRegistration_inv (s : State) (hInv : s.Good nF fl) : (endRegistration s).Good nF fl := by
  unfold endRegistration
  repeat'
    first
      | (with_reducible assumption) | (with_reducible apply extendMeas_inv) | (with_reducible refine modSec_inv _ _ rfl ?_)
      | (with_reducible apply postEvent_inv) | (with_reducible apply inv_ite; rotate_left; intro _)
      | ((with_reducible refine inv_mk rfl ?_); first | with_reducible assumption | with_reducible apply extendMeas_inv | with_reducible refine modSec_inv _ _ rfl ?_ | with_reducible apply postEvent_inv | (with_reducible apply inv_ite; rotate_left; intro _) | split)
      | (split) | (dsimp only)

theorem mailboxDone_inv (s : State) (opcode code : Nat) (out : List Byte) (hInv : s.Good nF fl) :
    (mailboxDone s opcode code out).Good nF fl := by
  unfold mailboxDone
  repeat'
    first
      | (with_reducible assumption) | (with_reducible apply emitOut_inv) | (with_reducible refine modSec_inv _ _ rfl ?_)
      | (with_reducible apply postEvent_inv) | (with_reducible apply setIo_inv)
      | (with_reducible apply inv_ite; rotate_left; intro _)
      | ((with_reducible refine inv_mk rfl ?_); first | with_reducible assumption | with_reducible apply emitOut_inv | with_reducible refine modSec_inv _ _ rfl ?_ | with_reducible apply postEvent_inv | with_reducible apply setIo_inv | (with_reducible apply inv_ite; rotate_left; intro _) | split)
      | (split) | (dsimp only)

theorem formQuote_inv (s : State) (hInv : s.Good nF fl) : (formQuote s).Good nF fl := by
  unfold formQuote
  repeat'
    first
      | (with_reducible assumption) | (with_reducible apply mailboxDone_inv) | (with_reducible refine modSec_inv _ _ rfl ?_)
      | ((with_reducible refine inv_mk rfl ?_); first | with_reducible assumption | with_reducible apply mailboxDone_inv | with_reducible refine modSec_inv _ _ rfl ?_ | split)
      | (split) | (dsimp only)

theorem execMeasurementExtend_keeps (v : Nat) (s : State) (hInv : s.Good nF fl) :
    KeepsGood nF fl (execMeasurementExtend v s) := by
  unfold execMeasurementExtend
  repeat' first | (with_reducible apply keeps_next) | (with_reducible assumption) | (with_reducible apply measExtend_inv)

theorem execHashRegistration_keeps (addr : Nat) (s : State) (hInv : s.Good nF fl) :
    KeepsGood nF fl (execHashRegistration addr s) := by
  unfold execHashRegistration
  repeat' first | (with_reducible apply keeps_next) | (with_reducible assumption) | (with_reducible apply startRegistration_inv)

theorem execRegistrationEnd_keeps (s : State) (hInv : s.Good nF fl) : KeepsGood nF fl (execRegistrationEnd s) := by
  unfold execRegistrationEnd
  repeat' first | (with_reducible apply keeps_next) | (with_reducible assumption) | (with_reducible apply endRegistration_inv)

theorem freeEntry_inv (s : State) (h : s.Good nF fl) : (freeEntry s).Good nF fl := by
  unfold freeEntry
  have hd : State.Good { s with fbuf := s.fbuf.drop 1 } nF fl := inv_fbuf h (by simp)
  dsimp only
  split
  · exact dueFault_inv _ _ (inv_ite' (modCtx_inv _ _ _ (inv_mk rfl hd)) (inv_mk rfl hd))
  · exact hd

theorem postRequest_inv (s : State) (v : Word) (hInv : s.Good nF fl) : (postRequest s v).Good nF fl := by
  unfold postRequest
  repeat'
    first
      | (with_reducible assumption) | (with_reducible apply modCtx_inv) | (with_reducible apply enterService_inv)
      | (with_reducible apply inv_ite; rotate_left; intro _)
      | ((with_reducible refine inv_mk rfl ?_); first | with_reducible assumption | with_reducible apply modCtx_inv | with_reducible apply enterService_inv | (with_reducible apply inv_ite; rotate_left; intro _) | split)
      | (split) | (dsimp only)

theorem openQueues_inv (s : State) (v : Word) (hInv : s.Good nF fl) : (openQueues s v).Good nF fl := by
  unfold openQueues
  repeat'
    first
      | (with_reducible assumption) | (with_reducible refine modSec_inv _ _ rfl ?_) | (with_reducible apply setIo_inv)
      | (with_reducible apply inv_ite; rotate_left; intro _) | (with_reducible apply inv_foldl; rotate_left; intro _ _ _)
      | ((with_reducible refine inv_mk rfl ?_); first | with_reducible assumption | with_reducible refine modSec_inv _ _ rfl ?_ | with_reducible apply setIo_inv | (with_reducible apply inv_ite; rotate_left; intro _) | (with_reducible apply inv_foldl; rotate_left; intro _ _ _) | split)
      | (split) | (dsimp only)

theorem privWrite_inv (s : State) (c n : Nat) (v : Word) (hInv : s.Good nF fl) : (privWrite s c n v).Good nF fl := by
  unfold privWrite
  repeat'
    first
      | (with_reducible assumption) | (with_reducible apply modStall_inv) | (with_reducible apply modCtx_inv)
      | (with_reducible apply postRequest_inv) | (with_reducible apply setIo_inv) | (with_reducible apply openQueues_inv)
      | (with_reducible apply modYard_inv) | (with_reducible apply freeEntry_inv) | (with_reducible apply writeRegion_inv)
      | (with_reducible apply writeYctl_inv) | (with_reducible apply writeDegr_inv) | (with_reducible apply requestRepair_inv)
      | (with_reducible apply measExtend_inv) | (with_reducible apply startRegistration_inv)
      | (with_reducible apply inv_ite; rotate_left; intro _) | (with_reducible apply inv_foldl; rotate_left; intro _ _ _)
      | ((with_reducible refine inv_mk rfl ?_); first | with_reducible assumption | with_reducible apply modStall_inv | with_reducible apply modCtx_inv | with_reducible apply postRequest_inv | with_reducible apply setIo_inv | with_reducible apply openQueues_inv | with_reducible apply modYard_inv | with_reducible apply freeEntry_inv | with_reducible apply writeRegion_inv | with_reducible apply writeYctl_inv | with_reducible apply writeDegr_inv | with_reducible apply requestRepair_inv | with_reducible apply measExtend_inv | with_reducible apply startRegistration_inv | (with_reducible apply inv_ite; rotate_left; intro _) | (with_reducible apply inv_foldl; rotate_left; intro _ _ _) | split)
      | (split) | (dsimp only)

theorem execPrivCsrWrite_keeps (c n v : Nat) (s : State) (hInv : s.Good nF fl) : KeepsGood nF fl (execPrivCsrWrite c n v s) := by
  unfold execPrivCsrWrite
  repeat'
    first
      | (with_reducible apply keeps_next) | (with_reducible assumption) | (with_reducible apply privWrite_inv)
      | (with_reducible apply inv_ite; rotate_left; intro _) | (split) | (dsimp only)

theorem execSvdataAccess_keeps (c : Nat) (wr : Bool) (v : Nat) (s : State) (hInv : s.Good nF fl) :
    KeepsGood nF fl (execSvdataAccess c wr v s) := by
  unfold execSvdataAccess
  repeat'
    first
      | (with_reducible apply keeps_next) | (with_reducible assumption) | (with_reducible apply privWrite_inv)
      | (with_reducible apply modStall_inv) | (with_reducible apply inv_ite; rotate_left; intro _)
      | ((with_reducible refine inv_mk rfl ?_); first | with_reducible assumption | with_reducible apply privWrite_inv | with_reducible apply modStall_inv | (with_reducible apply inv_ite; rotate_left; intro _) | split)
      | (split) | (dsimp only)

theorem execFirmwareRequestPost_keeps (v : Nat) (s : State) (hInv : s.Good nF fl) :
    KeepsGood nF fl (execFirmwareRequestPost v s) := by
  unfold execFirmwareRequestPost
  repeat' first | (with_reducible apply keeps_next) | (with_reducible assumption) | (with_reducible apply postRequest_inv)

theorem execOpenQueues_keeps (v : Nat) (s : State) (hInv : s.Good nF fl) : KeepsGood nF fl (execOpenQueues v s) := by
  unfold execOpenQueues
  repeat' first | (with_reducible apply keeps_next) | (with_reducible assumption) | (with_reducible apply openQueues_inv)

theorem execFreeFaultEntry_keeps (s : State) (hInv : s.Good nF fl) : KeepsGood nF fl (execFreeFaultEntry s) := by
  unfold execFreeFaultEntry
  repeat' first | (with_reducible apply keeps_next) | (with_reducible assumption) | (with_reducible apply freeEntry_inv)

theorem execEventClear_keeps (v : Nat) (s : State) (hInv : s.Good nF fl) : KeepsGood nF fl (execEventClear v s) := by
  unfold execEventClear
  repeat' first | (with_reducible apply keeps_next) | (with_reducible assumption) | (with_reducible apply privWrite_inv)

theorem execFbstatOverflowClear_keeps (v : Nat) (s : State) (hInv : s.Good nF fl) :
    KeepsGood nF fl (execFbstatOverflowClear v s) := by
  unfold execFbstatOverflowClear
  repeat' first | (with_reducible apply keeps_next) | (with_reducible assumption) | (with_reducible apply privWrite_inv)

theorem execSuspectClear_keeps (n v : Nat) (s : State) (hInv : s.Good nF fl) : KeepsGood nF fl (execSuspectClear n v s) := by
  unfold execSuspectClear
  repeat' first | (with_reducible apply keeps_next) | (with_reducible assumption) | (with_reducible apply privWrite_inv)

theorem execRegionEntryWrite_keeps (v : Nat) (s : State) (hInv : s.Good nF fl) : KeepsGood nF fl (execRegionEntryWrite v s) := by
  unfold execRegionEntryWrite
  repeat' first | (with_reducible apply keeps_next) | (with_reducible assumption) | (with_reducible apply writeRegion_inv)

theorem execClockFloorChange_keeps (yard : Nat) (s : State) (hInv : s.Good nF fl) :
    KeepsGood nF fl (execClockFloorChange yard s) := by
  unfold execClockFloorChange
  repeat' first | (with_reducible apply keeps_next) | (with_reducible assumption) | (with_reducible apply modYard_inv)

theorem foreseeDx_inv (s : State) (c : Nat) (hInv : s.Good nF fl) : (foreseeDx s c).Good nF fl := by
  unfold foreseeDx
  repeat'
    first
      | (with_reducible assumption) | (with_reducible apply modCtx_inv) | (with_reducible apply inv_ite; rotate_left; intro _)
      | ((with_reducible refine inv_mk rfl ?_); first | with_reducible assumption | with_reducible apply modCtx_inv | (with_reducible apply inv_ite; rotate_left; intro _) | split)
      | (split) | (dsimp only)

theorem emitRes_inv (s : State) (lat : Nat) (vd : BitVec 13) (r : Row × Flags5) (hInv : s.Good nF fl) :
    (emitRes s lat vd r).Good nF fl := by
  unfold emitRes
  repeat' first | (with_reducible assumption) | (with_reducible apply emitFlags_inv) | (with_reducible apply emitVec_inv)

theorem freezeHere_inv (s : State) (w : Wait) (hInv : s.Good nF fl) : (freezeHere s w).Good nF fl := by
  unfold freezeHere
  repeat'
    first
      | (with_reducible assumption) | (with_reducible apply modMe_inv)
      | ((with_reducible refine inv_mk rfl ?_); first | with_reducible assumption | with_reducible apply modMe_inv)
      | (dsimp only)

theorem perform_keeps (s : State) (ck : Check) (p : BitVec 5) (eff : State → State) (heff : ∀ t, State.Good t nF fl → State.Good (eff t) nF fl) (hInv : s.Good nF fl) :
    KeepsGood nF fl (perform s ck p eff) := by
  unfold perform
  repeat'
    first
      | (with_reducible apply keeps_next) | exact keeps_fault | (with_reducible assumption)
      | (with_reducible apply raiseHere_inv) | (with_reducible apply freezeHere_inv)
      | (with_reducible apply inv_ite; rotate_left; intro _) | (split) | (dsimp only) | (with_reducible apply heff)

theorem readAtIssue_inv (s : State) (ranges : List (Nat × Nat)) (lands : Nat) (go : State → State) (hgo : ∀ t, State.Good t nF fl → State.Good (go t) nF fl) (hInv : s.Good nF fl) :
    (readAtIssue s ranges lands go).Good nF fl := by
  unfold readAtIssue
  repeat'
    first
      | (with_reducible assumption) | (with_reducible apply modMe_inv) | (with_reducible apply findBad_inv)
      | (with_reducible apply correctAll_inv) | (with_reducible apply inv_ite; rotate_left; intro _)
      | ((with_reducible refine inv_mk rfl ?_); first | with_reducible assumption | with_reducible apply modMe_inv | with_reducible apply findBad_inv | with_reducible apply correctAll_inv | (with_reducible apply inv_ite; rotate_left; intro _) | split)
      | (split) | (dsimp only) | (with_reducible apply hgo)

theorem csrReadEffect_inv (s : State) (n : Nat) (hInv : s.Good nF fl) : (csrReadEffect s n).Good nF fl := by
  unfold csrReadEffect
  repeat'
    first
      | (with_reducible assumption) | (with_reducible apply modStall_inv) | (with_reducible apply inv_ite; rotate_left; intro _)
      | ((with_reducible refine inv_mk rfl ?_); first | with_reducible assumption | with_reducible apply modStall_inv | (with_reducible apply inv_ite; rotate_left; intro _) | split)
      | (split) | (dsimp only)

theorem csrWrite_inv (s : State) (n : Nat) (v : Word) (hInv : s.Good nF fl) : (csrWrite s n v).Good nF fl := by
  unfold csrWrite
  repeat' first | (with_reducible assumption) | (with_reducible apply emit_inv)

end Sys2Proof.Machine
end

