-- ==== Sys2Proof/Laws/KeepExec.lean ====
section
/-!
SUPPORT. What each operation of Scalar, Vector, Scale, Taps, Control keeps: the invariant of every step (generated by form, one lemma for each operation).
-/

namespace Sys2Proof.Machine

variable {nF : Nat} {fl : List Host.Cell}

theorem execAdd_keeps (p : BitVec 5) (d a b : BitVec 6) (s : State) (hInv : s.Good nF fl) :
    KeepsGood nF fl (execAdd p d a b s) := by
  unfold execAdd
  repeat'
    first
      | (with_reducible apply perform_keeps; intro _ _) | (with_reducible assumption) | (with_reducible apply emitS_inv)
      | (dsimp only)

theorem execSub_keeps (p : BitVec 5) (d a b : BitVec 6) (s : State) (hInv : s.Good nF fl) :
    KeepsGood nF fl (execSub p d a b s) := by
  unfold execSub
  repeat'
    first
      | (with_reducible apply perform_keeps; intro _ _) | (with_reducible assumption) | (with_reducible apply emitS_inv)
      | (dsimp only)

theorem execMul_keeps (p : BitVec 5) (d a b : BitVec 6) (s : State) (hInv : s.Good nF fl) :
    KeepsGood nF fl (execMul p d a b s) := by
  unfold execMul
  repeat'
    first
      | (with_reducible apply perform_keeps; intro _ _) | (with_reducible assumption) | (with_reducible apply emitS_inv)
      | (dsimp only)

theorem execMulh_keeps (p : BitVec 5) (d a b : BitVec 6) (s : State) (hInv : s.Good nF fl) :
    KeepsGood nF fl (execMulh p d a b s) := by
  unfold execMulh
  repeat'
    first
      | (with_reducible apply perform_keeps; intro _ _) | (with_reducible assumption) | (with_reducible apply emitS_inv)
      | (dsimp only)

theorem execMulhs_keeps (p : BitVec 5) (d a b : BitVec 6) (s : State) (hInv : s.Good nF fl) :
    KeepsGood nF fl (execMulhs p d a b s) := by
  unfold execMulhs
  repeat'
    first
      | (with_reducible apply perform_keeps; intro _ _) | (with_reducible assumption) | (with_reducible apply emitS_inv)
      | (dsimp only)

theorem execDiv_keeps (p : BitVec 5) (d a b : BitVec 6) (s : State) (hInv : s.Good nF fl) :
    KeepsGood nF fl (execDiv p d a b s) := by
  unfold execDiv
  repeat'
    first
      | (with_reducible apply perform_keeps; intro _ _) | (with_reducible assumption) | (with_reducible apply emitS_inv)
      | (dsimp only)

theorem execDivs_keeps (p : BitVec 5) (d a b : BitVec 6) (s : State) (hInv : s.Good nF fl) :
    KeepsGood nF fl (execDivs p d a b s) := by
  unfold execDivs
  repeat'
    first
      | (with_reducible apply perform_keeps; intro _ _) | (with_reducible assumption) | (with_reducible apply emitS_inv)
      | (dsimp only)

theorem execRem_keeps (p : BitVec 5) (d a b : BitVec 6) (s : State) (hInv : s.Good nF fl) :
    KeepsGood nF fl (execRem p d a b s) := by
  unfold execRem
  repeat'
    first
      | (with_reducible apply perform_keeps; intro _ _) | (with_reducible assumption) | (with_reducible apply emitS_inv)
      | (dsimp only)

theorem execAnd_keeps (p : BitVec 5) (d a b : BitVec 6) (s : State) (hInv : s.Good nF fl) :
    KeepsGood nF fl (execAnd p d a b s) := by
  unfold execAnd
  repeat'
    first
      | (with_reducible apply perform_keeps; intro _ _) | (with_reducible assumption) | (with_reducible apply emitS_inv)
      | (dsimp only)

theorem execOr_keeps (p : BitVec 5) (d a b : BitVec 6) (s : State) (hInv : s.Good nF fl) :
    KeepsGood nF fl (execOr p d a b s) := by
  unfold execOr
  repeat'
    first
      | (with_reducible apply perform_keeps; intro _ _) | (with_reducible assumption) | (with_reducible apply emitS_inv)
      | (dsimp only)

theorem execXor_keeps (p : BitVec 5) (d a b : BitVec 6) (s : State) (hInv : s.Good nF fl) :
    KeepsGood nF fl (execXor p d a b s) := by
  unfold execXor
  repeat'
    first
      | (with_reducible apply perform_keeps; intro _ _) | (with_reducible assumption) | (with_reducible apply emitS_inv)
      | (dsimp only)

theorem execAndn_keeps (p : BitVec 5) (d a b : BitVec 6) (s : State) (hInv : s.Good nF fl) :
    KeepsGood nF fl (execAndn p d a b s) := by
  unfold execAndn
  repeat'
    first
      | (with_reducible apply perform_keeps; intro _ _) | (with_reducible assumption) | (with_reducible apply emitS_inv)
      | (dsimp only)

theorem execShl_keeps (p : BitVec 5) (d a b : BitVec 6) (s : State) (hInv : s.Good nF fl) :
    KeepsGood nF fl (execShl p d a b s) := by
  unfold execShl
  repeat'
    first
      | (with_reducible apply perform_keeps; intro _ _) | (with_reducible assumption) | (with_reducible apply emitS_inv)
      | (dsimp only)

theorem execShr_keeps (p : BitVec 5) (d a b : BitVec 6) (s : State) (hInv : s.Good nF fl) :
    KeepsGood nF fl (execShr p d a b s) := by
  unfold execShr
  repeat'
    first
      | (with_reducible apply perform_keeps; intro _ _) | (with_reducible assumption) | (with_reducible apply emitS_inv)
      | (dsimp only)

theorem execSar_keeps (p : BitVec 5) (d a b : BitVec 6) (s : State) (hInv : s.Good nF fl) :
    KeepsGood nF fl (execSar p d a b s) := by
  unfold execSar
  repeat'
    first
      | (with_reducible apply perform_keeps; intro _ _) | (with_reducible assumption) | (with_reducible apply emitS_inv)
      | (dsimp only)

theorem execRotl_keeps (p : BitVec 5) (d a b : BitVec 6) (s : State) (hInv : s.Good nF fl) :
    KeepsGood nF fl (execRotl p d a b s) := by
  unfold execRotl
  repeat'
    first
      | (with_reducible apply perform_keeps; intro _ _) | (with_reducible assumption) | (with_reducible apply emitS_inv)
      | (dsimp only)

theorem execMin_keeps (p : BitVec 5) (d a b : BitVec 6) (s : State) (hInv : s.Good nF fl) :
    KeepsGood nF fl (execMin p d a b s) := by
  unfold execMin
  repeat'
    first
      | (with_reducible apply perform_keeps; intro _ _) | (with_reducible assumption) | (with_reducible apply emitS_inv)
      | (dsimp only)

theorem execMax_keeps (p : BitVec 5) (d a b : BitVec 6) (s : State) (hInv : s.Good nF fl) :
    KeepsGood nF fl (execMax p d a b s) := by
  unfold execMax
  repeat'
    first
      | (with_reducible apply perform_keeps; intro _ _) | (with_reducible assumption) | (with_reducible apply emitS_inv)
      | (dsimp only)

theorem execMins_keeps (p : BitVec 5) (d a b : BitVec 6) (s : State) (hInv : s.Good nF fl) :
    KeepsGood nF fl (execMins p d a b s) := by
  unfold execMins
  repeat'
    first
      | (with_reducible apply perform_keeps; intro _ _) | (with_reducible assumption) | (with_reducible apply emitS_inv)
      | (dsimp only)

theorem execMaxs_keeps (p : BitVec 5) (d a b : BitVec 6) (s : State) (hInv : s.Good nF fl) :
    KeepsGood nF fl (execMaxs p d a b s) := by
  unfold execMaxs
  repeat'
    first
      | (with_reducible apply perform_keeps; intro _ _) | (with_reducible assumption) | (with_reducible apply emitS_inv)
      | (dsimp only)

theorem execAddsh_keeps (p : BitVec 5) (d a b : BitVec 6) (sh : BitVec 3) (s : State) (hInv : s.Good nF fl) :
    KeepsGood nF fl (execAddsh p d a b sh s) := by
  unfold execAddsh
  repeat'
    first
      | (with_reducible apply perform_keeps; intro _ _) | (with_reducible assumption) | (with_reducible apply emitS_inv)
      | (dsimp only)

theorem execClz_keeps (p : BitVec 5) (d a : BitVec 6) (s : State) (hInv : s.Good nF fl) : KeepsGood nF fl (execClz p d a s) := by
  unfold execClz
  repeat'
    first
      | (with_reducible apply perform_keeps; intro _ _) | (with_reducible assumption) | (with_reducible apply emitS_inv)
      | (dsimp only)

theorem execPopc_keeps (p : BitVec 5) (d a : BitVec 6) (s : State) (hInv : s.Good nF fl) :
    KeepsGood nF fl (execPopc p d a s) := by
  unfold execPopc
  repeat'
    first
      | (with_reducible apply perform_keeps; intro _ _) | (with_reducible assumption) | (with_reducible apply emitS_inv)
      | (dsimp only)

theorem execSel_keeps (p : BitVec 5) (d a b : BitVec 6) (pc : BitVec 4) (s : State) (hInv : s.Good nF fl) :
    KeepsGood nF fl (execSel p d a b pc s) := by
  unfold execSel
  repeat'
    first
      | (with_reducible apply perform_keeps; intro _ _) | (with_reducible assumption) | (with_reducible apply emitS_inv)
      | (with_reducible apply inv_ite; rotate_left; intro _) | (split) | (dsimp only)

theorem execAddi_keeps (p : BitVec 5) (d a : BitVec 6) (psel : BitVec 2) (imm : BitVec 22) (s : State) (hInv : s.Good nF fl) :
    KeepsGood nF fl (execAddi p d a psel imm s) := by
  unfold execAddi
  repeat'
    first
      | (with_reducible apply perform_keeps; intro _ _) | (with_reducible assumption) | (with_reducible apply emitS_inv)
      | (dsimp only)

theorem execMulImm_keeps (p : BitVec 5) (d a : BitVec 6) (psel : BitVec 2) (imm : BitVec 22) (s : State) (hInv : s.Good nF fl) :
    KeepsGood nF fl (execMulImm p d a psel imm s) := by
  unfold execMulImm
  repeat'
    first
      | (with_reducible apply perform_keeps; intro _ _) | (with_reducible assumption) | (with_reducible apply emitS_inv)
      | (dsimp only)

theorem execAndImm_keeps (p : BitVec 5) (d a : BitVec 6) (psel : BitVec 2) (imm : BitVec 22) (s : State) (hInv : s.Good nF fl) :
    KeepsGood nF fl (execAndImm p d a psel imm s) := by
  unfold execAndImm
  repeat'
    first
      | (with_reducible apply perform_keeps; intro _ _) | (with_reducible assumption) | (with_reducible apply emitS_inv)
      | (dsimp only)

theorem execOrImm_keeps (p : BitVec 5) (d a : BitVec 6) (psel : BitVec 2) (imm : BitVec 22) (s : State) (hInv : s.Good nF fl) :
    KeepsGood nF fl (execOrImm p d a psel imm s) := by
  unfold execOrImm
  repeat'
    first
      | (with_reducible apply perform_keeps; intro _ _) | (with_reducible assumption) | (with_reducible apply emitS_inv)
      | (dsimp only)

theorem execXorImm_keeps (p : BitVec 5) (d a : BitVec 6) (psel : BitVec 2) (imm : BitVec 22) (s : State) (hInv : s.Good nF fl) :
    KeepsGood nF fl (execXorImm p d a psel imm s) := by
  unfold execXorImm
  repeat'
    first
      | (with_reducible apply perform_keeps; intro _ _) | (with_reducible assumption) | (with_reducible apply emitS_inv)
      | (dsimp only)

theorem execShlImm_keeps (p : BitVec 5) (d a : BitVec 6) (psel : BitVec 2) (imm : BitVec 22) (s : State) (hInv : s.Good nF fl) :
    KeepsGood nF fl (execShlImm p d a psel imm s) := by
  unfold execShlImm
  repeat'
    first
      | (with_reducible apply perform_keeps; intro _ _) | (with_reducible assumption) | (with_reducible apply emitS_inv)
      | (dsimp only)

theorem execShrImm_keeps (p : BitVec 5) (d a : BitVec 6) (psel : BitVec 2) (imm : BitVec 22) (s : State) (hInv : s.Good nF fl) :
    KeepsGood nF fl (execShrImm p d a psel imm s) := by
  unfold execShrImm
  repeat'
    first
      | (with_reducible apply perform_keeps; intro _ _) | (with_reducible assumption) | (with_reducible apply emitS_inv)
      | (dsimp only)

theorem execSarImm_keeps (p : BitVec 5) (d a : BitVec 6) (psel : BitVec 2) (imm : BitVec 22) (s : State) (hInv : s.Good nF fl) :
    KeepsGood nF fl (execSarImm p d a psel imm s) := by
  unfold execSarImm
  repeat'
    first
      | (with_reducible apply perform_keeps; intro _ _) | (with_reducible assumption) | (with_reducible apply emitS_inv)
      | (dsimp only)

theorem execRotlImm_keeps (p : BitVec 5) (d a : BitVec 6) (psel : BitVec 2) (imm : BitVec 22) (s : State) (hInv : s.Good nF fl) :
    KeepsGood nF fl (execRotlImm p d a psel imm s) := by
  unfold execRotlImm
  repeat'
    first
      | (with_reducible apply perform_keeps; intro _ _) | (with_reducible assumption) | (with_reducible apply emitS_inv)
      | (dsimp only)

theorem execMinImm_keeps (p : BitVec 5) (d a : BitVec 6) (psel : BitVec 2) (imm : BitVec 22) (s : State) (hInv : s.Good nF fl) :
    KeepsGood nF fl (execMinImm p d a psel imm s) := by
  unfold execMinImm
  repeat'
    first
      | (with_reducible apply perform_keeps; intro _ _) | (with_reducible assumption) | (with_reducible apply emitS_inv)
      | (dsimp only)

theorem execMaxImm_keeps (p : BitVec 5) (d a : BitVec 6) (psel : BitVec 2) (imm : BitVec 22) (s : State) (hInv : s.Good nF fl) :
    KeepsGood nF fl (execMaxImm p d a psel imm s) := by
  unfold execMaxImm
  repeat'
    first
      | (with_reducible apply perform_keeps; intro _ _) | (with_reducible assumption) | (with_reducible apply emitS_inv)
      | (dsimp only)

theorem execMinsImm_keeps (p : BitVec 5) (d a : BitVec 6) (psel : BitVec 2) (imm : BitVec 22) (s : State) (hInv : s.Good nF fl) :
    KeepsGood nF fl (execMinsImm p d a psel imm s) := by
  unfold execMinsImm
  repeat'
    first
      | (with_reducible apply perform_keeps; intro _ _) | (with_reducible assumption) | (with_reducible apply emitS_inv)
      | (dsimp only)

theorem execMaxsImm_keeps (p : BitVec 5) (d a : BitVec 6) (psel : BitVec 2) (imm : BitVec 22) (s : State) (hInv : s.Good nF fl) :
    KeepsGood nF fl (execMaxsImm p d a psel imm s) := by
  unfold execMaxsImm
  repeat'
    first
      | (with_reducible apply perform_keeps; intro _ _) | (with_reducible assumption) | (with_reducible apply emitS_inv)
      | (dsimp only)

theorem execCmpeq_keeps (p : BitVec 5) (pd : BitVec 4) (a b : BitVec 6) (s : State) (hInv : s.Good nF fl) :
    KeepsGood nF fl (execCmpeq p pd a b s) := by
  unfold execCmpeq
  repeat'
    first
      | (with_reducible apply perform_keeps; intro _ _) | (with_reducible assumption) | (with_reducible apply emitP_inv)
      | (dsimp only)

theorem execCmpne_keeps (p : BitVec 5) (pd : BitVec 4) (a b : BitVec 6) (s : State) (hInv : s.Good nF fl) :
    KeepsGood nF fl (execCmpne p pd a b s) := by
  unfold execCmpne
  repeat'
    first
      | (with_reducible apply perform_keeps; intro _ _) | (with_reducible assumption) | (with_reducible apply emitP_inv)
      | (dsimp only)

theorem execCmplt_keeps (p : BitVec 5) (pd : BitVec 4) (a b : BitVec 6) (s : State) (hInv : s.Good nF fl) :
    KeepsGood nF fl (execCmplt p pd a b s) := by
  unfold execCmplt
  repeat'
    first
      | (with_reducible apply perform_keeps; intro _ _) | (with_reducible assumption) | (with_reducible apply emitP_inv)
      | (dsimp only)

theorem execCmplts_keeps (p : BitVec 5) (pd : BitVec 4) (a b : BitVec 6) (s : State) (hInv : s.Good nF fl) :
    KeepsGood nF fl (execCmplts p pd a b s) := by
  unfold execCmplts
  repeat'
    first
      | (with_reducible apply perform_keeps; intro _ _) | (with_reducible assumption) | (with_reducible apply emitP_inv)
      | (dsimp only)

theorem execCmple_keeps (p : BitVec 5) (pd : BitVec 4) (a b : BitVec 6) (s : State) (hInv : s.Good nF fl) :
    KeepsGood nF fl (execCmple p pd a b s) := by
  unfold execCmple
  repeat'
    first
      | (with_reducible apply perform_keeps; intro _ _) | (with_reducible assumption) | (with_reducible apply emitP_inv)
      | (dsimp only)

theorem execCmples_keeps (p : BitVec 5) (pd : BitVec 4) (a b : BitVec 6) (s : State) (hInv : s.Good nF fl) :
    KeepsGood nF fl (execCmples p pd a b s) := by
  unfold execCmples
  repeat'
    first
      | (with_reducible apply perform_keeps; intro _ _) | (with_reducible assumption) | (with_reducible apply emitP_inv)
      | (dsimp only)

theorem execCmpeqImm_keeps (p : BitVec 5) (pd : BitVec 4) (a : BitVec 6) (psel : BitVec 2) (imm : BitVec 22) (s : State) (hInv : s.Good nF fl) :
    KeepsGood nF fl (execCmpeqImm p pd a psel imm s) := by
  unfold execCmpeqImm
  repeat'
    first
      | (with_reducible apply perform_keeps; intro _ _) | (with_reducible assumption) | (with_reducible apply emitP_inv)
      | (dsimp only)

theorem execCmpneImm_keeps (p : BitVec 5) (pd : BitVec 4) (a : BitVec 6) (psel : BitVec 2) (imm : BitVec 22) (s : State) (hInv : s.Good nF fl) :
    KeepsGood nF fl (execCmpneImm p pd a psel imm s) := by
  unfold execCmpneImm
  repeat'
    first
      | (with_reducible apply perform_keeps; intro _ _) | (with_reducible assumption) | (with_reducible apply emitP_inv)
      | (dsimp only)

theorem execCmpltImm_keeps (p : BitVec 5) (pd : BitVec 4) (a : BitVec 6) (psel : BitVec 2) (imm : BitVec 22) (s : State) (hInv : s.Good nF fl) :
    KeepsGood nF fl (execCmpltImm p pd a psel imm s) := by
  unfold execCmpltImm
  repeat'
    first
      | (with_reducible apply perform_keeps; intro _ _) | (with_reducible assumption) | (with_reducible apply emitP_inv)
      | (dsimp only)

theorem execCmpltsImm_keeps (p : BitVec 5) (pd : BitVec 4) (a : BitVec 6) (psel : BitVec 2) (imm : BitVec 22) (s : State) (hInv : s.Good nF fl) :
    KeepsGood nF fl (execCmpltsImm p pd a psel imm s) := by
  unfold execCmpltsImm
  repeat'
    first
      | (with_reducible apply perform_keeps; intro _ _) | (with_reducible assumption) | (with_reducible apply emitP_inv)
      | (dsimp only)

theorem execCmpleImm_keeps (p : BitVec 5) (pd : BitVec 4) (a : BitVec 6) (psel : BitVec 2) (imm : BitVec 22) (s : State) (hInv : s.Good nF fl) :
    KeepsGood nF fl (execCmpleImm p pd a psel imm s) := by
  unfold execCmpleImm
  repeat'
    first
      | (with_reducible apply perform_keeps; intro _ _) | (with_reducible assumption) | (with_reducible apply emitP_inv)
      | (dsimp only)

theorem execCmplesImm_keeps (p : BitVec 5) (pd : BitVec 4) (a : BitVec 6) (psel : BitVec 2) (imm : BitVec 22) (s : State) (hInv : s.Good nF fl) :
    KeepsGood nF fl (execCmplesImm p pd a psel imm s) := by
  unfold execCmplesImm
  repeat'
    first
      | (with_reducible apply perform_keeps; intro _ _) | (with_reducible assumption) | (with_reducible apply emitP_inv)
      | (dsimp only)

theorem execLi_keeps (p : BitVec 5) (d : BitVec 6) (psel : BitVec 2) (imm : BitVec 28) (s : State) (hInv : s.Good nF fl) :
    KeepsGood nF fl (execLi p d psel imm s) := by
  unfold execLi
  repeat'
    first
      | (with_reducible apply perform_keeps; intro _ _) | (with_reducible assumption) | (with_reducible apply emitS_inv)
      | (dsimp only)

theorem execLiLong_keeps (p : BitVec 5) (d : BitVec 6) (imm : BitVec 64) (s : State) (hInv : s.Good nF fl) :
    KeepsGood nF fl (execLiLong p d imm s) := by
  unfold execLiLong
  repeat'
    first
      | (with_reducible apply perform_keeps; intro _ _) | (with_reducible assumption) | (with_reducible apply emitS_inv)
      | (dsimp only)

theorem execPset_keeps (p : BitVec 5) (pd : BitVec 4) (a : BitVec 6) (s : State) (hInv : s.Good nF fl) :
    KeepsGood nF fl (execPset p pd a s) := by
  unfold execPset
  repeat'
    first
      | (with_reducible apply perform_keeps; intro _ _) | (with_reducible assumption) | (with_reducible apply emitP_inv)
      | (dsimp only)

theorem execPand_keeps (p : BitVec 5) (pd pa pb : BitVec 4) (inva invb : BitVec 1) (s : State) (hInv : s.Good nF fl) :
    KeepsGood nF fl (execPand p pd pa pb inva invb s) := by
  unfold execPand
  repeat'
    first
      | (with_reducible apply perform_keeps; intro _ _) | (with_reducible assumption) | (with_reducible apply emitP_inv)
      | (dsimp only)

theorem execPor_keeps (p : BitVec 5) (pd pa pb : BitVec 4) (inva invb : BitVec 1) (s : State) (hInv : s.Good nF fl) :
    KeepsGood nF fl (execPor p pd pa pb inva invb s) := by
  unfold execPor
  repeat'
    first
      | (with_reducible apply perform_keeps; intro _ _) | (with_reducible assumption) | (with_reducible apply emitP_inv)
      | (dsimp only)

theorem execPxor_keeps (p : BitVec 5) (pd pa pb : BitVec 4) (inva invb : BitVec 1) (s : State) (hInv : s.Good nF fl) :
    KeepsGood nF fl (execPxor p pd pa pb inva invb s) := by
  unfold execPxor
  repeat'
    first
      | (with_reducible apply perform_keeps; intro _ _) | (with_reducible assumption) | (with_reducible apply emitP_inv)
      | (dsimp only)

theorem execPnot_keeps (p : BitVec 5) (pd pa : BitVec 4) (s : State) (hInv : s.Good nF fl) :
    KeepsGood nF fl (execPnot p pd pa s) := by
  unfold execPnot
  repeat'
    first
      | (with_reducible apply perform_keeps; intro _ _) | (with_reducible assumption) | (with_reducible apply emitP_inv)
      | (dsimp only)

theorem execLidx_keeps (p : BitVec 5) (d : BitVec 6) (idx : BitVec 3) (s : State) (hInv : s.Good nF fl) :
    KeepsGood nF fl (execLidx p d idx s) := by
  unfold execLidx
  repeat'
    first
      | (with_reducible apply perform_keeps; intro _ _) | (with_reducible assumption) | (with_reducible apply emitS_inv)
      | (dsimp only)

theorem execCsrr_keeps (p : BitVec 5) (d : BitVec 6) (csr : BitVec 12) (s : State) (hInv : s.Good nF fl) :
    KeepsGood nF fl (execCsrr p d csr s) := by
  unfold execCsrr
  repeat'
    first
      | (with_reducible apply perform_keeps; intro _ _) | (with_reducible assumption) | (with_reducible apply emitS_inv)
      | (with_reducible apply csrReadEffect_inv) | (dsimp only)

theorem execCsrw_keeps (p : BitVec 5) (a : BitVec 6) (csr : BitVec 12) (s : State) (hInv : s.Good nF fl) :
    KeepsGood nF fl (execCsrw p a csr s) := by
  unfold execCsrw
  repeat'
    first
      | (with_reducible apply perform_keeps; intro _ _) | (with_reducible assumption) | (with_reducible apply csrWrite_inv)
      | (dsimp only)

theorem execCsrwImm_keeps (p : BitVec 5) (imm : BitVec 16) (csr : BitVec 12) (s : State) (hInv : s.Good nF fl) :
    KeepsGood nF fl (execCsrwImm p imm csr s) := by
  unfold execCsrwImm
  repeat'
    first
      | (with_reducible apply perform_keeps; intro _ _) | (with_reducible assumption) | (with_reducible apply csrWrite_inv)
      | (dsimp only)

theorem execNbnd_keeps (p : BitVec 5) (n : BitVec 4) (a : BitVec 6) (s : State) (hInv : s.Good nF fl) :
    KeepsGood nF fl (execNbnd p n a s) := by
  unfold execNbnd
  repeat'
    first
      | (with_reducible apply perform_keeps; intro _ _) | (with_reducible assumption) | (with_reducible apply emit_inv)
      | (dsimp only)

theorem execNbndImm_keeps (p : BitVec 5) (n : BitVec 4) (imm : BitVec 32) (s : State) (hInv : s.Good nF fl) :
    KeepsGood nF fl (execNbndImm p n imm s) := by
  unfold execNbndImm
  repeat'
    first
      | (with_reducible apply perform_keeps; intro _ _) | (with_reducible assumption) | (with_reducible apply emit_inv)
      | (dsimp only)

theorem execVadd_keeps (p : BitVec 5) (vd va vb : BitVec 13) (s : State) (hInv : s.Good nF fl) :
    KeepsGood nF fl (execVadd p vd va vb s) := by
  unfold execVadd
  repeat'
    first
      | (with_reducible apply perform_keeps; intro _ _) | (with_reducible assumption) | (with_reducible apply emitRes_inv)
      | (dsimp only)

theorem execVsub_keeps (p : BitVec 5) (vd va vb : BitVec 13) (s : State) (hInv : s.Good nF fl) :
    KeepsGood nF fl (execVsub p vd va vb s) := by
  unfold execVsub
  repeat'
    first
      | (with_reducible apply perform_keeps; intro _ _) | (with_reducible assumption) | (with_reducible apply emitRes_inv)
      | (dsimp only)

theorem execVmul_keeps (p : BitVec 5) (vd va vb : BitVec 13) (s : State) (hInv : s.Good nF fl) :
    KeepsGood nF fl (execVmul p vd va vb s) := by
  unfold execVmul
  repeat'
    first
      | (with_reducible apply perform_keeps; intro _ _) | (with_reducible assumption) | (with_reducible apply emitRes_inv)
      | (dsimp only)

theorem execVmin_keeps (p : BitVec 5) (vd va vb : BitVec 13) (s : State) (hInv : s.Good nF fl) :
    KeepsGood nF fl (execVmin p vd va vb s) := by
  unfold execVmin
  repeat'
    first
      | (with_reducible apply perform_keeps; intro _ _) | (with_reducible assumption) | (with_reducible apply emitRes_inv)
      | (dsimp only)

theorem execVmax_keeps (p : BitVec 5) (vd va vb : BitVec 13) (s : State) (hInv : s.Good nF fl) :
    KeepsGood nF fl (execVmax p vd va vb s) := by
  unfold execVmax
  repeat'
    first
      | (with_reducible apply perform_keeps; intro _ _) | (with_reducible assumption) | (with_reducible apply emitRes_inv)
      | (dsimp only)

theorem execVfma_keeps (p : BitVec 5) (vd va vb vc : BitVec 13) (s : State) (hInv : s.Good nF fl) :
    KeepsGood nF fl (execVfma p vd va vb vc s) := by
  unfold execVfma
  repeat'
    first
      | (with_reducible apply perform_keeps; intro _ _) | (with_reducible assumption) | (with_reducible apply emitRes_inv)
      | (dsimp only)

theorem execVfms_keeps (p : BitVec 5) (vd va vb vc : BitVec 13) (s : State) (hInv : s.Good nF fl) :
    KeepsGood nF fl (execVfms p vd va vb vc s) := by
  unfold execVfms
  repeat'
    first
      | (with_reducible apply perform_keeps; intro _ _) | (with_reducible assumption) | (with_reducible apply emitRes_inv)
      | (dsimp only)

theorem execVfnma_keeps (p : BitVec 5) (vd va vb vc : BitVec 13) (s : State) (hInv : s.Good nF fl) :
    KeepsGood nF fl (execVfnma p vd va vb vc s) := by
  unfold execVfnma
  repeat'
    first
      | (with_reducible apply perform_keeps; intro _ _) | (with_reducible assumption) | (with_reducible apply emitRes_inv)
      | (dsimp only)

theorem execVaddScalar_keeps (p : BitVec 5) (vd va : BitVec 13) (sb : BitVec 6) (s : State) (hInv : s.Good nF fl) :
    KeepsGood nF fl (execVaddScalar p vd va sb s) := by
  unfold execVaddScalar
  repeat'
    first
      | (with_reducible apply perform_keeps; intro _ _) | (with_reducible assumption) | (with_reducible apply emitRes_inv)
      | (dsimp only)

theorem execVsubScalar_keeps (p : BitVec 5) (vd va : BitVec 13) (sb : BitVec 6) (s : State) (hInv : s.Good nF fl) :
    KeepsGood nF fl (execVsubScalar p vd va sb s) := by
  unfold execVsubScalar
  repeat'
    first
      | (with_reducible apply perform_keeps; intro _ _) | (with_reducible assumption) | (with_reducible apply emitRes_inv)
      | (dsimp only)

theorem execVmulScalar_keeps (p : BitVec 5) (vd va : BitVec 13) (sb : BitVec 6) (s : State) (hInv : s.Good nF fl) :
    KeepsGood nF fl (execVmulScalar p vd va sb s) := by
  unfold execVmulScalar
  repeat'
    first
      | (with_reducible apply perform_keeps; intro _ _) | (with_reducible assumption) | (with_reducible apply emitRes_inv)
      | (dsimp only)

theorem execVminScalar_keeps (p : BitVec 5) (vd va : BitVec 13) (sb : BitVec 6) (s : State) (hInv : s.Good nF fl) :
    KeepsGood nF fl (execVminScalar p vd va sb s) := by
  unfold execVminScalar
  repeat'
    first
      | (with_reducible apply perform_keeps; intro _ _) | (with_reducible assumption) | (with_reducible apply emitRes_inv)
      | (dsimp only)

theorem execVmaxScalar_keeps (p : BitVec 5) (vd va : BitVec 13) (sb : BitVec 6) (s : State) (hInv : s.Good nF fl) :
    KeepsGood nF fl (execVmaxScalar p vd va sb s) := by
  unfold execVmaxScalar
  repeat'
    first
      | (with_reducible apply perform_keeps; intro _ _) | (with_reducible assumption) | (with_reducible apply emitRes_inv)
      | (dsimp only)

theorem execVfmaScalar_keeps (p : BitVec 5) (vd va : BitVec 13) (sb : BitVec 6) (vc : BitVec 13) (s : State) (hInv : s.Good nF fl) :
    KeepsGood nF fl (execVfmaScalar p vd va sb vc s) := by
  unfold execVfmaScalar
  repeat'
    first
      | (with_reducible apply perform_keeps; intro _ _) | (with_reducible assumption) | (with_reducible apply emitRes_inv)
      | (dsimp only)

theorem execVfmsScalar_keeps (p : BitVec 5) (vd va : BitVec 13) (sb : BitVec 6) (vc : BitVec 13) (s : State) (hInv : s.Good nF fl) :
    KeepsGood nF fl (execVfmsScalar p vd va sb vc s) := by
  unfold execVfmsScalar
  repeat'
    first
      | (with_reducible apply perform_keeps; intro _ _) | (with_reducible assumption) | (with_reducible apply emitRes_inv)
      | (dsimp only)

theorem execVfnmaScalar_keeps (p : BitVec 5) (vd va : BitVec 13) (sb : BitVec 6) (vc : BitVec 13) (s : State) (hInv : s.Good nF fl) :
    KeepsGood nF fl (execVfnmaScalar p vd va sb vc s) := by
  unfold execVfnmaScalar
  repeat'
    first
      | (with_reducible apply perform_keeps; intro _ _) | (with_reducible assumption) | (with_reducible apply emitRes_inv)
      | (dsimp only)

theorem execVabs_keeps (p : BitVec 5) (vd va : BitVec 13) (s : State) (hInv : s.Good nF fl) :
    KeepsGood nF fl (execVabs p vd va s) := by
  unfold execVabs
  repeat'
    first
      | (with_reducible apply perform_keeps; intro _ _) | (with_reducible assumption) | (with_reducible apply emitRes_inv)
      | (dsimp only)

theorem execVneg_keeps (p : BitVec 5) (vd va : BitVec 13) (s : State) (hInv : s.Good nF fl) :
    KeepsGood nF fl (execVneg p vd va s) := by
  unfold execVneg
  repeat'
    first
      | (with_reducible apply perform_keeps; intro _ _) | (with_reducible assumption) | (with_reducible apply emitRes_inv)
      | (dsimp only)

theorem execVrcp_keeps (p : BitVec 5) (vd va : BitVec 13) (s : State) (hInv : s.Good nF fl) :
    KeepsGood nF fl (execVrcp p vd va s) := by
  unfold execVrcp
  repeat'
    first
      | (with_reducible apply perform_keeps; intro _ _) | (with_reducible assumption) | (with_reducible apply emitRes_inv)
      | (dsimp only)

theorem execVrsq_keeps (p : BitVec 5) (vd va : BitVec 13) (s : State) (hInv : s.Good nF fl) :
    KeepsGood nF fl (execVrsq p vd va s) := by
  unfold execVrsq
  repeat'
    first
      | (with_reducible apply perform_keeps; intro _ _) | (with_reducible assumption) | (with_reducible apply emitRes_inv)
      | (dsimp only)

theorem execVexp2_keeps (p : BitVec 5) (vd va : BitVec 13) (s : State) (hInv : s.Good nF fl) :
    KeepsGood nF fl (execVexp2 p vd va s) := by
  unfold execVexp2
  repeat'
    first
      | (with_reducible apply perform_keeps; intro _ _) | (with_reducible assumption) | (with_reducible apply emitRes_inv)
      | (dsimp only)

theorem execVlog2_keeps (p : BitVec 5) (vd va : BitVec 13) (s : State) (hInv : s.Good nF fl) :
    KeepsGood nF fl (execVlog2 p vd va s) := by
  unfold execVlog2
  repeat'
    first
      | (with_reducible apply perform_keeps; intro _ _) | (with_reducible assumption) | (with_reducible apply emitRes_inv)
      | (dsimp only)

theorem execVclamp_keeps (p : BitVec 5) (vd va : BitVec 13) (slo shi : BitVec 6) (s : State) (hInv : s.Good nF fl) :
    KeepsGood nF fl (execVclamp p vd va slo shi s) := by
  unfold execVclamp
  repeat'
    first
      | (with_reducible apply perform_keeps; intro _ _) | (with_reducible assumption) | (with_reducible apply emitRes_inv)
      | (dsimp only)

theorem execVsel_keeps (p : BitVec 5) (vd va vb vc : BitVec 13) (s : State) (hInv : s.Good nF fl) :
    KeepsGood nF fl (execVsel p vd va vb vc s) := by
  unfold execVsel
  repeat'
    first
      | (with_reducible apply perform_keeps; intro _ _) | (with_reducible assumption) | (with_reducible apply emitVec_inv)
      | (dsimp only)

theorem execVcmpeqF_keeps (p : BitVec 5) (vd va vb : BitVec 13) (s : State) (hInv : s.Good nF fl) :
    KeepsGood nF fl (execVcmpeqF p vd va vb s) := by
  unfold execVcmpeqF
  repeat'
    first
      | (with_reducible apply perform_keeps; intro _ _) | (with_reducible assumption) | (with_reducible apply emitRes_inv)
      | (dsimp only)

theorem execVcmpltF_keeps (p : BitVec 5) (vd va vb : BitVec 13) (s : State) (hInv : s.Good nF fl) :
    KeepsGood nF fl (execVcmpltF p vd va vb s) := by
  unfold execVcmpltF
  repeat'
    first
      | (with_reducible apply perform_keeps; intro _ _) | (with_reducible assumption) | (with_reducible apply emitRes_inv)
      | (dsimp only)

theorem execVcmpleF_keeps (p : BitVec 5) (vd va vb : BitVec 13) (s : State) (hInv : s.Good nF fl) :
    KeepsGood nF fl (execVcmpleF p vd va vb s) := by
  unfold execVcmpleF
  repeat'
    first
      | (with_reducible apply perform_keeps; intro _ _) | (with_reducible assumption) | (with_reducible apply emitRes_inv)
      | (dsimp only)

theorem execVcmpeqI_keeps (p : BitVec 5) (vd va vb : BitVec 13) (s : State) (hInv : s.Good nF fl) :
    KeepsGood nF fl (execVcmpeqI p vd va vb s) := by
  unfold execVcmpeqI
  repeat'
    first
      | (with_reducible apply perform_keeps; intro _ _) | (with_reducible assumption) | (with_reducible apply emitRes_inv)
      | (dsimp only)

theorem execVcmpltSi_keeps (p : BitVec 5) (vd va vb : BitVec 13) (s : State) (hInv : s.Good nF fl) :
    KeepsGood nF fl (execVcmpltSi p vd va vb s) := by
  unfold execVcmpltSi
  repeat'
    first
      | (with_reducible apply perform_keeps; intro _ _) | (with_reducible assumption) | (with_reducible apply emitRes_inv)
      | (dsimp only)

theorem execVcmpltUi_keeps (p : BitVec 5) (vd va vb : BitVec 13) (s : State) (hInv : s.Good nF fl) :
    KeepsGood nF fl (execVcmpltUi p vd va vb s) := by
  unfold execVcmpltUi
  repeat'
    first
      | (with_reducible apply perform_keeps; intro _ _) | (with_reducible assumption) | (with_reducible apply emitRes_inv)
      | (dsimp only)

theorem execVcmpleSi_keeps (p : BitVec 5) (vd va vb : BitVec 13) (s : State) (hInv : s.Good nF fl) :
    KeepsGood nF fl (execVcmpleSi p vd va vb s) := by
  unfold execVcmpleSi
  repeat'
    first
      | (with_reducible apply perform_keeps; intro _ _) | (with_reducible assumption) | (with_reducible apply emitRes_inv)
      | (dsimp only)

theorem execVcmpleUi_keeps (p : BitVec 5) (vd va vb : BitVec 13) (s : State) (hInv : s.Good nF fl) :
    KeepsGood nF fl (execVcmpleUi p vd va vb s) := by
  unfold execVcmpleUi
  repeat'
    first
      | (with_reducible apply perform_keeps; intro _ _) | (with_reducible assumption) | (with_reducible apply emitRes_inv)
      | (dsimp only)

theorem execViaddB_keeps (p : BitVec 5) (vd va vb : BitVec 13) (s : State) (hInv : s.Good nF fl) :
    KeepsGood nF fl (execViaddB p vd va vb s) := by
  unfold execViaddB
  repeat'
    first
      | (with_reducible apply perform_keeps; intro _ _) | (with_reducible assumption) | (with_reducible apply emitVec_inv)
      | (dsimp only)

theorem execViaddBScalar_keeps (p : BitVec 5) (vd va : BitVec 13) (sb : BitVec 6) (s : State) (hInv : s.Good nF fl) :
    KeepsGood nF fl (execViaddBScalar p vd va sb s) := by
  unfold execViaddBScalar
  repeat'
    first
      | (with_reducible apply perform_keeps; intro _ _) | (with_reducible assumption) | (with_reducible apply emitVec_inv)
      | (dsimp only)

theorem execViaddH_keeps (p : BitVec 5) (vd va vb : BitVec 13) (s : State) (hInv : s.Good nF fl) :
    KeepsGood nF fl (execViaddH p vd va vb s) := by
  unfold execViaddH
  repeat'
    first
      | (with_reducible apply perform_keeps; intro _ _) | (with_reducible assumption) | (with_reducible apply emitVec_inv)
      | (dsimp only)

theorem execViaddHScalar_keeps (p : BitVec 5) (vd va : BitVec 13) (sb : BitVec 6) (s : State) (hInv : s.Good nF fl) :
    KeepsGood nF fl (execViaddHScalar p vd va sb s) := by
  unfold execViaddHScalar
  repeat'
    first
      | (with_reducible apply perform_keeps; intro _ _) | (with_reducible assumption) | (with_reducible apply emitVec_inv)
      | (dsimp only)

theorem execViaddW_keeps (p : BitVec 5) (vd va vb : BitVec 13) (s : State) (hInv : s.Good nF fl) :
    KeepsGood nF fl (execViaddW p vd va vb s) := by
  unfold execViaddW
  repeat'
    first
      | (with_reducible apply perform_keeps; intro _ _) | (with_reducible assumption) | (with_reducible apply emitVec_inv)
      | (dsimp only)

theorem execViaddWScalar_keeps (p : BitVec 5) (vd va : BitVec 13) (sb : BitVec 6) (s : State) (hInv : s.Good nF fl) :
    KeepsGood nF fl (execViaddWScalar p vd va sb s) := by
  unfold execViaddWScalar
  repeat'
    first
      | (with_reducible apply perform_keeps; intro _ _) | (with_reducible assumption) | (with_reducible apply emitVec_inv)
      | (dsimp only)

theorem execVisubB_keeps (p : BitVec 5) (vd va vb : BitVec 13) (s : State) (hInv : s.Good nF fl) :
    KeepsGood nF fl (execVisubB p vd va vb s) := by
  unfold execVisubB
  repeat'
    first
      | (with_reducible apply perform_keeps; intro _ _) | (with_reducible assumption) | (with_reducible apply emitVec_inv)
      | (dsimp only)

theorem execVisubBScalar_keeps (p : BitVec 5) (vd va : BitVec 13) (sb : BitVec 6) (s : State) (hInv : s.Good nF fl) :
    KeepsGood nF fl (execVisubBScalar p vd va sb s) := by
  unfold execVisubBScalar
  repeat'
    first
      | (with_reducible apply perform_keeps; intro _ _) | (with_reducible assumption) | (with_reducible apply emitVec_inv)
      | (dsimp only)

theorem execVisubH_keeps (p : BitVec 5) (vd va vb : BitVec 13) (s : State) (hInv : s.Good nF fl) :
    KeepsGood nF fl (execVisubH p vd va vb s) := by
  unfold execVisubH
  repeat'
    first
      | (with_reducible apply perform_keeps; intro _ _) | (with_reducible assumption) | (with_reducible apply emitVec_inv)
      | (dsimp only)

theorem execVisubHScalar_keeps (p : BitVec 5) (vd va : BitVec 13) (sb : BitVec 6) (s : State) (hInv : s.Good nF fl) :
    KeepsGood nF fl (execVisubHScalar p vd va sb s) := by
  unfold execVisubHScalar
  repeat'
    first
      | (with_reducible apply perform_keeps; intro _ _) | (with_reducible assumption) | (with_reducible apply emitVec_inv)
      | (dsimp only)

theorem execVisubW_keeps (p : BitVec 5) (vd va vb : BitVec 13) (s : State) (hInv : s.Good nF fl) :
    KeepsGood nF fl (execVisubW p vd va vb s) := by
  unfold execVisubW
  repeat'
    first
      | (with_reducible apply perform_keeps; intro _ _) | (with_reducible assumption) | (with_reducible apply emitVec_inv)
      | (dsimp only)

theorem execVisubWScalar_keeps (p : BitVec 5) (vd va : BitVec 13) (sb : BitVec 6) (s : State) (hInv : s.Good nF fl) :
    KeepsGood nF fl (execVisubWScalar p vd va sb s) := by
  unfold execVisubWScalar
  repeat'
    first
      | (with_reducible apply perform_keeps; intro _ _) | (with_reducible assumption) | (with_reducible apply emitVec_inv)
      | (dsimp only)

theorem execVimulB_keeps (p : BitVec 5) (vd va vb : BitVec 13) (s : State) (hInv : s.Good nF fl) :
    KeepsGood nF fl (execVimulB p vd va vb s) := by
  unfold execVimulB
  repeat'
    first
      | (with_reducible apply perform_keeps; intro _ _) | (with_reducible assumption) | (with_reducible apply emitVec_inv)
      | (dsimp only)

theorem execVimulBScalar_keeps (p : BitVec 5) (vd va : BitVec 13) (sb : BitVec 6) (s : State) (hInv : s.Good nF fl) :
    KeepsGood nF fl (execVimulBScalar p vd va sb s) := by
  unfold execVimulBScalar
  repeat'
    first
      | (with_reducible apply perform_keeps; intro _ _) | (with_reducible assumption) | (with_reducible apply emitVec_inv)
      | (dsimp only)

theorem execVimulH_keeps (p : BitVec 5) (vd va vb : BitVec 13) (s : State) (hInv : s.Good nF fl) :
    KeepsGood nF fl (execVimulH p vd va vb s) := by
  unfold execVimulH
  repeat'
    first
      | (with_reducible apply perform_keeps; intro _ _) | (with_reducible assumption) | (with_reducible apply emitVec_inv)
      | (dsimp only)

theorem execVimulHScalar_keeps (p : BitVec 5) (vd va : BitVec 13) (sb : BitVec 6) (s : State) (hInv : s.Good nF fl) :
    KeepsGood nF fl (execVimulHScalar p vd va sb s) := by
  unfold execVimulHScalar
  repeat'
    first
      | (with_reducible apply perform_keeps; intro _ _) | (with_reducible assumption) | (with_reducible apply emitVec_inv)
      | (dsimp only)

theorem execVimulW_keeps (p : BitVec 5) (vd va vb : BitVec 13) (s : State) (hInv : s.Good nF fl) :
    KeepsGood nF fl (execVimulW p vd va vb s) := by
  unfold execVimulW
  repeat'
    first
      | (with_reducible apply perform_keeps; intro _ _) | (with_reducible assumption) | (with_reducible apply emitVec_inv)
      | (dsimp only)

theorem execVimulWScalar_keeps (p : BitVec 5) (vd va : BitVec 13) (sb : BitVec 6) (s : State) (hInv : s.Good nF fl) :
    KeepsGood nF fl (execVimulWScalar p vd va sb s) := by
  unfold execVimulWScalar
  repeat'
    first
      | (with_reducible apply perform_keeps; intro _ _) | (with_reducible assumption) | (with_reducible apply emitVec_inv)
      | (dsimp only)

theorem execVimacB_keeps (p : BitVec 5) (vd va vb vc : BitVec 13) (s : State) (hInv : s.Good nF fl) :
    KeepsGood nF fl (execVimacB p vd va vb vc s) := by
  unfold execVimacB
  repeat'
    first
      | (with_reducible apply perform_keeps; intro _ _) | (with_reducible assumption) | (with_reducible apply emitVec_inv)
      | (dsimp only)

theorem execVimacBScalar_keeps (p : BitVec 5) (vd va : BitVec 13) (sb : BitVec 6) (vc : BitVec 13) (s : State) (hInv : s.Good nF fl) :
    KeepsGood nF fl (execVimacBScalar p vd va sb vc s) := by
  unfold execVimacBScalar
  repeat'
    first
      | (with_reducible apply perform_keeps; intro _ _) | (with_reducible assumption) | (with_reducible apply emitVec_inv)
      | (dsimp only)

theorem execVimacH_keeps (p : BitVec 5) (vd va vb vc : BitVec 13) (s : State) (hInv : s.Good nF fl) :
    KeepsGood nF fl (execVimacH p vd va vb vc s) := by
  unfold execVimacH
  repeat'
    first
      | (with_reducible apply perform_keeps; intro _ _) | (with_reducible assumption) | (with_reducible apply emitVec_inv)
      | (dsimp only)

theorem execVimacHScalar_keeps (p : BitVec 5) (vd va : BitVec 13) (sb : BitVec 6) (vc : BitVec 13) (s : State) (hInv : s.Good nF fl) :
    KeepsGood nF fl (execVimacHScalar p vd va sb vc s) := by
  unfold execVimacHScalar
  repeat'
    first
      | (with_reducible apply perform_keeps; intro _ _) | (with_reducible assumption) | (with_reducible apply emitVec_inv)
      | (dsimp only)

theorem execVimacW_keeps (p : BitVec 5) (vd va vb vc : BitVec 13) (s : State) (hInv : s.Good nF fl) :
    KeepsGood nF fl (execVimacW p vd va vb vc s) := by
  unfold execVimacW
  repeat'
    first
      | (with_reducible apply perform_keeps; intro _ _) | (with_reducible assumption) | (with_reducible apply emitVec_inv)
      | (dsimp only)

theorem execVimacWScalar_keeps (p : BitVec 5) (vd va : BitVec 13) (sb : BitVec 6) (vc : BitVec 13) (s : State) (hInv : s.Good nF fl) :
    KeepsGood nF fl (execVimacWScalar p vd va sb vc s) := by
  unfold execVimacWScalar
  repeat'
    first
      | (with_reducible apply perform_keeps; intro _ _) | (with_reducible assumption) | (with_reducible apply emitVec_inv)
      | (dsimp only)

theorem execVand_keeps (p : BitVec 5) (vd va vb : BitVec 13) (s : State) (hInv : s.Good nF fl) :
    KeepsGood nF fl (execVand p vd va vb s) := by
  unfold execVand
  repeat'
    first
      | (with_reducible apply perform_keeps; intro _ _) | (with_reducible assumption) | (with_reducible apply emitVec_inv)
      | (dsimp only)

theorem execVor_keeps (p : BitVec 5) (vd va vb : BitVec 13) (s : State) (hInv : s.Good nF fl) :
    KeepsGood nF fl (execVor p vd va vb s) := by
  unfold execVor
  repeat'
    first
      | (with_reducible apply perform_keeps; intro _ _) | (with_reducible assumption) | (with_reducible apply emitVec_inv)
      | (dsimp only)

theorem execVxor_keeps (p : BitVec 5) (vd va vb : BitVec 13) (s : State) (hInv : s.Good nF fl) :
    KeepsGood nF fl (execVxor p vd va vb s) := by
  unfold execVxor
  repeat'
    first
      | (with_reducible apply perform_keeps; intro _ _) | (with_reducible assumption) | (with_reducible apply emitVec_inv)
      | (dsimp only)

theorem execVpopc_keeps (p : BitVec 5) (vd va : BitVec 13) (s : State) (hInv : s.Good nF fl) :
    KeepsGood nF fl (execVpopc p vd va s) := by
  unfold execVpopc
  repeat'
    first
      | (with_reducible apply perform_keeps; intro _ _) | (with_reducible assumption) | (with_reducible apply emitVec_inv)
      | (dsimp only)

theorem execVshlB_keeps (p : BitVec 5) (vd va : BitVec 13) (amt : BitVec 5) (s : State) (hInv : s.Good nF fl) :
    KeepsGood nF fl (execVshlB p vd va amt s) := by
  unfold execVshlB
  repeat'
    first
      | (with_reducible apply perform_keeps; intro _ _) | (with_reducible assumption) | (with_reducible apply emitVec_inv)
      | (dsimp only)

theorem execVshlH_keeps (p : BitVec 5) (vd va : BitVec 13) (amt : BitVec 5) (s : State) (hInv : s.Good nF fl) :
    KeepsGood nF fl (execVshlH p vd va amt s) := by
  unfold execVshlH
  repeat'
    first
      | (with_reducible apply perform_keeps; intro _ _) | (with_reducible assumption) | (with_reducible apply emitVec_inv)
      | (dsimp only)

theorem execVshlW_keeps (p : BitVec 5) (vd va : BitVec 13) (amt : BitVec 5) (s : State) (hInv : s.Good nF fl) :
    KeepsGood nF fl (execVshlW p vd va amt s) := by
  unfold execVshlW
  repeat'
    first
      | (with_reducible apply perform_keeps; intro _ _) | (with_reducible assumption) | (with_reducible apply emitVec_inv)
      | (dsimp only)

theorem execVshrB_keeps (p : BitVec 5) (vd va : BitVec 13) (amt : BitVec 5) (s : State) (hInv : s.Good nF fl) :
    KeepsGood nF fl (execVshrB p vd va amt s) := by
  unfold execVshrB
  repeat'
    first
      | (with_reducible apply perform_keeps; intro _ _) | (with_reducible assumption) | (with_reducible apply emitVec_inv)
      | (dsimp only)

theorem execVshrH_keeps (p : BitVec 5) (vd va : BitVec 13) (amt : BitVec 5) (s : State) (hInv : s.Good nF fl) :
    KeepsGood nF fl (execVshrH p vd va amt s) := by
  unfold execVshrH
  repeat'
    first
      | (with_reducible apply perform_keeps; intro _ _) | (with_reducible assumption) | (with_reducible apply emitVec_inv)
      | (dsimp only)

theorem execVshrW_keeps (p : BitVec 5) (vd va : BitVec 13) (amt : BitVec 5) (s : State) (hInv : s.Good nF fl) :
    KeepsGood nF fl (execVshrW p vd va amt s) := by
  unfold execVshrW
  repeat'
    first
      | (with_reducible apply perform_keeps; intro _ _) | (with_reducible assumption) | (with_reducible apply emitVec_inv)
      | (dsimp only)

theorem execVsarB_keeps (p : BitVec 5) (vd va : BitVec 13) (amt : BitVec 5) (s : State) (hInv : s.Good nF fl) :
    KeepsGood nF fl (execVsarB p vd va amt s) := by
  unfold execVsarB
  repeat'
    first
      | (with_reducible apply perform_keeps; intro _ _) | (with_reducible assumption) | (with_reducible apply emitVec_inv)
      | (dsimp only)

theorem execVsarH_keeps (p : BitVec 5) (vd va : BitVec 13) (amt : BitVec 5) (s : State) (hInv : s.Good nF fl) :
    KeepsGood nF fl (execVsarH p vd va amt s) := by
  unfold execVsarH
  repeat'
    first
      | (with_reducible apply perform_keeps; intro _ _) | (with_reducible assumption) | (with_reducible apply emitVec_inv)
      | (dsimp only)

theorem execVsarW_keeps (p : BitVec 5) (vd va : BitVec 13) (amt : BitVec 5) (s : State) (hInv : s.Good nF fl) :
    KeepsGood nF fl (execVsarW p vd va amt s) := by
  unfold execVsarW
  repeat'
    first
      | (with_reducible apply perform_keeps; intro _ _) | (with_reducible assumption) | (with_reducible apply emitVec_inv)
      | (dsimp only)

theorem execVcvt_keeps (p : BitVec 5) (vd va : BitVec 13) (sfmt dfmt : BitVec 5) (s : State) (hInv : s.Good nF fl) :
    KeepsGood nF fl (execVcvt p vd va sfmt dfmt s) := by
  unfold execVcvt
  repeat'
    first
      | (with_reducible apply perform_keeps; intro _ _) | (with_reducible assumption) | (with_reducible apply emitRes_inv)
      | (dsimp only)

theorem execVcvtK_keeps (p : BitVec 5) (vd va : BitVec 13) (sfmt dfmt : BitVec 5) (s : State) (hInv : s.Good nF fl) :
    KeepsGood nF fl (execVcvtK p vd va sfmt dfmt s) := by
  unfold execVcvtK
  repeat'
    first
      | (with_reducible apply perform_keeps; intro _ _) | (with_reducible assumption) | (with_reducible apply emitRes_inv)
      | (dsimp only)

theorem execVpack_keeps (p : BitVec 5) (vd va vb : BitVec 13) (ew3 : BitVec 3) (s : State) (hInv : s.Good nF fl) :
    KeepsGood nF fl (execVpack p vd va vb ew3 s) := by
  unfold execVpack
  repeat'
    first
      | (with_reducible apply perform_keeps; intro _ _) | (with_reducible assumption) | (with_reducible apply emitVec_inv)
      | (dsimp only)

theorem execVunpk_keeps (p : BitVec 5) (vd va : BitVec 13) (ew3 : BitVec 3) (part : BitVec 4) (s : State) (hInv : s.Good nF fl) :
    KeepsGood nF fl (execVunpk p vd va ew3 part s) := by
  unfold execVunpk
  repeat'
    first
      | (with_reducible apply perform_keeps; intro _ _) | (with_reducible assumption) | (with_reducible apply emitVec_inv)
      | (dsimp only)

theorem execVperm_keeps (p : BitVec 5) (vd va vb : BitVec 13) (s : State) (hInv : s.Good nF fl) :
    KeepsGood nF fl (execVperm p vd va vb s) := by
  unfold execVperm
  repeat'
    first
      | (with_reducible apply perform_keeps; intro _ _) | (with_reducible assumption) | (with_reducible apply emitVec_inv)
      | (dsimp only)

theorem execVshuf_keeps (p : BitVec 5) (vd va vb : BitVec 13) (pattern : BitVec 5) (s : State) (hInv : s.Good nF fl) :
    KeepsGood nF fl (execVshuf p vd va vb pattern s) := by
  unfold execVshuf
  repeat'
    first
      | (with_reducible apply perform_keeps; intro _ _) | (with_reducible assumption) | (with_reducible apply emitVec_inv)
      | (dsimp only)

theorem execVbcastScalar_keeps (p : BitVec 5) (vd : BitVec 13) (sa : BitVec 6) (ew : BitVec 2) (s : State) (hInv : s.Good nF fl) :
    KeepsGood nF fl (execVbcastScalar p vd sa ew s) := by
  unfold execVbcastScalar
  repeat'
    first
      | (with_reducible apply perform_keeps; intro _ _) | (with_reducible assumption) | (with_reducible apply emitVec_inv)
      | (dsimp only)

theorem execVbcastElement_keeps (p : BitVec 5) (vd va : BitVec 13) (idx : BitVec 9) (ew : BitVec 2) (s : State) (hInv : s.Good nF fl) :
    KeepsGood nF fl (execVbcastElement p vd va idx ew s) := by
  unfold execVbcastElement
  repeat'
    first
      | (with_reducible apply perform_keeps; intro _ _) | (with_reducible assumption) | (with_reducible apply emitVec_inv)
      | (dsimp only)

theorem execVextrImm_keeps (p : BitVec 5) (sd : BitVec 6) (va : BitVec 13) (idx : BitVec 9) (ew : BitVec 2) (s : State) (hInv : s.Good nF fl) :
    KeepsGood nF fl (execVextrImm p sd va idx ew s) := by
  unfold execVextrImm
  repeat'
    first
      | (with_reducible apply perform_keeps; intro _ _) | (with_reducible assumption) | (with_reducible apply emitS_inv)
      | (dsimp only)

theorem execVextrScalar_keeps (p : BitVec 5) (sd : BitVec 6) (va : BitVec 13) (si : BitVec 6) (ew : BitVec 2) (s : State) (hInv : s.Good nF fl) :
    KeepsGood nF fl (execVextrScalar p sd va si ew s) := by
  unfold execVextrScalar
  repeat'
    first
      | (with_reducible apply perform_keeps; intro _ _) | (with_reducible assumption) | (with_reducible apply emitS_inv)
      | (dsimp only)

theorem execVinsImm_keeps (p : BitVec 5) (vd va : BitVec 13) (sa : BitVec 6) (idx : BitVec 9) (ew : BitVec 2) (s : State) (hInv : s.Good nF fl) :
    KeepsGood nF fl (execVinsImm p vd va sa idx ew s) := by
  unfold execVinsImm
  repeat'
    first
      | (with_reducible apply perform_keeps; intro _ _) | (with_reducible assumption) | (with_reducible apply emitVec_inv)
      | (dsimp only)

theorem execVinsScalar_keeps (p : BitVec 5) (vd va : BitVec 13) (sa si : BitVec 6) (ew : BitVec 2) (s : State) (hInv : s.Good nF fl) :
    KeepsGood nF fl (execVinsScalar p vd va sa si ew s) := by
  unfold execVinsScalar
  repeat'
    first
      | (with_reducible apply perform_keeps; intro _ _) | (with_reducible assumption) | (with_reducible apply emitVec_inv)
      | (dsimp only)

theorem execVmov_keeps (p : BitVec 5) (vd va : BitVec 13) (s : State) (hInv : s.Good nF fl) :
    KeepsGood nF fl (execVmov p vd va s) := by
  unfold execVmov
  repeat'
    first
      | (with_reducible apply perform_keeps; intro _ _) | (with_reducible assumption) | (with_reducible apply emitVec_inv)
      | (dsimp only)

theorem execVrng_keeps (p : BitVec 5) (vd : BitVec 13) (sseed sseq spos : BitVec 6) (draw : BitVec 16) (s : State) (hInv : s.Good nF fl) :
    KeepsGood nF fl (execVrng p vd sseed sseq spos draw s) := by
  unfold execVrng
  repeat'
    first
      | (with_reducible apply perform_keeps; intro _ _) | (with_reducible assumption) | (with_reducible apply emitVec_inv)
      | (dsimp only)

theorem execVrngF_keeps (p : BitVec 5) (vd : BitVec 13) (sseed sseq spos : BitVec 6) (draw : BitVec 16) (s : State) (hInv : s.Good nF fl) :
    KeepsGood nF fl (execVrngF p vd sseed sseq spos draw s) := by
  unfold execVrngF
  repeat'
    first
      | (with_reducible apply perform_keeps; intro _ _) | (with_reducible assumption) | (with_reducible apply emitVec_inv)
      | (dsimp only)

theorem execVredsumF_keeps (p : BitVec 5) (vd va : BitVec 13) (s : State) (hInv : s.Good nF fl) :
    KeepsGood nF fl (execVredsumF p vd va s) := by
  unfold execVredsumF
  repeat'
    first
      | (with_reducible apply perform_keeps; intro _ _) | (with_reducible assumption) | (with_reducible apply emitRes_inv)
      | (dsimp only)

theorem execVredsumI_keeps (p : BitVec 5) (vd va : BitVec 13) (s : State) (hInv : s.Good nF fl) :
    KeepsGood nF fl (execVredsumI p vd va s) := by
  unfold execVredsumI
  repeat'
    first
      | (with_reducible apply perform_keeps; intro _ _) | (with_reducible assumption) | (with_reducible apply emitVec_inv)
      | (dsimp only)

theorem execVredmaxF_keeps (p : BitVec 5) (vd va : BitVec 13) (s : State) (hInv : s.Good nF fl) :
    KeepsGood nF fl (execVredmaxF p vd va s) := by
  unfold execVredmaxF
  repeat'
    first
      | (with_reducible apply perform_keeps; intro _ _) | (with_reducible assumption) | (with_reducible apply emitRes_inv)
      | (dsimp only)

theorem execVredmaxSi_keeps (p : BitVec 5) (vd va : BitVec 13) (s : State) (hInv : s.Good nF fl) :
    KeepsGood nF fl (execVredmaxSi p vd va s) := by
  unfold execVredmaxSi
  repeat'
    first
      | (with_reducible apply perform_keeps; intro _ _) | (with_reducible assumption) | (with_reducible apply emitVec_inv)
      | (dsimp only)

theorem execVredminF_keeps (p : BitVec 5) (vd va : BitVec 13) (s : State) (hInv : s.Good nF fl) :
    KeepsGood nF fl (execVredminF p vd va s) := by
  unfold execVredminF
  repeat'
    first
      | (with_reducible apply perform_keeps; intro _ _) | (with_reducible assumption) | (with_reducible apply emitRes_inv)
      | (dsimp only)

theorem execVredminSi_keeps (p : BitVec 5) (vd va : BitVec 13) (s : State) (hInv : s.Good nF fl) :
    KeepsGood nF fl (execVredminSi p vd va s) := by
  unfold execVredminSi
  repeat'
    first
      | (with_reducible apply perform_keeps; intro _ _) | (with_reducible assumption) | (with_reducible apply emitVec_inv)
      | (dsimp only)

theorem execVargmax_keeps (p : BitVec 5) (vd va : BitVec 13) (s : State) (hInv : s.Good nF fl) :
    KeepsGood nF fl (execVargmax p vd va s) := by
  unfold execVargmax
  repeat'
    first
      | (with_reducible apply perform_keeps; intro _ _) | (with_reducible assumption) | (with_reducible apply emitVec_inv)
      | (dsimp only)

theorem execVscanF_keeps (p : BitVec 5) (vd va : BitVec 13) (s : State) (hInv : s.Good nF fl) :
    KeepsGood nF fl (execVscanF p vd va s) := by
  unfold execVscanF
  repeat'
    first
      | (with_reducible apply perform_keeps; intro _ _) | (with_reducible assumption) | (with_reducible apply emitRes_inv)
      | (dsimp only)

theorem execVscanI_keeps (p : BitVec 5) (vd va : BitVec 13) (s : State) (hInv : s.Good nF fl) :
    KeepsGood nF fl (execVscanI p vd va s) := by
  unfold execVscanI
  repeat'
    first
      | (with_reducible apply perform_keeps; intro _ _) | (with_reducible assumption) | (with_reducible apply emitVec_inv)
      | (dsimp only)

theorem emitScale_inv (s : State) (lat : Nat) (kd : BitVec 8) (e : BitVec 1024) (m : BitVec 64) (d : Option (BitVec 7)) (hInv : s.Good nF fl) :
    (emitScale s lat kd e m d).Good nF fl := by
  unfold emitScale
  repeat' first | (with_reducible assumption) | (with_reducible apply emit_inv)

theorem scaleArith_inv (s : State) (kd : BitVec 8) (a : KReg) (fmt : Nat) (f : Nat → FVal) (hInv : s.Good nF fl) :
    (scaleArith s kd a fmt f).Good nF fl := by
  unfold scaleArith
  repeat'
    first
      | (with_reducible assumption) | (with_reducible apply emitFlags_inv) | (with_reducible apply emitScale_inv)
      | (with_reducible apply inv_foldl; rotate_left; intro _ _ _) | (dsimp only)

theorem bindTag_inv (s : State) (t : Nat) (ks : BitVec 8) (axis : BitVec 1) (block : BitVec 4) (hInv : s.Good nF fl) :
    (bindTag s t ks axis block).Good nF fl := by
  unfold bindTag
  repeat' first | (with_reducible assumption) | (with_reducible apply emit_inv)

theorem execKsetImm_keeps (p : BitVec 5) (kd : BitVec 8) (axis : BitVec 1) (format : BitVec 2) (block : BitVec 4) (value : BitVec 16) (s : State) (hInv : s.Good nF fl) :
    KeepsGood nF fl (execKsetImm p kd axis format block value s) := by
  unfold execKsetImm
  repeat'
    first
      | (with_reducible apply perform_keeps; intro _ _) | (with_reducible assumption) | (with_reducible apply emitScale_inv)
      | (dsimp only)

theorem execKsetScalar_keeps (p : BitVec 5) (kd : BitVec 8) (axis : BitVec 1) (format : BitVec 2) (block : BitVec 4) (sa : BitVec 6) (s : State) (hInv : s.Good nF fl) :
    KeepsGood nF fl (execKsetScalar p kd axis format block sa s) := by
  unfold execKsetScalar
  repeat'
    first
      | (with_reducible apply perform_keeps; intro _ _) | (with_reducible assumption) | (with_reducible apply emitScale_inv)
      | (dsimp only)

theorem execKmov_keeps (p : BitVec 5) (kd ka : BitVec 8) (s : State) (hInv : s.Good nF fl) :
    KeepsGood nF fl (execKmov p kd ka s) := by
  unfold execKmov
  repeat'
    first
      | (with_reducible apply perform_keeps; intro _ _) | (with_reducible assumption) | (with_reducible apply emitScale_inv)
      | (dsimp only)

theorem execKmul_keeps (p : BitVec 5) (kd ka kb : BitVec 8) (s : State) (hInv : s.Good nF fl) :
    KeepsGood nF fl (execKmul p kd ka kb s) := by
  unfold execKmul
  repeat'
    first
      | (with_reducible apply perform_keeps; intro _ _) | (with_reducible assumption) | (with_reducible apply scaleArith_inv)
      | (dsimp only)

theorem execKaddeImm_keeps (p : BitVec 5) (kd ka step : BitVec 8) (s : State) (hInv : s.Good nF fl) :
    KeepsGood nF fl (execKaddeImm p kd ka step s) := by
  unfold execKaddeImm
  repeat'
    first
      | (with_reducible apply perform_keeps; intro _ _) | (with_reducible assumption) | (with_reducible apply scaleArith_inv)
      | (dsimp only)

theorem execKaddeScalar_keeps (p : BitVec 5) (kd ka : BitVec 8) (sb : BitVec 6) (s : State) (hInv : s.Good nF fl) :
    KeepsGood nF fl (execKaddeScalar p kd ka sb s) := by
  unfold execKaddeScalar
  repeat'
    first
      | (with_reducible apply perform_keeps; intro _ _) | (with_reducible assumption) | (with_reducible apply scaleArith_inv)
      | (dsimp only)

theorem execKmaxe_keeps (p : BitVec 5) (kd ka kb : BitVec 8) (s : State) (hInv : s.Good nF fl) :
    KeepsGood nF fl (execKmaxe p kd ka kb s) := by
  unfold execKmaxe
  repeat'
    first
      | (with_reducible apply perform_keeps; intro _ _) | (with_reducible assumption) | (with_reducible apply scaleArith_inv)
      | (dsimp only)

theorem execKcvtBf16_keeps (p : BitVec 5) (kd ka : BitVec 8) (s : State) (hInv : s.Good nF fl) :
    KeepsGood nF fl (execKcvtBf16 p kd ka s) := by
  unfold execKcvtBf16
  repeat'
    first
      | (with_reducible apply perform_keeps; intro _ _) | (with_reducible assumption) | (with_reducible apply scaleArith_inv)
      | (dsimp only)

theorem execKcvtE8m0_keeps (p : BitVec 5) (kd ka : BitVec 8) (s : State) (hInv : s.Good nF fl) :
    KeepsGood nF fl (execKcvtE8m0 p kd ka s) := by
  unfold execKcvtE8m0
  repeat'
    first
      | (with_reducible apply perform_keeps; intro _ _) | (with_reducible assumption) | (with_reducible apply scaleArith_inv)
      | (dsimp only)

theorem execKbindTile_keeps (p tile : BitVec 5) (ks : BitVec 8) (axis : BitVec 1) (block : BitVec 4) (s : State) (hInv : s.Good nF fl) :
    KeepsGood nF fl (execKbindTile p tile ks axis block s) := by
  unfold execKbindTile
  repeat'
    first
      | (with_reducible apply perform_keeps; intro _ _) | (with_reducible assumption) | (with_reducible apply bindTag_inv)
      | (dsimp only)

theorem execKbindBank_keeps (p : BitVec 5) (cm : BitVec 3) (bank : BitVec 1) (ks : BitVec 8) (axis : BitVec 1) (block : BitVec 4) (s : State) (hInv : s.Good nF fl) :
    KeepsGood nF fl (execKbindBank p cm bank ks axis block s) := by
  unfold execKbindBank
  repeat'
    first
      | (with_reducible apply perform_keeps; intro _ _) | (with_reducible assumption) | (with_reducible apply bindTag_inv)
      | (dsimp only)

theorem execKunbindTile_keeps (p tile : BitVec 5) (s : State) (hInv : s.Good nF fl) :
    KeepsGood nF fl (execKunbindTile p tile s) := by
  unfold execKunbindTile
  repeat'
    first
      | (with_reducible apply perform_keeps; intro _ _) | (with_reducible assumption) | (with_reducible apply emit_inv)
      | (dsimp only)

theorem execKunbindBank_keeps (p : BitVec 5) (cm : BitVec 3) (bank : BitVec 1) (s : State) (hInv : s.Good nF fl) :
    KeepsGood nF fl (execKunbindBank p cm bank s) := by
  unfold execKunbindBank
  repeat'
    first
      | (with_reducible apply perform_keeps; intro _ _) | (with_reducible assumption) | (with_reducible apply emit_inv)
      | (dsimp only)

theorem execKrdRow_keeps (p : BitVec 5) (vd : BitVec 13) (ks : BitVec 8) (s : State) (hInv : s.Good nF fl) :
    KeepsGood nF fl (execKrdRow p vd ks s) := by
  unfold execKrdRow
  repeat'
    first
      | (with_reducible apply perform_keeps; intro _ _) | (with_reducible assumption) | (with_reducible apply emitVec_inv)
      | (dsimp only)

theorem execKrdScalar_keeps (p : BitVec 5) (sd : BitVec 6) (ks : BitVec 8) (entry : BitVec 6) (sel : BitVec 1) (s : State) (hInv : s.Good nF fl) :
    KeepsGood nF fl (execKrdScalar p sd ks entry sel s) := by
  unfold execKrdScalar
  repeat'
    first
      | (with_reducible apply perform_keeps; intro _ _) | (with_reducible assumption) | (with_reducible apply emitS_inv)
      | (with_reducible apply inv_ite; rotate_left; intro _) | (split) | (dsimp only)

theorem execKwrRow_keeps (p : BitVec 5) (kd : BitVec 8) (va : BitVec 13) (s : State) (hInv : s.Good nF fl) :
    KeepsGood nF fl (execKwrRow p kd va s) := by
  unfold execKwrRow
  repeat'
    first
      | (with_reducible apply perform_keeps; intro _ _) | (with_reducible assumption) | (with_reducible apply emitScale_inv)
      | (dsimp only)

theorem execKwrScalar_keeps (p : BitVec 5) (kd : BitVec 8) (sa entry : BitVec 6) (s : State) (hInv : s.Good nF fl) :
    KeepsGood nF fl (execKwrScalar p kd sa entry s) := by
  unfold execKwrScalar
  repeat'
    first
      | (with_reducible apply perform_keeps; intro _ _) | (with_reducible assumption) | (with_reducible apply emitScale_inv)
      | (dsimp only)

theorem execKgen_keeps (p : BitVec 5) (kd : BitVec 8) (va : BitVec 13) (axis : BitVec 1) (block : BitVec 4) (format : BitVec 2) (s : State) (hInv : s.Good nF fl) :
    KeepsGood nF fl (execKgen p kd va axis block format s) := by
  unfold execKgen
  repeat'
    first
      | (with_reducible apply perform_keeps; intro _ _) | (with_reducible assumption) | (with_reducible apply emitFlags_inv)
      | (with_reducible apply emitScale_inv) | (with_reducible apply inv_foldl; rotate_left; intro _ _ _) | (dsimp only)

theorem steerRow_inv (c : Ctx) (t : Tap) (coef : BitVec 32) (first : Nat) (s : State) (r : Nat) (hInv : s.Good nF fl) :
    (steerRow c t coef first s r).Good nF fl := by
  unfold steerRow
  repeat'
    first
      | (with_reducible assumption) | (with_reducible apply emitFlags_inv) | (with_reducible apply emit_inv) | (dsimp only)

theorem execTapp_keeps (p : BitVec 5) (tap seq : BitVec 3) (va : BitVec 13) (rows : BitVec 11) (s : State) (hInv : s.Good nF fl) :
    KeepsGood nF fl (execTapp p tap seq va rows s) := by
  unfold execTapp
  repeat'
    first
      | (with_reducible apply perform_keeps; intro _ _) | (with_reducible assumption) | (with_reducible apply emit_inv)
      | (dsimp only)

theorem execTaps_keeps (p : BitVec 5) (tap seq : BitVec 3) (va : BitVec 13) (rows : BitVec 11) (sc : BitVec 6) (s : State) (hInv : s.Good nF fl) :
    KeepsGood nF fl (execTaps p tap seq va rows sc s) := by
  unfold execTaps
  repeat'
    first
      | (with_reducible apply perform_keeps; intro _ _) | (with_reducible assumption) | (with_reducible apply steerRow_inv)
      | (with_reducible apply inv_ite; rotate_left; intro _) | (with_reducible apply inv_foldl; rotate_left; intro _ _ _)
      | (split) | (dsimp only)

theorem execTapld_keeps (p : BitVec 5) (tap : BitVec 3) (sa : BitVec 6) (s : State) (hInv : s.Good nF fl) :
    KeepsGood nF fl (execTapld p tap sa s) := by
  unfold execTapld
  repeat'
    first
      | (with_reducible apply perform_keeps; intro _ _) | (with_reducible assumption) | (with_reducible apply modCtx_inv)
      | ((with_reducible refine inv_mk rfl ?_); first | with_reducible assumption | with_reducible apply modCtx_inv)
      | (dsimp only)

theorem execTaprd_keeps (p : BitVec 5) (sd : BitVec 6) (tap : BitVec 3) (what : BitVec 1) (s : State) (hInv : s.Good nF fl) :
    KeepsGood nF fl (execTaprd p sd tap what s) := by
  unfold execTaprd
  repeat'
    first
      | (with_reducible apply perform_keeps; intro _ _) | (with_reducible assumption) | (with_reducible apply emitS_inv)
      | (with_reducible apply inv_ite; rotate_left; intro _) | (split) | (dsimp only)

theorem goTo_inv (s : State) (target : Nat) (hInv : s.Good nF fl) : (goTo s target).Good nF fl := by
  unfold goTo
  repeat' first | (with_reducible assumption) | ((with_reducible refine inv_mk rfl ?_); first | with_reducible assumption)

theorem pushLoop_inv (s : State) (len : Nat) (trip : BitVec 32) (hInv : s.Good nF fl) : (pushLoop s len trip).Good nF fl := by
  unfold pushLoop
  repeat'
    first
      | (with_reducible assumption) | (with_reducible apply modMe_inv) | (with_reducible apply inv_ite; rotate_left; intro _)
      | ((with_reducible refine inv_mk rfl ?_); first | with_reducible assumption | with_reducible apply modMe_inv | (with_reducible apply inv_ite; rotate_left; intro _) | split)
      | (split) | (dsimp only)

theorem exitLoop_inv (s : State) (hInv : s.Good nF fl) : (exitLoop s).Good nF fl := by
  unfold exitLoop
  repeat'
    first
      | (with_reducible assumption) | (with_reducible apply goTo_inv) | (with_reducible apply modMe_inv)
      | ((with_reducible refine inv_mk rfl ?_); first | with_reducible assumption | with_reducible apply goTo_inv | with_reducible apply modMe_inv | split)
      | (split) | (dsimp only)

theorem passOrdinal_inv (s : State) (g : Nat) (hInv : s.Good nF fl) : (passOrdinal s g).Good nF fl := by
  unfold passOrdinal
  repeat'
    first
      | (with_reducible assumption) | (with_reducible apply modMe_inv)
      | ((with_reducible refine inv_mk rfl ?_); first | with_reducible assumption | with_reducible apply modMe_inv)
      | (dsimp only)

theorem addFence_inv (s : State) (scope : Nat) (hInv : s.Good nF fl) : (addFence s scope).Good nF fl := by
  unfold addFence
  repeat'
    first
      | (with_reducible assumption) | (with_reducible apply modMe_inv) | (with_reducible apply inv_ite; rotate_left; intro _)
      | ((with_reducible refine inv_mk rfl ?_); first | with_reducible assumption | with_reducible apply modMe_inv | (with_reducible apply inv_ite; rotate_left; intro _) | split)
      | (split) | (dsimp only)

theorem takeSem_inv (s : State) (n count : Nat) (hInv : s.Good nF fl) : (takeSem s n count).Good nF fl := by
  unfold takeSem
  repeat'
    first
      | (with_reducible assumption) | (with_reducible apply modStable_inv) | (with_reducible apply modMe_inv)
      | (with_reducible apply inv_ite; rotate_left; intro _)
      | ((with_reducible refine inv_mk rfl ?_); first | with_reducible assumption | with_reducible apply modStable_inv | with_reducible apply modMe_inv | (with_reducible apply inv_ite; rotate_left; intro _) | split)
      | (split) | (dsimp only)

theorem afterCommit_inv (s : State) (a : After) (hInv : s.Good nF fl) : (afterCommit s a).Good nF fl := by
  unfold afterCommit
  repeat' first | (with_reducible assumption) | ((with_reducible refine inv_mk rfl ?_); first | with_reducible assumption)

theorem enqueue_inv (s : State) (q : QId) (kind : OffKind) (dst : OffDst) (opc : Nat) (lands : Bool) (hInv : s.Good nF fl) :
    (enqueue s q kind dst opc lands).Good nF fl := by
  unfold enqueue
  repeat'
    first
      | (with_reducible assumption) | (with_reducible apply modMe_inv)
      | ((with_reducible refine inv_mk rfl ?_); first | with_reducible assumption | with_reducible apply modMe_inv)
      | (dsimp only)

theorem execBr_keeps (p : BitVec 5) (target : BitVec 12) (s : State) (hInv : s.Good nF fl) :
    KeepsGood nF fl (execBr p target s) := by
  unfold execBr
  repeat'
    first
      | (with_reducible apply perform_keeps; intro _ _) | (with_reducible assumption) | (with_reducible apply goTo_inv)
      | (dsimp only)

theorem execBrScalar_keeps (p : BitVec 5) (a : BitVec 6) (s : State) (hInv : s.Good nF fl) :
    KeepsGood nF fl (execBrScalar p a s) := by
  unfold execBrScalar
  repeat'
    first
      | (with_reducible apply perform_keeps; intro _ _) | (with_reducible assumption) | (with_reducible apply goTo_inv)
      | (dsimp only)

theorem execBc_keeps (p : BitVec 5) (a b : BitVec 6) (cond : BitVec 3) (target : BitVec 12) (s : State) (hInv : s.Good nF fl) :
    KeepsGood nF fl (execBc p a b cond target s) := by
  unfold execBc
  repeat'
    first
      | (with_reducible apply perform_keeps; intro _ _) | (with_reducible assumption) | (with_reducible apply goTo_inv)
      | (with_reducible apply inv_ite; rotate_left; intro _) | (split) | (dsimp only)

theorem execCall_keeps (p : BitVec 5) (d : BitVec 6) (target : BitVec 12) (s : State) (hInv : s.Good nF fl) :
    KeepsGood nF fl (execCall p d target s) := by
  unfold execCall
  repeat'
    first
      | (with_reducible apply perform_keeps; intro _ _) | (with_reducible assumption) | (with_reducible apply goTo_inv)
      | (with_reducible apply emitS_inv) | (dsimp only)

theorem execRet_keeps (p : BitVec 5) (a : BitVec 6) (s : State) (hInv : s.Good nF fl) : KeepsGood nF fl (execRet p a s) := by
  unfold execRet
  repeat'
    first
      | (with_reducible apply perform_keeps; intro _ _) | (with_reducible assumption) | (with_reducible apply goTo_inv)
      | (dsimp only)

theorem execLoopScalar_keeps (p : BitVec 5) (a : BitVec 6) (len : BitVec 12) (s : State) (hInv : s.Good nF fl) :
    KeepsGood nF fl (execLoopScalar p a len s) := by
  unfold execLoopScalar
  repeat'
    first
      | (with_reducible apply perform_keeps; intro _ _) | (with_reducible assumption) | (with_reducible apply pushLoop_inv)
      | (dsimp only)

theorem execLoopNbound_keeps (p : BitVec 5) (n : BitVec 4) (len : BitVec 12) (s : State) (hInv : s.Good nF fl) :
    KeepsGood nF fl (execLoopNbound p n len s) := by
  unfold execLoopNbound
  repeat'
    first
      | (with_reducible apply perform_keeps; intro _ _) | (with_reducible assumption) | (with_reducible apply pushLoop_inv)
      | (dsimp only)

theorem execLoopImm_keeps (p : BitVec 5) (count : BitVec 16) (len : BitVec 12) (s : State) (hInv : s.Good nF fl) :
    KeepsGood nF fl (execLoopImm p count len s) := by
  unfold execLoopImm
  repeat'
    first
      | (with_reducible apply perform_keeps; intro _ _) | (with_reducible assumption) | (with_reducible apply pushLoop_inv)
      | (dsimp only)

theorem execLexit_keeps (p : BitVec 5) (s : State) (hInv : s.Good nF fl) : KeepsGood nF fl (execLexit p s) := by
  unfold execLexit
  repeat'
    first
      | (with_reducible apply perform_keeps; intro _ _) | (with_reducible assumption) | (with_reducible apply exitLoop_inv)
      | (dsimp only)

theorem execNop_keeps (p : BitVec 3) (s : State) (hInv : s.Good nF fl) : KeepsGood nF fl (execNop p s) := by
  unfold execNop
  repeat' first | (with_reducible apply perform_keeps; intro _ _) | (with_reducible assumption) | (dsimp only)

theorem execBar_keeps (p : BitVec 3) (group : BitVec 4) (s : State) (hInv : s.Good nF fl) :
    KeepsGood nF fl (execBar p group s) := by
  unfold execBar
  repeat'
    first
      | (with_reducible apply perform_keeps; intro _ _) | (with_reducible assumption) | (with_reducible apply passOrdinal_inv)
      | (dsimp only)

theorem execRdv_keeps (p : BitVec 3) (group : BitVec 4) (s : State) (hInv : s.Good nF fl) :
    KeepsGood nF fl (execRdv p group s) := by
  unfold execRdv
  repeat'
    first
      | (with_reducible apply perform_keeps; intro _ _) | (with_reducible assumption) | (with_reducible apply passOrdinal_inv)
      | (dsimp only)

theorem execWaitdImm_keeps (p : BitVec 3) (count : BitVec 16) (s : State) (hInv : s.Good nF fl) :
    KeepsGood nF fl (execWaitdImm p count s) := by
  unfold execWaitdImm
  repeat' first | (with_reducible apply perform_keeps; intro _ _) | (with_reducible assumption) | (dsimp only)

theorem execWaitdScalar_keeps (p : BitVec 3) (a : BitVec 6) (s : State) (hInv : s.Good nF fl) :
    KeepsGood nF fl (execWaitdScalar p a s) := by
  unfold execWaitdScalar
  repeat' first | (with_reducible apply perform_keeps; intro _ _) | (with_reducible assumption) | (dsimp only)

theorem execFence_keeps (p : BitVec 3) (scope : BitVec 4) (s : State) (hInv : s.Good nF fl) :
    KeepsGood nF fl (execFence p scope s) := by
  unfold execFence
  repeat'
    first
      | (with_reducible apply perform_keeps; intro _ _) | (with_reducible assumption) | (with_reducible apply addFence_inv)
      | (dsimp only)

theorem execSemsig_keeps (p : BitVec 3) (c sem : BitVec 6) (s : State) (hInv : s.Good nF fl) :
    KeepsGood nF fl (execSemsig p c sem s) := by
  unfold execSemsig
  repeat'
    first
      | (with_reducible apply perform_keeps; intro _ _) | (with_reducible assumption) | (with_reducible apply emit_inv)
      | (dsimp only)

theorem execSemsigScalar_keeps (p : BitVec 3) (c a : BitVec 6) (s : State) (hInv : s.Good nF fl) :
    KeepsGood nF fl (execSemsigScalar p c a s) := by
  unfold execSemsigScalar
  repeat'
    first
      | (with_reducible apply perform_keeps; intro _ _) | (with_reducible assumption) | (with_reducible apply emit_inv)
      | (dsimp only)

theorem execSemwait_keeps (p : BitVec 3) (c sem : BitVec 6) (s : State) (hInv : s.Good nF fl) :
    KeepsGood nF fl (execSemwait p c sem s) := by
  unfold execSemwait
  repeat'
    first
      | (with_reducible apply perform_keeps; intro _ _) | (with_reducible assumption) | (with_reducible apply takeSem_inv)
      | (dsimp only)

theorem execYield_keeps (p : BitVec 3) (s : State) (hInv : s.Good nF fl) : KeepsGood nF fl (execYield p s) := by
  unfold execYield
  repeat'
    first
      | (with_reducible apply perform_keeps; intro _ _) | (with_reducible assumption) | (with_reducible apply afterCommit_inv)
      | (dsimp only)

theorem execSvc_keeps (p : BitVec 3) (code : BitVec 12) (s : State) (hInv : s.Good nF fl) :
    KeepsGood nF fl (execSvc p code s) := by
  unfold execSvc
  repeat'
    first
      | (with_reducible apply perform_keeps; intro _ _) | (with_reducible assumption) | (with_reducible apply afterCommit_inv)
      | (dsimp only)

theorem execTrap_keeps (p : BitVec 3) (code : BitVec 12) (s : State) (hInv : s.Good nF fl) :
    KeepsGood nF fl (execTrap p code s) := by
  unfold execTrap
  repeat'
    first
      | (with_reducible apply perform_keeps; intro _ _) | (with_reducible assumption) | (with_reducible apply afterCommit_inv)
      | (dsimp only)

theorem execHalt_keeps (p : BitVec 3) (s : State) (hInv : s.Good nF fl) : KeepsGood nF fl (execHalt p s) := by
  unfold execHalt
  repeat'
    first
      | (with_reducible apply perform_keeps; intro _ _) | (with_reducible assumption) | (with_reducible apply afterCommit_inv)
      | (dsimp only)

theorem execExit_keeps (p : BitVec 3) (s : State) (hInv : s.Good nF fl) : KeepsGood nF fl (execExit p s) := by
  unfold execExit
  repeat'
    first
      | (with_reducible apply perform_keeps; intro _ _) | (with_reducible assumption) | (with_reducible apply afterCommit_inv)
      | (dsimp only)

theorem pinProbed_inv (s : State) (tid off len : Nat) (hInv : s.Good nF fl) : (pinProbed s tid off len).Good nF fl := by
  unfold pinProbed
  repeat'
    first
      | (with_reducible assumption) | (with_reducible apply modMe_inv)
      | (with_reducible refine pinTiles_pair (he := by assumption) (hInv := ?_) ..) | (with_reducible apply cacheRanges_inv)
      | (with_reducible apply inv_ite; rotate_left; intro _) | (with_reducible apply inv_elim; rotate_left; intro _)
      | ((with_reducible refine inv_mk rfl ?_); first | with_reducible assumption | with_reducible apply modMe_inv | (with_reducible refine pinTiles_pair (he := by assumption) (hInv := ?_) ..) | with_reducible apply cacheRanges_inv | (with_reducible apply inv_ite; rotate_left; intro _) | (with_reducible apply inv_elim; rotate_left; intro _) | split)
      | (split) | (dsimp only)

theorem execProbe_keeps (p : BitVec 3) (b a : BitVec 6) (s : State) (hInv : s.Good nF fl) :
    KeepsGood nF fl (execProbe p b a s) := by
  unfold execProbe
  repeat'
    first
      | (with_reducible apply perform_keeps; intro _ _) | (with_reducible assumption) | (with_reducible apply pinProbed_inv)
      | (dsimp only)

theorem execDiscard_keeps (p : BitVec 3) (b a : BitVec 6) (s : State) (hInv : s.Good nF fl) :
    KeepsGood nF fl (execDiscard p b a s) := by
  unfold execDiscard
  repeat'
    first
      | (with_reducible apply perform_keeps; intro _ _) | (with_reducible assumption) | (with_reducible apply enqueue_inv)
      | (with_reducible apply inv_ite; rotate_left; intro _) | (split) | (dsimp only)

end Sys2Proof.Machine
end

