-- ==== Sys2Proof/Laws/KeepMove.lean ====
section
/-!
SUPPORT. What each operation of Matrix, Transport, Cim keeps: the invariant of every step (generated by form, one lemma for each operation).
-/

namespace Sys2Proof.Machine

variable {nF : Nat} {fl : List Host.Cell}

theorem warmArray_inv (s : State) (hInv : s.Good nF fl) : (warmArray s).Good nF fl := by
  unfold warmArray
  repeat'
    first
      | (with_reducible assumption) | (with_reducible apply modYard_inv) | (with_reducible apply modStable_inv)
      | (with_reducible apply inv_ite; rotate_left; intro _)
      | ((with_reducible refine inv_mk rfl ?_); first | with_reducible assumption | with_reducible apply modYard_inv | with_reducible apply modStable_inv | (with_reducible apply inv_ite; rotate_left; intro _) | split)
      | (split) | (dsimp only)

theorem runMma_inv (s : State) (v : Nat) (add : Bool) (vd : BitVec 11) (abay : BitVec 3) (aoff : BitVec 12) (bbay : BitVec 3) (boff : BitVec 12) (sg : BitVec 2) (sc : BitVec 1) (hInv : s.Good nF fl) :
    (runMma s v add vd abay aoff bbay boff sg sc).Good nF fl := by
  unfold runMma
  repeat'
    first
      | (with_reducible assumption) | (with_reducible apply readAtIssue_inv) | (with_reducible apply emit_inv)
      | (with_reducible apply warmArray_inv) | (with_reducible apply modStable_inv)
      | (with_reducible apply inv_ite; rotate_left; intro _) | (with_reducible apply inv_foldl; rotate_left; intro _ _ _)
      | ((with_reducible refine inv_mk rfl ?_); first | with_reducible assumption | with_reducible apply readAtIssue_inv | with_reducible apply emit_inv | with_reducible apply warmArray_inv | with_reducible apply modStable_inv | (with_reducible apply inv_ite; rotate_left; intro _) | (with_reducible apply inv_foldl; rotate_left; intro _ _ _) | split)
      | (split) | (dsimp only) | (intro _ _)

theorem execMmaL6_keeps (p : BitVec 5) (vd : BitVec 11) (abay : BitVec 3) (aoff : BitVec 12) (bbay : BitVec 3) (boff : BitVec 12) (alane blane : BitVec 4) (sg : BitVec 2) (sc : BitVec 1) (s : State) (hInv : s.Good nF fl) :
    KeepsGood nF fl (execMmaL6 p vd abay aoff bbay boff alane blane sg sc s) := by
  unfold execMmaL6
  repeat'
    first
      | (with_reducible apply perform_keeps; intro _ _) | (with_reducible assumption) | (with_reducible apply runMma_inv)
      | (dsimp only)

theorem execMmaI8_keeps (p : BitVec 5) (vd : BitVec 11) (abay : BitVec 3) (aoff : BitVec 12) (bbay : BitVec 3) (boff : BitVec 12) (alane blane : BitVec 4) (sg : BitVec 2) (sc : BitVec 1) (s : State) (hInv : s.Good nF fl) :
    KeepsGood nF fl (execMmaI8 p vd abay aoff bbay boff alane blane sg sc s) := by
  unfold execMmaI8
  repeat'
    first
      | (with_reducible apply perform_keeps; intro _ _) | (with_reducible assumption) | (with_reducible apply runMma_inv)
      | (dsimp only)

theorem execMmaE4m3_keeps (p : BitVec 5) (vd : BitVec 11) (abay : BitVec 3) (aoff : BitVec 12) (bbay : BitVec 3) (boff : BitVec 12) (alane blane : BitVec 4) (sg : BitVec 2) (sc : BitVec 1) (s : State) (hInv : s.Good nF fl) :
    KeepsGood nF fl (execMmaE4m3 p vd abay aoff bbay boff alane blane sg sc s) := by
  unfold execMmaE4m3
  repeat'
    first
      | (with_reducible apply perform_keeps; intro _ _) | (with_reducible assumption) | (with_reducible apply runMma_inv)
      | (dsimp only)

theorem execMmaE5m2_keeps (p : BitVec 5) (vd : BitVec 11) (abay : BitVec 3) (aoff : BitVec 12) (bbay : BitVec 3) (boff : BitVec 12) (alane blane : BitVec 4) (sg : BitVec 2) (sc : BitVec 1) (s : State) (hInv : s.Good nF fl) :
    KeepsGood nF fl (execMmaE5m2 p vd abay aoff bbay boff alane blane sg sc s) := by
  unfold execMmaE5m2
  repeat'
    first
      | (with_reducible apply perform_keeps; intro _ _) | (with_reducible assumption) | (with_reducible apply runMma_inv)
      | (dsimp only)

theorem execMmaE4e5_keeps (p : BitVec 5) (vd : BitVec 11) (abay : BitVec 3) (aoff : BitVec 12) (bbay : BitVec 3) (boff : BitVec 12) (alane blane : BitVec 4) (sg : BitVec 2) (sc : BitVec 1) (s : State) (hInv : s.Good nF fl) :
    KeepsGood nF fl (execMmaE4e5 p vd abay aoff bbay boff alane blane sg sc s) := by
  unfold execMmaE4e5
  repeat'
    first
      | (with_reducible apply perform_keeps; intro _ _) | (with_reducible assumption) | (with_reducible apply runMma_inv)
      | (dsimp only)

theorem execMmaE5e4_keeps (p : BitVec 5) (vd : BitVec 11) (abay : BitVec 3) (aoff : BitVec 12) (bbay : BitVec 3) (boff : BitVec 12) (alane blane : BitVec 4) (sg : BitVec 2) (sc : BitVec 1) (s : State) (hInv : s.Good nF fl) :
    KeepsGood nF fl (execMmaE5e4 p vd abay aoff bbay boff alane blane sg sc s) := by
  unfold execMmaE5e4
  repeat'
    first
      | (with_reducible apply perform_keeps; intro _ _) | (with_reducible assumption) | (with_reducible apply runMma_inv)
      | (dsimp only)

theorem execMmaBf16_keeps (p : BitVec 5) (vd : BitVec 11) (abay : BitVec 3) (aoff : BitVec 12) (bbay : BitVec 3) (boff : BitVec 12) (alane blane : BitVec 4) (sg : BitVec 2) (sc : BitVec 1) (s : State) (hInv : s.Good nF fl) :
    KeepsGood nF fl (execMmaBf16 p vd abay aoff bbay boff alane blane sg sc s) := by
  unfold execMmaBf16
  repeat'
    first
      | (with_reducible apply perform_keeps; intro _ _) | (with_reducible assumption) | (with_reducible apply runMma_inv)
      | (dsimp only)

theorem execMmaFp16_keeps (p : BitVec 5) (vd : BitVec 11) (abay : BitVec 3) (aoff : BitVec 12) (bbay : BitVec 3) (boff : BitVec 12) (alane blane : BitVec 4) (sg : BitVec 2) (sc : BitVec 1) (s : State) (hInv : s.Good nF fl) :
    KeepsGood nF fl (execMmaFp16 p vd abay aoff bbay boff alane blane sg sc s) := by
  unfold execMmaFp16
  repeat'
    first
      | (with_reducible apply perform_keeps; intro _ _) | (with_reducible assumption) | (with_reducible apply runMma_inv)
      | (dsimp only)

theorem execMmazL6_keeps (p : BitVec 5) (vd : BitVec 11) (abay : BitVec 3) (aoff : BitVec 12) (bbay : BitVec 3) (boff : BitVec 12) (alane blane : BitVec 4) (sg : BitVec 2) (sc : BitVec 1) (s : State) (hInv : s.Good nF fl) :
    KeepsGood nF fl (execMmazL6 p vd abay aoff bbay boff alane blane sg sc s) := by
  unfold execMmazL6
  repeat'
    first
      | (with_reducible apply perform_keeps; intro _ _) | (with_reducible assumption) | (with_reducible apply runMma_inv)
      | (dsimp only)

theorem execMmazI8_keeps (p : BitVec 5) (vd : BitVec 11) (abay : BitVec 3) (aoff : BitVec 12) (bbay : BitVec 3) (boff : BitVec 12) (alane blane : BitVec 4) (sg : BitVec 2) (sc : BitVec 1) (s : State) (hInv : s.Good nF fl) :
    KeepsGood nF fl (execMmazI8 p vd abay aoff bbay boff alane blane sg sc s) := by
  unfold execMmazI8
  repeat'
    first
      | (with_reducible apply perform_keeps; intro _ _) | (with_reducible assumption) | (with_reducible apply runMma_inv)
      | (dsimp only)

theorem execMmazE4m3_keeps (p : BitVec 5) (vd : BitVec 11) (abay : BitVec 3) (aoff : BitVec 12) (bbay : BitVec 3) (boff : BitVec 12) (alane blane : BitVec 4) (sg : BitVec 2) (sc : BitVec 1) (s : State) (hInv : s.Good nF fl) :
    KeepsGood nF fl (execMmazE4m3 p vd abay aoff bbay boff alane blane sg sc s) := by
  unfold execMmazE4m3
  repeat'
    first
      | (with_reducible apply perform_keeps; intro _ _) | (with_reducible assumption) | (with_reducible apply runMma_inv)
      | (dsimp only)

theorem execMmazE5m2_keeps (p : BitVec 5) (vd : BitVec 11) (abay : BitVec 3) (aoff : BitVec 12) (bbay : BitVec 3) (boff : BitVec 12) (alane blane : BitVec 4) (sg : BitVec 2) (sc : BitVec 1) (s : State) (hInv : s.Good nF fl) :
    KeepsGood nF fl (execMmazE5m2 p vd abay aoff bbay boff alane blane sg sc s) := by
  unfold execMmazE5m2
  repeat'
    first
      | (with_reducible apply perform_keeps; intro _ _) | (with_reducible assumption) | (with_reducible apply runMma_inv)
      | (dsimp only)

theorem execMmazE4e5_keeps (p : BitVec 5) (vd : BitVec 11) (abay : BitVec 3) (aoff : BitVec 12) (bbay : BitVec 3) (boff : BitVec 12) (alane blane : BitVec 4) (sg : BitVec 2) (sc : BitVec 1) (s : State) (hInv : s.Good nF fl) :
    KeepsGood nF fl (execMmazE4e5 p vd abay aoff bbay boff alane blane sg sc s) := by
  unfold execMmazE4e5
  repeat'
    first
      | (with_reducible apply perform_keeps; intro _ _) | (with_reducible assumption) | (with_reducible apply runMma_inv)
      | (dsimp only)

theorem execMmazE5e4_keeps (p : BitVec 5) (vd : BitVec 11) (abay : BitVec 3) (aoff : BitVec 12) (bbay : BitVec 3) (boff : BitVec 12) (alane blane : BitVec 4) (sg : BitVec 2) (sc : BitVec 1) (s : State) (hInv : s.Good nF fl) :
    KeepsGood nF fl (execMmazE5e4 p vd abay aoff bbay boff alane blane sg sc s) := by
  unfold execMmazE5e4
  repeat'
    first
      | (with_reducible apply perform_keeps; intro _ _) | (with_reducible assumption) | (with_reducible apply runMma_inv)
      | (dsimp only)

theorem execMmazBf16_keeps (p : BitVec 5) (vd : BitVec 11) (abay : BitVec 3) (aoff : BitVec 12) (bbay : BitVec 3) (boff : BitVec 12) (alane blane : BitVec 4) (sg : BitVec 2) (sc : BitVec 1) (s : State) (hInv : s.Good nF fl) :
    KeepsGood nF fl (execMmazBf16 p vd abay aoff bbay boff alane blane sg sc s) := by
  unfold execMmazBf16
  repeat'
    first
      | (with_reducible apply perform_keeps; intro _ _) | (with_reducible assumption) | (with_reducible apply runMma_inv)
      | (dsimp only)

theorem execMmazFp16_keeps (p : BitVec 5) (vd : BitVec 11) (abay : BitVec 3) (aoff : BitVec 12) (bbay : BitVec 3) (boff : BitVec 12) (alane blane : BitVec 4) (sg : BitVec 2) (sc : BitVec 1) (s : State) (hInv : s.Good nF fl) :
    KeepsGood nF fl (execMmazFp16 p vd abay aoff bbay boff alane blane sg sc s) := by
  unfold execMmazFp16
  repeat'
    first
      | (with_reducible apply perform_keeps; intro _ _) | (with_reducible assumption) | (with_reducible apply runMma_inv)
      | (dsimp only)

theorem setHint_inv (s : State) (len : Nat) (hInv : s.Good nF fl) : (setHint s len).Good nF fl := by
  unfold setHint
  repeat'
    first
      | (with_reducible assumption) | (with_reducible apply modStable_inv) | (with_reducible apply modYard_inv)
      | (with_reducible apply inv_ite; rotate_left; intro _)
      | ((with_reducible refine inv_mk rfl ?_); first | with_reducible assumption | with_reducible apply modStable_inv | with_reducible apply modYard_inv | (with_reducible apply inv_ite; rotate_left; intro _) | split)
      | (split) | (dsimp only)

theorem execMxhint_keeps (p : BitVec 5) (burst : BitVec 16) (s : State) (hInv : s.Good nF fl) :
    KeepsGood nF fl (execMxhint p burst s) := by
  unfold execMxhint
  repeat'
    first
      | (with_reducible apply perform_keeps; intro _ _) | (with_reducible assumption) | (with_reducible apply setHint_inv)
      | (dsimp only)

theorem ride_inv (s : State) (r : Traffic) (hInv : s.Good nF fl) : (ride s r).Good nF fl := by
  unfold ride
  repeat'
    first
      | (with_reducible assumption) | (with_reducible apply modStable_inv) | (with_reducible apply inv_ite; rotate_left; intro _)
      | ((with_reducible refine inv_mk rfl ?_); first | with_reducible assumption | with_reducible apply modStable_inv | (with_reducible apply inv_ite; rotate_left; intro _) | split)
      | (split) | (dsimp only)

theorem loadRound_inv (s : State) (bay : BitVec 3) (off n : Nat) (lane : BitVec 4) (e f : Nat) (use : RdUse) (hInv : s.Good nF fl) :
    (loadRound s bay off n lane e f use).Good nF fl := by
  unfold loadRound
  repeat' first | (with_reducible assumption) | (with_reducible apply emit_inv) | (with_reducible apply ride_inv)

theorem storeRound_inv (s : State) (bay : BitVec 3) (off : Nat) (lane : BitVec 4) (e f : Nat) (data : List Byte) (hInv : s.Good nF fl) :
    (storeRound s bay off lane e f data).Good nF fl := by
  unfold storeRound
  repeat' first | (with_reducible assumption) | (with_reducible apply emit_inv) | (with_reducible apply ride_inv)

theorem stepStream_inv (s : State) (w : BitVec 5) (steps : Nat) (hInv : s.Good nF fl) : (stepStream s w steps).Good nF fl := by
  unfold stepStream
  repeat' first | (with_reducible assumption) | (with_reducible apply emit_inv)

theorem loadStream_inv (s : State) (wn : BitVec 5) (dst reg dir k opc : Nat) (delay : BitVec 12) (hInv : s.Good nF fl) :
    (loadStream s wn dst reg dir k opc delay).Good nF fl := by
  unfold loadStream
  repeat'
    first
      | (with_reducible assumption) | (with_reducible apply emit_inv) | (with_reducible apply ride_inv)
      | (with_reducible apply enqueue_inv) | (with_reducible apply stepStream_inv)
      | (with_reducible apply inv_ite; rotate_left; intro _) | (split) | (dsimp only)

theorem storeStream_inv (s : State) (wn : BitVec 5) (data scaleHalf : Bool) (n src : Nat) (k : BitVec 1024) (opc : Nat) (hInv : s.Good nF fl) :
    (storeStream s wn data scaleHalf n src k opc).Good nF fl := by
  unfold storeStream
  repeat'
    first
      | (with_reducible assumption) | (with_reducible apply emitFlags_inv) | (with_reducible apply ride_inv)
      | (with_reducible apply emit_inv) | (with_reducible apply enqueue_inv) | (with_reducible apply stepStream_inv)
      | (with_reducible apply inv_ite; rotate_left; intro _) | (split) | (dsimp only)

theorem popQueue_inv (s : State) (q : BitVec 5) (d : OffDst) (opc : Nat) (delay : BitVec 12) (hInv : s.Good nF fl) :
    (popQueue s q d opc delay).Good nF fl := by
  unfold popQueue
  repeat'
    first
      | (with_reducible assumption) | (with_reducible apply emit_inv) | (with_reducible apply enqueue_inv) | (dsimp only)

theorem pushQueue_inv (s : State) (q : BitVec 5) (v : Row) (opc : Nat) (hInv : s.Good nF fl) :
    (pushQueue s q v opc).Good nF fl := by
  unfold pushQueue
  repeat'
    first
      | (with_reducible assumption) | (with_reducible apply enqueue_inv) | (with_reducible apply inv_ite; rotate_left; intro _)
      | (split) | (dsimp only)

theorem enterTrigger_inv (s : State) (dx leaves : Bool) (opc : Nat) (hInv : s.Good nF fl) :
    (enterTrigger s dx leaves opc).2.Good nF fl := by
  unfold enterTrigger
  repeat'
    first
      | (with_reducible assumption) | (with_reducible apply enqueue_inv) | (with_reducible apply modMe_inv)
      | (with_reducible apply inv_ite; rotate_left; intro _)
      | ((with_reducible refine inv_mk rfl ?_); first | with_reducible assumption | with_reducible apply enqueue_inv | with_reducible apply modMe_inv | (with_reducible apply inv_ite; rotate_left; intro _) | split)
      | (split) | (dsimp only)

theorem enterTrigger_pair (s : State) (dx leaves : Bool) (opc : Nat) (hInv : s.Good nF fl) {tNext : State} {xNext : Option Nat} (he : enterTrigger s dx leaves opc = (xNext, tNext)) :
    tNext.Good nF fl := by
  have := enterTrigger_inv s dx leaves opc hInv
  rwa [he] at this

theorem sendReds_inv (s : State) (t : Word) (op : BitVec 3) (ty : BitVec 1) (vec : Bool) (data : Row) (sem : BitVec 6) (opc : Nat) (hInv : s.Good nF fl) :
    (sendReds s t op ty vec data sem opc).Good nF fl := by
  unfold sendReds
  repeat'
    first
      | (with_reducible assumption) | (with_reducible apply emit_inv) | (with_reducible apply enqueue_inv)
      | (with_reducible apply inv_ite; rotate_left; intro _) | (split) | (dsimp only)

theorem execLd_keeps (p : BitVec 5) (vd : BitVec 13) (w : BitVec 5) (kd : BitVec 8) (delay : BitVec 12) (s : State) (hInv : s.Good nF fl) :
    KeepsGood nF fl (execLd p vd w kd delay s) := by
  unfold execLd
  repeat'
    first
      | (with_reducible apply perform_keeps; intro _ _) | (with_reducible assumption) | (with_reducible apply loadStream_inv)
      | (dsimp only)

theorem execLdr_keeps (p : BitVec 5) (vd : BitVec 13) (bay : BitVec 3) (off : BitVec 12) (lane : BitVec 4) (s : State) (hInv : s.Good nF fl) :
    KeepsGood nF fl (execLdr p vd bay off lane s) := by
  unfold execLdr
  repeat'
    first
      | (with_reducible apply perform_keeps; intro _ _) | (with_reducible assumption) | (with_reducible apply loadRound_inv)
      | (dsimp only)

theorem execLdkStream_keeps (p : BitVec 5) (kd : BitVec 8) (w : BitVec 5) (delay : BitVec 12) (s : State) (hInv : s.Good nF fl) :
    KeepsGood nF fl (execLdkStream p kd w delay s) := by
  unfold execLdkStream
  repeat'
    first
      | (with_reducible apply perform_keeps; intro _ _) | (with_reducible assumption) | (with_reducible apply loadStream_inv)
      | (dsimp only)

theorem execLdkRound_keeps (p : BitVec 5) (kd : BitVec 8) (bay : BitVec 3) (off : BitVec 12) (lane : BitVec 4) (s : State) (hInv : s.Good nF fl) :
    KeepsGood nF fl (execLdkRound p kd bay off lane s) := by
  unfold execLdkRound
  repeat'
    first
      | (with_reducible apply perform_keeps; intro _ _) | (with_reducible assumption) | (with_reducible apply loadRound_inv)
      | (dsimp only)

theorem execLdsRound_keeps (p : BitVec 5) (sd : BitVec 6) (bay : BitVec 3) (off8 : BitVec 15) (lane : BitVec 4) (s : State) (hInv : s.Good nF fl) :
    KeepsGood nF fl (execLdsRound p sd bay off8 lane s) := by
  unfold execLdsRound
  repeat'
    first
      | (with_reducible apply perform_keeps; intro _ _) | (with_reducible assumption) | (with_reducible apply loadRound_inv)
      | (dsimp only)

theorem execLdsStream_keeps (p : BitVec 5) (sd : BitVec 6) (w : BitVec 5) (delay : BitVec 12) (s : State) (hInv : s.Good nF fl) :
    KeepsGood nF fl (execLdsStream p sd w delay s) := by
  unfold execLdsStream
  repeat'
    first
      | (with_reducible apply perform_keeps; intro _ _) | (with_reducible assumption) | (with_reducible apply loadStream_inv)
      | (dsimp only)

theorem execPopVector_keeps (p : BitVec 5) (vd : BitVec 13) (q : BitVec 5) (delay : BitVec 12) (s : State) (hInv : s.Good nF fl) :
    KeepsGood nF fl (execPopVector p vd q delay s) := by
  unfold execPopVector
  repeat'
    first
      | (with_reducible apply perform_keeps; intro _ _) | (with_reducible assumption) | (with_reducible apply popQueue_inv)
      | (dsimp only)

theorem execPopScalar_keeps (p : BitVec 5) (sd : BitVec 6) (q : BitVec 5) (delay : BitVec 12) (s : State) (hInv : s.Good nF fl) :
    KeepsGood nF fl (execPopScalar p sd q delay s) := by
  unfold execPopScalar
  repeat'
    first
      | (with_reducible apply perform_keeps; intro _ _) | (with_reducible assumption) | (with_reducible apply popQueue_inv)
      | (dsimp only)

theorem execFill_keeps (p : BitVec 5) (tok : BitVec 6) (tile w : BitVec 5) (s : State) (hInv : s.Good nF fl) :
    KeepsGood nF fl (execFill p tok tile w s) := by
  unfold execFill
  repeat'
    first
      | (with_reducible apply perform_keeps; intro _ _) | (with_reducible assumption) | (with_reducible apply stepStream_inv)
      | (with_reducible apply enqueue_inv) | (dsimp only)

theorem execSt_keeps (p w : BitVec 5) (vs : BitVec 13) (ks : BitVec 8) (s : State) (hInv : s.Good nF fl) :
    KeepsGood nF fl (execSt p w vs ks s) := by
  unfold execSt
  repeat'
    first
      | (with_reducible apply perform_keeps; intro _ _) | (with_reducible assumption) | (with_reducible apply storeStream_inv)
      | (dsimp only)

theorem execStr_keeps (p : BitVec 5) (bay : BitVec 3) (off : BitVec 12) (lane : BitVec 4) (vs : BitVec 13) (s : State) (hInv : s.Good nF fl) :
    KeepsGood nF fl (execStr p bay off lane vs s) := by
  unfold execStr
  repeat'
    first
      | (with_reducible apply perform_keeps; intro _ _) | (with_reducible assumption) | (with_reducible apply storeRound_inv)
      | (dsimp only)

theorem execStkStream_keeps (p w : BitVec 5) (ks : BitVec 8) (s : State) (hInv : s.Good nF fl) :
    KeepsGood nF fl (execStkStream p w ks s) := by
  unfold execStkStream
  repeat'
    first
      | (with_reducible apply perform_keeps; intro _ _) | (with_reducible assumption) | (with_reducible apply storeStream_inv)
      | (dsimp only)

theorem execStkRound_keeps (p : BitVec 5) (bay : BitVec 3) (off : BitVec 12) (lane : BitVec 4) (ks : BitVec 8) (s : State) (hInv : s.Good nF fl) :
    KeepsGood nF fl (execStkRound p bay off lane ks s) := by
  unfold execStkRound
  repeat'
    first
      | (with_reducible apply perform_keeps; intro _ _) | (with_reducible assumption) | (with_reducible apply storeRound_inv)
      | (dsimp only)

theorem execStsRound_keeps (p : BitVec 5) (bay : BitVec 3) (off8 : BitVec 15) (lane : BitVec 4) (a : BitVec 6) (s : State) (hInv : s.Good nF fl) :
    KeepsGood nF fl (execStsRound p bay off8 lane a s) := by
  unfold execStsRound
  repeat'
    first
      | (with_reducible apply perform_keeps; intro _ _) | (with_reducible assumption) | (with_reducible apply storeRound_inv)
      | (dsimp only)

theorem execStsStream_keeps (p w : BitVec 5) (a : BitVec 6) (s : State) (hInv : s.Good nF fl) :
    KeepsGood nF fl (execStsStream p w a s) := by
  unfold execStsStream
  repeat'
    first
      | (with_reducible apply perform_keeps; intro _ _) | (with_reducible assumption) | (with_reducible apply storeStream_inv)
      | (dsimp only)

theorem execPushVector_keeps (p q : BitVec 5) (vs : BitVec 13) (s : State) (hInv : s.Good nF fl) :
    KeepsGood nF fl (execPushVector p q vs s) := by
  unfold execPushVector
  repeat'
    first
      | (with_reducible apply perform_keeps; intro _ _) | (with_reducible assumption) | (with_reducible apply pushQueue_inv)
      | (dsimp only)

theorem execPushScalar_keeps (p q : BitVec 5) (a : BitVec 6) (s : State) (hInv : s.Good nF fl) :
    KeepsGood nF fl (execPushScalar p q a s) := by
  unfold execPushScalar
  repeat'
    first
      | (with_reducible apply perform_keeps; intro _ _) | (with_reducible assumption) | (with_reducible apply pushQueue_inv)
      | (dsimp only)

theorem execSpill_keeps (p : BitVec 5) (tok : BitVec 6) (tile w : BitVec 5) (s : State) (hInv : s.Good nF fl) :
    KeepsGood nF fl (execSpill p tok tile w s) := by
  unfold execSpill
  repeat'
    first
      | (with_reducible apply perform_keeps; intro _ _) | (with_reducible assumption) | (with_reducible apply stepStream_inv)
      | (with_reducible apply enqueue_inv) | (dsimp only)

theorem execMovpRound_keeps (p : BitVec 5) (bay : BitVec 3) (off : BitVec 12) (lane : BitVec 4) (port : BitVec 8) (s : State) (hInv : s.Good nF fl) :
    KeepsGood nF fl (execMovpRound p bay off lane port s) := by
  unfold execMovpRound
  repeat'
    first
      | (with_reducible apply perform_keeps; intro _ _) | (with_reducible assumption) | (with_reducible apply enterTrigger_inv)
      | (with_reducible refine enterTrigger_pair (he := by assumption) (hInv := ?_) ..) | (with_reducible apply emit_inv)
      | (with_reducible apply ride_inv) | (dsimp only)

theorem execMovpScalar_keeps (p : BitVec 5) (a : BitVec 6) (port : BitVec 8) (lane : BitVec 4) (s : State) (hInv : s.Good nF fl) :
    KeepsGood nF fl (execMovpScalar p a port lane s) := by
  unfold execMovpScalar
  repeat'
    first
      | (with_reducible apply perform_keeps; intro _ _) | (with_reducible assumption) | (with_reducible apply enterTrigger_inv)
      | (with_reducible refine enterTrigger_pair (he := by assumption) (hInv := ?_) ..) | (with_reducible apply emit_inv)
      | (with_reducible apply ride_inv) | (dsimp only)

theorem execXfer_keeps (p : BitVec 5) (frm dest lane : BitVec 4) (fromaddr toaddr : BitVec 12) (s : State) (hInv : s.Good nF fl) :
    KeepsGood nF fl (execXfer p frm dest lane fromaddr toaddr s) := by
  unfold execXfer
  repeat'
    first
      | (with_reducible apply perform_keeps; intro _ _) | (with_reducible assumption) | (with_reducible apply enterTrigger_inv)
      | (with_reducible refine enterTrigger_pair (he := by assumption) (hInv := ?_) ..) | (with_reducible apply readAtIssue_inv)
      | (with_reducible apply ride_inv) | (with_reducible apply emit_inv) | (dsimp only) | (intro _ _)

theorem execRedsVector_keeps (p : BitVec 5) (vs : BitVec 13) (t : BitVec 6) (op : BitVec 3) (ty : BitVec 1) (sem : BitVec 6) (s : State) (hInv : s.Good nF fl) :
    KeepsGood nF fl (execRedsVector p vs t op ty sem s) := by
  unfold execRedsVector
  repeat'
    first
      | (with_reducible apply perform_keeps; intro _ _) | (with_reducible assumption) | (with_reducible apply sendReds_inv)
      | (dsimp only)

theorem execRedsScalar_keeps (p : BitVec 5) (a t : BitVec 6) (op : BitVec 3) (ty : BitVec 1) (sem : BitVec 6) (s : State) (hInv : s.Good nF fl) :
    KeepsGood nF fl (execRedsScalar p a t op ty sem s) := by
  unfold execRedsScalar
  repeat'
    first
      | (with_reducible apply perform_keeps; intro _ _) | (with_reducible assumption) | (with_reducible apply sendReds_inv)
      | (dsimp only)

theorem execScfgTable_keeps (p w : BitVec 5) (entry : BitVec 12) (s : State) (hInv : s.Good nF fl) :
    KeepsGood nF fl (execScfgTable p w entry s) := by
  unfold execScfgTable
  repeat'
    first
      | (with_reducible apply perform_keeps; intro _ _) | (with_reducible assumption) | (with_reducible apply emit_inv)
      | (dsimp only)

theorem execScfgScalar_keeps (p w : BitVec 5) (word : BitVec 4) (a : BitVec 6) (s : State) (hInv : s.Good nF fl) :
    KeepsGood nF fl (execScfgScalar p w word a s) := by
  unfold execScfgScalar
  repeat'
    first
      | (with_reducible apply perform_keeps; intro _ _) | (with_reducible assumption) | (with_reducible apply emit_inv)
      | (dsimp only)

theorem execSadv_keeps (p w : BitVec 5) (dim : BitVec 2) (steps : BitVec 16) (s : State) (hInv : s.Good nF fl) :
    KeepsGood nF fl (execSadv p w dim steps s) := by
  unfold execSadv
  repeat'
    first
      | (with_reducible apply perform_keeps; intro _ _) | (with_reducible assumption) | (with_reducible apply emit_inv)
      | (dsimp only)

theorem execSrst_keeps (p w : BitVec 5) (s : State) (hInv : s.Good nF fl) : KeepsGood nF fl (execSrst p w s) := by
  unfold execSrst
  repeat'
    first
      | (with_reducible apply perform_keeps; intro _ _) | (with_reducible assumption) | (with_reducible apply emit_inv)
      | (dsimp only)

theorem occupy_inv (s : State) (mask : BitVec 8) (act shad acc : Bool) (last : Nat) (hInv : s.Good nF fl) :
    (occupy s mask act shad acc last).Good nF fl := by
  unfold occupy
  repeat'
    first
      | (with_reducible assumption) | (with_reducible apply modMe_inv) | (with_reducible apply inv_ite; rotate_left; intro _)
      | ((with_reducible refine inv_mk rfl ?_); first | with_reducible assumption | with_reducible apply modMe_inv | (with_reducible apply inv_ite; rotate_left; intro _) | split)
      | (split) | (dsimp only)

theorem fixSplits_inv (s : State) (mask : BitVec 8) (hInv : s.Good nF fl) : (fixSplits s mask).Good nF fl := by
  unfold fixSplits
  repeat'
    first
      | (with_reducible assumption) | (with_reducible apply modMe_inv) | (with_reducible apply inv_ite; rotate_left; intro _)
      | (with_reducible apply inv_foldl; rotate_left; intro _ _ _)
      | ((with_reducible refine inv_mk rfl ?_); first | with_reducible assumption | with_reducible apply modMe_inv | (with_reducible apply inv_ite; rotate_left; intro _) | (with_reducible apply inv_foldl; rotate_left; intro _ _ _) | split)
      | (split) | (dsimp only)

theorem emitSums_inv (s : State) (lat : Nat) (mask : BitVec 8) (acts : Row) (nbits : Nat) (sg : Bool) (wacc : Nat) (hInv : s.Good nF fl) :
    (emitSums s lat mask acts nbits sg wacc).Good nF fl := by
  unfold emitSums
  repeat'
    first
      | (with_reducible assumption) | (with_reducible apply emit_inv) | (with_reducible apply inv_ite; rotate_left; intro _)
      | (with_reducible apply inv_foldl; rotate_left; intro _ _ _) | (split) | (dsimp only)

theorem checkBank_inv (s : State) (m : Nat) (shadow : Bool) (hInv : s.Good nF fl) : (checkBank s m shadow).Good nF fl := by
  unfold checkBank
  repeat'
    first
      | (with_reducible assumption) | (with_reducible apply modMe_inv) | (with_reducible apply inv_ite; rotate_left; intro _)
      | ((with_reducible refine inv_mk rfl ?_); first | with_reducible assumption | with_reducible apply modMe_inv | (with_reducible apply inv_ite; rotate_left; intro _) | split)
      | (split) | (dsimp only)

theorem execCmode_keeps (p : BitVec 5) (mode : BitVec 1) (mask : BitVec 8) (s : State) (hInv : s.Good nF fl) :
    KeepsGood nF fl (execCmode p mode mask s) := by
  unfold execCmode
  repeat'
    first
      | (with_reducible apply perform_keeps; intro _ _) | (with_reducible assumption) | (with_reducible apply emit_inv)
      | (with_reducible apply occupy_inv) | (with_reducible apply inv_ite; rotate_left; intro _) | (split) | (dsimp only)

theorem execCloadRow_keeps (p : BitVec 5) (vs : BitVec 13) (cm : BitVec 3) (first : BitVec 8) (wfmt : BitVec 5) (s : State) (hInv : s.Good nF fl) :
    KeepsGood nF fl (execCloadRow p vs cm first wfmt s) := by
  unfold execCloadRow
  repeat'
    first
      | (with_reducible apply perform_keeps; intro _ _) | (with_reducible assumption) | (with_reducible apply emit_inv)
      | (with_reducible apply occupy_inv) | (dsimp only)

theorem execCloadRound_keeps (p : BitVec 5) (bay : BitVec 3) (off : BitVec 12) (lane : BitVec 4) (cm : BitVec 3) (first : BitVec 8) (wfmt : BitVec 5) (s : State) (hInv : s.Good nF fl) :
    KeepsGood nF fl (execCloadRound p bay off lane cm first wfmt s) := by
  unfold execCloadRound
  repeat'
    first
      | (with_reducible apply perform_keeps; intro _ _) | (with_reducible assumption) | (with_reducible apply occupy_inv)
      | (with_reducible apply loadRound_inv) | (dsimp only)

theorem execCswap_keeps (p : BitVec 5) (mask : BitVec 8) (s : State) (hInv : s.Good nF fl) :
    KeepsGood nF fl (execCswap p mask s) := by
  unfold execCswap
  repeat'
    first
      | (with_reducible apply perform_keeps; intro _ _) | (with_reducible assumption) | (with_reducible apply occupy_inv)
      | (with_reducible apply modMe_inv) | (with_reducible apply emit_inv)
      | ((with_reducible refine inv_mk rfl ?_); first | with_reducible assumption | with_reducible apply occupy_inv | with_reducible apply modMe_inv | with_reducible apply emit_inv)
      | (dsimp only)

theorem execCmacRow_keeps (p : BitVec 5) (mask : BitVec 8) (va : BitVec 13) (abits : BitVec 3) (asigned : BitVec 1) (wacc : BitVec 5) (s : State) (hInv : s.Good nF fl) :
    KeepsGood nF fl (execCmacRow p mask va abits asigned wacc s) := by
  unfold execCmacRow
  repeat'
    first
      | (with_reducible apply perform_keeps; intro _ _) | (with_reducible assumption) | (with_reducible apply fixSplits_inv)
      | (with_reducible apply occupy_inv) | (with_reducible apply emitSums_inv) | (dsimp only)

theorem execCmacRound_keeps (p : BitVec 5) (mask : BitVec 8) (bay : BitVec 3) (off : BitVec 12) (lane : BitVec 4) (abits : BitVec 3) (asigned : BitVec 1) (wacc : BitVec 5) (s : State) (hInv : s.Good nF fl) :
    KeepsGood nF fl (execCmacRound p mask bay off lane abits asigned wacc s) := by
  unfold execCmacRound
  repeat'
    first
      | (with_reducible apply perform_keeps; intro _ _) | (with_reducible assumption) | (with_reducible apply fixSplits_inv)
      | (with_reducible apply occupy_inv) | (with_reducible apply emit_inv) | (with_reducible apply ride_inv) | (dsimp only)

theorem execCread_keeps (p : BitVec 5) (vd : BitVec 13) (cm : BitVec 3) (half : BitVec 1) (s : State) (hInv : s.Good nF fl) :
    KeepsGood nF fl (execCread p vd cm half s) := by
  unfold execCread
  repeat'
    first
      | (with_reducible apply perform_keeps; intro _ _) | (with_reducible assumption) | (with_reducible apply emit_inv)
      | (with_reducible apply inv_ite; rotate_left; intro _) | (split) | (dsimp only)

theorem execCreadK_keeps (p : BitVec 5) (vd : BitVec 13) (cm : BitVec 3) (half : BitVec 1) (s : State) (hInv : s.Good nF fl) :
    KeepsGood nF fl (execCreadK p vd cm half s) := by
  unfold execCreadK
  repeat'
    first
      | (with_reducible apply perform_keeps; intro _ _) | (with_reducible assumption) | (with_reducible apply emitFlags_inv)
      | (with_reducible apply emit_inv) | (with_reducible apply inv_foldl; rotate_left; intro _ _ _) | (dsimp only)

theorem execCclr_keeps (p : BitVec 5) (mask : BitVec 8) (s : State) (hInv : s.Good nF fl) :
    KeepsGood nF fl (execCclr p mask s) := by
  unfold execCclr
  repeat'
    first
      | (with_reducible apply perform_keeps; intro _ _) | (with_reducible assumption) | (with_reducible apply emit_inv)
      | (with_reducible apply occupy_inv) | (dsimp only)

theorem execCchk_keeps (p : BitVec 5) (bank : BitVec 1) (cm : BitVec 3) (s : State) (hInv : s.Good nF fl) :
    KeepsGood nF fl (execCchk p bank cm s) := by
  unfold execCchk
  repeat'
    first
      | (with_reducible apply perform_keeps; intro _ _) | (with_reducible assumption) | (with_reducible apply checkBank_inv)
      | (with_reducible apply modMe_inv) | (with_reducible apply occupy_inv)
      | (with_reducible apply inv_ite; rotate_left; intro _)
      | ((with_reducible refine inv_mk rfl ?_); first | with_reducible assumption | with_reducible apply checkBank_inv | with_reducible apply modMe_inv | with_reducible apply occupy_inv | (with_reducible apply inv_ite; rotate_left; intro _) | split)
      | (split) | (dsimp only)

end Sys2Proof.Machine
end

