-- ==== Sys2Proof/Laws/KeepYard.lean ====
section
/-!
SUPPORT. What each operation of Undo, Stations, Landing, Order, Bundle, Audit, Sequencer, Strikes, Yard keeps: the invariant of every step (generated by form, one lemma for each operation).
-/

namespace Sys2Proof.Machine

variable {nF : Nat} {fl : List Host.Cell}

theorem undoOne_inv (s : State) (c : Nat) (u : Undo) (hInv : s.Good nF fl) : (undoOne s c u).Good nF fl := by
  unfold undoOne
  repeat'
    first
      | (with_reducible assumption) | (with_reducible apply modCtx_inv) | (with_reducible apply roundWrite_inv)
      | (with_reducible apply modStable_inv) | (with_reducible apply modLaunch_inv)
      | (with_reducible apply inv_ite; rotate_left; intro _)
      | ((with_reducible refine inv_mk rfl ?_); first | with_reducible assumption | with_reducible apply modCtx_inv | with_reducible apply roundWrite_inv | with_reducible apply modStable_inv | with_reducible apply modLaunch_inv | (with_reducible apply inv_ite; rotate_left; intro _) | split)
      | (split) | (dsimp only)

theorem farAccess_inv (s : State) (c jid : Nat) (op : Option Nat) (hInv : s.Good nF fl) : (farAccess s c jid op).Good nF fl := by
  unfold farAccess
  repeat'
    first
      | (with_reducible assumption) | (with_reducible apply modCtx_inv) | (with_reducible apply inv_ite; rotate_left; intro _)
      | ((with_reducible refine inv_mk rfl ?_); first | with_reducible assumption | with_reducible apply modCtx_inv | (with_reducible apply inv_ite; rotate_left; intro _) | split)
      | (split) | (dsimp only)

theorem startJob_inv (s : State) (c st trig : Nat) (op : Option Nat) (hInv : s.Good nF fl) :
    (startJob s c st trig op).Good nF fl := by
  unfold startJob
  repeat'
    first
      | (with_reducible assumption) | (with_reducible apply modCtx_inv) | (with_reducible apply dropAccess_inv)
      | (with_reducible apply readWords_inv) | (with_reducible apply modStable_inv) | (with_reducible apply farAccess_inv)
      | (with_reducible apply inv_ite; rotate_left; intro _) | (with_reducible apply inv_foldl; rotate_left; intro _ _ _)
      | ((with_reducible refine inv_mk rfl ?_); first | with_reducible assumption | with_reducible apply modCtx_inv | with_reducible apply dropAccess_inv | with_reducible apply readWords_inv | with_reducible apply modStable_inv | with_reducible apply farAccess_inv | (with_reducible apply inv_ite; rotate_left; intro _) | (with_reducible apply inv_foldl; rotate_left; intro _ _ _) | split)
      | (split) | (dsimp only)

theorem applyMove_inv (s : State) (c port : Nat) (v : Word) (op : Option Nat) (hInv : s.Good nF fl) :
    (applyMove s c port v op).Good nF fl := by
  unfold applyMove
  repeat'
    first
      | (with_reducible assumption) | (with_reducible apply modCtx_inv) | (with_reducible apply startJob_inv)
      | (with_reducible apply inv_ite; rotate_left; intro _)
      | ((with_reducible refine inv_mk rfl ?_); first | with_reducible assumption | with_reducible apply modCtx_inv | with_reducible apply startJob_inv | (with_reducible apply inv_ite; rotate_left; intro _) | split)
      | (split) | (dsimp only)

theorem chargeJob_inv (s : State) (sb : Nat) (j : Job) (hInv : s.Good nF fl) : (chargeJob s sb j).Good nF fl := by
  unfold chargeJob
  repeat'
    first
      | (with_reducible assumption) | (with_reducible apply modCtx_inv)
      | (with_reducible apply inv_foldl; rotate_left; intro _ _ _) | (dsimp only)

theorem jobWrite_inv (s : State) (sb : Nat) (j : Job) (hInv : s.Good nF fl) : (jobWrite s sb j).Good nF fl := by
  unfold jobWrite
  repeat'
    first
      | (with_reducible assumption) | (with_reducible apply chargeJob_inv) | (with_reducible apply roundWrite_inv)
      | (with_reducible apply poisonRange_inv) | (with_reducible apply modStable_inv)
      | (with_reducible apply inv_ite; rotate_left; intro _) | (with_reducible apply inv_foldl; rotate_left; intro _ _ _)
      | ((with_reducible refine inv_mk rfl ?_); first | with_reducible assumption | with_reducible apply chargeJob_inv | with_reducible apply roundWrite_inv | with_reducible apply poisonRange_inv | with_reducible apply modStable_inv | (with_reducible apply inv_ite; rotate_left; intro _) | (with_reducible apply inv_foldl; rotate_left; intro _ _ _) | split)
      | (split) | (dsimp only)

theorem jobAccess_inv (s : State) (j : Job) (hInv : s.Good nF fl) : (jobAccess s j).Good nF fl := by
  unfold jobAccess
  repeat' first | (with_reducible assumption) | (with_reducible apply opDone_inv) | (split) | (dsimp only)

theorem endJob_inv (s : State) (sb : Nat) (j : Job) (hInv : s.Good nF fl) : (endJob s sb j).Good nF fl := by
  unfold endJob
  repeat'
    first
      | (with_reducible assumption) | (with_reducible apply jobWrite_inv) | (with_reducible apply modStable_inv)
      | (with_reducible apply modCtx_inv) | (with_reducible apply jobAccess_inv)
      | (with_reducible apply inv_ite; rotate_left; intro _)
      | ((with_reducible refine inv_mk rfl ?_); first | with_reducible assumption | with_reducible apply jobWrite_inv | with_reducible apply modStable_inv | with_reducible apply modCtx_inv | with_reducible apply jobAccess_inv | (with_reducible apply inv_ite; rotate_left; intro _) | split)
      | (split) | (dsimp only)

theorem dxArrive_inv (s : State) (sb id : Nat) (data : List Byte) (poison : Bool) (hInv : s.Good nF fl) :
    (dxArrive s sb id data poison).Good nF fl := by
  unfold dxArrive
  repeat'
    first
      | (with_reducible assumption) | (with_reducible apply modStable_inv) | (with_reducible apply modCtx_inv)
      | (with_reducible apply inv_ite; rotate_left; intro _)
      | ((with_reducible refine inv_mk rfl ?_); first | with_reducible assumption | with_reducible apply modStable_inv | with_reducible apply modCtx_inv | (with_reducible apply inv_ite; rotate_left; intro _) | split)
      | (split) | (dsimp only)

theorem execDxBackref_keeps (c : Nat) (s : State) (hInv : s.Good nF fl) : KeepsGood nF fl (execDxBackref c s) := by
  unfold execDxBackref
  repeat' first | (with_reducible apply keeps_next) | (with_reducible assumption) | (with_reducible apply startJob_inv)

theorem execDxCopy_keeps (c : Nat) (s : State) (hInv : s.Good nF fl) : KeepsGood nF fl (execDxCopy c s) := by
  unfold execDxCopy
  repeat' first | (with_reducible apply keeps_next) | (with_reducible assumption) | (with_reducible apply startJob_inv)

theorem execTxTranspose_keeps (c : Nat) (s : State) (hInv : s.Good nF fl) : KeepsGood nF fl (execTxTranspose c s) := by
  unfold execTxTranspose
  repeat' first | (with_reducible apply keeps_next) | (with_reducible assumption) | (with_reducible apply startJob_inv)

theorem execHxSha256_keeps (c : Nat) (s : State) (hInv : s.Good nF fl) : KeepsGood nF fl (execHxSha256 c s) := by
  unfold execHxSha256
  repeat' first | (with_reducible apply keeps_next) | (with_reducible assumption) | (with_reducible apply startJob_inv)

theorem execQxConvert_keeps (c : Nat) (s : State) (hInv : s.Good nF fl) : KeepsGood nF fl (execQxConvert c s) := by
  unfold execQxConvert
  repeat' first | (with_reducible apply keeps_next) | (with_reducible assumption) | (with_reducible apply startJob_inv)

theorem execStationJobEnd_keeps (stable id : Nat) (s : State) (hInv : s.Good nF fl) :
    KeepsGood nF fl (execStationJobEnd stable id s) := by
  unfold execStationJobEnd
  repeat'
    first
      | (with_reducible apply keeps_next) | (with_reducible assumption) | (with_reducible apply endJob_inv) | (split)
      | (dsimp only)

theorem applyPacket_inv (s : State) (p : Packet) (hInv : s.Good nF fl) : (applyPacket s p).Good nF fl := by
  unfold applyPacket
  repeat'
    first
      | (with_reducible assumption) | (with_reducible apply readWords_inv) | (with_reducible apply roundWrite_inv)
      | (with_reducible apply poisonRange_inv) | (with_reducible apply dropAccess_inv)
      | (with_reducible apply inv_ite; rotate_left; intro _)
      | ((with_reducible refine inv_mk rfl ?_); first | with_reducible assumption | with_reducible apply readWords_inv | with_reducible apply roundWrite_inv | with_reducible apply poisonRange_inv | with_reducible apply dropAccess_inv | (with_reducible apply inv_ite; rotate_left; intro _) | split)
      | (split) | (dsimp only)

theorem scheduleEff_inv (s : State) (c due : Nat) (f : Flight) (e : Eff) (hInv : s.Good nF fl) :
    (scheduleEff s c due f e).Good nF fl := by
  unfold scheduleEff
  repeat'
    first
      | (with_reducible assumption) | (with_reducible apply modCtx_inv)
      | ((with_reducible refine inv_mk rfl ?_); first | with_reducible assumption | with_reducible apply modCtx_inv)
      | (dsimp only)

theorem performGood_inv (s : State) (c : Nat) (f : Flight) (bay off n lands : Nat) (use : RdUse) (hInv : s.Good nF fl) :
    (performGood s c f bay off n lands use).Good nF fl := by
  unfold performGood
  repeat'
    first
      | (with_reducible assumption) | (with_reducible apply scheduleEff_inv)
      | (with_reducible apply inv_ite; rotate_left; intro _) | (with_reducible apply inv_foldl; rotate_left; intro _ _ _)
      | (split) | (dsimp only)

theorem performRead_inv (s : State) (c : Nat) (f : Flight) (bay off n lands : Nat) (use : RdUse) (hInv : s.Good nF fl) :
    (performRead s c f bay off n lands use).Good nF fl := by
  unfold performRead
  repeat'
    first
      | (with_reducible assumption) | (with_reducible apply modCtx_inv) | (with_reducible apply findBad_inv)
      | (with_reducible apply performGood_inv) | (with_reducible apply correctAll_inv)
      | (with_reducible apply inv_ite; rotate_left; intro _)
      | ((with_reducible refine inv_mk rfl ?_); first | with_reducible assumption | with_reducible apply modCtx_inv | with_reducible apply findBad_inv | with_reducible apply performGood_inv | with_reducible apply correctAll_inv | (with_reducible apply inv_ite; rotate_left; intro _) | split)
      | (split) | (dsimp only)

theorem putMxwin_inv (s : State) (sb : Nat) (code : BitVec 2) (hInv : s.Good nF fl) : (putMxwin s sb code).Good nF fl := by
  unfold putMxwin
  repeat'
    first
      | (with_reducible assumption) | (with_reducible apply modStable_inv) | (with_reducible apply inv_ite; rotate_left; intro _)
      | ((with_reducible refine inv_mk rfl ?_); first | with_reducible assumption | with_reducible apply modStable_inv | (with_reducible apply inv_ite; rotate_left; intro _) | split)
      | (split) | (dsimp only)

theorem writeMxwin_inv (s : State) (c : Nat) (code : BitVec 2) (hInv : s.Good nF fl) : (writeMxwin s c code).Good nF fl := by
  unfold writeMxwin
  repeat'
    first
      | (with_reducible assumption) | (with_reducible apply putMxwin_inv) | (with_reducible apply inv_ite; rotate_left; intro _)
      | (split) | (dsimp only)

theorem landUserCsr_inv (s : State) (c n : Nat) (v : Word) (hInv : s.Good nF fl) : (landUserCsr s c n v).Good nF fl := by
  unfold landUserCsr
  repeat'
    first
      | (with_reducible assumption) | (with_reducible apply modCtx_inv) | (with_reducible apply writeMxwin_inv)
      | (with_reducible apply inv_ite; rotate_left; intro _)
      | ((with_reducible refine inv_mk rfl ?_); first | with_reducible assumption | with_reducible apply modCtx_inv | with_reducible apply writeMxwin_inv | (with_reducible apply inv_ite; rotate_left; intro _) | split)
      | (split) | (dsimp only)

theorem clearRows_inv (s : State) (c reg dir : Nat) (m : BitVec 512) (hInv : s.Good nF fl) :
    (clearRows s c reg dir m).Good nF fl := by
  unfold clearRows
  repeat'
    first
      | (with_reducible assumption) | (with_reducible apply inv_ite; rotate_left; intro _)
      | ((with_reducible refine inv_mk rfl ?_); first | with_reducible assumption | (with_reducible apply inv_ite; rotate_left; intro _) | split)
      | (split) | (dsimp only)

theorem clearScale_inv (s : State) (c k : Nat) (m : BitVec 64) (desc : Bool) (hInv : s.Good nF fl) :
    (clearScale s c k m desc).Good nF fl := by
  unfold clearScale
  repeat'
    first
      | (with_reducible assumption) | (with_reducible apply inv_ite; rotate_left; intro _)
      | ((with_reducible refine inv_mk rfl ?_); first | with_reducible assumption | (with_reducible apply inv_ite; rotate_left; intro _) | split)
      | (split) | (dsimp only)

theorem landEff_inv (s : State) (c : Nat) (f : Flight) (hInv : s.Good nF fl) : (landEff s c f).Good nF fl := by
  unfold landEff
  repeat'
    first
      | (with_reducible assumption) | (with_reducible apply modCtx_inv) | (with_reducible apply clearRows_inv)
      | (with_reducible apply landUserCsr_inv) | (with_reducible apply privWrite_inv) | (with_reducible apply clearScale_inv)
      | (with_reducible apply performRead_inv) | (with_reducible apply modStable_inv)
      | (with_reducible apply inv_ite; rotate_left; intro _) | (with_reducible apply inv_foldl; rotate_left; intro _ _ _)
      | ((with_reducible refine inv_mk rfl ?_); first | with_reducible assumption | with_reducible apply modCtx_inv | with_reducible apply clearRows_inv | with_reducible apply landUserCsr_inv | with_reducible apply privWrite_inv | with_reducible apply clearScale_inv | with_reducible apply performRead_inv | with_reducible apply modStable_inv | (with_reducible apply inv_ite; rotate_left; intro _) | (with_reducible apply inv_foldl; rotate_left; intro _ _ _) | split)
      | (split) | (dsimp only)

theorem finishMma_inv (s : State) (c : Nat) (f : Flight) (hInv : s.Good nF fl) : (finishMma s c f).Good nF fl := by
  unfold finishMma
  repeat'
    first
      | (with_reducible assumption) | (with_reducible apply scheduleEff_inv)
      | (with_reducible apply inv_ite; rotate_left; intro _) | (with_reducible apply inv_foldl; rotate_left; intro _ _ _)
      | (split) | (dsimp only)

theorem landAll_inv (s : State) (c : Nat) (fs : List Flight) (hInv : s.Good nF fl) : (landAll s c fs).Good nF fl := by
  unfold landAll
  repeat'
    first
      | (with_reducible assumption) | (with_reducible apply modCtx_inv) | (with_reducible apply landEff_inv)
      | (with_reducible apply dropAccess_inv) | (with_reducible apply applyMove_inv) | (with_reducible apply finishMma_inv)
      | (with_reducible apply inv_foldl; rotate_left; intro _ _ _)
      | ((with_reducible refine inv_mk rfl ?_); first | with_reducible assumption | with_reducible apply modCtx_inv | with_reducible apply landEff_inv | with_reducible apply dropAccess_inv | with_reducible apply applyMove_inv | with_reducible apply finishMma_inv | (with_reducible apply inv_foldl; rotate_left; intro _ _ _))
      | (dsimp only)

theorem holdLandings_inv (s : State) (c code : Nat) (hInv : s.Good nF fl) : (holdLandings s c code).Good nF fl := by
  unfold holdLandings
  repeat'
    first
      | (with_reducible assumption) | (with_reducible apply modCtx_inv)
      | ((with_reducible refine inv_mk rfl ?_); first | with_reducible assumption | with_reducible apply modCtx_inv)
      | (dsimp only)

theorem landPerformed_inv (s : State) (c : Nat) (hInv : s.Good nF fl) : (landPerformed s c).Good nF fl := by
  unfold landPerformed
  repeat'
    first
      | (with_reducible assumption) | (with_reducible apply landAll_inv) | (with_reducible apply modCtx_inv)
      | ((with_reducible refine inv_mk rfl ?_); first | with_reducible assumption | with_reducible apply landAll_inv | with_reducible apply modCtx_inv)
      | (dsimp only)

theorem makeUses_inv (s : State) (c : Nat) (hInv : s.Good nF fl) : (makeUses s c).Good nF fl := by
  unfold makeUses
  repeat'
    first
      | (with_reducible assumption) | (with_reducible apply modStable_inv) | (with_reducible apply inv_ite; rotate_left; intro _)
      | ((with_reducible refine inv_mk rfl ?_); first | with_reducible assumption | with_reducible apply modStable_inv | (with_reducible apply inv_ite; rotate_left; intro _) | split)
      | (split) | (dsimp only)

theorem driftFlights_inv (s : State) (c : Nat) (hInv : s.Good nF fl) : (driftFlights s c).Good nF fl := by
  unfold driftFlights
  repeat'
    first
      | (with_reducible assumption) | (with_reducible apply modStable_inv) | (with_reducible apply modCtx_inv)
      | (with_reducible apply makeUses_inv) | (with_reducible apply landAll_inv)
      | (with_reducible apply inv_ite; rotate_left; intro _)
      | ((with_reducible refine inv_mk rfl ?_); first | with_reducible assumption | with_reducible apply modStable_inv | with_reducible apply modCtx_inv | with_reducible apply makeUses_inv | with_reducible apply landAll_inv | (with_reducible apply inv_ite; rotate_left; intro _) | split)
      | (split) | (dsimp only)

theorem landResults_inv (s : State) (c : Nat) (hInv : s.Good nF fl) : (landResults s c).Good nF fl := by
  unfold landResults
  repeat'
    first
      | (with_reducible assumption) | (with_reducible apply landPerformed_inv) | (with_reducible apply logInputs_inv)
      | (with_reducible apply modCtx_inv) | (with_reducible apply holdLandings_inv) | (with_reducible apply landAll_inv)
      | (with_reducible apply inv_ite; rotate_left; intro _) | (with_reducible apply inv_foldl; rotate_left; intro _ _ _)
      | ((with_reducible refine inv_mk rfl ?_); first | with_reducible assumption | with_reducible apply landPerformed_inv | with_reducible apply logInputs_inv | with_reducible apply modCtx_inv | with_reducible apply holdLandings_inv | with_reducible apply landAll_inv | (with_reducible apply inv_ite; rotate_left; intro _) | (with_reducible apply inv_foldl; rotate_left; intro _ _ _) | split)
      | (split) | (dsimp only)

theorem putTile_inv (s : State) (c first : Nat) (rows : List Row) (hInv : s.Good nF fl) :
    (putTile s c first rows).Good nF fl := by
  unfold putTile
  repeat'
    first
      | (with_reducible assumption) | (with_reducible apply modCtx_inv) | (with_reducible apply clearMarks_inv)
      | (with_reducible apply inv_foldl; rotate_left; intro _ _ _)
      | ((with_reducible refine inv_mk rfl ?_); first | with_reducible assumption | with_reducible apply modCtx_inv | with_reducible apply clearMarks_inv | (with_reducible apply inv_foldl; rotate_left; intro _ _ _))
      | (dsimp only)

theorem acceptFill_inv (s : State) (c cm : Nat) (hInv : s.Good nF fl) : (acceptFill s c cm).Good nF fl := by
  unfold acceptFill
  repeat'
    first
      | (with_reducible assumption) | (with_reducible apply opDone_inv) | (with_reducible apply modCtx_inv)
      | (with_reducible apply inv_ite; rotate_left; intro _)
      | ((with_reducible refine inv_mk rfl ?_); first | with_reducible assumption | with_reducible apply opDone_inv | with_reducible apply modCtx_inv | (with_reducible apply inv_ite; rotate_left; intro _) | split)
      | (split) | (dsimp only)

theorem acceptFills_inv (s : State) (c : Nat) (hInv : s.Good nF fl) : (acceptFills s c).Good nF fl := by
  unfold acceptFills
  repeat'
    first
      | (with_reducible assumption) | (with_reducible apply acceptFill_inv)
      | (with_reducible apply inv_foldl; rotate_left; intro _ _ _) | (dsimp only)

theorem enterSlot_inv (s : State) (c slot : Nat) (hInv : s.Good nF fl) : (enterSlot s c slot).Good nF fl := by
  unfold enterSlot
  repeat'
    first
      | (with_reducible assumption) | ((with_reducible refine inv_mk rfl ?_); first | with_reducible assumption) | (dsimp only)

theorem auditEntry_inv (s : State) (c pc : Nat) (hInv : s.Good nF fl) : (auditEntry s c pc).Good nF fl := by
  unfold auditEntry
  repeat'
    first
      | (with_reducible assumption) | (with_reducible apply modStall_inv) | (with_reducible apply inv_ite; rotate_left; intro _)
      | ((with_reducible refine inv_mk rfl ?_); first | with_reducible assumption | with_reducible apply modStall_inv | (with_reducible apply inv_ite; rotate_left; intro _) | split)
      | (split) | (dsimp only)

theorem answerOps_inv (s : State) (c : Nat) (hInv : s.Good nF fl) : (answerOps s c).Good nF fl := by
  unfold answerOps
  repeat'
    first
      | (with_reducible assumption) | (with_reducible apply modCtx_inv)
      | ((with_reducible refine inv_mk rfl ?_); first | with_reducible assumption | with_reducible apply modCtx_inv | split)
      | (split) | (dsimp only)

theorem replayFill_inv (s : State) (c : Nat) (late : Bool) (k : Capture) (o : OffOp) (hInv : s.Good nF fl) :
    (replayFill s c late k o).Good nF fl := by
  unfold replayFill
  repeat'
    first
      | (with_reducible assumption) | (with_reducible apply modCtx_inv) | (with_reducible apply opDone_inv)
      | (with_reducible apply putTile_inv) | (with_reducible apply inv_ite; rotate_left; intro _) | (split) | (dsimp only)

theorem replayFills_inv (s : State) (c : Nat) (late : Bool) (hInv : s.Good nF fl) : (replayFills s c late).Good nF fl := by
  unfold replayFills
  repeat'
    first
      | (with_reducible assumption) | (with_reducible apply replayFill_inv)
      | (with_reducible apply inv_foldl; rotate_left; intro _ _ _) | (split) | (dsimp only)

theorem auditBundle_inv (s : State) (c : Nat) (sl : List (Nat × SlotOp)) (hInv : s.Good nF fl) :
    (auditBundle s c sl).Good nF fl := by
  unfold auditBundle
  repeat'
    first
      | (with_reducible assumption) | (with_reducible apply dropCapture_inv)
      | (with_reducible apply inv_ite; rotate_left; intro _) | (split) | (dsimp only)

theorem auditRecord_inv (s : State) (k : Capture) (kind : Nat) (orig : Word) (r1 r2 : Nat × Word) (hInv : s.Good nF fl) :
    (auditRecord s k kind orig r1 r2).Good nF fl := by
  unfold auditRecord
  repeat' first | (with_reducible assumption) | (with_reducible apply putRecord_inv) | (dsimp only)

theorem suspectStall_inv (s : State) (g : Nat) (hInv : s.Good nF fl) : (suspectStall s g).Good nF fl := by
  unfold suspectStall
  repeat'
    first
      | (with_reducible assumption) | (with_reducible apply modStall_inv)
      | ((with_reducible refine inv_mk rfl ?_); first | with_reducible assumption | with_reducible apply modStall_inv)
      | (dsimp only)

theorem auditVerdict_inv (s : State) (g replay : Nat) (sig : Word) (hInv : s.Good nF fl) :
    (auditVerdict s g replay sig).Good nF fl := by
  unfold auditVerdict
  repeat'
    first
      | (with_reducible assumption) | (with_reducible apply auditRecord_inv) | (with_reducible apply suspectStall_inv)
      | (with_reducible apply inv_ite; rotate_left; intro _)
      | ((with_reducible refine inv_mk rfl ?_); first | with_reducible assumption | with_reducible apply auditRecord_inv | with_reducible apply suspectStall_inv | (with_reducible apply inv_ite; rotate_left; intro _) | split)
      | (split) | (dsimp only)

theorem recordAlone_inv (s : State) (k : Capture) (hInv : s.Good nF fl) : (recordAlone s k).Good nF fl := by
  unfold recordAlone
  repeat' first | (with_reducible assumption) | (with_reducible apply putRecord_inv) | (split) | (dsimp only)

theorem expireCaptures_inv (s : State) (hInv : s.Good nF fl) : (expireCaptures s).Good nF fl := by
  unfold expireCaptures
  repeat'
    first
      | (with_reducible assumption) | (with_reducible apply recordAlone_inv)
      | (with_reducible apply inv_foldl; rotate_left; intro _ _ _)
      | ((with_reducible refine inv_mk rfl ?_); first | with_reducible assumption | with_reducible apply recordAlone_inv | (with_reducible apply inv_foldl; rotate_left; intro _ _ _))
      | (dsimp only)

theorem judgeRun_inv (s : State) (g : Nat) (hInv : s.Good nF fl) : (judgeRun s g).Good nF fl := by
  unfold judgeRun
  repeat'
    first
      | (with_reducible assumption) | (with_reducible apply auditVerdict_inv)
      | ((with_reducible refine inv_mk rfl ?_); first | with_reducible assumption | with_reducible apply auditVerdict_inv | split)
      | (split) | (dsimp only)

theorem judgeRuns_inv (s : State) (hInv : s.Good nF fl) : (judgeRuns s).Good nF fl := by
  unfold judgeRuns
  repeat'
    first
      | (with_reducible assumption) | (with_reducible apply judgeRun_inv)
      | (with_reducible apply inv_foldl; rotate_left; intro _ _ _)

theorem execAuditVerdict_keeps (stall replay sig : Nat) (s : State) (hInv : s.Good nF fl) :
    KeepsGood nF fl (execAuditVerdict stall replay sig s) := by
  unfold execAuditVerdict
  repeat'
    first
      | (with_reducible apply keeps_next) | (with_reducible assumption) | (with_reducible apply judgeRun_inv)
      | (with_reducible apply inv_ite; rotate_left; intro _) | (split) | (dsimp only)

theorem tick_inv (s : State) (c : Nat) (hInv : s.Good nF fl) : (tick s c).Good nF fl := by
  unfold tick
  repeat'
    first
      | (with_reducible assumption) | (with_reducible apply modCtx_inv)
      | ((with_reducible refine inv_mk rfl ?_); first | with_reducible assumption | with_reducible apply modCtx_inv)
      | (dsimp only)

theorem keepWaiting_inv (s : State) (c : Nat) (w : Wait) (hInv : s.Good nF fl) : (keepWaiting s c w).Good nF fl := by
  unfold keepWaiting
  repeat'
    first
      | (with_reducible assumption) | (with_reducible apply modCtx_inv) | (with_reducible apply inv_ite; rotate_left; intro _)
      | ((with_reducible refine inv_mk rfl ?_); first | with_reducible assumption | with_reducible apply modCtx_inv | (with_reducible apply inv_ite; rotate_left; intro _) | split)
      | (split) | (dsimp only)

theorem askProbe_inv (s : State) (c : Nat) (w : Wait) (hInv : s.Good nF fl) : (askProbe s c w).Good nF fl := by
  unfold askProbe
  repeat'
    first
      | (with_reducible assumption) | (with_reducible apply modCtx_inv) | (with_reducible apply inv_ite; rotate_left; intro _)
      | ((with_reducible refine inv_mk rfl ?_); first | with_reducible assumption | with_reducible apply modCtx_inv | (with_reducible apply inv_ite; rotate_left; intro _) | split)
      | (split) | (dsimp only)

theorem fallOn_inv (s : State) (c : Nat) (stamp l : Int) (hInv : s.Good nF fl) : (fallOn s c stamp l).Good nF fl := by
  unfold fallOn
  repeat'
    first
      | (with_reducible assumption) | (with_reducible apply modCtx_inv) | (with_reducible apply inv_ite; rotate_left; intro _)
      | ((with_reducible refine inv_mk rfl ?_); first | with_reducible assumption | with_reducible apply modCtx_inv | (with_reducible apply inv_ite; rotate_left; intro _) | split)
      | (split) | (dsimp only)

theorem faultAt_inv (s : State) (c code info slot : Nat) (hInv : s.Good nF fl) : (faultAt s c code info slot).Good nF fl := by
  unfold faultAt
  repeat' first | (with_reducible assumption) | (with_reducible apply takeFault_inv)

theorem faultDue_inv (s : State) (c code info slot : Nat) (hInv : s.Good nF fl) : (faultDue s c code info slot).Good nF fl := by
  unfold faultDue
  repeat' first | (with_reducible assumption) | (with_reducible apply postFault_inv)

theorem skipBundle_inv (s : State) (c : Nat) (hInv : s.Good nF fl) : (skipBundle s c).Good nF fl := by
  unfold skipBundle
  repeat'
    first
      | (with_reducible assumption) | (with_reducible apply faultDue_inv) | (with_reducible apply fallOn_inv)
      | (with_reducible apply modCtx_inv) | (with_reducible apply inv_ite; rotate_left; intro _)
      | ((with_reducible refine inv_mk rfl ?_); first | with_reducible assumption | with_reducible apply faultDue_inv | with_reducible apply fallOn_inv | with_reducible apply modCtx_inv | (with_reducible apply inv_ite; rotate_left; intro _) | split)
      | (split) | (dsimp only)

theorem skipAll_inv (n : Nat) (first : Bool) (s : State) (c : Nat) (hInv : s.Good nF fl) : (skipAll n first s c).Good nF fl := by
  induction n generalizing s first with
  | zero => exact hInv
  | succ n ih =>
    unfold skipAll
    split
    · exact ih _ _ (skipBundle_inv _ _ hInv)
    · exact hInv

theorem landAndSkip_inv (s : State) (c : Nat) (hInv : s.Good nF fl) : (landAndSkip s c).Good nF fl := by
  unfold landAndSkip
  repeat'
    first
      | (with_reducible assumption) | (with_reducible apply skipAll_inv) | (with_reducible apply modCtx_inv)
      | (with_reducible apply landResults_inv)
      | ((with_reducible refine inv_mk rfl ?_); first | with_reducible assumption | with_reducible apply skipAll_inv | with_reducible apply modCtx_inv | with_reducible apply landResults_inv)
      | (dsimp only)

theorem countRows_inv (s : State) (c rows : Nat) (hInv : s.Good nF fl) : (countRows s c rows).Good nF fl := by
  unfold countRows
  repeat'
    first
      | (with_reducible assumption) | (with_reducible apply modStall_inv) | (with_reducible apply inv_ite; rotate_left; intro _)
      | ((with_reducible refine inv_mk rfl ?_); first | with_reducible assumption | with_reducible apply modStall_inv | (with_reducible apply inv_ite; rotate_left; intro _) | split)
      | (split) | (dsimp only)

theorem drainAt_inv (s : State) (c : Nat) (hInv : s.Good nF fl) : (drainAt s c).Good nF fl := by
  unfold drainAt
  repeat'
    first
      | (with_reducible assumption) | (with_reducible apply modCtx_inv) | (with_reducible apply inv_ite; rotate_left; intro _)
      | ((with_reducible refine inv_mk rfl ?_); first | with_reducible assumption | with_reducible apply modCtx_inv | (with_reducible apply inv_ite; rotate_left; intro _) | split)
      | (split) | (dsimp only)

theorem serveRequest_inv (s : State) (c cause : Nat) (hInv : s.Good nF fl) : (serveRequest s c cause).Good nF fl := by
  unfold serveRequest
  repeat'
    first
      | (with_reducible assumption) | (with_reducible apply enterService_inv) | (with_reducible apply modCtx_inv)
      | ((with_reducible refine inv_mk rfl ?_); first | with_reducible assumption | with_reducible apply enterService_inv | with_reducible apply modCtx_inv)
      | (dsimp only)

theorem expireDeadline_inv (s : State) (c : Nat) (hInv : s.Good nF fl) : (expireDeadline s c).Good nF fl := by
  unfold expireDeadline
  repeat'
    first
      | (with_reducible assumption) | (with_reducible apply drainAt_inv) | (with_reducible apply serveRequest_inv)
      | (with_reducible apply modCtx_inv)
      | ((with_reducible refine inv_mk rfl ?_); first | with_reducible assumption | with_reducible apply drainAt_inv | with_reducible apply serveRequest_inv | with_reducible apply modCtx_inv)
      | (dsimp only)

theorem landCtx_inv (s : State) (c : Nat) (hInv : s.Good nF fl) : (landCtx s c).Good nF fl := by
  unfold landCtx
  repeat'
    first
      | (with_reducible assumption) | (with_reducible apply replayFills_inv) | (with_reducible apply driftFlights_inv)
      | (with_reducible apply expireDeadline_inv) | (with_reducible apply keepWaiting_inv)
      | (with_reducible apply landAndSkip_inv) | (with_reducible apply foreseeDx_inv) | (with_reducible apply acceptFills_inv)
      | (with_reducible apply countRows_inv) | (with_reducible apply makeUses_inv) | (with_reducible apply modCtx_inv)
      | (with_reducible apply inv_ite; rotate_left; intro _)
      | ((with_reducible refine inv_mk rfl ?_); first | with_reducible assumption | with_reducible apply replayFills_inv | with_reducible apply driftFlights_inv | with_reducible apply expireDeadline_inv | with_reducible apply keepWaiting_inv | with_reducible apply landAndSkip_inv | with_reducible apply foreseeDx_inv | with_reducible apply acceptFills_inv | with_reducible apply countRows_inv | with_reducible apply makeUses_inv | with_reducible apply modCtx_inv | (with_reducible apply inv_ite; rotate_left; intro _) | split)
      | (split) | (dsimp only)

theorem commitSegment_inv (s : State) (c : Nat) (hInv : s.Good nF fl) : (commitSegment s c).Good nF fl := by
  unfold commitSegment
  repeat'
    first
      | (with_reducible assumption) | (with_reducible apply modCtx_inv)
      | ((with_reducible refine inv_mk rfl ?_); first | with_reducible assumption | with_reducible apply modCtx_inv)
      | (dsimp only)

theorem enterSegment_inv (s : State) (c : Nat) (hInv : s.Good nF fl) : (enterSegment s c).Good nF fl := by
  unfold enterSegment
  repeat'
    first
      | (with_reducible assumption) | (with_reducible apply auditEntry_inv) | (with_reducible apply commitSegment_inv)
      | (with_reducible apply modCtx_inv) | (with_reducible apply inv_ite; rotate_left; intro _)
      | ((with_reducible refine inv_mk rfl ?_); first | with_reducible assumption | with_reducible apply auditEntry_inv | with_reducible apply commitSegment_inv | with_reducible apply modCtx_inv | (with_reducible apply inv_ite; rotate_left; intro _) | split)
      | (split) | (dsimp only)

theorem correctIssue_inv (s : State) (c : Nat) (sl : List (Nat × SlotOp)) (hInv : s.Good nF fl) :
    (correctIssue s c sl).Good nF fl := by
  unfold correctIssue
  repeat'
    first
      | (with_reducible assumption) | (with_reducible apply correctMark_inv)
      | (with_reducible apply inv_ite; rotate_left; intro _) | (with_reducible apply inv_foldl; rotate_left; intro _ _ _)
      | (split) | (dsimp only)

theorem issueBundle_inv (s : State) (c : Nat) (sl : List (Nat × SlotOp)) (hInv : s.Good nF fl) :
    (issueBundle s c sl).Good nF fl := by
  unfold issueBundle
  repeat'
    first
      | (with_reducible assumption) | (with_reducible apply enterSlot_inv) | (with_reducible apply modCtx_inv)
      | (with_reducible apply enterSegment_inv) | (with_reducible apply auditBundle_inv)
      | (with_reducible apply correctIssue_inv) | (with_reducible apply modLaunch_inv) | (with_reducible apply modStall_inv)
      | (with_reducible apply inv_ite; rotate_left; intro _)
      | ((with_reducible refine inv_mk rfl ?_); first | with_reducible assumption | with_reducible apply enterSlot_inv | with_reducible apply modCtx_inv | with_reducible apply enterSegment_inv | with_reducible apply auditBundle_inv | with_reducible apply correctIssue_inv | with_reducible apply modLaunch_inv | with_reducible apply modStall_inv | (with_reducible apply inv_ite; rotate_left; intro _) | split)
      | (split) | (dsimp only)

theorem deliverHit_inv (s : State) (c : Nat) (h : Hit) (hInv : s.Good nF fl) : (deliverHit s c h).Good nF fl := by
  unfold deliverHit
  repeat'
    first
      | (with_reducible assumption) | (with_reducible apply postFault_inv) | (with_reducible apply modCtx_inv)
      | (with_reducible apply inv_ite; rotate_left; intro _)
      | ((with_reducible refine inv_mk rfl ?_); first | with_reducible assumption | with_reducible apply postFault_inv | with_reducible apply modCtx_inv | (with_reducible apply inv_ite; rotate_left; intro _) | split)
      | (split) | (dsimp only)

theorem deliverTap_inv (s : State) (c pc cycle : Nat) (hInv : s.Good nF fl) : (deliverTap s c pc cycle).Good nF fl := by
  unfold deliverTap
  repeat' first | (with_reducible assumption) | (with_reducible apply postFault_inv)

theorem haltCtx_inv (s : State) (c : Nat) (hInv : s.Good nF fl) : (haltCtx s c).Good nF fl := by
  unfold haltCtx
  repeat'
    first
      | (with_reducible assumption) | (with_reducible apply modCtx_inv) | (with_reducible apply serveRequest_inv)
      | (with_reducible apply inv_ite; rotate_left; intro _)
      | ((with_reducible refine inv_mk rfl ?_); first | with_reducible assumption | with_reducible apply modCtx_inv | with_reducible apply serveRequest_inv | (with_reducible apply inv_ite; rotate_left; intro _) | split)
      | (split) | (dsimp only)

theorem settleAfter_inv (s : State) (c : Nat) (hInv : s.Good nF fl) : (settleAfter s c).Good nF fl := by
  unfold settleAfter
  repeat'
    first
      | (with_reducible assumption) | (with_reducible apply modCtx_inv) | (with_reducible apply serveRequest_inv)
      | (with_reducible apply postFault_inv) | (with_reducible apply haltCtx_inv)
      | (with_reducible apply inv_ite; rotate_left; intro _)
      | ((with_reducible refine inv_mk rfl ?_); first | with_reducible assumption | with_reducible apply modCtx_inv | with_reducible apply serveRequest_inv | with_reducible apply postFault_inv | with_reducible apply haltCtx_inv | (with_reducible apply inv_ite; rotate_left; intro _) | split)
      | (split) | (dsimp only)

theorem afterBundle_inv (s : State) (c : Nat) (hInv : s.Good nF fl) : (afterBundle s c).Good nF fl := by
  unfold afterBundle
  repeat'
    first
      | (with_reducible assumption) | (with_reducible apply deliverTap_inv) | (with_reducible apply serveRequest_inv)
      | (with_reducible apply settleAfter_inv) | (with_reducible apply modCtx_inv)
      | (with_reducible apply inv_ite; rotate_left; intro _)
      | ((with_reducible refine inv_mk rfl ?_); first | with_reducible assumption | with_reducible apply deliverTap_inv | with_reducible apply serveRequest_inv | with_reducible apply settleAfter_inv | with_reducible apply modCtx_inv | (with_reducible apply inv_ite; rotate_left; intro _) | split)
      | (split) | (dsimp only)

theorem refillRows_inv (s : State) (c : Nat) (hInv : s.Good nF fl) : (refillRows s c).Good nF fl := by
  unfold refillRows
  repeat'
    first
      | (with_reducible assumption) | (with_reducible apply modCtx_inv) | (with_reducible apply putRecord_inv)
      | (with_reducible apply inv_ite; rotate_left; intro _) | (with_reducible apply inv_foldl; rotate_left; intro _ _ _)
      | ((with_reducible refine inv_mk rfl ?_); first | with_reducible assumption | with_reducible apply modCtx_inv | with_reducible apply putRecord_inv | (with_reducible apply inv_ite; rotate_left; intro _) | (with_reducible apply inv_foldl; rotate_left; intro _ _ _) | split)
      | (split) | (dsimp only)

theorem commitBundle_inv (s : State) (c : Nat) (hInv : s.Good nF fl) : (commitBundle s c).Good nF fl := by
  unfold commitBundle
  repeat'
    first
      | (with_reducible assumption) | (with_reducible apply modCtx_inv) | (with_reducible apply fallOn_inv)
      | (with_reducible apply acceptFills_inv) | (with_reducible apply tick_inv) | (with_reducible apply answerOps_inv)
      | (with_reducible apply foreseeDx_inv) | (with_reducible apply afterBundle_inv) | (with_reducible apply resumeServed_inv)
      | (with_reducible apply refillRows_inv) | (with_reducible apply commitSegment_inv) | (with_reducible apply drainAt_inv)
      | (with_reducible apply inv_ite; rotate_left; intro _)
      | ((with_reducible refine inv_mk rfl ?_); first | with_reducible assumption | with_reducible apply modCtx_inv | with_reducible apply fallOn_inv | with_reducible apply acceptFills_inv | with_reducible apply tick_inv | with_reducible apply answerOps_inv | with_reducible apply foreseeDx_inv | with_reducible apply afterBundle_inv | with_reducible apply resumeServed_inv | with_reducible apply refillRows_inv | with_reducible apply commitSegment_inv | with_reducible apply drainAt_inv | (with_reducible apply inv_ite; rotate_left; intro _) | split)
      | (split) | (dsimp only)

theorem checkDue_inv (s : State) (c : Nat) (hInv : s.Good nF fl) : (checkDue s c).Good nF fl := by
  unfold checkDue
  repeat'
    first
      | (with_reducible assumption) | (with_reducible apply endRun_inv) | (with_reducible apply deliverHit_inv)
      | (with_reducible apply keepWaiting_inv) | (with_reducible apply askProbe_inv) | (with_reducible apply issueBundle_inv)
      | (with_reducible apply inv_ite; rotate_left; intro _) | (split) | (dsimp only)

theorem releaseCtx_inv (s : State) (c : Nat) (hInv : s.Good nF fl) : (releaseCtx s c).Good nF fl := by
  unfold releaseCtx
  repeat'
    first
      | (with_reducible assumption) | (with_reducible apply endRun_inv) | (with_reducible apply outTrains_inv)
      | (with_reducible apply modCtx_inv) | (with_reducible apply releasePins_inv) | (with_reducible apply dropCapture_inv)
      | (with_reducible apply modLaunch_inv) | (with_reducible apply inv_ite; rotate_left; intro _)
      | (with_reducible apply inv_foldl; rotate_left; intro _ _ _)
      | ((with_reducible refine inv_mk rfl ?_); first | with_reducible assumption | with_reducible apply endRun_inv | with_reducible apply outTrains_inv | with_reducible apply modCtx_inv | with_reducible apply releasePins_inv | with_reducible apply dropCapture_inv | with_reducible apply modLaunch_inv | (with_reducible apply inv_ite; rotate_left; intro _) | (with_reducible apply inv_foldl; rotate_left; intro _ _ _) | split)
      | (split) | (dsimp only)

theorem drainCtx_inv (s : State) (c : Nat) (hInv : s.Good nF fl) : (drainCtx s c).Good nF fl := by
  unfold drainCtx
  repeat'
    first
      | (with_reducible assumption) | (with_reducible apply modCtx_inv) | (with_reducible apply tick_inv)
      | (with_reducible apply deliverHit_inv) | (with_reducible apply deliverTap_inv) | (with_reducible apply haltCtx_inv)
      | (with_reducible apply releaseCtx_inv) | (with_reducible apply inv_ite; rotate_left; intro _)
      | ((with_reducible refine inv_mk rfl ?_); first | with_reducible assumption | with_reducible apply modCtx_inv | with_reducible apply tick_inv | with_reducible apply deliverHit_inv | with_reducible apply deliverTap_inv | with_reducible apply haltCtx_inv | with_reducible apply releaseCtx_inv | (with_reducible apply inv_ite; rotate_left; intro _) | split)
      | (split) | (dsimp only)

theorem issueCtx_inv (s : State) (c : Nat) (hInv : s.Good nF fl) : (issueCtx s c).Good nF fl := by
  unfold issueCtx
  repeat'
    first
      | (with_reducible assumption) | (with_reducible apply replayFills_inv) | (with_reducible apply drainCtx_inv)
      | (with_reducible apply faultDue_inv) | (with_reducible apply tick_inv) | (with_reducible apply checkDue_inv)
      | (with_reducible apply inv_ite; rotate_left; intro _) | (split) | (dsimp only)

theorem execSegmentEntry_keeps (c : Nat) (s : State) (hInv : s.Good nF fl) : KeepsGood nF fl (execSegmentEntry c s) := by
  unfold execSegmentEntry
  repeat' first | (with_reducible apply keeps_next) | (with_reducible assumption) | (with_reducible apply enterSegment_inv)

theorem execYieldBundle_keeps (c : Nat) (s : State) (hInv : s.Good nF fl) : KeepsGood nF fl (execYieldBundle c s) := by
  unfold execYieldBundle
  repeat'
    first
      | (with_reducible apply keeps_next) | (with_reducible assumption) | (with_reducible apply afterBundle_inv)
      | (with_reducible apply modCtx_inv)
      | ((with_reducible refine inv_mk rfl ?_); first | with_reducible assumption | with_reducible apply afterBundle_inv | with_reducible apply modCtx_inv)
      | (dsimp only)

theorem execDeadlineExpiry_keeps (c : Nat) (s : State) (hInv : s.Good nF fl) : KeepsGood nF fl (execDeadlineExpiry c s) := by
  unfold execDeadlineExpiry
  repeat'
    first
      | (with_reducible apply keeps_next) | (with_reducible assumption) | (with_reducible apply expireDeadline_inv)
      | (with_reducible apply inv_ite; rotate_left; intro _) | (split) | (dsimp only)

theorem execCheckRetest_keeps (c : Nat) (s : State) (hInv : s.Good nF fl) : KeepsGood nF fl (execCheckRetest c s) := by
  unfold execCheckRetest
  repeat' first | (with_reducible apply keeps_next) | (with_reducible assumption) | (with_reducible apply issueCtx_inv)

theorem execOffdieLoadLanding_keeps (c id : Nat) (s : State) (hInv : s.Good nF fl) :
    KeepsGood nF fl (execOffdieLoadLanding c id s) := by
  unfold execOffdieLoadLanding
  repeat'
    first
      | (with_reducible apply keeps_next) | (with_reducible assumption) | (with_reducible apply landCtx_inv)
      | (with_reducible apply inv_ite; rotate_left; intro _) | (split) | (dsimp only)

theorem execContextRelease_keeps (c : Nat) (s : State) (hInv : s.Good nF fl) : KeepsGood nF fl (execContextRelease c s) := by
  unfold execContextRelease
  repeat'
    first
      | (with_reducible apply keeps_next) | (with_reducible assumption) | (with_reducible apply releaseCtx_inv)
      | (with_reducible apply inv_ite; rotate_left; intro _) | (split) | (dsimp only)

theorem execRendezvousRelease_keeps (l group : Nat) (s : State) (hInv : s.Good nF fl) :
    KeepsGood nF fl (execRendezvousRelease l group s) := by
  unfold execRendezvousRelease
  repeat'
    first
      | (with_reducible apply keeps_next) | (with_reducible assumption)
      | ((with_reducible refine inv_mk rfl ?_); first | with_reducible assumption)

theorem releaseBar_inv (s : State) (n g yard : Nat) (hInv : s.Good nF fl) : (releaseBar s n g yard).Good nF fl := by
  unfold releaseBar
  repeat'
    first
      | (with_reducible assumption) | (with_reducible apply modCtx_inv) | (with_reducible apply inv_ite; rotate_left; intro _)
      | (with_reducible apply inv_foldl; rotate_left; intro _ _ _)
      | ((with_reducible refine inv_mk rfl ?_); first | with_reducible assumption | with_reducible apply modCtx_inv | (with_reducible apply inv_ite; rotate_left; intro _) | (with_reducible apply inv_foldl; rotate_left; intro _ _ _) | split)
      | (split) | (dsimp only)

theorem execBarrierRelease_keeps (l group yard : Nat) (s : State) (hInv : s.Good nF fl) :
    KeepsGood nF fl (execBarrierRelease l group yard s) := by
  unfold execBarrierRelease
  repeat' first | (with_reducible apply keeps_next) | (with_reducible assumption) | (with_reducible apply releaseBar_inv)

theorem execMxwinWrite_keeps (c code : Nat) (s : State) (hInv : s.Good nF fl) : KeepsGood nF fl (execMxwinWrite c code s) := by
  unfold execMxwinWrite
  repeat' first | (with_reducible apply keeps_next) | (with_reducible assumption) | (with_reducible apply writeMxwin_inv)

theorem takeMxwin_inv (s : State) (sb : Nat) (hInv : s.Good nF fl) : (takeMxwin s sb).Good nF fl := by
  unfold takeMxwin
  repeat'
    first
      | (with_reducible assumption) | (with_reducible apply modStable_inv) | (with_reducible apply inv_ite; rotate_left; intro _)
      | ((with_reducible refine inv_mk rfl ?_); first | with_reducible assumption | with_reducible apply modStable_inv | (with_reducible apply inv_ite; rotate_left; intro _) | split)
      | (split) | (dsimp only)

theorem execMxwinTakesEffect_keeps (stable : Nat) (s : State) (hInv : s.Good nF fl) :
    KeepsGood nF fl (execMxwinTakesEffect stable s) := by
  unfold execMxwinTakesEffect
  repeat' first | (with_reducible apply keeps_next) | (with_reducible assumption) | (with_reducible apply takeMxwin_inv)

theorem addMark_inv (s : State) (k : Mark) (hInv : s.Good nF fl) : (addMark s k).Good nF fl := by
  unfold addMark
  repeat'
    first
      | (with_reducible assumption) | ((with_reducible refine inv_mk rfl ?_); first | with_reducible assumption | split)
      | (split) | (dsimp only)

theorem strikeBank_inv (s : State) (m : Mark) (hInv : s.Good nF fl) : (strikeBank s m).Good nF fl := by
  unfold strikeBank
  repeat'
    first
      | (with_reducible assumption) | (with_reducible apply modCtx_inv)
      | ((with_reducible refine inv_mk rfl ?_); first | with_reducible assumption | with_reducible apply modCtx_inv)
      | (dsimp only)

theorem strikeScratch_inv (s : State) (m : Mark) (hInv : s.Good nF fl) : (strikeScratch s m).Good nF fl := by
  unfold strikeScratch
  repeat'
    first
      | (with_reducible assumption) | (with_reducible apply modCtx_inv) | (with_reducible apply strikeBank_inv)
      | (with_reducible apply inv_ite; rotate_left; intro _)
      | ((with_reducible refine inv_mk rfl ?_); first | with_reducible assumption | with_reducible apply modCtx_inv | with_reducible apply strikeBank_inv | (with_reducible apply inv_ite; rotate_left; intro _) | split)
      | (split) | (dsimp only)

theorem strikeAcc_inv (s : State) (m : Mark) (hInv : s.Good nF fl) : (strikeAcc s m).Good nF fl := by
  unfold strikeAcc
  repeat'
    first
      | (with_reducible assumption) | (with_reducible apply modCtx_inv) | (with_reducible apply inv_ite; rotate_left; intro _)
      | ((with_reducible refine inv_mk rfl ?_); first | with_reducible assumption | with_reducible apply modCtx_inv | (with_reducible apply inv_ite; rotate_left; intro _) | split)
      | (split) | (dsimp only)

theorem strikeArray_inv (s : State) (m : Mark) (hInv : s.Good nF fl) : (strikeArray s m).Good nF fl := by
  unfold strikeArray
  repeat'
    first
      | (with_reducible assumption) | (with_reducible apply modCtx_inv)
      | ((with_reducible refine inv_mk rfl ?_); first | with_reducible assumption | with_reducible apply modCtx_inv | split)
      | (split) | (dsimp only)

theorem strikeDie_inv (s : State) (m : Mark) (hInv : s.Good nF fl) : (strikeDie s m).Good nF fl := by
  unfold strikeDie
  repeat'
    first
      | (with_reducible assumption) | (with_reducible apply corrected_inv) | (with_reducible apply postFault_inv)
      | (with_reducible apply endLaunch_inv) | (with_reducible apply inv_ite; rotate_left; intro _)
      | ((with_reducible refine inv_mk rfl ?_); first | with_reducible assumption | with_reducible apply corrected_inv | with_reducible apply postFault_inv | with_reducible apply endLaunch_inv | (with_reducible apply inv_ite; rotate_left; intro _) | split)
      | (split) | (dsimp only)

theorem strike_inv (s : State) (m : Mark) (hInv : s.Good nF fl) : (strike s m).Good nF fl := by
  unfold strike
  repeat'
    first
      | (with_reducible assumption) | (with_reducible apply strikeBank_inv) | (with_reducible apply strikeScratch_inv)
      | (with_reducible apply strikeAcc_inv) | (with_reducible apply strikeArray_inv) | (with_reducible apply strikeDie_inv)
      | (with_reducible apply addMark_inv) | (with_reducible apply inv_ite; rotate_left; intro _) | (split) | (dsimp only)

theorem takeStrikes_inv (s : State) (hInv : s.Good nF fl) : (takeStrikes s).Good nF fl := by
  unfold takeStrikes
  repeat'
    first
      | (with_reducible assumption) | (with_reducible apply strike_inv) | (with_reducible apply inv_ite; rotate_left; intro _)
      | (with_reducible apply inv_foldl; rotate_left; intro _ _ _)
      | ((with_reducible refine inv_mk rfl ?_); first | with_reducible assumption | with_reducible apply strike_inv | (with_reducible apply inv_ite; rotate_left; intro _) | (with_reducible apply inv_foldl; rotate_left; intro _ _ _) | split)
      | (split) | (dsimp only)

theorem scrubPass_inv (s : State) (hInv : s.Good nF fl) : (scrubPass s).Good nF fl := by
  unfold scrubPass
  repeat'
    first
      | (with_reducible assumption) | (with_reducible apply correctAll_inv) | (with_reducible apply findBad_inv)
      | (with_reducible apply poisonRecord_inv) | (with_reducible apply inv_foldl; rotate_left; intro _ _ _)
      | (with_reducible apply inv_elim; rotate_left; intro _) | (dsimp only)

theorem ageSieves_inv (s : State) (hInv : s.Good nF fl) : (ageSieves s).Good nF fl := by
  unfold ageSieves
  repeat'
    first
      | (with_reducible assumption) | ((with_reducible refine inv_mk rfl ?_); first | with_reducible assumption) | (dsimp only)

theorem damagePacket_inv (s : State) (sb : Nat) (hInv : s.Good nF fl) : (damagePacket s sb).Good nF fl := by
  unfold damagePacket
  repeat'
    first
      | (with_reducible assumption) | (with_reducible apply modCtx_inv) | (with_reducible apply inv_ite; rotate_left; intro _)
      | ((with_reducible refine inv_mk rfl ?_); first | with_reducible assumption | with_reducible apply modCtx_inv | (with_reducible apply inv_ite; rotate_left; intro _) | split)
      | (split) | (dsimp only)

theorem execScrubPass_keeps (s : State) (hInv : s.Good nF fl) : KeepsGood nF fl (execScrubPass s) := by
  unfold execScrubPass
  repeat' first | (with_reducible apply keeps_next) | (with_reducible assumption) | (with_reducible apply scrubPass_inv)

theorem execSieveAgeing_keeps (s : State) (hInv : s.Good nF fl) : KeepsGood nF fl (execSieveAgeing s) := by
  unfold execSieveAgeing
  repeat' first | (with_reducible apply keeps_next) | (with_reducible assumption) | (with_reducible apply ageSieves_inv)

theorem draw_inv (s : State) (hInv : s.Good nF fl) : (draw s).2.Good nF fl := by
  unfold draw
  repeat' first | (with_reducible assumption) | ((with_reducible refine inv_mk rfl ?_); first | with_reducible assumption)

theorem draw_pair (s : State) (hInv : s.Good nF fl) {tNext : State} {xNext : Bool} (he : draw s = (xNext, tNext)) :
    tNext.Good nF fl := by
  have := draw_inv s hInv
  rwa [he] at this

theorem pulse_inv (s : State) (n : Nat) (hInv : s.Good nF fl) : (pulse s n).2.Good nF fl := by
  unfold pulse
  repeat'
    first
      | (with_reducible assumption) | (with_reducible apply draw_inv)
      | (with_reducible refine draw_pair (he := by assumption) (hInv := ?_) ..) | (with_reducible apply modYard_inv)
      | (with_reducible apply inv_ite; rotate_left; intro _)
      | ((with_reducible refine inv_mk rfl ?_); first | with_reducible assumption | with_reducible apply draw_inv | (with_reducible refine draw_pair (he := by assumption) (hInv := ?_) ..) | with_reducible apply modYard_inv | (with_reducible apply inv_ite; rotate_left; intro _) | split)
      | (split) | (dsimp only)

theorem pulse_pair (s : State) (n : Nat) (hInv : s.Good nF fl) {tNext : State} {xNext : Bool} (he : pulse s n = (xNext, tNext)) :
    tNext.Good nF fl := by
  have := pulse_inv s n hInv
  rwa [he] at this

theorem coolArray_inv (s : State) (sb : Nat) (hInv : s.Good nF fl) : (coolArray s sb).Good nF fl := by
  unfold coolArray
  repeat'
    first
      | (with_reducible assumption) | (with_reducible apply modYard_inv) | (with_reducible apply modStable_inv)
      | (with_reducible apply inv_ite; rotate_left; intro _)
      | ((with_reducible refine inv_mk rfl ?_); first | with_reducible assumption | with_reducible apply modYard_inv | with_reducible apply modStable_inv | (with_reducible apply inv_ite; rotate_left; intro _) | split)
      | (split) | (dsimp only)

theorem forgetPast_inv (s : State) (sb : Nat) (hInv : s.Good nF fl) : (forgetPast s sb).Good nF fl := by
  unfold forgetPast
  repeat'
    first
      | (with_reducible assumption) | (with_reducible apply modStable_inv) | (with_reducible apply inv_ite; rotate_left; intro _)
      | ((with_reducible refine inv_mk rfl ?_); first | with_reducible assumption | with_reducible apply modStable_inv | (with_reducible apply inv_ite; rotate_left; intro _) | split)
      | (split) | (dsimp only)

theorem chargeSignal_inv (s : State) (sb : Nat) (g : Signal) (hInv : s.Good nF fl) : (chargeSignal s sb g).Good nF fl := by
  unfold chargeSignal
  repeat'
    first
      | (with_reducible assumption) | (with_reducible apply modCtx_inv) | (with_reducible apply inv_ite; rotate_left; intro _)
      | (split) | (dsimp only)

theorem openStable_inv (s : State) (sb : Nat) (hInv : s.Good nF fl) : (openStable s sb).Good nF fl := by
  unfold openStable
  repeat'
    first
      | (with_reducible assumption) | (with_reducible apply forgetPast_inv) | (with_reducible apply coolArray_inv)
      | (with_reducible apply takeMxwin_inv) | (with_reducible apply chargeSignal_inv)
      | (with_reducible apply inv_foldl; rotate_left; intro _ _ _) | (dsimp only)

theorem stepJob_inv (s : State) (sb : Nat) (passes : Bool) (j : Job) (hInv : s.Good nF fl) :
    (stepJob s sb passes j).Good nF fl := by
  unfold stepJob
  repeat'
    first
      | (with_reducible assumption) | (with_reducible apply modStable_inv) | (with_reducible apply endJob_inv)
      | (with_reducible apply chargeJob_inv) | (with_reducible apply inv_ite; rotate_left; intro _)
      | ((with_reducible refine inv_mk rfl ?_); first | with_reducible assumption | with_reducible apply modStable_inv | with_reducible apply endJob_inv | with_reducible apply chargeJob_inv | (with_reducible apply inv_ite; rotate_left; intro _) | split)
      | (split) | (dsimp only)

theorem stepJobs_inv (s : State) (n slot : Nat) (hInv : s.Good nF fl) : (stepJobs s n slot).Good nF fl := by
  unfold stepJobs
  repeat'
    first
      | (with_reducible assumption) | (with_reducible apply stepJob_inv)
      | (with_reducible apply inv_foldl; rotate_left; intro _ _ _) | (dsimp only)

theorem spanYard_inv (s : State) (n : Nat) (hInv : s.Good nF fl) : (spanYard s n).Good nF fl := by
  unfold spanYard
  repeat'
    first
      | (with_reducible assumption) | (with_reducible apply modYard_inv) | (with_reducible apply inv_ite; rotate_left; intro _)
      | ((with_reducible refine inv_mk rfl ?_); first | with_reducible assumption | with_reducible apply modYard_inv | (with_reducible apply inv_ite; rotate_left; intro _) | split)
      | (split) | (dsimp only)

theorem capEvent_inv (s : State) (n : Nat) (hInv : s.Good nF fl) : (capEvent s n).Good nF fl := by
  unfold capEvent
  repeat'
    first
      | (with_reducible assumption) | (with_reducible apply postEvent_inv) | (with_reducible apply inv_ite; rotate_left; intro _)
      | (split) | (dsimp only)

theorem openYard_inv (s : State) (n : Nat) (hInv : s.Good nF fl) : (openYard s n).Good nF fl := by
  unfold openYard
  repeat'
    first
      | (with_reducible assumption) | (with_reducible apply capEvent_inv) | (with_reducible apply spanYard_inv)
      | (with_reducible apply modYard_inv) | (with_reducible apply pulse_inv)
      | (with_reducible refine pulse_pair (he := by assumption) (hInv := ?_) ..) | (with_reducible apply openStable_inv)
      | (with_reducible apply inv_ite; rotate_left; intro _) | (with_reducible apply inv_foldl; rotate_left; intro _ _ _)
      | ((with_reducible refine inv_mk rfl ?_); first | with_reducible assumption | with_reducible apply capEvent_inv | with_reducible apply spanYard_inv | with_reducible apply modYard_inv | with_reducible apply pulse_inv | (with_reducible refine pulse_pair (he := by assumption) (hInv := ?_) ..) | with_reducible apply openStable_inv | (with_reducible apply inv_ite; rotate_left; intro _) | (with_reducible apply inv_foldl; rotate_left; intro _ _ _) | split)
      | (split) | (dsimp only)

theorem closeStable_inv (s : State) (sb : Nat) (hInv : s.Good nF fl) : (closeStable s sb).Good nF fl := by
  unfold closeStable
  repeat'
    first
      | (with_reducible assumption) | (with_reducible apply jobWrite_inv) | (with_reducible apply roundWrite_inv)
      | (with_reducible apply applyPacket_inv) | (with_reducible apply modStable_inv)
      | (with_reducible apply inv_ite; rotate_left; intro _) | (with_reducible apply inv_foldl; rotate_left; intro _ _ _)
      | ((with_reducible refine inv_mk rfl ?_); first | with_reducible assumption | with_reducible apply jobWrite_inv | with_reducible apply roundWrite_inv | with_reducible apply applyPacket_inv | with_reducible apply modStable_inv | (with_reducible apply inv_ite; rotate_left; intro _) | (with_reducible apply inv_foldl; rotate_left; intro _ _ _) | split)
      | (split) | (dsimp only)

theorem closeBars_inv (s : State) (n : Nat) (hInv : s.Good nF fl) : (closeBars s n).Good nF fl := by
  unfold closeBars
  repeat'
    first
      | (with_reducible assumption) | (with_reducible apply releaseBar_inv)
      | (with_reducible apply inv_ite; rotate_left; intro _) | (with_reducible apply inv_foldl; rotate_left; intro _ _ _)
      | (split) | (dsimp only)

theorem closeYard_inv (s : State) (n : Nat) (hInv : s.Good nF fl) : (closeYard s n).Good nF fl := by
  unfold closeYard
  repeat'
    first
      | (with_reducible assumption) | (with_reducible apply closeBars_inv) | (with_reducible apply closeStable_inv)
      | (with_reducible apply inv_foldl; rotate_left; intro _ _ _)

theorem takeFloors_inv (s : State) (hInv : s.Good nF fl) : (takeFloors s).Good nF fl := by
  unfold takeFloors
  repeat'
    first
      | (with_reducible assumption) | ((with_reducible refine inv_mk rfl ?_); first | with_reducible assumption) | (dsimp only)

theorem referencePeriod_inv (s : State) (hInv : s.Good nF fl) : (referencePeriod s).Good nF fl := by
  unfold referencePeriod
  repeat'
    first
      | (with_reducible assumption) | (with_reducible apply formQuote_inv) | (with_reducible apply takeStrikes_inv)
      | (with_reducible apply takeFloors_inv) | (with_reducible apply openYard_inv)
      | (with_reducible apply inv_foldl; rotate_left; intro _ _ _)
      | ((with_reducible refine inv_mk rfl ?_); first | with_reducible assumption | with_reducible apply formQuote_inv | with_reducible apply takeStrikes_inv | with_reducible apply takeFloors_inv | with_reducible apply openYard_inv | (with_reducible apply inv_foldl; rotate_left; intro _ _ _))
      | (dsimp only)

theorem execYardCycle_keeps (s : State) (hInv : s.Good nF fl) : KeepsGood nF fl (execYardCycle s) := by
  unfold execYardCycle
  repeat' first | (with_reducible apply keeps_next) | (with_reducible assumption) | (with_reducible apply referencePeriod_inv)

theorem execArrayCold_keeps (stable : Nat) (s : State) (hInv : s.Good nF fl) : KeepsGood nF fl (execArrayCold stable s) := by
  unfold execArrayCold
  repeat' first | (with_reducible apply keeps_next) | (with_reducible assumption) | (with_reducible apply coolArray_inv)

theorem arrivePackets_inv (s : State) (sb : Nat) (hInv : s.Good nF fl) : (arrivePackets s sb).Good nF fl := by
  unfold arrivePackets
  repeat'
    first
      | (with_reducible assumption) | (with_reducible apply applyPacket_inv) | (with_reducible apply modStable_inv)
      | (with_reducible apply inv_foldl; rotate_left; intro _ _ _)
      | ((with_reducible refine inv_mk rfl ?_); first | with_reducible assumption | with_reducible apply applyPacket_inv | with_reducible apply modStable_inv | (with_reducible apply inv_foldl; rotate_left; intro _ _ _) | split)
      | (split) | (dsimp only)

theorem execRedsApply_keeps (stable : Nat) (s : State) (hInv : s.Good nF fl) : KeepsGood nF fl (execRedsApply stable s) := by
  unfold execRedsApply
  repeat' first | (with_reducible apply keeps_next) | (with_reducible assumption) | (with_reducible apply arrivePackets_inv)

end Sys2Proof.Machine
end

