-- ==== Sys2Proof/Laws/KeepModule.lean ====
section
/-!
SUPPORT. What each operation of Offcore, Gen, Records, Place, Launch, Rewind, Hang keeps: the invariant of every step (generated by form, one lemma for each operation).
-/

namespace Sys2Proof.Machine

variable {nF : Nat} {fl : List Host.Cell}

theorem correctRanges_inv (s : State) (rs : List (Tensor × Nat × Nat)) (hInv : s.Good nF fl) :
    (correctRanges s rs).Good nF fl := by
  unfold correctRanges
  repeat'
    first
      | (with_reducible assumption) | (with_reducible apply correctAll_inv)
      | (with_reducible apply inv_ite; rotate_left; intro _) | (split) | (dsimp only)

theorem foundRanges_inv (s : State) (rs : List (Tensor × Nat × Nat)) (hInv : s.Good nF fl) : (foundRanges s rs).Good nF fl := by
  unfold foundRanges
  repeat'
    first
      | (with_reducible assumption) | (with_reducible apply findBad_inv) | (with_reducible apply inv_ite; rotate_left; intro _)
      | (split) | (dsimp only)

theorem portFault_inv (s : State) (c : Nat) (o : OffOp) (code info : Nat) (hInv : s.Good nF fl) :
    (portFault s c o code info).Good nF fl := by
  unfold portFault
  repeat' first | (with_reducible assumption) | (with_reducible apply modCtx_inv) | (dsimp only)

theorem performStore_inv (s : State) (c : Nat) (o : OffOp) (tid : Nat) (off : Int) (n : Nat) (data : Bool) (codes : Nat) (scale : Option (ScaleRef × BitVec 1024)) (hInv : s.Good nF fl) :
    (performStore s c o tid off n data codes scale).Good nF fl := by
  unfold performStore
  repeat'
    first
      | (with_reducible assumption) | (with_reducible apply tensorWrite_inv) | (with_reducible apply opDone_inv)
      | (with_reducible apply opUnder_inv) | (with_reducible apply portFault_inv)
      | (with_reducible apply inv_ite; rotate_left; intro _) | (with_reducible apply inv_elim; rotate_left; intro _) | (split)
      | (dsimp only)

theorem keepTrace_inv (s : State) (c : Nat) (o : OffOp) (u : Undo) (hInv : s.Good nF fl) : (keepTrace s c o u).Good nF fl := by
  unfold keepTrace
  repeat'
    first
      | (with_reducible assumption) | (with_reducible apply modCtx_inv) | (with_reducible apply inv_ite; rotate_left; intro _)
      | ((with_reducible refine inv_mk rfl ?_); first | with_reducible assumption | with_reducible apply modCtx_inv | (with_reducible apply inv_ite; rotate_left; intro _) | split)
      | (split) | (dsimp only)

theorem performPop_inv (s : State) (c : Nat) (o : OffOp) (hInv : s.Good nF fl) : (performPop s c o).Good nF fl := by
  unfold performPop
  repeat'
    first
      | (with_reducible assumption) | (with_reducible apply modLaunch_inv) | (with_reducible apply opDone_inv)
      | (with_reducible apply keepTrace_inv)
      | ((with_reducible refine inv_mk rfl ?_); first | with_reducible assumption | with_reducible apply modLaunch_inv | with_reducible apply opDone_inv | with_reducible apply keepTrace_inv | split)
      | (split) | (dsimp only)

theorem performDiscard_inv (s : State) (c : Nat) (o : OffOp) (tid off len : Nat) (hInv : s.Good nF fl) :
    (performDiscard s c o tid off len).Good nF fl := by
  unfold performDiscard
  repeat'
    first
      | (with_reducible assumption) | (with_reducible apply opDone_inv) | (with_reducible apply modCtx_inv)
      | (with_reducible apply putEntry_inv) | (with_reducible apply inv_ite; rotate_left; intro _)
      | (with_reducible apply inv_foldl; rotate_left; intro _ _ _)
      | ((with_reducible refine inv_mk rfl ?_); first | with_reducible assumption | with_reducible apply opDone_inv | with_reducible apply modCtx_inv | with_reducible apply putEntry_inv | (with_reducible apply inv_ite; rotate_left; intro _) | (with_reducible apply inv_foldl; rotate_left; intro _ _ _) | split)
      | (split) | (dsimp only)

theorem performDx_inv (s : State) (c : Nat) (o : OffOp) (job : Nat) (hInv : s.Good nF fl) : (performDx s c o job).Good nF fl := by
  unfold performDx
  repeat'
    first
      | (with_reducible assumption) | (with_reducible apply opUnder_inv) | (with_reducible apply dxArrive_inv)
      | (with_reducible apply portFault_inv) | (with_reducible apply inv_ite; rotate_left; intro _)
      | (with_reducible apply inv_elim; rotate_left; intro _) | (split) | (dsimp only)

theorem meter_inv (s : State) (c : Nat) (ranges : List (Nat × Nat)) (hInv : s.Good nF fl) : (meter s c ranges).Good nF fl := by
  unfold meter
  repeat'
    first
      | (with_reducible assumption) | (with_reducible apply modLaunch_inv)
      | (with_reducible apply inv_foldl; rotate_left; intro _ _ _)
      | ((with_reducible refine inv_mk rfl ?_); first | with_reducible assumption | with_reducible apply modLaunch_inv | (with_reducible apply inv_foldl; rotate_left; intro _ _ _))
      | (dsimp only)

theorem takeEffect_inv (s : State) (c : Nat) (o : OffOp) (hInv : s.Good nF fl) : (takeEffect s c o).Good nF fl := by
  unfold takeEffect
  repeat'
    first
      | (with_reducible assumption) | (with_reducible apply opDone_inv) | (with_reducible apply performStore_inv)
      | (with_reducible apply performPop_inv) | (with_reducible apply performDiscard_inv) | (with_reducible apply performDx_inv)
      | (with_reducible apply opUnder_inv) | (with_reducible apply modStable_inv)
      | ((with_reducible refine inv_mk rfl ?_); first | with_reducible assumption | with_reducible apply opDone_inv | with_reducible apply performStore_inv | with_reducible apply performPop_inv | with_reducible apply performDiscard_inv | with_reducible apply performDx_inv | with_reducible apply opUnder_inv | with_reducible apply modStable_inv | split)
      | (split) | (dsimp only)

theorem endDropped_inv (s : State) (c : Nat) (o : OffOp) (hInv : s.Good nF fl) : (endDropped s c o).Good nF fl := by
  unfold endDropped
  repeat'
    first
      | (with_reducible assumption) | (with_reducible apply opDone_inv) | (with_reducible apply opUnder_inv)
      | (with_reducible apply dxArrive_inv) | (with_reducible apply portFault_inv) | (split) | (dsimp only)

theorem dropHostOp_inv (s : State) (c : Nat) (o : OffOp) (hInv : s.Good nF fl) : (dropHostOp s c o).Good nF fl := by
  unfold dropHostOp
  repeat'
    first
      | (with_reducible assumption) | (with_reducible apply endDropped_inv) | (with_reducible apply reportLines_inv)
      | (with_reducible apply inv_ite; rotate_left; intro _) | (split) | (dsimp only)

theorem performOp_inv (s : State) (c id : Nat) (hInv : s.Good nF fl) : (performOp s c id).Good nF fl := by
  unfold performOp
  repeat'
    first
      | (with_reducible assumption) | (with_reducible apply dropHostOp_inv)
      | (with_reducible refine deviceGate_pair (he := by assumption) (hInv := ?_) ..) | (with_reducible apply takeEffect_inv)
      | (with_reducible apply meter_inv) | (with_reducible apply correctRanges_inv) | (with_reducible apply cacheRanges_inv)
      | (with_reducible apply foundRanges_inv) | (with_reducible apply inv_ite; rotate_left; intro _) | (split) | (dsimp only)

theorem execOffcoreAccessPerform_keeps (c id : Nat) (s : State) (hInv : s.Good nF fl) :
    KeepsGood nF fl (execOffcoreAccessPerform c id s) := by
  unfold execOffcoreAccessPerform
  repeat' first | (with_reducible apply keeps_next) | (with_reducible assumption) | (with_reducible apply performOp_inv)

theorem acceptPush_inv (s : State) (c id : Nat) (hInv : s.Good nF fl) : (acceptPush s c id).Good nF fl := by
  unfold acceptPush
  repeat'
    first
      | (with_reducible assumption) | (with_reducible apply opDone_inv) | (with_reducible apply modLaunch_inv)
      | (with_reducible apply inv_ite; rotate_left; intro _)
      | ((with_reducible refine inv_mk rfl ?_); first | with_reducible assumption | with_reducible apply opDone_inv | with_reducible apply modLaunch_inv | (with_reducible apply inv_ite; rotate_left; intro _) | split)
      | (split) | (dsimp only)

theorem execPushAccepted_keeps (c id : Nat) (s : State) (hInv : s.Good nF fl) : KeepsGood nF fl (execPushAccepted c id s) := by
  unfold execPushAccepted
  repeat' first | (with_reducible apply keeps_next) | (with_reducible assumption) | (with_reducible apply acceptPush_inv)

theorem spillRows_inv (s : State) (t : Tensor) (offs : List Int) (rows : List Row) (hInv : s.Good nF fl) :
    (spillRows s t offs rows).Good nF fl := by
  induction offs generalizing s rows with
  | nil => cases rows <;> exact hInv
  | cons o offs ih =>
    cases rows with
    | nil => exact hInv
    | cons r rows =>
      unfold spillRows
      exact ih _ _ (tensorWrite_inv _ _ _ _ _ hInv)

theorem completeToken_inv (s : State) (c id : Nat) (hInv : s.Good nF fl) : (completeToken s c id).Good nF fl := by
  unfold completeToken
  repeat'
    first
      | (with_reducible assumption) | (with_reducible apply dropHostOp_inv)
      | (with_reducible refine deviceGate_pair (he := by assumption) (hInv := ?_) ..) | (with_reducible apply opDone_inv)
      | (with_reducible apply cacheRanges_inv) | (with_reducible apply spillRows_inv) | (with_reducible apply meter_inv)
      | (with_reducible apply portFault_inv) | (with_reducible apply correctRanges_inv) | (with_reducible apply modCtx_inv)
      | (with_reducible apply holdLandings_inv) | (with_reducible apply putTile_inv) | (with_reducible apply logInputs_inv)
      | (with_reducible apply foundRanges_inv) | (with_reducible apply inv_ite; rotate_left; intro _)
      | (with_reducible apply inv_elim; rotate_left; intro _) | (split) | (dsimp only)

theorem execTokenComplete_keeps (c id : Nat) (s : State) (hInv : s.Good nF fl) : KeepsGood nF fl (execTokenComplete c id s) := by
  unfold execTokenComplete
  repeat' first | (with_reducible apply keeps_next) | (with_reducible assumption) | (with_reducible apply completeToken_inv)

theorem answerProbe_inv (s : State) (c id : Nat) (hInv : s.Good nF fl) : (answerProbe s c id).Good nF fl := by
  unfold answerProbe
  repeat'
    first
      | (with_reducible assumption) | (with_reducible apply dropHostOp_inv) | (with_reducible apply opDone_inv)
      | (with_reducible apply faultDue_inv) | (with_reducible apply modCtx_inv)
      | (with_reducible refine pinTiles_pair (he := by assumption) (hInv := ?_) ..) | (with_reducible apply cacheRanges_inv)
      | (with_reducible apply inv_ite; rotate_left; intro _)
      | ((with_reducible refine inv_mk rfl ?_); first | with_reducible assumption | with_reducible apply dropHostOp_inv | with_reducible apply opDone_inv | with_reducible apply faultDue_inv | with_reducible apply modCtx_inv | (with_reducible refine pinTiles_pair (he := by assumption) (hInv := ?_) ..) | with_reducible apply cacheRanges_inv | (with_reducible apply inv_ite; rotate_left; intro _) | split)
      | (split) | (dsimp only)

theorem execProbeAnswer_keeps (c id : Nat) (s : State) (hInv : s.Good nF fl) : KeepsGood nF fl (execProbeAnswer c id s) := by
  unfold execProbeAnswer
  repeat' first | (with_reducible apply keeps_next) | (with_reducible assumption) | (with_reducible apply answerProbe_inv)

theorem execShadowFillAccept_keeps (c cm : Nat) (s : State) (hInv : s.Good nF fl) :
    KeepsGood nF fl (execShadowFillAccept c cm s) := by
  unfold execShadowFillAccept
  repeat' first | (with_reducible apply keeps_next) | (with_reducible assumption) | (with_reducible apply acceptFill_inv)

theorem endFill_inv (s : State) (c cm : Nat) (hInv : s.Good nF fl) : (endFill s c cm).Good nF fl := by
  unfold endFill
  repeat'
    first
      | (with_reducible assumption) | (with_reducible apply correctRanges_inv) | (with_reducible apply modCtx_inv)
      | (with_reducible apply meter_inv) | (with_reducible apply foundRanges_inv)
      | (with_reducible apply inv_ite; rotate_left; intro _)
      | ((with_reducible refine inv_mk rfl ?_); first | with_reducible assumption | with_reducible apply correctRanges_inv | with_reducible apply modCtx_inv | with_reducible apply meter_inv | with_reducible apply foundRanges_inv | (with_reducible apply inv_ite; rotate_left; intro _) | split)
      | (split) | (dsimp only)

theorem execShadowFillEnd_keeps (c cm : Nat) (s : State) (hInv : s.Good nF fl) : KeepsGood nF fl (execShadowFillEnd c cm s) := by
  unfold execShadowFillEnd
  repeat' first | (with_reducible apply keeps_next) | (with_reducible assumption) | (with_reducible apply endFill_inv)

theorem readEntry_inv (s : State) (c : Nat) (hInv : s.Good nF fl) : (readEntry s c).Good nF fl := by
  unfold readEntry
  repeat'
    first
      | (with_reducible assumption) | (with_reducible apply findBad_inv) | (with_reducible apply correctAll_inv) | (split)
      | (dsimp only)

theorem execTapldCopyComplete_keeps (c : Nat) (s : State) (hInv : s.Good nF fl) :
    KeepsGood nF fl (execTapldCopyComplete c s) := by
  unfold execTapldCopyComplete
  repeat'
    first
      | (with_reducible apply keeps_next) | (with_reducible assumption) | (with_reducible apply modCtx_inv)
      | (with_reducible apply readEntry_inv) | (with_reducible apply inv_ite; rotate_left; intro _)
      | ((with_reducible refine inv_mk rfl ?_); first | with_reducible assumption | with_reducible apply modCtx_inv | with_reducible apply readEntry_inv | (with_reducible apply inv_ite; rotate_left; intro _) | split)
      | (split) | (dsimp only)

theorem modGen_inv (s : State) (n : Nat) (f : GenUnit → GenUnit) (hInv : s.Good nF fl) : (modGen s n f).Good nF fl := by
  unfold modGen
  repeat'
    first
      | (with_reducible assumption) | (with_reducible apply modLaunch_inv)
      | ((with_reducible refine inv_mk rfl ?_); first | with_reducible assumption | with_reducible apply modLaunch_inv)
      | (dsimp only)

theorem acceptToken_inv (s : State) (l : Nat) (hInv : s.Good nF fl) : (acceptToken s l).Good nF fl := by
  unfold acceptToken
  repeat'
    first
      | (with_reducible assumption) | (with_reducible refine deviceGate_pair (he := by assumption) (hInv := ?_) ..)
      | (with_reducible apply modGen_inv) | (with_reducible apply inv_ite; rotate_left; intro _)
      | ((with_reducible refine inv_mk rfl ?_); first | with_reducible assumption | (with_reducible refine deviceGate_pair (he := by assumption) (hInv := ?_) ..) | with_reducible apply modGen_inv | (with_reducible apply inv_ite; rotate_left; intro _) | split)
      | (split) | (dsimp only)

theorem endSnapshot_inv (s : State) (l : Nat) (hInv : s.Good nF fl) : (endSnapshot s l).Good nF fl := by
  unfold endSnapshot
  repeat'
    first
      | (with_reducible assumption) | (with_reducible refine deviceGate_pair (he := by assumption) (hInv := ?_) ..)
      | (with_reducible apply modLaunch_inv) | (with_reducible apply devPut_inv)
      | ((with_reducible refine inv_mk rfl ?_); first | with_reducible assumption | (with_reducible refine deviceGate_pair (he := by assumption) (hInv := ?_) ..) | with_reducible apply modLaunch_inv | with_reducible apply devPut_inv | split)
      | (split) | (dsimp only)

theorem snapReads_inv (fuel : Nat) (s : State) (l : Nat) (hInv : s.Good nF fl) : (snapReads fuel s l).Good nF fl := by
  induction fuel generalizing s with
  | zero => exact hInv
  | succ n ih =>
    unfold snapReads
    repeat'
      first
        | with_reducible apply ih | (with_reducible assumption) | (with_reducible apply endSnapshot_inv)
        | (with_reducible refine deviceGate_pair (he := by assumption) (hInv := ?_) ..) | (with_reducible apply modLaunch_inv)
        | (with_reducible apply inv_ite; rotate_left; intro _)
        | ((with_reducible refine inv_mk rfl ?_); first | with_reducible assumption | with_reducible apply endSnapshot_inv | (with_reducible refine deviceGate_pair (he := by assumption) (hInv := ?_) ..) | with_reducible apply modLaunch_inv | (with_reducible apply inv_ite; rotate_left; intro _) | split)
        | (split) | (dsimp only)

theorem deliverCommits_inv (fuel : Nat) (s : State) (l : Nat) (hInv : s.Good nF fl) : (deliverCommits fuel s l).Good nF fl := by
  induction fuel generalizing s with
  | zero => exact hInv
  | succ n ih =>
    unfold deliverCommits
    repeat'
      first
        | with_reducible apply ih | (with_reducible assumption) | (with_reducible apply modLaunch_inv)
        | (with_reducible apply inv_ite; rotate_left; intro _)
        | ((with_reducible refine inv_mk rfl ?_); first | with_reducible assumption | with_reducible apply modLaunch_inv | (with_reducible apply inv_ite; rotate_left; intro _) | split)
        | (split) | (dsimp only)

theorem writeRecord_inv (s : State) (l : Nat) (hInv : s.Good nF fl) : (writeRecord s l).Good nF fl := by
  unfold writeRecord
  repeat'
    first
      | (with_reducible assumption) | (with_reducible refine deviceGate_pair (he := by assumption) (hInv := ?_) ..)
      | (with_reducible apply devPut_inv) | (with_reducible apply modLaunch_inv)
      | (with_reducible apply inv_ite; rotate_left; intro _)
      | ((with_reducible refine inv_mk rfl ?_); first | with_reducible assumption | (with_reducible refine deviceGate_pair (he := by assumption) (hInv := ?_) ..) | with_reducible apply devPut_inv | with_reducible apply modLaunch_inv | (with_reducible apply inv_ite; rotate_left; intro _) | split)
      | (split) | (dsimp only)

theorem writeRecords_inv (s : State) (l : Nat) (hInv : s.Good nF fl) : (writeRecords s l).Good nF fl := by
  unfold writeRecords
  repeat'
    first
      | (with_reducible assumption) | (with_reducible apply writeRecord_inv)
      | (with_reducible apply inv_foldl; rotate_left; intro _ _ _) | (dsimp only)

theorem endUnit_inv (s : State) (l : Nat) (hInv : s.Good nF fl) : (endUnit s l).Good nF fl := by
  unfold endUnit
  repeat'
    first
      | (with_reducible assumption) | (with_reducible apply modGen_inv) | (with_reducible apply inv_ite; rotate_left; intro _)
      | ((with_reducible refine inv_mk rfl ?_); first | with_reducible assumption | with_reducible apply modGen_inv | (with_reducible apply inv_ite; rotate_left; intro _) | split)
      | (split) | (dsimp only)

theorem finishUnit_inv (fuel : Nat) (s : State) (l : Nat) (hInv : s.Good nF fl) : (finishUnit fuel s l).Good nF fl := by
  induction fuel generalizing s with
  | zero => exact hInv
  | succ n ih =>
    unfold finishUnit
    have h1 := writeRecords_inv s l hInv
    with_reducible generalize writeRecords s l = t at h1 ⊢
    dsimp only
    split
    · exact h1
    · split
      · exact h1
      · have h2 := deliverCommits_inv 16 _ l (snapReads_inv 64 t l h1)
        with_reducible generalize deliverCommits 16 (snapReads 64 t l) l = u at h2 ⊢
        split
        · split
          · exact h2
          · split
            · exact writeRecords_inv _ l (endUnit_inv _ _ h2)
            · exact ih _ (acceptToken_inv _ _ h2)
        · exact h2

theorem openUnit_inv (s : State) (l : Nat) (hInv : s.Good nF fl) : (openUnit s l).Good nF fl := by
  unfold openUnit
  repeat'
    first
      | (with_reducible assumption) | (with_reducible refine deviceGate_pair (he := by assumption) (hInv := ?_) ..)
      | (with_reducible apply modLaunch_inv) | (with_reducible apply devPut_inv)
      | (with_reducible apply inv_ite; rotate_left; intro _)
      | ((with_reducible refine inv_mk rfl ?_); first | with_reducible assumption | (with_reducible refine deviceGate_pair (he := by assumption) (hInv := ?_) ..) | with_reducible apply modLaunch_inv | with_reducible apply devPut_inv | (with_reducible apply inv_ite; rotate_left; intro _) | split)
      | (split) | (dsimp only)

theorem startUnit_inv (s : State) (l : Nat) (hInv : s.Good nF fl) : (startUnit s l).Good nF fl := by
  unfold startUnit
  repeat'
    first
      | (with_reducible assumption) | (with_reducible apply deliverCommits_inv) | (with_reducible apply snapReads_inv)
      | (with_reducible apply openUnit_inv) | (with_reducible apply modLaunch_inv)
      | (with_reducible apply inv_ite; rotate_left; intro _)
      | ((with_reducible refine inv_mk rfl ?_); first | with_reducible assumption | with_reducible apply deliverCommits_inv | with_reducible apply snapReads_inv | with_reducible apply openUnit_inv | with_reducible apply modLaunch_inv | (with_reducible apply inv_ite; rotate_left; intro _) | split)
      | (split) | (dsimp only)

theorem execTokenElementAccept_keeps (l reads : Nat) (s : State) (hInv : s.Good nF fl) :
    KeepsGood nF fl (execTokenElementAccept l reads s) := by
  unfold execTokenElementAccept
  repeat'
    first
      | (with_reducible apply keeps_next) | (with_reducible assumption) | (with_reducible apply acceptToken_inv)
      | (with_reducible apply snapReads_inv) | (with_reducible apply inv_ite; rotate_left; intro _) | (split) | (dsimp only)

theorem execRingRecordWrite_keeps (l : Nat) (s : State) (hInv : s.Good nF fl) : KeepsGood nF fl (execRingRecordWrite l s) := by
  unfold execRingRecordWrite
  repeat' first | (with_reducible apply keeps_next) | (with_reducible assumption) | (with_reducible apply writeRecord_inv)

theorem execCommitElementDelivery_keeps (l : Nat) (s : State) (hInv : s.Good nF fl) :
    KeepsGood nF fl (execCommitElementDelivery l s) := by
  unfold execCommitElementDelivery
  repeat'
    first
      | (with_reducible apply keeps_next) | (with_reducible assumption) | (with_reducible apply deliverCommits_inv)
      | (with_reducible apply snapReads_inv) | (with_reducible apply inv_ite; rotate_left; intro _) | (split) | (dsimp only)

theorem setToken_inv (s : State) (field st : Nat) (hInv : s.Good nF fl) : (setToken s field st).Good nF fl := by
  unfold setToken
  repeat'
    first
      | (with_reducible assumption) | (with_reducible apply inv_ite; rotate_left; intro _)
      | ((with_reducible refine inv_mk rfl ?_); first | with_reducible assumption | (with_reducible apply inv_ite; rotate_left; intro _) | split)
      | (split) | (dsimp only)

theorem retire_inv (s : State) (n : Nat) (hInv : s.Good nF fl) : (retire s n).Good nF fl := by
  unfold retire
  repeat'
    first
      | (with_reducible assumption) | (with_reducible apply emitOut_inv) | (with_reducible apply devPut_inv)
      | (with_reducible apply setToken_inv) | (with_reducible apply inv_ite; rotate_left; intro _)
      | ((with_reducible refine inv_mk rfl ?_); first | with_reducible assumption | with_reducible apply emitOut_inv | with_reducible apply devPut_inv | with_reducible apply setToken_inv | (with_reducible apply inv_ite; rotate_left; intro _) | split)
      | (split) | (dsimp only)

theorem retireWith_inv (s : State) (n status fault : Nat) (hInv : s.Good nF fl) : (retireWith s n status fault).Good nF fl := by
  unfold retireWith
  repeat'
    first
      | (with_reducible assumption) | (with_reducible apply retire_inv) | (with_reducible apply modLaunch_inv)
      | ((with_reducible refine inv_mk rfl ?_); first | with_reducible assumption | with_reducible apply retire_inv | with_reducible apply modLaunch_inv)
      | (dsimp only)

theorem advanceQueue_inv (fuel : Nat) (s : State) (l : Nat) (hInv : s.Good nF fl) : (advanceQueue fuel s l).Good nF fl := by
  induction fuel generalizing s with
  | zero => exact hInv
  | succ n ih =>
    unfold advanceQueue
    repeat'
      first
        | with_reducible apply ih | (with_reducible assumption) | (with_reducible apply retireWith_inv)
        | (with_reducible apply modLaunch_inv) | (with_reducible apply inv_ite; rotate_left; intro _)
        | ((with_reducible refine inv_mk rfl ?_); first | with_reducible assumption | with_reducible apply retireWith_inv | with_reducible apply modLaunch_inv | (with_reducible apply inv_ite; rotate_left; intro _) | split)
        | (split) | (dsimp only)

theorem advanceQueues_inv (s : State) (hInv : s.Good nF fl) : (advanceQueues s).Good nF fl := by
  unfold advanceQueues
  repeat'
    first
      | (with_reducible assumption) | (with_reducible apply advanceQueue_inv)
      | (with_reducible apply inv_foldl; rotate_left; intro _ _ _) | (dsimp only)

theorem acceptRecord_inv (s : State) (q seq : Nat) (r : List Byte) (hInv : s.Good nF fl) :
    (acceptRecord s q seq r).Good nF fl := by
  unfold acceptRecord
  repeat'
    first
      | (with_reducible assumption) | (with_reducible apply setToken_inv) | (with_reducible apply retireWith_inv)
      | (with_reducible apply inv_ite; rotate_left; intro _)
      | ((with_reducible refine inv_mk rfl ?_); first | with_reducible assumption | with_reducible apply setToken_inv | with_reducible apply retireWith_inv | (with_reducible apply inv_ite; rotate_left; intro _) | split)
      | (split) | (dsimp only)

theorem testQueue_inv (fuel : Nat) (s : State) (l : Nat) (hInv : s.Good nF fl) : (testQueue fuel s l).Good nF fl := by
  induction fuel generalizing s with
  | zero => exact hInv
  | succ n ih =>
    unfold testQueue
    repeat'
      first
        | with_reducible apply ih | (with_reducible assumption) | (with_reducible apply acceptRecord_inv)
        | (with_reducible apply inv_ite; rotate_left; intro _)
        | ((with_reducible refine inv_mk rfl ?_); first | with_reducible assumption | with_reducible apply acceptRecord_inv | (with_reducible apply inv_ite; rotate_left; intro _) | split)
        | (split) | (dsimp only)

theorem postQueue_inv (s : State) (q : Nat) (hInv : s.Good nF fl) : (postQueue s q).Good nF fl := by
  unfold postQueue
  repeat' first | (with_reducible assumption) | (with_reducible apply advanceQueues_inv) | (with_reducible apply testQueue_inv)

theorem copyCode_inv (s : State) (g src b n : Nat) (hInv : s.Good nF fl) : (copyCode s g src b n).Good nF fl := by
  unfold copyCode
  have hr := readWords_inv s 0x18 0 64 [(devAddr src, 64 * n)] hInv
  dsimp only
  exact inv_foldl (clearMarks_inv _ _ _ _ _ _ (inv_istore hr (wf_writeBytes _ _ _ hr.istore))) fun t m ht => poisonRange_inv _ _ _ _ _ _ ht

theorem loadCode_inv (s : State) (l : Launch) (start load : Bool) (g : Nat) (hInv : s.Good nF fl) :
    (loadCode s l start load g).Good nF fl := by
  unfold loadCode
  repeat'
    first
      | (with_reducible assumption) | (with_reducible apply modStall_inv) | (with_reducible apply copyCode_inv)
      | (with_reducible apply inv_ite; rotate_left; intro _)
      | ((with_reducible refine inv_mk rfl ?_); first | with_reducible assumption | with_reducible apply modStall_inv | with_reducible apply copyCode_inv | (with_reducible apply inv_ite; rotate_left; intro _) | split)
      | (split) | (dsimp only)

theorem pinImage_inv (s : State) (l : Launch) (hInv : s.Good nF fl) : (pinImage s l).Good nF fl := by
  unfold pinImage
  repeat'
    first
      | (with_reducible assumption) | (with_reducible apply inv_ite; rotate_left; intro _)
      | ((with_reducible refine inv_mk rfl ?_); first | with_reducible assumption | (with_reducible apply inv_ite; rotate_left; intro _) | split)
      | (split) | (dsimp only)

theorem noteImage_inv (s : State) (l : Launch) (start : Bool) (hInv : s.Good nF fl) : (noteImage s l start).Good nF fl := by
  unfold noteImage
  repeat'
    first
      | (with_reducible assumption) | (with_reducible apply pinImage_inv) | (with_reducible apply inv_ite; rotate_left; intro _)
      | ((with_reducible refine inv_mk rfl ?_); first | with_reducible assumption | with_reducible apply pinImage_inv | (with_reducible apply inv_ite; rotate_left; intro _) | split)
      | (split) | (dsimp only)

theorem clearStable_inv (s : State) (l : Launch) (sems : BitVec 64) (sb : Nat) (hInv : s.Good nF fl) :
    (clearStable s l sems sb).Good nF fl := by
  unfold clearStable
  refine modStable_inv _ _ _ (inv_foldl hInv fun t b ht => ?_)
  exact inv_mk rfl (inv_round ht (wf_mclear _ (roundKey sb b (extent l b).1) (extent l b).2 ht.round))

theorem dropReplays_inv (s : State) (l p : Launch) (hInv : s.Good nF fl) : (dropReplays s l p).Good nF fl := by
  unfold dropReplays
  repeat'
    first
      | (with_reducible assumption) | (with_reducible apply endRun_inv)
      | (with_reducible apply inv_foldl; rotate_left; intro _ _ _) | (dsimp only)

theorem takePlace_inv (s : State) (n : Nat) (p : Launch) (start : Bool) (hInv : s.Good nF fl) :
    (takePlace s n p start).Good nF fl := by
  unfold takePlace
  repeat'
    first
      | (with_reducible assumption) | (with_reducible apply dropReplays_inv) | (with_reducible apply loadCode_inv)
      | (with_reducible apply modLaunch_inv) | (with_reducible apply noteImage_inv)
      | (with_reducible apply inv_foldl; rotate_left; intro _ _ _)
      | ((with_reducible refine inv_mk rfl ?_); first | with_reducible assumption | with_reducible apply dropReplays_inv | with_reducible apply loadCode_inv | with_reducible apply modLaunch_inv | with_reducible apply noteImage_inv | (with_reducible apply inv_foldl; rotate_left; intro _ _ _))
      | (dsimp only)

theorem moveMarks_inv (s : State) (kind : Nat → Bool) (a b : Nat) (hInv : s.Good nF fl) : (moveMarks s kind a b).Good nF fl := by
  unfold moveMarks
  repeat'
    first
      | (with_reducible assumption) | (with_reducible apply inv_ite; rotate_left; intro _)
      | ((with_reducible refine inv_mk rfl ?_); first | with_reducible assumption | (with_reducible apply inv_ite; rotate_left; intro _) | split)
      | (split) | (dsimp only)

theorem startPlaced_inv (s : State) (n : Nat) (p : Launch) (hInv : s.Good nF fl) : (startPlaced s n p).Good nF fl := by
  unfold startPlaced
  repeat'
    first
      | (with_reducible assumption) | (with_reducible apply takePlace_inv) | (with_reducible apply clearStable_inv)
      | (with_reducible apply uncacheCtx_inv) | (with_reducible apply modLaunch_inv)
      | (with_reducible apply inv_foldl; rotate_left; intro _ _ _)
      | ((with_reducible refine inv_mk rfl ?_); first | with_reducible assumption | with_reducible apply takePlace_inv | with_reducible apply clearStable_inv | with_reducible apply uncacheCtx_inv | with_reducible apply modLaunch_inv | (with_reducible apply inv_foldl; rotate_left; intro _ _ _))
      | (dsimp only)

theorem resumeCtx_inv (s : State) (old new : Launch) (n k : Nat) (x : Ctx) (hInv : s.Good nF fl) :
    (resumeCtx s old new n k x).Good nF fl := by
  unfold resumeCtx
  repeat'
    first
      | (with_reducible assumption) | (with_reducible apply uncacheCtx_inv) | (with_reducible apply moveMarks_inv)
      | (with_reducible apply modCtx_inv)
      | ((with_reducible refine inv_mk rfl ?_); first | with_reducible assumption | with_reducible apply uncacheCtx_inv | with_reducible apply moveMarks_inv | with_reducible apply modCtx_inv)
      | (dsimp only)

theorem restoreStable_inv (s : State) (n : Nat) (l : Launch) (sems : BitVec 64) (j : Nat) (hInv : s.Good nF fl) :
    (restoreStable s n l sems j).Good nF fl := by
  unfold restoreStable
  refine modStable_inv _ _ _ (moveMarks_inv _ _ _ _ (inv_foldl (clearStable_inv _ _ _ _ hInv) fun t b ht => ?_))
  exact inv_round ht (wf_writeBytes _ _ _ ht.round)

theorem restoreTraffic_inv (s : State) (l : Launch) (hInv : s.Good nF fl) : (restoreTraffic s l).Good nF fl := by
  unfold restoreTraffic
  repeat'
    first
      | (with_reducible assumption) | (with_reducible apply modStable_inv)
      | (with_reducible apply inv_foldl; rotate_left; intro _ _ _)
      | ((with_reducible refine inv_mk rfl ?_); first | with_reducible assumption | with_reducible apply modStable_inv | (with_reducible apply inv_foldl; rotate_left; intro _ _ _))
      | (dsimp only)

theorem writeWindow_inv (s : State) (l : Launch) (sb : Nat) (hInv : s.Good nF fl) : (writeWindow s l sb).Good nF fl := by
  unfold writeWindow
  repeat'
    first
      | (with_reducible assumption) | (with_reducible apply putMxwin_inv) | (with_reducible apply inv_ite; rotate_left; intro _)
      | (split) | (dsimp only)

theorem resumePlaced_inv (s : State) (n : Nat) (p : Launch) (hInv : s.Good nF fl) : (resumePlaced s n p).Good nF fl := by
  unfold resumePlaced
  repeat'
    first
      | (with_reducible assumption) | (with_reducible apply takePlace_inv) | (with_reducible apply writeWindow_inv)
      | (with_reducible apply restoreStable_inv) | (with_reducible apply restoreTraffic_inv)
      | (with_reducible apply resumeCtx_inv) | (with_reducible apply modLaunch_inv) | (with_reducible apply faultAt_inv)
      | (with_reducible apply inv_foldl; rotate_left; intro _ _ _)
      | ((with_reducible refine inv_mk rfl ?_); first | with_reducible assumption | with_reducible apply takePlace_inv | with_reducible apply writeWindow_inv | with_reducible apply restoreStable_inv | with_reducible apply restoreTraffic_inv | with_reducible apply resumeCtx_inv | with_reducible apply modLaunch_inv | with_reducible apply faultAt_inv | (with_reducible apply inv_foldl; rotate_left; intro _ _ _) | split)
      | (split) | (dsimp only)

theorem decidePlace_inv (s : State) (l : List (Nat × Launch)) (b : Bool) (hInv : s.Good nF fl) :
    (decidePlace s l b).Good nF fl := by
  induction l generalizing b with
  | nil => exact hInv
  | cons e r ih =>
    unfold decidePlace
    dsimp only
    split
    · exact advanceQueues_inv _ (inv_ite' (resumePlaced_inv _ _ _ hInv) (startPlaced_inv _ _ _ hInv))
    · exact ih _

theorem replayTraffic_inv (s : State) (x : Ctx) (c : Nat) (hInv : s.Good nF fl) : (replayTraffic s x c).Good nF fl := by
  unfold replayTraffic
  repeat'
    first
      | (with_reducible assumption) | (with_reducible apply modStable_inv)
      | ((with_reducible refine inv_mk rfl ?_); first | with_reducible assumption | with_reducible apply modStable_inv | split)
      | (split) | (dsimp only)

theorem startReplay_inv (s : State) (g : Nat) (k : Capture) (l : Launch) (x : Ctx) (sb : Nat) (hInv : s.Good nF fl) :
    (startReplay s g k l x sb).Good nF fl := by
  unfold startReplay
  repeat'
    first
      | (with_reducible assumption) | (with_reducible apply loadCode_inv) | (with_reducible apply uncacheCtx_inv)
      | (with_reducible apply roundWrite_inv) | (with_reducible apply replayTraffic_inv) | (with_reducible apply modCtx_inv)
      | (with_reducible apply inv_foldl; rotate_left; intro _ _ _)
      | ((with_reducible refine inv_mk rfl ?_); first | with_reducible assumption | with_reducible apply loadCode_inv | with_reducible apply uncacheCtx_inv | with_reducible apply roundWrite_inv | with_reducible apply replayTraffic_inv | with_reducible apply modCtx_inv | (with_reducible apply inv_foldl; rotate_left; intro _ _ _))
      | (dsimp only)

theorem startReplays_inv (s : State) (hInv : s.Good nF fl) : (startReplays s).Good nF fl := by
  unfold startReplays
  repeat'
    first
      | (with_reducible assumption) | (with_reducible apply startReplay_inv)
      | (with_reducible apply inv_ite; rotate_left; intro _) | (with_reducible apply inv_foldl; rotate_left; intro _ _ _)
      | (with_reducible apply inv_elim; rotate_left; intro _) | (split) | (dsimp only)

theorem placementDecision_inv (s : State) (hInv : s.Good nF fl) : (placementDecision s).Good nF fl := by
  unfold placementDecision
  repeat'
    first
      | (with_reducible assumption) | (with_reducible apply advanceQueues_inv) | (with_reducible apply startReplays_inv)
      | (with_reducible apply decidePlace_inv) | (dsimp only)

theorem execPlacementDecision_keeps (s : State) (hInv : s.Good nF fl) : KeepsGood nF fl (execPlacementDecision s) := by
  unfold execPlacementDecision
  repeat' first | (with_reducible apply keeps_next) | (with_reducible assumption) | (with_reducible apply placementDecision_inv)

theorem writeRoundImage_inv (s : State) (l : Launch) (t : Tensor) (off : Nat) (data : List Byte) (sb : Nat) (hInv : s.Good nF fl) :
    (writeRoundImage s l t off data sb).Good nF fl := by
  unfold writeRoundImage
  repeat'
    first
      | (with_reducible assumption) | (with_reducible apply roundWrite_inv)
      | (with_reducible apply inv_ite; rotate_left; intro _) | (split) | (dsimp only)

theorem applyImages_inv (s : State) (l : Launch) (im : List (Nat × Nat × List Byte)) (hInv : s.Good nF fl) :
    (applyImages s l im).1.Good nF fl := by
  induction im generalizing s with
  | nil => exact hInv
  | cons e r ih =>
    obtain ⟨tid, off, data⟩ := e
    unfold applyImages
    split
    · exact ih _ hInv
    · split
      · exact ih _ (inv_foldl hInv fun t sb ht => writeRoundImage_inv _ _ _ _ _ _ ht)
      · split
        · exact ih _ (tensorWrite_inv _ _ _ _ _ hInv)
        · exact hInv

theorem loadTaps_inv (s : State) (n : Nat) (hInv : s.Good nF fl) : (loadTaps s n).Good nF fl := by
  unfold loadTaps
  repeat'
    first
      | (with_reducible assumption) | (with_reducible apply enterService_inv) | (with_reducible apply modLaunch_inv)
      | (with_reducible apply inv_ite; rotate_left; intro _) | (with_reducible apply inv_foldl; rotate_left; intro _ _ _)
      | ((with_reducible refine inv_mk rfl ?_); first | with_reducible assumption | with_reducible apply enterService_inv | with_reducible apply modLaunch_inv | (with_reducible apply inv_ite; rotate_left; intro _) | (with_reducible apply inv_foldl; rotate_left; intro _ _ _) | split)
      | (split) | (dsimp only)

theorem prepare_inv (s : State) (n : Nat) (hInv : s.Good nF fl) : (prepare s n).Good nF fl := by
  unfold prepare
  repeat'
    first
      | (with_reducible assumption) | (with_reducible apply applyImages_inv) | (with_reducible apply modLaunch_inv)
      | (with_reducible apply loadTaps_inv) | (with_reducible apply startUnit_inv) | (with_reducible apply postFault_inv)
      | (with_reducible apply inv_ite; rotate_left; intro _)
      | ((with_reducible refine inv_mk rfl ?_); first | with_reducible assumption | with_reducible apply applyImages_inv | with_reducible apply modLaunch_inv | with_reducible apply loadTaps_inv | with_reducible apply startUnit_inv | with_reducible apply postFault_inv | (with_reducible apply inv_ite; rotate_left; intro _) | split)
      | (split) | (dsimp only)

theorem writeCommit0_inv (s : State) (n : Nat) (hInv : s.Good nF fl) : (writeCommit0 s n).Good nF fl := by
  unfold writeCommit0
  repeat'
    first
      | (with_reducible assumption) | (with_reducible apply landEff_inv)
      | (with_reducible apply inv_foldl; rotate_left; intro _ _ _) | (split) | (dsimp only)

theorem goLaunch_inv (s : State) (n : Nat) (hInv : s.Good nF fl) : (goLaunch s n).Good nF fl := by
  unfold goLaunch
  repeat'
    first
      | (with_reducible assumption) | (with_reducible apply writeCommit0_inv) | (with_reducible apply writeWindow_inv)
      | (with_reducible apply modCtx_inv) | (with_reducible apply modLaunch_inv)
      | (with_reducible apply inv_foldl; rotate_left; intro _ _ _)
      | ((with_reducible refine inv_mk rfl ?_); first | with_reducible assumption | with_reducible apply writeCommit0_inv | with_reducible apply writeWindow_inv | with_reducible apply modCtx_inv | with_reducible apply modLaunch_inv | (with_reducible apply inv_foldl; rotate_left; intro _ _ _))
      | (dsimp only)

theorem runStart_inv (s : State) (n : Nat) (hInv : s.Good nF fl) : (runStart s n).Good nF fl := by
  unfold runStart
  repeat'
    first
      | (with_reducible assumption) | (with_reducible apply deliverCommits_inv) | (with_reducible apply snapReads_inv)
      | (with_reducible apply openUnit_inv) | (with_reducible apply prepare_inv) | (with_reducible apply goLaunch_inv)
      | (with_reducible apply inv_ite; rotate_left; intro _) | (split) | (dsimp only)

theorem execLaunchRunStart_keeps (l : Nat) (s : State) (hInv : s.Good nF fl) : KeepsGood nF fl (execLaunchRunStart l s) := by
  unfold execLaunchRunStart
  repeat' first | (with_reducible apply keeps_next) | (with_reducible assumption) | (with_reducible apply runStart_inv)

theorem clearSlot_inv (s : State) (c : Nat) (hInv : s.Good nF fl) : (clearSlot s c).Good nF fl := by
  unfold clearSlot
  repeat'
    first
      | (with_reducible assumption) | (with_reducible apply modStable_inv) | (with_reducible apply uncacheCtx_inv)
      | (with_reducible apply modCtx_inv)
      | ((with_reducible refine inv_mk rfl ?_); first | with_reducible assumption | with_reducible apply modStable_inv | with_reducible apply uncacheCtx_inv | with_reducible apply modCtx_inv)
      | (dsimp only)

theorem releaseSaved_inv (s : State) (l : Launch) (hInv : s.Good nF fl) : (releaseSaved s l).Good nF fl := by
  unfold releaseSaved
  repeat'
    first
      | (with_reducible assumption) | (with_reducible apply setPins_inv)
      | (with_reducible apply inv_foldl; rotate_left; intro _ _ _) | (dsimp only)

theorem completeLaunch_inv (s : State) (n : Nat) (hInv : s.Good nF fl) : (completeLaunch s n).Good nF fl := by
  unfold completeLaunch
  repeat'
    first
      | (with_reducible assumption) | (with_reducible apply finishUnit_inv) | (with_reducible apply clearSlot_inv)
      | (with_reducible apply releasePins_inv) | (with_reducible apply releaseSaved_inv)
      | (with_reducible apply advanceQueues_inv) | (with_reducible apply retire_inv)
      | (with_reducible apply inv_ite; rotate_left; intro _) | (with_reducible apply inv_foldl; rotate_left; intro _ _ _)
      | ((with_reducible refine inv_mk rfl ?_); first | with_reducible assumption | with_reducible apply finishUnit_inv | with_reducible apply clearSlot_inv | with_reducible apply releasePins_inv | with_reducible apply releaseSaved_inv | with_reducible apply advanceQueues_inv | with_reducible apply retire_inv | (with_reducible apply inv_ite; rotate_left; intro _) | (with_reducible apply inv_foldl; rotate_left; intro _ _ _) | split)
      | (split) | (dsimp only)

theorem execLaunchCompletion_keeps (l : Nat) (s : State) (hInv : s.Good nF fl) : KeepsGood nF fl (execLaunchCompletion l s) := by
  unfold execLaunchCompletion
  repeat' first | (with_reducible apply keeps_next) | (with_reducible assumption) | (with_reducible apply completeLaunch_inv)

theorem queueResume_inv (s : State) (q seq : Nat) (hInv : s.Good nF fl) : (queueResume s q seq).Good nF fl := by
  unfold queueResume
  repeat'
    first
      | (with_reducible assumption) | (with_reducible apply modCtx_inv)
      | (with_reducible apply inv_foldl; rotate_left; intro _ _ _)
      | ((with_reducible refine inv_mk rfl ?_); first | with_reducible assumption | with_reducible apply modCtx_inv | (with_reducible apply inv_foldl; rotate_left; intro _ _ _) | split)
      | (split) | (dsimp only)

theorem queueEnd_inv (s : State) (q seq : Nat) (hInv : s.Good nF fl) : (queueEnd s q seq).Good nF fl := by
  unfold queueEnd
  repeat' first | (with_reducible assumption) | (with_reducible apply endLaunch_inv) | (split) | (dsimp only)

theorem queueCancel_inv (s : State) (q seq : Nat) (hInv : s.Good nF fl) : (queueCancel s q seq).Good nF fl := by
  unfold queueCancel
  repeat'
    first
      | (with_reducible assumption) | (with_reducible apply advanceQueues_inv) | (with_reducible apply retireWith_inv) | (split)
      | (dsimp only)

theorem queueCommand_inv (s : State) (q seq cmd : Nat) (hInv : s.Good nF fl) : (queueCommand s q seq cmd).Good nF fl := by
  unfold queueCommand
  repeat'
    first
      | (with_reducible assumption) | (with_reducible apply queueResume_inv) | (with_reducible apply queueEnd_inv)
      | (with_reducible apply queueCancel_inv) | (split) | (dsimp only)

theorem controlBlock_inv (s : State) (q : Nat) (hInv : s.Good nF fl) : (controlBlock s q).Good nF fl := by
  unfold controlBlock
  repeat'
    first
      | (with_reducible assumption) | (with_reducible apply queueCommand_inv)
      | (with_reducible apply inv_ite; rotate_left; intro _)
      | ((with_reducible refine inv_mk rfl ?_); first | with_reducible assumption | with_reducible apply queueCommand_inv | (with_reducible apply inv_ite; rotate_left; intro _) | split)
      | (split) | (dsimp only)

theorem execQueueResume_keeps (q seq : Nat) (s : State) (hInv : s.Good nF fl) : KeepsGood nF fl (execQueueResume q seq s) := by
  unfold execQueueResume
  repeat' first | (with_reducible apply keeps_next) | (with_reducible assumption) | (with_reducible apply queueResume_inv)

theorem execQueueEnd_keeps (q seq : Nat) (s : State) (hInv : s.Good nF fl) : KeepsGood nF fl (execQueueEnd q seq s) := by
  unfold execQueueEnd
  repeat' first | (with_reducible apply keeps_next) | (with_reducible assumption) | (with_reducible apply queueEnd_inv)

theorem execQueueCancel_keeps (q seq : Nat) (s : State) (hInv : s.Good nF fl) : KeepsGood nF fl (execQueueCancel q seq s) := by
  unfold execQueueCancel
  repeat' first | (with_reducible apply keeps_next) | (with_reducible assumption) | (with_reducible apply queueCancel_inv)

theorem swapFreeze_inv (s : State) (n yard : Nat) (hInv : s.Good nF fl) : (swapFreeze s n yard).Good nF fl := by
  unfold swapFreeze
  repeat'
    first
      | (with_reducible assumption) | (with_reducible apply modCtx_inv) | (with_reducible apply dropCapture_inv)
      | (with_reducible apply modLaunch_inv) | (with_reducible apply inv_ite; rotate_left; intro _)
      | (with_reducible apply inv_foldl; rotate_left; intro _ _ _)
      | ((with_reducible refine inv_mk rfl ?_); first | with_reducible assumption | with_reducible apply modCtx_inv | with_reducible apply dropCapture_inv | with_reducible apply modLaunch_inv | (with_reducible apply inv_ite; rotate_left; intro _) | (with_reducible apply inv_foldl; rotate_left; intro _ _ _) | split)
      | (split) | (dsimp only)

theorem swapAll_inv (s : State) (n : Nat) (hInv : s.Good nF fl) : (swapAll s n).Good nF fl := by
  unfold swapAll
  repeat'
    first
      | (with_reducible assumption) | (with_reducible apply swapFreeze_inv)
      | (with_reducible apply inv_foldl; rotate_left; intro _ _ _) | (dsimp only)

theorem commitFrozen_inv (s : State) (c : Nat) (hInv : s.Good nF fl) : (commitFrozen s c).Good nF fl := by
  unfold commitFrozen
  repeat'
    first
      | (with_reducible assumption) | (with_reducible apply modCtx_inv) | (with_reducible apply commitSegment_inv)
      | (with_reducible apply inv_ite; rotate_left; intro _)
      | ((with_reducible refine inv_mk rfl ?_); first | with_reducible assumption | with_reducible apply modCtx_inv | with_reducible apply commitSegment_inv | (with_reducible apply inv_ite; rotate_left; intro _) | split)
      | (split) | (dsimp only)

theorem saveCtx_inv (s : State) (n c : Nat) (hInv : s.Good nF fl) : (saveCtx s n c).Good nF fl := by
  unfold saveCtx
  repeat'
    first
      | (with_reducible assumption) | (with_reducible apply devPut_inv) | (with_reducible apply modLaunch_inv)
      | (with_reducible apply clearSlot_inv) | (with_reducible apply moveMarks_inv)
      | (with_reducible apply inv_foldl; rotate_left; intro _ _ _)
      | ((with_reducible refine inv_mk rfl ?_); first | with_reducible assumption | with_reducible apply devPut_inv | with_reducible apply modLaunch_inv | with_reducible apply clearSlot_inv | with_reducible apply moveMarks_inv | (with_reducible apply inv_foldl; rotate_left; intro _ _ _))
      | (dsimp only)

theorem saveStable_inv (s : State) (n j : Nat) (hInv : s.Good nF fl) : (saveStable s n j).Good nF fl := by
  unfold saveStable
  repeat'
    first
      | (with_reducible assumption) | (with_reducible apply devPut_inv) | (with_reducible apply moveMarks_inv)
      | (with_reducible apply inv_foldl; rotate_left; intro _ _ _) | (dsimp only)

theorem swapSave_inv (s : State) (n yard : Nat) (hInv : s.Good nF fl) : (swapSave s n yard).Good nF fl := by
  unfold swapSave
  repeat'
    first
      | (with_reducible assumption) | (with_reducible apply commitFrozen_inv) | (with_reducible apply saveStable_inv)
      | (with_reducible apply saveCtx_inv) | (with_reducible apply modLaunch_inv)
      | (with_reducible apply inv_ite; rotate_left; intro _) | (with_reducible apply inv_foldl; rotate_left; intro _ _ _)
      | ((with_reducible refine inv_mk rfl ?_); first | with_reducible assumption | with_reducible apply commitFrozen_inv | with_reducible apply saveStable_inv | with_reducible apply saveCtx_inv | with_reducible apply modLaunch_inv | (with_reducible apply inv_ite; rotate_left; intro _) | (with_reducible apply inv_foldl; rotate_left; intro _ _ _) | split)
      | (split) | (dsimp only)

theorem execSwapOut_keeps (l yard : Nat) (s : State) (hInv : s.Good nF fl) : KeepsGood nF fl (execSwapOut l yard s) := by
  unfold execSwapOut
  repeat' first | (with_reducible apply keeps_next) | (with_reducible assumption) | (with_reducible apply swapFreeze_inv)

theorem execSwapOutSave_keeps (l yard : Nat) (s : State) (hInv : s.Good nF fl) : KeepsGood nF fl (execSwapOutSave l yard s) := by
  unfold execSwapOutSave
  repeat' first | (with_reducible apply keeps_next) | (with_reducible assumption) | (with_reducible apply swapSave_inv)

theorem meterWindow_inv (s : State) (n : Nat) (hInv : s.Good nF fl) : (meterWindow s n).Good nF fl := by
  unfold meterWindow
  repeat'
    first
      | (with_reducible assumption) | (with_reducible apply modLaunch_inv)
      | ((with_reducible refine inv_mk rfl ?_); first | with_reducible assumption | with_reducible apply modLaunch_inv)
      | (dsimp only)

theorem execDramMeterWindow_keeps (l : Nat) (s : State) (hInv : s.Good nF fl) : KeepsGood nF fl (execDramMeterWindow l s) := by
  unfold execDramMeterWindow
  repeat' first | (with_reducible apply keeps_next) | (with_reducible assumption) | (with_reducible apply meterWindow_inv)

theorem reloadBundle_inv (s : State) (c : Nat) (hInv : s.Good nF fl) : (reloadBundle s c).Good nF fl := by
  unfold reloadBundle
  repeat'
    first
      | (with_reducible assumption) | (with_reducible apply copyCode_inv) | (with_reducible apply inv_ite; rotate_left; intro _)
      | (split) | (dsimp only)

theorem restoreRun_inv (s : State) (c : Nat) (hInv : s.Good nF fl) : (restoreRun s c).Good nF fl := by
  unfold restoreRun
  repeat'
    first
      | (with_reducible assumption) | (with_reducible apply correctAll_inv) | (with_reducible apply reloadBundle_inv)
      | (with_reducible apply undoOne_inv) | (with_reducible apply modStable_inv) | (with_reducible apply modCtx_inv)
      | (with_reducible apply inv_foldl; rotate_left; intro _ _ _)
      | ((with_reducible refine inv_mk rfl ?_); first | with_reducible assumption | with_reducible apply correctAll_inv | with_reducible apply reloadBundle_inv | with_reducible apply undoOne_inv | with_reducible apply modStable_inv | with_reducible apply modCtx_inv | (with_reducible apply inv_foldl; rotate_left; intro _ _ _) | split)
      | (split) | (dsimp only)

theorem rerun_inv (s : State) (c : Nat) (hInv : s.Good nF fl) : (rerun s c).Good nF fl := by
  unfold rerun
  repeat'
    first
      | (with_reducible assumption) | (with_reducible apply modCtx_inv) | (with_reducible apply modStable_inv)
      | ((with_reducible refine inv_mk rfl ?_); first | with_reducible assumption | with_reducible apply modCtx_inv | with_reducible apply modStable_inv | split)
      | (split) | (dsimp only)

/-- A fault buffer whose entries are replaced keeps the invariant. -/
theorem mapEntries_inv {s : State} (f : Entry → Entry) (h : s.Good nF fl) : State.Good { s with fbuf := s.fbuf.map f } nF fl :=
  inv_fbuf h (by simp)

theorem exhaustRewind_inv (s : State) (c : Nat) (hInv : s.Good nF fl) : (exhaustRewind s c).Good nF fl := by
  unfold exhaustRewind
  split
  · exact hInv
  · extract_lets e g
    split
    · exact handleFault_inv _ _ (mapEntries_inv _ hInv)
    · exact postFault_inv _ _ hInv

theorem rewindStep_inv (s : State) (c : Nat) (hInv : s.Good nF fl) : (rewindStep s c).Good nF fl := by
  unfold rewindStep
  repeat'
    first
      | (with_reducible assumption) | (with_reducible apply exhaustRewind_inv) | (with_reducible apply findBad_inv)
      | (with_reducible apply restoreRun_inv) | (with_reducible apply rerun_inv) | (with_reducible apply modCtx_inv)
      | (with_reducible apply inv_ite; rotate_left; intro _)
      | ((with_reducible refine inv_mk rfl ?_); first | with_reducible assumption | with_reducible apply exhaustRewind_inv | with_reducible apply findBad_inv | with_reducible apply restoreRun_inv | with_reducible apply rerun_inv | with_reducible apply modCtx_inv | (with_reducible apply inv_ite; rotate_left; intro _) | split)
      | (split) | (dsimp only)

theorem execRewindRestore_keeps (c : Nat) (s : State) (hInv : s.Good nF fl) : KeepsGood nF fl (execRewindRestore c s) := by
  unfold execRewindRestore
  repeat' first | (with_reducible apply keeps_next) | (with_reducible assumption) | (with_reducible apply rewindStep_inv)

theorem writeHang_inv (s : State) (c slot : Nat) (hInv : s.Good nF fl) : (writeHang s c slot).Good nF fl := by
  unfold writeHang
  repeat' first | (with_reducible assumption) | (with_reducible apply postEvent_inv) | (with_reducible apply devPut_inv)

theorem hangTimeout_inv (s : State) (c : Nat) (hInv : s.Good nF fl) : (hangTimeout s c).Good nF fl := by
  unfold hangTimeout
  repeat'
    first
      | (with_reducible assumption) | (with_reducible apply postFault_inv) | (with_reducible apply inv_ite; rotate_left; intro _)
      | (split) | (dsimp only)

theorem execHangTimeout_keeps (c : Nat) (s : State) (hInv : s.Good nF fl) : KeepsGood nF fl (execHangTimeout c s) := by
  unfold execHangTimeout
  repeat' first | (with_reducible apply keeps_next) | (with_reducible assumption) | (with_reducible apply hangTimeout_inv)

end Sys2Proof.Machine
end

