-- ==== Sys2Proof/Laws/KeepHost.lean ====
section
/-!
SUPPORT. What each operation of Requant, HostPort, Module, Boot, Fetch keeps: the invariant of every step (generated by form, one lemma for each operation).
-/

namespace Sys2Proof.Machine

variable {nF : Nat} {fl : List Host.Cell}

theorem writeEntry_inv (s : State) (table i st enc frame scales : Nat) (hInv : s.Good nF fl) :
    (writeEntry s table i st enc frame scales).Good nF fl := by
  unfold writeEntry
  repeat' first | (with_reducible assumption) | (with_reducible apply putEntry_inv) | (dsimp only)

theorem writeCompact_inv (s : State) (fmt frame scales : Nat) (b : List Byte) (hInv : s.Good nF fl) :
    (writeCompact s fmt frame scales b).Good nF fl := by
  unfold writeCompact
  repeat'
    first
      | (with_reducible assumption) | (with_reducible apply putBlock_inv)
      | (with_reducible apply inv_foldl; rotate_left; intro _ _ _) | (dsimp only)

theorem poisonBlocks_inv (s t : State) (src dst : Nat → List (Nat × Nat)) (hInvs : s.Good nF fl) (hInvt : t.Good nF fl) :
    (poisonBlocks s t src dst).Good nF fl := by
  unfold poisonBlocks
  repeat'
    first
      | (with_reducible assumption) | (with_reducible apply poisonRange_inv)
      | (with_reducible apply inv_ite; rotate_left; intro _) | (with_reducible apply inv_foldl; rotate_left; intro _ _ _)
      | (split) | (dsimp only)

theorem jobCompact_inv (s : State) (t : Tensor) (i a b : Nat) (hInv : s.Good nF fl) : (jobCompact s t i a b).1.Good nF fl := by
  unfold jobCompact
  repeat'
    first
      | (with_reducible assumption) | (with_reducible apply writeCompact_inv) | (with_reducible apply poisonBlocks_inv)
      | (with_reducible apply writeEntry_inv) | (with_reducible apply inv_ite; rotate_left; intro _) | (split) | (dsimp only)

theorem jobCompact_pair (s : State) (t : Tensor) (i a b : Nat) (hInv : s.Good nF fl) {tNext : State} {xNext : Nat} (he : jobCompact s t i a b = (tNext, xNext)) :
    tNext.Good nF fl := by
  have := jobCompact_inv s t i a b hInv
  rwa [he] at this

theorem jobExpand_inv (s : State) (t : Tensor) (i a : Nat) (hInv : s.Good nF fl) : (jobExpand s t i a).1.Good nF fl := by
  unfold jobExpand
  repeat'
    first
      | (with_reducible assumption) | (with_reducible apply devPut_inv) | (with_reducible apply poisonBlocks_inv)
      | (with_reducible apply writeEntry_inv) | (with_reducible apply inv_ite; rotate_left; intro _) | (split) | (dsimp only)

theorem jobExpand_pair (s : State) (t : Tensor) (i a : Nat) (hInv : s.Good nF fl) {tNext : State} {xNext : Nat} (he : jobExpand s t i a = (tNext, xNext)) :
    tNext.Good nF fl := by
  have := jobExpand_inv s t i a hInv
  rwa [he] at this

theorem copyMarks_inv (s : State) (struct a b n : Nat) (hInv : s.Good nF fl) : (copyMarks s struct a b n).Good nF fl := by
  unfold copyMarks
  repeat'
    first
      | (with_reducible assumption) | ((with_reducible refine inv_mk rfl ?_); first | with_reducible assumption) | (dsimp only)

theorem jobMove_inv (s : State) (t : Tensor) (i a : Nat) (hInv : s.Good nF fl) : (jobMove s t i a).1.Good nF fl := by
  unfold jobMove
  repeat'
    first
      | (with_reducible assumption) | (with_reducible apply memWrite_inv) | (with_reducible apply copyMarks_inv)
      | (with_reducible apply writeEntry_inv) | (with_reducible apply inv_ite; rotate_left; intro _) | (split) | (dsimp only)

theorem jobMove_pair (s : State) (t : Tensor) (i a : Nat) (hInv : s.Good nF fl) {tNext : State} {xNext : Nat} (he : jobMove s t i a = (tNext, xNext)) :
    tNext.Good nF fl := by
  have := jobMove_inv s t i a hInv
  rwa [he] at this

theorem jobAbsent_inv (s : State) (t : Tensor) (i : Nat) (hInv : s.Good nF fl) : (jobAbsent s t i).1.Good nF fl := by
  unfold jobAbsent
  repeat'
    first
      | (with_reducible assumption) | (with_reducible apply putEntry_inv) | (with_reducible apply inv_ite; rotate_left; intro _)
      | (split) | (dsimp only)

theorem jobAbsent_pair (s : State) (t : Tensor) (i : Nat) (hInv : s.Good nF fl) {tNext : State} {xNext : Nat} (he : jobAbsent s t i = (tNext, xNext)) :
    tNext.Good nF fl := by
  have := jobAbsent_inv s t i hInv
  rwa [he] at this

theorem jobResident_inv (s : State) (t : Tensor) (i a : Nat) (hInv : s.Good nF fl) : (jobResident s t i a).1.Good nF fl := by
  unfold jobResident
  repeat'
    first
      | (with_reducible assumption) | (with_reducible apply writeEntry_inv)
      | (with_reducible apply inv_ite; rotate_left; intro _) | (split) | (dsimp only)

theorem jobResident_pair (s : State) (t : Tensor) (i a : Nat) (hInv : s.Good nF fl) {tNext : State} {xNext : Nat} (he : jobResident s t i a = (tNext, xNext)) :
    tNext.Good nF fl := by
  have := jobResident_inv s t i a hInv
  rwa [he] at this

theorem tileRecord_inv (s : State) (kind table tile op code : Nat) (hInv : s.Good nF fl) :
    (tileRecord s kind table tile op code).Good nF fl := by
  unfold tileRecord
  repeat' first | (with_reducible assumption) | (with_reducible apply putRecord_inv)

theorem readSource_inv (s : State) (t : Tensor) (i op : Nat) (hInv : s.Good nF fl) : (readSource s t i op).Good nF fl := by
  unfold readSource
  repeat'
    first
      | (with_reducible assumption) | (with_reducible apply readWords_inv) | (with_reducible apply inv_ite; rotate_left; intro _)
      | (split) | (dsimp only)

theorem performJob_inv (s : State) (t : Tensor) (op table i a b : Nat) (hInv : s.Good nF fl) :
    (performJob s t op table i a b).Good nF fl := by
  unfold performJob
  repeat'
    first
      | (with_reducible assumption) | (with_reducible apply readSource_inv) | (with_reducible apply jobCompact_inv)
      | (with_reducible refine jobCompact_pair (he := by assumption) (hInv := ?_) ..) | (with_reducible apply jobExpand_inv)
      | (with_reducible refine jobExpand_pair (he := by assumption) (hInv := ?_) ..) | (with_reducible apply jobMove_inv)
      | (with_reducible refine jobMove_pair (he := by assumption) (hInv := ?_) ..) | (with_reducible apply jobAbsent_inv)
      | (with_reducible refine jobAbsent_pair (he := by assumption) (hInv := ?_) ..) | (with_reducible apply jobResident_inv)
      | (with_reducible refine jobResident_pair (he := by assumption) (hInv := ?_) ..) | (with_reducible apply tileRecord_inv)
      | (with_reducible apply inv_ite; rotate_left; intro _)
      | ((with_reducible refine inv_mk rfl ?_); first | with_reducible assumption | with_reducible apply readSource_inv | with_reducible apply jobCompact_inv | (with_reducible refine jobCompact_pair (he := by assumption) (hInv := ?_) ..) | with_reducible apply jobExpand_inv | (with_reducible refine jobExpand_pair (he := by assumption) (hInv := ?_) ..) | with_reducible apply jobMove_inv | (with_reducible refine jobMove_pair (he := by assumption) (hInv := ?_) ..) | with_reducible apply jobAbsent_inv | (with_reducible refine jobAbsent_pair (he := by assumption) (hInv := ?_) ..) | with_reducible apply jobResident_inv | (with_reducible refine jobResident_pair (he := by assumption) (hInv := ?_) ..) | with_reducible apply tileRecord_inv | (with_reducible apply inv_ite; rotate_left; intro _) | split)
      | (split) | (dsimp only)

theorem runJob_inv (s : State) (op : Nat) (hInv : s.Good nF fl) : (runJob s op).Good nF fl := by
  unfold runJob
  repeat'
    first
      | (with_reducible assumption) | (with_reducible refine deviceGate_pair (he := by assumption) (hInv := ?_) ..)
      | (with_reducible apply performJob_inv) | (with_reducible apply inv_ite; rotate_left; intro _)
      | ((with_reducible refine inv_mk rfl ?_); first | with_reducible assumption | (with_reducible refine deviceGate_pair (he := by assumption) (hInv := ?_) ..) | with_reducible apply performJob_inv | (with_reducible apply inv_ite; rotate_left; intro _) | split)
      | (split) | (dsimp only)

theorem endJobRecord_inv (s : State) (hInv : s.Good nF fl) : (endJobRecord s).Good nF fl := by
  unfold endJobRecord
  repeat'
    first
      | (with_reducible assumption) | (with_reducible apply postEvent_inv) | (with_reducible apply inv_ite; rotate_left; intro _)
      | ((with_reducible refine inv_mk rfl ?_); first | with_reducible assumption | with_reducible apply postEvent_inv | (with_reducible apply inv_ite; rotate_left; intro _) | split)
      | (split) | (dsimp only)

theorem execRqCompact_keeps (s : State) (hInv : s.Good nF fl) : KeepsGood nF fl (execRqCompact s) := by
  unfold execRqCompact
  repeat' first | (with_reducible apply keeps_next) | (with_reducible assumption) | (with_reducible apply runJob_inv)

theorem execRqExpand_keeps (s : State) (hInv : s.Good nF fl) : KeepsGood nF fl (execRqExpand s) := by
  unfold execRqExpand
  repeat' first | (with_reducible apply keeps_next) | (with_reducible assumption) | (with_reducible apply runJob_inv)

theorem execRqMove_keeps (s : State) (hInv : s.Good nF fl) : KeepsGood nF fl (execRqMove s) := by
  unfold execRqMove
  repeat' first | (with_reducible apply keeps_next) | (with_reducible assumption) | (with_reducible apply runJob_inv)

theorem execRqMakeAbsent_keeps (s : State) (hInv : s.Good nF fl) : KeepsGood nF fl (execRqMakeAbsent s) := by
  unfold execRqMakeAbsent
  repeat' first | (with_reducible apply keeps_next) | (with_reducible assumption) | (with_reducible apply runJob_inv)

theorem execRqMakeResident_keeps (s : State) (hInv : s.Good nF fl) : KeepsGood nF fl (execRqMakeResident s) := by
  unfold execRqMakeResident
  repeat' first | (with_reducible apply keeps_next) | (with_reducible assumption) | (with_reducible apply runJob_inv)

theorem execRqJobEnd_keeps (s : State) (hInv : s.Good nF fl) : KeepsGood nF fl (execRqJobEnd s) := by
  unfold execRqJobEnd
  repeat' first | (with_reducible apply keeps_next) | (with_reducible assumption) | (with_reducible apply endJobRecord_inv)

theorem writePlain_inv (s : State) (a : Nat) (data : List Byte) (hInv : s.Good nF fl) : (writePlain s a data).Good nF fl := by
  unfold writePlain
  repeat'
    first
      | (with_reducible assumption) | (with_reducible apply setIo_inv) | (with_reducible apply devWrite_inv)
      | (with_reducible apply devPut_inv) | (with_reducible apply inv_ite; rotate_left; intro _) | (split) | (dsimp only)

theorem writeCommand_inv (s : State) (a : Nat) (data : List Byte) (hInv : s.Good nF fl) : (writeCommand s a data).Good nF fl := by
  unfold writeCommand
  repeat'
    first
      | (with_reducible assumption) | (with_reducible apply devPut_inv) | (with_reducible apply postQueue_inv)
      | (with_reducible apply controlBlock_inv) | (with_reducible apply inv_ite; rotate_left; intro _) | (split) | (dsimp only)

theorem acceptWrite_inv (s : State) (a : Nat) (data : List Byte) (hInv : s.Good nF fl) : (acceptWrite s a data).Good nF fl := by
  unfold acceptWrite
  repeat'
    first
      | (with_reducible assumption) | (with_reducible apply writeCommand_inv) | (with_reducible apply writePlain_inv)
      | (with_reducible apply inv_ite; rotate_left; intro _) | (split) | (dsimp only)

theorem drainRegion_inv (s : State) (i : Nat) (hInv : s.Good nF fl) : (drainRegion s i).Good nF fl := by
  unfold drainRegion
  repeat'
    first
      | (with_reducible assumption) | (with_reducible apply performOp_inv) | (with_reducible apply completeToken_inv)
      | (with_reducible apply inv_ite; rotate_left; intro _) | (with_reducible apply inv_foldl; rotate_left; intro _ _ _)
      | (split) | (dsimp only)

theorem portGate_inv (s : State) (line : Nat) (own : Bool) (w : PortWait) (hInv : s.Good nF fl) :
    (portGate s line own w).1.Good nF fl := by
  unfold portGate
  repeat'
    first
      | (with_reducible assumption) | (with_reducible apply drainRegion_inv) | (with_reducible apply hostGate_inv)
      | (with_reducible refine hostGate_pair (he := by assumption) (hInv := ?_) ..) | (split) | (dsimp only)

theorem portGate_pair (s : State) (line : Nat) (own : Bool) (w : PortWait) (hInv : s.Good nF fl) {tNext : State} {xNext : Bool} (he : portGate s line own w = (tNext, xNext)) :
    tNext.Good nF fl := by
  have := portGate_inv s line own w hInv
  rwa [he] at this

theorem hostWriteLine_inv (s : State) (a : Nat) (data : List Byte) (hInv : s.Good nF fl) :
    (hostWriteLine s a data).Good nF fl := by
  unfold hostWriteLine
  repeat'
    first
      | (with_reducible assumption) | (with_reducible apply waitBehind_inv) | (with_reducible apply portGate_inv)
      | (with_reducible refine portGate_pair (he := by assumption) (hInv := ?_) ..) | (with_reducible apply emitOut_inv)
      | (with_reducible apply acceptWrite_inv) | (with_reducible apply inv_ite; rotate_left; intro _) | (split) | (dsimp only)

theorem hostReadLine_inv (s : State) (a n : Nat) (excl : Bool) (hInv : s.Good nF fl) : (hostReadLine s a n excl).Good nF fl := by
  unfold hostReadLine
  repeat'
    first
      | (with_reducible assumption) | (with_reducible apply portGate_inv)
      | (with_reducible refine portGate_pair (he := by assumption) (hInv := ?_) ..) | (with_reducible apply readWords_inv)
      | (with_reducible apply emitOut_inv) | (with_reducible apply inv_ite; rotate_left; intro _) | (split) | (dsimp only)

theorem eachLine_inv (f : State → Nat → List Byte → State) (s : State) (a : Nat) (data : List Byte)
    (hf : ∀ t a d, State.Good t nF fl → State.Good (f t a d) nF fl) (hInv : s.Good nF fl) : (eachLine f s a data).Good nF fl :=
  inv_foldl hInv fun t p ht => hf t _ _ ht

theorem execHostWrite_keeps (addr : Nat) (data : List Byte) (s : State) (hInv : s.Good nF fl) :
    KeepsGood nF fl (execHostWrite addr data s) := by
  unfold execHostWrite
  repeat'
    first
      | (with_reducible apply keeps_next) | exact keeps_fault | (with_reducible assumption) | (with_reducible apply eachLine_inv)
      | (with_reducible apply hostWriteLine_inv) | (with_reducible apply inv_ite; rotate_left; intro _) | (split) | (dsimp only)
      | (intro _ _)

theorem execHostRead_keeps (addr len : Nat) (excl : Bool) (s : State) (hInv : s.Good nF fl) :
    KeepsGood nF fl (execHostRead addr len excl s) := by
  unfold execHostRead
  repeat'
    first
      | (with_reducible apply keeps_next) | exact keeps_fault | (with_reducible assumption)
      | (with_reducible apply hostReadLine_inv) | (with_reducible apply inv_ite; rotate_left; intro _)
      | (with_reducible apply inv_foldl; rotate_left; intro _ _ _) | (split) | (dsimp only)

theorem execHostMemwr_keeps (addr : Nat) (data : List Byte) (s : State) (hInv : s.Good nF fl) :
    KeepsGood nF fl (execHostMemwr addr data s) := by
  unfold execHostMemwr
  repeat'
    first
      | (with_reducible apply keeps_next) | exact keeps_fault | (with_reducible assumption) | (with_reducible apply eachLine_inv)
      | (with_reducible apply acceptWrite_inv) | (with_reducible apply inv_ite; rotate_left; intro _) | (split) | (dsimp only)
      | (intro _ _)

theorem retryUnit_inv (s : State) (l : Nat) (hInv : s.Good nF fl) : (retryUnit s l).Good nF fl := by
  unfold retryUnit
  repeat'
    first
      | (with_reducible assumption) | (with_reducible apply openUnit_inv) | (with_reducible apply writeRecord_inv)
      | (with_reducible apply snapReads_inv) | (with_reducible apply acceptToken_inv)
      | (with_reducible apply inv_ite; rotate_left; intro _) | (split) | (dsimp only)

theorem retryWait_inv (s : State) (w : PortWait) (hInv : s.Good nF fl) : (retryWait s w).Good nF fl := by
  unfold retryWait
  repeat'
    first
      | (with_reducible assumption) | (with_reducible apply retryUnit_inv) | (with_reducible apply runJob_inv)
      | (with_reducible apply performOp_inv) | (with_reducible apply completeToken_inv)
      | (with_reducible apply hostWriteLine_inv) | (with_reducible apply hostReadLine_inv)
      | (with_reducible apply inv_ite; rotate_left; intro _) | (split) | (dsimp only)

theorem answerFlush_inv (s : State) (hInv : s.Good nF fl) : (answerFlush s).Good nF fl := by
  unfold answerFlush
  repeat'
    first
      | (with_reducible assumption) | (with_reducible apply emitOut_inv) | (with_reducible apply inv_ite; rotate_left; intro _)
      | (split) | (dsimp only)

theorem endFlipOf_inv (s : State) (region : Nat) (hInv : s.Good nF fl) : (endFlipOf s region).Good nF fl := by
  unfold endFlipOf
  repeat'
    first
      | (with_reducible assumption) | (with_reducible apply answerFlush_inv) | (with_reducible apply retryWait_inv)
      | (with_reducible apply endFlip_inv) | (with_reducible apply inv_foldl; rotate_left; intro _ _ _) | (split) | (dsimp only)

theorem execBirsp_keeps (region : Nat) (s : State) (hInv : s.Good nF fl) : KeepsGood nF fl (execBirsp region s) := by
  unfold execBirsp
  repeat' first | (with_reducible apply keeps_next) | (with_reducible assumption) | (with_reducible apply endFlipOf_inv)

theorem snoopBack_inv (s : State) (i : Nat) (line : Option Nat) (hInv : s.Good nF fl) : (snoopBack s i line).Good nF fl := by
  unfold snoopBack
  repeat'
    first
      | (with_reducible assumption) | (with_reducible apply emitOut_inv) | (with_reducible apply modCxl_inv)
      | (with_reducible apply inv_ite; rotate_left; intro _)
      | ((with_reducible refine inv_mk rfl ?_); first | with_reducible assumption | with_reducible apply emitOut_inv | with_reducible apply modCxl_inv | (with_reducible apply inv_ite; rotate_left; intro _) | split)
      | (split) | (dsimp only)

theorem flushAll_inv (s : State) (hInv : s.Good nF fl) : (flushAll s).Good nF fl := by
  unfold flushAll
  repeat'
    first
      | (with_reducible assumption) | (with_reducible apply writeBack_inv) | (with_reducible apply snoopBack_inv)
      | (with_reducible apply answerFlush_inv) | (with_reducible apply modCxl_inv)
      | (with_reducible apply inv_ite; rotate_left; intro _) | (with_reducible apply inv_foldl; rotate_left; intro _ _ _)
      | ((with_reducible refine inv_mk rfl ?_); first | with_reducible assumption | with_reducible apply writeBack_inv | with_reducible apply snoopBack_inv | with_reducible apply answerFlush_inv | with_reducible apply modCxl_inv | (with_reducible apply inv_ite; rotate_left; intro _) | (with_reducible apply inv_foldl; rotate_left; intro _ _ _) | split)
      | (split) | (dsimp only)

theorem execGpfPhase1_keeps (s : State) (hInv : s.Good nF fl) : KeepsGood nF fl (execGpfPhase1 s) := by
  unfold execGpfPhase1
  repeat' first | (with_reducible apply keeps_next) | (with_reducible assumption) | (with_reducible apply flushAll_inv)

theorem dropHostOps_inv (s : State) (hInv : s.Good nF fl) : (dropHostOps s).Good nF fl := by
  unfold dropHostOps
  repeat'
    first
      | (with_reducible assumption) | (with_reducible apply reportLines_inv) | (with_reducible apply endDropped_inv)
      | (with_reducible apply inv_foldl; rotate_left; intro _ _ _) | (dsimp only)

theorem loseHost_inv (s : State) (hInv : s.Good nF fl) : (loseHost s).Good nF fl := by
  unfold loseHost
  repeat'
    first
      | (with_reducible assumption) | (with_reducible apply dropHostOps_inv) | (with_reducible apply reportLines_inv)
      | (with_reducible apply uncache_inv) | (with_reducible apply inv_foldl; rotate_left; intro _ _ _)
      | ((with_reducible refine inv_mk rfl ?_); first | with_reducible assumption | with_reducible apply dropHostOps_inv | with_reducible apply reportLines_inv | with_reducible apply uncache_inv | (with_reducible apply inv_foldl; rotate_left; intro _ _ _))
      | (dsimp only)

theorem beginRestart_inv (s : State) (hInv : s.Good nF fl) : (beginRestart s).Good nF fl := by
  unfold beginRestart
  repeat'
    first
      | (with_reducible assumption) | (with_reducible apply modCxl_inv) | (with_reducible apply loseHost_inv)
      | (with_reducible apply inv_ite; rotate_left; intro _)
      | ((with_reducible refine inv_mk rfl ?_); first | with_reducible assumption | with_reducible apply modCxl_inv | with_reducible apply loseHost_inv | (with_reducible apply inv_ite; rotate_left; intro _) | split)
      | (split) | (dsimp only)

theorem execHostHotReset_keeps (s : State) (hInv : s.Good nF fl) : KeepsGood nF fl (execHostHotReset s) := by
  unfold execHostHotReset
  repeat' first | (with_reducible apply keeps_next) | (with_reducible assumption) | (with_reducible apply beginRestart_inv)

theorem execHostLinkDown_keeps (s : State) (hInv : s.Good nF fl) : KeepsGood nF fl (execHostLinkDown s) := by
  unfold execHostLinkDown
  repeat' first | (with_reducible apply keeps_next) | (with_reducible assumption) | (with_reducible apply beginRestart_inv)

theorem devZero_inv (s : State) (a n : Nat) (hInv : s.Good nF fl) : (devZero s a n).Good nF fl :=
  inv_dev (clearMarks_inv _ _ _ _ _ _ hInv) (wf_mclear _ _ _ (clearMarks_inv _ _ _ _ _ _ hInv).dev)

theorem loseTiles_inv (s : State) (t : Tensor) (hInv : s.Good nF fl) : (loseTiles s t).Good nF fl := by
  unfold loseTiles
  repeat'
    first
      | (with_reducible assumption) | (with_reducible apply putEntry_inv) | (with_reducible apply inv_ite; rotate_left; intro _)
      | (with_reducible apply inv_foldl; rotate_left; intro _ _ _) | (split) | (dsimp only)

theorem sweepLaunch_inv (s : State) (n : Nat) (hInv : s.Good nF fl) : (sweepLaunch s n).Good nF fl := by
  unfold sweepLaunch
  repeat'
    first
      | (with_reducible assumption) | (with_reducible apply modLaunch_inv) | (with_reducible apply loseTiles_inv)
      | (with_reducible apply inv_foldl; rotate_left; intro _ _ _)
      | ((with_reducible refine inv_mk rfl ?_); first | with_reducible assumption | with_reducible apply modLaunch_inv | with_reducible apply loseTiles_inv | (with_reducible apply inv_foldl; rotate_left; intro _ _ _))
      | (dsimp only)

theorem dropWaiting_inv (s : State) (n : Nat) (hInv : s.Good nF fl) : (dropWaiting s n).Good nF fl := by
  unfold dropWaiting
  repeat'
    first
      | (with_reducible assumption) | (with_reducible apply setToken_inv)
      | ((with_reducible refine inv_mk rfl ?_); first | with_reducible assumption | with_reducible apply setToken_inv)
      | (dsimp only)

theorem resetQueue_inv (s : State) (q : Nat) (hInv : s.Good nF fl) : (resetQueue s q).Good nF fl := by
  unfold resetQueue
  repeat'
    first
      | (with_reducible assumption) | (with_reducible apply devZero_inv)
      | ((with_reducible refine inv_mk rfl ?_); first | with_reducible assumption | with_reducible apply devZero_inv)
      | (dsimp only)

theorem sweepTables_inv (s : State) (hInv : s.Good nF fl) : (sweepTables s).Good nF fl := by
  unfold sweepTables
  repeat'
    first
      | (with_reducible assumption) | (with_reducible apply dropWaiting_inv) | (with_reducible apply sweepLaunch_inv)
      | (with_reducible apply resetQueue_inv) | (with_reducible apply modCxl_inv)
      | (with_reducible apply inv_ite; rotate_left; intro _) | (with_reducible apply inv_foldl; rotate_left; intro _ _ _)
      | ((with_reducible refine inv_mk rfl ?_); first | with_reducible assumption | with_reducible apply dropWaiting_inv | with_reducible apply sweepLaunch_inv | with_reducible apply resetQueue_inv | with_reducible apply modCxl_inv | (with_reducible apply inv_ite; rotate_left; intro _) | (with_reducible apply inv_foldl; rotate_left; intro _ _ _) | split)
      | (split) | (dsimp only)

theorem execTableSweep_keeps (s : State) (hInv : s.Good nF fl) : KeepsGood nF fl (execTableSweep s) := by
  unfold execTableSweep
  repeat' first | (with_reducible apply keeps_next) | (with_reducible assumption) | (with_reducible apply sweepTables_inv)

theorem linkAgain_inv (s : State) (hInv : s.Good nF fl) : (linkAgain s).Good nF fl := by
  unfold linkAgain
  repeat'
    first
      | (with_reducible assumption) | (with_reducible apply modCxl_inv) | (with_reducible apply dropHostOps_inv)
      | (with_reducible apply inv_ite; rotate_left; intro _)
      | ((with_reducible refine inv_mk rfl ?_); first | with_reducible assumption | with_reducible apply modCxl_inv | with_reducible apply dropHostOps_inv | (with_reducible apply inv_ite; rotate_left; intro _) | split)
      | (split) | (dsimp only)

theorem execLinkRetrained_keeps (s : State) (hInv : s.Good nF fl) : KeepsGood nF fl (execLinkRetrained s) := by
  unfold execLinkRetrained
  repeat' first | (with_reducible apply keeps_next) | (with_reducible assumption) | (with_reducible apply linkAgain_inv)

theorem enterControl_inv (s : State) (hInv : s.Good nF fl) : (enterControl s).Good nF fl := by
  unfold enterControl
  repeat'
    first
      | (with_reducible assumption) | (with_reducible apply enterService_inv)
      | (with_reducible apply inv_ite; rotate_left; intro _)
      | ((with_reducible refine inv_mk rfl ?_); first | with_reducible assumption | with_reducible apply enterService_inv | (with_reducible apply inv_ite; rotate_left; intro _) | split)
      | (split) | (dsimp only)

theorem serveEvents_inv (s : State) (hInv : s.Good nF fl) : (serveEvents s).Good nF fl := by
  unfold serveEvents
  repeat'
    first
      | (with_reducible assumption) | (with_reducible apply enterControl_inv)
      | (with_reducible apply inv_ite; rotate_left; intro _) | (split) | (dsimp only)

theorem windowMeters_inv (s : State) (hInv : s.Good nF fl) : (windowMeters s).Good nF fl := by
  unfold windowMeters
  repeat'
    first
      | (with_reducible assumption) | (with_reducible apply meterWindow_inv)
      | (with_reducible apply inv_ite; rotate_left; intro _) | (with_reducible apply inv_foldl; rotate_left; intro _ _ _)
      | (split) | (dsimp only)

theorem closeWindows_inv (s : State) (hInv : s.Good nF fl) : (closeWindows s).Good nF fl := by
  unfold closeWindows
  repeat'
    first
      | (with_reducible assumption) | (with_reducible apply closeWindow_inv)
      | (with_reducible apply inv_ite; rotate_left; intro _) | (with_reducible apply inv_foldl; rotate_left; intro _ _ _)
      | (split) | (dsimp only)

theorem timerEvent_inv (s : State) (hInv : s.Good nF fl) : (timerEvent s).Good nF fl := by
  unfold timerEvent
  repeat'
    first
      | (with_reducible assumption) | (with_reducible apply postEvent_inv) | (with_reducible apply inv_ite; rotate_left; intro _)
      | (split) | (dsimp only)

theorem applyIo_inv (s : State) (hInv : s.Good nF fl) : (applyIo s).Good nF fl := by
  unfold applyIo
  repeat'
    first
      | (with_reducible assumption) | (with_reducible apply privWrite_inv)
      | (with_reducible apply inv_foldl; rotate_left; intro _ _ _)
      | ((with_reducible refine inv_mk rfl ?_); first | with_reducible assumption | with_reducible apply privWrite_inv | (with_reducible apply inv_foldl; rotate_left; intro _ _ _))
      | (dsimp only)

theorem deliverFaults_inv (s : State) (hInv : s.Good nF fl) : (deliverFaults s).Good nF fl := by
  unfold deliverFaults
  repeat'
    first
      | (with_reducible assumption) | (with_reducible apply modCtx_inv) | (with_reducible apply dueFault_inv)
      | (with_reducible apply inv_foldl; rotate_left; intro _ _ _)
      | ((with_reducible refine inv_mk rfl ?_); first | with_reducible assumption | with_reducible apply modCtx_inv | with_reducible apply dueFault_inv | (with_reducible apply inv_foldl; rotate_left; intro _ _ _))
      | (dsimp only)

theorem runPeriod_inv (s : State) (hInv : s.Good nF fl) : (runPeriod s).Good nF fl := by
  unfold runPeriod
  repeat'
    first
      | (with_reducible assumption) | (with_reducible apply closeWindows_inv) | (with_reducible apply windowMeters_inv)
      | (with_reducible apply applyIo_inv) | (with_reducible apply ageSieves_inv) | (with_reducible apply scrubPass_inv)
      | (with_reducible apply timerEvent_inv) | (with_reducible apply serveEvents_inv) | (with_reducible apply deliverFaults_inv)
      | (with_reducible apply placementDecision_inv) | (with_reducible apply expireCaptures_inv)
      | (with_reducible apply judgeRuns_inv) | (with_reducible apply copyRepair_inv)
      | (with_reducible apply inv_ite; rotate_left; intro _) | (split) | (dsimp only)

theorem execEventTimer_keeps (s : State) (hInv : s.Good nF fl) : KeepsGood nF fl (execEventTimer s) := by
  unfold execEventTimer
  repeat' first | (with_reducible apply keeps_next) | (with_reducible assumption) | (with_reducible apply timerEvent_inv)

theorem execControlContextEntry_keeps (s : State) (hInv : s.Good nF fl) : KeepsGood nF fl (execControlContextEntry s) := by
  unfold execControlContextEntry
  repeat' first | (with_reducible apply keeps_next) | (with_reducible assumption) | (with_reducible apply serveEvents_inv)

theorem linkError_inv (s : State) (struct owner retries : Nat) (hInv : s.Good nF fl) :
    (linkError s struct owner retries).Good nF fl := by
  unfold linkError
  repeat'
    first
      | (with_reducible assumption) | (with_reducible apply corrected_inv) | (with_reducible apply damagePacket_inv)
      | (with_reducible apply declareLost_inv) | (with_reducible apply failPort_inv)
      | (with_reducible apply inv_ite; rotate_left; intro _) | (split) | (dsimp only)

theorem execLinkCrcError_keeps (struct owner retries : Nat) (s : State) (hInv : s.Good nF fl) :
    KeepsGood nF fl (execLinkCrcError struct owner retries s) := by
  unfold execLinkCrcError
  repeat' first | (with_reducible apply keeps_next) | (with_reducible assumption) | (with_reducible apply linkError_inv)

/-- The memories right after reset list nothing. -/
theorem reset_memories : State.reset.memories = true := rfl

theorem moduleReset_inv (s : State) (hInv : s.Good nF fl) : (moduleReset s).Good nF fl := by
  unfold moduleReset
  rw [State.good_iff]
  exact ⟨rfl, rfl, rfl, rfl, hInv.hostMem, hInv.flash, Nat.zero_le _, hInv.2⟩

theorem execModuleReset_keeps (s : State) (hInv : s.Good nF fl) : KeepsGood nF fl (execModuleReset s) := by
  unfold execModuleReset
  repeat' first | (with_reducible apply keeps_next) | (with_reducible assumption) | (with_reducible apply moduleReset_inv)

theorem memoryTrained_inv (s : State) (hInv : s.Good nF fl) : (memoryTrained s).Good nF fl := by
  unfold memoryTrained
  split
  · exact modSec_inv _ _ rfl (inv_mk rfl (inv_dev hInv wf_nil))
  · exact hInv

theorem execMemoryTrained_keeps (s : State) (hInv : s.Good nF fl) : KeepsGood nF fl (execMemoryTrained s) := by
  unfold execMemoryTrained
  repeat' first | (with_reducible apply keeps_next) | (with_reducible assumption) | (with_reducible apply memoryTrained_inv)

theorem trainingFailure_inv (s : State) (sub : Nat) (hInv : s.Good nF fl) : (trainingFailure s sub).Good nF fl := by
  unfold trainingFailure
  repeat'
    first
      | (with_reducible assumption) | (with_reducible refine modSec_inv _ _ rfl ?_)
      | (with_reducible apply inv_ite; rotate_left; intro _)
      | ((with_reducible refine inv_mk rfl ?_); first | with_reducible assumption | with_reducible refine modSec_inv _ _ rfl ?_ | (with_reducible apply inv_ite; rotate_left; intro _) | split)
      | (split) | (dsimp only)

theorem execTrainingFailure_keeps (sub : Nat) (s : State) (hInv : s.Good nF fl) :
    KeepsGood nF fl (execTrainingFailure sub s) := by
  unfold execTrainingFailure
  repeat' first | (with_reducible apply keeps_next) | (with_reducible assumption) | (with_reducible apply trainingFailure_inv)

theorem verifyImage_inv (s : State) (hInv : s.Good nF fl) : (verifyImage s).Good nF fl := by
  unfold verifyImage
  repeat'
    first
      | (with_reducible assumption) | (with_reducible refine modSec_inv _ _ rfl ?_) | (with_reducible apply setIo_inv)
      | (with_reducible apply devPut_inv) | (with_reducible apply extendMeas_inv)
      | (with_reducible apply inv_ite; rotate_left; intro _)
      | ((with_reducible refine inv_mk rfl ?_); first | with_reducible assumption | with_reducible refine modSec_inv _ _ rfl ?_ | with_reducible apply setIo_inv | with_reducible apply devPut_inv | with_reducible apply extendMeas_inv | (with_reducible apply inv_ite; rotate_left; intro _) | split)
      | (split) | (dsimp only)

theorem execImageVerify_keeps (s : State) (hInv : s.Good nF fl) : KeepsGood nF fl (execImageVerify s) := by
  unfold execImageVerify
  repeat' first | (with_reducible apply keeps_next) | (with_reducible assumption) | (with_reducible apply verifyImage_inv)

theorem startYard_inv (s : State) (e : Nat × Option Nat) (hInv : s.Good nF fl) : (startYard s e).Good nF fl := by
  unfold startYard
  repeat'
    first
      | (with_reducible assumption) | (with_reducible apply modYard_inv) | (with_reducible apply loseYard_inv)
      | (with_reducible apply modStable_inv) | (with_reducible apply inv_foldl; rotate_left; intro _ _ _)
      | ((with_reducible refine inv_mk rfl ?_); first | with_reducible assumption | with_reducible apply modYard_inv | with_reducible apply loseYard_inv | with_reducible apply modStable_inv | (with_reducible apply inv_foldl; rotate_left; intro _ _ _) | split)
      | (split) | (dsimp only)

theorem loadServiceStores_inv (s : State) (hInv : s.Good nF fl) : (loadServiceStores s).Good nF fl := by
  refine inv_sstore hInv ?_
  generalize (sectionOf s s.sec.slot 1).take 65536 = b
  have : ∀ (l : List Nat) (m : Map Byte), Memory.wf m = true → Memory.wf (l.foldl (fun m g => writeBytes m (g * 2 ^ 16) b) m) = true := by
    intro l
    induction l with
    | nil => intro m h; exact h
    | cons g l ih => intro m h; exact ih _ (wf_writeBytes _ _ _ h)
  exact this _ _ hInv.sstore

theorem selfTestsDone_inv (s : State) (failed : Nat) (hInv : s.Good nF fl) : (selfTestsDone s failed).Good nF fl := by
  unfold selfTestsDone
  repeat'
    first
      | (with_reducible assumption) | (with_reducible apply startYard_inv) | (with_reducible apply loadServiceStores_inv)
      | (with_reducible apply enterControl_inv) | (with_reducible refine modSec_inv _ _ rfl ?_)
      | (with_reducible apply inv_ite; rotate_left; intro _) | (with_reducible apply inv_foldl; rotate_left; intro _ _ _)
      | ((with_reducible refine inv_mk rfl ?_); first | with_reducible assumption | with_reducible apply startYard_inv | with_reducible apply loadServiceStores_inv | with_reducible apply enterControl_inv | with_reducible refine modSec_inv _ _ rfl ?_ | (with_reducible apply inv_ite; rotate_left; intro _) | (with_reducible apply inv_foldl; rotate_left; intro _ _ _) | split)
      | (split) | (dsimp only)

theorem execBringupSelfTestDone_keeps (failed : Nat) (s : State) (hInv : s.Good nF fl) :
    KeepsGood nF fl (execBringupSelfTestDone failed s) := by
  unfold execBringupSelfTestDone
  repeat' first | (with_reducible apply keeps_next) | (with_reducible assumption) | (with_reducible apply selfTestsDone_inv)

theorem ringDoorbell_inv (s : State) (opcode : Nat) (data : List Byte) (hInv : s.Good nF fl) :
    (ringDoorbell s opcode data).Good nF fl := by
  unfold ringDoorbell
  repeat'
    first
      | (with_reducible assumption) | (with_reducible refine modSec_inv _ _ rfl ?_)
      | ((with_reducible refine inv_mk rfl ?_); first | with_reducible assumption | with_reducible refine modSec_inv _ _ rfl ?_)
      | (dsimp only)

theorem vendorCommand_inv (s : State) (opcode : Nat) (data : List Byte) (lengthOk : Bool) (run : State → State) (hrun : ∀ t, State.Good t nF fl → State.Good (run t) nF fl) (hInv : s.Good nF fl) :
    (vendorCommand s opcode data lengthOk run).Good nF fl := by
  unfold vendorCommand
  repeat'
    first
      | (with_reducible assumption) | (with_reducible apply ringDoorbell_inv) | (with_reducible apply mailboxDone_inv)
      | (with_reducible apply inv_ite; rotate_left; intro _) | (split) | (dsimp only) | (with_reducible apply hrun)

theorem execQuote_keeps (data : List Byte) (s : State) (hInv : s.Good nF fl) : KeepsGood nF fl (execQuote data s) := by
  unfold execQuote
  repeat'
    first
      | (with_reducible apply keeps_next) | (with_reducible assumption) | (with_reducible apply vendorCommand_inv)
      | (with_reducible refine modSec_inv _ _ rfl ?_)
      | ((with_reducible refine inv_mk rfl ?_); first | with_reducible assumption | with_reducible apply vendorCommand_inv | with_reducible refine modSec_inv _ _ rfl ?_)
      | (dsimp only) | (intro _ _)

theorem execCertificate_keeps (data : List Byte) (s : State) (hInv : s.Good nF fl) :
    KeepsGood nF fl (execCertificate data s) := by
  unfold execCertificate
  repeat'
    first
      | (with_reducible apply keeps_next) | (with_reducible assumption) | (with_reducible apply vendorCommand_inv)
      | (with_reducible apply mailboxDone_inv) | (with_reducible apply inv_ite; rotate_left; intro _) | (split) | (dsimp only)
      | (intro _ _)

theorem writeChunk_inv (s : State) (data : List Byte) (hInv : s.Good nF fl) :
    ∃ g, (writeChunk s data).Good nF g := by
  unfold writeChunk
  dsimp only
  split
  · exact ⟨_, mailboxDone_inv _ _ _ _ hInv⟩
  · have hw := wf_writeBytes s.sec.flash (spareSlot s * 0x2000000 + leNat (data.take 4)) (data.drop 8) hInv.flash
    have hn := hInv.2.1
    subst hn
    exact ⟨_, mailboxDone_inv _ _ _ _ (inv_sec (c := { s.sec with flash := _ }) hInv hw)⟩

theorem execWriteImageChunk_keeps (data : List Byte) (s : State) (hInv : s.Good nF fl) {t : State}
    (he : execWriteImageChunk data s = .next t) : ∃ g, t.Good nF g := by
  unfold execWriteImageChunk vendorCommand at he
  cases he
  split
  · exact ⟨_, hInv⟩
  · split
    · exact ⟨_, inv_ite' (mailboxDone_inv _ _ _ _ (ringDoorbell_inv _ _ _ hInv)) (mailboxDone_inv _ _ _ _ (ringDoorbell_inv _ _ _ hInv))⟩
    · dsimp only
      split
      · exact ⟨_, mailboxDone_inv _ _ _ _ (ringDoorbell_inv _ _ _ hInv)⟩
      · exact writeChunk_inv _ _ (ringDoorbell_inv _ _ _ hInv)

theorem commitImage_inv (s : State) (hInv : s.Good nF fl) : (commitImage s).Good nF fl := by
  unfold commitImage
  repeat'
    first
      | (with_reducible assumption) | (with_reducible apply mailboxDone_inv) | (with_reducible apply moduleReset_inv)
      | (with_reducible apply inv_ite; rotate_left; intro _) | (split) | (dsimp only)

theorem execCommitImage_keeps (data : List Byte) (s : State) (hInv : s.Good nF fl) :
    KeepsGood nF fl (execCommitImage data s) := by
  unfold execCommitImage
  repeat'
    first
      | (with_reducible apply keeps_next) | (with_reducible assumption) | (with_reducible apply vendorCommand_inv)
      | (with_reducible apply commitImage_inv) | (intro _ _)

theorem advanceVersion_inv (s : State) (v : Nat) (hInv : s.Good nF fl) : ∃ n, (advanceVersion s v).Good n fl := by
  unfold advanceVersion
  split
  · refine ⟨_, mailboxDone_inv _ _ _ _ (nF := max s.sec.svnFuse v) ?_⟩
    rw [State.good_iff] at *
    exact ⟨hInv.1, hInv.2.1, hInv.2.2.1, hInv.2.2.2.1, hInv.2.2.2.2.1, hInv.2.2.2.2.2.1, hInv.2.2.2.2.2.2.1, rfl, hInv.2.2.2.2.2.2.2.2⟩
  · exact ⟨_, mailboxDone_inv _ _ _ _ hInv⟩

theorem execAdvanceSecurityVersion_keeps (data : List Byte) (s : State) (hInv : s.Good nF fl) {t : State}
    (he : execAdvanceSecurityVersion data s = .next t) : ∃ n, t.Good n fl := by
  unfold execAdvanceSecurityVersion vendorCommand at he
  cases he
  split
  · exact ⟨_, hInv⟩
  · split
    · exact ⟨_, inv_ite' (mailboxDone_inv _ _ _ _ (ringDoorbell_inv _ _ _ hInv)) (mailboxDone_inv _ _ _ _ (ringDoorbell_inv _ _ _ hInv))⟩
    · dsimp only
      split
      · exact ⟨_, mailboxDone_inv _ _ _ _ (ringDoorbell_inv _ _ _ hInv)⟩
      · exact advanceVersion_inv _ _ (ringDoorbell_inv _ _ _ hInv)

theorem readErrorLog_inv (s : State) (first count : Nat) (hInv : s.Good nF fl) : (readErrorLog s first count).Good nF fl := by
  unfold readErrorLog
  repeat'
    first
      | (with_reducible assumption) | (with_reducible apply mailboxDone_inv)
      | (with_reducible apply inv_ite; rotate_left; intro _) | (split) | (dsimp only)

theorem execReadErrorLog_keeps (data : List Byte) (s : State) (hInv : s.Good nF fl) :
    KeepsGood nF fl (execReadErrorLog data s) := by
  unfold execReadErrorLog
  repeat'
    first
      | (with_reducible apply keeps_next) | (with_reducible assumption) | (with_reducible apply vendorCommand_inv)
      | (with_reducible apply readErrorLog_inv) | (dsimp only) | (intro _ _)

theorem readHang_inv (s : State) (slot : Nat) (hInv : s.Good nF fl) : (readHang s slot).Good nF fl := by
  unfold readHang
  repeat'
    first
      | (with_reducible assumption) | (with_reducible apply mailboxDone_inv)
      | (with_reducible apply inv_ite; rotate_left; intro _) | (split) | (dsimp only)

theorem execReadHangRecord_keeps (data : List Byte) (s : State) (hInv : s.Good nF fl) :
    KeepsGood nF fl (execReadHangRecord data s) := by
  unfold execReadHangRecord
  repeat'
    first
      | (with_reducible apply keeps_next) | (with_reducible assumption) | (with_reducible apply vendorCommand_inv)
      | (with_reducible apply readHang_inv) | (dsimp only) | (intro _ _)

theorem readLost_inv (s : State) (first count : Nat) (hInv : s.Good nF fl) : (readLost s first count).Good nF fl := by
  unfold readLost
  repeat'
    first
      | (with_reducible assumption) | (with_reducible apply mailboxDone_inv)
      | (with_reducible apply inv_ite; rotate_left; intro _) | (split) | (dsimp only)

theorem execReadLostLineRing_keeps (data : List Byte) (s : State) (hInv : s.Good nF fl) :
    KeepsGood nF fl (execReadLostLineRing data s) := by
  unfold execReadLostLineRing
  repeat'
    first
      | (with_reducible apply keeps_next) | (with_reducible assumption) | (with_reducible apply vendorCommand_inv)
      | (with_reducible apply readLost_inv) | (dsimp only) | (intro _ _)

theorem standardCommand_inv (s : State) (opcode : Nat) (data : List Byte) (hInv : s.Good nF fl) :
    (standardCommand s opcode data).Good nF fl := by
  unfold standardCommand
  repeat'
    first
      | (with_reducible assumption) | (with_reducible apply ringDoorbell_inv) | (with_reducible apply mailboxDone_inv)
      | (with_reducible apply inv_ite; rotate_left; intro _) | (split) | (dsimp only)

theorem execMailboxStandardCommand_keeps (opcode : Nat) (data : List Byte) (s : State) (hInv : s.Good nF fl) :
    KeepsGood nF fl (execMailboxStandardCommand opcode data s) := by
  unfold execMailboxStandardCommand
  repeat' first | (with_reducible apply keeps_next) | (with_reducible assumption) | (with_reducible apply standardCommand_inv)

theorem execMailboxUnsupported_keeps (opcode : Nat) (s : State) (hInv : s.Good nF fl) :
    KeepsGood nF fl (execMailboxUnsupported opcode s) := by
  unfold execMailboxUnsupported
  repeat'
    first
      | (with_reducible apply keeps_next) | (with_reducible assumption) | (with_reducible apply mailboxDone_inv)
      | (with_reducible apply ringDoorbell_inv) | (with_reducible apply inv_ite; rotate_left; intro _) | (split) | (dsimp only)

theorem placeY_inv (s : State) (w : Nat) (hInv : s.Good nF fl) : (placeY s w).Good nF fl := by
  unfold placeY
  have hw := inv_istore hInv (wf_writeBytes s.istore 0 (leBytes 64 (bundleOfY w)) hInv.istore)
  with_reducible exact inv_mk rfl hw

end Sys2Proof.Machine
end

