-- ==== Sys2Proof/Laws/KeepStep.lean ====
section
/-!
SUPPORT. What one item of the agenda keeps: the invariant of every step, given that each instruction keeps it.
-/

namespace Sys2Proof.Machine

variable {nF : Nat} {fl : List Host.Cell}

/-- Every operation of the W and C slots keeps the invariant. -/
theorem runX_keeps (x : XOp) (s : State) (h : s.Good nF fl) : KeepsGood nF fl (runX x s) := by
  cases x with
  | st p w vs ks => exact execSt_keeps p w vs ks s h
  | str p bay off lane vs => exact execStr_keeps p bay off lane vs s h
  | stkStream p w ks => exact execStkStream_keeps p w ks s h
  | stkRound p bay off lane ks => exact execStkRound_keeps p bay off lane ks s h
  | stsRound p bay off8 lane a => exact execStsRound_keeps p bay off8 lane a s h
  | stsStream p w a => exact execStsStream_keeps p w a s h
  | pushVector p q vs => exact execPushVector_keeps p q vs s h
  | pushScalar p q a => exact execPushScalar_keeps p q a s h
  | spill p tok tile w => exact execSpill_keeps p tok tile w s h
  | movpRound p bay off lane port => exact execMovpRound_keeps p bay off lane port s h
  | movpScalar p a port lane => exact execMovpScalar_keeps p a port lane s h
  | xfer p frm dest lane fromaddr toaddr => exact execXfer_keeps p frm dest lane fromaddr toaddr s h
  | redsVector p vs t op ty sem => exact execRedsVector_keeps p vs t op ty sem s h
  | redsScalar p a t op ty sem => exact execRedsScalar_keeps p a t op ty sem s h
  | scfgTable p w entry => exact execScfgTable_keeps p w entry s h
  | scfgScalar p w word a => exact execScfgScalar_keeps p w word a s h
  | sadv p w dim steps => exact execSadv_keeps p w dim steps s h
  | srst p w => exact execSrst_keeps p w s h

/-- What a field decodes to has an encoding; so it is no event. -/
theorem decodeField_encodes {slot : Nat} {x ext : BitVec 64} {i : Instr} (h : decodeField slot x ext = .ok (.ins i)) :
    encode i ≠ none := by
  unfold decodeField at h
  split at h
  · cases h
  · split at h
    · cases h
    · split at h
      · cases h
      · split at h
        · cases h
        · split at h
          · cases h
          · split at h
            · cases h
            · cases h
              intro hn
              have he := ‹SlotOp.enc (.ins i) = some _›
              rw [show SlotOp.enc (.ins i) = none from hn] at he
              cases he

/-- A fetched slot keeps the invariant, the fuse counter and the flash where each encoded instruction does. -/
theorem fetchSlot_keeps (run : Instr → State → Host.Outcome State Fault Refusal) (s : State) (c slot : Nat)
    (hrun : ∀ i t, encode i ≠ none → State.Good t nF fl → KeepsGood nF fl (run i t)) (h : s.Good nF fl) :
    KeepsGood nF fl (fetchSlot run s c slot) := by
  unfold fetchSlot
  split
  · rename_i o ho
    cases o with
    | ins i => exact hrun i _ (decodeField_encodes ho) (enterSlot_inv _ _ _ h)
    | wc x => exact runX_keeps x _ (enterSlot_inv _ _ _ h)
  · exact keeps_next (faultAt_inv _ _ _ _ _ h)

/-- One item of the agenda keeps the invariant, the fuse counter and the flash where each encoded instruction does. -/
theorem runWork_keeps (run : Instr → State → Host.Outcome State Fault Refusal) (s : State) (w : Work)
    (hrun : ∀ i t, encode i ≠ none → State.Good t nF fl → KeepsGood nF fl (run i t)) (h : s.Good nF fl) :
    KeepsGood nF fl (runWork run s w) := by
  cases w with
  | land c => exact keeps_next (landCtx_inv s c h)
  | issue c => exact keeps_next (issueCtx_inv s c h)
  | fetch c slot => exact fetchSlot_keeps run s c slot hrun h
  | commit c => exact keeps_next (commitBundle_inv s c h)
  | close n => exact keeps_next (closeYard_inv s n h)
  | hang c => exact keeps_next (hangTimeout_inv s c h)
  | record c slot => exact keeps_next (writeHang_inv s c slot h)
  | swap l => exact keeps_next (swapAll_inv s l h)
  | rewind c => exact keeps_next (rewindStep_inv s c h)
  | jobs n slot => exact keeps_next (stepJobs_inv s n slot h)
  | period => exact keeps_next (runPeriod_inv s h)

end Sys2Proof.Machine
end

