-- ==== Sys2Proof/Laws/Ready.lean ====
section
/-!
SUPPORT. When the checks of streams, macros, scale tags and matrix products find nothing, from the conditions that Safety names.
-/

namespace Sys2Proof.Machine

theorem scale_granted {s : State} {kd} (hd : InGrant s kd) : need (kOk (me s) kd) 2 = fine := need_ok (by unfold kOk; exact decide_eq_true (show kd.toNat < _ from hd)) _

theorem stream_granted {s : State} {w : BitVec 5} (hd : w.toNat < (me s).grant.streams) : need (wOk (me s) w) 2 = fine := need_ok (by unfold wOk; exact decide_eq_true hd) _

theorem leBytes_len : ∀ (n x : Nat), (leBytes n x).length = n
  | 0, _ => rfl
  | n + 1, x => by simp [leBytes, leBytes_len n]

theorem streamFound_fine {s : State} {wn n data scale store t} (h : StreamReady s wn n data scale store t) :
    streamFound s wn n data scale store = fine := by
  obtain ⟨h1, h2, h3, h4, h5, h6, h7, h8, h9⟩ := h
  unfold streamFound; dsimp only
  rw [show wOk (me s) wn = true from decide_eq_true h1]
  simp only [Bool.not_true, Bool.false_eq_true, if_false, h2, h3]
  have a1 : need (sOffset (wreg (me s) wn.toNat) * ↑(containerBits t.fmt) % 8 == 0) 2 = fine := need_ok (by simp [h4]) _
  have a2 : need (!store || !namesFramed (myLaunch s) (wreg (me s) wn.toNat)) 2 = fine := need_ok (by cases store <;> simp_all) _
  have a3 : need (data || sStride (wreg (me s) wn.toNat) != 0) 2 = fine := need_ok (by cases data <;> simp_all) _
  rw [a1, a2, a3, trafficFound_fine h8]
  cases hk : tensorOf (myLaunch s) (sScaleT (wreg (me s) wn.toNat)) with
  | none => simp
  | some k =>
    have := fun a b => h7 a b k hk
    by_cases hs : scale = true
    · by_cases hz : sStride (wreg (me s) wn.toNat) = 0
      · simp [hs, hz]
      · have g := this hs hz
        have : need (!(scale && sStride (wreg (me s) wn.toNat) != 0) || (t.kind != 0 || (k.kind == 0 && k.bay == t.bay)) && (t.kind == 0 || k.kind != 0)) 2 = fine := need_ok (by
          by_cases c : t.kind = 0
          · simp [c, g.1 c]
          · simp [c, g.2 c]) _
        dsimp only; rw [this]; simp
    · simp [hs]

theorem streamBoard_fine {s : State} {wn n data scale store t} (h : StreamReady s wn n data scale store t) :
    streamBoard s wn = fine := by
  obtain ⟨h1, h2, h3, h4, h5, h6, h7, h8, h9⟩ := h
  unfold streamBoard boardFound offDie
  rw [h3]; apply waitIf_no
  by_cases c : t.kind = 0 <;> simp [c] at * <;> omega

theorem poisonTag_fine {s : State} {t : Nat} (h : SoundTag s t) : poisonTag s t = fine := by
  have : s.marks.filter (fun m => m.bad && m.owner == s.cur.ctx && m.struct == 2 && m.unit == fld (tagOf (me s) t) 16 8) = [] := by
    rw [List.filter_eq_nil_iff]; intro m hm hb
    simp only [Bool.and_eq_true, beq_iff_eq] at hb
    obtain ⟨⟨⟨hb, ho⟩, h1⟩, hx⟩ := hb
    exact h m hm hb ho h1 hx
  simp only [poisonTag]
  rw [this]
  rfl

theorem accFound_fine {s : State} {cm} (h : GoodAcc s cm) : accFound s cm = fine := by
  have : s.marks.filter (fun x => x.bad && x.struct == 0x0A && x.owner == s.cur.ctx && x.unit / 64 == cm.toNat) = [] := by
    rw [List.filter_eq_nil_iff]; intro m hm hb
    simp only [Bool.and_eq_true, beq_iff_eq] at hb
    exact h m hm hb.1.1.1 hb.1.1.2 hb.1.2 hb.2
  simp only [accFound]; rw [this]; rfl

theorem allOf_fine {l : List Found} (h : ∀ f ∈ l, f = fine) : allOf l = fine := by
  induction l with
  | nil => rfl
  | cons a r ih => rw [allOf_cons, h a (by simp), ih (fun f hf => h f (by simp [hf]))]; rfl

theorem fillFound_fine {c : Ctx} {mask} (h : NoFill c mask) : fillFound c mask = fine := by
  apply allOf_fine; intro f hf
  simp only [List.mem_map, List.mem_range] at hf
  obtain ⟨m, hm, rfl⟩ := hf
  split
  · next hb => have := h m hm hb; simp [this.1, this.2]
  · rfl

theorem busyFound_fine {s : State} {mask a b c} (h : Idle s mask a b c) : busyFound s mask a b c = fine := by
  apply allOf_fine; intro f hf
  simp only [List.mem_map, List.mem_range] at hf
  obtain ⟨m, hm, rfl⟩ := hf
  split
  · next hb =>
    have := h m hm hb
    cases a <;> cases b <;> cases c <;> simp_all
  · rfl

theorem parityFound_fine {s : State} {mask} (h : GoodParity s mask) : parityFound s mask = fine := by
  unfold parityFound fine
  congr 1
  rw [List.filterMap_eq_nil_iff]; intro m hm
  dsimp only
  split
  · next hb =>
    simp only [Bool.and_eq_true] at hb
    rw [h m (by simpa using hm) hb.1 hb.2]; rfl
  · rfl

theorem macros_granted {s : State} {mask : BitVec 8} (hm : mask &&& ~~~(me s).grant.macros = 0) : need (maskOk (me s) mask) 2 = fine :=
  need_ok (by simp only [maskOk, hm]; rfl) _

theorem macro_granted {s : State} {cm : BitVec 3} (hm : bit (me s).grant.macros cm.toNat = true) : need (cmOk (me s) cm) 2 = fine := need_ok hm _

theorem mmaClash_none {s : State} {v vd abay aoff bbay boff al bl sc} (h : MmaReady s v vd abay aoff bbay boff al bl sc) : mmaClash s abay bbay = none := by
  have h8 := h.2.2.2.2.2.2.2.2.1
  unfold mmaClash; dsimp only
  rw [List.find?_eq_none]; intro u hu
  have := h8 u hu
  simp only [Bool.and_eq_true, Bool.or_eq_true, beq_iff_eq, decide_eq_true_eq]
  rintro ⟨⟨ha, hb⟩, hc⟩
  exact this ha hb hc

theorem mmaFound_fine {s : State} {v vd abay aoff bbay boff al bl sc} (h : MmaReady s v vd abay aoff bbay boff al bl sc) :
    mmaFound s v vd abay aoff bbay boff al bl sc = fine := by
  have hc := mmaClash_none h
  obtain ⟨h1, h2, h3, h4, h5, h6, h7, h8, -, h10, h11⟩ := h
  unfold mmaFound; dsimp only
  rw [hc, locks_fine h1, need_ok (by rw [h3, h4]; rfl), need_ok (by rw [h7, h8]; simp [h5, h6]),
    if_pos (by simpa using h10)]
  by_cases c : sc = 1
  · obtain ⟨g1, g2, g3, g4, g5, g6, g7⟩ := h11 c
    subst c
    have e : (1#1 == 1#1) = true := rfl
    simp [g1, g2, g3, g4, g5, g6, poisonTag_fine g7]
  · have : (sc == 1#1) = false := by simpa using c
    simp [this]

theorem mmaRows_granted {s : State} {v vd abay aoff bbay boff al bl sc} (h : MmaReady s v vd abay aoff bbay boff al bl sc) : mmaRowsOk s v vd sc = fine :=
  need_ok (decide_eq_true h.2.1) _

theorem mmaRow_granted {s : State} {v vd abay aoff bbay boff al bl sc} (h : MmaReady s v vd abay aoff bbay boff al bl sc) : need (decide (vd.toNat < 64 * (me s).grant.tiles)) 2 = fine := by
  apply need_ok; have := h.2.1; simp only [decide_eq_true_eq]
  have : 0 < mmaRows v (sc == 1#1) := by unfold mmaRows; split <;> omega
  omega

end Sys2Proof.Machine
end

