-- ==== Sys2Proof/Tests/Slice0.lean ====
section
/-!
SUPPORT. Tests: the field of every slot operation, composed from the form tables of spec/04_opcode_map.md, decodes to it; an ill-formed
term for each check of WellFormed is refused; and, for every statement with hypotheses, a state and operands that meet them, clause by
clause. The expected instructions and states come from the rules the comments name, not from runs of the model.
-/

namespace Sys2Proof.Tests

open Sys2Proof Sys2Proof.Machine

set_option Elab.async false

/-! Decoding: one word for each of the 256 codes. -/

/-- S slot (R104 to R106): codes 1 to 24 of the map in its order. -/
theorem test_decode_s0 :
    decodeField 0 0x197BDB40000 0x0 = .ok (.ins (.add 25 30 61 45)) ∧
    decodeField 0 0x39D7B840000 0x0 = .ok (.ins (.sub 25 53 59 33)) ∧
    decodeField 0 0x449E6400000 0x0 = .ok (.ins (.mul 4 39 38 16)) ∧
    decodeField 0 0x6E7D1BC0000 0x0 = .ok (.ins (.mulh 14 31 17 47)) ∧
    decodeField 0 0x9DB16740000 0x0 = .ok (.ins (.mulhs 29 44 22 29)) ∧
    decodeField 0 0xB360B900000 0x0 = .ok (.ins (.div 19 24 11 36)) ∧
    decodeField 0 0xD6CB2CC0000 0x0 = .ok (.ins (.divs 22 50 50 51)) ∧
    decodeField 0 0xE40E3BC0000 0x0 = .ok (.ins (.rem 4 3 35 47)) ∧
    decodeField 0 0x1111F8580000 0x0 = .ok (.ins (.and 17 7 56 22)) ∧
    decodeField 0 0x1221B39C0000 0x0 = .ok (.ins (.or 2 6 51 39)) ∧
    decodeField 0 0x146372340000 0x0 = .ok (.ins (.xor 6 13 50 13)) ∧
    decodeField 0 0x1618B6700000 0x0 = .ok (.ins (.andn 1 34 54 28)) ∧
    decodeField 0 0x18F8D9880000 0x0 = .ok (.ins (.shl 15 35 25 34)) ∧
    decodeField 0 0x1A5B6CE80000 0x0 = .ok (.ins (.shr 5 45 44 58)) ∧
    decodeField 0 0x1D3FC2980000 0x0 = .ok (.ins (.sar 19 63 2 38)) ∧
    decodeField 0 0x1F62A6940000 0x0 = .ok (.ins (.rotl 22 10 38 37)) ∧
    decodeField 0 0x20C2B3D40000 0x0 = .ok (.ins (.min 12 10 51 53)) ∧
    decodeField 0 0x22407DF40000 0x0 = .ok (.ins (.max 4 1 61 61)) ∧
    decodeField 0 0x2516719C0000 0x0 = .ok (.ins (.mins 17 25 49 39)) ∧
    decodeField 0 0x2784C6340000 0x0 = .ok (.ins (.maxs 24 19 6 13)) ∧
    decodeField 0 0x28E7196C8000 0x0 = .ok (.ins (.addsh 14 28 25 27 1)) ∧
    decodeField 0 0x2BEC11000000 0x0 = .ok (.ins (.clz 30 48 17)) ∧
    decodeField 0 0x2CE32B000000 0x0 = .ok (.ins (.popc 14 12 43)) ∧
    decodeField 0 0x2FB0C3F5C000 0x0 = .ok (.ins (.sel 27 3 3 61 7)) := by
  refine ⟨?_, ?_, ?_, ?_, ?_, ?_, ?_, ?_, ?_, ?_, ?_, ?_, ?_, ?_, ?_, ?_, ?_, ?_, ?_, ?_, ?_, ?_, ?_, ?_⟩ <;> rfl

/-- S slot (R104 to R106): codes 25 to 48 of the map in its order. -/
theorem test_decode_s1 :
    decodeField 0 0x40DD8B30D87C 0x0 = .ok (.ins (.addi 13 54 11 0 3201148)) ∧
    decodeField 0 0x4481B82FF905 0x0 = .ok (.ins (.mulImm 8 6 56 0 3143941)) ∧
    decodeField 0 0x50CB9733732F 0x0 = .ok (.ins (.andImm 12 46 23 0 3371823)) ∧
    decodeField 0 0x53AD51381E2F 0x0 = .ok (.ins (.orImm 26 53 17 0 3677743)) ∧
    decodeField 0 0x554E3E249DEF 0x0 = .ok (.ins (.xorImm 20 56 62 0 2399727)) ∧
    decodeField 0 0x5887D900003B 0x0 = .ok (.ins (.shlImm 8 31 25 0 59)) ∧
    decodeField 0 0x5AFD6400003C 0x0 = .ok (.ins (.shrImm 15 53 36 0 60)) ∧
    decodeField 0 0x5CDE69000026 0x0 = .ok (.ins (.sarImm 13 57 41 0 38)) ∧
    decodeField 0 0x5FD04200000C 0x0 = .ok (.ins (.rotlImm 29 1 2 0 12)) ∧
    decodeField 0 0x60FDCE24A609 0x0 = .ok (.ins (.minImm 15 55 14 0 2401801)) ∧
    decodeField 0 0x63C4673387E5 0x0 = .ok (.ins (.maxImm 28 17 39 0 3377125)) ∧
    decodeField 0 0x647E171E2D4D 0x0 = .ok (.ins (.minsImm 7 56 23 0 1977677)) ∧
    decodeField 0 0x67D52C0729CA 0x0 = .ok (.ins (.maxsImm 29 20 44 0 469450)) ∧
    decodeField 0 0x81B205940000 0x0 = .ok (.ins (.cmpeq 27 2 5 37)) ∧
    decodeField 0 0x829A33300000 0x0 = .ok (.ins (.cmpne 9 10 51 12)) ∧
    decodeField 0 0x85D6024C0000 0x0 = .ok (.ins (.cmplt 29 6 2 19)) ∧
    decodeField 0 0x865A1E700000 0x0 = .ok (.ins (.cmplts 5 10 30 28)) ∧
    decodeField 0 0x89F939C40000 0x0 = .ok (.ins (.cmple 31 9 57 49)) ∧
    decodeField 0 0x8ABE171C0000 0x0 = .ok (.ins (.cmples 11 14 23 7)) ∧
    decodeField 0 0x91952A1AF79E 0x0 = .ok (.ins (.cmpeqImm 25 5 42 0 1767326)) ∧
    decodeField 0 0x92B23E2FA1AE 0x0 = .ok (.ins (.cmpneImm 11 2 62 0 3121582)) ∧
    decodeField 0 0x94642D3379C4 0x0 = .ok (.ins (.cmpltImm 6 4 45 0 3373508)) ∧
    decodeField 0 0x96E63B2BA938 0x0 = .ok (.ins (.cmpltsImm 14 6 59 0 2861368)) ∧
    decodeField 0 0x988A371ACB45 0x0 = .ok (.ins (.cmpleImm 8 10 55 0 1755973)) := by
  refine ⟨?_, ?_, ?_, ?_, ?_, ?_, ?_, ?_, ?_, ?_, ?_, ?_, ?_, ?_, ?_, ?_, ?_, ?_, ?_, ?_, ?_, ?_, ?_, ?_⟩ <;> rfl

/-- S slot (R104 to R106): codes 49 to 71 of the map in its order. -/
theorem test_decode_s2 :
    decodeField 0 0x9BE82E359660 0x0 = .ok (.ins (.cmplesImm 30 8 46 0 3511904)) ∧
    decodeField 0 0xA14F0FE3C450 0x0 = .ok (.ins (.li 20 60 0 266585168)) ∧
    decodeField 0 0xA2C701341002 0x1E13EE9E3 = .ok (.ins (.liLong 12 28 8669352835511750658)) ∧
    decodeField 0 0xA9E408000000 0x0 = .ok (.ins (.pset 30 4 8)) ∧
    decodeField 0 0xAA9A65C00000 0x0 = .ok (.ins (.pand 9 10 6 5 1 1)) ∧
    decodeField 0 0xAC2ABFC00000 0x0 = .ok (.ins (.por 2 10 11 15 1 1)) ∧
    decodeField 0 0xAE8FD5C00000 0x0 = .ok (.ins (.pxor 8 15 13 5 1 1)) ∧
    decodeField 0 0xB1D220000000 0x0 = .ok (.ins (.pnot 29 2 2)) ∧
    decodeField 0 0xC030000009F5 0x0 = .ok (.ins (.br 3 2549)) ∧
    decodeField 0 0xC29020000000 0x0 = .ok (.ins (.brScalar 9 32)) ∧
    decodeField 0 0xC440175A81A7 0x0 = .ok (.ins (.bc 4 23 22 5 423)) ∧
    decodeField 0 0xC66EC00009DC 0x0 = .ok (.ins (.call 6 59 2524)) ∧
    decodeField 0 0xC86014000000 0x0 = .ok (.ins (.ret 6 20)) ∧
    decodeField 0 0xCBA03B0006CA 0x0 = .ok (.ins (.loopScalar 26 59 1738)) ∧
    decodeField 0 0xCC40080005F3 0x0 = .ok (.ins (.loopNbound 4 2 1523)) ∧
    decodeField 0 0xCEF0008FF518 0x0 = .ok (.ins (.loopImm 15 2303 1304)) ∧
    decodeField 0 0xD0F000000000 0x0 = .ok (.ins (.lexit 15)) ∧
    decodeField 0 0xD2BF00000003 0x0 = .ok (.ins (.lidx 11 60 3)) ∧
    decodeField 0 0xE051C0000021 0x0 = .ok (.ins (.csrr 5 7 33)) ∧
    decodeField 0 0xE3503F0008C0 0x0 = .ok (.ins (.csrw 21 63 2240)) ∧
    decodeField 0 0xE5900AB468C0 0x0 = .ok (.ins (.csrwImm 25 43846 2240)) ∧
    decodeField 0 0xE7160B000000 0x0 = .ok (.ins (.nbnd 17 6 11)) ∧
    decodeField 0 0xE8EB5C93B555 0x0 = .ok (.ins (.nbndImm 14 11 1553184085)) := by
  refine ⟨?_, ?_, ?_, ?_, ?_, ?_, ?_, ?_, ?_, ?_, ?_, ?_, ?_, ?_, ?_, ?_, ?_, ?_, ?_, ?_, ?_, ?_, ?_⟩ <;> rfl

/-- VA and VB slots (R108, R109): codes 1 to 24 of the map in its order. -/
theorem test_decode_v0 :
    decodeField 1 0x1E4B82B621E4000 0x0 = .ok (.ins (.vadd 30 2416 2776 4338)) ∧
    decodeField 1 0x293C94CC2888000 0x0 = .ok (.ins (.vsub 9 1938 4912 5188)) ∧
    decodeField 1 0x460FD5FFAD22000 0x0 = .ok (.ins (.vmul 6 506 6142 5777)) ∧
    decodeField 1 0x6CBFF5FF9C7C000 0x0 = .ok (.ins (.vmin 12 6142 6142 3646)) ∧
    decodeField 1 0x91BFF5FF9450000 0x0 = .ok (.ins (.vmax 17 6142 6142 2600)) ∧
    decodeField 1 0xB1152ACCAFFC49D 0x0 = .ok (.ins (.vfma 17 677 2866 6142 1181)) ∧
    decodeField 1 0xC3086382091D7FE 0x0 = .ok (.ins (.vfms 3 268 3592 1166 6142)) ∧
    decodeField 1 0xF3BFF0A1549227A 0x0 = .ok (.ins (.vfnma 19 6142 645 2633 634)) ∧
    decodeField 1 0x103BFF1EFA000000 0x0 = .ok (.ins (.vaddScalar 3 6142 1982 32)) ∧
    decodeField 1 0x12702F5633400000 0x0 = .ok (.ins (.vsubScalar 7 94 5516 52)) ∧
    decodeField 1 0x155BFF3549300000 0x0 = .ok (.ins (.vmulScalar 21 6142 3410 19)) ∧
    decodeField 1 0x16A1CADFF8800000 0x0 = .ok (.ins (.vminScalar 10 917 6142 8)) ∧
    decodeField 1 0x1986025CBAB00000 0x0 = .ok (.ins (.vmaxScalar 24 3076 5934 43)) ∧
    decodeField 1 0x1A7BFF1EB3EBFF00 0x0 = .ok (.ins (.vfmaScalar 7 6142 1964 62 6142)) ∧
    decodeField 1 0x1C7BFF3C2BEBFF00 0x0 = .ok (.ins (.vfmsScalar 7 6142 3850 62 6142)) ∧
    decodeField 1 0x1E3BFF10F599CE80 0x0 = .ok (.ins (.vfnmaScalar 3 6142 1085 25 5021)) ∧
    decodeField 1 0x205BFF5FF8000000 0x0 = .ok (.ins (.vabs 5 6142 6142)) ∧
    decodeField 1 0x228136DBE0000000 0x0 = .ok (.ins (.vneg 8 621 5880)) ∧
    decodeField 1 0x24E0DEDFF8000000 0x0 = .ok (.ins (.vrcp 14 445 6142)) ∧
    decodeField 1 0x272BFF0298000000 0x0 = .ok (.ins (.vrsq 18 6142 166)) ∧
    decodeField 1 0x288BFF1560000000 0x0 = .ok (.ins (.vexp2 8 6142 1368)) ∧
    decodeField 1 0x2ABBFF5FF8000000 0x0 = .ok (.ins (.vlog2 11 6142 6142)) ∧
    decodeField 1 0x2D1646DFF919C000 0x0 = .ok (.ins (.vclamp 17 3213 6142 17 39)) ∧
    decodeField 1 0x2F5BFF1542FFD7FE 0x0 = .ok (.ins (.vsel 21 6142 1360 6142 6142)) := by
  refine ⟨?_, ?_, ?_, ?_, ?_, ?_, ?_, ?_, ?_, ?_, ?_, ?_, ?_, ?_, ?_, ?_, ?_, ?_, ?_, ?_, ?_, ?_, ?_, ?_⟩ <;> rfl

/-- VA and VB slots (R108, R109): codes 25 to 48 of the map in its order. -/
theorem test_decode_v1 :
    decodeField 1 0x303BFF5FF90F4000 0x0 = .ok (.ins (.vcmpeqF 3 6142 6142 2170)) ∧
    decodeField 1 0x336BFF5FF8348000 0x0 = .ok (.ins (.vcmpeqI 22 6142 6142 420)) ∧
    decodeField 1 0x3449505FFA9E2000 0x0 = .ok (.ins (.vcmpltF 4 4768 6142 5361)) ∧
    decodeField 1 0x378BFF5FFAC9C000 0x0 = .ok (.ins (.vcmpltSi 24 6142 6142 5710)) ∧
    decodeField 1 0x383BFF5FFAFFC000 0x0 = .ok (.ins (.vcmpltUi 3 6142 6142 6142)) ∧
    decodeField 1 0x3A48B65FFAFFC000 0x0 = .ok (.ins (.vcmpleF 4 4460 6142 6142)) ∧
    decodeField 1 0x3DBA1ADFFAFFC000 0x0 = .ok (.ins (.vcmpleSi 27 5173 6142 6142)) ∧
    decodeField 1 0x3E3BFF42B2FFC000 0x0 = .ok (.ins (.vcmpleUi 3 6142 4268 6142)) ∧
    decodeField 1 0x41F6E85FFAFFC000 0x0 = .ok (.ins (.viaddB 31 3536 6142 6142)) ∧
    decodeField 1 0x424BFF0716FFC000 0x0 = .ok (.ins (.viaddH 4 6142 453 6142)) ∧
    decodeField 1 0x45CA3235401B8000 0x0 = .ok (.ins (.viaddW 28 5220 3408 220)) ∧
    decodeField 1 0x47DBFF5FFAFFC000 0x0 = .ok (.ins (.visubB 29 6142 6142 6142)) ∧
    decodeField 1 0x48201EDFF87CC000 0x0 = .ok (.ins (.visubH 2 61 6142 998)) ∧
    decodeField 1 0x4A6BFF5FF99FA000 0x0 = .ok (.ins (.visubW 6 6142 6142 3325)) ∧
    decodeField 1 0x4DB21234D6FFC000 0x0 = .ok (.ins (.vimulB 27 1060 3381 6142)) ∧
    decodeField 1 0x4E1BFF3396FFC000 0x0 = .ok (.ins (.vimulH 1 6142 3301 6142)) ∧
    decodeField 1 0x513BFF16EAFFC000 0x0 = .ok (.ins (.vimulW 19 6142 1466 6142)) ∧
    decodeField 1 0x52A3A8DFFAFFD711 0x0 = .ok (.ins (.vimacB 10 1873 6142 6142 5905)) ∧
    decodeField 1 0x54FAC55056F7A09C 0x0 = .ok (.ins (.vimacH 15 5514 5141 6077 156)) ∧
    decodeField 1 0x56D65F5FFAFFD34C 0x0 = .ok (.ins (.vimacW 13 3262 6142 6142 4940)) ∧
    decodeField 1 0x5916CADFFAFFC000 0x0 = .ok (.ins (.vand 17 3477 6142 6142)) ∧
    decodeField 1 0x5ACBFF5FFAFFC000 0x0 = .ok (.ins (.vor 12 6142 6142 6142)) ∧
    decodeField 1 0x5D472B5FFAD7C000 0x0 = .ok (.ins (.vxor 20 3670 6142 5822)) ∧
    decodeField 1 0x5E1BFF5FF8000000 0x0 = .ok (.ins (.vpopc 1 6142 6142)) := by
  refine ⟨?_, ?_, ?_, ?_, ?_, ?_, ?_, ?_, ?_, ?_, ?_, ?_, ?_, ?_, ?_, ?_, ?_, ?_, ?_, ?_, ?_, ?_, ?_, ?_⟩ <;> rfl

/-- VA and VB slots (R108, R109): codes 49 to 72 of the map in its order. -/
theorem test_decode_v2 :
    decodeField 1 0x602924C196400000 0x0 = .ok (.ins (.viaddBScalar 2 4681 4197 36)) ∧
    decodeField 1 0x63410C2B70C00000 0x0 = .ok (.ins (.viaddHScalar 20 536 2780 12)) ∧
    decodeField 1 0x6452013521500000 0x0 = .ok (.ins (.viaddWScalar 5 1026 3400 21)) ∧
    decodeField 1 0x66ABFF14F1800000 0x0 = .ok (.ins (.visubBScalar 10 6142 1340 24)) ∧
    decodeField 1 0x6838A6DFFAE00000 0x0 = .ok (.ins (.visubHScalar 3 4429 6142 46)) ∧
    decodeField 1 0x6A9BFF2D59800000 0x0 = .ok (.ins (.visubWScalar 9 6142 2902 24)) ∧
    decodeField 1 0x6C18C828D0800000 0x0 = .ok (.ins (.vimulBScalar 1 4496 2612 8)) ∧
    decodeField 1 0x6FCBFF5FF9700000 0x0 = .ok (.ins (.vimulHScalar 28 6142 6142 23)) ∧
    decodeField 1 0x71578C5EE9B00000 0x0 = .ok (.ins (.vimulWScalar 21 3864 6074 27)) ∧
    decodeField 1 0x72FBFF5FF9254800 0x0 = .ok (.ins (.vimacBScalar 15 6142 6142 18 2704)) ∧
    decodeField 1 0x7413203079B31900 0x0 = .ok (.ins (.vimacHScalar 1 1600 3102 27 1586)) ∧
    decodeField 1 0x77481F5FFBFBFF00 0x0 = .ok (.ins (.vimacWScalar 20 4158 6142 63 6142)) ∧
    decodeField 1 0x805BFF5FF8A00000 0x0 = .ok (.ins (.vshlB 5 6142 6142 5)) ∧
    decodeField 1 0x837BFF5FF8E00000 0x0 = .ok (.ins (.vshlH 23 6142 6142 7)) ∧
    decodeField 1 0x8520FB5FF8A00000 0x0 = .ok (.ins (.vshlW 18 502 6142 5)) ∧
    decodeField 1 0x86DBFF1484C00000 0x0 = .ok (.ins (.vshrB 13 6142 1313 6)) ∧
    decodeField 1 0x8831829548600000 0x0 = .ok (.ins (.vshrH 3 773 1362 3)) ∧
    decodeField 1 0x8BBBFF22F0E00000 0x0 = .ok (.ins (.vshrW 27 6142 2236 7)) ∧
    decodeField 1 0x8DB7905FF8E00000 0x0 = .ok (.ins (.vsarB 27 3872 6142 7)) ∧
    decodeField 1 0x8E36DE5FF8C00000 0x0 = .ok (.ins (.vsarH 3 3516 6142 6)) ∧
    decodeField 1 0x90A67D02C8E00000 0x0 = .ok (.ins (.vsarW 10 3322 178 7)) ∧
    decodeField 1 0x923BFF5FFB460000 0x0 = .ok (.ins (.vcvt 3 6142 6142 26 6)) ∧
    decodeField 1 0x9570DA3522C50000 0x0 = .ok (.ins (.vcvtK 23 436 3400 22 5)) ∧
    decodeField 1 0x96B5EF22A2FFCC00 0x0 = .ok (.ins (.vpack 11 3038 2216 6142 3)) := by
  refine ⟨?_, ?_, ?_, ?_, ?_, ?_, ?_, ?_, ?_, ?_, ?_, ?_, ?_, ?_, ?_, ?_, ?_, ?_, ?_, ?_, ?_, ?_, ?_, ?_⟩ <;> rfl

/-- VA and VB slots (R108, R109): codes 73 to 96 of the map in its order. -/
theorem test_decode_v3 :
    decodeField 1 0x9856E101C1880000 0x0 = .ok (.ins (.vunpk 5 3522 112 3 1)) ∧
    decodeField 1 0xA14BFF56B5882000 0x0 = .ok (.ins (.vperm 20 6142 5549 3137)) ∧
    decodeField 1 0xA2DBFF40E9560600 0x0 = .ok (.ins (.vshuf 13 6142 4154 2736 6)) ∧
    decodeField 1 0xA54BFF3C80000000 0x0 = .ok (.ins (.vbcastScalar 20 6142 30 1)) ∧
    decodeField 1 0xA68BFF3738AA8000 0x0 = .ok (.ins (.vbcastElement 8 6142 3534 85 1)) ∧
    decodeField 1 0xA8962FFC17800000 0x0 = .ok (.ins (.vextrImm 9 24 6142 23 2)) ∧
    decodeField 1 0xABEB6FFCD2000000 0x0 = .ok (.ins (.vextrScalar 30 45 6142 26 1)) ∧
    decodeField 1 0xAD49D6DFF8316A00 0x0 = .ok (.ins (.vinsImm 20 5037 6142 3 45 1)) ∧
    decodeField 1 0xAF666CDFF9F45000 0x0 = .ok (.ins (.vinsScalar 22 3289 6142 31 17 1)) ∧
    decodeField 1 0xB03A275FF8000000 0x0 = .ok (.ins (.vmov 3 5198 6142)) ∧
    decodeField 1 0xB3C884FC50C490E0 0x0 = .ok (.ins (.vrng 28 4361 62 10 6 9351)) ∧
    decodeField 1 0xB4A44A210D5CC340 0x0 = .ok (.ins (.vrngF 10 2196 16 33 42 58906)) ∧
    decodeField 1 0xB843A54005400000 0x0 = .ok (.ins (.tapp 4 1 6 4768 21)) ∧
    decodeField 1 0xBBEE56B0074F0000 0x0 = .ok (.ins (.taps 30 7 1 2904 29 15)) ∧
    decodeField 1 0xBC2B280000000000 0x0 = .ok (.ins (.tapld 2 5 37)) ∧
    decodeField 1 0xBFBA340000000000 0x0 = .ok (.ins (.taprd 27 40 6 1)) ∧
    decodeField 1 0xC11BFF3924000000 0x0 = .ok (.ins (.vredsumF 17 6142 3657)) ∧
    decodeField 1 0xC23BFF5FF8000000 0x0 = .ok (.ins (.vredsumI 3 6142 6142)) ∧
    decodeField 1 0xC5C4535FF8000000 0x0 = .ok (.ins (.vredmaxF 28 2214 6142)) ∧
    decodeField 1 0xC759041290000000 0x0 = .ok (.ins (.vredmaxSi 21 4616 1188)) ∧
    decodeField 1 0xC962D25FF8000000 0x0 = .ok (.ins (.vredminF 22 1444 6142)) ∧
    decodeField 1 0xCB6BFF5FF8000000 0x0 = .ok (.ins (.vredminSi 22 6142 6142)) ∧
    decodeField 1 0xCC5BFF5FF8000000 0x0 = .ok (.ins (.vargmax 5 6142 6142)) ∧
    decodeField 1 0xCF3BFF5810000000 0x0 = .ok (.ins (.vscanF 19 6142 5636)) := by
  refine ⟨?_, ?_, ?_, ?_, ?_, ?_, ?_, ?_, ?_, ?_, ?_, ?_, ?_, ?_, ?_, ?_, ?_, ?_, ?_, ?_, ?_, ?_, ?_, ?_⟩ <;> rfl

/-- VA and VB slots (R108, R109): codes 97 to 115 of the map in its order. -/
theorem test_decode_v4 :
    decodeField 1 0xD1BBFF2574000000 0x0 = .ok (.ins (.vscanI 27 6142 2397)) ∧
    decodeField 1 0xD51BEABC74400000 0x0 = .ok (.ins (.ksetImm 17 190 1 1 5 58274)) ∧
    decodeField 1 0xD66EFC3B80000000 0x0 = .ok (.ins (.ksetScalar 6 239 1 2 1 55)) ∧
    decodeField 1 0xD98E9D2000000000 0x0 = .ok (.ins (.kmov 24 233 210)) ∧
    decodeField 1 0xDABAC8CF20000000 0x0 = .ok (.ins (.kmul 11 172 140 242)) ∧
    decodeField 1 0xDDEE711FD0000000 0x0 = .ok (.ins (.kaddeImm 30 231 17 253)) ∧
    decodeField 1 0xDE6696E500000000 0x0 = .ok (.ins (.kaddeScalar 6 105 110 20)) ∧
    decodeField 1 0xE1ED2A9F50000000 0x0 = .ok (.ins (.kmaxe 30 210 169 245)) ∧
    decodeField 1 0xE291544000000000 0x0 = .ok (.ins (.kcvtBf16 9 21 68)) ∧
    decodeField 1 0xE54A617000000000 0x0 = .ok (.ins (.kcvtE8m0 20 166 23)) ∧
    decodeField 1 0xE63925CC00000000 0x0 = .ok (.ins (.kbindTile 3 18 75 1 3)) ∧
    decodeField 1 0xE84D12B000000000 0x0 = .ok (.ins (.kbindBank 4 6 1 18 1 6)) ∧
    decodeField 1 0xEA72800000000000 0x0 = .ok (.ins (.kunbindTile 7 5)) ∧
    decodeField 1 0xEC75000000000000 0x0 = .ok (.ins (.kunbindBank 7 2 1)) ∧
    decodeField 1 0xEF286D6580000000 0x0 = .ok (.ins (.krdRow 18 4314 203)) ∧
    decodeField 1 0xF02EB22180000000 0x0 = .ok (.ins (.krdScalar 2 58 200 33 1)) ∧
    decodeField 1 0xF2AC4BFF00000000 0x0 = .ok (.ins (.kwrRow 10 196 6142)) ∧
    decodeField 1 0xF497052600000000 0x0 = .ok (.ins (.kwrScalar 9 112 20 38)) ∧
    decodeField 1 0xF75BC4E151000000 0x0 = .ok (.ins (.kgen 21 188 2498 1 4 1)) := by
  refine ⟨?_, ?_, ?_, ?_, ?_, ?_, ?_, ?_, ?_, ?_, ?_, ?_, ?_, ?_, ?_, ?_, ?_, ?_, ?_⟩ <;> rfl

/-- M slot (R110, R111): codes 1 to 24 of the map in its order. -/
theorem test_decode_m0 :
    decodeField 3 0x4E04450CDC395E4 0x0 = .ok (.ins (.mmaL6 19 1032 4 1292 6 3612 10 15 0 1)) ∧
    decodeField 3 0xE6FABE959DC4CF4 0x0 = .ok (.ins (.mmaI8 25 1525 3 3733 4 3810 6 7 2 1)) ∧
    decodeField 3 0x1710224E3746DDA4 0x0 = .ok (.ins (.mmaE4m3 28 516 2 1251 3 2614 14 13 0 1)) ∧
    decodeField 3 0x19AA7127CFA98264 0x0 = .ok (.ins (.mmaE5m2 6 1358 1 636 7 3404 1 3 0 1)) ∧
    decodeField 3 0x215D34E8EFEE8224 0x0 = .ok (.ins (.mmaE4e5 5 934 4 3726 7 3956 1 1 0 1)) ∧
    decodeField 3 0x28465B2EF6A7DEE4 0x0 = .ok (.ins (.mmaE5e4 1 203 3 751 3 1342 15 7 0 1)) ∧
    decodeField 3 0x32DE5600546E9F04 0x0 = .ok (.ins (.mmaBf16 11 970 6 5 2 884 15 8 0 1)) ∧
    decodeField 3 0x3DD87A43633C95A4 0x0 = .ok (.ins (.mmaFp16 23 783 2 1078 1 2532 10 13 0 1)) ∧
    decodeField 3 0x472D5E8CBE505564 0x0 = .ok (.ins (.mmazL6 28 1451 6 2251 7 642 10 11 0 1)) ∧
    decodeField 3 0x4F152A9D57CD5994 0x0 = .ok (.ins (.mmazI8 28 677 2 2517 3 3690 12 12 2 1)) ∧
    decodeField 3 0x54DB0251BCAE0984 0x0 = .ok (.ins (.mmazE4m3 19 864 2 1307 6 1392 4 12 0 1)) ∧
    decodeField 3 0x5D1D12C0886D6D84 0x0 = .ok (.ins (.mmazE5m2 20 930 2 3080 4 875 6 12 0 1)) ∧
    decodeField 3 0x626DE2936B021EE4 0x0 = .ok (.ins (.mmazE4e5 9 1468 2 2358 5 2064 15 7 0 1)) ∧
    decodeField 3 0x6CE33C39CFBE0944 0x0 = .ok (.ins (.mmazE5e4 19 1127 4 924 7 3568 4 10 0 1)) ∧
    decodeField 3 0x724D0EE2BEF71BA4 0x0 = .ok (.ins (.mmazBf16 9 417 6 3627 7 1976 13 13 0 1)) ∧
    decodeField 3 0x7C88F37EBDDFC524 0x0 = .ok (.ins (.mmazFp16 18 286 3 2027 6 3838 2 9 0 1)) ∧
    decodeField 3 0x820000000000C023 0x0 = .ok (.ins (.mxhint 8 49187)) ∧
    decodeField 3 0x89400000000001EE 0x0 = .ok (.ins (.cmode 5 1 238)) ∧
    decodeField 3 0x95D93C5454000000 0x0 = .ok (.ins (.cloadRow 23 3230 1 81 10)) ∧
    decodeField 3 0x9FA58DD68D600000 0x0 = .ok (.ins (.cloadRound 30 4 2843 10 6 141 12)) ∧
    decodeField 3 0xA2000000000000D4 0x0 = .ok (.ins (.cswap 8 212)) ∧
    decodeField 3 0xA8C4A951E8000000 0x0 = .ok (.ins (.cmacRow 3 18 5288 7 1 8)) ∧
    decodeField 3 0xB21A0B5F8D9C0000 0x0 = .ok (.ins (.cmacRound 8 104 1 1727 1 5 1 7)) ∧
    decodeField 3 0xBDAFFC6000000000 0x0 = .ok (.ins (.cread 22 6142 1 1)) := by
  refine ⟨?_, ?_, ?_, ?_, ?_, ?_, ?_, ?_, ?_, ?_, ?_, ?_, ?_, ?_, ?_, ?_, ?_, ?_, ?_, ?_, ?_, ?_, ?_, ?_⟩ <;> rfl

/-- M slot (R110, R111): codes 25 to 27 of the map in its order. -/
theorem test_decode_m1 :
    decodeField 3 0xC7C475A000000000 0x0 = .ok (.ins (.creadK 31 570 6 1)) ∧
    decodeField 3 0xCF40000000000057 0x0 = .ok (.ins (.cclr 29 87)) ∧
    decodeField 3 0xD04000000000000C 0x0 = .ok (.ins (.cchk 1 1 4)) := by
  refine ⟨?_, ?_, ?_⟩ <;> rfl

/-- L slot (R112): codes 1 to 9 of the map in its order. -/
theorem test_decode_l0 :
    decodeField 4 0xE5FF8FC36A400 0x0 = .ok (.ins (.ld 28 6142 7 225 2898)) ∧
    decodeField 4 0x1A5FFB600B0000 0x0 = .ok (.ins (.ldr 20 6142 6 3073 6)) ∧
    decodeField 4 0x21B2163B800000 0x0 = .ok (.ins (.ldkStream 3 100 5 2286)) ∧
    decodeField 4 0x3EE47649B00000 0x0 = .ok (.ins (.ldkRound 29 200 7 1609 11)) ∧
    decodeField 4 0x48C37869380000 0x0 = .ok (.ins (.ldsRound 17 33 5 28882 7)) ∧
    decodeField 4 0x53677010000000 0x0 = .ok (.ins (.ldsStream 6 51 23 16)) ∧
    decodeField 4 0x60891649FC0000 0x0 = .ok (.ins (.popVector 1 581 18 1278)) ∧
    decodeField 4 0x7567BF41000000 0x0 = .ok (.ins (.popScalar 10 51 27 3905)) ∧
    decodeField 4 0x8CA77580000000 0x0 = .ok (.ins (.fill 25 19 23 11)) := by
  refine ⟨?_, ?_, ?_, ?_, ?_, ?_, ?_, ?_, ?_⟩ <;> rfl

/-- W slot (R113): codes 1 to 9 of the map in its order. -/
theorem test_decode_w0 :
    decodeField 5 0x98AFFCC0000 0x0 = .ok (.wc (.st 19 2 6142 96)) ∧
    decodeField 5 0x1D47032BFF00 0x0 = .ok (.wc (.str 26 4 1795 2 6142)) ∧
    decodeField 5 0x2AEA70000000 0x0 = .ok (.wc (.stkStream 21 26 156)) ∧
    decodeField 5 0x3DC94F51E000 0x0 = .ok (.wc (.stkRound 27 4 2383 5 30)) ∧
    decodeField 5 0x4FA98A96F800 0x0 = .ok (.wc (.stsRound 31 2 19540 11 31)) ∧
    decodeField 5 0x5EDC70000000 0x0 = .ok (.wc (.stsStream 29 23 7)) ∧
    decodeField 5 0x674211400000 0x0 = .ok (.wc (.pushVector 14 16 4234)) ∧
    decodeField 5 0x7EEBF0000000 0x0 = .ok (.wc (.pushScalar 29 26 63)) ∧
    decodeField 5 0x8BB8C5000000 0x0 = .ok (.wc (.spill 23 28 12 10)) := by
  refine ⟨?_, ?_, ?_, ?_, ?_, ?_, ?_, ?_, ?_⟩ <;> rfl

/-- C slot (R114): codes 1 to 9 of the map in its order. -/
theorem test_decode_c0 :
    decodeField 6 0xF4B7C521000 0x0 = .ok (.wc (.movpRound 30 4 2940 5 33)) ∧
    decodeField 6 0x169643E00000 0x0 = .ok (.wc (.movpScalar 13 11 33 15)) ∧
    decodeField 6 0x2423F52C8080 0x0 = .ok (.wc (.xfer 8 4 7 14 2649 16)) ∧
    decodeField 6 0x3D5FFAA7CC00 0x0 = .ok (.wc (.redsVector 26 6142 42 3 1 51)) ∧
    decodeField 6 0x4BAA43CC0000 0x0 = .ok (.wc (.redsScalar 23 21 8 3 1 38)) ∧
    decodeField 6 0x530D2DC00000 0x0 = .ok (.wc (.scfgTable 6 3 1207)) ∧
    decodeField 6 0x63CABF000000 0x0 = .ok (.wc (.scfgScalar 7 18 10 63)) ∧
    decodeField 6 0x72070A420000 0x0 = .ok (.wc (.sadv 4 1 3 2626)) ∧
    decodeField 6 0x86BC00000000 0x0 = .ok (.wc (.srst 13 15)) := by
  refine ⟨?_, ?_, ?_, ?_, ?_, ?_, ?_, ?_, ?_⟩ <;> rfl

/-- Y slot (R107): codes 1 to 16 of the map in its order. -/
theorem test_decode_y0 :
    decodeField 7 0x60000 0x0 = .ok (.ins (.nop 6)) ∧
    decodeField 7 0x80006 0x0 = .ok (.ins (.bar 0 6)) ∧
    decodeField 7 0x100002 0x0 = .ok (.ins (.rdv 0 2)) ∧
    decodeField 7 0x1FDC82 0x0 = .ok (.ins (.waitdImm 7 56450)) ∧
    decodeField 7 0x220030 0x0 = .ok (.ins (.waitdScalar 2 48)) ∧
    decodeField 7 0x2A0006 0x0 = .ok (.ins (.fence 2 6)) ∧
    decodeField 7 0x350BAF 0x0 = .ok (.ins (.semsig 5 46 47)) ∧
    decodeField 7 0x3B0AA5 0x0 = .ok (.ins (.semsigScalar 3 42 37)) ∧
    decodeField 7 0x460CC1 0x0 = .ok (.ins (.semwait 6 51 1)) ∧
    decodeField 7 0x480000 0x0 = .ok (.ins (.yield 0)) ∧
    decodeField 7 0x5208FD 0x0 = .ok (.ins (.svc 2 2301)) ∧
    decodeField 7 0x5B0ABF 0x0 = .ok (.ins (.trap 3 2751)) ∧
    decodeField 7 0x610000 0x0 = .ok (.ins (.halt 1)) ∧
    decodeField 7 0x6E0692 0x0 = .ok (.ins (.probe 6 26 18)) ∧
    decodeField 7 0x76087D 0x0 = .ok (.ins (.discard 6 33 61)) ∧
    decodeField 7 0x7A0000 0x0 = .ok (.ins (.exit 2)) := by
  refine ⟨?_, ?_, ?_, ?_, ?_, ?_, ?_, ?_, ?_, ?_, ?_, ?_, ?_, ?_, ?_, ?_⟩ <;> rfl

/-! An ill-formed term for each check, which the check refuses. -/

/-- (!p0) in each slot (R75), a predicate on RDV, BAR and YIELD (R94), register 1,536 and direction 3 (R76, R102), tiles above 23, an
element width of 3 and widths of 5 (R102). -/
theorem test_wf_refuses_common :
    Instr.wf (.add 16 1 2 3) = false ∧ Instr.wf (.vadd 16 4 4 4) = false ∧ Instr.wf (.mxhint 16 1) = false ∧ Instr.wf (.ldr 16 4 0 0 0) = false ∧
    Instr.wf (.stsStream 16 1 1) = false ∧ Instr.wf (.srst 16 1) = false ∧
    Instr.wf (.bar 1 0) = false ∧ Instr.wf (.rdv 1 0) = false ∧ Instr.wf (.yield 1) = false ∧
    Instr.wf (.vmov 0 6144 0) = false ∧ Instr.wf (.vmov 0 0 3) = false ∧ Instr.wf (.vmov 0 6142 6142) = true ∧
    Instr.wf (.kbindTile 0 24 1 0 0) = false ∧ Instr.wf (.kunbindTile 0 24) = false ∧ Instr.wf (.fill 0 1 24 1) = false ∧ Instr.wf (.spill 0 1 24 1) = false ∧
    Instr.wf (.vbcastScalar 0 0 1 3) = false ∧ Instr.wf (.vextrScalar 0 1 0 1 3) = false ∧ Instr.wf (.vinsScalar 0 0 0 1 1 3) = false ∧
    Instr.wf (.vpack 0 0 0 0 5) = false ∧ Instr.wf (.vunpk 0 0 0 5 0) = false := by
  decide

/-- S slot: an immediate beside a pool selector (R85), a shift immediate above 63 or from the pool (R105), condition codes 6 and 7, a body
length of 0 and a loop index of 6 (R104), CSR numbers that are read only, unassigned, or write only (R37, R103, R412); Y: scope 10. -/
theorem test_wf_refuses_scalar :
    Instr.wf (.addi 0 1 2 1 5) = false ∧ Instr.wf (.li 0 1 3 1) = false ∧ Instr.wf (.cmpeqImm 0 1 2 2 1) = false ∧
    Instr.wf (.shlImm 0 1 2 0 64) = false ∧ Instr.wf (.rotlImm 0 1 2 1 0) = false ∧ Instr.wf (.sarImm 0 1 2 0 63) = true ∧
    Instr.wf (.bc 0 1 2 6 0) = false ∧ Instr.wf (.bc 0 1 2 7 0) = false ∧ Instr.wf (.bc 0 1 2 5 0) = true ∧
    Instr.wf (.loopScalar 0 1 0) = false ∧ Instr.wf (.loopNbound 0 1 0) = false ∧ Instr.wf (.loopImm 0 1 0) = false ∧ Instr.wf (.lidx 0 1 6) = false ∧
    Instr.wf (.csrw 0 1 0x000) = false ∧ Instr.wf (.csrr 0 1 0x004) = false ∧ Instr.wf (.csrr 0 1 0x808) = false ∧ Instr.wf (.csrwImm 0 1 0x802) = false ∧
    Instr.wf (.csrw 0 1 0x7FF) = false ∧ Instr.wf (.fence 0 10) = false ∧ Instr.wf (.fence 0 9) = true := by
  decide

/-- Vector forms: shift amounts and element indices beyond the width, a part beyond the ratio, shuffle patterns that are not assigned,
formats above 0x1B (R102, R108, R164, R166), a tap's first row in a view and more than 64 rows (R182), scale format 0 and block 8 (R108). -/
theorem test_wf_refuses_vector :
    Instr.wf (.vshlB 0 0 0 8) = false ∧ Instr.wf (.vshrH 0 0 0 16) = false ∧ Instr.wf (.vsarW 0 0 0 31) = true ∧
    Instr.wf (.vbcastElement 0 0 0 128 2) = false ∧ Instr.wf (.vextrImm 0 1 0 256 1) = false ∧ Instr.wf (.vinsImm 0 0 0 1 511 0) = true ∧
    Instr.wf (.vunpk 0 0 0 2 2) = false ∧ Instr.wf (.vunpk 0 0 0 0 7) = true ∧ Instr.wf (.vshuf 0 0 0 0 28) = false ∧ Instr.wf (.vshuf 0 0 0 0 25) = false ∧
    Instr.wf (.vcvt 0 0 0 28 0) = false ∧ Instr.wf (.vcvtK 0 0 0 0 28) = false ∧
    Instr.wf (.tapp 0 0 0 1 0) = false ∧ Instr.wf (.taps 0 0 0 0 64 0) = false ∧
    Instr.wf (.ksetImm 0 0 0 0 0 1) = false ∧ Instr.wf (.ksetScalar 0 0 0 1 8 1) = false ∧ Instr.wf (.kgen 0 0 0 0 8 1) = false ∧
    Instr.wf (.kbindBank 0 0 0 0 0 8) = false := by
  decide

/-- M, W and C: an MMA row of 1,536, signs on a variant other than .i8, weight format 0x10 and accumulator code 21 (R110); a station port
that is not assigned (R203); XFER from a place to itself, from a row above 1,535 and to a port above the map, odd types on REDS, and
descriptor word 11 (R114). -/
theorem test_wf_refuses_matrix_and_transport :
    Instr.wf (.mmaI8 0 1536 0 0 4 0 0 0 0 0) = false ∧ Instr.wf (.mmaBf16 0 0 0 0 4 0 0 0 1 0) = false ∧ Instr.wf (.mmazI8 0 0 0 0 4 0 0 0 3 0) = true ∧
    Instr.wf (.cloadRow 0 0 0 0 16) = false ∧ Instr.wf (.cmacRow 0 1 0 0 0 21) = false ∧ Instr.wf (.cmacRound 0 1 0 0 0 0 0 20) = true ∧
    Instr.wf (.movpScalar 0 1 0x31 0) = false ∧ Instr.wf (.movpRound 0 0 0 0 0x84) = false ∧ Instr.wf (.movpScalar 0 1 0x11 0) = true ∧
    Instr.wf (.xfer 0 4 4 0 0 0) = false ∧ Instr.wf (.xfer 0 1 4 0 1536 0) = false ∧ Instr.wf (.xfer 0 4 5 0 0 0x20) = false ∧ Instr.wf (.xfer 0 4 7 0 0 0x10) = true ∧
    Instr.wf (.redsScalar 0 1 1 1 1 0) = false ∧ Instr.wf (.redsVector 0 0 1 3 1 0) = true ∧ Instr.wf (.scfgScalar 0 0 11 1) = false := by
  decide

/-! States for the witnesses. -/

/-- A primary context of Stall 0 in issue: 24 tiles, 256 scale registers, 32 streams, every macro, 6 loops, every tap and semaphore, 64
bundles. -/
def unit0 : Ctx :=
  { ctxInit with status := .running, launch := 1, landedNow := true, grant := { tileBase := 0, kregBase := 0, tiles := 24, kregs := 256, streamBase := 0, streams := 32, macros := 255, loops := 6, taps := 255, sems := BitVec.allOnes 64, codeBase := 0, codeLen := 64, entry := 0, segbudget := 0 } }

/-- A running launch of one Stall with the whole of each bay and every semaphore. -/
def launch1 : Launch :=
  { launchInit with state := .running, header := List.replicate 24 0 ++ List.replicate 8 64 ++ [1, 1, 1, 1], yards := [0], semmask := BitVec.allOnes 64, m0 := 0, p0 := 0 }

/-- The machine with that context and launch, each changed, on a running Yard. -/
def world (f : Ctx → Ctx) (g : Launch → Launch) : State :=
  { State.reset with ctxs := [(0, f unit0)], launches := [(1, g launch1)], yards := [(0, { yardInit with status := .running })] }

/-- The machine with that context as it stands. -/
def w0 : State := world id id

/-- A snapshot of that context. -/
def snap0 : Snapshot := snapshotOf w0 0 unit0

/-- The same machine with its scalars s1 and s2 set. -/
def w2 (x y : Word) : State := world (fun c => { c with sregs := [(1, x), (2, y)] }) id

/-- The machine in a service bundle of that context. -/
def wsvc : State := { w0 with cur := { State.reset.cur with ctx := 1 }, ctxs := [(0, { unit0 with inSvc := true }), (1, { unit0 with probeOk := true })] }

/-- Operands below register 1,536 of a full grant, with nothing in flight and nothing damaged, are usable. -/
theorem usable_clean {s : State} {dst src : List (BitVec 13)} {ks : List (BitVec 8)} (ho : (me s).ops = []) (hm : s.marks = [])
    (hg : (me s).grant = unit0.grant) (hd : (dst ++ src).all (fun v => decide (vnum v < 1536)) = true) : Usable s dst src ks := by
  refine ⟨?_, ?_, ?_, ?_⟩
  · intro v h
    rw [hg]
    exact of_decide_eq_true (List.all_eq_true.mp hd v h)
  · intro k _
    rw [hg]
    exact k.isLt
  · intro o h
    rw [ho] at h
    cases h
  · intro m h
    rw [hm] at h
    cases h

/-- With no train and no reservation, traffic inside the extents is free. -/
theorem roundFree_clean {s : State} {r : Traffic} (ht : (stableAt s (stableOf s.cur.ctx)).trains = []) (hr : (stableAt s (stableOf s.cur.ctx)).reserves = [])
    (he : ∀ t ∈ r.1, inExtent (myLaunch s) t.bay t.off t.n = true) : RoundFree s r := by
  refine ⟨he, ?_, ?_⟩
  · intro b h
    rw [ht] at h
    cases h
  · intro v h
    rw [hr] at h
    cases h

/-- With nothing damaged, rows are sound. -/
theorem soundRows_clean {s : State} (hm : s.marks = []) (rows : List Nat) : SoundRows s rows := by
  intro m h
  rw [hm] at h
  cases h

/-- With nothing damaged, the scale register of a tag is sound. -/
theorem soundTag_clean {s : State} (hm : s.marks = []) (t : Nat) : SoundTag s t := by
  intro m h
  rw [hm] at h
  cases h

/-- With nothing damaged, accumulators are good. -/
theorem goodAcc_clean {s : State} (hm : s.marks = []) (cm : BitVec 3) : GoodAcc s cm := by
  intro m h
  rw [hm] at h
  cases h

/-- With no access in flight, tiles are unlocked. -/
theorem unlocked_clean {c : Ctx} (ho : c.ops = []) (a b : List Nat) : Unlocked c a b := by
  intro o h
  rw [ho] at h
  cases h

/-! Witnesses: for each statement with hypotheses, a state and operands that meet them, clause by clause. -/

/-- A predicate that is true: p0, p15 where it is set, and (!p1) where p1 is not. Statements with no other hypothesis. -/
theorem witness_ScalarResultsWrite :
    predTrue (me w0) 0 = true ∧ predTrue (me (world (fun c => { c with pregs := 0x8001 }) id)) 15 = true ∧ predTrue (me w0) 0x11 = true := by decide

theorem witness_ScalarDivisionWrites : predTrue (me (w2 (BitVec.intMin 64) (BitVec.allOnes 64))) 0 = true ∧ sreg (me (w2 5 0)) 2 = 0 := by decide

theorem witness_BitCountsWrite :
    (predTrue (me w0) 0 = true ∧ 64 ≤ 64 ∧ (sreg (me w0) 0).toNat < 2 ^ (64 - 64) ∧ (64 < 64 → 2 ^ (63 - 64) ≤ (sreg (me w0) 0).toNat)) ∧
    (63 ≤ 64 ∧ (sreg (me (w2 1 0)) 1).toNat < 2 ^ (64 - 63) ∧ (63 < 64 → 2 ^ (63 - 63) ≤ (sreg (me (w2 1 0)) 1).toNat)) ∧
    (0 ≤ 64 ∧ (sreg (me (w2 (BitVec.intMin 64) 0)) 1).toNat < 2 ^ (64 - 0) ∧ (0 < 64 → 2 ^ (63 - 0) ≤ (sreg (me (w2 (BitVec.intMin 64) 0)) 1).toNat)) := by decide

theorem witness_ComparisonsWritePredicate : predTrue (me (w2 (BitVec.allOnes 64) 0)) 0 = true := by decide

theorem witness_PredicateOperationsWrite : predTrue (me w0) 0x1F = true := by decide

theorem witness_LoopIndexAndBoundWrites : predTrue (me (world (fun c => { c with loops := [⟨0xFFFFFFFF, 0xFFFFFFFF, 0, 1⟩] }) id)) 0 = true := by decide

theorem witness_CsrAccessCompletes :
    (predTrue (me w0) 0 = true ∧ (0x7FF#12).toNat < 0x800) ∧ (predTrue (me wsvc) 0 = true ∧ isSvc wsvc.cur.ctx = true ∧
      0x800 ≤ (0x807#12).toNat ∧ (0x807#12).toNat < 0x808 ∧ 0x808 ≤ (0x808#12).toNat ∧ (me wsvc).probeOk = true) ∧
    (predTrue (me (modMe wsvc (fun c => { c with probeOk := false }))) 0 = true ∧ isSvc wsvc.cur.ctx = true ∧
      (me (modMe wsvc (fun c => { c with probeOk := false }))).probeOk = false) := by decide

/-- The word of the CSRR in test_decode_s0 with the unassigned numbers 0x004 and 0x02A does not decode. -/
theorem witness_csrNumbers :
    decodeField 0 0xE051C0000004 0 = .error .illegalField ∧ decodeField 0 0xE051C000002A 0 = .error .illegalField := by
  refine ⟨?_, ?_⟩ <;> rfl

theorem witness_ServiceOnlyFormsFault : isSvc w0.cur.ctx = false ∧ 0x800 ≤ (0x800#12).toNat := by decide

/-- Targets at the last bundle, and each condition holding and failing. -/
theorem witness_TransfersSetNextBundle :
    predTrue (me (w2 63 64)) 0 = true ∧ (63#12).toNat < (me (w2 63 64)).grant.codeLen ∧ (sreg (me (w2 63 64)) 1).toNat < (me (w2 63 64)).grant.codeLen ∧
    (let x := sreg (me (w2 63 64)) 1
     let y := sreg (me (w2 63 64)) 2
     (x ≠ y ∧ x.toNat < y.toNat ∧ x.toInt < y.toInt ∧ x.toNat ≤ y.toNat ∧ x.toInt ≤ y.toInt) ∧
     (¬ x = y ∧ ¬ y.toNat < x.toNat ∧ ¬ y.toInt < x.toInt ∧ ¬ y.toNat ≤ x.toNat ∧ ¬ y.toInt ≤ x.toInt) ∧ x = x ∧ ¬ x ≠ x) := by decide

/-- A loop that skips, one whose body ends at the last bundle with five entries below it, and one that ends with the body it stands in. -/
theorem witness_LoopsPushAndLeave :
    (let s := world (fun c => { c with loops := List.replicate 5 ⟨0, 1, 60, 4⟩ }) id
     predTrue (me s) 0 = true ∧ ((me s).loops.length < (me s).grant.loops) ∧ s.cur.pc + 1 + (63#12).toNat ≤ (me s).grant.codeLen ∧
       ∀ e ∈ (me s).loops.head?, e.start ≤ s.cur.pc → s.cur.pc < e.start + e.len → s.cur.pc + 1 + (63#12).toNat ≤ e.start + e.len) ∧
    (let s := world (fun c => { c with loops := [⟨0, 1, 0, 4⟩] }) id
     (0#16).setWidth 32 = 0#32 ∧ s.cur.pc + 1 + (3#12).toNat ≤ (me s).grant.codeLen ∧
       (∀ e ∈ (me s).loops.head?, e.start ≤ s.cur.pc → s.cur.pc < e.start + e.len → s.cur.pc + 1 + (3#12).toNat ≤ e.start + e.len) ∧
       (me s).loops = ⟨0, 1, 0, 4⟩ :: [] ∧ 0 + 4 < (me s).grant.codeLen) ∧
    (let s := world (fun c => { c with loops := [⟨0, 1, 59, 4⟩] }) id
     (me s).loops = ⟨0, 1, 59, 4⟩ :: [] ∧ 59 + 4 < (me s).grant.codeLen) := by decide

theorem witness_TransfersBeyondCodeFault :
    (let s := w2 64 65
     predTrue (me s) 0 = true ∧ (me s).grant.codeLen ≤ (64#12).toNat ∧ compare 2 (sreg (me s) 1) (sreg (me s) 2) = true ∧
       (me s).grant.codeLen ≤ (sreg (me s) 1).toNat ∧ (me s).grant.codeLen < s.cur.pc + 1 + (64#12).toNat ∧ (me s).loops = []) ∧
    (let s := world (fun c => { c with loops := List.replicate 6 ⟨0, 1, 0, 4⟩ }) id
     (1#16 ≠ 0 ∧ (me s).grant.loops ≤ (me s).loops.length) ∧
       ∃ e ∈ (me s).loops.head?, e.start ≤ s.cur.pc ∧ s.cur.pc < e.start + e.len ∧ e.start + e.len < s.cur.pc + 1 + (4#12).toNat) ∧
    (let s := world (fun c => { c with loops := [⟨0, 1, 60, 4⟩] }) id
     ∃ e ∈ (me s).loops.head?, (me s).grant.codeLen ≤ e.start + e.len) ∧
    (let s := world (fun c => { c with loops := List.replicate 6 ⟨0, 1, 0, 4⟩, sregs := [(1, 0x80000001)], nregs := [(15, 1)] }) id
     ((sreg (me s) 1).extractLsb' 0 32 ≠ 0 ∧ nreg (me s) 15 ≠ 0) ∧ (me s).grant.loops ≤ (me s).loops.length) := by
  refine ⟨by decide, ⟨by decide, ⟨_, rfl, by decide⟩⟩, ⟨_, rfl, by decide⟩, by decide⟩

theorem witness_OrderingOperationsComplete :
    predTrue (me w0) (0#2 ++ 0#3) = true ∧ lateSet w0 w0.cur.cycle (65535#16).toNat = [] ∧
    lateSet (w2 (BitVec.allOnes 64) 0) w0.cur.cycle (min (sreg (me (w2 (BitVec.allOnes 64) 0)) 1).toNat 65535) = [] ∧ (4#4).toNat < 5 ∧
    (5 ≤ (5#4).toNat ∧ (5#4).toNat ≠ 9) ∧ (predTrue (me wsvc) 0 = true ∧ 5 ≤ (9#4).toNat ∧ isSvc wsvc.cur.ctx = true) ∧
    bit (me w0).grant.sems (63#6).toNat = true ∧ bit (me (w2 (BitVec.allOnes 64) 0)).grant.sems (fld (sreg (me (w2 (BitVec.allOnes 64) 0)) 1) 0 6) = true := by decide

/-- A world whose semaphore 63 stands at a value. -/
def wsem (v : BitVec 32) (f : Ctx → Ctx) : State := { world f id with stables := [(0, { stableInit with sems := [(63, v)] })] }

/-- The whole count taken, without a budget and with exactly eight charges left of it. -/
theorem witness_SemwaitTakesTheCount :
    (let s := wsem 64 id
     predTrue (me s) (0#2 ++ 0#3) = true ∧ bit (me s).grant.sems (63#6).toNat = true ∧ (63#6).toNat + 1 ≤ (semVal s (63#6).toNat).toNat ∧ (me s).grant.segbudget = 0) ∧
    (let s := wsem 64 (fun c => { c with grant := { c.grant with segbudget := 512 }, charge := 504, snap := some snap0 })
     (63#6).toNat + 1 ≤ (semVal s (63#6).toNat).toNat ∧ (me s).grant.segbudget ≠ 0 ∧ openCharge s + 8 ≤ (me s).grant.segbudget ∧ openCharge s = 504) := by decide

theorem witness_SemwaitShortWaitsOrFaults :
    (let s := wsem 63 id
     predTrue (me s) (0#2 ++ 0#3) = true ∧ bit (me s).grant.sems (63#6).toNat = true ∧ (semVal s (63#6).toNat).toNat < (63#6).toNat + 1 ∧ dctrap (me s) = false) ∧
    (let s := wsem 63 (fun c => { c with mode := 1 })
     bit (me s).grant.sems (63#6).toNat = true ∧ (semVal s (63#6).toNat).toNat < (63#6).toNat + 1 ∧ dctrap (me s) = true) := by decide

/-- A group 15 of two Stalls of one Stable, the other member one RDV ahead and the barrier of ordinal 0 released. -/
def wgrp : State :=
  let s := world (fun c => { c with barOpen := [(15, 1)] }) (fun l => { l with header := List.replicate 24 0 ++ List.replicate 8 64 ++ [1, 1, 1, 2], groups := [(15, 0, 1)] })
  { s with ctxs := s.ctxs ++ [(4, { unit0 with k := 1, rdv := [(15, 1)] })] }

theorem witness_GroupOperationsComplete :
    predTrue (me wgrp) (0#2 ++ 0#3) = true ∧ groupOf (myLaunch wgrp) (15#4).toNat = some (0, 1) ∧ 0 ≤ (me wgrp).k ∧ (me wgrp).k ≤ 1 ∧
    (∀ m ∈ membersOf (myLaunch wgrp) 15, yardOf m = yardOf wgrp.cur.ctx) ∧
    (∀ m ∈ membersOf (myLaunch wgrp) 15, m ≠ wgrp.cur.ctx → arrived wgrp m 15 (ordinal (me wgrp) 15) = true) ∧
    membersOf (myLaunch wgrp) 15 = [0, 4] ∧ ordinal (me wgrp) 15 < mget (me wgrp).barOpen 15 0 := by decide

theorem witness_SystemOperationsTakeEffectAtCommit :
    (let s := { w0 with cur := { w0.cur with yieldMark := true } }
     predTrue (me s) (0#2 ++ 0#3) = true ∧ s.cur.yieldMark = true) := by decide

/-- A device tensor of one tile, probed over all its 65,536 bytes, with an answer or without one, and an empty range. -/
def wprobe (ok : Bool) : State :=
  world (fun c => { c with sregs := [(1, 0x0001000000000000), (2, 65536)], probeOk := ok })
    (fun l => { l with tensors := [⟨1, 1, 0, 0, 0, 65536, 0, 1, 0⟩] })

/-- The same with the tile in the translation cache and resident. -/
def wcached : State := { wprobe false with tcache := [⟨0, 1, 0, 0, true⟩], dev := [(64, 1)] }

theorem witness_ProbeAndDiscardComplete :
    (∀ b, predTrue (me (wprobe b)) (0#2 ++ 0#3) = true ∧ fld (sreg (me (wprobe b)) 0) 0 48 = 0 ∧
      (let x := sreg (me (wprobe b)) 1
       let len := fld (sreg (me (wprobe b)) 2) 0 48
       ∃ t, tensorOf (myLaunch (wprobe b)) (fld x 48 16) = some t ∧ t.kind ≠ 0 ∧ len ≠ 0 ∧ (fld x 0 48 + len - 1) / 65536 < t.tiles ∧ (me (wprobe b)).probeOk = b)) ∧
    (∃ i ∈ tilesIn 0 65536 false, cached (wprobe false) 0 1 i = false) ∧
    (∀ d ∈ [1, 2], let s : State := { wcached with dev := [(64, d)] }
      (me s).probeOk = false ∧ (∀ o ∈ (me s).ops, o.performed = false → o.q = .device → changesTiles o.kind = false) ∧
      (∀ i ∈ tilesIn 0 65536 false, cached s s.cur.ctx 1 i = true ∧ (tileState s ⟨1, 1, 0, 0, 0, 65536, 0, 1, 0⟩ i = 1 ∨ tileState s ⟨1, 1, 0, 0, 0, 65536, 0, 1, 0⟩ i = 2)) ∧
      (pinTiles s s.cur.ctx 0 (tilesIn 0 65536 false)).isSome = true) ∧
    (let s := modMe wcached (fun c => { c with ops := [{ id := 5, q := .device, kind := .discard 1 0 1, dst := .none, issue := 0, slot := 4, opc := 0, pc := 0, seg := 0, since := 0, performed := false, landed := false, trapped := false, ans := .waiting }] })
     ∃ o ∈ (me s).ops, o.performed = false ∧ o.q = .device ∧ changesTiles o.kind = true) := by
  refine ⟨fun b => by cases b <;> exact ⟨by decide, by decide, _, rfl, by decide⟩, ⟨0, by decide, by decide⟩, by decide +kernel, ⟨_, List.mem_singleton.mpr rfl, by decide⟩⟩

/-- Every operand at the last register in the diagonal view. -/
theorem usable_last : Usable w0 [6142] [6142, 6141, 6140] [255] := usable_clean rfl rfl rfl rfl

theorem witness_VectorFloatCompletes :
    predTrue (me w0) 0 = true ∧ Usable w0 [6142] [6142, 6140] [] ∧ Usable w0 [6142] [6142, 6141, 6140] [] ∧ Usable w0 [0] [6142] [] ∧ Usable w0 [6142] [0, 6140] [] :=
  ⟨by decide, usable_clean rfl rfl rfl rfl, usable_clean rfl rfl rfl rfl, usable_clean rfl rfl rfl rfl,
    usable_clean rfl rfl rfl rfl⟩

theorem witness_VectorComparesAndSelectComplete : predTrue (me w0) 0 = true ∧ Usable w0 [6142] [6142, 0] [] ∧ Usable w0 [0] [6142, 6141, 6140] [] :=
  ⟨by decide, usable_clean rfl rfl rfl rfl, usable_clean rfl rfl rfl rfl⟩

theorem witness_VectorIntegersComplete :
    predTrue (me w0) 0 = true ∧ Usable w0 [6142] [6142, 6140] [] ∧ Usable w0 [6142] [6142, 6141, 6140] [] ∧ Usable w0 [0] [6142] [] ∧ Usable w0 [6142] [0, 6140] [] :=
  ⟨by decide, usable_clean rfl rfl rfl rfl, usable_clean rfl rfl rfl rfl, usable_clean rfl rfl rfl rfl,
    usable_clean rfl rfl rfl rfl⟩

/-- A world with tile 23 bound to k255, which is of BF16 with blocks of 1,024 elements along the rows, at generation 7. -/
def wtag : State :=
  world (fun c => { c with kregs := [(255, ⟨0, 0x00270007⟩)], tags := [(23, 0x87FF0007)] }) id

theorem witness_VectorDataMovementCompletes :
    predTrue (me wtag) 0 = true ∧ Usable wtag [6140] [6140] [] ∧ tagCurrent (me wtag) (vtile 6140) = true ∧ SoundTag wtag (vtile 6140) ∧
    (∀ e < 4096 / max (containerBits 0x1B) (containerBits 0x11), scaleEntry (me wtag) 6140 (containerBits 0x1B) e < 64) ∧
    Usable wtag [0] [6140, 6142] [] ∧ Usable wtag [6142] [] [] ∧ Usable wtag [] [6142] [] :=
  ⟨by decide, usable_clean rfl rfl rfl rfl, by decide, soundTag_clean rfl _, by decide, usable_clean rfl rfl rfl rfl,
    usable_clean rfl rfl rfl rfl, usable_clean rfl rfl rfl rfl⟩

theorem witness_VectorReductionsComplete : predTrue (me w0) 0 = true ∧ Usable w0 [6142] [6141] [] :=
  ⟨by decide, usable_clean rfl rfl rfl rfl⟩

/-- Tap 7 carries sequences up to 7 of dimension 8,192, which 64 rows from the last tile's first hold, and allows steering. -/
def wtap : State := world (fun c => { c with taps := [(7, { tapInit with cfg := 0xB8000, dim := 8192 })] }) id

/-- A service bundle whose copy has come, and an entry of dimension 8,192 for kind 0 in the probe table at address 0. -/
def wentry : State := { wsvc with dev := [(1, 0x20), (3, 7), (8, 1)] }

theorem witness_TapOperationsComplete :
    (let t := tapOf (me wtap) 7
     predTrue (me wtap) 0 = true ∧ (me wtap).grant.taps ≠ 0 ∧ (7#3).toNat ≤ fld t.cfg 15 3 ∧ ((63#11).toNat + 1) * 128 = t.dim ∧
       vnum 5888 + ((63#11).toNat + 1) ≤ 64 * (me wtap).grant.tiles ∧ bit t.cfg 19 = true) ∧
    SoundRows wtap ((List.range 64).map (vnum 5888 + ·)) ∧ Usable wtap [] [5888] [] ∧
    (∀ j ∈ (List.range ((63#11).toNat + 1)).map (fun r => (vnum 5888 + r) / 64), Unlocked (me wtap) [j] [j] ∧ Unlocked (me wtap) [j] []) ∧
    (bit (tapOf (me wtap) 6).cfg 19 = false ∧ vnum 6140 < 64 * (me wtap).grant.tiles) ∧
    (predTrue (me wentry) 0 = true ∧ isSvc wentry.cur.ctx = true ∧ (me wentry).probeOk = true) ∧ TapEntry wentry (sreg (me wentry) 0) ∧
    poisonIn wentry 0x18 0 64 (tapEntryAddr wentry (sreg (me wentry) 0) % 2 ^ 39) 36864 = none ∧
    (poisonIn { wentry with marks := [⟨0x18, 0, 575, 7, true, 0, 0x05⟩] } 0x18 0 64 (tapEntryAddr wentry (sreg (me wentry) 0) % 2 ^ 39) 36864).isSome = true :=
  ⟨by decide, soundRows_clean rfl _, usable_clean rfl rfl rfl rfl, fun _ _ => ⟨unlocked_clean rfl _ _, unlocked_clean rfl _ _⟩, by decide, by decide, by
    refine ⟨by decide, by decide, by decide, by decide, by decide, by decide, ?_⟩
    decide, by decide, by decide⟩

theorem witness_ScaleOperationsComplete :
    predTrue (me wtag) 0 = true ∧ InGrant wtag 255 ∧ Usable wtag [] [6142] [] ∧ Usable wtag [] [] [255] ∧ Usable wtag [] [] [255, 255] ∧
    kfmt (kreg (me wtag) (255#8).toNat) ≠ 0 ∧ Usable wtag [6142] [] [255] :=
  ⟨by decide, by unfold InGrant; decide, usable_clean rfl rfl rfl rfl, usable_clean rfl rfl rfl rfl, usable_clean rfl rfl rfl rfl,
    by decide, usable_clean rfl rfl rfl rfl⟩

theorem witness_BindingOperationsComplete :
    predTrue (me wtag) 0 = true ∧ (23#5).toNat < (me wtag).grant.tiles ∧ bit (me wtag).grant.macros (7#3).toNat = true ∧ Usable wtag [] [] [255] ∧
    kfmt (kreg (me wtag) (255#8).toNat) ≠ 0 :=
  ⟨by decide, by decide, by decide, usable_clean rfl rfl rfl rfl, by decide⟩

/-- The last offsets of bay 7 over the longest lane. -/
theorem witness_RoundLoadsComplete :
    predTrue (me w0) 0 = true ∧ Usable w0 [6142] [] [] ∧ RoundFree w0 (loadTraffic w0 7 ((4088#12).toNat * 64) 512 15 2 8) ∧
    InGrant w0 255 ∧ RoundFree w0 (loadTraffic w0 7 ((4094#12).toNat * 64) 128 0 2 2) ∧ RoundFree w0 (loadTraffic w0 7 ((32767#15).toNat * 8) 8 15 2 1) :=
  ⟨by decide, usable_clean rfl rfl rfl rfl, roundFree_clean rfl rfl (by decide), by unfold InGrant; decide, roundFree_clean rfl rfl (by decide),
    roundFree_clean rfl rfl (by decide)⟩

theorem witness_RoundStoresComplete :
    predTrue (me w0) 0 = true ∧ Usable w0 [] [6142] [] ∧ RoundFree w0 (storeTraffic w0 7 ((4088#12).toNat * 64) 512 15 1 8) ∧
    Usable w0 [] [] [255] ∧ RoundFree w0 (storeTraffic w0 7 ((4094#12).toNat * 64) 128 0 1 2) ∧ RoundFree w0 (storeTraffic w0 7 ((32767#15).toNat * 8) 8 15 1 1) :=
  ⟨by decide, usable_clean rfl rfl rfl rfl, roundFree_clean rfl rfl (by decide), usable_clean rfl rfl rfl rfl, roundFree_clean rfl rfl (by decide),
    roundFree_clean rfl rfl (by decide)⟩

/-- A context whose decompression source is a tensor. -/
def wdx : State := world (fun c => { c with station := [(0, 0x0001000000000000)] }) id

/-- MOVP to the last assigned port, an XFER from the last row to bay 7, and one from bay 0 to the port's row 0. -/
theorem witness_MovesToStationsAndXferComplete :
    predTrue (me w0) 0 = true ∧ RoundFree w0 (movpTraffic 7 4095 15 0x7F) ∧ RoundFree w0 (movpsTraffic w0 15 0x7F) ∧
    ((1#4).toNat ≠ 10 - portPos w0.cur.ctx ∧ (14#4).toNat ≠ 10 - portPos w0.cur.ctx ∧
      (∀ e ∈ [(1#4, 1535#12), (14#4, 4088#12)], (e.1.toNat % 2 = 0 → e.2.toNat ≤ 4088) ∧ (e.1.toNat = portPos w0.cur.ctx → e.2.toNat < 64 * (me w0).grant.tiles))) ∧
    Unlocked (me w0) [(1535#12).toNat / 64] [] ∧ SoundRows w0 [(1535#12).toNat] ∧ RoundFree w0 (xferTraffic 1 14 15 1535 4088) ∧
    Unlocked (me w0) [] [(0#12).toNat / 64] ∧ RoundFree w0 (xferTraffic 0 1 0 0 0) ∧
    (leavesDie w0 0x11 9 = false ∧ boardUsed w0 w0.cur.ctx ≤ 48) ∧
    (leavesDie wdx 0x10 (movpArrive wdx 7 15 0x10) = true ∧ leavesDie wdx 0x11 (movpsArrive wdx 15 0x11) = true ∧
      xferLeaves wdx 1 5 15 0x11 = true ∧ boardUsed wdx wdx.cur.ctx + 1 ≤ 48) :=
  ⟨by decide, roundFree_clean rfl rfl (by decide), roundFree_clean rfl rfl (by decide),
    ⟨by decide, by decide, List.forall_mem_cons.2 ⟨by decide, List.forall_mem_cons.2 ⟨by decide, List.forall_mem_nil _⟩⟩⟩, unlocked_clean rfl _ _, soundRows_clean rfl _,
    roundFree_clean rfl rfl (by decide), unlocked_clean rfl _ _, roundFree_clean rfl rfl (by decide), by decide, by decide⟩

/-- Stream 31 over 128 FP32 elements of tensor 1, with a scale record in tensor 2 for each 128: both in bay 7 of the round or both on the
device. -/
def wstream (kind : Nat) : State :=
  world (fun c => { c with wregs := [(31, ⟨[0x170001, 0x0000008000020002, 0x0000008000000008, 0, 0, 0, 0, 0, 0, 0, 0]⟩)] })
    (fun l => { l with tensors := [⟨1, kind, 0x17, 7, 0, 1024, 0, 1, 0⟩, ⟨2, kind, 0x15, 7, 0, 512, 8192, 1, 0⟩] })

/-- With nothing in the way a stream is ready where the plain conditions hold. -/
theorem streamReady_clean {s : State} {wn : BitVec 5} {n : Nat} {data scale store : Bool} {t : Tensor}
    (h : wn.toNat < (me s).grant.streams ∧ descBad (myLaunch s) (wreg (me s) wn.toNat) = false ∧ tensorOf (myLaunch s) (sTensor (wreg (me s) wn.toNat)) = some t ∧
      sOffset (wreg (me s) wn.toNat) * containerBits t.fmt % 8 = 0 ∧ (store = true → namesFramed (myLaunch s) (wreg (me s) wn.toNat) = false) ∧ (data = true ∨ sStride (wreg (me s) wn.toNat) ≠ 0))
    (hk : scale = true → ∃ k, tensorOf (myLaunch s) (sScaleT (wreg (me s) wn.toNat)) = some k ∧ (t.kind = 0 → k.kind = 0 ∧ k.bay = t.bay) ∧ (t.kind ≠ 0 → k.kind ≠ 0))
    (ht : (stableAt s (stableOf s.cur.ctx)).trains = []) (hr : (stableAt s (stableOf s.cur.ctx)).reserves = [])
    (he : ∀ u ∈ (streamTraffic s (wreg (me s) wn.toNat) n data (scale && sStride (wreg (me s) wn.toNat) != 0) store).1, inExtent (myLaunch s) u.bay u.off u.n = true)
    (hb : boardUsed s s.cur.ctx + (if t.kind = 0 then 0 else 1) ≤ 48) : StreamReady s wn n data scale store t := by
  obtain ⟨h1, h2, h3, h4, h5, h6⟩ := h
  refine ⟨h1, h2, h3, h4, h5, h6, ?_, roundFree_clean ht hr he, hb⟩
  intro hs _ k hq
  obtain ⟨j, hj, ha, hc⟩ := hk hs
  rw [hj] at hq
  cases hq
  exact ⟨ha, hc⟩

theorem witness_StreamTransfersComplete :
    predTrue (me (wstream 0)) 0 = true ∧ Usable (wstream 0) [6142] [] [] ∧ sStride (wreg (me (wstream 0)) 31) ≠ 0 ∧ InGrant (wstream 0) 255 ∧
    StreamReady (wstream 0) 31 (groupCount (wreg (me (wstream 0)) 31)) true true false ⟨1, 0, 0x17, 7, 0, 1024, 0, 1, 0⟩ ∧
    StreamReady (wstream 1) 31 (groupCount (wreg (me (wstream 1)) 31)) true true false ⟨1, 1, 0x17, 7, 0, 1024, 0, 1, 0⟩ ∧
    StreamReady (wstream 0) 31 (groupCount (wreg (me (wstream 0)) 31)) false true false ⟨1, 0, 0x17, 7, 0, 1024, 0, 1, 0⟩ ∧
    StreamReady (wstream 1) 31 (groupCount (wreg (me (wstream 1)) 31)) false true false ⟨1, 1, 0x17, 7, 0, 1024, 0, 1, 0⟩ ∧
    StreamReady (wstream 0) 31 1 true false false ⟨1, 0, 0x17, 7, 0, 1024, 0, 1, 0⟩ ∧ StreamReady (wstream 1) 31 1 true false false ⟨1, 1, 0x17, 7, 0, 1024, 0, 1, 0⟩ ∧
    Usable (wstream 0) [] [6142] [] ∧ Sound (wstream 0) [] [255] ∧ Usable (wstream 0) [] [] [255] ∧
    StreamReady (wstream 0) 31 (groupCount (wreg (me (wstream 0)) 31)) true true true ⟨1, 0, 0x17, 7, 0, 1024, 0, 1, 0⟩ ∧
    StreamReady (wstream 1) 31 (groupCount (wreg (me (wstream 1)) 31)) true true true ⟨1, 1, 0x17, 7, 0, 1024, 0, 1, 0⟩ ∧
    StreamReady (wstream 0) 31 (groupCount (wreg (me (wstream 0)) 31)) false true true ⟨1, 0, 0x17, 7, 0, 1024, 0, 1, 0⟩ ∧
    StreamReady (wstream 1) 31 (groupCount (wreg (me (wstream 1)) 31)) false true true ⟨1, 1, 0x17, 7, 0, 1024, 0, 1, 0⟩ ∧
    StreamReady (wstream 0) 31 1 true false true ⟨1, 0, 0x17, 7, 0, 1024, 0, 1, 0⟩ ∧ StreamReady (wstream 1) 31 1 true false true ⟨1, 1, 0x17, 7, 0, 1024, 0, 1, 0⟩ := by
  refine ⟨by decide, usable_clean rfl rfl rfl rfl, by decide, by unfold InGrant; decide, ?_, ?_, ?_, ?_, ?_, ?_, usable_clean rfl rfl rfl rfl,
    fun m h => (List.not_mem_nil h).elim, usable_clean rfl rfl rfl rfl, ?_, ?_, ?_, ?_, ?_, ?_⟩ <;>
  exact streamReady_clean (by decide) (fun _ => ⟨_, rfl, by decide⟩) rfl rfl (by decide) (by decide)

/-- Register w31, the last entry of a table of two, the last descriptor word, and each of the descriptor's dimensions. -/
theorem witness_StreamConfigurationCompletes :
    (let s := world (fun c => { c with wregs := [(31, ⟨[0x300170001]⟩)] }) (fun l => { l with streams := [[], [0x170001]] })
     predTrue (me s) 0 = true ∧ (31#5).toNat < (me s).grant.streams ∧ (myLaunch s).streams[(1#12).toNat]? = some [0x170001] ∧
       (3#2).toNat < sDims (wreg (me s) (31#5).toNat)) ∧
    ((0#4) ≠ (15#4) ∧ fmtOk (fld (0x170000#64) 16 5) = true) ∧
    (0#2).toNat < sDims (wreg (me (wstream 0)) (31#5).toNat) := by decide

/-- A fill request for the whole of macro 7's bank from a device tensor of INT8, in planes of eight rows. -/
def fillWord : Row := BitVec.ofNat 4096 (1 + 7 * 2 ^ 16 + 256 * 2 ^ 32 + 0x0F * 2 ^ 48)

/-- FIFO bindings: an engine FIFO from q31 to q30, a shadow-fill endpoint on q29 and a commit FIFO to q28; v1535 holds a fill request. -/
def wfifo : State :=
  world (fun c => { c with vrows := [(1535, fillWord)] }) (fun l => { l with fifos := [[1, 0, 31, 0, 30, 0], [2, 0, 29, 0, 0, 0], [3, 0, 27, 0, 28, 0]], tensors := [⟨1, 1, 0x0F, 0, 0, 65536, 0, 1, 0⟩] })

/-- Packets to the launch's own Stable: the last 512 bytes and the last 4 bytes of bay 7 with semaphore 63. -/
def wreds : State := w2 0x1FFE00 0x1FFFFC

theorem witness_QueuedTransfersComplete :
    (predTrue (me wfifo) 0 = true ∧ boardUsed wfifo wfifo.cur.ctx < 48 ∧ pushKind (myLaunch wfifo) (me wfifo).k (31#5).toNat = some [1, 0, 31, 0, 30, 0] ∧
      [1, 0, 31, 0, 30, 0].getD 0 0 ≠ 2 ∧ pushKind (myLaunch wfifo) (me wfifo).k (29#5).toNat = some [2, 0, 29, 0, 0, 0] ∧ [2, 0, 29, 0, 0, 0].getD 0 0 = 2 ∧
      (popKind (myLaunch wfifo) (me wfifo).k (30#5).toNat).isSome = true ∧ commitFifo wfifo 30 = false ∧
      (popKind (myLaunch wfifo) (me wfifo).k (28#5).toNat).isSome = true) ∧
    FillRequest wfifo (readVec (me wfifo) 6140) ∧
    Usable wfifo [] [6140] [] ∧ Usable wfifo [6142] [] [] ∧
    (let s := wstream 1
     predTrue (me s) 0 = true ∧ (31#5).toNat < (me s).grant.streams ∧ (23#5).toNat < (me s).grant.tiles ∧ descBad (myLaunch s) (wreg (me s) (31#5).toNat) = false ∧
       tensorOf (myLaunch s) (sTensor (wreg (me s) (31#5).toNat)) = some ⟨1, 1, 0x17, 7, 0, 1024, 0, 1, 0⟩ ∧ boardUsed s s.cur.ctx < 48 ∧
       namesFramed (myLaunch s) (wreg (me s) (31#5).toNat) = false ∧ (∀ o ∈ spillOffs (wreg (me s) (31#5).toNat), o * containerBits 0x17 % 8 = 0)) ∧
    (∀ o ∈ (me (wstream 1)).ops, o.performed = false → match o.kind with | .spill k _ _ _ _ => k ≠ (63#6).toNat | .fill k _ _ _ => k ≠ (63#6).toNat | _ => True) ∧
    Unlocked (me (wstream 1)) [] [(23#5).toNat] ∧ Unlocked (me (wstream 1)) [(23#5).toNat] [] ∧ SoundRows (wstream 1) ((List.range 64).map (64 * (23#5).toNat + ·)) ∧
    (predTrue (me wreds) 0 = true ∧ ((0x1FFE00#64).extractLsb' 24 8).toNat < stableCount (myLaunch wreds) ∧ bit (myLaunch wreds).semmask (63#6).toNat = true ∧
      ((sreg (me wreds) 1).extractLsb' 0 18).toNat % 64 = 0 ∧ inExtent (myLaunch wreds) ((sreg (me wreds) 1).extractLsb' 18 3).toNat (((sreg (me wreds) 1).extractLsb' 0 18).toNat : Nat) 512 = true ∧
      ((sreg (me wreds) 2).extractLsb' 0 18).toNat % 4 = 0 ∧ inExtent (myLaunch wreds) ((sreg (me wreds) 2).extractLsb' 18 3).toNat (((sreg (me wreds) 2).extractLsb' 0 18).toNat : Nat) 4 = true) ∧
    Usable wreds [] [6142] [] := by
  refine ⟨by decide, ?_, usable_clean rfl rfl rfl rfl, usable_clean rfl rfl rfl rfl, by decide, fun o h => (List.not_mem_nil h).elim,
    unlocked_clean rfl _ _, unlocked_clean rfl _ _, soundRows_clean rfl _, by decide, usable_clean rfl rfl rfl rfl⟩
  exact ⟨by decide +kernel, by decide +kernel, by decide +kernel, by decide +kernel, by decide +kernel, by decide +kernel, by decide +kernel,
    ⟨1, 1, 0x0F, 0, 0, 65536, 0, 1, 0⟩, by decide +kernel, by decide +kernel, by decide +kernel⟩

/-- A world whose tile 0 is bound to k0, E8M0 with blocks of 16 (code 1) or 32 (code 2) along the columns. -/
def wmma (code : Nat) : State :=
  world (fun c => { c with kregs := [(0, ⟨0, BitVec.ofNat 32 (code * 2 ^ 16 + 2 ^ 20)⟩)], tags := [(0, BitVec.ofNat 32 (2 ^ 31 + code * 2 ^ 24))] }) id

/-- The readiness of R213 to R217 with nothing in flight, reserved or damaged. -/
theorem mmaReady_clean {s : State} {v : Nat} {vd : BitVec 11} {abay bbay : BitVec 3} {aoff boff : BitVec 12} {alane blane : BitVec 4} {sc : BitVec 1}
    (ho : (me s).ops = []) (hm : s.marks = []) (hu : (stableAt s (stableOf s.cur.ctx)).uses = [])
    (h : vd.toNat + mmaRows v (sc == 1#1) ≤ 64 * (me s).grant.tiles ∧
      inExtent (myLaunch s) abay.toNat (aoff.toNat * 64 : Nat) 1024 = true ∧ inExtent (myLaunch s) bbay.toNat (boff.toNat * 64 : Nat) 1024 = true ∧
      abay.toNat < 4 ∧ 4 ≤ bbay.toNat ∧ mmaLaneOk abay alane = true ∧ mmaLaneOk bbay blane = true)
    (hw : slotOf s.cur.ctx = 1 ∨ windowOwner (stableAt s (stableOf s.cur.ctx)) (yardNow s s.cur.ctx) = stallOf s.cur.ctx % 2)
    (hs : sc = 1 → v ≠ 1 ∧ tagCurrent (me s) (vd.toNat / 64) = true ∧ tagAxis (me s) (vd.toNat / 64) = 0 ∧ 16 ≤ tagBlock (me s) (vd.toNat / 64) ∧
      tagBlock (me s) (vd.toNat / 64) ≤ mmaK v ∧ mmaK v / tagBlock (me s) (vd.toNat / 64) ≤ 2) : MmaReady s v vd abay aoff bbay boff alane blane sc := by
  obtain ⟨h1, h2, h3, h4, h5, h6, h7⟩ := h
  refine ⟨unlocked_clean ho _ _, h1, h2, h3, h4, h5, h6, h7, ?_, hw, ?_⟩
  · intro u q
    rw [hu] at q
    cases q
  · intro e
    obtain ⟨a, b, c, d, f, g⟩ := hs e
    exact ⟨a, b, c, d, f, g, soundTag_clean hm _⟩

/-- Each variant unscaled at the last rows and the last operands of bays 3 and 7, and scaled where it may be; both kinds of MXHINT. -/
theorem witness_MatrixOperationsComplete :
    predTrue (me w0) 0 = true ∧ (∀ v < 8, MmaReady w0 v 1532 3 4080 7 4080 8 0 0) ∧
    MmaReady (wmma 2) 0 0 0 0 4 0 0 8 1 ∧ MmaReady (wmma 2) 2 0 0 0 4 0 0 8 1 ∧ MmaReady (wmma 2) 3 0 0 0 4 0 0 8 1 ∧ MmaReady (wmma 2) 4 0 0 0 4 0 0 8 1 ∧
    MmaReady (wmma 2) 5 0 0 0 4 0 0 8 1 ∧ MmaReady (wmma 1) 6 0 0 0 4 0 0 8 1 ∧ MmaReady (wmma 1) 7 0 0 0 4 0 0 8 1 ∧
    SoundRows w0 ((List.range (mmaRows 1 false)).map (1532 + ·)) ∧ (1#16 ≠ 0 ∧ 0#16 = 0) ∧ w0.marks = [] ∧
    (∀ m < 2, (⟨11, 0, 0, 0, .mma 1532 m (List.replicate 256 1) (List.replicate 256 false) true 0⟩ : Flight).eff = .mma 1532 m (List.replicate 256 1) (List.replicate 256 false) true 0) := by
  refine ⟨by decide, ?_, ?_, ?_, ?_, ?_, ?_, ?_, ?_, soundRows_clean rfl _, by decide, rfl, fun _ _ => rfl⟩
  · intro v hv
    exact mmaReady_clean rfl rfl rfl (by revert v; decide) (by decide) (fun e => absurd e (by decide))
  all_goals exact mmaReady_clean rfl rfl rfl (by decide) (by decide) (by decide)

/-- A context whose macro 7 is bound by its active bank to k255 with the whole bank as one block, with macro 6 in scratch mode. -/
def wcim : State :=
  world (fun c => { c with kregs := [(255, ⟨0, 0x00250007⟩)], tags := [(46, 0x85FF0007)], macros := [(6, { macroInit with scratch := true })] }) id

theorem witness_CimOperationsComplete :
    predTrue (me wcim) 0 = true ∧ (255#8 &&& ~~~(me wcim).grant.macros = 0) ∧ Idle wcim 255 true true false ∧ NoFill (me wcim) 255 ∧
    Idle wcim 255 true false false ∧ GoodParity wcim 255 ∧ Usable wcim [] [6142] [] ∧ RoundFree wcim (loadTraffic wcim 7 ((4088#12).toNat * 64) 512 15 2 8) ∧
    Idle wcim 255 false false true ∧
    (bit (me wcim).grant.macros (7#3).toNat = true ∧ (248#8).toNat + 64 / containerBits (0x0F#5).toNat ≤ 256 ∧ (macroOf (me wcim) 7).scratch = false ∧
      (macroOf (me wcim) 6).scratch = true) ∧
    Idle wcim (cmMask 7) false true false ∧ Idle wcim (cmMask 6) true false false ∧ NoFill (me wcim) (cmMask 7) ∧ Usable wcim [6142] [] [] ∧ GoodAcc wcim 7 ∧
    (tagCurrent (me wcim) (bankTag (7#3).toNat 0) = true ∧ (if tagAxis (me wcim) (bankTag (7#3).toNat 0) = 1 ∧ tagBlock (me wcim) (bankTag (7#3).toNat 0) ≤ 128 then
      256 / tagBlock (me wcim) (bankTag (7#3).toNat 0) else 1) = blocksOf (macroOf (me wcim) (7#3).toNat)) ∧ SoundTag wcim (bankTag (7#3).toNat 0) := by
  refine ⟨by decide, by decide, by unfold Idle; decide, by unfold NoFill; decide, by unfold Idle; decide, by unfold GoodParity; decide, usable_clean rfl rfl rfl rfl,
    roundFree_clean rfl rfl (by decide), by unfold Idle; decide, by decide, by unfold Idle; decide, by unfold Idle; decide, by unfold NoFill; decide,
    usable_clean rfl rfl rfl rfl, goodAcc_clean rfl _, by decide, soundTag_clean rfl _⟩

/-- A world whose first bundle holds one Y word. -/
def wrun (w : Nat) (f : Ctx → Ctx) : State := { world f id with istore := writeBytes [] 0 (leBytes 64 (bundleOfY w)) }

/-- An off-core access, with its kind, queue and whether it has its answer. -/
def access (q : QId) (k : OffKind) (done : Bool) : OffOp :=
  { id := 5, q := q, kind := k, dst := .none, issue := 0, slot := 4, opc := 0, pc := 0, seg := 0, since := 0, performed := done, landed := false, trapped := false,
    ans := if done then .data 0 0 else .waiting }

/-- A device load of the running context whose landing cycle has come, answered or not, at the next Yard cycle. -/
def wload (done : Bool) : State :=
  { world (fun c => { c with landedNow := false, flight := [⟨0, 4, 0, 0, .offcore 5⟩], ops := [access .device (.load 1 0 1 true none) done] }) id with
    yards := [(0, { yardInit with status := .running, ycycle := 1 })] }

/-- A group of two Stalls, one context done with and the other draining. -/
def wdone : State := { wgrp with ctxs := [(0, { unit0 with status := .exiting, after := .exit }), (4, { unit0 with k := 1, status := .ended })] }

theorem witness_SequencerEventsComplete :
    (me (world (fun c => { c with snap := some snap0 }) id)).snap ≠ none ∧ (me w0).snap = none ∧
    (runnable (me w0) = true ∧ (me w0).landedNow = true ∧ (me w0).status ≠ .exiting ∧ (me w0).pc < (me w0).grant.codeLen ∧ isDue w0 0 = true ∧ replaying w0 0 = false ∧ slotOf 0 ≠ 1) ∧
    (let x := me (wload true)
     (dueFlights x).any (fun f => decide (f.eff = .offcore 5)) = true ∧ runnable x = true ∧ x.landedNow = false ∧ x.seenYard ≠ yardNow (wload true) 0 ∧ x.expired = false ∧
       replaying (wload true) 0 = false ∧ landingWait x = none ∧ slotOf 0 ≠ 1) ∧
    (let x := me (wload false)
     (dueFlights x).any (fun f => decide (f.eff = .offcore 5)) = true ∧ runnable x = true ∧ x.landedNow = false ∧ x.seenYard ≠ yardNow (wload false) 0 ∧ x.expired = false ∧
       replaying (wload false) 0 = false ∧ (landingWait x).isSome = true) ∧
    ((ctxOf wdone 0).status = .exiting ∧ (ctxOf wdone 0).after = .exit ∧ drained wdone 0 = true ∧ replaying wdone 0 = false ∧ (launchAt wdone 1).state = .running ∧
       launchCtxs (launchAt wdone 1) = [0, 4] ∧ (ctxOf wdone 4).launch = 1 ∧ (ctxOf wdone 4).status = .ended) := by
  decide +kernel

/-- A verdict to issue, from the test for it. -/
theorem issue_of {v : Verdict} (h : (match v with | .issue _ => true | _ => false) = true) : ∃ sl, v = .issue sl := by
  cases v with
  | issue sl => exact ⟨sl, rfl⟩
  | fault _ => cases h
  | wait _ _ => cases h

/-- A verdict to wait, from the test for it. -/
theorem wait_of {v : Verdict} (h : (match v with | .wait _ _ => true | _ => false) = true) : ∃ k w, v = .wait k w := by
  cases v with
  | issue _ => cases h
  | fault _ => cases h
  | wait k w => exact ⟨k, w, rfl⟩

/-- A verdict to fault, from the test for it. -/
theorem fault_of {v : Verdict} (h : (match v with | .fault _ => true | _ => false) = true) : ∃ x, v = .fault x := by
  cases v with
  | issue _ => cases h
  | fault x => exact ⟨x, rfl⟩
  | wait _ _ => cases h

/-- A retest with a bundle that may issue (one of no operation), with FENCE 9 outside the service context, and with one that waits
for semaphore 9; a secondary context that waits, and one whose bundle merges with no other. -/
theorem witness_retest : (∃ sl, judge w0 0 = .issue sl) ∧ (∃ x, judge (wrun 0x280009 id) 0 = .fault x) ∧ (∃ k w, judge (wrun 0x400049 id) 0 = .wait k w) ∧
    (∀ w ∈ [0x280009, 0x400049], isDue (wrun w id) 0 = true ∧ runnable (me (wrun w id)) = true ∧ replaying (wrun w id) 0 = false) ∧
    (slotOf 2 = 1 ∧ merged { w0 with ctxs := [(2, unit0)] } 2 0 = false) :=
  ⟨issue_of (by decide +kernel), fault_of (by decide +kernel), wait_of (by decide +kernel), by decide +kernel, by decide +kernel⟩

/-- A Stable with its window pending and its array idle since Yard cycle 1, at Yard cycle 520. -/
def wpend : State :=
  { w0 with stables := [(0, { stableInit with mxPending := some 3, warm := true, lastMma := some 7, hints := [(0, 519)] })],
            yards := [(0, { yardInit with status := .running, ycycle := 520, floorNext := some (2047, 1023) })] }

theorem witness_ReleasesAndWindowsComplete :
    (∀ m ∈ membersOf (launchAt wgrp 1) 15, yardOf m = 0 ∧ (ctxOf wgrp m).launch = 1) ∧
    (let s := { wgrp with ctxs := [(0, { unit0 with rdv := [(15, 1)], bar := [] }), (4, { unit0 with k := 1 })] }
     membersOf (launchAt s 1) 15 = [0, 4]) ∧
    (slotOf 2 = 1 ∧ primaryPlaced State.reset (stableOf 2) = false) ∧
    ((stableAt wpend 0).mxPending = some 3 ∧ (yardAt wpend (0 / 16)).ycycle % 8 = 0) ∧
    ((stableAt wpend 0).warm = true ∧ (∀ h ∈ (stableAt wpend 0).hints, h.2 < (yardAt wpend (0 / 16)).ycycle) ∧
      (∀ m, (stableAt wpend 0).lastMma = some m → m + 512 < (yardAt wpend (0 / 16)).ycycle)) ∧
    ((yardAt wpend 0).floorNext = some (2047, 1023) ∧ 1024 % 1024 = 0 ∧ 1023 < 1024 ∧ 1025 % 1024 ≠ 0) ∧ ((2 ^ 24) % 2 ^ 24 = 0 ∧ (2 ^ 24 - 1) % 2 ^ 24 ≠ 0) ∧
    (let s := { w0 with sec := { w0.sec with boot := .opened }, iocsr := [(0x8C0, 1)] }
     booted s = true ∧ eventPending s = true ∧ controlStall s = some 0 ∧ s.control = false ∧ (ctxOf s (4 * 0 + 2)).inSvc = false) ∧
    (let s := { w0 with cxl := { w0.cxl with regions := [(8191, 0x3F)] } }
     regState (region s 8191) = 3 ∧ s.cxl.active.any (· == 8191) = false ∧ (∀ f ∈ s.cxl.flips, f.region ≠ 8191) ∧
       (∀ e ∈ s.cxl.directory, inRegion (region s 8191) e.1 = false)) ∧
    (let s := { w0 with cxl := { w0.cxl with regions := [(8191, 0x3F)], directory := [(63, 1)] } }
     regState (region s 8191) = 3 ∧ ∃ e ∈ s.cxl.directory, inRegion (region s 8191) e.1 = true) := by
  refine ⟨by decide, by decide, by decide, by decide, ⟨rfl, by decide, ?_⟩, ⟨rfl, by decide⟩, by decide, by decide, by decide, ⟨by decide, _, List.mem_singleton.mpr rfl, by decide⟩⟩
  intro m h
  cases h
  decide

/-- Every member of the group has reached the barrier of ordinal 0. -/
theorem witness_barrier :
    (let st := writeBytes (writeBytes [] 0 (leBytes 64 (bundleOfY 0x08000F))) (2 ^ 18) (leBytes 64 (bundleOfY 0x08000F))
     let s := { wgrp with istore := st, ctxs := [(0, { unit0 with wait := .bar 15 }), (4, { unit0 with k := 1, wait := .bar 15 })] }
     ∀ n ∈ membersOf (launchAt s 1) 15, barArrived s n 15 (ordinal (ctxOf s 0) 15) = true) := by decide +kernel

/-- A launch that is ready on a machine with room for it. -/
def wready : State :=
  { State.reset with yards := [(0, { yardInit with status := .running })], launches := [(1, { launch1 with state := .ready, yards := [] })] }

theorem witness_ClockAndScrubComplete :
    (State.reset.sec.quote = none ∧ (∀ e ∈ State.reset.yards, e.2.status ≠ .running) ∧ (∀ e ∈ State.reset.strikes, State.reset.mcycle + 1 < e.1)) ∧
    candidates (advanceQueues State.reset) = [] ∧ (advanceQueues State.reset).rel.captures = [] ∧
    (let m : Mark := ⟨0x18, 0, 16, 7, true, 0, 0x05⟩
     m ∈ [m] ∧ m.struct = 0x18 ∧ m.bad = true ∧ m.synd ≠ 0x7F) := by decide

theorem witness_placement : ∃ n l p, candidates (advanceQueues wready) = [(n, l)] ∧ findPlace (advanceQueues wready) n l = some p :=
  ⟨_, _, _, rfl, rfl⟩

/-- A tensor of one tile, on the device (kind 1) or the host (kind 2), INT8, with its tile table at address 0. -/
def tensor1 (kind : Nat) : Tensor := ⟨1, kind, 0x0F, 0, 0, 65536, 0, 1, 0⟩

/-- A launch with that tensor, its tile resident at frame 0x10000; an access waits in its queue. -/
def woff (f : Ctx → Ctx) (k : OffKind) (q : QId) : State :=
  { world (fun c => f { c with ops := [access q k false] })
      (fun l => { l with tensors := [tensor1 (if q = .host then 2 else 1)], fifos := [[1, 0, 31, 0, 30, 0]], fifoData := [(0, List.replicate 63 0)] }) with
    dev := writeBytes [] 64 (leBytes 16 0x10001) }

theorem witness_OffcoreAccessesPerform :
    (let s := woff id (.load 1 0 512 true none) .device
     let o := access .device (.load 1 0 512 true none) false
     opOf s 0 5 = some o ∧ inOrder s 0 o = true ∧ waitsTree s (opRanges s 0 o) = false ∧ halfStored s 0 5 (opRanges s 0 o) = false ∧ (toHost s 0 o = true → linkUp s = true) ∧ plainKind o.kind = true ∧ targetOut s 0 o = false ∧
       deviceGate s (deviceRanges s (opRanges s 0 o)) (writesMem o) (.device 0 5) = none) ∧
    (let k := OffKind.spill 63 23 1 [0, 65024] [0, 0]
     let s := woff id k .device
     let o := access .device k false
     opOf s 0 5 = some o ∧ inOrder s 0 o = true ∧ waitsTree s (opRanges s 0 o) = false ∧ halfStored s 0 5 (opRanges s 0 o) = false ∧ tensorOf (launchAt s 1) 1 = some (tensor1 1) ∧
       (ctxOf s 0).heldRows = false ∧ replaying s 0 = false ∧
       deviceGate s (deviceRanges s (opRanges s 0 o)) true (.device 0 5) = none ∧ ∀ r ∈ opRanges s 0 o, storeOk s r.1 r.2.1 r.2.2 = true) ∧
    (let k := OffKind.probe 1 65535 1
     let s := woff id k .device
     let o := access .device k false
     opOf s 0 5 = some o ∧ inOrder s 0 o = true ∧ waitsTree s (opRanges s 0 o) = false ∧
       (∀ i ∈ tilesIn 65535 1 false, tileState s (tensor1 1) i = 1) ∧
       (pinTiles (opDone s 0 5 (.data 0 0)) 0 0 (tilesIn 65535 1 false)).isSome = true) ∧
    (let s := { woff id (.probe 1 65535 1) .host with dev := writeBytes [] 64 (leBytes 16 3) }
     inOrder s 0 (access .host (.probe 1 65535 1) false) = true ∧ linkUp s = true ∧ ∃ i ∈ tilesIn 65535 1 false, tileState s (tensor1 2) i = 3) ∧
    (let s := { woff id (.probe 1 65535 1) .device with dev := [] }
     (∀ j ∈ tilesIn 65535 1 false, tileState s (tensor1 1) j ≠ 3) ∧ (tilesIn 65535 1 false).find? (fun j => tileState s (tensor1 1) j == 0) = some 0) ∧
    (let k := OffKind.push 1
     let s := woff (fun c => { c with seg := 1 }) k (.fifo 31)
     let o := access (.fifo 31) k false
     opOf s 0 5 = some o ∧ inOrder s 0 o = true ∧ waitsTree s (opRanges s 0 o) = false ∧ halfStored s 0 5 (opRanges s 0 o) = false ∧ sourceOf (launchAt s 1) 0 31 = some 0 ∧
       ((launchAt s 1).fifos.getD 0 []).getD 0 0 ≠ 3 ∧ (mget (launchAt s 1).fifoData 0 []).length < 64) ∧
    (me (world (fun c => { c with wait := .copy }) id)).wait = .copy := by
  decide +kernel

/-- A read that succeeds, from the test for it. -/
theorem ok_of {α : Type} {e : Except Nat α} (h : e.toOption.isSome = true) : ∃ x, e = .ok x := by
  cases e with
  | ok x => exact ⟨x, rfl⟩
  | error _ => cases h

/-- A FILL whose rows all read, without an undo budget, with one that holds its log, and with one that does not. -/
theorem witness_fill :
    (∀ b ∈ [33280, 1, 0], let k := OffKind.fill 63 23 1 [0, 65024]
     let s := woff (fun c => { c with grant := { c.grant with segbudget := b }, snap := some snap0 }) k .device
     let o := access .device k false
     (opOf s 0 5 = some o ∧ inOrder s 0 o = true ∧ waitsTree s (opRanges s 0 o) = false ∧ halfStored s 0 5 (opRanges s 0 o) = false ∧ (ctxOf s 0).heldRows = false ∧ replaying s 0 = false ∧
      (toHost s 0 o = true → linkUp s = true) ∧ deviceGate s (deviceRanges s (opRanges s 0 o)) false (.device 0 5) = none) ∧
       (ctxOf s 0).grant.segbudget = b) := by decide +kernel

theorem witness_fillRows :
    (∀ b ∈ [33280, 1, 0], let s := woff (fun c => { c with grant := { c.grant with segbudget := b }, snap := some snap0 }) (.fill 63 23 1 [0, 65024]) .device
      let o := access .device (.fill 63 23 1 [0, 65024]) false
      let u := meter (correctRanges s (opRanges s 0 o)) 0 (deviceRanges s (opRanges s 0 o))
      (fillRows u (tensor1 1) [0, 65024]).toOption.isSome = true ∧
      (let v := modCtx (cacheRanges u 0 (opRanges s 0 o)) 0 (fun x => logRows x ((List.range 64).map (64 * 23 + ·)))
       if b = 1 then b < (ctxOf v 0).charge else b = 0 ∨ (ctxOf v 0).charge ≤ b)) := by decide +kernel

/-- A request for the first plane of macro 7. -/
def planeWord : Row := BitVec.ofNat 4096 (1 + 7 * 2 ^ 16 + 8 * 2 ^ 32 + 0x0F * 2 ^ 48)

/-- A fill request that the macro may take, and a fill in progress whose bytes read. -/
theorem witness_shadowFill :
    (let s := woff id (.fillReq planeWord) (.fifo 29)
     let o := access (.fifo 29) (.fillReq planeWord) false
     nextFill (ctxOf s 0) 7 = some (o, planeWord) ∧ inOrder s 0 o = true ∧ (macroOf (ctxOf s 0) 7).time.swapsDue = 0 ∧ (macroOf (ctxOf s 0) 7).fillOn = none) ∧
    (let s := woff (fun c => { c with ops := [], macros := [(7, { macroInit with fillOn := some (0, planeWord) })] }) (.fillReq planeWord) (.fifo 29)
     ((macroOf (ctxOf s 0) 7).fillOn = some (0, planeWord) ∧ (macroOf (ctxOf s 0) 7).fillActive = false ∧ tensorOf (launchAt s 1) (fld planeWord 0 16) = some (tensor1 1) ∧
       waitsTree s [(tensor1 1, 0, 512)] = false) ∧
       ∃ b, tensorRead (correctRanges s [(tensor1 1, 0, 512)]) (tensor1 1) 0 512 = .ok b) :=
  ⟨by decide +kernel, by decide +kernel, ok_of (by decide +kernel)⟩

/-- A job of a station in the way. -/
def job0 (st : Nat) (signal : Option Nat) : Job :=
  { id := 9, station := st, ctx := 0, ends := 0, waits := false, bay := 0, off := 0, chunks := [], produced := 0, flags := 0, error := 0, signal := signal, poison := false, args := [] }

/-- A context whose station `st` has these four parameter words. -/
def wstat (st : Nat) (a : List Word) : State :=
  world (fun c => { c with station := a.mapIdx (fun i v => (32 * st + i, v)) }) id

/-- For each station a job in the way; and arguments with a bad option, a range beyond the bay, and the last legal bytes. -/
theorem witness_StationJobsRun :
    (∀ st < 4, (runningJob { stableInit with jobs := [job0 st none] } st (slotOf 0)).isSome = true) ∧
    (∀ st < 4, runningJob (stableAt w0 (stableOf 0)) st (slotOf 0) = none ∧
      jobOptBad st (jobArgs (me (wstat st [0, 2 ^ 48])) st) = true ∧
      (∀ t ∈ if st = 0 then [16, 17] else [16],
        let bad : State := wstat st [262143, 262143, 64, 0]
        let good : State := wstat st [262144 - 64, 262144 * 2 - 64, if st = 1 then 0 else 1 + 2 ^ 32, if st = 3 then 0x0F0F00 else 0]
        jobOptBad st (jobArgs (me bad) st) = false ∧ jobRangeBad launch1 st t (jobArgs (me bad) st) = true ∧
        jobOptBad st (jobArgs (me good) st) = false ∧ jobRangeBad launch1 st t (jobArgs (me good) st) = false ∧ fld ((jobArgs (me good) st).getD 0 0) 48 16 = 0)) ∧
    (let s := { w0 with stables := [(0, { stableInit with jobs := [job0 3 (some 63)] })] }
     (stableAt s 0).jobs.find? (fun j => j.id == 9 && !j.waits && decide (j.ends ≤ (yardAt s (0 / 16)).ycycle)) = some (job0 3 (some 63))) ∧
    (∀ j ∈ [{ job0 3 none with ends := 1 }, { job0 3 none with waits := true }], let s := { w0 with stables := [(0, { stableInit with jobs := [j] })] }
     (stableAt s 0).jobs = [j] ∧ j.id = 9 ∧ (j.waits = true ∨ (yardAt s (0 / 16)).ycycle < j.ends)) := by
  decide +kernel

/-- A launch of one Stall in a state. -/
def wstate (st : LState) (f : Launch → Launch) (g : Ctx → Ctx) : State := world g (fun l => f { l with state := st })

theorem witness_LaunchEventsComplete :
    (let l := launchAt (wstate .starting (fun l => { l with prepared := true }) (fun c => { c with status := .placed })) 1
     l.state = .starting ∧ l.prepared = true ∧ l.taploads = [] ∧ l.gen = none ∧ l.openCls = false ∧
       ∀ c ∈ launchCtxs l, (ctxOf (wstate .starting (fun l => { l with prepared := true }) (fun c => { c with status := .placed })) c).status = .placed) ∧
    (let s := { wstate .starting (fun l => { l with prepared := true, openCls := true }) (fun c => { c with status := .placed }) with
                  yards := [(0, { yardInit with status := .running, ycycle := 7 })] }
     (launchAt s 1).openCls = true ∧ (launchAt s 1).state = .starting ∧ (yardAt s (0 / 16)).ycycle % 8 ≠ 0) ∧
    (let s := wstate .ending id (fun c => { c with status := .ended })
     (launchAt s 1).state = .ending ∧ (∀ c ∈ launchHeld s 1, settled s c = true) ∧ launchHeld s 1 = [0] ∧ (launchAt s 1).gen = none) ∧
    (let s := wstate .running (fun l => { l with queue := 15, seq := 65535 }) (fun c => { c with status := .held 0x22 })
     namedLaunch s 15 65535 (fun l => l.state == .running) = some 1 ∧ resumable s 0 = true) ∧
    (let s := wstate .swapped (fun l => { l with queue := 15, seq := 65535 }) id
     namedLaunch s 15 65535 (fun l => l.state == .running || l.state == .swapping || l.state == .swapped) = some 1 ∧ (launchAt s 1).state ≠ .ended ∧ (launchAt s 1).state ≠ .ending) ∧
    (∀ st ∈ [LState.queued, .head, .ready], namedLaunch (wstate st id id) 0 0 waiting = some 1) ∧
    (let l := launchAt (wstate .running (fun l => { l with record := List.replicate 256 1 }) id) 1
     l.state = .running ∧ recSave l.record ≠ 0 ∧ 0 ∈ l.yards ∧ 0 ∉ l.swapDone) ∧
    recSave (launchAt w0 1).record = 0 ∧
    (∀ ys ∈ [[0], [0, 1]], let s := wstate .swapping (fun l => { l with yards := ys, swapAsked := [0] }) (fun c => { c with frozen := true })
     (launchAt s 1).state = .swapping ∧ 0 ∈ (launchAt s 1).swapAsked ∧ 0 ∉ (launchAt s 1).swapDone ∧
       (∀ y ∈ (launchAt s 1).swapAsked, y = 0) ∧ (launchAt s 1).yards = ys ∧
       (∀ c ∈ heldOn s 1 0, mayCommit s c = true ∧ settled s c = true ∧ (ctxOf s c).snap = none) ∧ heldOn s 1 0 = [0] ∧
       ∀ sb ∈ launchStables (launchAt s 1), sb / 16 = 0 → stableQuiet s (launchAt s 1).semmask sb = true) := by
  decide +kernel

/-- A machine with its host link in a state. -/
def wlink (k : Link) (f : Cxl → Cxl) : State :=
  { State.reset with cxl := f { State.reset.cxl with link := k }, sec := { State.reset.sec with boot := .opened, slot := 1, svn := 5 }, iocsr := (0x811, 0x4000000000#64) :: resetIo }

theorem witness_HostPortComplete :
    (let s := wlink .linked id
     ([7] : List Byte) ≠ [] ∧ [7#8].length ≤ 64 - (2 ^ 39 - 1) % 64 ∧ (2 ^ 39 - 1) + [7#8].length ≤ hdmEnd s ∧ hostLinked s = true ∧ writeFlip s = none ∧ inCommand s (2 ^ 39 - 1) = false ∧
       regionAt s (64 * ((2 ^ 39 - 1) / 64)) = none ∧ (∀ k < [7#8].length, inBoundTable s (2 ^ 39 - 1 + k) = false) ∧ hdmEnd s < 2 ^ 39 + [7#8].length) ∧
    (let s := wlink .down id
     hostLinked s = false ∧ (2 ^ 39 - 1) + [7#8].length ≤ hdmEnd s) ∧
    (let f : Flip := ⟨0, none, []⟩
     let s := wlink .linked (fun x => { x with flips := [f], regions := [(0, 0x18)] })
     s.cxl.flips.find? (fun f => f.region == 0) = some f ∧ f.waiting = [] ∧ f.line = none ∧ s.cxl.link = .linked ∧ regState (region s 0) ≠ 3 ∧
       regFlips (region s 0) + 1 < flipLimit s) ∧
    (let f : Flip := ⟨0, none, []⟩
     let s := wlink .linked (fun x => { x with flips := [f], regions := [(0, 0x38)] })
     s.cxl.flips.find? (fun f => f.region == 0) = some f ∧ s.cxl.link = .linked ∧ regState (region s 0) = 3) ∧
    (let s := wlink .linked (fun x => { x with cache := [(1, 7)] })
     s.cxl.cache.find? (fun e => e.1 == 1) = some (1, 7) ∧ s.cxl.cache.find? (fun e => e.1 == 2) = none) ∧
    (let s := wlink .linked id
     s.cxl.link = .linked ∧ s.cxl.cache = [] ∧ s.cxl.directory = [] ∧ s.cxl.flips = [] ∧ (∀ r ∈ s.cxl.regions, regValid r.2 = true → regState r.2 ≠ 1 ∧ regState r.2 ≠ 2)) ∧
    hostLinked (wlink .flushing id) = true ∧ (wlink .restarting id).cxl.link = .restarting ∧ (wlink .restarting id).sec.boot = .opened ∧
    (wlink .retraining id).cxl.link = .retraining ∧ hostPending (wlink .retraining id) = [] := by
  decide +kernel

/-- Repair of row 1,535 of a Stall's vector file at a stage, its context frozen or not, with the first `n` spares taken. -/
def wrepair (stage : Nat) (rest : Bool) (n : Nat) : State :=
  { world (fun c => { c with frozen := rest }) id with
    rel := { State.reset.rel with repair := stage, target := BitVec.ofNat 64 (1 + 1535 * 2 ^ 14) },
    stalls := [(0, { stallInit with remap := (List.range n).map (fun i => (remapKey 1 0 i, 1)) })] }

/-- A capture of Stall 191 with its signature, the runs so far and the run that has ended. -/
def wcap (runs : List (Nat × Word)) (w : Word) : State :=
  { w0 with rel := { State.reset.rel with captures := [(191, ⟨764, 0, 0, 0, [], some 5, none, none, [], runs, none, some (4, w)⟩)] } }

theorem witness_YardsAndRepairComplete :
    (yardAt w0 0).status = .running ∧ (yardHolders w0 0 = [0] ∧ replaying w0 0 = false) ∧
    (let s := { w0 with yards := [(4, { yardInit with status := .running, site := 6 }), (5, { yardInit with status := .lost })] }
     5 < 6 ∧ (yardAt s 5).status = .lost ∧ (∀ e ∈ s.yards, e.1 ≠ 5 → e.2.status = .running ∨ e.2.status = .activating → e.2.site ≠ 7)) ∧
    (let s := { w0 with yards := [(5, { yardInit with status := .activating })] }
     (yardAt s 5).status = .activating ∧ ∀ k < 128, (ctxOf s (128 * 5 + k)).status ≠ .lost ∧ (ctxOf s (128 * 5 + k)).raised = []) ∧
    (w0.rel.repair = 0 ∧ fld (BitVec.ofNat 64 (191 * 64)) 6 8 < 192 ∧ 192 ≤ fld (BitVec.ofNat 64 (192 * 64)) 6 8) ∧ (wrepair 1 true 0).rel.repair ≠ 0 ∧
    ((wrepair 1 true 0).rel.repair = 1 ∧ ∀ c ∈ stableCtxs (fld (wrepair 1 true 0).rel.target 6 8 / 2), atRest (ctxOf (wrepair 1 true 0) c) = true) ∧
    ((wrepair 1 false 0).rel.repair = 1 ∧ ∃ c ∈ stableCtxs (fld (wrepair 1 false 0).rel.target 6 8 / 2), atRest (ctxOf (wrepair 1 false 0) c) = false) ∧
    (∀ n ∈ [0, 7], (wrepair 2 true n).rel.repair = 2 ∧ (freeSpare (wrepair 2 true n) 1 0 1535).map (·.1) = some n) ∧
    ((wrepair 2 true 8).rel.repair = 2 ∧ freeSpare (wrepair 2 true 8) 1 0 1535 = none) ∧ (wrepair 3 true 0).rel.repair = 3 ∧
    (let s := world (fun c => { c with status := .rewound, rewind := 1, snap := some snap0, charge := 49152 }) id
     (me s).status = .rewound ∧ (me s).rewind = 1 ∧ rewindQuiet s 0 = true ∧ damagedLog s 0 = none ∧ overrun (me s) = false ∧ (me s).snap = some snap0) ∧
    (∀ sy ∈ [0x05, 0x7F], let s := { world (fun c => { c with status := .rewound, rewind := 1 }) id with marks := [⟨5, 0, 0, 0, true, 0, sy⟩] }
     (me s).status = .rewound ∧ (me s).rewind = 1 ∧ rewindQuiet s 0 = true ∧ damagedLog s 0 ≠ none) ∧
    (∀ n ∈ [1, 2], let s := world (fun c => { c with status := .rewound, rewind := 2, restores := n, snap := some { snap0 with jobs := [job0 3 none] } }) id
     let x := me s
     (stableAt s 0).jobs = [] ∧ x.snap = some { snap0 with jobs := [job0 3 none] } ∧ x.status = .rewound ∧ x.rewind ≠ 1 ∧ (n = 1 → x.restores ≤ 1) ∧ (n = 2 → 1 < x.restores)) ∧
    8 ≤ 8 ∧ 8 < 9 := by
  decide +kernel

/-- For every list of runs and every signature of the run that has ended, a capture that holds them. -/
theorem witness_capture (rs : List (Nat × Word)) (w : Word) :
    ∃ k, mfind (wcap rs w).rel.captures 191 = some k ∧ k.sig = some 5 ∧ k.ended = some (4, w) ∧ k.runs = rs := ⟨_, rfl, rfl, rfl, rfl⟩

/-- A region of a memory that nothing has written reads as zeros. -/
theorem readBytes_zero {m : Map Byte} {a : Nat} (h : ∀ e ∈ m, e.1 < a) (n : Nat) : readBytes m a n = List.replicate n 0 := by
  have z : ∀ (m : Map Byte) (k : Nat), (∀ e ∈ m, e.1 ≠ k) → mget m k 0 = (0 : Byte) := by
    intro m
    induction m with
    | nil => intro _ _; rfl
    | cons e r ih =>
      intro k hk
      rw [mget, if_neg (hk e (List.mem_cons_self ..))]
      exact ih k (fun x hx => hk x (List.mem_cons_of_mem _ hx))
  induction n generalizing a with
  | zero => rfl
  | succ n ih =>
    rw [readBytes, List.replicate_succ, z m a (fun e he => Nat.ne_of_lt (h e he)), ih (fun e he => Nat.lt_succ_of_lt (h e he))]

/-- A requantisation job of operation `op` at 0x200, for tile 0 of a requantisable E4M3 tensor whose entry begins with `w`. -/
def wrq (op w : Nat) : State :=
  { world id (fun l => { l with tensors := [⟨1, 1, 0x11, 0, 0, 65536, 0, 1, 0⟩] }) with
    dev := writeBytes (writeBytes [(0, 1)] 64 (leBytes 16 w)) 0x200 (leBytes 8 0 ++ leBytes 4 0 ++ [BitVec.ofNat 8 op, 0, 0, 0] ++ leBytes 8 0x30000 ++ leBytes 8 0x20000),
    rqJob := some 0x200 }

theorem witness_RequantJobsComplete :
    (∀ op ∈ [1, 5], let s := wrq op 0x10001
      s.rqJob = some 0x200 ∧ s.rqDone = none ∧ s.cxl.regions = [] ∧ devLe s (0x200 + 12) 1 = op ∧ 1 ≤ op ∧ op ≤ 5 ∧ devLe s (0x200 + 13) 3 = 0) ∧
    (let s := { wrq 1 0x10001 with dev := mput (wrq 1 0x10001).dev (0x200 + 15) 1 }
     devLe s (0x200 + 13) 3 ≠ 0 ∧ devLe s (0x200 + 12) 1 = 1) ∧
    (let s := wrq 1 0x10001
     let t := jobTensor s (devLe s 0x200 8) (devLe s (0x200 + 8) 4)
     tileState s t 0 = 1 ∧ entEnc (entryWord s t.table 0 0) = 0 ∧ requantisable s t.table = true ∧ devLe s (0x200 + 16) 8 % 2048 = 0 ∧ devLe s (0x200 + 24) 8 % 32768 = 0 ∧
       t.kind = 1 ∧ devLe s (0x200 + 16) 8 % 65536 = 0 ∧ entPins (entryWord s t.table 0 0) = 0) ∧
    (let s := wrq 2 0x10005
     tileState s (jobTensor s 0 0) 0 = 1 ∧ entEnc (entryWord s 0 0 0) = 1 ∧ devLe s (0x200 + 16) 8 % 65536 = 0) ∧
    (∀ op ∈ [1, 2, 3], let w := if op = 2 then 0x10006 else 0x10002
     let s := wrq op w
     let t := jobTensor s 0 0
     tileState s t 0 = 2 ∧ entEnc (entryWord s t.table 0 0) = (if op = 2 then 1 else 0) ∧ devLe s (0x200 + 13) 3 = 0 ∧ devLe s (0x200 + 16) 8 % 65536 = 0) ∧
    (let s := { wrq 1 0x10001 with dev := mput (wrq 1 0x10001).dev 0 0 }
     requantisable s (jobTensor s 0 0).table = false ∧ tileState s (jobTensor s 0 0) 0 = 1 ∧ entEnc (entryWord s (jobTensor s 0 0).table 0 0) = 0) ∧
    (∀ op ∈ [1, 2, 3], let s := { wrq op (if op = 2 then 0x10005 else 0x10001) with dev := mput (wrq op (if op = 2 then 0x10005 else 0x10001)).dev (0x200 + 16) 8 }
     devLe s (0x200 + 16) 8 % 2048 ≠ 0 ∧ devLe s (0x200 + 12) 1 = op ∧ devLe s (0x200 + 13) 3 = 0 ∧ requantisable s (jobTensor s 0 0).table = true) ∧
    (let s := { wrq 1 0x10001 with dev := mput (wrq 1 0x10001).dev 0x10000 0x7F }
     notFinite (decodeElem 0x11 (devRead s 0x10000 1).head!.toNat) = true ∧ devLe s (0x200 + 16) 8 % 2048 = 0 ∧ devLe s (0x200 + 24) 8 % 32768 = 0) ∧
    (entEnc (entryWord (wrq 1 0x10005) 0 0 0) ≠ 0 ∧ entEnc (entryWord (wrq 2 0x10001) 0 0 0) ≠ 1) ∧
    (let s := wrq 4 0x10FF1
     tileState s (jobTensor s 0 0) 0 ≠ 0 ∧ entPins (entryWord s 0 0 0) ≠ 0) ∧
    (let s := wrq 5 0x10000
     tileState s (jobTensor s 0 0) 0 = 0) ∧
    (let s := { wrq 5 0 with rqDone := some 7 }
     s.rqJob = some 0x200 ∧ s.rqDone = some 7) := by
  decide +kernel

/-- The tile to compact holds no non-finite element. -/
theorem witness_compact : (tileElems (wrq 1 0x10001) (jobTensor (wrq 1 0x10001) 0 0) 0).any (fun x => notFinite (decodeElem 0x11 x.toNat)) = false := by
  have h : tileElems (wrq 1 0x10001) (jobTensor (wrq 1 0x10001) 0 0) 0 = List.replicate 65536 0 := by
    unfold tileElems
    rw [if_neg (by decide +kernel)]
    unfold devRead
    have e : devAddr (entFrame (entryWord (wrq 1 0x10001) (jobTensor (wrq 1 0x10001) 0 0).table 0 0)) = 0x10000 := by decide +kernel
    rw [e]
    exact readBytes_zero (by decide +kernel) _
  rw [h, List.any_eq_false]
  intro x hx
  rw [List.eq_of_mem_replicate hx]
  decide +kernel

/-- A sequence unit of one slot and a ring of one record. -/
def gen0 : GenUnit :=
  { slots := [⟨0, [], 0, 0, 0, 0, []⟩], tokens := [], n := 0, w := 0, records := [], produced := 0, snaps := 1, reading := none, seals := [], halves := [], flips := 0,
    commits := [], opened := true, ending := false }

theorem witness_SequenceUnitSteps :
    (genIdle { gen0 with tokens := [0] } = true ∧ w0.cxl.regions = []) ∧ genIdle { gen0 with tokens := [0], records := [[0]] } = false ∧
    (let g := { gen0 with records := [[0]] }
     g.records ≠ [] ∧ g.tokens = [] ∧ g.records = [0] :: []) ∧
    (let s := world id (fun l => { l with gen := some { gen0 with records := [[0]] } })
     (launchAt s 1).gen.isSome = true ∧ s.cxl.regions = [] ∧ ((0 : Nat) : Int) - devLe s (gBatch (launchAt s 1).desc + 64) 8 < gRoom (launchAt s 1).desc ∧
       ¬ ((1 : Nat) : Int) - devLe s (gBatch (launchAt s 1).desc + 64) 8 < gRoom (launchAt s 1).desc) ∧
    (let g := { gen0 with commits := [(0, (0 : Row))] }
     g.records = [] ∧ g.reading = none ∧ g.commits = [(0, 0)] ∧ (mget [(0, List.replicate 63 (0 : Row))] 0 []).length < 64) := by
  decide +kernel

/-- A fault as it is raised at the running bundle. -/
def fault0 (code info : Nat) : Raised := { ctx := 0, code := code, slot := 7, pc := 4095, cycle := 0, info := info, second := 0, struct := 0, count := 0, synd := 0, mc := 0, launch := 1, queue := 0, seq := 0, entry := none }

/-- A registration of one leaf for register 7, both in the service reserve of one GiB. -/
def wreg7 : State :=
  { State.reset with iocsr := (0x813, 1#64) :: resetIo,
                     dev := writeBytes [] (2 ^ 39 - 64) (leBytes 8 0 ++ leBytes 8 (2 ^ 39 - 32) ++ leBytes 4 1 ++ [7] ++ List.replicate 11 0),
                     sec := { State.reset.sec with job := some (2 ^ 39 - 64) } }

theorem witness_PrivilegedWritesComplete :
    State.reset.heldFaults = [] ∧ firstHeld [fault0 2 0] = some (fault0 2 0) ∧ firstHeld [{ fault0 2 0 with entry := some 0 }] = some { fault0 2 0 with entry := some 0 } ∧
    ((ctxOf w0 (min 191 (fld (BitVec.ofNat 64 (255 * 2 ^ 16)) 0 8) * 4)).status = .running ∧ min 191 (fld (BitVec.ofNat 64 255) 0 8) = 191) ∧
    (ownFault w0 (fault0 9 0) = true ∧ ownFault w0 { fault0 9 0 with seq := 1 } = false) ∧
    (∀ k ∈ [CStatus.held 0x09, .held 0x10, .halted], let s := world (fun c => { c with status := k }) id
      ((ctxOf s 0).status = .held 0x09 ∨ (ctxOf s 0).status = .held 0x10 ∨ (ctxOf s 0).status = .halted) ∧ (ctxOf s 0).inSvc = false ∧ heldFor s 0 = false) ∧
    (State.reset.sec.boot ≠ .linked ∧ (wlink .linked id).sec.boot ≠ .linked ∧ { State.reset.sec with boot := .linked }.boot = .linked) ∧
    (let w := BitVec.ofNat 64 0x200900
     fld w 52 12 = 0 ∧ fld w 6 2 = 0 ∧ fld w 8 4 ≤ 9 ∧ regBase w % regSize w = 0 ∧ regValid w = false) ∧
    (let w := BitVec.ofNat 64 0x200909
     let s := { State.reset with iocsr := (0x813, 16#64) :: resetIo, cxl := { State.reset.cxl with regions := [(0, 0x200909), (1, 0x400909)] } }
     fld w 52 12 = 0 ∧ fld w 6 2 = 0 ∧ fld w 8 4 ≤ 9 ∧ regBase w % regSize w = 0 ∧ regValid w = true ∧ fld (ioCsr s 0x850) 0 13 = 0 ∧ s.sec.boot ≠ .opened ∧
       (∀ e ∈ s.cxl.regions, e.1 ≠ 0 → regValid e.2 = true → regBase w + regSize w ≤ regBase e.2 ∨ regBase e.2 + regSize e.2 ≤ regBase w) ∧
       regBase w + regSize w ≤ 2 ^ 39 - fld (ioCsr s 0x813) 0 5 * 2 ^ 30 ∧ (0 < fld (ioCsr s 0x813) 0 5 ∧ fld (ioCsr s 0x813) 0 5 ≤ 16)) ∧
    (let w := BitVec.ofNat 64 0x400909
     let s := { State.reset with cxl := { State.reset.cxl with regions := [(0, 0x200909), (1, 0x400909)] } }
     regValid w = true ∧ ∃ e ∈ s.cxl.regions, e.1 ≠ fld (ioCsr s 0x850) 0 13 ∧ regValid e.2 = true ∧ ¬ (regBase w + regSize w ≤ regBase e.2 ∨ regBase e.2 + regSize e.2 ≤ regBase w)) ∧
    (fld (BitVec.ofNat 64 32768) 0 16 = 2 ^ 15 ∧ fld (BitVec.ofNat 64 1024) 0 16 = 2 ^ 10 ∧
      2 ^ 39 - 16 * 2 ^ 30 ≤ fld (BitVec.ofNat 64 (2 ^ 39 - 2 ^ 20 + 32768)) 16 48 * 65536 ∧ fld (BitVec.ofNat 64 (2 ^ 39 - 2 ^ 20 + 32768)) 16 48 * 65536 + 32 * 32768 ≤ 2 ^ 39) ∧
    regBase (BitVec.ofNat 64 0x1100) % regSize (BitVec.ofNat 64 0x1100) ≠ 0 ∧ 2 ≤ fld (BitVec.ofNat 64 7) 0 3 ∧ 2 ≤ fld (BitVec.ofNat 64 2) 0 3 ∧ State.reset.sec.job = none ∧
    (wreg7.sec.job = some (2 ^ 39 - 64) ∧ registrationCode wreg7 (2 ^ 39 - 64) = 0) ∧
    registrationCode { wreg7 with dev := [] } (2 ^ 39 - 64) ≠ 0 := by
  decide +kernel

/-- Flash with an image of 256 bytes, version 0, in slot A. -/
def wimg (b : Boot) : State :=
  { State.reset with sec := { State.reset.sec with boot := b, slot := 1, flash := [(0, 0x49), (1, 0x4C), (2, 0x5A), (3, 0x31), (6, 1), (17, 1)] } }

/-- Stages of bring-up; with an empty flash no slot verifies. -/
theorem witness_BringUpComplete :
    State.reset.sec.boot = .memory ∧ (let s := { State.reset with sec := { State.reset.sec with boot := .verify } }
      s.sec.boot = .verify ∧ bootSlot s = none) ∧ (wimg .yards).sec.boot = .yards := by
  decide +kernel

/-- A slot verifies where the free values of log 22 and 23 (the key fuses and the signature scheme) accept its key and its signature. -/
theorem witness_verified (b : Boot) (hr : Sys2Proof.Config.keyRevoked 0 = false) (hk : Sys2Proof.Config.keyFuse 0 = sha256 (slotBytes (wimg b) 0 20 48))
    (hv : Sys2Proof.Config.slhVerify (slotBytes (wimg b) 0 20 48) (slotImage (wimg b) 0) (slotBytes (wimg b) 0 256 16224) = true) :
    slotVerifies (wimg b) 0 = true ∧ slotVerifies (wimg b) 1 = false ∧ bootSlot (wimg b) = some 0 := by
  have h0 : slotVerifies (wimg b) 0 = true := by
    have n : slotLength (wimg b) 0 = 256 := by cases b <;> decide +kernel
    have ha : (List.range 4).any (fun i => !Sys2Proof.Config.keyRevoked i && Sys2Proof.Config.keyFuse i == sha256 (slotBytes (wimg b) 0 20 48)) = true :=
      List.any_eq_true.mpr ⟨0, by decide, by rw [hr, hk]; simp⟩
    unfold slotVerifies
    simp only [n]
    rw [ha, hv]
    cases b <;> decide +kernel
  have h1 : slotVerifies (wimg b) 1 = false := by
    have m : slotLe (wimg b) 1 0 4 = 0 := by cases b <;> decide +kernel
    unfold slotVerifies
    simp only [m]
    rfl
  refine ⟨h0, h1, ?_⟩
  unfold bootSlot
  rw [h0, h1]
  rfl

/-- Each command with a legal and an illegal payload, at the limits of its fields. -/
theorem witness_MailboxCommandsComplete :
    (let s := { wlink .linked id with iocsr := (0x812, 1#64) :: resetIo }
     let chunk : List Byte := leBytes 4 0x1FEFFF8 ++ leBytes 4 8 ++ List.replicate 8 0
     mailboxOpen s = true ∧ s.sec.boot ≠ .recovery ∧ (List.replicate 32 (0 : Byte)).length = 32 ∧
       (8 ≤ chunk.length ∧ chunk.length = 8 + leNat ((chunk.drop 4).take 4)) ∧
       (leNat (chunk.take 4) % 8 = 0 ∧ leNat ((chunk.drop 4).take 4) % 8 = 0 ∧ 8 ≤ leNat ((chunk.drop 4).take 4) ∧ leNat ((chunk.drop 4).take 4) ≤ 65528 ∧
         leNat (chunk.take 4) + leNat ((chunk.drop 4).take 4) ≤ 0x1FF0000) ∧
       ([5, 0] : List Byte).length = 2 ∧ leNat [5, 0] = s.sec.svn ∧ leNat [4, 0] ≠ s.sec.svn ∧
       (leBytes 4 0 ++ leBytes 2 2048).length = 6 ∧ ioCsr s 0x812 ≠ 0 ∧ leNat ((leBytes 4 0 ++ leBytes 2 2048).drop 4) ≠ 0 ∧ leNat ((leBytes 4 0 ++ leBytes 2 2048).drop 4) ≤ 2048 ∧
       leNat ([15] : List Byte) < 16 ∧ leNat ((leBytes 4 0 ++ leBytes 2 4094).drop 4) ≤ 4094 ∧
       ¬ (8 ≤ ([] : List Byte).length ∧ ([] : List Byte).length = 8 + leNat ((([] : List Byte).drop 4).take 4)) ∧
       (([0] : List Byte) ≠ [] ∧ ioCsr (wlink .linked id) 0x812 = 0 ∧ leNat ((leBytes 4 0 ++ leBytes 2 0).drop 4) = 0 ∧ 2048 < leNat ((leBytes 4 0 ++ leBytes 2 2049).drop 4)) ∧
       ¬ leNat ((leBytes 4 4 ++ leBytes 4 8 ++ List.replicate 8 0).take 4) % 8 = 0 ∧ slotVerifies s (spareSlot s) = false ∧
       0xC000 ≤ 0xC102 ∧ 0xC102 ∉ vendorOpcodes) ∧
    (let s := { State.reset with sec := { State.reset.sec with boot := .recovery } }
     s.sec.boot = .recovery ∧ s.sec.quote = none ∧ 0xC112 ∉ [0xC100, 0xC101, 0xC110, 0xC111]) ∧
    mailboxOpen State.reset = false ∧ (modSec (wlink .linked id) (fun c => { c with quote := some [] })).sec.quote = some [] ∧
    mailboxOpen (modSec (wlink .linked id) (fun c => { c with quote := some [] })) = false ∧ spareSlot (wimg .linked) = 0 := by
  decide +kernel

/-- A decoding's answer, from the test for it. -/
theorem ok_is {α β : Type} {e : Except β α} {x : α} (h : e.toOption = some x) : e = .ok x := by
  cases e with
  | ok y => exact congrArg Except.ok (Option.some.inj h)
  | error _ => cases h

/-- A decoding's refusal, from the test for it. -/
theorem error_is {α β : Type} {e : Except β α} {x : β} (h : (match e with | .error y => some y | .ok _ => none) = some x) : e = .error x := by
  cases e with
  | ok _ => cases h
  | error y => exact congrArg Except.error (Option.some.inj h)

/-- The fetch of a legal word, and of an unassigned one; and an event that waits. -/
theorem witness_StepRunsDecoded :
    (let s := State.reset.withFetchWord 24 0x400049
     s.agenda = [.fetch 0 7] ∧ slotInstr (bundleAt s 0 (ctxOf s 0).pc) 7 = .ok (.ins (.semwait 0 1 9))) ∧
    (let s := State.reset.withFetchWord 24 0xF80000
     s.agenda = [.fetch 0 7] ∧ slotInstr (bundleAt s 0 (ctxOf s 0).pc) 7 = .error .unassignedOpcode) ∧
    (let s := { State.reset with inbox := [.moduleReset] }
     s.agenda = [] ∧ s.inbox = .moduleReset :: []) ∧ State.reset.agenda = [] ∧ State.reset.inbox = [] := by
  refine ⟨⟨rfl, ok_is (by decide +kernel)⟩, ⟨rfl, error_is (by decide +kernel)⟩, ⟨rfl, rfl⟩, rfl, rfl⟩

/-- A step that goes on from a state with the invariant: the reference period after reset. -/
theorem witness_StepKeepsInvariant : State.reset.Inv ∧ ∃ t, step State.reset = .next t := ⟨by unfold State.Inv; decide, ⟨_, rfl⟩⟩

/-- Answering a mailbox command leaves the fuse. -/
theorem mailboxDone_svnFuse (s : State) (o c : Nat) (out : List Byte) : (mailboxDone s o c out).sec.svnFuse = s.sec.svnFuse := by
  unfold mailboxDone
  dsimp only
  split <;> split <;> rfl

/-- The waiting command with the running image's version. -/
theorem witness_FuseOnlyByCommand :
    (let s := { wlink .linked id with inbox := [.advanceSecurityVersion [5, 0]] }
     s.Inv ∧ ∃ t, step s = .next t ∧ t.sec.svnFuse ≠ s.sec.svnFuse) := by
  refine ⟨by unfold State.Inv; decide +kernel, ⟨_, rfl, ?_⟩⟩
  show (mailboxDone _ 0xC112 0 []).sec.svnFuse ≠ 0
  rw [mailboxDone_svnFuse]
  decide +kernel

/-- Operations whose predicate is false: p15 not set, and (!p14) with p14 set. -/
theorem witness_FalsePredicateDoesNothing :
    ((SlotOp.ins (.add 15 1 2 3)).enc ≠ none ∧ (preg (me w0) (fld (SlotOp.ins (.add 15 1 2 3)).predField 0 4) != bit (SlotOp.ins (.add 15 1 2 3)).predField 4) = false) ∧
    (let s := world (fun c => { c with pregs := 0x4001 }) id
     (preg (me s) (fld (SlotOp.wc (.srst 30 1)).predField 0 4) != bit (SlotOp.wc (.srst 30 1)).predField 4) = false) ∧
    decodeField 7 0x400049 0 = .ok (.ins (.semwait 0 1 9)) := by
  refine ⟨⟨by decide, by decide⟩, by decide, rfl⟩

theorem witness_EncodeDecode :
    (Instr.wf (.csrr 31 63 0xFFF) = false ∧ Instr.wf (.csrr 31 63 0x8C2) = true ∧ (encode (.csrr 31 63 0x8C2)).isSome = true) ∧
    (Instr.wf (.vscanI 15 6142 6141) = true ∧ (∃ e, encode (.vscanI 15 6142 6141) = some e ∧ e.map = .v ∧ vaOnlyCode (e.field.extractLsb' 57 7).toNat = false)) ∧
    (Instr.wf (.kgen 15 255 6142 1 7 3) = true ∧ (∃ e, encode (.kgen 15 255 6142 1 7 3) = some e ∧ e.map = .v)) ∧
    (Instr.wf (.spill 15 63 23 31) = true ∧ (∃ e, encode (.spill 15 63 23 31) = some e ∧ e.map = .w)) := by
  refine ⟨by decide, ⟨by decide, _, rfl, by decide⟩, ⟨by decide, _, rfl, by decide⟩, ⟨by decide, _, rfl, by decide⟩⟩

theorem witness_LoopBoundsWriteAndRead :
    predTrue (me w0) 0 = true ∧ checkI w0 (.loopNbound 0 15 63) = .ok ∧ nreg (me w0) 15 = 0 ∧
    (let s := world (fun c => { c with nregs := [(15, 0xFFFFFFFF)] }) id
     checkI s (.loopNbound 0 15 63) = .ok ∧ nreg (me s) 15 ≠ 0) ∧
    (⟨1, 0, 0, 0, .nreg 15 0xFFFFFFFF⟩ : Flight).eff = .nreg 15 0xFFFFFFFF := by
  decide +kernel

theorem witness_ResultsLandInRegisters :
    (⟨1, 0, 0, 0, .sreg 63 1⟩ : Flight).eff = .sreg 63 1 ∧ (⟨1, 0, 0, 0, .sreg 0 1⟩ : Flight).eff = .sreg 0 1 ∧
    (15 < 16 ∧ (⟨1, 0, 0, 0, .preg 15 true⟩ : Flight).eff = .preg 15 true) ∧ (0 < 16 ∧ (⟨1, 0, 0, 0, .preg 0 false⟩ : Flight).eff = .preg 0 false) ∧
    (⟨1, 0, 0, 0, .flags 31⟩ : Flight).eff = .flags 31 := by decide

theorem witness_VectorViewsReadAndWrite :
    (2 < 3 ∧ 63 < 64) ∧ (∀ d < 3, (⟨1, 0, 0, 0, .row 1535 d 7 allBytes⟩ : Flight).eff = .row 1535 d 7 allBytes) ∧
    (∀ r < 2, ∀ k < 64, (fun e => (1472 + e, (e + 63) % 64)) k ≠ (r, 0)) := by
  refine ⟨by decide, fun _ _ => rfl, by decide⟩

/-- The last 512 bytes of bay 7 written alone, and by two Stalls at once. -/
theorem witness_RoundStoresWriteTheirBytes :
    (let w : BayWrite := ⟨5, 191, 7, 261632, List.replicate 512 1, List.replicate 512 255⟩
     let s := { w0 with stables := [(95, { stableInit with writes := [w] })] }
     (stableAt s 95).writes = [w] ∧ (stableAt s 95).jobs = [] ∧ (stableAt s 95).packets = [] ∧ w.mask.length = w.data.length) ∧
    (let v : BayWrite := ⟨5, 190, 7, 262136, [1, 2, 3, 4, 5, 6, 7, 8], List.replicate 8 255⟩
     let w : BayWrite := ⟨5, 191, 7, 262136, [8, 7, 6, 5, 4, 3, 2, 1], List.replicate 8 255⟩
     let s := { w0 with stables := [(95, { stableInit with writes := [w, v] })] }
     (stableAt s 95).writes = [w, v] ∧ v.mask = fullMask v.data.length ∧ w.mask = fullMask w.data.length ∧ v.stall < 2 ^ 20 ∧ w.stall < 2 ^ 20 ∧ v.slot = w.slot ∧ v.stall < w.stall) := by
  decide +kernel

/-- A capture of Stall 191 whose replay runs in context 0. -/
def wreplay : State := { w0 with rel := { State.reset.rel with captures := [(191, ⟨764, 0, 0, 0, [], some 5, none, none, [], [], some 0, none⟩)] } }

/-- One fault for each default: ending the launch, held for firmware with and without a request posted, a hang record, a rewind, a service
call, with room for the last entry of the buffer; a full buffer; a replay; a wait past the time-out; and a record to write. -/
theorem witness_FaultsAreTaken :
    (let s := { w0 with fbuf := List.replicate 1023 ⟨0, 0⟩ }
     replaying s 0 = false ∧ s.fbuf.length < 1024 ∧ endsLaunch (exhausted s (fault0 1 0)).code = true ∧ (launchAt s (ctxOf s 0).launch).state = .running ∧ launchHeld s 1 = [0]) ∧
    (fault0 9 4095).info < 4096 ∧
    (∀ k ∈ [0x07, 0x09, 0x10, 0x20, 0x22, 0x40, 0x21], (exhausted w0 (fault0 k 0)).code = k ∧ k ≠ 0x14 ∧ (fault0 k 0).entry = none) ∧
    (ctxOf w0 0).request = 0 ∧ (ctxOf (world (fun c => { c with request := 255 }) id) 0).request ≠ 0 ∧
    (exhausted (world (fun c => { c with snap := some snap0, grant := { c.grant with segbudget := 768 } }) id) (fault0 0x30 0)).code = 0x30 ∧
    1024 ≤ ({ w0 with fbuf := List.replicate 1024 ⟨0, 0⟩ } : State).fbuf.length ∧
    replaying wreplay (fault0 1 0).ctx = true ∧
    (let s := world (fun c => { c with wait := .sem 63, waited := 2 ^ 24 + 1 }) id
     (ctxOf s 0).wait ≠ .none ∧ 2 ^ fld (ioCsr s 0x832) 0 6 < (ctxOf s 0).waited) ∧
    ({ w0 with agenda := [.record 0 15] } : State).agenda = .record 0 15 :: [] := by
  decide +kernel

theorem witness_ServiceEntryAndReturn :
    2 % 2 = 0 ∧
    (let s := { w0 with stalls := [(0, { stallInit with svcause := [(0, 0x20)] })] }
     mget (stallAt s (stallOf 0)).svcause (slotOf 0) 0 % 256 = 0x20) ∧
    mget (stallAt w0 (stallOf 0)).svcause (slotOf 0) 0 % 256 ≠ 0x20 ∧
    (∀ k ∈ [CStatus.held 0x09, .held 0x10, .halted], let s := world (fun c => { c with status := k }) id
      (ctxOf s 0).status = k ∧ (ctxOf s 0).after = .none) ∧
    (ctxOf w0 0).status = .running ∧
    tapPending (me (world (fun c => { c with tapstat := 0x100 }) id)) = true ∧
    (let x := me (world (fun c => { c with request := 255 }) id)
     tapPending x = false ∧ x.request ≠ 0) ∧
    (tapPending (me w0) = false ∧ (me w0).request = 0 ∧ (me w0).after = .none) ∧
    (let s := world (fun c => { c with expired := true }) id
     (ctxOf s 0).status = .running ∧ (ctxOf s 0).inSvc = false ∧ (ctxOf s 0).frozen = false ∧ (ctxOf s 0).expired = true ∧ (stableAt s (stableOf 0)).draining = false) := by
  decide +kernel

/-! Worked examples of the spec. -/

/-- The state that an outcome goes on to; the reset state where it does not. -/
def after (o : Host.Outcome State Fault Refusal) : State := match o with | .next t => t | _ => State.reset

/-- R120: DIVS of -7 by 2 gives -3, DIV of 7 by 0 all ones, REM of 7 by 0 gives 7, REM of 0xFFFFFFFFFFFFFFF9 by 10 gives 9. -/
theorem test_division :
    ((me (after (exec (.divs 0 3 1 2) (w2 (-7) 2)))).flight.map (·.eff)) = [.sreg 3 (-3)] ∧
    ((me (after (exec (.div 0 3 1 2) (w2 7 0)))).flight.map (·.eff)) = [.sreg 3 0xFFFFFFFFFFFFFFFF] ∧
    ((me (after (exec (.rem 0 3 1 2) (w2 7 0)))).flight.map (·.eff)) = [.sreg 3 7] ∧
    ((me (after (exec (.rem 0 3 1 2) (w2 0xFFFFFFFFFFFFFFF9 10)))).flight.map (·.eff)) = [.sreg 3 9] := by decide +kernel

/-- R123: PAND p5, p1, (!p0) writes false. -/
theorem test_pand_not_p0 : ((me (after (exec (.pand 0 5 1 0 0 1) (world (fun c => { c with pregs := 3 }) id)))).flight.map (·.eff)) = [.preg 5 false] := by decide +kernel

/-- R56's table: 460 and 464 into E4M3, 6.5 and 7.0 into E2M1, 127.5 into signed INT8. -/
theorem test_rounding :
    (encodeElem 0x11 (.fin false 460 0)).code = 0x7E ∧ (encodeElem 0x11 (.fin false 460 0)).flags = fNX ∧
    (encodeElem 0x11 (.fin false 464 0)).code = 0x7E ∧ (encodeElem 0x11 (.fin false 464 0)).flags = fOF ||| fNX ∧
    (encodeElem 0x13 (.fin false 13 (-1))).code = 7 ∧ (encodeElem 0x13 (.fin false 13 (-1))).flags = fNX ∧
    (encodeElem 0x13 (.fin false 7 0)).code = 7 ∧ (encodeElem 0x13 (.fin false 7 0)).flags = fOF ||| fNX ∧
    (encodeElem 0x0F (.fin false 255 (-1))).code = 127 ∧ (encodeElem 0x0F (.fin false 255 (-1))).flags = fOF ||| fNX := by decide +kernel

/-- R66: VRSQ of 4.0 is exactly 0.5. -/
theorem test_vrsq_four : vrsq 0x40800000 = (0x3F000000, 0) := by decide +kernel

/-- R43: INT4 element 5 of a row is bits 7:4 of byte 2, INT1 element 13 bit 5 of byte 1. -/
theorem test_packing : elem 4 (7 * 2 ^ 20) 5 = 7 ∧ elem 1 (2 ^ 13) 13 = 1 := by decide

/-- R29: a VA write to v70.col and a VB write to v73 land together: bytes 48 to 55 of row 73 take VB's value, the rest of column 6 VA's. -/
theorem test_overlapping_views :
    (let s := landEff (landEff w0 0 ⟨0, 1, 0, 0, .row 70 1 (BitVec.allOnes 4096) allBytes⟩) 0 ⟨0, 2, 0, 0, .row 73 0 5 allBytes⟩
     elem 64 (vrow (me s) 73).toNat 6 = 0 ∧ elem 64 (vrow (me s) 72).toNat 6 = 2 ^ 64 - 1 ∧ elem 64 (vrow (me s) 73).toNat 0 = 5) := by decide +kernel

/-- R2: logical Yard 3, mesh 2, position 1, Stall 1 is global Stall 115. -/
theorem test_global_stall : stallOf (ctxOfLocal { launch1 with yards := [3], m0 := 2, p0 := 1, header := List.replicate 32 0 ++ [1, 1, 1, 2] } 1) = 115 := by decide

/-- R174, R176: an E8M0 scale entry of 0x7C is 2^-3; one step up it is 0x7D; 200 steps down it is 0x00 with UF and NX. -/
theorem test_scale_steps :
    (roundScale 1 (scale2 (entryVal ⟨0x7C, 0x00120000⟩ 0) 1)).code = 0x7D ∧ (roundScale 1 (scale2 (entryVal ⟨0x7C, 0x00120000⟩ 0) (-200))).code = 0 ∧
    (roundScale 1 (scale2 (entryVal ⟨0x7C, 0x00120000⟩ 0) (-200))).flags = fUF ||| fNX := by decide +kernel

/-- R366: with the stop strings (7, 8, 9) and (8, 3), hold-back on, the tokens 7, 8, 8, 3. -/
theorem test_stop_strings :
    (let st := [(0, [7, 8, 9]), (1, [8, 3])]
     matchToken st true [] 7 = ([], [7], none) ∧ matchToken st true [7] 8 = ([], [7, 8], none) ∧ matchToken st true [7, 8] 8 = ([7, 8], [8], none) ∧
       matchToken st true [8] 3 = ([], [], some (1, 0))) := by decide +kernel

end Sys2Proof.Tests
end

/-!
What the round and the registers hold after a landing or the end of a Yard cycle, and what one reference period, one placement decision and
one scrub pass do.
-/

namespace Sys2Proof.Machine

/-! ## Round stores at issue -/

/-- A direct round store with its bytes counted: one train to the bay, and one write of every bit at issue + 2 + h (R188). -/
theorem storeRound_eq (s : State) (bay : BitVec 3) (off : Nat) (lane : BitVec 4) (e f : Nat) {n : Nat} {data : List Byte} (h : data.length = n) :
    storeRound s bay off lane e f data =
      emit (ride s (storeTraffic s bay off n lane e f)) (2 + hops lane.toNat (portPos s.cur.ctx) (2 * bay.toNat))
        (.write bay.toNat off data (List.replicate n 255)) := by
  subst h; rfl

/-- A round store whose checks pass answers that store; the check's findings beside its operands are those of its traffic. -/
theorem perform_storeRound {s : State} {p : BitVec 5} {src : List (BitVec 13)} {ks : List (BitVec 8)} {bay : BitVec 3} {off n : Nat} {lane : BitVec 4}
    {e f : Nat} {data : State → List Byte} (hp : predTrue (me s) p = true) (hu : Usable s [] src ks)
    (hr : RoundFree s (storeTraffic s bay off n lane e f)) (hn : (data s).length = n) :
    perform s (common s p [] src ks fine (trafficFound s (storeTraffic s bay off n lane e f))) p
        (fun s => storeRound s bay off lane e f (data s)) =
      .next (emit (ride s (storeTraffic s bay off n lane e f)) (2 + hops lane.toNat (portPos s.cur.ctx) (2 * bay.toNat))
        (.write bay.toNat off (data s) (List.replicate n 255))) := by
  rw [perform_ok (common_ok hu rfl (trafficFound_fine hr)) hp, storeRound_eq s bay off lane e f hn]

/-- Settles O27: each round store is the shared round store with its own bytes. -/
theorem roundStoresComplete : Obligations.RoundStoresComplete := by
  intro s p vs ks a bay off off8 lane hp
  refine ⟨fun hu hr => ?_, fun hu hr => ?_, fun hr => ?_⟩
  · exact perform_storeRound (data := fun s => rowBytes (readVec (me s) vs)) hp hu hr (leBytes_len _ _)
  · exact perform_storeRound (data := fun s => leBytes 128 (kreg (me s) ks.toNat).entries.toNat) hp hu hr (leBytes_len _ _)
  · exact perform_storeRound (data := fun s => leBytes 8 (sreg (me s) a.toNat).toNat) hp (usable_nil s) hr (leBytes_len _ _)

/-! ## Landing registers -/

/-- A predicate after a write: p0 reads true and discards writes (R76). -/
theorem preg_setPreg (c : Ctx) (n : Nat) (v : Bool) {m : Nat} (hm : m < 16) :
    preg (setPreg c n v) m = if m = 0 then true else if m = n then v else preg c m := by
  unfold preg setPreg bit
  by_cases h0 : m = 0
  · simp [h0]
  by_cases hn : n = 0
  · have : m ≠ n := by omega
    simp [h0, hn]
  by_cases he : m = n
  · subst he
    simp only [h0, if_false, setField_bit _ _ _ _ _ hm]
    cases v <;> simp [h0]
  · have : ¬ (n ≤ m ∧ m < n + 1) := by omega
    simp only [h0, hn, he, if_false, setField_bit _ _ _ _ _ hm, if_neg this]

/-- A scalar write changes the scalars of its context alone. -/
theorem setSreg_frame (c : Ctx) (n : Nat) (v : Word) : setSreg c n v = { c with sregs := (setSreg c n v).sregs } := by
  unfold setSreg; split <;> rfl

/-- A predicate write changes the predicates of its context alone. -/
theorem setPreg_frame (c : Ctx) (n : Nat) (v : Bool) : setPreg c n v = { c with pregs := (setPreg c n v).pregs } := by
  unfold setPreg; split <;> rfl

theorem landEff_sreg {s : State} {c : Nat} {f : Flight} {n : Nat} {v : Word} (h : f.eff = .sreg n v) :
    landEff s c f = modCtx s c (fun x => setSreg x n v) := by unfold landEff; rw [h]

theorem landEff_preg {s : State} {c : Nat} {f : Flight} {n : Nat} {v : Bool} (h : f.eff = .preg n v) :
    landEff s c f = modCtx s c (fun x => setPreg x n v) := by unfold landEff; rw [h]

theorem landEff_flags {s : State} {c : Nat} {f : Flight} {g : BitVec 5} (h : f.eff = .flags g) :
    landEff s c f = modCtx s c (fun x => orFlags x g) := by unfold landEff; rw [h]

theorem ctxOf_modCtx_self (s : State) (c : Nat) (f : Ctx → Ctx) : ctxOf (modCtx s c f) c = f (ctxOf s c) := by simp

theorem ctxOf_modCtx_other (s : State) (c : Nat) (f : Ctx → Ctx) : ∀ d, d ≠ c → ctxOf (modCtx s c f) d = ctxOf s d := by
  intro d hd; simp [hd]

/-- Settles O56: each landing is one update of one context. -/
theorem resultsLandInRegisters : Obligations.ResultsLandInRegisters := by
  intro s c f t
  refine ⟨fun n v h => ?_, fun n v _ h => ?_, fun g h => ?_⟩
  · have ht : t = modCtx s c (fun x => setSreg x n v) := landEff_sreg h
    rw [ht, ctxOf_modCtx_self]
    exact ⟨sreg_setSreg _ n v, setSreg_frame _ n v, rfl, ctxOf_modCtx_other s c _⟩
  · have ht : t = modCtx s c (fun x => setPreg x n v) := landEff_preg h
    rw [ht, ctxOf_modCtx_self]
    exact ⟨fun m hm => preg_setPreg _ n v hm, setPreg_frame _ n v, rfl, ctxOf_modCtx_other s c _⟩
  · have ht : t = modCtx s c (fun x => orFlags x g) := landEff_flags h
    rw [ht, ctxOf_modCtx_self]
    exact ⟨rfl, rfl, ctxOf_modCtx_other s c _⟩

/-! ## Round writes at the end of a cycle -/

/-- A landing bay write: the undo log may take the old bytes, and the write joins those of its Stable (R190, R285). -/
theorem landEff_write {s : State} {c : Nat} {f : Flight} {bay off : Nat} {data mask : List Byte} (h : f.eff = .write bay off data mask) :
    landEff s c f = modStable (modCtx s c (fun x => logGranules s x (stableOf c) bay off data.length)) (stableOf c) (fun t =>
      { t with writes := t.writes ++ [{ slot := f.slot, stall := stallOf c, bay := bay, off := off, data := data, mask := mask }] }) := by
  unfold landEff; rw [h]

/-- A byte masked with no bit stays. -/
theorem masked_none (x b : Byte) : (x &&& ~~~0#8) ||| (b &&& 0#8) = x := by
  rw [BitVec.not_zero, BitVec.and_allOnes, BitVec.and_zero, BitVec.or_zero]

/-- A byte masked with every bit is replaced. -/
theorem masked_all (x b : Byte) : (x &&& ~~~255#8) ||| (b &&& 255#8) = b := by
  rw [show (255#8 : Byte) = BitVec.allOnes 8 from rfl, BitVec.not_allOnes, BitVec.and_allOnes, BitVec.and_zero, BitVec.zero_or]

/-- A masked store gives each of its bytes the new value in its mask's bits. -/
theorem mget_writeMasked_same (m : Map Byte) (a i : Nat) (l k : List Byte) (hl : i < l.length) (hk : i < k.length) :
    mget (writeMasked m a l k) (a + i) 0 = (mget m (a + i) 0 &&& ~~~(k.getD i 0)) ||| (l.getD i 0 &&& k.getD i 0) := by
  induction l generalizing m a i k with
  | nil => simp at hl
  | cons b l ih =>
    cases k with
    | nil => simp at hk
    | cons x k =>
      unfold writeMasked
      cases i with
      | zero =>
        rw [mget_writeMasked_other _ _ _ _ _ (by omega)]
        split
        · next hx => subst hx; exact (masked_none _ b).symm
        · exact mget_mset_same m a _ 0
      | succ i =>
        rw [show a + (i + 1) = a + 1 + i by omega, ih _ _ _ _ (by simpa using hl) (by simpa using hk)]
        have : a + 1 + i ≠ a := by omega
        split <;> simp [this]

/-- A byte of the round after a write with a mask for each byte (R190). -/
theorem mget_roundWrite (s : State) (sb bay off : Nat) (data mask : List Byte) (h : mask.length = data.length) (a : Nat) :
    mget (roundWrite s sb bay off data mask).round a 0 =
      if roundKey sb bay off ≤ a ∧ a < roundKey sb bay off + data.length then
        (mget s.round a 0 &&& ~~~(nth mask (a - roundKey sb bay off) 0)) ||| (nth data (a - roundKey sb bay off) 0 &&& nth mask (a - roundKey sb bay off) 0)
      else mget s.round a 0 := by
  show mget (writeMasked s.round (roundKey sb bay off) data mask) a 0 = _
  split
  · next hin =>
    obtain ⟨i, rfl⟩ := Nat.exists_eq_add_of_le hin.1
    rw [Nat.add_sub_cancel_left, mget_writeMasked_same _ _ _ _ _ (by omega) (by omega)]; rfl
  · next hout => exact mget_writeMasked_other _ _ _ _ _ (by omega)

/-- A byte of the round after a write of every bit. -/
theorem mget_roundWrite_full (s : State) (sb bay off : Nat) (data : List Byte) (a : Nat) :
    mget (roundWrite s sb bay off data (fullMask data.length)).round a 0 =
      if roundKey sb bay off ≤ a ∧ a < roundKey sb bay off + data.length then nth data (a - roundKey sb bay off) 0 else mget s.round a 0 := by
  rw [mget_roundWrite s sb bay off data _ (by simp [fullMask])]
  split
  · next hin =>
    have hm : nth (fullMask data.length) (a - roundKey sb bay off) 0 = 255#8 := by
      have hlt : a - roundKey sb bay off < data.length := by omega
      rw [nth, fullMask, List.getD_eq_getElem?_getD, List.getElem?_replicate, if_pos hlt, Option.getD_some]
    rw [hm, masked_all]
  · rfl

/-- The end of a Stable's cycle with no job and no packet there: the round takes the queued writes in the order of slot, then Stall (R190). -/
theorem closeStable_round {s : State} {sb : Nat} (hj : (stableAt s sb).jobs = []) (hp : (stableAt s sb).packets = []) :
    (closeStable s sb).round = ((sortBy (fun w => w.slot * 2 ^ 20 + w.stall) (stableAt s sb).writes).foldl
      (fun s w => roundWrite s sb w.bay w.off w.data w.mask) s).round := by
  have hk : ∀ ws : List BayWrite, stableAt (ws.foldl (fun s w => roundWrite s sb w.bay w.off w.data w.mask) s) sb = stableAt s sb :=
    fun ws => foldl_keep (fun t => stableAt t sb = stableAt s sb) _ (fun t w h => by rw [stableAt_roundWrite, h]) ws s rfl
  simp only [closeStable, hj, List.filter_nil, List.foldl_nil, hk, hp]
  rfl

/-- A pair is sorted by its keys, whichever way it came. -/
theorem sortBy_pair {α : Type} {key : α → Nat} {v w : α} {l : List α} (h : key v < key w) (hl : l = [v, w] ∨ l = [w, v]) : sortBy key l = [v, w] := by
  have hn : ¬ key w < key v := by omega
  rcases hl with rfl | rfl <;> simp [sortBy, insertBy, h, hn]

/-- The key of R190 orders by slot, then by Stall. -/
theorem writeKey_lt {v w : BayWrite} (hv : v.stall < 2 ^ 20) (h : v.slot < w.slot ∨ v.slot = w.slot ∧ v.stall < w.stall) :
    v.slot * 2 ^ 20 + v.stall < w.slot * 2 ^ 20 + w.stall := by omega

/-- Settles O58: a landing write is queued, and the end of the cycle folds the sorted queue into the round. -/
theorem roundStoresWriteTheirBytes : Obligations.RoundStoresWriteTheirBytes := by
  intro s
  refine ⟨fun c f bay off data mask h => ?_, fun sb w hw hj hp hm a => ?_, fun sb v w hw hj hp hv hm hs _ hlt a => ?_⟩
  · rw [landEff_write h]
    exact ⟨rfl, by simp⟩
  · rw [closeStable_round hj hp, hw]
    exact mget_roundWrite s sb w.bay w.off w.data w.mask hm a
  · rw [closeStable_round hj hp, sortBy_pair (v := v) (w := w) (writeKey_lt hs hlt) hw, List.foldl_cons, List.foldl_cons, List.foldl_nil, hv, hm,
      mget_roundWrite_full, mget_roundWrite_full]

/-! ## The reference period -/

/-- A reference period as R9 and R18 order it. -/
theorem exec_yardCycle (s : State) : exec .yardCycle s = .next (referencePeriod s) := rfl

theorem formQuote_none {s : State} (h : s.sec.quote = none) : formQuote s = s := by unfold formQuote; rw [h]

/-- No strike is due: none takes effect. -/
theorem takeStrikes_none {s : State} (h : ∀ e ∈ s.strikes, s.mcycle < e.1) : takeStrikes s = s := by
  have hd : s.strikes.filter (fun e => decide (e.1 ≤ s.mcycle)) = [] := by
    rw [List.filter_eq_nil_iff]; intro e he
    have := h e he
    simpa using this
  unfold takeStrikes
  rw [hd]; rfl

theorem takeFloor_status (n : Nat) (y : Yard) : (takeFloor n y).status = y.status := by
  unfold takeFloor
  split
  · split <;> rfl
  · rfl

/-- New clock floors start no Yard. -/
theorem takeFloors_none_running {s : State} (h : ∀ e ∈ s.yards, e.2.status ≠ .running) :
    (takeFloors s).yards.filter (fun e => e.2.status == .running) = [] := by
  rw [List.filter_eq_nil_iff]
  intro e he
  obtain ⟨y, hy, rfl⟩ := List.mem_map.1 he
  simpa [takeFloor_status] using h y hy

/-- A reference period with no quote waiting, no Yard running and no strike due. -/
theorem referencePeriod_idle {s : State} (hq : s.sec.quote = none) (hy : ∀ e ∈ s.yards, e.2.status ≠ .running)
    (hs : ∀ e ∈ s.strikes, s.mcycle + 1 < e.1) :
    referencePeriod s = { takeFloors { s with mcycle := s.mcycle + 1 } with agenda := s.agenda ++ [.period] } := by
  have ht : takeStrikes (takeFloors { s with mcycle := s.mcycle + 1 }) = takeFloors { s with mcycle := s.mcycle + 1 } := takeStrikes_none hs
  have hr : (takeFloors { s with mcycle := s.mcycle + 1 }).yards.filter (fun e => e.2.status == .running) = [] := takeFloors_none_running hy
  unfold referencePeriod
  rw [formQuote_none hq]
  simp only [ht, hr, List.map_nil, List.foldl_nil]
  rfl

/-! ## The placement decision -/

theorem exec_placementDecision (s : State) : exec .placementDecision s = .next (placementDecision s) := rfl

/-- With no captured segment there is no replay to start (R391). -/
theorem startReplays_none {s : State} (h : s.rel.captures = []) : startReplays s = s := by unfold startReplays; rw [h]; rfl

/-- A decision with no candidate only starts replays. -/
theorem placementDecision_none {s : State} (h : candidates (advanceQueues s) = []) :
    placementDecision s = startReplays (advanceQueues s) := by
  unfold placementDecision; simp only [h, decidePlace]

/-- A decision whose first candidate has a place puts it there (R312). -/
theorem placementDecision_first {s : State} {n : Nat} {l p : Launch} {r : List (Nat × Launch)}
    (h : candidates (advanceQueues s) = (n, l) :: r) (hp : findPlace (advanceQueues s) n l = some p) :
    placementDecision s = startReplays (advanceQueues (if waitsBack l then resumePlaced (advanceQueues s) n p else startPlaced (advanceQueues s) n p)) := by
  unfold placementDecision; simp [h, decidePlace, hp]

/-! ## The scrub pass -/

theorem exec_scrubPass (s : State) : exec .scrubPass s = .next (scrubPass s) := rfl

theorem SameRun.dev_eq {t s : State} (h : SameRun t s) : t.dev = s.dev := by
  obtain ⟨-, -, -, -, -, -, hd, -⟩ := h
  exact hd

theorem SameRun.ctxs_eq {t s : State} (h : SameRun t s) : t.ctxs = s.ctxs := h.1

/-- Correcting the single-bit errors of some words leaves the other words and every uncorrectable one. -/
theorem mem_correctAll (s : State) (hit : Mark → Bool) (m : Mark) :
    m ∈ (correctAll s hit).marks ↔ m ∈ s.marks ∧ (m.bad = true ∨ hit m = false) := by
  rw [correctAll_marks]
  simp only [List.mem_filter, Bool.not_eq_true', List.contains_eq_mem, decide_eq_false_iff_not, Bool.and_eq_true]
  cases m.bad <;> cases hit m <;> simp

/-- Poisoning a line leaves the words elsewhere, and makes every word of the line poison. -/
theorem mem_poisonLine (ms : List Mark) (line : Nat) (m : Mark) :
    m ∈ poisonLine ms line ↔ (m ∈ ms ∧ ¬ (m.struct = 0x18 ∧ m.unit = line)) ∨ ∃ w < 8, m = ⟨0x18, 0, line, w, true, 0, 0x7F⟩ := by
  unfold poisonLine
  have hk : (!(m.struct == 0x18 && m.unit == line)) = true ↔ ¬ (m.struct = 0x18 ∧ m.unit = line) := by
    rw [Bool.not_eq_true', ← Bool.not_eq_true, Bool.and_eq_true, beq_iff_eq, beq_iff_eq]
  simp only [List.mem_append, List.mem_filter, List.mem_map, List.mem_range, hk, eq_comm (a := m)]

/-- Poisoning lines touches no word that is not of LPDDR6. -/
theorem mem_poisonLines_off {m : Mark} (h : m.struct ≠ 0x18) (lines : List Nat) (ms : List Mark) : m ∈ lines.foldl poisonLine ms ↔ m ∈ ms := by
  induction lines generalizing ms with
  | nil => rfl
  | cons a r ih =>
    rw [List.foldl_cons, ih, mem_poisonLine]
    constructor
    · rintro (⟨hm, -⟩ | ⟨w, -, rfl⟩)
      · exact hm
      · exact absurd rfl h
    · exact fun hm => .inl ⟨hm, fun hc => h hc.1⟩

/-- Every marked word of LPDDR6 is poison. -/
def LinesPoisoned (ms : List Mark) : Prop := ∀ m ∈ ms, m.struct = 0x18 → m.bad = true ∧ m.synd = 0x7F

/-- Every word of a line is marked. -/
def LineMarked (ms : List Mark) (line : Nat) : Prop := ∀ w < 8, ∃ k ∈ ms, k.struct = 0x18 ∧ k.unit = line ∧ k.word = w

theorem poisonLine_poisoned {ms : List Mark} (line : Nat) (h : LinesPoisoned ms) : LinesPoisoned (poisonLine ms line) := by
  intro m hm hs
  rcases (mem_poisonLine ms line m).1 hm with ⟨hm, -⟩ | ⟨w, -, rfl⟩
  · exact h m hm hs
  · exact ⟨rfl, rfl⟩

theorem poisonLine_marked (ms : List Mark) (line : Nat) : LineMarked (poisonLine ms line) line :=
  fun w hw => ⟨_, (mem_poisonLine ms line _).2 (.inr ⟨w, hw, rfl⟩), rfl, rfl, rfl⟩

theorem poisonLine_keeps_marked {ms : List Mark} {line : Nat} (a : Nat) (h : LineMarked ms line) : LineMarked (poisonLine ms a) line := by
  by_cases ha : line = a
  · subst ha; exact poisonLine_marked ms line
  · intro w hw
    obtain ⟨k, hk, hs, hu, hkw⟩ := h w hw
    exact ⟨k, (mem_poisonLine ms a k).2 (.inl ⟨hk, fun hc => ha (hu.symm.trans hc.2)⟩), hs, hu, hkw⟩

/-- Each line that is poisoned has every word marked at the end. -/
theorem poisonLines_marked {line : Nat} {lines : List Nat} (h : line ∈ lines) (ms : List Mark) : LineMarked (lines.foldl poisonLine ms) line := by
  induction lines generalizing ms with
  | nil => cases h
  | cons a r ih =>
    rw [List.foldl_cons]
    rcases List.mem_cons.1 h with rfl | h
    · exact foldl_keep (LineMarked · line) poisonLine (fun _ a => poisonLine_keeps_marked a) r _ (poisonLine_marked ms line)
    · exact ih h _

/-- The uncorrectable words that a read of LPDDR6 newly finds. -/
def newBad (s : State) : List Mark := s.marks.filter (fun m => m.bad && m.synd != 0x7F && m.struct == 0x18)

theorem mem_newBad {s : State} {m : Mark} : m ∈ newBad s ↔ m ∈ s.marks ∧ m.bad = true ∧ m.synd ≠ 0x7F ∧ m.struct = 0x18 := by
  simp [newBad, and_assoc]

/-- A mark as a read leaves it that finds the marks `new` uncorrectable (R384). -/
def poisoned (new : List Mark) (m : Mark) : Mark := if new.any (· == m) then { m with synd := 0x7F } else m

theorem poisoned_of_not_mem {new : List Mark} {m : Mark} (h : m ∉ new) : poisoned new m = m := by
  have : new.any (· == m) = false := by rw [List.any_beq']; simpa using h
  simp [poisoned, this]

theorem poisoned_of_mem {new : List Mark} {m : Mark} (h : m ∈ new) : poisoned new m = { m with synd := 0x7F } := by
  have : new.any (· == m) = true := by simpa using h
  simp [poisoned, this]

/-- The marks after a read of all of LPDDR6 that tells no one: each new line is poisoned whole; with none, nothing changes. -/
theorem findBad_lines_marks (s : State) : (findBad s (fun m => m.struct == 0x18) false).marks =
    ((newBad s).map (·.unit)).foldl poisonLine (s.marks.map (poisoned (newBad s))) := by
  have hl : (newBad s).filter (fun m => m.struct == 0x18) = newBad s :=
    List.filter_eq_self.2 fun m hm => by simpa using (mem_newBad.1 hm).2.2.2
  unfold findBad
  dsimp only
  split
  · next he =>
    have hn : newBad s = [] := List.isEmpty_iff.1 he
    have hi : s.marks.map (poisoned []) = s.marks := (List.map_congr_left fun m _ => poisoned_of_not_mem (by simp)).trans (List.map_id _)
    rw [hn, hi]; rfl
  · show (((newBad s).filter (fun m => m.struct == 0x18)).map (·.unit)).foldl poisonLine _ = _
    rw [hl]; rfl

/-- The records of a pass over lines leave the marks and everything that runs alone. -/
theorem recordLines_keeps (bad : List Mark) (lines : List Nat) (s : State) :
    SameRun (lines.foldl (fun s line => (bad.find? (fun m => m.unit == line)).elim s (poisonRecord s)) s) s ∧
      (lines.foldl (fun s line => (bad.find? (fun m => m.unit == line)).elim s (poisonRecord s)) s).marks = s.marks := by
  refine foldl_keep (fun t : State => SameRun t s ∧ t.marks = s.marks) _ (fun t line ht => ?_) lines s ⟨SameRun.refl s, rfl⟩
  cases bad.find? (fun m => m.unit == line) with
  | none => exact ht
  | some m => exact ⟨(putRecord_run ..).trans ht.1, (putRecord_marks ..).trans ht.2⟩

/-- A scrub pass leaves everything that runs alone. -/
theorem scrubPass_run (s : State) : SameRun (scrubPass s) s :=
  (recordLines_keeps _ _ _).1.trans ((findBad_run ..).trans (correctAll_run ..))

/-- The marks that a scrub pass leaves. -/
theorem scrubPass_marks (s : State) : (scrubPass s).marks =
    (findBad (correctAll s (fun m => m.struct == 0x18)) (fun m => m.struct == 0x18) false).marks := (recordLines_keeps _ _ _).2

/-- After the correction of LPDDR6 every word of it still marked is uncorrectable, and the read makes those poison. -/
theorem scrubPass_poisoned (s : State) : LinesPoisoned (scrubPass s).marks := by
  rw [scrubPass_marks, findBad_lines_marks]
  refine foldl_keep LinesPoisoned poisonLine (fun _ a => poisonLine_poisoned a) _ _ ?_
  intro m hm hs
  obtain ⟨k, hk, rfl⟩ := List.mem_map.1 hm
  by_cases hn : k ∈ newBad (correctAll s (fun m => m.struct == 0x18))
  · rw [poisoned_of_mem hn]
    exact ⟨(mem_newBad.1 hn).2.1, rfl⟩
  · rw [poisoned_of_not_mem hn] at hs ⊢
    have hb : k.bad = true := by simpa [hs] using ((mem_correctAll s _ k).1 hk).2
    exact ⟨hb, Decidable.byContradiction fun hy => hn (mem_newBad.2 ⟨hk, hb, hy, hs⟩)⟩

/-- A line in which a pass newly finds an uncorrectable word is marked whole. -/
theorem scrubPass_marked {s : State} {m : Mark} (hm : m ∈ s.marks) (hs : m.struct = 0x18) (hb : m.bad = true) (hy : m.synd ≠ 0x7F) :
    LineMarked (scrubPass s).marks m.unit := by
  rw [scrubPass_marks, findBad_lines_marks]
  exact poisonLines_marked (List.mem_map_of_mem (mem_newBad.2 ⟨(mem_correctAll s _ m).2 ⟨hm, .inl hb⟩, hb, hy, hs⟩)) _

/-- Marks of other structures stay. -/
theorem mem_scrubPass_off {m : Mark} (h : m.struct ≠ 0x18) (s : State) : m ∈ (scrubPass s).marks ↔ m ∈ s.marks := by
  have hc : m ∈ (correctAll s (fun m => m.struct == 0x18)).marks ↔ m ∈ s.marks := by simp [mem_correctAll, h]
  rw [scrubPass_marks, findBad_lines_marks, mem_poisonLines_off h, ← hc, List.mem_map]
  constructor
  · rintro ⟨k, hk, rfl⟩
    by_cases hn : k ∈ newBad (correctAll s (fun m => m.struct == 0x18))
    · rw [poisoned_of_mem hn] at h
      exact absurd (mem_newBad.1 hn).2.2.2 h
    · rwa [poisoned_of_not_mem hn]
  · exact fun hm => ⟨m, hm, poisoned_of_not_mem fun hn => h (mem_newBad.1 hn).2.2.2⟩

/-- Settles O36: the parts of a reference period, a placement decision and a scrub pass. -/
theorem clockAndScrubComplete : Obligations.ClockAndScrubComplete := by
  intro s
  have run := scrubPass_run s
  refine ⟨exec_yardCycle s, fun hq hy hs => ?_, fun hc => ⟨?_, fun hr => ?_⟩, fun n l r p hc hp => ?_,
    scrubPass s, exec_scrubPass s, scrubPass_poisoned s, fun m hm hs hb hy => scrubPass_marked hm hs hb hy,
    fun m hm => mem_scrubPass_off hm s, run.dev_eq, run.ctxs_eq⟩
  · rw [exec_yardCycle, referencePeriod_idle hq hy hs]
  · rw [exec_placementDecision, placementDecision_none hc]
  · rw [exec_placementDecision, placementDecision_none hc, startReplays_none hr]
  · rw [exec_placementDecision, placementDecision_first hc hp]

end Sys2Proof.Machine

/-!
The FP32 lane operations, the reductions and the scans: vector instructions that have no check but their operands' own.
-/

namespace Sys2Proof.Machine

/-- An instruction that has no check but its operands' own takes effect where they are usable (R26, R201, R384). -/
theorem exec_usable {i : Instr} {s : State} {p : BitVec 5} {dst src : List (BitVec 13)} {ks : List (BitVec 8)} {eff : State → State}
    (hp : predTrue (me s) p = true) (hu : Usable s dst src ks) (runs : exec i s = perform s (checkI s i) p eff)
    (checks : checkI s i = common s p dst src ks fine fine) : exec i s = .next (eff s) := by
  rw [runs, checks, perform_ok (common_ok hu rfl rfl) hp]

/-! ## FP32 lane operations -/

/-- Settles O18: each lane operation runs with its operands' checks alone, in every group of operands; VCLAMP's
bounds are the low 32 bits of its scalars, which the model truncates and the statement extracts. -/
theorem vectorFloatCompletes : Obligations.VectorFloatCompletes := by
  intro s p vd va vb vc sb slo shi hp
  simp only [← BitVec.setWidth_eq_extractLsb' (show 32 ≤ 64 by decide)]
  refine ⟨fun hu => ?twoRows, fun hu => ?threeRows, fun hu => ?oneRow, fun hu => ?twoRowsAndScalar⟩
  all_goals and_intros
  all_goals apply exec_usable hp hu <;> rfl

/-! ## Reductions and scans -/

/-- Settles O22: each reduction and scan runs with its operands' checks alone; a reduction's one result, zero-extended, is in lane 0. -/
theorem vectorReductionsComplete : Obligations.VectorReductionsComplete := by
  intro s p vd va hp hu
  refine ⟨?sumF, ?maxF, ?minF, ?sumI, ?maxSi, ?minSi, ?argMax, ?scanF, ?scanI⟩
  all_goals apply exec_usable hp hu <;> rfl

end Sys2Proof.Machine

/-!
The decoder and the encoder, a step and the operation it decodes, the scalar operations, and what the sequencer's events do.
-/

namespace Sys2Proof.Laws.Coding

/-- The fields that the encoder writes for an instruction, whichever it is, are read back as it. -/
theorem fields_read_back (i : Instr) : Statement i :=
  Instr.casesOn (motive := Statement) i
    nop bar rdv waitdImm waitdScalar fence semsig semsigScalar semwait yield svc trap halt probe discard exit add sub mul mulh mulhs div
    divs rem and or xor andn shl shr sar rotl min max mins maxs addsh clz popc sel addi mulImm andImm orImm xorImm shlImm shrImm sarImm
    rotlImm minImm maxImm minsImm maxsImm cmpeq cmpne cmplt cmplts cmple cmples cmpeqImm cmpneImm cmpltImm cmpltsImm cmpleImm cmplesImm li
    liLong pset pand por pxor pnot br brScalar bc call ret loopScalar loopNbound loopImm lexit lidx csrr csrw csrwImm nbnd nbndImm vadd
    vsub vmul vmin vmax vfma vfms vfnma vaddScalar vsubScalar vmulScalar vminScalar vmaxScalar vfmaScalar vfmsScalar vfnmaScalar vabs vneg
    vrcp vrsq vexp2 vlog2 vclamp vsel vcmpeqF vcmpeqI vcmpltF vcmpltSi vcmpltUi vcmpleF vcmpleSi vcmpleUi viaddB viaddH viaddW visubB
    visubH visubW vimulB vimulH vimulW vimacB vimacH vimacW vand vor vxor vpopc viaddBScalar viaddHScalar viaddWScalar visubBScalar
    visubHScalar visubWScalar vimulBScalar vimulHScalar vimulWScalar vimacBScalar vimacHScalar vimacWScalar vshlB vshlH vshlW vshrB vshrH
    vshrW vsarB vsarH vsarW vcvt vcvtK vpack vunpk vperm vshuf vbcastScalar vbcastElement vextrImm vextrScalar vinsImm vinsScalar vmov
    vrng vrngF tapp taps tapld taprd vredsumF vredsumI vredmaxF vredmaxSi vredminF vredminSi vargmax vscanF vscanI ksetImm ksetScalar kmov
    kmul kaddeImm kaddeScalar kmaxe kcvtBf16 kcvtE8m0 kbindTile kbindBank kunbindTile kunbindBank krdRow krdScalar kwrRow kwrScalar kgen
    mmaL6 mmaI8 mmaE4m3 mmaE5m2 mmaE4e5 mmaE5e4 mmaBf16 mmaFp16 mmazL6 mmazI8 mmazE4m3 mmazE5m2 mmazE4e5 mmazE5e4 mmazBf16 mmazFp16 mxhint
    cmode cloadRow cloadRound cswap cmacRow cmacRound cread creadK cclr cchk ld ldr ldkStream ldkRound ldsRound ldsStream popVector
    popScalar fill st str stkStream stkRound stsRound stsStream pushVector pushScalar spill movpRound movpScalar xfer redsVector
    redsScalar scfgTable scfgScalar sadv srst yardCycle rewindRestore segmentEntry yieldBundle deadlineExpiry checkRetest
    offdieLoadLanding offcoreAccessPerform pushAccepted tokenComplete probeAnswer rendezvousRelease barrierRelease redsApply mxwinWrite
    mxwinTakesEffect dxBackref dxCopy txTranspose hxSha256 qxConvert stationJobEnd arrayCold shadowFillAccept shadowFillEnd hangTimeout
    hostWrite hostRead queueResume queueEnd queueCancel placementDecision launchRunStart contextRelease launchCompletion swapOut
    swapOutSave dramMeterWindow auditVerdict scrubPass sieveAgeing linkCrcError repairRequest repairCopy yardLost thermalTrip yardActivate
    yardDeclareLost yardSelfTestDone degrArrayFailed degrMacroFailed degrClear rqCompact rqExpand rqMove rqMakeAbsent rqMakeResident
    rqJobEnd hostMemwr birsp regionWindowEnd hostSnoop gpfPhase1 hostHotReset hostLinkDown tableSweep linkRetrained tokenElementAccept
    commitElementDelivery ringRecordWrite freeFaultEntry firmwareRequestPost openQueues eventClear fbstatOverflowClear suspectClear
    regionEntryWrite svdataAccess measurementExtend hashRegistration clockFloorChange privCsrWrite eventTimer controlContextEntry quote
    certificate writeImageChunk commitImage advanceSecurityVersion readErrorLog readHangRecord readLostLineRing mailboxStandardCommand
    mailboxUnsupported moduleReset memoryTrained trainingFailure imageVerify bringupSelfTestDone tapldCopyComplete registrationEnd

end Sys2Proof.Laws.Coding

namespace Sys2Proof

/-! ## Decoding an encoding -/

/-- What the decoder reads from the fields of an encoding, before it checks them, is the encoded instruction. -/
theorem rawOf_encode {i : Instr} {e : Encoded} (h : encode i = some e) : rawOf e = some i := by
  have read := Laws.Coding.fields_read_back i
  rwa [Laws.Coding.Statement, h] at read

theorem SlotOp.wf_instr (o : SlotOp) : o.instr.wf = o.wf := by
  cases o with
  | ins i => rfl
  | wc x => cases x <;> rfl

theorem SlotOp.encode_instr (o : SlotOp) : encode o.instr = o.enc := by
  cases o with
  | ins i => rfl
  | wc x => cases x <;> rfl

/-- An encoded slot operation stands in a slot that its map names, a VA-only code in VA (R74, R109). -/
def Encoded.Fits (e : Encoded) (slot : Nat) : Prop :=
  (e.map = .s → slot = 0) ∧ (e.map = .v → slot = 1 ∨ slot = 2 ∧ vaOnlyCode (e.field.extractLsb' 57 7).toNat = false) ∧ (e.map = .m → slot = 3) ∧
    (e.map = .l → slot = 4) ∧ (e.map = .w → slot = 5) ∧ (e.map = .c → slot = 6) ∧ (e.map = .y → slot = 7)

/-- Only a vector code comes to VB, and none that is VA-only. -/
theorem Encoded.Fits.not_vaOnly {e : Encoded} {slot : Nat} (h : e.Fits slot) : ¬ (slot = 2 ∧ vaOnlyCode (e.field.extractLsb' 57 7).toNat = true) := by
  obtain ⟨hs, hv, hm, hl, hw, hc, hy⟩ := h
  rintro ⟨rfl, code⟩
  cases map : e.map with
  | v =>
    obtain h | ⟨-, free⟩ := hv map
    · cases h
    · rw [code] at free
      cases free
  | s => cases hs map
  | m => cases hm map
  | l => cases hl map
  | w => cases hw map
  | c => cases hc map
  | y => cases hy map

theorem map_ins_instr (r : Option Instr) : (r.map SlotOp.ins).map SlotOp.instr = r := by cases r <;> rfl

theorem map_wc_instr (r : Option XOp) : (r.map SlotOp.wc).map SlotOp.instr = r.map XOp.instr := by cases r <;> rfl

/-- A slot reads a field by the map of that slot. -/
theorem Encoded.Fits.rawField_instr {e : Encoded} {slot : Nat} (h : e.Fits slot) :
    (rawField slot e.field e.ext).map SlotOp.instr = rawOf e := by
  obtain ⟨hs, hv, hm, hl, hw, hc, hy⟩ := h
  unfold rawOf
  cases map : e.map with
  | s => cases hs map; exact map_ins_instr _
  | v => obtain rfl | ⟨rfl, -⟩ := hv map <;> exact map_ins_instr _
  | m => cases hm map; exact map_ins_instr _
  | l => cases hl map; exact map_ins_instr _
  | w => cases hw map; exact map_wc_instr _
  | c => cases hc map; exact map_wc_instr _
  | y => cases hy map; exact map_ins_instr _

/-- A field that holds a legal operation's own encoding passes every check of the decoder (R94, R100, R101). -/
theorem decodeField_ok {slot : Nat} {e : Encoded} {o : SlotOp} (va : ¬ (slot = 2 ∧ vaOnlyCode (e.field.extractLsb' 57 7).toNat = true))
    (raw : rawField slot e.field e.ext = some o) (legal : o.wf = true) (enc : o.enc = some e) : decodeField slot e.field e.ext = .ok o := by
  rw [decodeField, if_neg va, raw]
  simp [legal, enc]

/-- Settles O51: the fields read back as the instruction, and its own encoding passes the decoder's checks. -/
theorem encodeDecode : Obligations.EncodeDecode := by
  intro i e slot legal enc fits
  replace fits : e.Fits slot := fits
  obtain ⟨o, raw, rfl⟩ : ∃ o, rawField slot e.field e.ext = some o ∧ o.instr = i :=
    Option.map_eq_some_iff.1 (fits.rawField_instr.trans (rawOf_encode enc))
  exact ⟨o, decodeField_ok fits.not_vaOnly raw (o.wf_instr ▸ legal) (o.encode_instr ▸ enc), rfl⟩

end Sys2Proof

namespace Sys2Proof.Machine

/-! ## A step and what it decodes -/

/-- A decoded operation runs as the instruction it is. -/
theorem runOp_exec (o : SlotOp) (s : State) : runOp exec o s = exec o.instr s := by
  cases o with
  | ins i => rfl
  | wc x => cases x <;> rfl

/-- A step whose agenda begins with a slot to fetch. -/
theorem step_fetch {s : State} {c slot : Nat} {r : List Work} (h : s.agenda = .fetch c slot :: r) :
    step s = fetchSlot exec { s with agenda := r } c slot := by
  unfold step; rw [h]; rfl

theorem fetchSlot_ok {s : State} {c slot : Nat} {o : SlotOp} (h : slotInstr (bundleAt s c (ctxOf s c).pc) slot = .ok o) :
    fetchSlot exec s c slot = exec o.instr (enterSlot s c slot) := by
  unfold fetchSlot; rw [h]; exact runOp_exec o _

theorem fetchSlot_error {s : State} {c slot : Nat} {e : Reject} (h : slotInstr (bundleAt s c (ctxOf s c).pc) slot = .error e) :
    fetchSlot exec s c slot = .next (faultAt s c 1 0 slot) := by
  unfold fetchSlot; rw [h]

/-- Settles O53: a fetched slot runs what its field decodes to, and an empty agenda passes to the inbox. -/
theorem stepRunsDecoded : Obligations.StepRunsDecoded := by
  refine ⟨fun s c slot r h => ⟨fun o ho => ?_, fun e he => ?_, rfl, rfl, rfl, rfl, rfl, rfl, rfl, rfl⟩, fun s i r ha hi => ?_, fun s ha hi => ?_⟩
  · exact (step_fetch h).trans (fetchSlot_ok ho)
  · exact (step_fetch h).trans (fetchSlot_error he)
  · unfold step; rw [ha, hi]
  · unfold step; rw [ha, hi]

/-! ## Scalar results -/

theorem valMin_eq (a b : Word) : valMin a b = if a.toNat ≤ b.toNat then a else b := by
  unfold valMin
  rw [BitVec.ult]
  by_cases h : a.toNat ≤ b.toNat
  · rw [if_pos h, decide_eq_false (Nat.not_lt.2 h), if_neg Bool.false_ne_true]
  · rw [if_neg h, decide_eq_true (Nat.not_le.1 h), if_pos rfl]

/-- Where neither number is below the other they are one number. -/
theorem valMax_eq (a b : Word) : valMax a b = if a.toNat ≤ b.toNat then b else a := by
  unfold valMax
  rw [BitVec.ult]
  by_cases h : a.toNat < b.toNat
  · rw [decide_eq_true h, if_pos rfl, if_pos (Nat.le_of_lt h)]
  · rw [decide_eq_false h, if_neg Bool.false_ne_true]
    by_cases le : a.toNat ≤ b.toNat
    · rw [if_pos le, BitVec.eq_of_toNat_eq (Nat.le_antisymm le (Nat.not_lt.1 h))]
    · rw [if_neg le]

theorem valMins_eq (a b : Word) : valMins a b = if a.toInt ≤ b.toInt then a else b := by
  unfold valMins
  rw [BitVec.slt]
  by_cases h : a.toInt ≤ b.toInt
  · rw [if_pos h, decide_eq_false (Int.not_lt.2 h), if_neg Bool.false_ne_true]
  · rw [if_neg h, decide_eq_true (Int.not_le.1 h), if_pos rfl]

theorem valMaxs_eq (a b : Word) : valMaxs a b = if a.toInt ≤ b.toInt then b else a := by
  unfold valMaxs
  rw [BitVec.slt]
  by_cases h : a.toInt < b.toInt
  · rw [decide_eq_true h, if_pos rfl, if_pos (Int.le_of_lt h)]
  · rw [decide_eq_false h, if_neg Bool.false_ne_true]
    by_cases le : a.toInt ≤ b.toInt
    · rw [if_pos le, BitVec.eq_of_toInt_eq (Int.le_antisymm le (Int.not_lt.1 h))]
    · rw [if_neg le]

/-- A shift count of six bits. -/
theorem shiftCount_eq (b : Word) : (b.extractLsb' 0 6).toNat = b.toNat % 64 := by simp

/-- Settles O1: each code runs with its operands' checks alone; the shift counts, the minima and maxima and the immediates are brought to
the model's spelling first. -/
theorem scalarResultsWrite : Obligations.ScalarResultsWrite := by
  refine ⟨fun s p d a b sh hp => ?sums, fun s p d a b pc hp => ?logic, fun s p d a psel imm hp => ?immediates⟩
  all_goals simp only [shiftCount_eq, ← valMin_eq, ← valMax_eq, ← valMins_eq, ← valMaxs_eq, ← immOf_eq]
  all_goals and_intros
  all_goals apply exec_usable hp (usable_nil s) <;> rfl

/-! ## Segment entries -/

theorem auditEntry_ctxs (s : State) (c pc : Nat) : (auditEntry s c pc).ctxs = s.ctxs := by
  unfold auditEntry
  dsimp only
  repeat' split
  all_goals rfl

theorem ctxOf_auditEntry (s : State) (c pc d : Nat) : ctxOf (auditEntry s c pc) d = ctxOf s d := ctxOf_congr (auditEntry_ctxs s c pc) d

/-- A context whose segment commits: the next segment's number, an empty undo log, and no bank read yet (R284). -/
def segmentCommitted (x : Ctx) : Ctx :=
  { x with seg := x.seg + 1, undo := [], charge := 0, segRewound := false,
           macros := x.macros.map (fun m => (m.1, { m.2 with activeRead := false, shadowRead := false })) }

theorem ctxOf_commitSegment (s : State) (c d : Nat) :
    ctxOf (commitSegment s c) d = if d = c then segmentCommitted (ctxOf s c) else ctxOf s d := ctxOf_modCtx _ c _ d

/-- The state in which a segment entry takes its snapshot: audited, with the open segment, if there is one, committed (R284). -/
def segmentOpening (s : State) (c : Nat) : State :=
  let t := auditEntry s c (ctxOf s c).pc
  let t := if (ctxOf t c).snap.isSome then commitSegment t c else t
  { t with marks := t.marks.filter (fun m => !(m.struct == 5 && m.owner == c)) }

theorem enterSegment_eq (s : State) (c : Nat) :
    enterSegment s c = modCtx (segmentOpening s c) c (fun x => { x with snap := some (snapshotOf (segmentOpening s c) c x), segEntry := x.pc }) := rfl

theorem ctxOf_segmentOpening (s : State) (c d : Nat) :
    ctxOf (segmentOpening s c) d = if d = c ∧ (ctxOf s c).snap.isSome then segmentCommitted (ctxOf s c) else ctxOf s d := by
  show ctxOf (if (ctxOf (auditEntry s c (ctxOf s c).pc) c).snap.isSome then commitSegment (auditEntry s c (ctxOf s c).pc) c
    else auditEntry s c (ctxOf s c).pc) d = _
  rw [ctxOf_auditEntry]
  split
  · next opened => simp [ctxOf_commitSegment, ctxOf_auditEntry, opened]
  · next closed => simp [ctxOf_auditEntry, closed]

/-- The entering context: its segment committed where one was open, and the snapshot of what stands then. -/
theorem ctxOf_enterSegment_self {s : State} {c : Nat} {y : Ctx} (h : ctxOf (segmentOpening s c) c = y) :
    ctxOf (enterSegment s c) c = { y with snap := some (snapshotOf (segmentOpening s c) c y), segEntry := y.pc } := by
  rw [enterSegment_eq, ctxOf_modCtx_self, h]

theorem ctxOf_enterSegment_other (s : State) (c d : Nat) (hd : d ≠ c) : ctxOf (enterSegment s c) d = ctxOf s d := by
  rw [enterSegment_eq, ctxOf_modCtx_other _ c _ d hd, ctxOf_segmentOpening, if_neg (fun h => hd h.1)]

/-! ## Retests and late landings -/

/-- A context that is no replay has no FILL of a replay to complete (R391). -/
theorem replayFills_not_replaying {s : State} {c : Nat} (h : replaying s c = false) (late : Bool) : replayFills s c late = s := by
  have absent : replayOf s c = none := by simpa [replaying] using h
  unfold replayFills
  rw [absent]

/-- A running context whose bundle is due, and which the merge stage does not hold, comes to that bundle's check (R268). -/
theorem issueCtx_due {s : State} {c : Nat} (run : runnable (ctxOf s c) = true) (landed : (ctxOf s c).landedNow = true)
    (live : (ctxOf s c).status ≠ .exiting) (inside : (ctxOf s c).pc < (ctxOf s c).grant.codeLen) (due : isDue s c = true)
    (own : replaying s c = false) (free : slotOf c = 1 → (ctxOf s c).wait = .none ∨ merged s c 0 = false) : issueCtx s c = checkDue s c := by
  have unheld : ¬ ((decide (slotOf c = 1) && (ctxOf s c).wait != .none && merged s c 0) = true) := by
    simp only [Bool.and_eq_true, decide_eq_true_eq, bne_iff_ne]
    rintro ⟨⟨side, waits⟩, held⟩
    exact (free side).elim waits (ne_true_of_eq_false · held)
  unfold issueCtx
  rw [replayFills_not_replaying own]
  dsimp only
  rw [if_neg (by simp [run, landed]), if_neg unheld, if_neg (by simpa using live), if_neg (by omega), if_pos due]

section
variable {s : State} {c : Nat} (own : replaying s c = false)
include own

/-- A context that is no replay comes to no replay's end (R392). -/
theorem not_replayEnds : ¬ (replayEnds s c = true) := by simp [replayEnds, own]

theorem checkDue_issue {sl : List (Nat × SlotOp)} (h : judge s c = .issue sl) : checkDue s c = issueBundle s c sl := by
  unfold checkDue; rw [if_neg (not_replayEnds own), h]

theorem checkDue_fault {f : Hit} (h : judge s c = .fault f) : checkDue s c = deliverHit s c f := by
  unfold checkDue; rw [if_neg (not_replayEnds own), h]

theorem checkDue_wait {k : Nat} {w : Wait} (h : judge s c = .wait k w) : checkDue s c = keepWaiting (askProbe s c w) c w := by
  unfold checkDue; rw [if_neg (not_replayEnds own), h]

end

/-- Where a context's cycle begins, a result due that is not answered freezes it; else it lands its results and takes its skips, unless the
merge stage holds it (R82, R194, R268, R322). -/
theorem landCtx_begins {s : State} {c : Nat} (run : runnable (ctxOf s c) = true) (fresh : (ctxOf s c).landedNow = false)
    (unseen : (ctxOf s c).seenYard ≠ yardNow s c) (inTime : (ctxOf s c).expired = false ∨ (ctxOf s c).status ≠ .running)
    (own : replaying s c = false) :
    landCtx s c = (landingWait (ctxOf s c)).elim
      (if slotOf c = 1 ∧ merged (landAndSkip s c) c (rowsDue s c) = true then s
        else foreseeDx (acceptFills (countRows (makeUses (modCtx (landAndSkip s c) c (fun x => { x with ranAt := yardNow s c })) c) c (rowsDue s c)) c) c)
      (fun o => keepWaiting s c (.landing o.id)) := by
  have unexpired : ¬ (((ctxOf s c).expired && (ctxOf s c).status == .running) = true) := by
    simp only [Bool.and_eq_true, beq_iff_eq]
    exact fun ⟨late, running⟩ => inTime.elim (ne_true_of_eq_false · late) (· running)
  unfold landCtx
  rw [replayFills_not_replaying own]
  dsimp only
  rw [if_neg (by simp [run]), if_neg (by simp [fresh]), if_neg (by simpa using unseen), if_neg unexpired]
  cases landingWait (ctxOf s c) <;> rfl

/-! ## Releases -/

theorem dropCapture_sameRun (s : State) (c : Nat) : SameRun (dropCapture s c) s := by
  unfold dropCapture
  repeat' split
  all_goals exact .refl _

theorem ctxOf_releasePins (s : State) (c d : Nat) : ctxOf (releasePins s c) d = if d = c then { ctxOf s c with pins := [] } else ctxOf s d := by
  have kept : ∀ d, ctxOf ((ctxOf s c).pins.foldl (fun s p => setPins s p.1 p.2 (entPins (entryWord s p.1 p.2 0) - 1)) s) d = ctxOf s d := fun d =>
    foldl_keep (fun t => ctxOf t d = ctxOf s d) _ (fun _ _ ht => (ctxOf_setPins ..).trans ht) _ s rfl
  unfold releasePins
  rw [ctxOf_modCtx, kept, kept]

theorem launchAt_releasePins (s : State) (c n : Nat) : launchAt (releasePins s c) n = launchAt s n :=
  (launchAt_modCtx ..).trans <| foldl_keep (fun t => launchAt t n = launchAt s n) _ (fun _ _ ht => (launchAt_setPins ..).trans ht) _ s rfl

/-- The state in which a released context has ended, before its launch is looked at (R147). -/
def ctxEnded (s : State) (c : Nat) : State := modCtx (releasePins (dropCapture (outTrains s c) c) c) c (fun x => { x with status := .ended })

theorem ctxOf_ctxEnded (s : State) (c d : Nat) :
    ctxOf (ctxEnded s c) d = if d = c then { ctxOf s c with pins := [], status := .ended } else ctxOf s d := by
  have kept : ∀ d, ctxOf (dropCapture (outTrains s c) c) d = ctxOf s d := (dropCapture_sameRun _ c).ctxOf
  unfold ctxEnded
  rw [ctxOf_modCtx, ctxOf_releasePins, ctxOf_releasePins, kept, kept, if_pos rfl]
  split <;> rfl

theorem launchAt_ctxEnded (s : State) (c n : Nat) : launchAt (ctxEnded s c) n = launchAt s n :=
  (launchAt_releasePins _ c n).trans ((dropCapture_sameRun _ c).launchAt n)

/-- Whether every context of a launch has ended in it (R318). -/
def allEnded (s : State) (n : Nat) : Bool := (launchCtxs (launchAt s n)).all (fun d => (ctxOf s d).launch == n && (ctxOf s d).status == .ended)

theorem releaseCtx_eq {s : State} {c : Nat} (own : replaying s c = false) :
    let n := (ctxOf s c).launch
    releaseCtx s c = if (launchAt s n).state = .running ∧ allEnded (ctxEnded s c) n = true then
        modLaunch (ctxEnded s c) n (fun l =>
          { l with state := .ending, status := 0, maxCycle := (launchCtxs l).foldl (fun m d => max m (ctxOf (ctxEnded s c) d).ccycle) l.maxCycle })
      else ctxEnded s c := by
  intro n
  unfold releaseCtx
  rw [own, ← launchAt_ctxEnded s c n]
  rfl

/-- A released context has ended and holds no pins. -/
theorem ctxOf_releaseCtx {s : State} {c : Nat} (own : replaying s c = false) :
    ctxOf (releaseCtx s c) c = { ctxOf s c with pins := [], status := .ended } := by
  rw [releaseCtx_eq own]
  split
  · rw [ctxOf_modLaunch, ctxOf_ctxEnded, if_pos rfl]
  · rw [ctxOf_ctxEnded, if_pos rfl]

/-- The release of the last context of a running launch to end (R318). -/
theorem launchAt_releaseCtx_last {s : State} {c : Nat} (own : replaying s c = false) (run : (launchAt s (ctxOf s c).launch).state = .running)
    (last : ∀ d ∈ launchCtxs (launchAt s (ctxOf s c).launch), d ≠ c → (ctxOf s d).launch = (ctxOf s c).launch ∧ (ctxOf s d).status = .ended) :
    let l := launchAt (releaseCtx s c) (ctxOf s c).launch
    l.state = .ending ∧ l.status = 0 := by
  have all : allEnded (ctxEnded s c) (ctxOf s c).launch = true := by
    unfold allEnded
    rw [launchAt_ctxEnded, List.all_eq_true]
    intro d hd
    rw [ctxOf_ctxEnded]
    by_cases hc : d = c
    · simp [hc]
    · simp [hc, last d hd hc]
  rw [releaseCtx_eq own, if_pos ⟨run, all⟩, launchAt_modLaunch, if_pos rfl]
  exact ⟨rfl, rfl⟩

/-- Settles O34: the snapshot of a segment entry, the check of a due bundle, the landings of a cycle, and a release. -/
theorem sequencerEventsComplete : Obligations.SequencerEventsComplete := by
  intro s c id x
  refine ⟨?entry, fun run landed live inside due own free => ?retest, fun due run fresh unseen inTime own => ?landing, fun left after dry own => ?release⟩
  case entry =>
    have opening := ctxOf_segmentOpening s c c
    by_cases closed : x.snap = none
    · have entered := ctxOf_enterSegment_self (opening.trans (if_neg fun h => Option.isSome_iff_ne_none.1 h.2 closed))
      exact ⟨_, _, rfl, by rw [entered], rfl, rfl, rfl, rfl, rfl, rfl, rfl, rfl, rfl, rfl, rfl, rfl, rfl, rfl, fun _ => entered,
        fun h => absurd closed h, ctxOf_enterSegment_other s c⟩
    · have entered := ctxOf_enterSegment_self (opening.trans (if_pos ⟨rfl, Option.isSome_iff_ne_none.2 closed⟩))
      exact ⟨_, _, rfl, by rw [entered], rfl, rfl, rfl, rfl, rfl, rfl, rfl, rfl, rfl, rfl, rfl, rfl, rfl, rfl, fun h => absurd h closed,
        fun _ => by rw [entered]; rfl, ctxOf_enterSegment_other s c⟩
  case retest =>
    have check : exec (.checkRetest c) s = .next (checkDue s c) := congrArg _ (issueCtx_due run landed live inside due own free)
    exact ⟨fun sl h => check.trans (congrArg _ (checkDue_issue own h)), fun f h => check.trans (congrArg _ (checkDue_fault own h)),
      fun k w h => check.trans (congrArg _ (checkDue_wait own h))⟩
  case landing =>
    have land : exec (.offdieLoadLanding c id) s = .next (landCtx s c) := congrArg _ (if_pos (Bool.and_eq_true_iff.2 ⟨due, by rw [fresh]; rfl⟩))
    have begins := land.trans (congrArg _ (landCtx_begins run fresh unseen inTime own))
    refine ⟨fun answered free => begins.trans ?_, fun o late => begins.trans ?_⟩
    · rw [answered]
      exact congrArg _ (if_neg fun ⟨side, held⟩ => ne_true_of_eq_false (free side) held)
    · rw [late]
      rfl
  case release =>
    have release : exec (.contextRelease c) s = .next (releaseCtx s c) := congrArg _ (if_pos ⟨left, after, dry⟩)
    exact ⟨_, release, by rw [ctxOf_releaseCtx own], by rw [ctxOf_releaseCtx own], launchAt_releaseCtx_last own⟩

end Sys2Proof.Machine

/-!
Predicate operations and constants, integer vectors, the words of the worked examples, moves to stations, and queued transfers.
-/

namespace Sys2Proof.Machine

/-! ## Predicates and constants -/

/-- Settles O5: each code runs with no check but its operands' own; an immediate is brought to the model's spelling first. -/
theorem predicateOperationsWrite : Obligations.PredicateOperationsWrite := by
  intro s p pd pa pb inva invb d a psel imm long hp
  simp only [← immOf_eq, ne_eq, decide_not]
  refine ⟨?pset, ?pand, ?por, ?pxor, ?pnot, ?li, ?liLong⟩
  all_goals apply exec_usable hp (usable_nil s) <;> rfl

/-! ## Integer vectors -/

/-- Settles O20: each operation runs with its operands' checks alone, in every group of operands. -/
theorem vectorIntegersComplete : Obligations.VectorIntegersComplete := by
  intro s p vd va vb vc sb amt hp
  refine ⟨fun hu => ?twoRows, fun hu => ?threeRows, fun hu => ?oneRow, fun hu => ?twoRowsAndScalar⟩
  all_goals and_intros
  all_goals apply exec_usable hp hu <;> rfl

/-! ## The words of the worked examples -/

/-- Settles O52: the decoder is run on each word. -/
theorem decodeWords : Obligations.DecodeWords := by
  unfold Obligations.DecodeWords
  and_intros
  all_goals rfl

/-! ## Issue and the scoreboard -/

/-- An instruction whose check passes takes effect where its predicate is true. -/
theorem exec_checked {i : Instr} {s : State} {p : BitVec 5} {ck : Check} {eff : State → State} (hp : predTrue (me s) p = true)
    (check : ck = .ok) (runs : exec i s = perform s ck p eff) : exec i s = .next (eff s) := by
  rw [runs, perform_ok check hp]

/-- The wait for scoreboard entries is over where so many are free (R274). -/
theorem boardFound_fine {s : State} {n : Nat} (h : boardUsed s s.cur.ctx + n ≤ 48) : boardFound s n = fine :=
  waitIf_no (decide_eq_false (Nat.not_lt.2 h)) _ _

/-! ## Moves to station ports -/

theorem triggerBoard_fine {s : State} {leaves : Bool} (h : boardUsed s s.cur.ctx + (if leaves then 1 else 0) ≤ 48) :
    triggerBoard s leaves = fine := boardFound_fine h

/-- A move that triggers no DX job enters no access; one that triggers a job enters it under the context's next number, performed at once
where nothing more is known of its source (R140, R254, log 35). -/
theorem enterTrigger_eq (s : State) (dx leaves : Bool) (opc : Nat) :
    let t := enqueue s .station (.dx none) .none opc false
    enterTrigger s dx leaves opc = (if dx then some (me s).opId else none,
      if dx = false then s else if leaves then t
      else modMe t (fun x =>
        { x with ops := x.ops.map (fun o => if o.id = (me s).opId then { o with performed := true, landed := false } else o) })) := by
  cases dx <;> cases leaves <;> rfl

theorem xferOwn_true {s : State} {frm dest : BitVec 4} (hf : frm.toNat ≠ 10 - portPos s.cur.ctx) (hd : dest.toNat ≠ 10 - portPos s.cur.ctx) :
    xferOwn s frm dest = true := by
  simp [xferOwn, hf, hd]

/-- An end of an XFER: 512 bytes of a bay, or a row of the grant, or a port of a station (R114, R202). -/
def EndLegal (s : State) (pos : BitVec 4) (addr : BitVec 12) : Prop :=
  (pos.toNat % 2 = 0 → addr.toNat ≤ 4088) ∧ (pos.toNat = portPos s.cur.ctx → addr.toNat < 64 * (me s).grant.tiles)

theorem EndLegal.bayOk {s : State} {pos : BitVec 4} {addr : BitVec 12} (h : EndLegal s pos addr) : xferBayOk pos addr = true := by
  unfold xferBayOk
  rcases Nat.mod_two_eq_zero_or_one pos.toNat with even | odd
  · simp [h.1 even]
  · simp [odd]

theorem xferRows_true {s : State} {frm dest : BitVec 4} {fa ta : BitVec 12} (hf : EndLegal s frm fa) (ht : EndLegal s dest ta) :
    xferRows s frm dest fa ta = true := by
  simp only [xferRows, Bool.and_eq_true, Bool.or_eq_true, bne_iff_ne, decide_eq_true_eq]
  exact ⟨Decidable.not_or_of_imp hf.2, Decidable.not_or_of_imp ht.2⟩

theorem xferFound_fine {s : State} {frm dest lane : BitVec 4} {fa ta : BitVec 12} (hf : EndLegal s frm fa) (ht : EndLegal s dest ta)
    (locks : Unlocked (me s) (if frm.toNat = portPos s.cur.ctx then [fa.toNat / 64] else [])
      (if dest.toNat = portPos s.cur.ctx then [ta.toNat / 64] else []))
    (sound : frm.toNat = portPos s.cur.ctx → SoundRows s [fa.toNat]) (free : RoundFree s (xferTraffic frm dest lane fa ta)) :
    xferFound s frm dest lane fa ta = fine := by
  have poison : (if frm.toNat = portPos s.cur.ctx then poisonRows s [fa.toNat] else fine) = fine :=
    ite_eq_right_iff.2 fun own => poisonRows_fine (sound own)
  simp [xferFound, hf.bayOk, ht.bayOk, locks_fine locks, poison, trafficFound_fine free]

/-- Settles O28: each move's checks are its traffic's and its trigger's, an XFER's also its ends'; the trigger is entered first (log 35). -/
theorem movesToStationsAndXferComplete : Obligations.MovesToStationsAndXferComplete := by
  intro s p a bay off fromaddr toaddr lane frm dest port hp
  refine ⟨fun board free => ?fromRound, fun board free => ?fromScalar, fun board ownF ownD ends locks sound free => ?xfer⟩
  case fromRound =>
    have check : checkX s (.movpRound p bay off lane port) = .ok :=
      common_ok (usable_nil s) rfl (by rw [trafficFound_fine free, triggerBoard_fine board, both_fine])
    change execMovpRound p bay off lane port s = _
    rw [execMovpRound, perform_ok check hp, enterTrigger_eq]
    rfl
  case fromScalar =>
    have check : checkX s (.movpScalar p a port lane) = .ok :=
      common_ok (usable_nil s) rfl (by rw [trafficFound_fine free, triggerBoard_fine board, both_fine])
    change execMovpScalar p a port lane s = _
    rw [execMovpScalar, perform_ok check hp, enterTrigger_eq]
    rfl
  case xfer =>
    have endF : EndLegal s frm fromaddr := ends (frm, fromaddr) List.mem_cons_self
    have endD : EndLegal s dest toaddr := ends (dest, toaddr) (List.mem_cons_of_mem _ List.mem_cons_self)
    have check : checkX s (.xfer p frm dest lane fromaddr toaddr) = .ok :=
      common_ok (usable_nil s) (by rw [xferOwn_true ownF ownD, xferRows_true endF endD, illegalUnless_true, need_true, both_fine])
        (by rw [xferFound_fine endF endD locks sound free, triggerBoard_fine board, both_fine])
    change execXfer p frm dest lane fromaddr toaddr s = _
    rw [execXfer, perform_ok check hp, enterTrigger_eq]
    rfl

/-! ## FIFOs -/

/-- A legal fill request passes its checks (R279). -/
theorem fillReqFound_fine {s : State} {v : Row} (h : FillRequest s v) : fillReqFound s v = fine := by
  obtain ⟨granted, weights, nonempty, room, fmt, planes, aligned, t, named, device, inside⟩ := h
  simp only [fillReqFound, named]
  simp [granted, weights, nonempty, room, fmt, planes, aligned, device, inside]

/-- A PUSH to a FIFO of its context that is not bound to the shadow-fill endpoint (R199). -/
theorem pushFound_fine {s : State} {q : BitVec 5} {b : List Nat} (bound : pushKind (myLaunch s) (me s).k q.toNat = some b)
    (room : boardUsed s s.cur.ctx < 48) (plain : b.getD 0 0 ≠ 2) (v : Option Row) : pushFound s q v = fine := by
  have plain : nth b 0 0 ≠ 2 := plain
  simp only [pushFound, bound, boardFound_fine (n := 1) room, if_neg plain, both_fine]

/-- A PUSH to the shadow-fill endpoint (R199, R279). -/
theorem pushFound_fill_fine {s : State} {q : BitVec 5} {b : List Nat} (bound : pushKind (myLaunch s) (me s).k q.toNat = some b)
    (room : boardUsed s s.cur.ctx < 48) (fill : b.getD 0 0 = 2) {v : Row} (request : FillRequest s v) : pushFound s q (some v) = fine := by
  have fill : nth b 0 0 = 2 := fill
  simp only [pushFound, bound, boardFound_fine (n := 1) room, if_pos fill, fillReqFound_fine request, both_fine]

theorem pushQueue_push {s : State} {q : BitVec 5} {b : List Nat} (bound : pushKind (myLaunch s) (me s).k q.toNat = some b)
    (plain : b.getD 0 0 ≠ 2) (v : Row) (opc : Nat) : pushQueue s q v opc = enqueue s (.fifo q.toNat) (.push v) .none opc false := by
  have plain : (nth b 0 0 == 2) = false := beq_false_of_ne plain
  simp only [pushQueue, bound, plain, Bool.false_eq_true, if_false]

theorem pushQueue_fill {s : State} {q : BitVec 5} {b : List Nat} (bound : pushKind (myLaunch s) (me s).k q.toNat = some b)
    (fill : b.getD 0 0 = 2) (v : Row) (opc : Nat) : pushQueue s q v opc = enqueue s (.fifo q.toNat) (.fillReq v) .none opc false := by
  have fill : (nth b 0 0 == 2) = true := beq_iff_eq.2 fill
  simp only [pushQueue, bound, fill, if_true]

theorem popFound_fine {s : State} {q : BitVec 5} (bound : (popKind (myLaunch s) (me s).k q.toNat).isSome = true)
    (room : boardUsed s s.cur.ctx < 48) : popFound s q = fine := by
  rw [popFound, bound, boardFound_fine (n := 1) room, need_true, both_fine]

/-- The scalar form of POP from a FIFO that is no commit FIFO (R363). -/
theorem popScalarFound_fine {s : State} {q : BitVec 5} (bound : (popKind (myLaunch s) (me s).k q.toNat).isSome = true)
    (room : boardUsed s s.cur.ctx < 48) (data : commitFifo s q = false) : allOf [popFound s q, need (!commitFifo s q) 2] = fine := by
  rw [popFound_fine bound room, data]; rfl

/-! ## Tile transfers -/

/-- What R201 and R238 ask of the tensor and the token of a SPILL or FILL. -/
structure TileTransfer (s : State) (tok : BitVec 6) (w : WReg) (t : Tensor) : Prop where
  legal : descBad (myLaunch s) w = false
  named : tensorOf (myLaunch s) (sTensor w) = some t
  beyond : t.kind ≠ 0
  aligned : ∀ o ∈ spillOffs w, o * containerBits t.fmt % 8 = 0
  fresh : ∀ o ∈ (me s).ops, o.performed = false →
    match o.kind with | .spill k _ _ _ _ => k ≠ tok.toNat | .fill k _ _ _ => k ≠ tok.toNat | _ => True

/-- No access that is not performed has the token (R201). -/
theorem TileTransfer.token_fresh {s : State} {tok : BitVec 6} {w : WReg} {t : Tensor} (h : TileTransfer s tok w t) :
    (me s).ops.any (fun o => !o.performed &&
      (match o.kind with | .spill k _ _ _ _ => k == tok.toNat | .fill k _ _ _ => k == tok.toNat | _ => false)) = false := by
  rw [List.any_eq_false]
  intro o ho
  cases performed : o.performed with
  | true => simp
  | false =>
    have other := h.fresh o ho performed
    cases kind : o.kind <;> rw [kind] at other <;> simp_all

theorem spillFound_fine {s : State} {tok : BitVec 6} {tile wn : BitVec 5} {store : Bool} {t : Tensor}
    (h : TileTransfer s tok (wreg (me s) wn.toNat) t) (room : boardUsed s s.cur.ctx < 48)
    (unlocked : Unlocked (me s) (if store then [tile.toNat] else []) (if store then [] else [tile.toNat]))
    (writable : store = true → namesFramed (myLaunch s) (wreg (me s) wn.toNat) = false)
    (sound : store = true → SoundRows s ((List.range 64).map (64 * tile.toNat + ·))) : spillFound s tok tile wn store = fine := by
  have aligned : (spillOffs (wreg (me s) wn.toNat)).all (fun o => o * containerBits t.fmt % 8 == 0) = true := by
    rw [List.all_eq_true]
    exact fun o ho => beq_iff_eq.2 (h.aligned o ho)
  have target : (!store || !namesFramed (myLaunch s) (wreg (me s) wn.toNat)) = true := by cases store <;> simp_all
  have poison : (if store then poisonRows s ((List.range 64).map (64 * tile.toNat + ·)) else fine) = fine :=
    ite_eq_right_iff.2 fun spills => poisonRows_fine (sound spills)
  simp only [spillFound, h.legal, h.named, Bool.false_eq_true, if_false]
  refine allOf_fine ?_
  simp only [List.forall_mem_cons]
  exact ⟨need_ok (congrArg (!·) h.token_fresh) 2, need_ok (bne_iff_ne.2 h.beyond) 2, need_ok target 2, need_ok aligned 2,
    locks_fine unlocked, boardFound_fine (n := 1) room, poison, List.forall_mem_nil _⟩

theorem tile_granted {s : State} {tile wn : BitVec 5} (hw : wn.toNat < (me s).grant.streams) (ht : tile.toNat < (me s).grant.tiles) :
    allOf [need (wOk (me s) wn) 2, need (decide (tile.toNat < (me s).grant.tiles)) 2] = fine := by
  rw [stream_granted hw, decide_eq_true ht]; rfl

theorem queueOf_eq {s : State} {tid : Nat} {t : Tensor} (h : tensorOf (myLaunch s) tid = some t) : queueOf s tid = kindQueue t := by
  rw [queueOf, h]

/-! ## REDS -/

/-- R210's checks of a target word. -/
theorem redsFound_fine {s : State} {t : Word} {vec : Bool} (stable : fld t 24 8 < stableCount (myLaunch s))
    (aligned : fld t 0 18 % (if vec then 64 else 4) = 0)
    (inside : inExtent (myLaunch s) (fld t 18 3) (fld t 0 18 : Nat) (if vec then 512 else 4) = true) : redsFound s t vec = fine := by
  simp [redsFound, stable, aligned, inside]

theorem redsSem_fine {s : State} {sem : BitVec 6} (h : bit (myLaunch s).semmask sem.toNat = true) : redsSem s sem = fine := need_ok h 2

/-- Settles O31: each transfer's checks are its operands', its FIFO's, its tensor's or its target's; the queue it enters is the one they name. -/
theorem queuedTransfersComplete : Obligations.QueuedTransfersComplete := by
  refine ⟨fun s p vd vs sd a q delay b hp room => ⟨fun bound plain => ⟨fun hu => ?pushRow, ?pushScalar⟩,
      fun bound fill request hu => ?pushFill, fun bound => ⟨fun hu => ?popRow, fun data => ?popScalar⟩⟩,
    fun s p tok tile wn t hp hw ht legal named beyond room aligned fresh => ⟨fun free => ?fill, fun free writable sound => ?spill⟩,
    fun s p vs a t op ty sem hp stable granted => ⟨fun aligned inside hu => ?redsRow, fun aligned inside => ?redsScalar⟩⟩
  case pushRow =>
    rw [← pushQueue_push bound plain]
    apply exec_checked hp (common_ok hu rfl (pushFound_fine bound room plain (some (readVec (me s) vs))))
    rfl
  case pushScalar =>
    rw [← pushQueue_push bound plain]
    apply exec_checked hp (common_nil rfl (pushFound_fine bound room plain none))
    rfl
  case pushFill =>
    rw [← pushQueue_fill bound fill]
    apply exec_checked hp (common_ok hu rfl (pushFound_fill_fine bound room fill request))
    rfl
  case popRow =>
    apply exec_checked hp (common_ok hu rfl (popFound_fine bound room))
    rfl
  case popScalar =>
    apply exec_checked hp (common_nil rfl (popScalarFound_fine bound room data))
    rfl
  case fill =>
    have transfer : TileTransfer s tok (wreg (me s) wn.toNat) t := ⟨legal, named, beyond, aligned, fresh⟩
    rw [← queueOf_eq named]
    apply exec_checked hp (common_nil (tile_granted hw ht) (spillFound_fine (store := false) transfer room free Bool.noConfusion Bool.noConfusion))
    rfl
  case spill =>
    have transfer : TileTransfer s tok (wreg (me s) wn.toNat) t := ⟨legal, named, beyond, aligned, fresh⟩
    rw [← queueOf_eq named]
    apply exec_checked hp (common_nil (tile_granted hw ht) (spillFound_fine (store := true) transfer room free (fun _ => writable) (fun _ => sound)))
    rfl
  case redsRow =>
    apply exec_checked hp (common_ok hu (redsSem_fine granted) (redsFound_fine (vec := true) stable aligned inside))
    rfl
  case redsScalar =>
    apply exec_checked hp (common_nil (redsSem_fine granted) (redsFound_fine (vec := false) stable aligned inside))
    rfl

end Sys2Proof.Machine

/-!
Bit counts, divisions, compares, loop bounds, control transfers and loops, semaphores, groups, system operations, probes and discards; the
entry and return of service contexts; and off-core accesses when they perform.
-/

namespace Sys2Proof.Machine

/-! ## Bit counts -/

/-- The scan from position `k` down finds the leading one of a number with `n` leading zeros, and ends at 64 where no one is left (R119). -/
theorem clzFrom_eq {a : Word} {n : Nat} (hn : n ≤ 64) (below : a.toNat < 2 ^ (64 - n)) (top : n < 64 → 2 ^ (63 - n) ≤ a.toNat) :
    ∀ k, 64 - n ≤ k → clzFrom a k = n
  | 0, hk => show 64 = n by omega
  | k + 1, hk => by
    unfold clzFrom bit
    by_cases leading : k + 1 = 64 - n
    · have one : a.getLsbD k = true :=
        Nat.testBit_of_two_pow_le_and_two_pow_add_one_gt ((show k = 63 - n by omega) ▸ top (by omega)) (leading ▸ below)
      rw [one, if_pos rfl]
      omega
    · have zero : a.getLsbD k = false :=
        Nat.testBit_lt_two_pow (Nat.lt_of_lt_of_le below (Nat.pow_le_pow_right (by decide) (by omega)))
      rw [zero, if_neg Bool.false_ne_true]
      exact clzFrom_eq hn below top k (by omega)

/-- The ones below position `k` are counted one by one. -/
theorem countOnes_eq (x : Word) : ∀ k, countOnes x.toNat k = ((List.range k).filter (fun i => x.getLsbD i)).length
  | 0 => rfl
  | k + 1 => by
    rw [countOnes, countOnes_eq x k, List.range_succ, List.filter_append, List.length_append, Nat.add_comm]
    cases h : x.getLsbD k <;> simp [h, BitVec.testBit_toNat]

/-- Settles O3: the scan for the leading one, and the count of the ones. -/
theorem bitCountsWrite : Obligations.BitCountsWrite := by
  intro s p d a n hp
  refine ⟨fun hn below top => ?clz, ?popc⟩
  case clz =>
    rw [← clzFrom_eq hn below top 64 (by omega)]
    apply exec_usable hp (usable_nil s) <;> rfl
  case popc =>
    rw [← countOnes_eq]
    apply exec_usable hp (usable_nil s) <;> rfl

/-! ## Division -/

theorem valDiv_eq (a b : Word) : valDiv a b = if b = 0 then BitVec.allOnes 64 else BitVec.ofNat 64 (a.toNat / b.toNat) := rfl

/-- The one quotient that overflows, -2^63 by -1, wraps to -2^63 (R120). -/
theorem valDivs_eq (a b : Word) : valDivs a b = if b = 0 then BitVec.allOnes 64
    else if a = BitVec.intMin 64 ∧ b = BitVec.allOnes 64 then BitVec.intMin 64 else BitVec.ofInt 64 (a.toInt.tdiv b.toInt) := by
  unfold valDivs divS
  by_cases overflow : a = BitVec.intMin 64 ∧ b = BitVec.allOnes 64
  · obtain ⟨rfl, rfl⟩ := overflow
    decide
  · rw [if_neg overflow]

theorem valRem_eq (a b : Word) : valRem a b = if b = 0 then a else BitVec.ofNat 64 (a.toNat - b.toNat * (a.toNat / b.toNat)) := by
  unfold valRem remU
  rw [Nat.mod_eq_sub_mul_div]

/-- Settles O2: each code runs with no check but its operands' own. -/
theorem scalarDivisionWrites : Obligations.ScalarDivisionWrites := by
  intro s p d a b hp
  dsimp only
  simp only [← valDiv_eq, ← valDivs_eq, ← valRem_eq]
  refine ⟨?div, ?divs, ?rem⟩
  all_goals apply exec_usable hp (usable_nil s) <;> rfl

/-! ## Compares -/

theorem compare_eq (a b : Word) : compare 0 a b = decide (a = b) := Bool.beq_eq_decide_eq a b
theorem compare_ne (a b : Word) : compare 1 a b = decide (a ≠ b) := by
  rw [decide_not]
  exact congrArg (!·) (Bool.beq_eq_decide_eq a b)
theorem compare_lt (a b : Word) : compare 2 a b = decide (a.toNat < b.toNat) := rfl
theorem compare_lts (a b : Word) : compare 3 a b = decide (a.toInt < b.toInt) := rfl
theorem compare_le (a b : Word) : compare 4 a b = decide (a.toNat ≤ b.toNat) := by simp [compare, BitVec.ult, ← decide_not]
/-- Every condition code from 5 up compares as code 5. -/
theorem compare_les (n : Nat) (a b : Word) : compare (n + 5) a b = decide (a.toInt ≤ b.toInt) := by simp [compare, BitVec.slt, ← decide_not]

/-- Settles O4: each code runs with no check but its operands' own; conditions and immediates are brought to the model's spelling first. -/
theorem comparisonsWritePredicate : Obligations.ComparisonsWritePredicate := by
  intro s p pd a b psel imm hp
  dsimp only
  simp only [← compare_eq, ← compare_ne, ← compare_lt, ← compare_lts, ← compare_le, ← compare_les 0, ← immOf_eq]
  and_intros
  all_goals apply exec_usable hp (usable_nil s) <;> rfl

/-! ## Loop indices and bounds -/

/-- The index that LIDX reads: 0 where the stack is not so deep (R132). -/
theorem loopIndex_eq (l : List LoopEntry) (i : Nat) :
    ((nth l i ⟨0, 0, 0, 0⟩).index).setWidth 64 = match l[i]? with | some e => e.index.setWidth 64 | none => (0 : Word) := by
  unfold nth
  rw [List.getD_eq_getElem?_getD]
  cases l[i]? <;> rfl

theorem exec_nbnd {s : State} {p : BitVec 5} (n : BitVec 4) (a : BitVec 6) (hp : predTrue (me s) p = true) :
    exec (.nbnd p n a) s = .next (emit s 1 (.nreg n.toNat ((sreg (me s) a.toNat).extractLsb' 0 32))) := by
  rw [← BitVec.setWidth_eq_extractLsb' (show 32 ≤ 64 by decide)]
  apply exec_usable hp (usable_nil s) <;> rfl

theorem exec_nbndImm {s : State} {p : BitVec 5} (n : BitVec 4) (imm : BitVec 32) (hp : predTrue (me s) p = true) :
    exec (.nbndImm p n imm) s = .next (emit s 1 (.nreg n.toNat imm)) := by
  apply exec_usable hp (usable_nil s) <;> rfl

/-- Settles O6: each code runs with no check but its operands' own. -/
theorem loopIndexAndBoundWrites : Obligations.LoopIndexAndBoundWrites := by
  intro s p d a idx n imm hp
  refine ⟨?_, exec_nbnd n a hp, exec_nbndImm n imm hp⟩
  have lidx : exec (.lidx p d idx) s = .next (emitS s 1 d (((nth (me s).loops idx.toNat ⟨0, 0, 0, 0⟩).index).setWidth 64)) := by
    apply exec_usable hp (usable_nil s) <;> rfl
  exact lidx.trans (congrArg (fun v => Host.Outcome.next (emitS s 1 d v)) (loopIndex_eq ..))

theorem landEff_nreg {s : State} {c : Nat} {f : Flight} {n : Nat} {v : BitVec 32} (h : f.eff = .nreg n v) :
    landEff s c f = modCtx s c (fun x => { x with nregs := mput x.nregs n v }) := by unfold landEff; rw [h]

theorem nreg_landEff {s : State} {c n : Nat} {f : Flight} {v : BitVec 32} (h : f.eff = .nreg n v) (d m : Nat) :
    nreg (ctxOf (landEff s c f) d) m = if d = c ∧ m = n then v else nreg (ctxOf s d) m := by
  rw [landEff_nreg h, ctxOf_modCtx]
  by_cases own : d = c
  · subst own
    simp [nreg]
  · simp [own]

/-! ## Transfers and loops -/

/-- Findings with no wait, each of them fault 0x02. -/
def OnlyBounds (f : Found) : Prop := (∀ g ∈ f.1, g = (2, 0)) ∧ f.2 = []

theorem onlyBounds_need (b : Bool) : OnlyBounds (need b 2) := by cases b <;> simp [OnlyBounds, need]

theorem OnlyBounds.both {f g : Found} (hf : OnlyBounds f) (hg : OnlyBounds g) : OnlyBounds (both f g) := by
  obtain ⟨f2, fw⟩ := hf
  obtain ⟨g2, gw⟩ := hg
  exact ⟨fun a ha => (List.mem_append.1 ha).elim (f2 a) (g2 a), by rw [Machine.both, fw, gw]; rfl⟩

theorem onlyBounds_allOf {l : List Found} (h : ∀ f ∈ l, OnlyBounds f) : OnlyBounds (allOf l) := by
  induction l with
  | nil => simp [OnlyBounds, fine]
  | cons f r ih =>
    rw [List.forall_mem_cons] at h
    exact h.1.both (ih h.2)

/-- An operation with a true predicate whose own checks find a fault 0x02 and nothing else raises it at its bundle and slot. -/
theorem exec_bounds {i : Instr} {s : State} {p : BitVec 5} {rest : Found} {eff : State → State} (hp : predTrue (me s) p = true)
    (only : OnlyBounds rest) (found : rest ≠ fine) (runs : exec i s = perform s (checkI s i) p eff)
    (checks : checkI s i = common s p [] [] [] fine rest) : exec i s = .next (raiseHere s 2 0) := by
  obtain ⟨bounds, unwaiting⟩ := only
  obtain ⟨g, hg⟩ := List.exists_mem_of_ne_nil rest.1 (fun none => found (Prod.ext none unwaiting))
  have settled : settle (me s) rest = .fault 2 0 :=
    settle_fault (bounds g hg ▸ hg) (fun g hg => by simp [bounds g hg]) (fun g hg => by simp [bounds g hg]) (by decide)
  rw [runs, checks, common_nil_eq, hp, if_pos rfl, both_fine, settled]
  rfl

theorem need_false_ne (code : Nat) : need false code ≠ fine := by simp [need, fine]

theorem targetOk_fine {s : State} {t : Nat} (h : t < (me s).grant.codeLen) : targetOk s t = fine := need_ok (decide_eq_true h) 2

theorem onlyBounds_targetOk (s : State) (t : Nat) : OnlyBounds (targetOk s t) := onlyBounds_need _

theorem targetOk_ne {s : State} {t : Nat} (h : (me s).grant.codeLen ≤ t) : targetOk s t ≠ fine := by
  rw [targetOk, decide_eq_false (Nat.not_lt.2 h)]
  exact need_false_ne 2

theorem checkI_bc_taken {s : State} (p : BitVec 5) {a b : BitVec 6} {cond : BitVec 3} (target : BitVec 12)
    (taken : compare cond.toNat (sreg (me s) a.toNat) (sreg (me s) b.toNat) = true) :
    checkI s (.bc p a b cond target) = common s p [] [] [] fine (targetOk s target.toNat) :=
  congrArg (common s p [] [] [] fine) (if_pos taken)

theorem exec_bc_eq (s : State) (p : BitVec 5) (a b : BitVec 6) (cond : BitVec 3) (target : BitVec 12) :
    exec (.bc p a b cond target) s = perform s (checkI s (.bc p a b cond target)) p (fun s =>
      if compare cond.toNat (sreg (me s) a.toNat) (sreg (me s) b.toNat) then goTo s target.toNat else s) := rfl

section
variable {s : State} {p : BitVec 5} {a b : BitVec 6} {cond : BitVec 3} {target : BitVec 12} (hp : predTrue (me s) p = true)
include hp

theorem exec_bc_beyond (taken : compare cond.toNat (sreg (me s) a.toNat) (sreg (me s) b.toNat) = true)
    (beyond : (me s).grant.codeLen ≤ target.toNat) : exec (.bc p a b cond target) s = .next (raiseHere s 2 0) :=
  exec_bounds hp (onlyBounds_targetOk s _) (targetOk_ne beyond) (exec_bc_eq ..) (checkI_bc_taken p target taken)

theorem exec_bc_taken (taken : compare cond.toNat (sreg (me s) a.toNat) (sreg (me s) b.toNat) = true)
    (inside : target.toNat < (me s).grant.codeLen) : exec (.bc p a b cond target) s = .next (goTo s target.toNat) := by
  rw [exec_bc_eq, perform_ok ((checkI_bc_taken p target taken).trans (common_nil rfl (targetOk_fine inside))) hp, if_pos taken]

theorem exec_bc_falls (falls : ¬ compare cond.toNat (sreg (me s) a.toNat) (sreg (me s) b.toNat) = true) :
    exec (.bc p a b cond target) s = .next s := by
  have check : checkI s (.bc p a b cond target) = .ok := common_nil rfl (if_neg falls)
  rw [exec_bc_eq, perform_ok check hp, if_neg falls]

end

/-- What R129 asks of a LOOP: room for its entry where it pushes one, and its end in the code extent and in the body it stands in. -/
def LoopFits (s : State) (len : Nat) (trip : BitVec 32) : Prop :=
  (trip = 0 ∨ (me s).loops.length < (me s).grant.loops) ∧ s.cur.pc + 1 + len ≤ (me s).grant.codeLen ∧
    ∀ e ∈ (me s).loops.head?, e.start ≤ s.cur.pc → s.cur.pc < e.start + e.len → s.cur.pc + 1 + len ≤ e.start + e.len

theorem both_eq_fine {a b : Found} : both a b = fine ↔ a = fine ∧ b = fine := by
  simp only [both, fine, Prod.ext_iff, List.append_eq_nil_iff]
  exact and_and_and_comm

theorem need_eq_fine {b : Bool} {code : Nat} : need b code = fine ↔ b = true := by cases b <;> simp [need, fine]

theorem loopFound_eq_fine {s : State} {len : Nat} {trip : BitVec 32} : loopFound s len trip = fine ↔ LoopFits s len trip := by
  unfold loopFound LoopFits
  dsimp only
  cases (me s).loops with
  | nil => simp [both_eq_fine, need_eq_fine, or_comm]
  | cons e r =>
    simp only [allOf_cons, allOf_nil, both_eq_fine, need_eq_fine, Bool.or_eq_true, Bool.not_eq_true', Bool.and_eq_false_iff, decide_eq_true_eq,
      decide_eq_false_iff_not, beq_iff_eq, List.head?_cons, Option.mem_def, Option.some.injEq, forall_eq', or_comm (a := trip = 0), and_true]
    refine and_congr_right fun _ => and_congr_right fun _ => ?_
    omega

theorem onlyBounds_loopFound (s : State) (len : Nat) (trip : BitVec 32) : OnlyBounds (loopFound s len trip) := by
  refine onlyBounds_allOf ?_
  simp only [List.forall_mem_cons]
  exact ⟨onlyBounds_need _, onlyBounds_need _, onlyBounds_need _, List.forall_mem_nil _⟩

/-- A LEXIT with no entry on the stack faults (R131). -/
theorem exec_lexit_empty {s : State} {p : BitVec 5} (hp : predTrue (me s) p = true) (stack : (me s).loops = []) :
    exec (.lexit p) s = .next (raiseHere s 2 0) := by
  have checks : checkI s (.lexit p) = common s p [] [] [] fine (need false 2) := by unfold checkI; rw [stack]
  exact exec_bounds hp (onlyBounds_need false) (need_false_ne 2) rfl checks

theorem checkI_lexit {s : State} {p : BitVec 5} {e : LoopEntry} {r : List LoopEntry} (stack : (me s).loops = e :: r) :
    checkI s (.lexit p) = common s p [] [] [] fine (targetOk s (e.start + e.len)) := by
  unfold checkI; rw [stack]

/-- Settles O11: each transfer's and each LOOP's own checks find fault 0x02 or nothing. -/
theorem transfersBeyondCodeFault : Obligations.TransfersBeyondCodeFault := by
  intro s p d a b cond target len count n hp past x
  have unfit : ∀ trip, past trip → loopFound s len.toNat trip ≠ fine := by
    intro trip exceeds found
    obtain ⟨room, code, body⟩ := loopFound_eq_fine.1 found
    rcases exceeds with ⟨pushes, deep⟩ | beyond | ⟨e, he, starts, ends, outside⟩
    · exact Nat.not_le.2 (room.resolve_left pushes) deep
    · exact Nat.not_le.2 beyond code
    · exact Nat.not_le.2 outside (body e he starts ends)
  refine ⟨fun beyond => ⟨?br, ?call, fun taken => ?bc⟩, fun beyond => ⟨?brScalar, ?ret⟩, fun exceeds => ?loopImm,
    fun exceeds => ?loopScalar, fun exceeds => ?loopNbound, ?lexit⟩
  case br | call | brScalar | ret => apply exec_bounds hp (onlyBounds_targetOk s _) (targetOk_ne beyond) <;> rfl
  case bc => exact exec_bc_beyond hp taken beyond
  case loopImm | loopScalar | loopNbound => apply exec_bounds hp (onlyBounds_loopFound s _ _) (unfit _ exceeds) <;> rfl
  case lexit =>
    rintro (stack | ⟨e, top, beyond⟩)
    · exact exec_lexit_empty hp stack
    · obtain ⟨r, stack⟩ := List.head?_eq_some_iff.1 top
      exact exec_bounds hp (onlyBounds_targetOk s _) (targetOk_ne beyond) rfl (checkI_lexit stack)

theorem exec_loopNbound {s : State} {p : BitVec 5} {n : BitVec 4} {len : BitVec 12} (hp : predTrue (me s) p = true)
    (check : checkI s (.loopNbound p n len) = .ok) : exec (.loopNbound p n len) s = .next (pushLoop s len.toNat (nreg (me s) n.toNat)) := by
  apply exec_checked hp check
  rfl

theorem pushLoop_zero (s : State) (len : Nat) :
    pushLoop s len 0 = { s with cur := { s.cur with next := some (s.cur.pc + 1 + len, s.cur.cycle + 1) } } := rfl

/-- A LOOP with a trip count pushes its entry (R128). -/
theorem loops_pushLoop {s : State} {len : Nat} {trip : BitVec 32} (h : trip ≠ 0) :
    (me (pushLoop s len trip)).loops = { index := 0, trip := trip, start := s.cur.pc + 1, len := len } :: (me s).loops := by
  have pushed : (me (pushLoop s len trip)).loops =
      (me (modMe s (fun c => { c with loops := { index := 0, trip := trip, start := s.cur.pc + 1, len := len } :: c.loops }))).loops := by
    unfold pushLoop
    rw [if_neg h]
    rfl
  rw [pushed, me_modMe]

/-- Settles O55: NBND's write and its landing, and the LOOP that reads the register. -/
theorem loopBoundsWriteAndRead : Obligations.LoopBoundsWriteAndRead := by
  refine ⟨fun s p a n imm hp => ⟨exec_nbnd n a hp, exec_nbndImm n imm hp⟩, fun s c n f v h => nreg_landEff h, fun s p n len check hp => ?_⟩
  exact ⟨_, exec_loopNbound hp check, fun none => by rw [none, pushLoop_zero]; rfl, loops_pushLoop⟩

/-- A LOOP that fits passes its checks. -/
theorem loop_check {s : State} {p : BitVec 5} {len : Nat} {trip : BitVec 32} (fits : LoopFits s len trip) :
    common s p [] [] [] fine (loopFound s len trip) = .ok := common_nil rfl (loopFound_eq_fine.2 fits)

/-- Settles O10: each LOOP pushes as the model's one push does, and LEXIT leaves by the top entry. -/
theorem loopsPushAndLeave : Obligations.LoopsPushAndLeave := by
  intro s p a n count len hp
  refine ⟨fun fits => ?scalar, fun fits => ?nbound, fun fits => ?imm, fun e r stack inside => ?lexit⟩
  case scalar | nbound | imm =>
    apply exec_checked hp (loop_check fits)
    rfl
  case lexit =>
    have check : checkI s (.lexit p) = .ok := (checkI_lexit stack).trans (common_nil rfl (targetOk_fine inside))
    have leaves : exitLoop s = goTo (modMe s (fun c => { c with loops := r })) (e.start + e.len) := by
      unfold exitLoop
      rw [stack]
    rw [exec_checked hp check rfl, leaves]
    rfl

/-- R122's comparison under a condition code. -/
def CondHolds (cond : Nat) (x y : Word) : Prop :=
  match cond with
  | 0 => x = y | 1 => x ≠ y | 2 => x.toNat < y.toNat | 3 => x.toInt < y.toInt | 4 => x.toNat ≤ y.toNat | _ => x.toInt ≤ y.toInt

theorem condHolds_iff (cond : Nat) (x y : Word) : CondHolds cond x y ↔ compare cond x y = true := by
  match cond with
  | 0 => simp [CondHolds, compare_eq]
  | 1 => simp [CondHolds, compare_ne]
  | 2 => simp [CondHolds, compare_lt]
  | 3 => simp [CondHolds, compare_lts]
  | 4 => simp [CondHolds, compare_le]
  | n + 5 => simp [CondHolds, compare_les]

/-- Settles O9: a target below the code length passes the check, and each code goes there. -/
theorem transfersSetNextBundle : Obligations.TransfersSetNextBundle := by
  intro s p d a b cond target hp x y far holds
  have compared : holds ↔ compare cond.toNat x y = true := condHolds_iff cond.toNat x y
  refine ⟨fun inside => ⟨?br, ?call, fun taken => ?taken⟩, fun falls => ?falls, fun inside => ⟨?brScalar, ?ret⟩⟩
  case br | call | brScalar | ret =>
    apply exec_checked hp (common_nil rfl (targetOk_fine inside))
    rfl
  case taken => exact exec_bc_taken hp (compared.1 taken) inside
  case falls => exact exec_bc_falls hp (mt compared.2 falls)

/-! ## Semaphores -/

theorem perform_fault {s : State} {ck : Check} {p : BitVec 5} {eff : State → State} {code info : Nat} (h : ck = .fault code info) :
    perform s ck p eff = .next (raiseHere s code info) := by subst h; rfl

theorem perform_wait {s : State} {ck : Check} {p : BitVec 5} {eff : State → State} {w : Wait} (h : ck = .wait w) :
    perform s ck p eff = .next (freezeHere s w) := by subst h; rfl

/-- An operation with a true predicate and no vector or scale operand settles what its own checks find. -/
theorem common_nil_true {s : State} {p : BitVec 5} (hp : predTrue (me s) p = true) {always : Found} (ha : always = fine) (rest : Found) :
    common s p [] [] [] always rest = settle (me s) rest := by
  rw [common_nil_eq, hp, if_pos rfl, ha, both_fine]

/-- One delay-count wait and nothing else: outside trap mode it freezes (R268, R274). -/
theorem settle_wait {c : Ctx} (w : Wait) (n : Nat) (h : dctrap c = false) : settle c ([], [(w, n)]) = .wait w := by
  simp [settle, h, outcome, lowest]

/-- In trap mode a delay-count wait is fault 0x07 with the operation it waits for (R274, R275). -/
theorem settle_trap {c : Ctx} {w : Wait} (n : Nat) (h : dctrap c = true) (board : isBoard w = true) : settle c ([], [(w, n)]) = .fault 7 n := by
  simp [settle, h, board, outcome, lowest]

/-- A wait that is no delay-count check freezes in either mode (R274). -/
theorem settle_unboarded {c : Ctx} {w : Wait} (n : Nat) (board : isBoard w = false) : settle c ([], [(w, n)]) = .wait w := by
  cases h : dctrap c
  · exact settle_wait w n h
  · simp [settle, h, board, outcome, lowest]

theorem exec_semwait_eq (s : State) (p : BitVec 3) (c sem : BitVec 6) :
    exec (.semwait p c sem) s = perform s (checkI s (.semwait p c sem)) (0#2 ++ p) (fun s => takeSem s sem.toNat (c.toNat + 1)) := rfl

section
variable {s : State} {p : BitVec 3} {c sem : BitVec 6} (hp : predTrue (me s) (0#2 ++ p) = true) (granted : bit (me s).grant.sems sem.toNat = true)
include hp granted

theorem checkI_semwait : checkI s (.semwait p c sem) = settle (me s) (semwaitFound s sem.toNat (c.toNat + 1)) :=
  common_nil_true hp (need_ok granted 2) _

/-- A semaphore with the count, and room for the charge: SEMWAIT takes it (R142, R286). -/
theorem exec_semwait_takes (count : c.toNat + 1 ≤ (semVal s sem.toNat).toNat)
    (room : (me s).grant.segbudget = 0 ∨ openCharge s + 8 ≤ (me s).grant.segbudget) :
    exec (.semwait p c sem) s = .next (takeSem s sem.toNat (c.toNat + 1)) := by
  have found : semwaitFound s sem.toNat (c.toNat + 1) = fine := by
    have short : decide ((semVal s sem.toNat).toNat < c.toNat + 1) = false := decide_eq_false (by omega)
    simp only [semwaitFound, short, waitIf_false, both_fine, need_eq_fine]
    simpa using room
  rw [exec_semwait_eq, perform_ok (by rw [checkI_semwait hp granted, found, settle_fine]) hp]

end

/-- A semaphore without the count: SEMWAIT waits, whatever its undo charge (R142, R274). -/
theorem semwaitFound_short {s : State} {n count : Nat} (short : (semVal s n).toNat < count) :
    semwaitFound s n count = ([], [(.sem n, hereSrc s)]) := by
  simp [semwaitFound, short, waitIf]

theorem stableAt_takeSem (s : State) (n count k : Nat) : stableAt (takeSem s n count) k =
    if k = stableOf s.cur.ctx then { stableAt s k with sems := mset (stableAt s k).sems n (semVal s n - BitVec.ofNat 32 count) 0 }
    else stableAt s k := by
  unfold takeSem
  rw [stableAt_modMe, stableAt_modStable]
  split
  · next own => rw [own]
  · rfl

theorem semVal_takeSem (s : State) (n count : Nat) :
    mget (stableAt (takeSem s n count) (stableOf s.cur.ctx)).sems n 0 = semVal s n - BitVec.ofNat 32 count := by
  rw [stableAt_takeSem, if_pos rfl, mget_mset_same]

theorem semVal_takeSem_other (s : State) (n count : Nat) {k m : Nat} (h : k ≠ stableOf s.cur.ctx ∨ m ≠ n) :
    mget (stableAt (takeSem s n count) k).sems m 0 = mget (stableAt s k).sems m 0 := by
  rw [stableAt_takeSem]
  split
  · next own => exact mget_mset_other _ _ _ _ _ (h.resolve_left (· own))
  · rfl

/-- The context of a SEMWAIT that succeeds: its undo log and charge alone change (R285). -/
theorem me_takeSem (s : State) (n count : Nat) : me (takeSem s n count) =
    if (me s).grant.segbudget = 0 then me s else { me s with undo := (me s).undo ++ [.taken n count], charge := (me s).charge + 8 } := by
  unfold takeSem
  rw [me_modMe, me_modStable]

theorem ctxOf_takeSem_other (s : State) (n count : Nat) : ∀ k, k ≠ s.cur.ctx → ctxOf (takeSem s n count) k = ctxOf s k :=
  fun k hk => ctxOf_modCtx_other _ _ _ k hk

/-- Settles O13: the semaphore is taken, and the undo charge alone changes with it. -/
theorem semwaitTakesTheCount : Obligations.SemwaitTakesTheCount := by
  intro s p c sem hp granted count room
  refine ⟨_, exec_semwait_takes hp granted count room, semVal_takeSem s _ _, fun n m h => semVal_takeSem_other s _ _ h, ?charge, ?sregs, ?pregs,
    ?vrows, ?kregs, ?flight, ctxOf_takeSem_other s _ _, rfl, rfl, rfl⟩
  all_goals rw [me_takeSem]; split <;> rfl

/-- Settles O14: the one wait found freezes the context, or in trap mode is its fault. -/
theorem semwaitShortWaitsOrFaults : Obligations.SemwaitShortWaitsOrFaults := by
  intro s p c sem hp granted short
  have check := checkI_semwait (c := c) hp granted
  rw [semwaitFound_short short] at check
  refine ⟨fun waits => ?_, fun traps => ?_⟩
  · rw [exec_semwait_eq, perform_wait (check.trans (settle_wait _ _ waits))]
  · rw [exec_semwait_eq, perform_fault (check.trans (settle_trap _ traps rfl))]

/-! ## Groups -/

/-- A group declared for the launch, which the context belongs to (R136). -/
theorem groupFound_fine {s : State} {g a b : Nat} (declared : groupOf (myLaunch s) g = some (a, b)) (first : a ≤ (me s).k) (last : (me s).k ≤ b) :
    groupFound s g = fine := by
  unfold groupFound
  rw [declared]
  exact need_ok (by simp [first, last]) 2

theorem rdvFound_fine {s : State} {g : Nat} (group : groupFound s g = fine)
    (near : ∀ m ∈ membersOf (myLaunch s) g, yardOf m = yardOf s.cur.ctx)
    (here : ∀ m ∈ membersOf (myLaunch s) g, m ≠ s.cur.ctx → arrived s m g (ordinal (me s) g) = true) : rdvFound s g = fine := by
  have yard : (membersOf (myLaunch s) g).all (fun m => yardOf m == yardOf s.cur.ctx) = true := by simpa using near
  have all : (membersOf (myLaunch s) g).all (fun m => m == s.cur.ctx || arrived s m g (ordinal (me s) g)) = true := by
    rw [List.all_eq_true]
    intro m hm
    by_cases own : m = s.cur.ctx
    · simp [own]
    · simp [here m hm own]
  simp only [rdvFound, group, yard, all]
  simp

theorem barFound_fine {s : State} {g : Nat} (group : groupFound s g = fine) (opened : ordinal (me s) g < mget (me s).barOpen g 0) :
    barFound s g = fine := by
  simp [barFound, group, opened]

/-- Settles O15: each operation's own checks find nothing, and its ordinal is used. -/
theorem groupOperationsComplete : Obligations.GroupOperationsComplete := by
  intro s p group a b hp declared first last g used
  have legal := groupFound_fine declared first last
  refine ⟨fun near here => ?rdv, fun opened => ?bar⟩
  case rdv =>
    apply exec_checked hp (common_nil rfl (rdvFound_fine legal near here))
    rfl
  case bar =>
    apply exec_checked hp (common_nil rfl (barFound_fine legal opened))
    rfl

/-! ## System operations -/

/-- Settles O16: each operation leaves what follows its bundle's commit; YIELD's one check is its bundle's mark. -/
theorem systemOperationsTakeEffectAtCommit : Obligations.SystemOperationsTakeEffectAtCommit := by
  intro s p code hp later
  refine ⟨?svc, ?trap, ?halt, ?exit, fun mark => ?yield⟩
  case svc | trap | halt | exit => apply exec_usable hp (usable_nil s) <;> rfl
  case yield =>
    have legal : illegalUnless s.cur.yieldMark = fine := by rw [mark]; rfl
    apply exec_checked hp (common_nil legal rfl)
    rfl

/-! ## Probes and discards -/

section
variable {s : State} {p : BitVec 3} {a b : BitVec 6}

theorem exec_probe_eq : exec (.probe p b a) s = perform s (checkI s (.probe p b a)) (0#2 ++ p) (fun s =>
    pinProbed s (fld (sreg (me s) a.toNat) 48 16) (fld (sreg (me s) a.toNat) 0 48) (fld (sreg (me s) b.toNat) 0 48)) := rfl

theorem exec_discard_eq : exec (.discard p b a) s = perform s (checkI s (.discard p b a)) (0#2 ++ p) (fun s =>
    if fld (sreg (me s) b.toNat) 0 48 = 0 then s
    else enqueue s (queueOf s (fld (sreg (me s) a.toNat) 48 16))
      (.discard (fld (sreg (me s) a.toNat) 48 16) (fld (sreg (me s) a.toNat) 0 48) (fld (sreg (me s) b.toNat) 0 48)) .none 0xE false) := rfl

end

theorem rangeFound_empty {s : State} {x y : Word} (empty : fld y 0 48 = 0) : rangeFound s x y = fine := if_pos empty

/-- A range inside the tiles of a device or host tensor (R148, R149). -/
theorem rangeFound_fine {s : State} {x y : Word} {t : Tensor} (named : tensorOf (myLaunch s) (fld x 48 16) = some t) (beyond : t.kind ≠ 0)
    (inside : (fld x 0 48 + fld y 0 48 - 1) / 65536 < t.tiles) : rangeFound s x y = fine := by
  have legal : (t.kind != 0 && decide ((fld x 0 48 + fld y 0 48 - 1) / 65536 < t.tiles)) = true := by simp [beyond, inside]
  simp [rangeFound, named, legal]

/-- A PROBE whose answer has come, or of an empty range, asks for nothing more. -/
theorem probeFound_answered {s : State} {x y : Word} (range : rangeFound s x y = fine) (answered : (me s).probeOk = true ∨ fld y 0 48 = 0) :
    probeFound s x y = fine := by
  have closed : (!(me s).probeOk && fld y 0 48 != 0) = false := by rcases answered with h | h <;> simp [h]
  simp only [probeFound, range, closed]
  simp

/-- The tile-translation cache answers a PROBE where it holds each of its tiles, resident or dead, and nothing of the queue changes them
first (R247, log 44). -/
theorem probeCached_iff {s : State} {x y : Word} {t : Tensor} (named : tensorOf (myLaunch s) (fld x 48 16) = some t) :
    probeCached s x y = true ↔ (∀ o ∈ (me s).ops, o.performed = false → o.q = kindQueue t → changesTiles o.kind = false) ∧
      ∀ i ∈ tilesIn (fld x 0 48) (fld y 0 48) false,
        cached s s.cur.ctx (fld x 48 16) i = true ∧ (tileState s t i = 1 ∨ tileState s t i = 2) := by
  simp only [probeCached, named, Option.any_some, Bool.and_eq_true, List.all_eq_true, Bool.or_eq_true, beq_iff_eq, bne_iff_ne, Bool.not_eq_true']
  refine and_congr (forall₂_congr fun o _ => ?_) Iff.rfl
  cases o.performed <;> simp [Decidable.imp_iff_not_or]

theorem probeFound_cached {s : State} {x y : Word} {t : Tensor} (range : rangeFound s x y = fine)
    (named : tensorOf (myLaunch s) (fld x 48 16) = some t) (hit : probeCached s x y = true)
    (pins : (pinTiles s s.cur.ctx t.table (tilesIn (fld x 0 48) (fld y 0 48) false)).isSome = true) : probeFound s x y = fine := by
  simp [probeFound, range, named, hit, pins]

theorem probeFound_missed {s : State} {x y : Word} (range : rangeFound s x y = fine) (unanswered : (me s).probeOk = false)
    (nonempty : fld y 0 48 ≠ 0) (miss : probeCached s x y = false) :
    probeFound s x y = ([], [(.probe (fld x 48 16) (fld x 0 48) (fld y 0 48), 0)]) := by
  simp [probeFound, range, unanswered, nonempty, miss, waitIf, both, fine]

section
variable {s : State} {p : BitVec 3} {a b : BitVec 6} (hp : predTrue (me s) (0#2 ++ p) = true)
  (range : rangeFound s (sreg (me s) a.toNat) (sreg (me s) b.toNat) = fine)
include hp range

theorem exec_probe_answered (answered : (me s).probeOk = true ∨ fld (sreg (me s) b.toNat) 0 48 = 0) :
    exec (.probe p b a) s = .next (modMe s (fun c => { c with probeOk := false })) := by
  have check : checkI s (.probe p b a) = .ok := common_nil rfl (probeFound_answered range answered)
  rw [exec_probe_eq, perform_ok check hp, pinProbed, if_pos answered]

theorem exec_probe_missed (unanswered : (me s).probeOk = false) (nonempty : fld (sreg (me s) b.toNat) 0 48 ≠ 0)
    (miss : probeCached s (sreg (me s) a.toNat) (sreg (me s) b.toNat) = false) : exec (.probe p b a) s =
      .next (freezeHere s (.probe (fld (sreg (me s) a.toNat) 48 16) (fld (sreg (me s) a.toNat) 0 48) (fld (sreg (me s) b.toNat) 0 48))) := by
  have check : checkI s (.probe p b a) = settle (me s) (probeFound s (sreg (me s) a.toNat) (sreg (me s) b.toNat)) := common_nil_true hp rfl _
  rw [exec_probe_eq, perform_wait (check.trans ((congrArg _ (probeFound_missed range unanswered nonempty miss)).trans (settle_unboarded _ rfl)))]

theorem exec_discard_empty (empty : fld (sreg (me s) b.toNat) 0 48 = 0) : exec (.discard p b a) s = .next s := by
  have check : checkI s (.discard p b a) = .ok := common_nil rfl range
  rw [exec_discard_eq, perform_ok check hp, if_pos empty]

section
variable {t : Tensor} (named : tensorOf (myLaunch s) (fld (sreg (me s) a.toNat) 48 16) = some t) (nonempty : fld (sreg (me s) b.toNat) 0 48 ≠ 0)
include named nonempty

/-- A PROBE that the cache answers pins its tiles and uses them in the cache (R247, R339, log 44). -/
theorem exec_probe_cached (unanswered : (me s).probeOk = false) (hit : probeCached s (sreg (me s) a.toNat) (sreg (me s) b.toNat) = true) {u : State}
    (pinned : pinTiles s s.cur.ctx t.table (tilesIn (fld (sreg (me s) a.toNat) 0 48) (fld (sreg (me s) b.toNat) 0 48) false) = some u) :
    exec (.probe p b a) s =
      .next (cacheRanges u s.cur.ctx [(t, fld (sreg (me s) a.toNat) 0 48, fld (sreg (me s) b.toNat) 0 48)]) := by
  have check : checkI s (.probe p b a) = .ok := common_nil rfl (probeFound_cached range named hit (Option.isSome_of_eq_some pinned))
  have asks : ¬ ((me s).probeOk = true ∨ fld (sreg (me s) b.toNat) 0 48 = 0) := by simp [unanswered, nonempty]
  rw [exec_probe_eq, perform_ok check hp, pinProbed, if_neg asks, named, Option.elim_some, pinned]

theorem exec_discard_enters : exec (.discard p b a) s = .next (enqueue s (kindQueue t)
    (.discard (fld (sreg (me s) a.toNat) 48 16) (fld (sreg (me s) a.toNat) 0 48) (fld (sreg (me s) b.toNat) 0 48)) .none 0xE false) := by
  have check : checkI s (.discard p b a) = .ok := common_nil rfl range
  rw [exec_discard_eq, perform_ok check hp, if_neg nonempty, queueOf_eq named]

end
end

/-- Settles O17: a PROBE finds nothing where it is answered, by its answer or by the cache, and else waits; a DISCARD's one check is its range. -/
theorem probeAndDiscardComplete : Obligations.ProbeAndDiscardComplete := by
  intro s p a b hp x len
  refine ⟨fun empty => ?empty, fun t named beyond nonempty inside => ?range⟩
  case empty =>
    have range := rangeFound_empty (s := s) (x := x) empty
    exact ⟨exec_probe_answered hp range (.inr empty), exec_discard_empty hp range empty⟩
  case range =>
    have range := rangeFound_fine named beyond inside
    have cache := probeCached_iff named (y := sreg (me s) b.toNat)
    exact ⟨fun answered => exec_probe_answered hp range (.inl answered),
      ⟨fun unanswered hit u pinned => exec_probe_cached hp range named nonempty unanswered (cache.2 hit) pinned,
        fun unanswered miss => exec_probe_missed hp range unanswered nonempty (Bool.eq_false_iff.2 (mt cache.1 miss))⟩,
      exec_discard_enters hp range named nonempty⟩

/-! ## Service contexts -/

/-- The service context as an entry for the context at `c` starts it: bundle 0 of the service store, no loops, its own scalars, predicates and
bounds, and what it still had in flight (R328, R412, log 28, log 40). -/
def serviceEntry (s : State) (c : Nat) : Ctx :=
  let x := ctxOf s (c + 1)
  { ctxInit with
    status := .running, launch := (ctxOf s c).launch, k := (ctxOf s c).k,
    grant := { ctxInit.grant with loops := 2, codeLen := 1024 }, seenYard := yardNow s c,
    flight := x.flight.map (fun f => { f with due := f.due - x.ccycle }), ord := x.ord,
    sregs := x.sregs, pregs := x.pregs, nregs := x.nregs, base := 1, raised := x.raised }

section
variable (s : State) (c cause code request : Nat)

theorem ctxOf_enterService_service : ctxOf (enterService s c cause code request) (c + 1) = serviceEntry s c := by
  unfold enterService serviceEntry
  rw [ctxOf_modCtx_self]
  simp

theorem ctxOf_enterService_served : ctxOf (enterService s c cause code request) c = { ctxOf s c with inSvc := true, seenYard := yardNow s c } := by
  unfold enterService
  rw [ctxOf_modCtx_other _ _ _ c (by omega), ctxOf_modStall, ctxOf_modCtx_self]

theorem ctxOf_enterService_other : ∀ d, d ≠ c → d ≠ c + 1 → ctxOf (enterService s c cause code request) d = ctxOf s d := by
  intro d hc hs
  unfold enterService
  rw [ctxOf_modCtx_other _ _ _ d hs, ctxOf_modStall, ctxOf_modCtx_other _ _ _ d hc]

theorem svcause_enterService : mget (stallAt (enterService s c cause code request) (stallOf c)).svcause (slotOf c) 0 =
    cause + code % 4096 * 256 + request % 256 * 2 ^ 20 := by
  unfold enterService
  simp

end

/-- The cause of the service entry that a return ends (R412). -/
def svCause (s : State) (c : Nat) : Nat := mget (stallAt s (stallOf c)).svcause (slotOf c) 0 % 256

/-- A served context freed in a Yard cycle: after a tap trap its crossings are clear (R183, R328). -/
def freed (cause yard : Nat) (x : Ctx) : Ctx :=
  { x with
    inSvc := false, seenYard := yard, tapstat := if cause = 0x20 then 0 else x.tapstat,
    taps := if cause = 0x20 then x.taps.map (fun e => (e.1, { e.2 with cross := 0, stamp := 0 })) else x.taps }

/-- A served context freed, and let run on where its handler mends what it was held for, or where it was halted (R331, R146, log 56). -/
def freedOn (cause yard : Nat) (x : Ctx) : Ctx :=
  match x.status with
  | .held 0x09 | .held 0x10 | .halted => unhold (freed cause yard x)
  | _ => freed cause yard x

/-- Beside what frees it, only the status of a freed context changes. -/
theorem freedOn_frame (cause yard : Nat) (x : Ctx) : freedOn cause yard x = { freed cause yard x with status := (freedOn cause yard x).status } := by
  unfold freedOn
  split <;> rfl

theorem freedOn_running {cause yard : Nat} {x : Ctx} (h : x.status = .running) : freedOn cause yard x = freed cause yard x := by
  unfold freedOn
  rw [h]

/-- Where no HALT or EXIT waits, a context that is held on a mended fault, or halted, runs on. -/
theorem freedOn_mended {cause yard : Nat} {x : Ctx} (held : x.status = .held 0x09 ∨ x.status = .held 0x10 ∨ x.status = .halted)
    (after : x.after = .none) : (freedOn cause yard x).status = .running := by
  unfold freedOn
  rcases held with h | h | h <;> simp [h, unhold, freed, after]

/-- A map with each value changed, by a change that keeps the default. -/
theorem mget_map {α : Type} {f : α → α} {d : α} (h : f d = d) (m : Map α) (n : Nat) :
    mget (m.map (fun e => (e.1, f e.2))) n d = f (mget m n d) := by
  induction m with
  | nil => exact h.symm
  | cons e r ih =>
    simp only [List.map_cons, mget]
    split
    · rfl
    · exact ih

theorem tapOf_freedOn_trap (yard : Nat) (x : Ctx) (n : Nat) : tapOf (freedOn 0x20 yard x) n = { tapOf x n with cross := 0, stamp := 0 } := by
  rw [freedOn_frame]
  exact mget_map (f := fun t : Tap => { t with cross := 0, stamp := 0 }) rfl x.taps n

/-- The state in which a return frees the served context: a launch that waited for its taps has one load less, and the control context has
returned (R308, R409). -/
def servedReturned (s : State) (c : Nat) : State :=
  let t := modLaunch s (ctxOf s c).launch (fun l => { l with taploads := l.taploads.filter (fun d => d != c) })
  if svCause s c = 0x03 then { t with control := false } else t

theorem ctxOf_servedReturned (s : State) (c d : Nat) : ctxOf (servedReturned s c) d = ctxOf s d := by
  unfold servedReturned
  dsimp only
  split <;> rfl

theorem yardNow_servedReturned (s : State) (c : Nat) : yardNow (servedReturned s c) c = yardNow s c := by
  unfold servedReturned
  dsimp only
  split <;> rfl

theorem resumeServed_eq (s : State) (c : Nat) : resumeServed s c = modCtx (servedReturned s c) c (freedOn (svCause s c) (yardNow s c)) := by
  rw [← yardNow_servedReturned]
  rfl

theorem ctxOf_resumeServed_other (s : State) (c : Nat) : ∀ d, d ≠ c → ctxOf (resumeServed s c) d = ctxOf s d := fun d hd => by
  rw [resumeServed_eq, ctxOf_modCtx_other _ c _ d hd, ctxOf_servedReturned]

theorem ctxOf_resumeServed (s : State) (c : Nat) : ctxOf (resumeServed s c) c = freedOn (svCause s c) (yardNow s c) (ctxOf s c) := by
  rw [resumeServed_eq, ctxOf_modCtx_self, ctxOf_servedReturned]

/-- A request that waits is given to the service context (R329, R330). -/
theorem serveRequest_eq (s : State) (c cause : Nat) :
    serveRequest s c cause = enterService (modCtx s c (fun x => { x with request := 0 })) c cause 0 (ctxOf s c).request := rfl

/-- A yield bundle's offer marked in its context (R329). -/
def yielding (s : State) (c : Nat) : State := modCtx s c (fun x => { x with yielded := true })

theorem ctxOf_yielding (s : State) (c : Nat) : ctxOf (yielding s c) c = { ctxOf s c with yielded := true } := ctxOf_modCtx_self s c _

theorem exec_yieldBundle (s : State) (c : Nat) : exec (.yieldBundle c) s = .next (afterBundle (yielding s c) c) := rfl

section
variable {s : State} {c : Nat}

theorem afterBundle_trap (pending : tapPending (ctxOf s c) = true) : afterBundle (yielding s c) c =
    postFault (yielding s c) (raisedAt (yielding s c) c 0x20 0 7 (ctxOf s c).lastPc (ctxOf s c).lastIssue) := by
  unfold afterBundle
  rw [ctxOf_yielding]
  exact if_pos pending

theorem afterBundle_request (clear : tapPending (ctxOf s c) = false) (request : (ctxOf s c).request ≠ 0) :
    afterBundle (yielding s c) c = serveRequest (yielding s c) c 0x02 := by
  unfold afterBundle
  rw [ctxOf_yielding]
  exact (if_neg (ne_true_of_eq_false clear)).trans (if_pos (by simp [request]))

theorem settleAfter_none (h : (ctxOf s c).after = .none) : settleAfter s c = s := by
  unfold settleAfter
  simp [h]

theorem afterBundle_none (clear : tapPending (ctxOf s c) = false) (request : (ctxOf s c).request = 0) (after : (ctxOf s c).after = .none) :
    afterBundle (yielding s c) c = modCtx (yielding s c) c (fun x => { x with yielded := false }) := by
  unfold afterBundle
  rw [ctxOf_yielding]
  exact (if_neg (ne_true_of_eq_false clear)).trans ((if_neg (by simp [request])).trans (settleAfter_none (by simp [yielding, after])))

/-- A running context whose deadline has expired, with nothing else that stops it (R330). -/
theorem exec_deadlineExpiry (primary : c % 2 = 0) (running : (ctxOf s c).status = .running) (unserved : (ctxOf s c).inSvc = false)
    (unfrozen : (ctxOf s c).frozen = false) (expired : (ctxOf s c).expired = true) (undrained : (stableAt s (stableOf c)).draining = false) :
    exec (.deadlineExpiry c) s = .next (serveRequest (modCtx s c (fun x => { x with expired := false, deadline := classDeadline s c })) c 0x01) := by
  have user : isSvc c = false := by simp [isSvc, primary]
  have due : (runnable (ctxOf s c) && (ctxOf s c).expired && (ctxOf s c).status == .running && !isSvc c) = true := by
    simp [runnable, running, unserved, unfrozen, expired, user]
  have quiet : ∀ t, stableAt (serveRequest t c 0x01) (stableOf c) = stableAt t (stableOf c) := fun _ => rfl
  change Host.Outcome.next (if (runnable (ctxOf s c) && (ctxOf s c).expired && (ctxOf s c).status == .running && !isSvc c) = true
    then expireDeadline s c else s) = _
  rw [if_pos due, expireDeadline, drainAt, quiet, stableAt_modCtx, undrained]
  rfl

end

/-- Settles O60: entry and return are updates of the served and the service context; an offer takes the first of a trap, a request and going on. -/
theorem serviceEntryAndReturn : Obligations.ServiceEntryAndReturn := by
  intro s c cause code request primary
  refine ⟨?entry, ?ret, ?offer⟩
  case entry =>
    have service := ctxOf_enterService_service s c cause code request
    refine ⟨ctxOf_enterService_served .., svcause_enterService .., ?_, ?_, ?_, ?_, ?_, ?_, ?_, ?_, ?_,
      ctxOf_enterService_other s c cause code request, rfl, rfl⟩
    all_goals rw [service]; rfl
  case ret =>
    intro t was
    have self : ctxOf t c = freedOn was (yardNow s c) (ctxOf s c) := ctxOf_resumeServed s c
    have frame := self.trans (freedOn_frame ..)
    refine ⟨by rw [frame]; rfl, by rw [frame]; rfl, by rw [frame]; rfl, fun trap => ?trap, fun other => ?other,
      fun held after => by rw [self, freedOn_mended held after], fun running => ?running, ctxOf_resumeServed_other s c⟩
    case trap =>
      refine ⟨by rw [frame]; exact if_pos trap, fun n => ?_⟩
      have clear := tapOf_freedOn_trap (yardNow s c) (ctxOf s c) n
      rw [self, trap, clear]
      exact ⟨rfl, rfl⟩
    case other =>
      rw [frame]
      exact ⟨if_neg other, if_neg other⟩
    case running =>
      rw [self, freedOn_running running]
      exact running
  case offer =>
    intro x u
    refine ⟨fun pending => ?_, fun clear request => ?_, fun clear request after => ?_, fun running unserved unfrozen expired undrained => ?_⟩
    · rw [exec_yieldBundle, afterBundle_trap pending]
      rfl
    · rw [exec_yieldBundle, afterBundle_request clear request, serveRequest_eq, ctxOf_yielding]
      rfl
    · refine ⟨_, (exec_yieldBundle s c).trans (congrArg _ (afterBundle_none clear request after)), ?_, fun d hd => ?_⟩
      · rw [ctxOf_modCtx_self, ctxOf_yielding]
      · rw [ctxOf_modCtx_other _ c _ d hd, yielding, ctxOf_modCtx_other _ c _ d hd]
    · rw [exec_deadlineExpiry primary running unserved unfrozen expired undrained, serveRequest_eq, ctxOf_modCtx_self]

/-! ## Off-core accesses -/

/-- An access that its queue's order lets perform, with no registration, half-made host store or lost link to wait for (R254, R256, R350, R422). -/
structure MayPerform (s : State) (c id : Nat) (o : OffOp) : Prop where
  named : opOf s c id = some o
  ordered : inOrder s c o = true
  unhashed : waitsTree s (opRanges s c o) = false
  whole : halfStored s c id (opRanges s c o) = false
  linked : toHost s c o = true → linkUp s = true

/-- Its host queue's link carries requests. -/
theorem MayPerform.hostLinked {s : State} {c id : Nat} {o : OffOp} (h : MayPerform s c id o) : ¬ (o.q = .host ∧ linkUp s = false) := by
  rintro ⟨host, down⟩
  rw [h.linked (by simp [toHost, host])] at down
  cases down

section
variable {s : State} {c id : Nat} {o : OffOp} (may : MayPerform s c id o)
include may

theorem exec_offcoreAccessPerform (plain : plainKind o.kind = true) (inYard : targetOut s c o = false)
    (gate : deviceGate s (deviceRanges s (opRanges s c o)) (writesMem o) (.device c id) = none) :
    let u := takeEffect (meter (correctRanges s (opRanges s c o)) c (deviceRanges s (opRanges s c o))) c o
    exec (.offcoreAccessPerform c id) s =
      .next (cacheRanges (if writesMem o then u else foundRanges u (opRanges s c o)) c (opRanges s c o)) := by
  have free : ¬ ((!plainKind o.kind || !(inOrder s c o || halfDone o) || waitsTree s (opRanges s c o) || halfStored s c id (opRanges s c o) ||
      targetOut s c o) = true) := by simp [plain, may.ordered, may.unhashed, may.whole, inYard]
  have linked : ¬ (toHost s c o = true ∧ linkUp s = false) := by
    rintro ⟨host, down⟩
    rw [may.linked host] at down
    cases down
  change Host.Outcome.next (performOp s c id) = _
  rw [performOp, may.named]
  dsimp only
  rw [if_neg free, if_neg linked, gate]

/-- A SPILL or FILL in its order, with no landing held and no replay, comes to its ranges (R201). -/
theorem token_free (token : plainKind o.kind = false) (unheld : (ctxOf s c).heldRows = false) (own : replaying s c = false) :
    ¬ ((plainKind o.kind || !inOrder s c o || waitsTree s (opRanges s c o) || halfStored s c id (opRanges s c o) || (ctxOf s c).heldRows ||
      replaying s c) = true) := by simp [token, may.ordered, may.unhashed, may.whole, unheld, own]

theorem exec_tokenComplete_spill {tok tile tid : Nat} {offs : List Int} {rows : List Row} {t : Tensor} (kind : o.kind = .spill tok tile tid offs rows)
    (unheld : (ctxOf s c).heldRows = false) (own : replaying s c = false) (tensor : tensorOf (launchAt s (ctxOf s c).launch) tid = some t)
    (gate : deviceGate s (deviceRanges s (opRanges s c o)) true (.device c id) = none)
    (room : ∀ r ∈ opRanges s c o, storeOk s r.1 r.2.1 r.2.2 = true) :
    exec (.tokenComplete c id) s = .next (opDone (cacheRanges (spillRows (meter s c (deviceRanges s (opRanges s c o))) t offs rows) c
      (opRanges s c o)) c id (.data 0 0)) := by
  have free := token_free may (by rw [kind]; rfl) unheld own
  change Host.Outcome.next (completeToken s c id) = _
  rw [completeToken, may.named]
  dsimp only
  rw [if_neg free, if_neg may.hostLinked, kind]
  dsimp only
  rw [gate]
  dsimp only
  rw [if_pos (List.all_eq_true.2 room), tensor]
  rfl

/-- A FILL that has read its rows: where its records would pass the undo budget its landings are held, else the tile takes the rows (R201, R286). -/
theorem exec_tokenComplete_fill {tok tile tid : Nat} {offs : List Int} {rows : List Row} {t : Tensor} (kind : o.kind = .fill tok tile tid offs)
    (unheld : (ctxOf s c).heldRows = false) (own : replaying s c = false) (tensor : tensorOf (launchAt s (ctxOf s c).launch) tid = some t)
    (gate : deviceGate s (deviceRanges s (opRanges s c o)) false (.device c id) = none)
    (read : fillRows (meter (correctRanges s (opRanges s c o)) c (deviceRanges s (opRanges s c o))) t offs = .ok rows) :
    let w := meter (correctRanges s (opRanges s c o)) c (deviceRanges s (opRanges s c o))
    let v := modCtx (cacheRanges w c (opRanges s c o)) c (fun x => logRows x ((List.range 64).map (64 * tile + ·)))
    exec (.tokenComplete c id) s = .next (
      if (ctxOf v c).grant.segbudget ≠ 0 ∧ (ctxOf v c).grant.segbudget < (ctxOf v c).charge then holdLandings w c 2
      else opDone (putTile (logInputs v c 32776 [fillAnswer w c o rows]) c (64 * tile) rows) c id (.data 0 0)) := by
  have free := token_free may (by rw [kind]; rfl) unheld own
  change Host.Outcome.next (completeToken s c id) = _
  rw [completeToken, may.named]
  dsimp only
  rw [if_neg free, if_neg may.hostLinked, kind]
  dsimp only
  rw [gate, tensor]
  dsimp only [Option.elim_some]
  rw [read]

end

/-! ## What a FILL leaves -/

theorem cacheTile_sameRun (s : State) (c : Nat) (t : Tensor) (i : Nat) : SameRun (cacheTile s c t i) s :=
  ⟨rfl, rfl, rfl, rfl, rfl, rfl, rfl, rfl, rfl, rfl, rfl⟩

/-- Tiles used in the tile-translation cache change nothing where programs run (R247). -/
theorem cacheRanges_sameRun (s : State) (c : Nat) (rs : List (Tensor × Nat × Nat)) : SameRun (cacheRanges s c rs) s := by
  refine foldl_keep (SameRun · s) _ (fun t r ht => ?_) rs s (.refl s)
  refine ite_both (SameRun · s) ht ?_
  exact foldl_keep (SameRun · s) _ (fun u i hu => ite_both (SameRun · s) ((cacheTile_sameRun ..).trans hu) hu) _ t ht

theorem logInputs_sameRun (s : State) (c n : Nat) (answers : List (Nat × Nat × OffAns)) : SameRun (logInputs s c n answers) s := by
  unfold logInputs
  split
  · exact ite_both (SameRun · s) (ite_both (SameRun · s) (dropCapture_sameRun s c) (.refl s)) (.refl s)
  · exact .refl s

/-- Logging changes the undo log and its charge alone (R285). -/
theorem logUnit_frame (x : Ctx) (u : Undo) (n : Nat) : logUnit x u n = { x with undo := (logUnit x u n).undo, charge := (logUnit x u n).charge } := by
  unfold logUnit
  split <;> rfl

theorem logRows_grant (x : Ctx) (rows : List Nat) : (logRows x rows).grant = x.grant :=
  foldl_keep (fun y : Ctx => y.grant = x.grant) _ (fun y n hy => by rw [logUnit_frame]; exact hy) rows x rfl

/-- Rows written one after another from a first one. -/
theorem mget_putRows (m : Map Row) (first : Nat) (rows : List Row) {r : Nat} :
    ∀ n, r < n → mget ((List.range n).foldl (fun m r => mset m (first + r) (nth rows r 0) 0) m) (first + r) 0 = rows.getD r 0
  | n + 1, h => by
    rw [List.range_succ, List.foldl_append, List.foldl_cons, List.foldl_nil, mget_mset]
    by_cases last : r = n
    · rw [last, if_pos rfl]
      rfl
    · rw [if_neg (by omega)]
      exact mget_putRows m first rows n (by omega)

theorem vrow_putTile (s : State) (c first : Nat) (rows : List Row) {r : Nat} (h : r < 64) :
    vrow (ctxOf (putTile s c first rows) c) (first + r) = rows.getD r 0 := by
  unfold putTile
  rw [ctxOf_modCtx_self]
  exact mget_putRows _ first rows 64 h

theorem ctxOf_opDone_vrows (s : State) (c id : Nat) (a : OffAns) : (ctxOf (opDone s c id a) c).vrows = (ctxOf s c).vrows := by
  unfold opDone
  rw [ctxOf_modCtx_self]

/-- The traffic of corrected reads counted changes no context. -/
theorem ctxOf_metered (s : State) (c : Nat) (rs : List (Tensor × Nat × Nat)) (dev : List (Nat × Nat)) (i : Nat) :
    ctxOf (meter (correctRanges s rs) c dev) i = ctxOf s i := (correctRanges_run s rs).ctxOf i

theorem grant_logged (s : State) (c : Nat) (rs : List (Tensor × Nat × Nat)) (rows : List Nat) :
    (ctxOf (modCtx (cacheRanges s c rs) c (fun x => logRows x rows)) c).grant = (ctxOf s c).grant := by
  rw [ctxOf_modCtx_self, logRows_grant, (cacheRanges_sameRun s c rs).ctxOf]

theorem ctxOf_holdLandings (s : State) (c code : Nat) : ctxOf (holdLandings s c code) c = addLate { ctxOf s c with heldRows := true } code 0 0 :=
  ctxOf_modCtx_self s c _

/-! ## PROBE answers -/

section
variable {s : State} {c id : Nat} {o : OffOp} (may : MayPerform s c id o) {tid off len : Nat} {t : Tensor} (kind : o.kind = .probe tid off len)
  (tensor : tensorOf (launchAt s (ctxOf s c).launch) tid = some t)
include may kind tensor

/-- A PROBE in its order is answered by the states of its tiles: lost ones first, then absent ones, then the pins (R148, R338, R339). -/
theorem exec_probeAnswer : exec (.probeAnswer c id) s = .next (
    if (tilesIn off len false).any (fun i => tileState s t i == 3) then faultDue (opDone s c id (.data 0 0)) c 0x13 0 o.slot
    else ((tilesIn off len false).find? (fun i => tileState s t i == 0)).elim
      ((pinTiles (opDone s c id (.data 0 0)) c t.table (tilesIn off len false)).elim (faultDue (opDone s c id (.data 0 0)) c 2 0 o.slot)
        (fun v => modCtx (cacheRanges v c [(t, off, len)]) c (fun x => { x with probeOk := true, missed := none })))
      (fun i => faultDue (modCtx (opDone s c id (.data 0 0)) c (fun x => { x with missed := some i })) c 0x10 i o.slot)) := by
  have inOrder : ¬ ((!inOrder s c o) = true) := by simp [may.ordered]
  change Host.Outcome.next (answerProbe s c id) = _
  rw [answerProbe, may.named]
  dsimp only
  rw [if_neg inOrder, if_neg may.hostLinked, kind]
  dsimp only
  rw [tensor]
  dsimp only
  congr 2
  cases (tilesIn off len false).find? (fun i => tileState s t i == 0) with
  | some i => rfl
  | none => cases pinTiles (opDone s c id (.data 0 0)) c t.table (tilesIn off len false) <;> rfl

theorem exec_probeAnswer_pins (live : ∀ i ∈ tilesIn off len false, tileState s t i = 1 ∨ tileState s t i = 2) {v : State}
    (pinned : pinTiles (opDone s c id (.data 0 0)) c t.table (tilesIn off len false) = some v) : exec (.probeAnswer c id) s =
      .next (modCtx (cacheRanges v c [(t, off, len)]) c (fun x => { x with probeOk := true, missed := none })) := by
  have unlost : ¬ ((tilesIn off len false).any (fun i => tileState s t i == 3) = true) := by
    simp only [List.any_eq_true, beq_iff_eq, not_exists, not_and]
    intro i hi
    have := live i hi
    omega
  have present : (tilesIn off len false).find? (fun i => tileState s t i == 0) = none := by
    simp only [List.find?_eq_none, beq_iff_eq]
    intro i hi
    have := live i hi
    omega
  rw [exec_probeAnswer may kind tensor, if_neg unlost, present, pinned]
  rfl

theorem exec_probeAnswer_lost (lost : ∃ i ∈ tilesIn off len false, tileState s t i = 3) :
    exec (.probeAnswer c id) s = .next (faultDue (opDone s c id (.data 0 0)) c 0x13 0 o.slot) := by
  rw [exec_probeAnswer may kind tensor, if_pos (by simpa using lost)]

theorem exec_probeAnswer_absent (unlost : ∀ i ∈ tilesIn off len false, tileState s t i ≠ 3) {i : Nat}
    (first : (tilesIn off len false).find? (fun j => tileState s t j == 0) = some i) : exec (.probeAnswer c id) s =
      .next (faultDue (modCtx (opDone s c id (.data 0 0)) c (fun x => { x with missed := some i })) c 0x10 i o.slot) := by
  rw [exec_probeAnswer may kind tensor, if_neg (by simpa using unlost), first]
  rfl

end

/-! ## FIFOs, fills and copies -/

theorem launchAt_opDone (s : State) (c id : Nat) (a : OffAns) (n : Nat) : launchAt (opDone s c id a) n = launchAt s n := rfl

/-- A PUSH in its order to a peer's FIFO with room (R199, R306). -/
theorem exec_pushAccepted {s : State} {c id : Nat} {o : OffOp} (may : MayPerform s c id o) {v : Row} {q i : Nat} (kind : o.kind = .push v)
    (queue : o.q = .fifo q) (source : sourceOf (launchAt s (ctxOf s c).launch) (ctxOf s c).k q = some i)
    (peer : ((launchAt s (ctxOf s c).launch).fifos.getD i []).getD 0 0 ≠ 3)
    (room : (mget (launchAt s (ctxOf s c).launch).fifoData i []).length < 64) :
    exec (.pushAccepted c id) s = .next (opDone (modLaunch s (ctxOf s c).launch (fun l =>
      { l with fifoData := mput l.fifoData i (mget (launchAt s (ctxOf s c).launch).fifoData i [] ++ [v]),
               pushed := mput l.pushed i (mget l.pushed i 0 + 1) })) c id (.data 0 0)) := by
  have inOrder : ¬ ((!inOrder s c o) = true) := by simp [may.ordered]
  have peer : ¬ nth (nth (launchAt s (ctxOf s c).launch).fifos i []) 0 0 = 3 := peer
  change Host.Outcome.next (acceptPush s c id) = _
  rw [acceptPush, may.named]
  dsimp only
  rw [kind, queue]
  dsimp only
  rw [if_neg inOrder, source]
  dsimp only
  rw [if_neg peer, if_pos room]

/-- A fill request is accepted where no exchange and no other fill stands in its way (R280). -/
theorem exec_shadowFillAccept {s : State} {c cm : Nat} {o : OffOp} {v : Row} (next : nextFill (ctxOf s c) cm = some (o, v))
    (ordered : inOrder s c o = true) (landed : (macroOf (ctxOf s c) cm).time.swapsDue = 0) (free : (macroOf (ctxOf s c) cm).fillOn = none) :
    exec (.shadowFillAccept c cm) s = .next (opDone (modCtx s c (fun x =>
      modMacro x cm (fun m => { m with fillOn := some (srcOf o.pc o.slot, v), fillActive := false }))) c o.id (.data 0 0)) := by
  have accepts : (inOrder s c o && (macroOf (ctxOf s c) cm).time.swapsDue == 0 && (macroOf (ctxOf s c) cm).fillOn.isNone) = true := by
    simp [ordered, landed, free]
  change Host.Outcome.next (acceptFill s c cm) = _
  rw [acceptFill, next]
  dsimp only
  rw [if_pos accepts]

/-- A fill's end: the bytes `new` are written to the bank that it fills, and no fill is left (R280). -/
def fillEnded (nib : Bool) (v : Row) (new : List Byte) (m : Macro) : Macro :=
  if m.fillActive then { m with fillOn := none, active := fillBank nib m.active v new }
  else { m with fillOn := none, shadow := fillBank nib m.shadow v new }

/-- A fill ends with the bytes it has read, and zeros past the tensor's end (R280, log 51, log 123). -/
theorem exec_shadowFillEnd {s : State} {c cm src : Nat} {v : Row} {t : Tensor} {b : List Byte}
    (fill : (macroOf (ctxOf s c) cm).fillOn = some (src, v)) (tensor : tensorOf (launchAt s (ctxOf s c).launch) (fld v 0 16) = some t) :
    let off := fld v 64 48
    let n := fld v 32 16 * 8 * containerBits (fld v 48 8)
    let top := min (off + n) (ceilDiv (t.len * containerBits t.fmt) 8) - off
    waitsTree s [(t, off, n)] = false → tensorRead (correctRanges s [(t, off, top)]) t off top = .ok b →
    exec (.shadowFillEnd c cm) s = .next (modCtx (meter (correctRanges s [(t, off, top)]) c (deviceRanges s [(t, off, top)])) c (fun x =>
      modMacro x cm (fillEnded (nibbled s c cm) v (b ++ List.replicate (n - b.length) 0)))) := by
  intro off n top unhashed read
  change Host.Outcome.next (endFill s c cm) = _
  rw [endFill, fill]
  dsimp only
  rw [tensor]
  dsimp only
  rw [if_neg (ne_true_of_eq_false unhashed), read]
  rfl

theorem macroOf_modMacro (x : Ctx) (m : Nat) (f : Macro → Macro) : macroOf (modMacro x m f) m = f (macroOf x m) := mget_mput_same ..

theorem exec_tapldCopyComplete {s : State} {c : Nat} (waits : (ctxOf s c).wait = .copy) :
    exec (.tapldCopyComplete c) s = .next (modCtx (readEntry s c) c (fun x => { x with probeOk := true })) := congrArg _ (if_pos waits)

/-! ## Packets -/

theorem insertBy_length {α : Type} (key : α → Nat) (x : α) : ∀ l : List α, (insertBy key x l).length = l.length + 1
  | [] => rfl
  | y :: r => by
    unfold insertBy
    split
    · rfl
    · rw [List.length_cons, insertBy_length key x r, List.length_cons]

theorem sortBy_length {α : Type} (key : α → Nat) (l : List α) : (sortBy key l).length = l.length := by
  suffices h : ∀ (l acc : List α), (l.foldl (fun acc x => insertBy key x acc) acc).length = acc.length + l.length by
    simpa [sortBy] using h l []
  intro l
  induction l with
  | nil => exact fun acc => rfl
  | cons x r ih =>
    intro acc
    rw [List.foldl_cons, ih, insertBy_length, List.length_cons]
    omega

theorem stableAt_dropAccess (s : State) (c : Nat) (op : Option Nat) (i : Nat) : stableAt (dropAccess s c op) i = stableAt s i := by
  cases op <;> rfl

/-- A packet applied changes no Stable's queues (R212). -/
theorem stableAt_applyPacket (s : State) (p : Packet) (i : Nat) : stableAt (applyPacket s p) i = stableAt s i := by
  have read : stableAt (if p.op = 0 then s else readWords s 0x0B p.stable 512 [(p.bay * 2 ^ 18 + p.off, packetLen p)]) i = stableAt s i :=
    ite_both (fun t : State => stableAt t i = stableAt s i) rfl ((readWords_run ..).stableAt i)
  unfold applyPacket
  dsimp only
  rw [stableAt_dropAccess]
  split <;> exact read

/-- The packets of a Stable applied by sender and taken off, each with its signal a cycle later (R211, R212). -/
theorem stableAt_arrivePackets (s : State) (sb : Nat) : stableAt (arrivePackets s sb) sb = { stableAt s sb with
    packets := []
    signals := (stableAt s sb).signals ++ (sortBy (fun p => p.2.sender) (stableAt s sb).packets).map
      (fun p => { sem := p.2.sem, count := 1, due := (yardAt s (sb / 16)).ycycle + 1, charged := 0 }) } := by
  unfold arrivePackets
  dsimp only
  split
  · next none =>
    have empty : (stableAt s sb).packets = [] :=
      List.eq_nil_of_length_eq_zero ((sortBy_length (fun p => p.2.sender) _).symm.trans (congrArg List.length none))
    rw [none, List.map_nil, List.append_nil, ← empty]
  · rw [stableAt_modStable, if_pos rfl]
    have kept : ∀ ps : List (Nat × Packet), stableAt (ps.foldl (fun s p => applyPacket s p.2) s) sb = stableAt s sb := fun ps =>
      foldl_keep (fun t => stableAt t sb = stableAt s sb) _ (fun t p ht => (stableAt_applyPacket t p.2 sb).trans ht) ps s rfl
    rw [kept]

/-- Settles O37: each event is its operation on an access that may perform; a FILL's, a fill's and the packets' effects are read off its result. -/
theorem offcoreAccessesPerform : Obligations.OffcoreAccessesPerform := by
  intro s c id cm stable x l
  refine ⟨fun o named ordered unhashed whole linked => ?accesses,
    fun o v next ordered landed free => exec_shadowFillAccept next ordered landed free,
    fun src v t b fill tensor => ?fillEnd, exec_tapldCopyComplete,
    arrivePackets s stable, rfl, ?packets, ?signals⟩
  case accesses =>
    have may : MayPerform s c id o := ⟨named, ordered, unhashed, whole, linked⟩
    refine ⟨exec_offcoreAccessPerform may,
      fun tok tile tid offs rows t kind unheld own tensor gate room => exec_tokenComplete_spill may kind unheld own tensor gate room,
      fun tok tile tid offs rows t kind unheld own tensor gate read => ?fill,
      fun tid off len t kind tensor => ⟨fun live v pinned => exec_probeAnswer_pins may kind tensor live pinned,
        exec_probeAnswer_lost may kind tensor, fun i unlost first => exec_probeAnswer_absent may kind tensor unlost first⟩,
      fun v q i kind queue source peer room => ⟨_, exec_pushAccepted may kind queue source peer room, ?element, ?count⟩⟩
    case fill =>
      intro v
      have grant : (ctxOf v c).grant = x.grant := (grant_logged ..).trans (congrArg Ctx.grant (ctxOf_metered ..))
      have completes := exec_tokenComplete_fill may kind unheld own tensor gate read
      by_cases passes : x.grant.segbudget ≠ 0 ∧ x.grant.segbudget < (ctxOf v c).charge
      · rw [← grant] at passes
        refine ⟨_, completes.trans (congrArg _ (if_pos passes)), fun fits => ?_, fun _ _ => ⟨rfl, ?_⟩⟩
        · rw [← grant] at fits
          omega
        · rw [ctxOf_holdLandings, ctxOf_metered]
          exact ⟨rfl, rfl⟩
      · have fits := passes
        rw [← grant] at fits
        refine ⟨_, completes.trans (congrArg _ (if_neg fits)), fun _ r hr => ?_, fun bounded exceeds => absurd ⟨bounded, exceeds⟩ passes⟩
        rw [vrow, ctxOf_opDone_vrows]
        exact vrow_putTile _ c _ rows hr
    case element =>
      rw [launchAt_opDone, launchAt_modLaunch, if_pos rfl]
      exact mget_mput_same ..
    case count =>
      rw [launchAt_opDone, launchAt_modLaunch, if_pos rfl]
      exact mget_mput_same ..
  case fillEnd =>
    intro off n top unhashed read
    refine ⟨_, exec_shadowFillEnd fill tensor unhashed read, ?_, fun shadow => ?_⟩
    · rw [ctxOf_modCtx_self, macroOf_modMacro, fillEnded]
      split <;> rfl
    · rw [ctxOf_modCtx_self, macroOf_modMacro, ctxOf_metered, fillEnded, if_neg (ne_true_of_eq_false shadow)]
  case packets => rw [stableAt_arrivePackets]
  case signals => rw [stableAt_arrivePackets]

end Sys2Proof.Machine

/-!
Vector compares, selection and data movement.
-/

namespace Sys2Proof.Machine

/-! ## Vector compares and selection -/

/-- A lane mask is all ones where the comparison holds and zero elsewhere (R157). -/
theorem maskOf_decide (q : Prop) [Decidable q] : maskOf (decide q) = if q then BitVec.allOnes 32 else 0 := by
  by_cases h : q
  · rw [if_pos h, decide_eq_true h]
    rfl
  · rw [if_neg h, decide_eq_false h]
    rfl

/-- Settles O19: each operation runs with its operands' checks alone; the integer compares' masks are brought to the model's spelling first. -/
theorem vectorComparesAndSelectComplete : Obligations.VectorComparesAndSelectComplete := by
  intro s p vd va vb vc hp
  simp only [← maskOf_decide]
  refine ⟨fun hu => ?compares, fun hu => ?select⟩
  all_goals and_intros
  all_goals apply exec_usable hp hu <;> rfl

/-! ## Vector data movement -/

/-- VCVT.k's checks find nothing where the tag is current and sound and each scale entry that the elements use exists (R60, R162). -/
theorem vcvtkFound_fine {s : State} {va : BitVec 13} {sfmt dfmt : BitVec 5} (current : tagCurrent (me s) (vtile va) = true)
    (sound : SoundTag s (vtile va)) (entries : ∀ e < 4096 / max (containerBits sfmt.toNat) (containerBits dfmt.toNat),
      scaleEntry (me s) va (containerBits sfmt.toNat) e < 64) : vcvtkFound s va sfmt dfmt = fine := by
  have exist : (List.range (4096 / max (containerBits sfmt.toNat) (containerBits dfmt.toNat))).all
      (fun e => decide (scaleEntry (me s) va (containerBits sfmt.toNat) e < 64)) = true :=
    List.all_eq_true.2 fun e he => decide_eq_true (entries e (List.mem_range.1 he))
  unfold vcvtkFound
  dsimp only
  rw [current, exist, Bool.or_true, if_pos rfl, poisonTag_fine sound]
  rfl

/-- Settles O21: each operation but VCVT.k runs with its operands' checks alone, in every group of operands; VCVT.k's own check passes too. -/
theorem vectorDataMovementCompletes : Obligations.VectorDataMovementCompletes := by
  intro s p vd va vb sa si spos sfmt dfmt pattern ew3 part idx ew draw hp
  refine ⟨fun hu => ⟨?vcvt, fun current sound entries => ?vcvtK, ?vunpk, ?vbcastElement, ?vinsImm, ?vinsScalar, ?vmov⟩,
    fun hu => ⟨?vpack, ?vperm, ?vshuf⟩, fun hu => ⟨?vbcastScalar, ?vrng, ?vrngF⟩, fun hu => ⟨?vextrImm, ?vextrScalar⟩⟩
  case vcvtK =>
    apply exec_checked hp (common_ok hu rfl (vcvtkFound_fine current sound entries))
    rfl
  all_goals apply exec_usable hp hu <;> rfl

end Sys2Proof.Machine

/-!
Loads and stores of the round, and loads and stores through streams.
-/

namespace Sys2Proof.Machine

/-! ## Round loads -/

/-- Settles O26: each round load is the shared round load, and its checks are its destination's and its traffic's. -/
theorem roundLoadsComplete : Obligations.RoundLoadsComplete := by
  intro s p vd kd sd bay off off8 lane hp
  refine ⟨fun hu free => ?row, fun granted free => ?scale, fun free => ?scalar⟩
  case row =>
    apply exec_checked hp (common_ok hu rfl (trafficFound_fine free))
    rfl
  case scale =>
    apply exec_checked hp (common_nil (scale_granted granted) (trafficFound_fine free))
    rfl
  case scalar =>
    apply exec_checked hp (common_nil rfl (trafficFound_fine free))
    rfl

/-! ## Streams -/

section
variable {s : State} {wn : BitVec 5} {n : Nat} {data scale store : Bool} {t : Tensor}

theorem StreamReady.granted (h : StreamReady s wn n data scale store t) : need (wOk (me s) wn) 2 = fine := stream_granted h.1

theorem StreamReady.named (h : StreamReady s wn n data scale store t) :
    tensorOf (myLaunch s) (sTensor (wreg (me s) wn.toNat)) = some t := h.2.2.1

/-- A ready stream's own findings, beside which an access with a scale half may have one on its scale register. -/
theorem StreamReady.found (h : StreamReady s wn n data scale store t) {half : Found} (fits : half = fine) :
    allOf [streamFound s wn n data scale store, streamBoard s wn, half] = fine := by
  rw [streamFound_fine h, streamBoard_fine h, fits]
  rfl

theorem StreamReady.found_alone (h : StreamReady s wn n data scale store t) :
    allOf [streamFound s wn n data scale store, streamBoard s wn] = fine := by
  rw [streamFound_fine h, streamBoard_fine h]
  rfl

/-- A stream load whose tensor is known: from its bay, or through its queue, with one step of its stream (R188, R194, R197). -/
theorem loadStream_named (named : tensorOf (myLaunch s) (sTensor (wreg (me s) wn.toNat)) = some t) (dst reg dir k opc : Nat) (delay : BitVec 12) :
    let w := wreg (me s) wn.toNat
    let n := if dst = 0 then groupCount w else 1
    let scale := dst != 2 && sStride w != 0
    loadStream s wn dst reg dir k opc delay =
      if t.kind = 0 then
        stepStream (emit (ride s (streamTraffic s w n (dst != 1) scale false)) 2
          (.read t.bay 0 n (s.cur.cycle + 6 + loadHops s (BitVec.ofNat 3 t.bay) (BitVec.ofNat 4 (sLane w)))
            (.stream dst reg dir k (wword w 0) (wword w 1) (sOffset w)))) wn 1
      else
        stepStream (emit (enqueue s (kindQueue t) (.load (sTensor w) (sOffset w) n (dst != 1) (if scale then scaleRefOf w else none))
          (match dst with
            | 0 => .row reg dir (wword w 0) (wword w 1) k
            | 1 => .scale k (wword w 0) (wword w 1)
            | _ => .scalar reg (wword w 0)) opc true) (max delay.toNat 8) (.offcore (me s).opId)) wn 1 := by
  simp only [loadStream, named]
  split <;> rfl

/-- A stream store whose tensor is known: to its bay by its lane, or through its queue, with one step of its stream (R188, R195, R197). -/
theorem storeStream_named (named : tensorOf (myLaunch s) (sTensor (wreg (me s) wn.toNat)) = some t) (half : Bool) (src : Nat) (k : BitVec 1024)
    (opc : Nat) :
    let w := wreg (me s) wn.toNat
    let scale := half && sStride w != 0
    let e := storeElems t (sFmt w) n src
    let f := if data then emitFlags s 2 e.2 else s
    storeStream s wn data half n src k opc =
      if t.kind = 0 then
        let lat := 4 + storeHops f (BitVec.ofNat 3 t.bay) (BitVec.ofNat 4 (sLane w))
        let u := ride f (streamTraffic f w n data scale true)
        let b := storeBytes t (sOffset w) n e.1
        let v := if data ∧ b.2.1 ≠ [] then emit u lat (.write t.bay (t.off + b.1) b.2.1 b.2.2) else u
        stepStream (match tensorOf (myLaunch v) (sScaleT w) with
          | some st =>
            let r := scaleBytes st (scaleOff w) k
            if scale ∧ r.2 ≠ [] then emit v lat (.write st.bay (st.off + r.1) r.2 (fullMask r.2.length)) else v
          | none => v) wn 1
      else
        stepStream (enqueue f (kindQueue t)
          (.store (sTensor w) (sOffset w) n data e.1 (if scale then (scaleRefOf w).map (fun r => (r, k)) else none)) .none opc false) wn 1 := by
  simp only [storeStream, named]
  split <;> rfl

end

/-- The check of a split scale register is the statement's own where the stream has a split scale (R26, R384). -/
theorem split_fine {w : WReg} {half : Found} (h : sStride w ≠ 0 → half = fine) : (if sStride w != 0 then half else fine) = fine :=
  ite_eq_right_iff.2 fun split => h (bne_iff_ne.1 split)

/-- Settles O29: each access through a ready stream passes its checks and is the shared stream load or store of its tensor. -/
theorem streamTransfersComplete : Obligations.StreamTransfersComplete := by
  refine ⟨fun s p vd kd sd wn delay t hp => ⟨fun hu granted ready => ?ld, fun granted ready split => ?ldk, fun ready => ?lds⟩,
    fun s p vs ks a wn t hp => ⟨fun hu granted ready => ?st, fun hu split ready => ?stk, fun ready => ?sts⟩⟩
  case ld =>
    have check : checkI s (.ld p vd wn kd delay) = .ok :=
      common_ok hu ready.granted (ready.found (split_fine fun split => by rw [scale_granted (granted split), both_fine]))
    change execLd p vd wn kd delay s = _
    rw [execLd, perform_ok check hp, loadStream_named ready.named]
    rfl
  case ldk =>
    have check : checkI s (.ldkStream p kd wn delay) = .ok :=
      common_nil (by rw [ready.granted, scale_granted granted, both_fine]) ready.found_alone
    change execLdkStream p kd wn delay s = _
    rw [execLdkStream, perform_ok check hp, loadStream_named ready.named, bne_iff_ne.2 split]
    rfl
  case lds =>
    have check : checkI s (.ldsStream p sd wn delay) = .ok := common_nil ready.granted ready.found_alone
    change execLdsStream p sd wn delay s = _
    rw [execLdsStream, perform_ok check hp, loadStream_named ready.named]
    rfl
  case st =>
    have check : checkX s (.st p wn vs ks) = .ok := common_ok hu ready.granted (ready.found (split_fine fun split => by
      rw [scale_granted (granted split).1, poisonFound_fine (granted split).2, both_fine]))
    change execSt p wn vs ks s = _
    rw [execSt, perform_ok check hp, storeStream_named ready.named]
    rfl
  case stk =>
    have check : checkX s (.stkStream p wn ks) = .ok := common_ok hu ready.granted ready.found_alone
    change execStkStream p wn ks s = _
    rw [execStkStream, perform_ok check hp, storeStream_named ready.named, bne_iff_ne.2 split]
    rfl
  case sts =>
    have check : checkX s (.stsStream p wn a) = .ok := common_nil ready.granted ready.found_alone
    change execStsStream p wn a s = _
    rw [execStsStream, perform_ok check hp, storeStream_named ready.named]
    rfl

end Sys2Proof.Machine

/-!
Station jobs: what a trigger starts, and what a job's end leaves.
-/

namespace Sys2Proof.Machine

/-! ## Triggers -/

theorem stableAt_farAccess (s : State) (c jid : Nat) (op : Option Nat) (i : Nat) : stableAt (farAccess s c jid op) i = stableAt s i := rfl

/-- The access of a job changes no status word. -/
theorem stationStatus_farAccess (s : State) (c jid : Nat) (op : Option Nat) :
    (ctxOf (farAccess s c jid op) c).stationStatus = (ctxOf s c).stationStatus := by
  unfold farAccess
  rw [ctxOf_modCtx_self]
  exact ite_both (fun x : Ctx => x.stationStatus = (ctxOf s c).stationStatus) rfl rfl

section
variable {s : State} {c st trig : Nat}

/-- A trigger of a station whose job of the class runs is refused: bit 62 of the status is set and nothing else changes (R203, R208). -/
theorem startJob_running {j : Job} (running : runningJob (stableAt s (stableOf c)) st (slotOf c) = some j) :
    startJob s c st trig none = modCtx s c (fun x =>
      { x with stationStatus := mput x.stationStatus st (setField (mget x.stationStatus st 0) 62 1 1) }) := by
  rw [startJob, running]
  rfl

/-- What the job of a trigger has to write, its flags and its error: nothing and error 6 for an illegal option, nothing and error 4 for
ranges that the launch does not hold, else the result on its source, which from a tensor is still to come (R205, R206, R207). -/
def jobOutcome (s : State) (c st trig : Nat) : List (Nat × List Byte) × Flags5 × Nat :=
  let a := jobArgs (ctxOf s c) st
  if jobOptBad st a = true then ([], 0, 6)
  else if jobRangeBad (launchAt s (ctxOf s c).launch) st trig a = true then ([], 0, 4)
  else if fld (nth a 0 0) 48 16 = 0 then
    jobResult st trig a ((jobRanges st trig a).1.map (fun r => roundRead s (stableOf c) (argBay (nth a 0 0)) r.1 r.2))
  else ([], 0, 0)

theorem jobOutcome_illegal (illegal : jobOptBad st (jobArgs (ctxOf s c) st) = true) : jobOutcome s c st trig = ([], 0, 6) := if_pos illegal

theorem jobOutcome_unheld (legal : jobOptBad st (jobArgs (ctxOf s c) st) = false)
    (unheld : jobRangeBad (launchAt s (ctxOf s c).launch) st trig (jobArgs (ctxOf s c) st) = true) : jobOutcome s c st trig = ([], 0, 4) :=
  (if_neg (ne_true_of_eq_false legal)).trans (if_pos unheld)

theorem jobOutcome_near (legal : jobOptBad st (jobArgs (ctxOf s c) st) = false)
    (held : jobRangeBad (launchAt s (ctxOf s c).launch) st trig (jobArgs (ctxOf s c) st) = false)
    (near : fld (nth (jobArgs (ctxOf s c) st) 0 0) 48 16 = 0) :
    let a := jobArgs (ctxOf s c) st
    jobOutcome s c st trig =
      jobResult st trig a ((jobRanges st trig a).1.map (fun r => roundRead s (stableOf c) (argBay (nth a 0 0)) r.1 r.2)) :=
  (if_neg (ne_true_of_eq_false legal)).trans ((if_neg (ne_true_of_eq_false held)).trans (if_pos near))

/-- The job that a trigger adds where none of its class runs on the station (R205). -/
theorem startJob_added (idle : runningJob (stableAt s (stableOf c)) st (slotOf c) = none) :
    ∃ j : Job, (stableAt (startJob s c st trig none) (stableOf c)).jobs = (stableAt s (stableOf c)).jobs ++ [j] ∧
      j.station = st ∧ j.ctx = c ∧ j.ends = yardNow s c + jobTime st trig (jobArgs (ctxOf s c) st) ∧
      j.bay = argBay (nth (jobArgs (ctxOf s c) st) 1 0) ∧ (j.chunks, j.flags, j.error) = jobOutcome s c st trig := by
  have read : ∀ (p : Prop) [Decidable p] (rs : List (Nat × Nat)),
      SameRun (if p then readWords s 0x0B (stableOf c) 512 rs else s) s := fun p _ rs =>
    ite_both (SameRun · s) (readWords_run ..) (SameRun.refl s)
  unfold startJob
  simp only [idle, Option.isSome_none, Bool.false_eq_true, if_false]
  rw [apply_ite (fun t => stableAt t (stableOf c)), stableAt_farAccess, stableAt_dropAccess, ite_self, stableAt_modCtx, stableAt_modStable,
    if_pos rfl]
  refine ⟨_, congrArg (fun t : Stable => t.jobs ++ [_]) ((read _ _).stableAt (stableOf c)), rfl, rfl,
    congrArg (fun y : Yard => y.ycycle + _) ((read _ _).yardAt (yardOf c)), rfl, ?outcome⟩
  unfold jobOutcome
  dsimp only
  cases jobOptBad st (jobArgs (ctxOf s c) st) with
  | true => rfl
  | false =>
    cases jobRangeBad (launchAt s (ctxOf s c).launch) st trig (jobArgs (ctxOf s c) st) with
    | true => rfl
    | false => simp

/-- The status of a station whose job starts is busy and nothing else (R208, log 14). -/
theorem startJob_busy (idle : runningJob (stableAt s (stableOf c)) st (slotOf c) = none) :
    mget (ctxOf (startJob s c st trig none) c).stationStatus st 0 = BitVec.ofNat 64 (2 ^ 63) := by
  unfold startJob
  simp only [idle, Option.isSome_none, Bool.false_eq_true, if_false]
  refine ite_both (fun t : State => mget (ctxOf t c).stationStatus st 0 = BitVec.ofNat 64 (2 ^ 63)) ?far ?near
  case far => rw [stationStatus_farAccess, ctxOf_modCtx_self, mget_mput_same]
  case near => rw [dropAccess, ctxOf_modCtx_self, mget_mput_same]

end

/-! ## Job ends -/

theorem stationStatus_logUnit (c : Ctx) (u : Undo) (bytes : Nat) : (logUnit c u bytes).stationStatus = c.stationStatus :=
  ite_both (fun x : Ctx => x.stationStatus = c.stationStatus) rfl rfl

theorem stationStatus_logGranules (s : State) (c : Ctx) (sb bay off n : Nat) :
    (logGranules s c sb bay off n).stationStatus = c.stationStatus :=
  ite_both (fun x : Ctx => x.stationStatus = c.stationStatus) rfl
    (foldl_keep (fun x : Ctx => x.stationStatus = c.stationStatus) _ (fun _ _ hx => (stationStatus_logUnit ..).trans hx) _ c rfl)

/-- A charge that may not fit changes no status word where what it charges does not (R286). -/
theorem stationStatus_chargeSoft {c : Ctx} {f : Ctx → Ctx} (kept : (f c).stationStatus = c.stationStatus) :
    (chargeSoft c f).stationStatus = c.stationStatus := by
  unfold chargeSoft
  dsimp only
  split
  · exact kept
  · split <;> rfl

/-- The status words, the signals of a Stable and the Yards agree in two states. -/
def SameSignals (sb : Nat) (t s : State) : Prop :=
  (∀ d, (ctxOf t d).stationStatus = (ctxOf s d).stationStatus) ∧ (stableAt t sb).signals = (stableAt s sb).signals ∧ ∀ n, yardAt t n = yardAt s n

section
variable (s : State) (sb : Nat) (j : Job)

theorem stationStatus_chargeJob (d : Nat) : (ctxOf (chargeJob s sb j) d).stationStatus = (ctxOf s d).stationStatus := by
  unfold chargeJob
  rw [ctxOf_modCtx]
  split
  · next h =>
    subst h
    exact stationStatus_chargeSoft (foldl_keep (fun x : Ctx => x.stationStatus = (ctxOf s j.ctx).stationStatus) _
      (fun _ _ hx => (stationStatus_logGranules ..).trans hx) _ _ rfl)
  · rfl

/-- A job's write of its destination leaves the status words, the signals and the Yards (R205). -/
theorem jobWrite_keeps : SameSignals sb (jobWrite s sb j) s := by
  have charged : SameSignals sb (chargeJob s sb j) s := ⟨stationStatus_chargeJob s sb j, rfl, fun _ => rfl⟩
  have written := foldl_keep (SameSignals sb · s) (fun t w => roundWrite t sb j.bay w.1 w.2 (fullMask w.2.length)) (fun _ _ h => h)
    j.chunks _ charged
  have poisoned := foldl_keep (SameSignals sb · s) (fun t w => poisonRange t 0x0B sb 512 (j.bay * 2 ^ 18 + w.1) w.2.length) (fun _ _ h => h)
    j.chunks _ written
  obtain ⟨status, signals, yards⟩ := ite_both (SameSignals sb · s) (c := j.poison = true) poisoned written
  refine ⟨status, ?_, yards⟩
  unfold jobWrite
  rw [stableAt_modStable, if_pos rfl]
  exact signals

/-- A job's access, once performed, changes no Stable. -/
theorem stableAt_jobAccess (i : Nat) : stableAt (jobAccess s j) i = stableAt s i := by
  unfold jobAccess
  split <;> rfl

/-- Nor does it change a status word. -/
theorem stationStatus_jobAccess (d : Nat) : (ctxOf (jobAccess s j) d).stationStatus = (ctxOf s d).stationStatus := by
  unfold jobAccess
  split
  · unfold opDone
    rw [ctxOf_modCtx]
    split
    · next h => rw [h]
    · rfl
  · rfl

/-- A job that ends is taken off, its status is set and its semaphore, if any, is signalled (R205, R207, R208). -/
theorem endJob_leaves : (∀ k ∈ (stableAt (endJob s sb j) sb).jobs, k.id ≠ j.id) ∧
    mget (ctxOf (endJob s sb j) j.ctx).stationStatus j.station 0 = jobStatus (mget (ctxOf s j.ctx).stationStatus j.station 0) j ∧
    (stableAt (endJob s sb j) sb).signals = (stableAt s sb).signals ++
      (match j.signal with | some n => [{ sem := n, count := 1, due := (yardAt s (sb / 16)).ycycle, charged := 0 }] | none => []) := by
  obtain ⟨status, signals, yards⟩ :=
    ite_both (SameSignals sb · s) (c := j.chunks = []) ⟨fun _ => rfl, rfl, fun _ => rfl⟩ (jobWrite_keeps s sb j)
  unfold endJob
  dsimp only
  refine ⟨?off, ?status, ?signals⟩
  case off =>
    rw [stableAt_modCtx, stableAt_jobAccess, stableAt_modStable, if_pos rfl]
    intro k hk
    simpa using (List.mem_filter.1 hk).2
  case status =>
    rw [ctxOf_modCtx_self, mget_mput_same, stationStatus_jobAccess, ctxOf_modStable, status]
  case signals =>
    rw [stableAt_modCtx, stableAt_jobAccess, stableAt_modStable, if_pos rfl]
    dsimp only
    rw [signals, yards]
    cases j.signal with
    | none => exact (List.append_nil _).symm
    | some n => rfl

end

/-- The end that is asked for is that of the named job whose time has come, or of none (R205). -/
theorem jobDue_now (y id : Nat) : (fun j : Job => j.id == id && jobDue y 0 j) = fun j => j.id == id && !j.waits && decide (j.ends ≤ y) := by
  funext j
  rw [jobDue, Nat.add_zero, Bool.and_assoc]

theorem exec_stationJobEnd_due {s : State} {stable id : Nat} {j : Job}
    (due : (stableAt s stable).jobs.find? (fun j => j.id == id && !j.waits && decide (j.ends ≤ (yardAt s (stable / 16)).ycycle)) = some j) :
    exec (.stationJobEnd stable id) s = .next (endJob s stable j) := by
  change execStationJobEnd stable id s = _
  rw [execStationJobEnd, jobDue_now, due]

theorem exec_stationJobEnd_early {s : State} {stable id : Nat}
    (early : ∀ j ∈ (stableAt s stable).jobs, j.id = id → j.waits = true ∨ (yardAt s (stable / 16)).ycycle < j.ends) :
    exec (.stationJobEnd stable id) s = .next s := by
  have noneDue : (stableAt s stable).jobs.find? (fun j => j.id == id && jobDue (yardAt s (stable / 16)).ycycle 0 j) = none := by
    rw [jobDue_now, List.find?_eq_none]
    intro j hj due
    simp only [Bool.and_eq_true, beq_iff_eq, Bool.not_eq_true', decide_eq_true_eq] at due
    obtain ⟨⟨named, fed⟩, past⟩ := due
    rcases early j hj named with waits | ahead
    · exact Bool.false_ne_true (fed.symm.trans waits)
    · omega
  change execStationJobEnd stable id s = _
  rw [execStationJobEnd, noneDue]

/-- Settles O38: every trigger is one start of a job, refused where a job of the class runs; an end is that of the job that is due. -/
theorem stationJobsRun : Obligations.StationJobsRun := by
  intro s c stable id x l sb rule
  have triggered : ∀ i st trig, exec i s = .next (startJob s c st trig none) → rule i st trig := by
    intro i st trig runs
    refine ⟨fun ⟨j, running⟩ => ?refused, fun idle => ?starts⟩
    case refused => rw [runs, startJob_running running]
    case starts =>
      obtain ⟨j, added, station, ctx, ends, bay, outcome⟩ := startJob_added (trig := trig) idle
      refine ⟨_, j, runs, added, startJob_busy idle, station, ctx, ends, bay, fun illegal => ?illegal, fun legal unheld => ?unheld,
        fun legal held near => outcome.trans (jobOutcome_near legal held near)⟩
      case illegal =>
        rw [jobOutcome_illegal illegal] at outcome
        exact ⟨congrArg (·.2.2) outcome, congrArg (·.1) outcome⟩
      case unheld =>
        rw [jobOutcome_unheld legal unheld] at outcome
        exact ⟨congrArg (·.2.2) outcome, congrArg (·.1) outcome⟩
  exact ⟨triggered _ 0 16 rfl, triggered _ 0 17 rfl, triggered _ 1 16 rfl, triggered _ 2 16 rfl, triggered _ 3 16 rfl,
    fun j due => ⟨_, exec_stationJobEnd_due due, endJob_leaves s stable j⟩, exec_stationJobEnd_early⟩

end Sys2Proof.Machine

/-!
The host's port: requests, answered flips, snoops, the flush, and the warm restart with its sweep.
-/

namespace Sys2Proof.Machine

/-! ## Host requests within one line -/

/-- A byte range within one line is one part (log 82). -/
theorem partsOf_oneLine {a n : Nat} (pos : 0 < n) (fits : n ≤ 64 - a % 64) : partsOf a n = [(a, n)] := by
  have rest : ∀ fuel b, linePieces fuel b 0 = [] := fun fuel b => by cases fuel <;> rfl
  rw [partsOf, linePieces, if_neg (by omega), Nat.min_eq_left fits]
  dsimp only
  rw [Nat.sub_self, rest]

section
variable {s : State} {a : Nat} {data : List Byte}

/-- A write within one line is one request (log 82). -/
theorem eachLine_oneLine (f : State → Nat → List Byte → State) (nonempty : data ≠ []) (fits : data.length ≤ 64 - a % 64) :
    eachLine f s a data = f s a data := by
  rw [eachLine, partsOf_oneLine (List.length_pos_iff.2 nonempty) fits, List.foldl_cons, List.foldl_nil, Nat.sub_self, List.drop_zero,
    List.take_length]

/-- Outside every region the port lets a host request through as it stands (R347). -/
theorem portGate_plain {line : Nat} (plain : regionAt s (64 * line) = none) (own : Bool) (w : PortWait) :
    portGate s line own w = (s, true) := by
  unfold portGate flipsAway hostGate
  simp only [plain]

/-- A write that touches no bound table puts its bytes (R340). -/
theorem writePlain_unbound (unbound : ∀ k < data.length, inBoundTable s (a + k) = false) : writePlain s a data = devPut s a data := by
  refine if_neg ?_
  simpa using unbound

theorem acceptWrite_unbound (outside : inCommand s a = false) (unbound : ∀ k < data.length, inBoundTable s (a + k) = false) :
    acceptWrite s a data = devPut s a data :=
  (if_neg (ne_true_of_eq_false outside)).trans (writePlain_unbound unbound)

/-- A host write with no other waiting before it and in no region is accepted and completed at once (R264). -/
theorem hostWriteLine_plain (first : writeFlip s = none) (plain : regionAt s (64 * (a / 64)) = none) :
    hostWriteLine s a data = emitOut (acceptWrite s a data) (.writeDone a) := by
  unfold hostWriteLine
  simp only [first, portGate_plain plain, if_true]

/-- A host read in no region is answered at once with the bytes as they stand, its words corrected (R264, R383). -/
theorem hostReadLine_plain {n : Nat} (plain : regionAt s (64 * (a / 64)) = none) (e : Bool) :
    hostReadLine s a n e = emitOut (readWords s 0x18 0 64 [(devAddr a, n)]) (.readData a (devRead s a n)) := by
  unfold hostReadLine
  simp only [portGate_plain plain, if_true, (readWords_run ..).devRead]

theorem exec_hostWrite_linked (inside : a + data.length ≤ hdmEnd s) (linked : hostLinked s = true) :
    exec (.hostWrite a data) s = .next (eachLine hostWriteLine s a data) :=
  (if_pos inside).trans (congrArg _ (if_pos linked))

theorem exec_hostMemwr_linked (inside : a + data.length ≤ hdmEnd s) (linked : hostLinked s = true) :
    exec (.hostMemwr a data) s = .next (eachLine acceptWrite s a data) :=
  (if_pos inside).trans (congrArg _ (if_pos linked))

theorem exec_hostRead_oneLine {n : Nat} (pos : 0 < n) (fits : n ≤ 64 - a % 64) (inside : a + n ≤ hdmEnd s) (linked : hostLinked s = true)
    (e : Bool) : exec (.hostRead a n e) s = .next (hostReadLine s a n e) := by
  refine (if_pos inside).trans (congrArg _ ((if_pos linked).trans ?_))
  rw [partsOf_oneLine pos fits, List.foldl_cons, List.foldl_nil]

end

/-! ## Answered flips -/

/-- The state field set leaves the flips that are counted, and the flips set leave the state (R346). -/
theorem regFlips_setState (w : Word) (st : Nat) : regFlips (setField w 4 2 st) = regFlips w := fld_setField_ne w st (by decide)
theorem regState_setFlips (w : Word) (n : Nat) : regState (setField w 0 3 n) = regState w := fld_setField_ne w n (by decide)
theorem regState_setState (w : Word) (st : Nat) : regState (setField w 4 2 st) = st % 4 := fld_setField w st (by decide)
theorem regFlips_setFlips (w : Word) (n : Nat) : regFlips (setField w 0 3 n) = n % 8 := fld_setField w n (by decide)

theorem uncache_cxl (s : State) (lo hi : Nat) : (uncache s lo hi).cxl = s.cxl := rfl

/-- A region's state set changes its entry alone at the port (R346). -/
theorem setRegState_cxl (s : State) (i st : Nat) :
    (setRegState s i st).cxl = { s.cxl with regions := mput s.cxl.regions i (setField (region s i) 4 2 st) } := by
  unfold setRegState
  dsimp only
  split <;> rfl

theorem region_setRegState (s : State) (i st : Nat) : region (setRegState s i st) i = setField (region s i) 4 2 st := by
  rw [region, setRegState_cxl, mget_mput_same]

theorem flipLimit_setRegState (s : State) (i st : Nat) : flipLimit (setRegState s i st) = flipLimit s := by
  unfold setRegState
  dsimp only
  split <;> rfl

/-- The flip threshold fits the field that counts the flips (R347). -/
theorem flipLimit_le (s : State) : flipLimit s ≤ 7 := by
  have field : fld (ioCsr s 0x852) 0 3 < 8 := BitVec.isLt _
  unfold flipLimit
  omega

/-- A flip below the threshold is counted in its region's entry, and nothing else changes (R347). -/
theorem countFlip_below {s : State} {i : Nat} (below : regFlips (region s i) + 1 < flipLimit s) :
    countFlip s i = modCxl s (fun x =>
      { x with regions := mput x.regions i (setField (mget x.regions i 0) 0 3 (regFlips (region s i) + 1)) }) := by
  have counted : min 7 (regFlips (region s i) + 1) = regFlips (region s i) + 1 := by
    have := flipLimit_le s
    omega
  unfold countFlip
  rw [counted]
  exact if_neg fun ⟨reached, _⟩ => Nat.not_le.2 below reached

/-- What the end of a flip leaves at the port: the entry `w` for its region, the flip gone, and the link as it was. -/
structure FlipEnded (t s : State) (f : Flip) (w : Word) : Prop where
  entry : region t f.region = w
  flips : t.cxl.flips = s.cxl.flips.filter (fun g => g != f)
  link : t.cxl.link = s.cxl.link

section
variable {s : State} {f : Flip} (whole : f.line = none)
include whole

/-- The end of a flip of a whole region that is not contested: device-owned, the flip counted (R347, R349). -/
theorem endFlip_counted (calm : regState (region s f.region) ≠ 3) (below : regFlips (region s f.region) + 1 < flipLimit s) :
    FlipEnded (endFlip s f) s f (setField (setField (region s f.region) 4 2 0) 0 3 (regFlips (region s f.region) + 1)) := by
  let u := modCxl s (fun x => { x with flips := x.flips.filter (fun g => g != f) })
  have flips : regFlips (region (setRegState u f.region 0) f.region) = regFlips (region s f.region) := by
    rw [region_setRegState, regFlips_setState]
    rfl
  have ended : endFlip s f = countFlip (setRegState u f.region 0) f.region := by
    unfold endFlip
    rw [whole]
    exact if_neg calm
  rw [ended, countFlip_below (by rw [flips, flipLimit_setRegState]; exact below), flips]
  constructor
  all_goals simp only [region, modCxl, setRegState_cxl, mget_mput_same]
  all_goals rfl

/-- The end of a flip of a contested region: device-owned, with no flip counted (R347). -/
theorem endFlip_contested (contested : regState (region s f.region) = 3) :
    FlipEnded (endFlip s f) s f (setField (setField (region s f.region) 0 3 0) 4 2 0) := by
  let u := modCxl s (fun x => { x with flips := x.flips.filter (fun g => g != f) })
  have ended : endFlip s f = endContest u f.region := by
    unfold endFlip
    rw [whole]
    exact if_pos contested
  rw [ended, endContest]
  constructor
  all_goals simp only [region, modCxl, setRegState_cxl, mget_mput_same]
  all_goals rfl

end

theorem FlipEnded.gone {t s : State} {f : Flip} {w : Word} (h : FlipEnded t s f w) : f ∉ t.cxl.flips := by
  rw [h.flips]
  simp

/-- Only a flushing link has a flush to answer (R350). -/
theorem answerFlush_linked {s : State} (linked : s.cxl.link = .linked) : answerFlush s = s :=
  if_neg fun ⟨flushing, _⟩ => Link.noConfusion (linked.symm.trans flushing)

/-- The answer to a flip that nothing waits behind ends the flip (R347, R349). -/
theorem exec_birsp_alone {s : State} {i : Nat} {f : Flip} {w : Word} (oldest : s.cxl.flips.find? (fun f => f.region == i) = some f)
    (alone : f.waiting = []) (linked : s.cxl.link = .linked) (ends : FlipEnded (endFlip s f) s f w) :
    exec (.birsp i) s = .next (endFlip s f) := by
  change Host.Outcome.next (endFlipOf s i) = _
  rw [endFlipOf, oldest]
  dsimp only
  rw [alone, List.foldl_nil, answerFlush_linked (ends.link.trans linked)]

/-! ## Snoops and the flush -/

section
variable {s : State} {line : Nat}

theorem exec_hostSnoop_held {e : Nat × BitVec 512} (held : s.cxl.cache.find? (fun e => e.1 == line) = some e) (inv : Bool) :
    exec (.hostSnoop line inv) s = .next (emitOut (writeBack s line) (.snooped line (some e.2) (poisonIn s 0x19 0 64 (64 * line) 64).isSome)) := by
  change Host.Outcome.next (snoopLine s line) = _
  rw [snoopLine, held]

theorem exec_hostSnoop_clean (clean : s.cxl.cache.find? (fun e => e.1 == line) = none) (inv : Bool) :
    exec (.hostSnoop line inv) s = .next (emitOut s (.snooped line none false)) := by
  change Host.Outcome.next (snoopLine s line) = _
  rw [snoopLine, clean]

end

theorem answerFlush_cxl (s : State) : (answerFlush s).cxl = s.cxl := ite_both (fun t : State => t.cxl = s.cxl) rfl rfl

/-- A flush begins with the link flushing (R350). -/
theorem flushAll_flushes {s : State} (linked : s.cxl.link = .linked) : (flushAll s).cxl.link = .flushing := by
  unfold flushAll
  rw [if_neg (fun other => other linked)]
  dsimp only
  rw [answerFlush_cxl]
  rfl

/-- With nothing held on either side a flush is answered at once (R350). -/
theorem flushAll_nothing_held {s : State} (linked : s.cxl.link = .linked) (cache : s.cxl.cache = []) (directory : s.cxl.directory = [])
    (flips : s.cxl.flips = []) (owned : ∀ r ∈ s.cxl.regions, regValid r.2 = true → regState r.2 ≠ 1 ∧ regState r.2 ≠ 2) :
    flushAll s = emitOut (modCxl s (fun x => { x with link := .flushing })) .flushed := by
  have away : s.cxl.regions.filter (fun e => regValid e.2 && (regState e.2 == 1 || regState e.2 == 2)) = [] := by
    rw [List.filter_eq_nil_iff]
    intro r hr
    simp only [Bool.and_eq_true, Bool.or_eq_true, beq_iff_eq, not_and, not_or]
    exact owned r hr
  unfold flushAll
  rw [if_neg (fun other => other linked)]
  simp only [cache, away, directory, List.map_nil, List.foldl_nil]
  exact if_pos ⟨rfl, List.isEmpty_iff.2 flips⟩

/-! ## The warm restart -/

theorem reportLost_cxl (s : State) (addr lines kind stall : Nat) : (reportLost s addr lines kind stall).cxl = s.cxl := by
  unfold reportLost
  dsimp only
  split
  · rfl
  · split
    · exact devPut_cxl ..
    · exact ite_both (fun t : State => t.cxl = s.cxl) rfl (devPut_cxl ..)

theorem reportLines_cxl (s : State) (lines : List Nat) (kind stall : Nat) : (reportLines s lines kind stall).cxl = s.cxl :=
  foldl_keep (fun t : State => t.cxl = s.cxl) _ (fun _ _ ht => (reportLost_cxl ..).trans ht) _ s rfl

theorem dxArrive_cxl (s : State) (sb id : Nat) (data : List Byte) (poison : Bool) : (dxArrive s sb id data poison).cxl = s.cxl := by
  unfold dxArrive
  dsimp only
  split <;> rfl

theorem endDropped_cxl (s : State) (c : Nat) (o : OffOp) : (endDropped s c o).cxl = s.cxl := by
  unfold endDropped
  split
  · rfl
  · exact dxArrive_cxl ..
  · rfl

/-- Dropping the accesses to host memory changes nothing at the port (R350). -/
theorem dropHostOps_cxl (s : State) : (dropHostOps s).cxl = s.cxl := by
  unfold dropHostOps
  dsimp only
  refine foldl_keep (fun t : State => t.cxl = s.cxl) _ (fun _ _ ht => (endDropped_cxl ..).trans ht) _ _ ?_
  exact foldl_keep (fun t : State => t.cxl = s.cxl) _ (fun _ _ ht => (reportLines_cxl ..).trans ht) _ s rfl

/-- With no access to host memory pending there is none to drop. -/
theorem dropHostOps_idle {s : State} (idle : hostPending s = []) : dropHostOps s = s := by
  unfold dropHostOps
  rw [idle]
  rfl

theorem loseHost_cxl (s : State) : (loseHost s).cxl = s.cxl := by
  unfold loseHost
  dsimp only
  refine foldl_keep (fun t : State => t.cxl = s.cxl) _ (fun _ _ ht => (uncache_cxl ..).trans ht) _ _ ?_
  rw [reportLines_cxl, reportLines_cxl, dropHostOps_cxl]

/-- A region's entry as a warm restart leaves it: back with the device, its flips 0 where it was not there before (R350). -/
def takenBack (w : Word) : Word := if regState w = 0 then w else setField (setField w 4 2 0) 0 3 0

theorem regState_takenBack (w : Word) : regState (takenBack w) = 0 := by
  unfold takenBack
  split
  · assumption
  · rw [regState_setFlips, regState_setState]

theorem takenBack_same_or_no_flips (w : Word) : takenBack w = w ∨ regFlips (takenBack w) = 0 := by
  unfold takenBack
  split
  · exact .inl rfl
  · exact .inr (regFlips_setFlips ..)

/-- A warm restart leaves the port with nothing held and every region taken back (R350). -/
theorem beginRestart_cxl {s : State} (linked : hostLinked s = true) :
    (beginRestart s).cxl = { regions := s.cxl.regions.map (fun e => (e.1, takenBack e.2)), directory := [], active := [], flips := [],
                             cache := [], link := .restarting } := by
  unfold beginRestart
  rw [if_neg (ne_false_of_eq_true linked), modCxl, loseHost_cxl]
  rfl

/-! ## The sweep -/

theorem mfind_mput {α : Type} (m : Map α) (k n : Nat) (v : α) : mfind (mput m k v) n = if n = k then some v else mfind m n := by
  induction m with
  | nil => simp [mput, mfind, eq_comm]
  | cons e r ih =>
    obtain ⟨j, u⟩ := e
    unfold mput
    split
    · next same =>
      subst same
      by_cases h : n = j
      · simp [mfind, h]
      · simp [mfind, h, Ne.symm h]
    · next other =>
      split
      · by_cases h : n = k
        · simp [mfind, h]
        · simp [mfind, h, Ne.symm h]
      · by_cases h : n = k
        · subst h
          simp [mfind, ih, other]
        · simp [mfind, ih, h]

/-- A value that is found stands in the map. -/
theorem mem_of_mfind {α : Type} {m : Map α} {k : Nat} {v : α} (found : mfind m k = some v) : (k, v) ∈ m := by
  induction m with
  | nil => cases found
  | cons e r ih =>
    obtain ⟨j, u⟩ := e
    unfold mfind at found
    split at found
    · next same =>
      cases found
      exact same ▸ List.mem_cons_self
    · exact List.mem_cons_of_mem _ (ih found)

/-- What one element of a list brings about, whatever stood before, and the others keep, holds at the end of a fold over the list. -/
theorem foldl_reaches {α β : Type} (P : β → Prop) (f : β → α → β) {a : α} (reach : ∀ b, P (f b a)) (keep : ∀ b x, P b → P (f b x)) :
    ∀ (l : List α) (b : β), a ∈ l → P (l.foldl f b)
  | x :: r, b, ha => by
    rw [List.foldl_cons]
    rcases List.mem_cons.1 ha with rfl | ha
    · exact foldl_keep P f keep r _ (reach b)
    · exact foldl_reaches P f reach keep r _ ha

/-- Lost tiles change neither the launches nor the security block (R336, R350). -/
theorem loseTiles_frame (s : State) (t : Tensor) : (loseTiles s t).launches = s.launches ∧ (loseTiles s t).sec = s.sec := by
  refine ite_both (fun u : State => u.launches = s.launches ∧ u.sec = s.sec) ?_ ⟨rfl, rfl⟩
  exact foldl_keep (fun u : State => u.launches = s.launches ∧ u.sec = s.sec) _
    (fun _ _ ⟨launches, sec⟩ => ⟨(devPut_launches ..).trans launches, (devPut_sec ..).trans sec⟩) _ s ⟨rfl, rfl⟩

theorem loseAllTiles_frame (s : State) (ts : List Tensor) :
    (ts.foldl loseTiles s).launches = s.launches ∧ (ts.foldl loseTiles s).sec = s.sec :=
  foldl_keep (fun u : State => u.launches = s.launches ∧ u.sec = s.sec) _
    (fun u t ⟨launches, sec⟩ => (loseTiles_frame u t).imp (·.trans launches) (·.trans sec)) ts s ⟨rfl, rfl⟩

/-- The launch swept is silent, and the others stand as they did (R351). -/
theorem mfind_sweepLaunch (s : State) (n k : Nat) :
    mfind (sweepLaunch s n).launches k = if k = n then some { launchAt s n with silent := true } else mfind s.launches k := by
  obtain ⟨launches, -⟩ := loseAllTiles_frame s (launchAt s n).tensors
  unfold sweepLaunch modLaunch
  rw [mfind_mput, launchAt_congr launches, launches]

theorem sweepLaunch_sec (s : State) (n : Nat) : (sweepLaunch s n).sec = s.sec := (loseAllTiles_frame s (launchAt s n).tensors).2

theorem dropWaiting_sec (s : State) (n : Nat) : (dropWaiting s n).sec = s.sec :=
  ite_both (fun t : State => t.sec = s.sec) (c := leAt (launchAt s n).record 24 2 % 4096 = 0) rfl rfl

/-- A launch that a number names, if any, is silent (R351). -/
def SilentAt (s : State) (k : Nat) : Prop := ∀ l, mfind s.launches k = some l → l.silent = true

theorem sweepLaunch_silences (s : State) (n : Nat) : SilentAt (sweepLaunch s n) n := by
  intro l found
  rw [mfind_sweepLaunch, if_pos rfl] at found
  cases found
  rfl

theorem sweepLaunch_keeps_silent (s : State) (n k : Nat) (silent : SilentAt s k) : SilentAt (sweepLaunch s n) k := by
  by_cases same : k = n
  · exact same ▸ sweepLaunch_silences s n
  · intro l found
    rw [mfind_sweepLaunch, if_neg same] at found
    exact silent l found

/-- A sweep of every launch that stands leaves none that is not silent (R351). -/
theorem sweepLaunches_silence (s : State) (k : Nat) : SilentAt ((s.launches.map (·.1)).foldl sweepLaunch s) k := by
  cases standing : mfind s.launches k with
  | none =>
    have silent : SilentAt s k := fun l found => nomatch standing.symm.trans found
    exact foldl_keep (SilentAt · k) _ (fun t n => sweepLaunch_keeps_silent t n k) _ s silent
  | some l =>
    exact foldl_reaches (SilentAt · k) _ (sweepLaunch_silences · k) (fun t n => sweepLaunch_keeps_silent t n k) _ s
      (List.mem_map_of_mem (mem_of_mfind standing))

/-- A queue that expects sequence 1 and has seen no command (R351). -/
structure QueueReset (s : State) (q : Nat) : Prop where
  expected : mget s.expected q 0 = 1
  lastCmd : mget s.lastCmd q 0 = 0

theorem resetQueue_resets (s : State) (q : Nat) : QueueReset (resetQueue s q) q := ⟨mget_mput_same .., mget_mdel_same ..⟩

theorem resetQueue_keeps_reset (s : State) (p q : Nat) (h : QueueReset s q) : QueueReset (resetQueue s p) q := by
  by_cases same : q = p
  · exact same ▸ resetQueue_resets s q
  · exact ⟨(mget_mput_other _ p q 1 0 same).trans h.expected, (mget_mdel_other _ p q 0 same).trans h.lastCmd⟩

/-- A change at the port resets no queue and takes none back. -/
theorem QueueReset.modCxl {s : State} {q : Nat} (h : QueueReset s q) (f : Cxl → Cxl) : QueueReset (modCxl s f) q := ⟨h.expected, h.lastCmd⟩

/-- The launches as a sweep leaves them, before the queues are reset (R350, R351). -/
def launchesSwept (s : State) : State :=
  let t := ((s.launches.filter (fun e => waiting e.2)).map (·.1)).foldl dropWaiting s
  (t.launches.map (·.1)).foldl sweepLaunch t

theorem launchesSwept_sec (s : State) : (launchesSwept s).sec = s.sec := by
  refine foldl_keep (fun t : State => t.sec = s.sec) _ (fun _ _ ht => (sweepLaunch_sec ..).trans ht) _ _ ?_
  exact foldl_keep (fun t : State => t.sec = s.sec) _ (fun _ _ ht => (dropWaiting_sec ..).trans ht) _ s rfl

theorem sweepTables_restarting {s : State} (restarting : s.cxl.link = .restarting) :
    sweepTables s = modCxl (if s.sec.boot = .opened then (List.range 16).foldl resetQueue (launchesSwept s) else launchesSwept s)
      (fun x => { x with link := .retraining }) := by
  rw [← launchesSwept_sec s]
  exact if_neg (fun other => other restarting)

theorem resetQueues_launches (s : State) (qs : List Nat) : (qs.foldl resetQueue s).launches = s.launches :=
  foldl_keep (fun t : State => t.launches = s.launches) resetQueue (fun _ _ ht => ht) qs s rfl

/-- After a sweep every launch left is silent (R351). -/
theorem sweepTables_silent {s : State} (restarting : s.cxl.link = .restarting) (k : Nat) : SilentAt (sweepTables s) k := by
  rw [sweepTables_restarting restarting]
  have swept : SilentAt (launchesSwept s) k := sweepLaunches_silence _ k
  refine ite_both (fun t => SilentAt (modCxl t _) k) ?reset swept
  case reset =>
    unfold SilentAt modCxl
    rw [resetQueues_launches]
    exact swept

/-- After a sweep every queue is reset, where the queues were opened (R351). -/
theorem sweepTables_resets {s : State} (restarting : s.cxl.link = .restarting) (opened : s.sec.boot = .opened) {q : Nat} (hq : q < 16) :
    QueueReset (sweepTables s) q := by
  rw [sweepTables_restarting restarting, if_pos opened]
  have reset := foldl_reaches (QueueReset · q) resetQueue (resetQueue_resets · q) (fun t p => resetQueue_keeps_reset t p q) (List.range 16)
    (launchesSwept s) (List.mem_range.2 hq)
  exact reset.modCxl _

/-! ## The host's port as a whole -/

theorem exec_linkRetrained {s : State} (retraining : s.cxl.link = .retraining) :
    exec .linkRetrained s = .next (modCxl (dropHostOps s) (fun x => { x with link := .linked })) := congrArg _ (if_pos retraining)

/-- Settles O40: each request is its one line's operation, an answered flip its end, and a restart and its sweep leave the port, the
launches and the queues as their own lemmas say. -/
theorem hostPortComplete : Obligations.HostPortComplete := by
  intro s a n i line data e inv
  refine ⟨fun nonempty fits inside linked first outside plain unbound => ⟨?write, ?memwr⟩, fun beyond => ?beyond, fun inside down => ?down,
    fun pos fits inside linked plain => ?read, fun f oldest alone whole linked calm below => ?counted,
    fun f oldest alone whole linked contested => ?contested, fun v held => ⟨_, exec_hostSnoop_held held inv⟩,
    fun clean => exec_hostSnoop_clean clean inv, fun linked => ⟨_, rfl, flushAll_flushes linked, fun cache directory flips owned => ?answered⟩,
    fun linked => ⟨_, rfl, rfl, ?restart⟩, fun restarting => ⟨_, rfl, ?retraining, sweepTables_silent restarting,
      fun opened q hq => ?reset⟩,
    fun retraining => ⟨exec_linkRetrained retraining, fun idle => ?idle⟩⟩
  case write =>
    rw [exec_hostWrite_linked inside linked, eachLine_oneLine _ nonempty fits, hostWriteLine_plain first plain,
      acceptWrite_unbound outside unbound]
  case memwr => rw [exec_hostMemwr_linked inside linked, eachLine_oneLine _ nonempty fits, acceptWrite_unbound outside unbound]
  case beyond => exact ⟨if_neg (Nat.not_le.2 beyond), if_neg (Nat.not_le.2 beyond), if_neg (Nat.not_le.2 beyond)⟩
  case down =>
    have off := ne_true_of_eq_false down
    exact ⟨(if_pos inside).trans (congrArg _ (if_neg off)), (if_pos inside).trans (congrArg _ (if_neg off)),
      (if_pos inside).trans (congrArg _ (if_neg off))⟩
  case read => rw [exec_hostRead_oneLine pos fits inside linked, hostReadLine_plain plain]
  case counted =>
    obtain rfl : f.region = i := by simpa using List.find?_some oldest
    have ends := endFlip_counted whole calm below
    have limit := flipLimit_le s
    refine ⟨_, exec_birsp_alone oldest alone linked ends, ?_, ?_, ends.gone⟩
    · rw [ends.entry, regState_setFlips, regState_setState]
    · rw [ends.entry, regFlips_setFlips]
      omega
  case contested =>
    obtain rfl : f.region = i := by simpa using List.find?_some oldest
    have ends := endFlip_contested whole contested
    refine ⟨_, exec_birsp_alone oldest alone linked ends, ?_, ?_, ends.gone⟩
    · rw [ends.entry, regState_setState]
    · rw [ends.entry, regFlips_setState, regFlips_setFlips]
  case answered =>
    rw [flushAll_nothing_held linked cache directory flips owned]
    rfl
  case restart =>
    rw [beginRestart_cxl linked]
    refine ⟨rfl, rfl, rfl, rfl, fun r hr => ?_⟩
    obtain ⟨w, hw, rfl⟩ := List.mem_map.1 hr
    exact ⟨regState_takenBack w.2, (takenBack_same_or_no_flips w.2).imp_left fun same => by rw [same]; exact hw⟩
  case retraining =>
    rw [sweepTables_restarting restarting]
    rfl
  case reset =>
    have reset := sweepTables_resets restarting opened hq
    exact ⟨reset.expected, reset.lastCmd⟩
  case idle => rw [exec_linkRetrained retraining, dropHostOps_idle idle]

end Sys2Proof.Machine

/-!
What a fault's entry names, what its delivery does beside the handling, and each default handling by its code (R331, R332, R353, R402, R406).
-/

namespace Sys2Proof.Machine

/-! ## A fault's entry -/

/-- A field of a concatenation that lies above its lower part. -/
theorem fld_append_high {n m lo len : Nat} (a : BitVec n) (b : BitVec m) (h : m ≤ lo) : fld (a ++ b) lo len = fld a (lo - m) len :=
  congrArg BitVec.toNat (ex_hi a b h)

/-- The lowest part of a concatenation. -/
theorem fld_append_low {n m : Nat} (a : BitVec n) (b : BitVec m) : fld (a ++ b) 0 m = b.toNat :=
  congrArg BitVec.toNat (ex_lo a b)

theorem recordOf_code (s : State) (f : Raised) : fld (recordOf s f) 116 8 = f.code % 256 := by
  simp only [recordOf, fld_append_high, fld_append_low, Nat.reduceLeDiff, Nat.reduceSub, BitVec.toNat_ofNat, Nat.reducePow]

/-- The Yard, Stable and side fields of a record make the low eight bits of the Stall's number (R2, R403). -/
theorem recordOf_stall (s : State) (f : Raised) :
    fld (recordOf s f) 113 3 * 32 + fld (recordOf s f) 106 4 * 2 + fld (recordOf s f) 105 1 = stallOf f.ctx % 256 := by
  simp only [recordOf, fld_append_high, fld_append_low, Nat.reduceLeDiff, Nat.reduceSub, BitVec.toNat_ofNat]
  omega

theorem recordOf_slot (s : State) (f : Raised) : fld (recordOf s f) 104 1 = slotOf f.ctx := by
  simp only [recordOf, fld_append_high, fld_append_low, Nat.reduceLeDiff, Nat.reduceSub, BitVec.toNat_ofNat]
  exact Nat.mod_mod ..

/-- Whatever stands above them, a fault's detail ends in its slot, bundle index and context cycle (R406). -/
theorem detailOf_low (f : Raised) :
    ∃ top : BitVec 40, detailOf f = top ++ BitVec.ofNat 8 f.slot ++ BitVec.ofNat 16 f.pc ++ BitVec.ofNat 64 f.cycle := by
  unfold detailOf
  dsimp only
  split
  · exact ⟨_, rfl⟩
  · exact ⟨_, rfl⟩

theorem detailOf_cycle (f : Raised) : fld (detailOf f) 0 64 = f.cycle % 2 ^ 64 := by
  obtain ⟨top, h⟩ := detailOf_low f
  rw [h, fld_append_low, BitVec.toNat_ofNat]

theorem detailOf_pc (f : Raised) : fld (detailOf f) 64 16 = f.pc % 2 ^ 16 := by
  obtain ⟨top, h⟩ := detailOf_low f
  simp only [h, fld_append_high, fld_append_low, Nat.reduceLeDiff, Nat.reduceSub, BitVec.toNat_ofNat, Nat.reducePow]

theorem detailOf_slot (f : Raised) : fld (detailOf f) 80 8 = f.slot % 256 := by
  obtain ⟨top, h⟩ := detailOf_low f
  simp only [h, fld_append_high, fld_append_low, Nat.reduceLeDiff, Nat.reduceSub, BitVec.toNat_ofNat, Nat.reducePow]

/-! ## The delivery of a fault -/

theorem exhausted_ctx (s : State) (g : Raised) : (exhausted s g).ctx = g.ctx := by
  unfold exhausted; dsimp only; repeat' split
  all_goals rfl

theorem exhausted_entry (s : State) (g : Raised) : (exhausted s g).entry = g.entry := by
  unfold exhausted; dsimp only; repeat' split
  all_goals rfl

theorem exhausted_code_ne {s : State} {g : Raised} (h : g.code ≠ 0x14) : (exhausted s g).code ≠ 0x14 := by
  unfold exhausted; dsimp only; repeat' split
  · nofun
  · exact h
  · exact h

/-- The state that takes a fault: a fault that keeps its launch drops its context's capture, and poison that the bundle consumed is rewritten
(R384, R391). -/
def caught (s : State) (f : Raised) : State :=
  foundHere (if f.code = 0x20 ∨ f.code = 0x21 ∨ f.code = 0x22 ∨ f.code = 0x30 then dropCapture s f.ctx else s) f

theorem dropCapture_frame (s : State) (c : Nat) : dropCapture s c = { s with rel := (dropCapture s c).rel } := by
  unfold dropCapture; repeat' split
  all_goals rfl

theorem foundHere_frame (s : State) (f : Raised) : foundHere s f = { s with marks := (foundHere s f).marks } := by
  unfold foundHere; split <;> rfl

/-- Catching a fault changes the reliability tables and the marks alone. -/
theorem caught_frame (s : State) (f : Raised) : caught s f = { s with rel := (caught s f).rel, marks := (caught s f).marks } := by
  unfold caught
  rw [foundHere_frame]
  split
  · rw [dropCapture_frame]
  · rfl

theorem entryOf_caught {s : State} {f : Raised} (own : f.entry = none) : entryOf (caught s f) f = ⟨recordOf s f, detailOf f⟩ := by
  rw [caught_frame, entryOf, own]
  rfl

/-- The state in which a fault that has found a free entry is handled: its entry placed and event 0 set (R332, R353, R409). -/
def entered (s : State) (f : Raised) : State :=
  postEvent { s with rel := (caught s f).rel, marks := (caught s f).marks, fbuf := s.fbuf ++ [⟨recordOf s f, detailOf f⟩] } 0

theorem entered_event (s : State) (f : Raised) : bit (ioCsr (entered s f) 0x8C0) 0 = true := by
  simp [entered, postEvent, bit]

/-- A context held on a fault (R331, R332). -/
def heldAt (code : Nat) (x : Ctx) : Ctx := { x with status := .held code }

theorem takeFault_replaying {s : State} {g : Raised} (replays : replaying s g.ctx = true) : takeFault s g = endRun s g.ctx none :=
  if_pos replays

section
variable {s : State} {g : Raised} (code : g.code ≠ 0x14) (own : replaying s g.ctx = false)
include code own

/-- A context's fault other than a launch refusal finds a free entry or is held (R353). -/
theorem takeFault_own : takeFault s g =
    let f := exhausted s g
    let v := caught s f
    if v.fbuf.length < 1024 then handleFault (postEvent { v with fbuf := v.fbuf ++ [entryOf v f] } 0) f
    else modCtx { v with heldFaults := v.heldFaults ++ [f], fbOverflow := true, heldTotal := min 65535 (v.heldTotal + 1) } f.ctx (heldAt f.code) := by
  unfold takeFault
  rw [if_neg (ne_true_of_eq_false own)]
  exact if_neg (exhausted_code_ne code)

theorem takeFault_entered (context : g.entry = none) (room : s.fbuf.length < 1024) :
    takeFault s g = handleFault (entered s (exhausted s g)) (exhausted s g) := by
  have entry := entryOf_caught (s := s) ((exhausted_entry s g).trans context)
  rw [takeFault_own code own]
  dsimp only
  rw [entry, caught_frame]
  exact if_pos room

theorem takeFault_held (full : 1024 ≤ s.fbuf.length) : takeFault s g =
    let f := exhausted s g
    modCtx { s with rel := (caught s f).rel, marks := (caught s f).marks, heldFaults := s.heldFaults ++ [f], fbOverflow := true,
                    heldTotal := min 65535 (s.heldTotal + 1) } f.ctx (heldAt f.code) := by
  rw [takeFault_own code own]
  dsimp only
  rw [caught_frame]
  exact if_neg (Nat.not_lt.2 full)

end

/-! ## The end of a launch -/

theorem ctxOf_dropCapture (s : State) (c d : Nat) : ctxOf (dropCapture s c) d = ctxOf s d := (dropCapture_sameRun s c).ctxOf d

/-- A context of a launch that ends: its capture dropped, and frozen with nothing that its segment held (R318). -/
def endCtx (s : State) (c : Nat) : State := modCtx (dropCapture s c) c (fun x => { dropHeld x with status := .ended })

theorem status_endCtx (s : State) (c : Nat) : (ctxOf (endCtx s c) c).status = .ended := by
  rw [endCtx, ctxOf_modCtx_self]

theorem endCtx_keeps_ended {s : State} {c : Nat} (d : Nat) (h : (ctxOf s c).status = .ended) : (ctxOf (endCtx s d) c).status = .ended := by
  by_cases same : c = d
  · exact same ▸ status_endCtx s d
  · rw [endCtx, ctxOf_modCtx_other _ _ _ c same, ctxOf_dropCapture]
    exact h

section
variable {s : State} {n : Nat} (running : (launchAt s n).state = .running) (status code stall slot pc : Nat)
include running

/-- A running launch that ends freezes each of its contexts, then has its state, status and fault set (R318, R332). -/
theorem endLaunch_running : ∃ top, endLaunch s n status code stall slot pc = modLaunch ((launchHeld s n).foldl endCtx s) n (fun l =>
    { l with state := .ending, status := status, fault := code, faultStall := stall, faultSlot := slot, faultPc := pc, maxCycle := top }) := by
  have live : ¬ ((launchAt s n).state = .ended ∨ (launchAt s n).state = .ending) := by rw [running]; decide
  exact ⟨_, if_neg live⟩

theorem launchAt_endLaunch_running : ∃ l, launchAt (endLaunch s n status code stall slot pc) n = l ∧
    l.state = .ending ∧ l.status = status ∧ l.fault = code ∧ l.faultPc = pc := by
  obtain ⟨top, ended⟩ := endLaunch_running running status code stall slot pc
  rw [ended, launchAt_modLaunch, if_pos rfl]
  exact ⟨_, rfl, rfl, rfl, rfl, rfl⟩

theorem status_endLaunch_running {c : Nat} (held : c ∈ launchHeld s n) :
    (ctxOf (endLaunch s n status code stall slot pc) c).status = .ended := by
  obtain ⟨top, ended⟩ := endLaunch_running running status code stall slot pc
  rw [ended, ctxOf_modLaunch]
  exact foldl_reaches (fun t => (ctxOf t c).status = .ended) endCtx (fun t => status_endCtx t c) (fun _ d => endCtx_keeps_ended d) _ s held

end

/-- Holding a context takes none out of its launch. -/
theorem mem_launchHeld_held {s : State} {n c : Nat} (d code : Nat) (held : c ∈ launchHeld s n) :
    c ∈ launchHeld (modCtx s d (heldAt code)) n := by
  unfold launchHeld at held ⊢
  rw [launchAt_modCtx]
  obtain ⟨placed, present⟩ := List.mem_filter.1 held
  refine List.mem_filter.2 ⟨placed, ?_⟩
  by_cases same : c = d
  · subst same
    simpa [heldAt] using (Bool.and_eq_true_iff.1 present).1
  · rw [ctxOf_modCtx_other _ _ _ c same]
    exact present

/-! ## What every handling leaves -/

/-- The fault buffer, the faults held for it and the I/O die's registers agree in two states. -/
structure SameFaults (t s : State) : Prop where
  fbuf : t.fbuf = s.fbuf
  heldFaults : t.heldFaults = s.heldFaults
  iocsr : t.iocsr = s.iocsr

theorem SameFaults.trans {t u s : State} (h : SameFaults t u) (k : SameFaults u s) : SameFaults t s :=
  ⟨h.fbuf.trans k.fbuf, h.heldFaults.trans k.heldFaults, h.iocsr.trans k.iocsr⟩

theorem endCtx_sameFaults (s : State) (c : Nat) : SameFaults (endCtx s c) s := by
  rw [endCtx, dropCapture_frame]
  exact ⟨rfl, rfl, rfl⟩

theorem endLaunch_sameFaults (s : State) (n status code stall slot pc : Nat) : SameFaults (endLaunch s n status code stall slot pc) s := by
  have ended : SameFaults ((launchHeld s n).foldl endCtx s) s :=
    foldl_keep (SameFaults · s) endCtx (fun t c h => (endCtx_sameFaults t c).trans h) _ s ⟨rfl, rfl, rfl⟩
  exact ite_both (SameFaults · s) ⟨rfl, rfl, rfl⟩ ⟨ended.fbuf, ended.heldFaults, ended.iocsr⟩

theorem holdMended_sameFaults (s : State) (f : Raised) : SameFaults (holdMended s f) s :=
  ite_both (SameFaults · s) ⟨rfl, rfl, rfl⟩ ⟨rfl, rfl, rfl⟩

theorem handleFault_sameFaults (s : State) (f : Raised) : SameFaults (handleFault s f) s :=
  ite_both (SameFaults · s) ⟨rfl, rfl, rfl⟩ <| ite_both (SameFaults · s) ⟨rfl, rfl, rfl⟩ <| ite_both (SameFaults · s) ⟨rfl, rfl, rfl⟩ <|
    ite_both (SameFaults · s) ((endLaunch_sameFaults ..).trans ⟨rfl, rfl, rfl⟩) <|
    ite_both (SameFaults · s) ⟨rfl, rfl, rfl⟩ (holdMended_sameFaults s f)

/-! ## The default handling of each code -/

section
variable {s : State} {f : Raised}

theorem handleFault_trap (h : f.code = 0x20) :
    handleFault s f = enterService (withhold (modCtx s f.ctx unhold) f.ctx) f.ctx 0x20 0 0 := if_pos h

theorem handleFault_call (h : f.code = 0x21) : handleFault s f = enterService (modCtx s f.ctx unhold) f.ctx 0x21 f.info 0 :=
  have trap : ¬ f.code = 0x20 := by omega
  (if_neg trap).trans (if_pos h)

theorem handleFault_ends (h : endsLaunch f.code = true) : handleFault s f =
    endLaunch (modCtx s f.ctx (heldAt f.code)) (ctxOf s f.ctx).launch 1 f.code (stallOf f.ctx) (slotOf f.ctx) f.pc := by
  have ne {n : Nat} (kept : endsLaunch n = false) : ¬ f.code = n := fun e => Bool.noConfusion (kept.symm.trans (e ▸ h))
  exact (if_neg (ne rfl)).trans <| (if_neg (ne rfl)).trans <| (if_neg (ne rfl)).trans <| (if_pos (.inl h)).trans <|
    congrArg (endLaunch _ _ _ _ _ _) (if_neg (ne rfl))

/-- The launch of a fault that ends it leaves its running state with that fault's place, and every context it held has ended (R331, R332). -/
theorem handleFault_ends_running (ends : endsLaunch f.code = true) (running : (launchAt s (ctxOf s f.ctx).launch).state = .running) :
    let n := (ctxOf s f.ctx).launch
    (launchAt (handleFault s f) n).state = .ending ∧ (launchAt (handleFault s f) n).status = 1 ∧ (launchAt (handleFault s f) n).fault = f.code ∧
      (launchAt (handleFault s f) n).faultPc = f.pc ∧ ∀ c ∈ launchHeld s n, (ctxOf (handleFault s f) c).status = .ended := by
  intro n
  rw [handleFault_ends ends]
  obtain ⟨_, rfl, state, status, fault, pc⟩ := launchAt_endLaunch_running
    (s := modCtx s f.ctx (heldAt f.code)) running 1 f.code (stallOf f.ctx) (slotOf f.ctx) f.pc
  exact ⟨state, status, fault, pc, fun c held => status_endLaunch_running
    (s := modCtx s f.ctx (heldAt f.code)) running _ _ _ _ _ (mem_launchHeld_held f.ctx f.code held)⟩

/-- A fault that is rewound or held to be mended ends no launch (R331, R396). -/
theorem not_ending (h : f.code = 0x30 ∨ f.code = 0x07 ∨ f.code = 0x22 ∨ f.code = 0x10 ∨ f.code = 0x09 ∧ f.info < 4096) :
    ¬ (endsLaunch f.code = true ∨ f.code = 0x09 ∧ 4096 ≤ f.info) := by
  rintro (ends | ⟨mismatch, unknown⟩)
  · have kept : endsLaunch f.code = false := by rcases h with h | h | h | h | ⟨h, -⟩ <;> rw [h] <;> decide
    exact Bool.noConfusion (kept.symm.trans ends)
  · omega

theorem handleFault_rewind (h : f.code = 0x30) : handleFault s f = modCtx s f.ctx (freezeRun f) := by
  have other : ¬ f.code = 0x20 ∧ ¬ f.code = 0x21 ∧ ¬ f.code = 0x40 := by omega
  obtain ⟨trap, call, hang⟩ := other
  exact (if_neg trap).trans <| (if_neg call).trans <| (if_neg hang).trans <| (if_neg (not_ending (.inl h))).trans (if_pos h)

theorem handleFault_mended (h : f.code = 0x07 ∨ f.code = 0x22 ∨ f.code = 0x10 ∨ f.code = 0x09 ∧ f.info < 4096) :
    handleFault s f = holdMended s f := by
  have other : ¬ f.code = 0x20 ∧ ¬ f.code = 0x21 ∧ ¬ f.code = 0x40 ∧ ¬ f.code = 0x30 := by omega
  obtain ⟨trap, call, hang, consumed⟩ := other
  exact (if_neg trap).trans <| (if_neg call).trans <| (if_neg hang).trans <| (if_neg (not_ending (.inr h))).trans (if_neg consumed)

/-- A hang's context runs on where it was held for the fault alone (R276). -/
def waitsOn (x : Ctx) : Ctx := if x.status = .held 0x40 then unhold x else x

theorem handleFault_hang (h : f.code = 0x40) : handleFault s f =
    { modCtx s f.ctx waitsOn with agenda := .record f.ctx f.info :: s.agenda, hangSlot := (f.info + 1) % 16 } := by
  have other : ¬ f.code = 0x20 ∧ ¬ f.code = 0x21 := by omega
  obtain ⟨trap, call⟩ := other
  refine (if_neg trap).trans <| (if_neg call).trans <| (if_pos h).trans <| congrArg (fun g =>
    { modCtx s f.ctx g with agenda := .record f.ctx f.info :: s.agenda, hangSlot := (f.info + 1) % 16 }) (funext fun x => ?_)
  unfold waitsOn
  split
  · next held => exact (if_pos held).symm
  · next other => exact (if_neg other).symm

/-- A context held on a fault that firmware mends (R331). -/
def mendHeld (f : Raised) (x : Ctx) : Ctx := { x with status := .held f.code, missed := if f.code = 0x09 then some f.info else x.missed }

theorem holdMended_unasked (h : ¬ ((f.code = 0x09 ∨ f.code = 0x10) ∧ (ctxOf s f.ctx).request ≠ 0)) :
    holdMended s f = modCtx s f.ctx (mendHeld f) := if_neg h

theorem holdMended_asked (h : f.code = 0x09 ∨ f.code = 0x10) (asked : (ctxOf s f.ctx).request ≠ 0) : holdMended s f =
    enterService (modCtx (modCtx s f.ctx (mendHeld f)) f.ctx (fun x => { x with request := 0 })) f.ctx 0x02 0 (ctxOf s f.ctx).request :=
  if_pos ⟨h, asked⟩

/-- A context held on a checksum mismatch or a probe miss has its posted request, if any, served at once (R329, R331, log 56). -/
theorem ctxOf_holdMended (h : f.code = 0x09 ∨ f.code = 0x10) : ∃ x, ctxOf (holdMended s f) f.ctx = x ∧ x.status = .held f.code ∧
    x.inSvc = ((ctxOf s f.ctx).inSvc || (ctxOf s f.ctx).request != 0) ∧ x.request = 0 ∧
    x.missed = if f.code = 0x09 then some f.info else (ctxOf s f.ctx).missed := by
  by_cases asked : (ctxOf s f.ctx).request = 0
  · rw [holdMended_unasked (fun served => served.2 asked), ctxOf_modCtx_self]
    exact ⟨_, rfl, rfl, by simp [asked, mendHeld], asked, rfl⟩
  · rw [holdMended_asked h asked, ctxOf_enterService_served, ctxOf_modCtx_self, ctxOf_modCtx_self]
    exact ⟨_, rfl, rfl, by simp [asked], rfl, rfl⟩

theorem ctxOf_holdMended_other {d : Nat} (away : d ≠ f.ctx) (unserving : d ≠ f.ctx + 1) : ctxOf (holdMended s f) d = ctxOf s d := by
  have held : ctxOf (modCtx s f.ctx (mendHeld f)) d = ctxOf s d := ctxOf_modCtx_other _ _ _ d away
  unfold holdMended
  refine ite_both (fun t => ctxOf t d = ctxOf s d) ?_ held
  rw [ctxOf_enterService_other _ _ _ _ _ d away unserving, ctxOf_modCtx_other _ _ _ d away]
  exact held

/-- A service context entered for a fault runs from its first bundle, and only it and the context it serves change (R328). -/
theorem enterService_handles {u : State} {c cause code : Nat} (others : ∀ d, d ≠ c → ctxOf u d = ctxOf s d) :
    let t := enterService u c cause code 0
    (ctxOf t c).inSvc = true ∧ (ctxOf t (c + 1)).status = .running ∧ (ctxOf t (c + 1)).pc = 0 ∧
      ∀ d, d ≠ c → d ≠ c + 1 → ctxOf t d = ctxOf s d := by
  intro t
  have service := ctxOf_enterService_service u c cause code 0
  exact ⟨by rw [ctxOf_enterService_served], by rw [service]; rfl, by rw [service]; rfl,
    fun d away unserving => (ctxOf_enterService_other u c cause code 0 d away unserving).trans (others d away)⟩

end

/-! ## Faults as a whole -/

theorem step_record {s : State} {c n : Nat} {r : List Work} (h : s.agenda = .record c n :: r) :
    step s = .next (writeHang { s with agenda := r } c n) := by
  unfold step; rw [h]; rfl

theorem exec_hangTimeout {s : State} {c : Nat} (waits : (ctxOf s c).wait ≠ .none) (past : 2 ^ fld (ioCsr s 0x832) 0 6 < (ctxOf s c).waited) :
    exec (.hangTimeout c) s =
      .next (postFault s (raisedAt s c 0x40 s.hangSlot (waitSlot s c) (ctxOf s c).pc (ctxOf s c).ccycle)) :=
  congrArg _ (if_neg (not_or.2 ⟨waits, Nat.not_le.2 past⟩))

/-- Settles O59: a fault is handled by its code once entered, in a state that differs by its entry and event 0 alone, or held whole. -/
theorem faultsAreTaken : Obligations.FaultsAreTaken := by
  refine ⟨fun s g refusal context => ?_, fun s c n r => ⟨exec_hangTimeout, step_record⟩⟩
  intro f t l
  refine ⟨takeFault_replaying, fun own room => ?entry, fun own full => ?held⟩
  case entry =>
    have taken : t = handleFault (entered s f) f := takeFault_entered refusal own context room
    have same := handleFault_sameFaults (entered s f) f
    rw [taken]
    refine ⟨same.fbuf, ?event, same.heldFaults, recordOf_code s f, recordOf_stall s f, recordOf_slot s f, detailOf_cycle f, detailOf_pc f,
      detailOf_slot f, handleFault_ends_running (s := entered s f), fun firmware => ?firmware, fun miss asked => ?asked,
      fun hang => ?hang, fun mismatch known => ?mismatch, fun trap => ?trap, fun consumed => ?rewind, fun call => ?call⟩
    case event => rw [ioCsr, same.iocsr]; exact entered_event s f
    case firmware =>
      have unasked : ¬ ((f.code = 0x09 ∨ f.code = 0x10) ∧ (ctxOf s f.ctx).request ≠ 0) := by
        rintro ⟨mended, asked⟩
        rcases firmware with h | h | ⟨-, idle⟩
        · omega
        · omega
        · exact asked idle
      rw [handleFault_mended (firmware.imp_right (.imp_right fun h => .inl h.1)), holdMended_unasked (s := entered s f) unasked]
      exact ⟨by rw [ctxOf_modCtx_self]; rfl, ctxOf_modCtx_other (entered s f) f.ctx _⟩
    case asked =>
      rw [handleFault_mended (.inr (.inr (.inl miss)))]
      obtain ⟨_, rfl, status, inSvc, request, _⟩ := ctxOf_holdMended (s := entered s f) (.inr miss)
      exact ⟨status, inSvc.trans (by simpa using .inr asked), request⟩
    case hang =>
      rw [handleFault_hang hang]
      exact ⟨rfl, rfl, ctxOf_modCtx_other (entered s f) f.ctx _, ctxOf_modCtx_self (entered s f) f.ctx _⟩
    case mismatch =>
      rw [handleFault_mended (.inr (.inr (.inr ⟨mismatch, known⟩)))]
      obtain ⟨_, rfl, status, inSvc, request, missed⟩ := ctxOf_holdMended (s := entered s f) (.inl mismatch)
      exact ⟨status, inSvc, request, missed.trans (if_pos mismatch), fun d => ctxOf_holdMended_other⟩
    case trap =>
      rw [handleFault_trap trap]
      obtain ⟨inSvc, running, pc, others⟩ := enterService_handles (s := s) (cause := 0x20) (code := 0)
        (u := withhold (modCtx (entered s f) f.ctx unhold) f.ctx) (ctxOf_modCtx_other (entered s f) f.ctx unhold)
      exact ⟨inSvc, running, pc, svcause_enterService .., others⟩
    case rewind =>
      rw [handleFault_rewind consumed]
      exact ⟨ctxOf_modCtx_self (entered s f) f.ctx _, ctxOf_modCtx_other (entered s f) f.ctx _⟩
    case call =>
      rw [handleFault_call call]
      exact enterService_handles (ctxOf_modCtx_other (entered s f) f.ctx unhold)
  case held =>
    have taken : t = _ := takeFault_held refusal own full
    rw [taken]
    exact ⟨rfl, rfl, rfl, rfl, by rw [ctxOf_modCtx_self]; rfl, ctxOf_modCtx_other _ _ _, rfl, rfl⟩

end Sys2Proof.Machine

/-!
A requantisation job by its operation: what it reads, its result code, what it writes, and its end (R340 to R343, R409).
-/

namespace Sys2Proof.Machine

/-! ## The job in hand -/

/-- Without region entries no device access waits at the port (R346). -/
theorem deviceGate_plain {s : State} (plain : s.cxl.regions = []) (ranges : List (Nat × Nat)) (wr : Bool) (w : PortWait) :
    deviceGate s ranges wr w = none := if_pos (by rw [plain]; rfl)

section
variable {s : State} {r op : Nat} (waits : s.rqDone = none) (named : devLe s (r + 12) 1 = op) (known : op ≠ 0)
include waits named known

/-- A job whose operation is the one run is neither done nor another's. -/
theorem job_ready : ¬ (s.rqDone.isSome ∨ op = 0 ∨ devLe s (r + 12) 1 ≠ op) := by
  rintro (done | zero | other)
  · rw [waits] at done
    cases done
  · exact known zero
  · exact other named

variable (job : s.rqJob = some r)
include job

theorem runJob_reserved (reserved : devLe s (r + 13) 3 ≠ 0) : runJob s op = { s with rqDone := some 6 } := by
  unfold runJob
  simp only [job]
  exact (if_neg (job_ready waits named known)).trans (if_pos reserved)

/-- With its reserved fields clear and no region in the way a job performs on the record's table, tile and two fields (R340). -/
theorem runJob_performs (clear : devLe s (r + 13) 3 = 0) (plain : s.cxl.regions = []) :
    runJob s op = performJob s (jobTensor s (devLe s r 8) (devLe s (r + 8) 4)) op (devLe s r 8) (devLe s (r + 8) 4) (devLe s (r + 16) 8)
      (devLe s (r + 24) 8) := by
  unfold runJob
  simp only [job, deviceGate_plain plain]
  exact (if_neg (job_ready waits named known)).trans (if_neg (not_not_intro clear))

end

/-! ## What an operation answers -/

/-- A job carried out: its result code is held until the job ends (R340). -/
def rqCarried (u : State) (code : Nat) : State := { u with rqDone := some code, fresh := u.fresh + 1 }

/-- The operation alone, on the state that its read of the source leaves. -/
def rqAnswer (u : State) (t : Tensor) (op i a b : Nat) : State × Nat :=
  match op with
  | 1 => jobCompact u t i a b
  | 2 => jobExpand u t i a
  | 3 => jobMove u t i a
  | 4 => jobAbsent u t i
  | _ => jobResident u t i a

section
variable {s u : State} {t : Tensor} {op table i a b : Nat}

/-- A job that performs reads its source, makes its operation's answer, and records one that encodes a tile anew (R404). -/
theorem performJob_eq : performJob s t op table i a b =
    let p := rqAnswer (readSource s t i op) t op i a b
    rqCarried (if p.2 = 0 ∧ op ≤ 2 then tileRecord p.1 (op + 1) table i op 0 else p.1) p.2 := rfl

/-- A refused job, or one that is neither a compaction nor an expansion, leaves no service-action record (R404). -/
theorem performJob_unrecorded {code : Nat} (answer : rqAnswer (readSource s t i op) t op i a b = (u, code)) (silent : code ≠ 0 ∨ 2 < op) :
    performJob s t op table i a b = rqCarried u code := by
  have unrecorded : ¬ (code = 0 ∧ op ≤ 2) := by omega
  simp only [performJob_eq, answer, if_neg unrecorded]

/-- A compaction or an expansion that succeeds is recorded (R404). -/
theorem performJob_recorded (answer : rqAnswer (readSource s t i op) t op i a b = (u, 0)) (encodes : op ≤ 2) :
    performJob s t op table i a b = rqCarried (tileRecord u (op + 1) table i op 0) 0 := by
  simp [performJob_eq, answer, encodes]

/-- Only a resident tile's words are read: a job on any other, or one that reads no tile, finds the state as it stands (log 142). -/
theorem readSource_unread (unread : 3 < op ∨ tileState s t i ≠ 1) : readSource s t i op = s := if_pos unread

/-- A dead tile reads as zeros (R338, R341). -/
theorem tileElems_dead (dead : tileState s t i = 2) : tileElems s t i = List.replicate 65536 0 := if_pos dead

/-! ## Each operation by its outcome

A job reads its tile in the state `u` that its read of the source leaves, which has the tables and the memory of `s`. -/

variable (run : SameRun u s)
include run

theorem jobCompact_wrongTile (wrong : (tileState s t i ≠ 1 ∧ tileState s t i ≠ 2) ∨ entEnc (entryWord s t.table i 0) ≠ 0) :
    jobCompact u t i a b = (u, 2) := by
  rw [← run.tileState, ← run.entryWord] at wrong
  exact if_pos wrong

theorem jobExpand_wrongTile (wrong : (tileState s t i ≠ 1 ∧ tileState s t i ≠ 2) ∨ entEnc (entryWord s t.table i 0) ≠ 1) :
    jobExpand u t i a = (u, 2) := by
  rw [← run.tileState, ← run.entryWord] at wrong
  exact if_pos wrong

theorem jobMove_wrongTile (wrong : tileState s t i ≠ 1 ∧ tileState s t i ≠ 2) : jobMove u t i a = (u, 2) := by
  rw [← run.tileState] at wrong
  exact if_pos wrong

section
variable (live : tileState s t i = 1 ∨ tileState s t i = 2)
include live

/-- The move of a live tile by what `s` holds (R340). -/
theorem jobMove_live : jobMove u t i a =
    let w0 := entryWord s t.table i 0
    let w1 := entryWord s t.table i 1
    if a % (if entEnc w0 = 1 then 32768 else 65536) ≠ 0 then (u, 5)
    else
      let n := frameBytes t w0 w1
      let v := memWrite u t a (memRead s t (entFrame w0) n) (List.replicate n 255)
      (writeEntry (if t.kind = 2 then copyMarks v 0x19 (entFrame w0) a n else copyMarks v 0x18 (devAddr (entFrame w0)) (devAddr a) n) t.table i
        (tileState s t i) (entEnc w0) a (entScales w1), 0) := by
  have right : ¬ (tileState s t i ≠ 1 ∧ tileState s t i ≠ 2) := by omega
  unfold jobMove
  simp only [run.tileState, run.entryWord, run.memRead, if_neg right]

/-- The expansion of a live compact tile by what `s` holds (R343). -/
theorem jobExpand_live (packed : entEnc (entryWord s t.table i 0) = 1) : jobExpand u t i a =
    let w0 := entryWord s t.table i 0
    let w1 := entryWord s t.table i 1
    if a % 65536 ≠ 0 then (u, 5)
    else
      let v := devPut u a (if tileState s t i = 2 then List.replicate 65536 0 else compactRead s t.fmt (entFrame w0) (entScales w1) 0 65536)
      (writeEntry (if tileState s t i = 2 then v else poisonBlocks u v (packedBlock (entFrame w0) (entScales w1)) (plainBlock a)) t.table i
        (tileState s t i) 0 a 0, 0) := by
  have right : ¬ ((tileState s t i ≠ 1 ∧ tileState s t i ≠ 2) ∨ entEnc (entryWord s t.table i 0) ≠ 1) := by omega
  unfold jobExpand
  simp only [run.tileState, run.entryWord, run.compactRead, if_neg right]

/-- The compaction of a live tile of encoding 0 by what `s` holds (R341, R342). -/
theorem jobCompact_live (plain : entEnc (entryWord s t.table i 0) = 0) : jobCompact u t i a b =
    if requantisable s t.table = false then (u, 4)
    else if a % 2048 ≠ 0 ∨ b % 32768 ≠ 0 then (u, 5)
    else if (tileElems s t i).any (fun x => notFinite (decodeElem t.fmt x.toNat)) then (u, 3)
    else
      let v := writeCompact u t.fmt b a (tileElems s t i)
      (writeEntry (if tileState s t i = 2 then v else poisonBlocks u v (plainBlock (entFrame (entryWord s t.table i 0))) (packedBlock b a)) t.table i
        (tileState s t i) 1 b a, 0) := by
  have right : ¬ ((tileState s t i ≠ 1 ∧ tileState s t i ≠ 2) ∨ entEnc (entryWord s t.table i 0) ≠ 0) := by omega
  unfold jobCompact
  simp only [run.tileState, run.entryWord, run.requantisable, run.tileElems, if_neg right, Bool.not_eq_true']

end
end

/-! ## Jobs as a whole -/

theorem exec_rqJobEnd_done {s : State} {r code : Nat} (job : s.rqJob = some r) (done : s.rqDone = some code) :
    exec .rqJobEnd s = .next (postEvent { s with rqJob := none, rqDone := none, rqResult := code } 2) := by
  show Host.Outcome.next (endJobRecord s) = _
  unfold endJobRecord
  rw [job, done]

/-- Settles O42: a job performs its own operation on the state that its read of the source leaves, and each outcome is that operation's. -/
theorem requantJobsComplete : Obligations.RequantJobsComplete := by
  intro s r op table i a b t st w0 w1 live done ins
  refine ⟨fun job waits plain low high => ?_, fun code job ended => exec_rqJobEnd_done job ended⟩
  have named : devLe s (r + 12) 1 = op := rfl
  clear_value op
  have known : op ≠ 0 := Nat.pos_iff_ne_zero.1 low
  have runs : exec (ins op) s = .next (runJob s op) := by interval_cases op <;> rfl
  refine ⟨fun reserved => by rw [runs, runJob_reserved waits named known job reserved], fun clear => ?_⟩
  rw [runJob_performs waits named known job clear plain] at runs
  have run := readSource_run s t i op
  have unrecorded : ∀ {u code}, rqAnswer (readSource s t i op) t op i a b = (u, code) → code ≠ 0 ∨ 2 < op →
      exec (ins op) s = .next (rqCarried u code) := fun answer silent => runs.trans (congrArg _ (performJob_unrecorded answer silent))
  have recorded : ∀ {u}, rqAnswer (readSource s t i op) t op i a b = (u, 0) → op ≤ 2 →
      exec (ins op) s = .next (rqCarried (tileRecord u (op + 1) table i op 0) 0) :=
    fun answer encodes => runs.trans (congrArg _ (performJob_recorded answer encodes))
  refine ⟨?compact, tileElems_dead, ?notCompacted, ?expand, ?move, ?encoding, ?absent, ?pinned, ?resident, ?state⟩
  case compact =>
    rintro rfl alive enc allowed frame scales finite
    have aligned : ¬ (a % 2048 ≠ 0 ∨ b % 32768 ≠ 0) := by omega
    refine recorded ((jobCompact_live run alive enc).trans ?_) (by decide)
    rw [if_neg (by simp [allowed]), if_neg aligned, if_neg (ne_true_of_eq_false finite)]
  case notCompacted =>
    rintro rfl alive enc
    have answer := jobCompact_live (a := a) (b := b) run alive enc
    refine ⟨fun forbidden => unrecorded (answer.trans (if_pos forbidden)) (.inl (by decide)), fun allowed misaligned => ?_,
      fun allowed frame scales infinite => ?_⟩
    · refine unrecorded (answer.trans ?_) (.inl (by decide))
      rw [if_neg (by simp [allowed]), if_pos misaligned]
    · have aligned : ¬ (a % 2048 ≠ 0 ∨ b % 32768 ≠ 0) := by omega
      refine unrecorded (answer.trans ?_) (.inl (by decide))
      rw [if_neg (by simp [allowed]), if_neg aligned, if_pos infinite]
  case expand =>
    rintro rfl alive enc
    have answer := jobExpand_live (a := a) run alive enc
    exact ⟨fun aligned => recorded (answer.trans (if_neg (not_not_intro aligned))) (by decide),
      fun misaligned => unrecorded (answer.trans (if_pos misaligned)) (.inl (by decide))⟩
  case move =>
    rintro rfl alive
    have answer := jobMove_live (a := a) run alive
    exact ⟨fun aligned => unrecorded (answer.trans (if_neg (not_not_intro aligned))) (.inr (by decide)),
      fun misaligned => unrecorded (answer.trans (if_pos misaligned)) (.inl (by decide))⟩
  case encoding =>
    rintro (⟨rfl, enc⟩ | ⟨rfl, enc⟩) -
    · exact unrecorded (jobCompact_wrongTile run (.inr enc)) (.inl (by decide))
    · exact unrecorded (jobExpand_wrongTile run (.inr enc)) (.inl (by decide))
  case absent =>
    rintro rfl present unpinned
    rw [readSource_unread (.inl (by decide))] at unrecorded
    exact unrecorded ((if_neg present).trans (if_neg (not_not_intro unpinned))) (.inr (by decide))
  case pinned =>
    rintro rfl present pins
    rw [readSource_unread (.inl (by decide))] at unrecorded
    exact unrecorded ((if_neg present).trans (if_pos pins)) (.inr (by decide))
  case resident =>
    rintro rfl gone aligned
    have right : ¬ (st ≠ 0 ∧ st ≠ 3) := by omega
    rw [readSource_unread (.inl (by decide))] at unrecorded
    exact unrecorded ((if_neg right).trans (if_neg (not_not_intro aligned))) (.inr (by decide))
  case state =>
    intro wrong
    have unread : 3 < op ∨ st ≠ 1 := by omega
    rw [readSource_unread unread] at unrecorded
    rcases wrong with ⟨reads, gone⟩ | ⟨rfl, absent⟩ | ⟨rfl, present⟩
    · have wrongTile : st ≠ 1 ∧ st ≠ 2 := by omega
      obtain rfl | rfl | rfl := reads
      · exact unrecorded (jobCompact_wrongTile (.refl s) (.inl wrongTile)) (.inl (by decide))
      · exact unrecorded (jobExpand_wrongTile (.refl s) (.inl wrongTile)) (.inl (by decide))
      · exact unrecorded (jobMove_wrongTile (.refl s) wrongTile) (.inl (by decide))
    · exact unrecorded (if_pos absent) (.inl (by decide))
    · have wrongTile : st ≠ 0 ∧ st ≠ 3 := by omega
      exact unrecorded (if_pos wrongTile) (.inl (by decide))

end Sys2Proof.Machine

/-!
The writes of privileged CSRs, each by what its row says it does (R346, R354, R355, R393, R409, R411, R412, R416, R422).
-/

namespace Sys2Proof.Machine

/-! ## Fault entries freed -/

theorem freeEntry_none {s : State} (empty : s.heldFaults = []) : freeEntry s = { s with fbuf := s.fbuf.drop 1 } := by
  unfold freeEntry
  simp only [empty, firstHeld]

/-- The oldest fault-buffer entry gone, and with it a held fault that takes its place (R354). -/
def freedFor (s : State) (f : Raised) : State :=
  { s with fbuf := s.fbuf.drop 1, heldFaults := s.heldFaults.filter (fun g => g != f) }

/-- A fault's context, where it still holds the fault's launch, has waited for nothing since the fault was held (R354). -/
def unwaited (s : State) (f : Raised) : State := if ownFault s f then modCtx s f.ctx (fun x => { x with waited := 0 }) else s

theorem unwaited_mcycle (s : State) (f : Raised) : (unwaited s f).mcycle = s.mcycle := ite_both (fun t : State => t.mcycle = s.mcycle) rfl rfl

/-- The first held fault is due in the present module cycle (R354). -/
theorem freeEntry_held {s : State} {f : Raised} (first : firstHeld s.heldFaults = some f) :
    freeEntry s = dueFault (unwaited (freedFor s f) f) { f with mc := s.mcycle } := by
  unfold freeEntry
  simp only [first]
  exact congrArg (fun n => dueFault (unwaited (freedFor s f) f) { f with mc := n }) (unwaited_mcycle (freedFor s f) f)

/-! ## Requests posted -/

/-- A request code set for a context (R412). -/
def requested (s : State) (d code : Nat) : State := modCtx s d (fun x => { x with request := code })

theorem ownFault_requested (s : State) (d code : Nat) (f : Raised) : ownFault (requested s d code) f = ownFault s f := by
  unfold ownFault requested
  rw [ctxOf_modCtx, launchAt_modCtx]
  split
  · next same => rw [same]
  · rfl

theorem heldFor_requested (s : State) (d code : Nat) : heldFor (requested s d code) d = heldFor s d := by
  unfold heldFor
  simp only [ownFault_requested]
  rw [requested, ctxOf_modCtx_self]
  rfl

section
variable {s : State} {v : Word} {d code : Nat} (target : min 191 (fld v 0 8) * 4 + (if bit v 8 then 2 else 0) = d)
  (least : max 1 (fld v 16 8) = code)
include target least

theorem postRequest_running (running : (ctxOf s d).status = .running) : postRequest s v = requested s d code := by
  have status := congrArg Ctx.status (ctxOf_modCtx_self s d (fun x => { x with request := code }))
  unfold postRequest
  simp only [target, least, status, running]
  rfl

/-- A context that waits for firmware, whose fault has its entry and no handler, is served at once (R329, R331, log 56). -/
theorem postRequest_served (waits : (ctxOf s d).status = .held 0x09 ∨ (ctxOf s d).status = .held 0x10 ∨ (ctxOf s d).status = .halted)
    (idle : (ctxOf s d).inSvc = false) (entered : heldFor s d = false) :
    postRequest s v = enterService (requested (requested s d code) d 0) d 0x02 0 code := by
  have status := congrArg Ctx.status (ctxOf_modCtx_self s d (fun x => { x with request := code }))
  have inSvc := congrArg Ctx.inSvc (ctxOf_modCtx_self s d (fun x => { x with request := code }))
  have held := heldFor_requested s d code
  unfold requested at held
  unfold postRequest
  rcases waits with h | h | h <;>
  · simp only [target, least, status, h, inSvc, idle, held, entered, Bool.false_eq_true, or_self, if_false]
    rfl

end

/-! ## Queues opened -/

/-- A fold that puts one value at each of some keys: a listed key holds it. -/
theorem mget_foldl_mput {α : Type} {v d : α} {l : List Nat} (m : Map α) {q : Nat} (listed : q ∈ l) :
    mget (l.foldl (fun m q => mput m q v) m) q d = v :=
  foldl_reaches (fun m => mget m q d = v) (fun m q => mput m q v) (fun b => mget_mput_same b q v d)
    (fun b x held => (mget_mput b x q v d).trans (ite_both (· = v) rfl held)) l m listed

/-- The command region placed at `base` and the queues open, each with expected sequence 1 (R303, R304, R425). -/
def queuesOpened (s : State) (base : Word) : State :=
  modSec { (setIo s 0x811 base) with expected := (List.range 16).foldl (fun m q => mput m q 1) s.expected } (fun c => { c with boot := .opened })

theorem openQueues_linked {s : State} {v : Word} (linked : s.sec.boot = .linked) :
    openQueues s v = queuesOpened s (BitVec.ofNat 64 (v.toNat / 524288 * 524288)) := if_neg (not_not_intro linked)

theorem queuesOpened_base (s : State) (base : Word) : ioCsr (queuesOpened s base) 0x811 = base := mget_mput_same ..

theorem expected_queuesOpened (s : State) (base : Word) :
    (queuesOpened s base).expected = (List.range 16).foldl (fun m q => mput m q 1) s.expected := by
  simp only [queuesOpened, modSec]

theorem mget_queuesOpened (s : State) (base : Word) {q : Nat} (hq : q < 16) : mget (queuesOpened s base).expected q 0 = 1 := by
  have listed : q ∈ List.range 16 := List.mem_range.2 hq
  rw [expected_queuesOpened]
  exact mget_foldl_mput s.expected listed

/-! ## Events and marks cleared -/

theorem privWrite_events (s : State) (c : Nat) (v : Word) : privWrite s c 0x8C0 v = setIo s 0x8C0 (ioCsr s 0x8C0 &&& ~~~v) := rfl

theorem privWrite_fbstat (s : State) (c : Nat) (v : Word) :
    privWrite s c 0x842 v = if bit v 63 then { s with fbOverflow := false, heldTotal := 0 } else s := rfl

/-- One suspect bit of a register cleared where its bit of the word is set (R393). -/
def clearSuspect (g : Nat) (v : Word) (s : State) (i : Nat) : State :=
  if bit v i then modStall s (g + i) (fun t => { t with suspect := false }) else s

theorem privWrite_suspects (s : State) (c : Nat) (v : Word) {k : Nat} (hk : k < 3) :
    privWrite s c (0x834 + k) v = (List.range 64).foldl (clearSuspect (64 * k) v) s := by
  interval_cases k <;> rfl

theorem suspect_clearSuspect (g : Nat) (v : Word) (s : State) (i n : Nat) :
    (stallAt (clearSuspect g v s i) n).suspect = ((stallAt s n).suspect && !(decide (n = g + i) && bit v i)) := by
  unfold clearSuspect
  split
  · next set =>
    rw [stallAt_modStall]
    split <;> simp_all
  · next clear => simp [clear]

theorem suspect_clearSuspects (g : Nat) (v : Word) (l : List Nat) (s : State) (n : Nat) :
    (stallAt (l.foldl (clearSuspect g v) s) n).suspect = ((stallAt s n).suspect && !l.any (fun i => decide (n = g + i) && bit v i)) := by
  induction l generalizing s with
  | nil => simp
  | cons i l ih => rw [List.foldl_cons, ih, suspect_clearSuspect, List.any_cons, Bool.not_or, Bool.and_assoc]

/-- A register's suspects after a write: each bit of the word clears its own Stall's and no other. -/
theorem suspect_cleared (g : Nat) (v : Word) (s : State) {i : Nat} (hi : i < 64) :
    (stallAt ((List.range 64).foldl (clearSuspect g v) s) (g + i)).suspect = ((stallAt s (g + i)).suspect && !bit v i) := by
  have own : ((List.range 64).any fun j => decide (g + i = g + j) && bit v j) = bit v i := by
    rw [Bool.eq_iff_iff, List.any_eq_true]
    constructor
    · rintro ⟨j, -, hj⟩
      obtain ⟨same, set⟩ : i = j ∧ bit v j = true := by simpa using hj
      exact same ▸ set
    · exact fun set => ⟨i, List.mem_range.2 hi, by simp [set]⟩
  rw [suspect_clearSuspects, own]

/-! ## Region entries -/

/-- Two ranges of `n` and `m` bytes overlap, as a region entry's check tests it (R346). -/
def RangesMeet (a n b m : Nat) : Prop := a < b + m ∧ b < a + n

theorem rangesMeet_iff {a n b m : Nat} : RangesMeet a n b m ↔ ¬ (a + n ≤ b ∨ b + m ≤ a) := by
  unfold RangesMeet
  omega

/-- A region entry that csr.rtent does not take: reserved fields set, a size past the last, a base off its size, or, where valid, a region that
meets another's, the open command region or the service reserve (R346, log 49). -/
def RegionRefused (s : State) (v : Word) : Prop :=
  fld v 52 12 ≠ 0 ∨ fld v 6 2 ≠ 0 ∨ 9 < fld v 8 4 ∨ regBase v % regSize v ≠ 0 ∨ regValid v = true ∧
    ((∃ e ∈ s.cxl.regions, e.1 ≠ fld (ioCsr s 0x850) 0 13 ∧ regValid e.2 = true ∧
        RangesMeet (regBase v) (regSize v) (regBase e.2) (regSize e.2)) ∨
      s.sec.boot = .opened ∧ RangesMeet (regBase v) (regSize v) (ioCsr s 0x811).toNat 524288 ∨
      RangesMeet (regBase v) (regSize v) (2 ^ 39 - fld (ioCsr s 0x813) 0 5 * 2 ^ 30) (fld (ioCsr s 0x813) 0 5 * 2 ^ 30))

theorem writeRegion_refused {s : State} {v : Word} (refused : RegionRefused s v) : writeRegion s v = s := by
  refine if_pos ?_
  simpa [RegionRefused, RangesMeet, or_assoc, and_assoc] using refused

theorem writeRegion_installs {s : State} {v : Word} (taken : ¬ RegionRefused s v) :
    writeRegion s v = modCxl s (fun x => { x with regions := mset x.regions (fld (ioCsr s 0x850) 0 13) v 0 }) := by
  refine if_neg (mt (fun refused => ?_) taken)
  simpa [RegionRefused, RangesMeet, or_assoc, and_assoc] using refused

/-! ## Served state -/

/-- csr.svoff of the context at `c` (R412). -/
def svOff (s : State) (c : Nat) : Nat := mget (stallAt s (stallOf c)).svoff (slotOf c) 0

/-- csr.svoff set for the context at `c` (R412). -/
def setSvOff (s : State) (c off : Nat) : State := modStall s (stallOf c) (fun t => { t with svoff := mput t.svoff (slotOf c) off })

@[simp] theorem svOff_setSvOff (s : State) (c off : Nat) : svOff (setSvOff s c off) c = off := by
  simp [svOff, setSvOff]

theorem privWrite_svoff (s : State) (c : Nat) (v : Word) : privWrite s c 0x800 v = setSvOff s c (fld v 3 18 * 8) := rfl

/-- A write of csr.svdata gives the served word and steps the offset (R412). -/
theorem exec_svdataAccess_write (s : State) (c v : Nat) :
    exec (.svdataAccess c true v) s = .next (setSvOff (modCtx s (served c) (fun x => putBlockWord x (svOff s c) (BitVec.ofNat 64 v))) c
      ((svOff s c + 8) % 2 ^ 21)) := rfl

theorem exec_svdataAccess_read (s : State) (c v : Nat) :
    exec (.svdataAccess c false v) s = .next (setSvOff s c ((svOff s c + 8) % 2 ^ 21)) := rfl

theorem ctxOf_setSvOff (s : State) (c off d : Nat) : ctxOf (setSvOff s c off) d = ctxOf s d := ctxOf_modStall ..

/-! ## Measurements and hash trees -/

/-- An extension changes its own register alone (R416). -/
theorem meas_extendMeas (s : State) (i : Nat) (v : List Byte) (k : Nat) :
    mget (extendMeas s i v).sec.meas k 0 =
      if k = i then BitVec.ofNat 256 (leNat (sha256 (measBytes s i ++ v))) else mget s.sec.meas k 0 := mget_mput ..

/-- Firmware extends no register that the security block alone extends (log 127). -/
theorem measExtend_reserved {s : State} {v : Word} (reserved : fld v 0 3 ≤ 1) : measExtend s v = s := if_pos reserved

theorem measExtend_extends {s : State} {v : Word} (free : 2 ≤ fld v 0 3) :
    measExtend s v = extendMeas s (fld v 0 3) (devRead s (fld v 5 59 * 32) 32) := if_neg (by omega)

/-- csr.measext leaves the registers that the security block alone extends (R416, log 127). -/
theorem meas_measExtend (s : State) (v : Word) {k : Nat} (own : k ≤ 1) : mget (measExtend s v).sec.meas k 0 = mget s.sec.meas k 0 := by
  by_cases reserved : fld v 0 3 ≤ 1
  · rw [measExtend_reserved reserved]
  · have other : k ≠ fld v 0 3 := by omega
    rw [measExtend_extends (Nat.lt_of_not_le reserved), meas_extendMeas, if_neg other]

/-- The tree that a registration record asks for (R422). -/
def treeAsked (s : State) (a : Nat) : Tree :=
  { table := devLe s a 8, leaves := devLe s (a + 8) 8, tiles := devLe s (a + 16) 4, reg := devLe s (a + 20) 1 }

/-- The root of a tree over its leaf table (R420). -/
def rootOf (s : State) (t : Tree) : List Byte := treeRoot (t.tiles + 1) ((List.range t.tiles).map (fun i => devRead s (t.leaves + 32 * i) 32))

/-- A tree registered: its register extended by its root, and its table named (R422). -/
def registered (s : State) (t : Tree) : State :=
  modSec (extendMeas s t.reg (rootOf s t)) (fun c => { c with trees := c.trees.filter (fun x => x.table != t.table) ++ [t] })

/-- The record's result code shown and the engine idle, with event 2 set (R409, R422). -/
def registrationOver (s : State) (code : Nat) : State := postEvent (modSec s (fun c => { c with job := none, result := code })) 2

theorem endRegistration_refused {s : State} {a : Nat} (job : s.sec.job = some a) (refused : registrationCode s a ≠ 0) :
    endRegistration s = registrationOver s (registrationCode s a) := by
  unfold endRegistration
  simp only [job, if_neg refused]
  rfl

theorem endRegistration_registers {s : State} {a : Nat} (job : s.sec.job = some a) (sound : registrationCode s a = 0) :
    endRegistration s = registrationOver (registered s (treeAsked s a)) 0 := by
  unfold endRegistration
  simp only [job, sound, if_true]
  rfl

theorem meas_registered (s : State) (t : Tree) :
    mget (registered s t).sec.meas t.reg 0 = BitVec.ofNat 256 (leNat (sha256 (measBytes s t.reg ++ rootOf s t))) :=
  (meas_extendMeas s t.reg (rootOf s t) t.reg).trans (if_pos rfl)

theorem trees_registered (s : State) (t : Tree) : (registered s t).sec.trees.any (fun x => x.table == t.table) = true :=
  List.any_eq_true.2 ⟨t, List.mem_append_right _ (List.mem_singleton_self t), beq_self_eq_true _⟩

theorem registrationOver_event (s : State) (code : Nat) : bit (ioCsr (registrationOver s code) 0x8C0) 2 = true := by
  simp [registrationOver, postEvent, bit]

theorem startRegistration_idle {s : State} (idle : s.sec.job = none) (addr : Nat) :
    startRegistration s addr = modSec s (fun c => { c with job := some addr }) := if_neg (by simp [idle])

/-! ## Clamped fields -/

theorem exec_privCsrWrite {n : Nat} (writable : (csrPriv n && !csrPrivReadOnly n) = true) (c v : Nat) (s : State) :
    exec (.privCsrWrite c n v) s = .next (privWrite s c n (BitVec.ofNat 64 v)) := congrArg _ (if_pos writable)

/-- A field of a number below 2^64. -/
theorem fld_ofNat {x : Nat} (lo len : Nat) (h : x < 2 ^ 64) : fld (BitVec.ofNat 64 x) lo len = x / 2 ^ lo % 2 ^ len := by
  rw [fld, BitVec.extractLsb'_toNat, BitVec.toNat_ofNat, Nat.mod_eq_of_lt h, Nat.shiftRight_eq_div_pow]

theorem clampTo_ge {lo : Nat} (hi v : Nat) : lo ≤ clampTo lo hi v := Nat.le_max_left ..

theorem clampTo_le {lo hi : Nat} (h : lo ≤ hi) (v : Nat) : clampTo lo hi v ≤ hi := Nat.max_le.2 ⟨h, Nat.min_le_left ..⟩

theorem clampTo_eq {lo hi v : Nat} (low : lo ≤ v) (high : v ≤ hi) : clampTo lo hi v = v := by
  rw [clampTo, Nat.min_eq_right high, Nat.max_eq_right low]

theorem logSize_bounds (v : Nat) : 1024 ≤ logSize v ∧ logSize v ≤ 32768 := ⟨clampTo_ge .., clampTo_le (by decide) _⟩

/-- The error log's size is a power of two, whatever was written (R412). -/
theorem logSize_pow (v : Nat) : ∃ k, logSize v = 2 ^ k := by
  by_cases low : 1024 ≤ 2 ^ Nat.log2 v
  · by_cases high : 2 ^ Nat.log2 v ≤ 32768
    · exact ⟨_, clampTo_eq low high⟩
    · exact ⟨15, by unfold logSize clampTo; omega⟩
  · exact ⟨10, by unfold logSize clampTo; omega⟩

/-- A power of two within its range stands. -/
theorem logSize_of_pow {k : Nat} (low : 10 ≤ k) (high : k ≤ 15) : logSize (2 ^ k) = 2 ^ k := by
  rw [logSize, Nat.log2_two_pow]
  exact clampTo_eq (Nat.pow_le_pow_right Nat.two_pos low) (Nat.pow_le_pow_right Nat.two_pos high)

/-- The error log's base, in units of its alignment, clamped into the service reserve (R412, log 52). -/
def logBase (s : State) (v : Word) : Nat := clampTo (reserveBase s / 65536) ((2 ^ 39 - 32 * logSize (fld v 0 16)) / 65536) (fld v 16 48)

section
variable {s : State} (v : Word)

theorem privWrite_errlog (c : Nat) : privWrite s c 0x812 v = setIo s 0x812 (clampLog s v) := rfl

/-- A base whose log lies in the service reserve stands. -/
theorem logBase_eq (low : reserveBase s ≤ fld v 16 48 * 65536) (high : fld v 16 48 * 65536 + 32 * logSize (fld v 0 16) ≤ 2 ^ 39) :
    logBase s v = fld v 16 48 := clampTo_eq (by omega) (by omega)

variable (placed : 0 < fld (ioCsr s 0x813) 0 5) (most : fld (ioCsr s 0x813) 0 5 ≤ 16)
include placed most

/-- A service reserve of at least one GiB has room for the longest log. -/
theorem logBase_range : reserveBase s / 65536 ≤ logBase s v ∧ logBase s v ≤ (2 ^ 39 - 32 * logSize (fld v 0 16)) / 65536 := by
  have size := logSize_bounds (fld v 0 16)
  exact ⟨clampTo_ge .., clampTo_le (by unfold reserveBase; omega) _⟩

theorem clampLog_size : fld (clampLog s v) 0 16 = logSize (fld v 0 16) := by
  have size := logSize_bounds (fld v 0 16)
  have range := logBase_range v placed most
  show fld (BitVec.ofNat 64 (logBase s v * 65536 + logSize (fld v 0 16))) 0 16 = _
  rw [fld_ofNat _ _ (by omega)]
  omega

theorem clampLog_base : fld (clampLog s v) 16 48 = logBase s v := by
  have size := logSize_bounds (fld v 0 16)
  have range := logBase_range v placed most
  show fld (BitVec.ofNat 64 (logBase s v * 65536 + logSize (fld v 0 16))) 16 48 = _
  rw [fld_ofNat _ _ (by omega)]
  omega

/-- The whole log lies in the service reserve. -/
theorem logBase_inside : reserveBase s ≤ logBase s v * 65536 ∧ logBase s v * 65536 + 32 * logSize (fld v 0 16) ≤ 2 ^ 39 := by
  have size := logSize_bounds (fld v 0 16)
  have range := logBase_range v placed most
  have aligned : reserveBase s % 65536 = 0 := by unfold reserveBase; omega
  omega

end

/-! ## Privileged writes as a whole -/

/-- Settles O44: each write is its row's operation, and each effect that operation's. -/
theorem privilegedWritesComplete : Obligations.PrivilegedWritesComplete := by
  intro s c v n addr w apart d
  refine ⟨fun empty => congrArg _ (freeEntry_none empty), fun f first => congrArg _ (freeEntry_held first),
    fun running => congrArg _ (postRequest_running rfl rfl running),
    fun waits idle entered => congrArg _ (postRequest_served rfl rfl waits idle entered),
    fun linked => ⟨_, rfl, ?opened⟩, fun other => congrArg _ (if_pos other), ⟨_, rfl, fun i hi => ?events⟩, rfl,
    ⟨_, rfl, fun i hi => ?suspects⟩, fun upper gap size aligned clear => ?installs,
    fun misaligned => ?misaligned, fun overlaps valid => ?overlaps,
    ⟨_, exec_svdataAccess_write .., svOff_setSvOff .., ?written⟩, ⟨_, exec_svdataAccess_read .., svOff_setSvOff .., rfl⟩,
    ⟨_, rfl, ?meas0, ?meas1, fun free => ?extended⟩,
    fun idle => congrArg _ (startRegistration_idle idle addr), fun a job => ⟨_, rfl, ?registration⟩,
    ⟨_, exec_privCsrWrite rfl .., ?offset⟩, ⟨_, exec_privCsrWrite rfl .., fun placed most => ?log⟩, fun k plain => ?clamped⟩
  case opened =>
    rw [openQueues_linked linked]
    exact ⟨rfl, queuesOpened_base .., fun q hq => mget_queuesOpened s _ hq⟩
  case events =>
    rw [privWrite_events, ioCsr_setIo, if_pos rfl]
    simp [bit, hi, w]
  case suspects =>
    rw [privWrite_suspects _ _ _ (Nat.mod_lt _ (by decide)), suspect_cleared _ _ _ hi]
  case installs =>
    refine congrArg _ (writeRegion_installs ?_)
    rintro (h | h | h | h | ⟨valid, h⟩)
    · exact h upper
    · exact h gap
    · exact Nat.not_lt.2 size h
    · exact h aligned
    · obtain ⟨others, command, reserve⟩ := clear valid
      rcases h with ⟨e, he, other, live, meet⟩ | ⟨opened, meet⟩ | meet
      · exact rangesMeet_iff.1 meet (others e he other live)
      · exact rangesMeet_iff.1 meet (command opened)
      · exact rangesMeet_iff.1 meet reserve
  case misaligned => exact congrArg _ (writeRegion_refused (.inr (.inr (.inr (.inl misaligned)))))
  case overlaps =>
    obtain ⟨e, he, other, live, meet⟩ := overlaps
    exact congrArg _ (writeRegion_refused (.inr (.inr (.inr (.inr ⟨valid, .inl ⟨e, he, other, live, rangesMeet_iff.2 meet⟩⟩)))))
  case written =>
    rw [ctxOf_setSvOff, ctxOf_modCtx_self]
    rfl
  case meas0 => exact meas_measExtend s w (by decide)
  case meas1 => exact meas_measExtend s w (by decide)
  case extended => rw [measExtend_extends free, meas_extendMeas, if_pos rfl]
  case registration =>
    by_cases sound : registrationCode s a = 0
    · rw [endRegistration_registers job sound]
      exact ⟨rfl, sound.symm, registrationOver_event .., fun refused => absurd sound refused,
        fun _ => ⟨meas_registered s (treeAsked s a), trees_registered s (treeAsked s a)⟩⟩
    · rw [endRegistration_refused job sound]
      exact ⟨rfl, rfl, registrationOver_event .., fun _ => ⟨rfl, rfl⟩, fun zero => absurd zero sound⟩
  case offset =>
    rw [privWrite_svoff]
    exact svOff_setSvOff ..
  case log =>
    rw [privWrite_errlog, ioCsr_setIo, if_pos rfl]
    dsimp only
    rw [clampLog_size w placed most, clampLog_base w placed most]
    obtain ⟨least, greatest⟩ := logSize_bounds (fld w 0 16)
    obtain ⟨low, high⟩ := logBase_inside w placed most
    refine ⟨least, greatest, logSize_pow _, low, high, fun k size small large => ?_⟩
    have kept : logSize (fld w 0 16) = 2 ^ k := by rw [size, logSize_of_pow small large]
    exact ⟨kept, fun base top => congrArg (· * 65536) (logBase_eq w base (kept ▸ top))⟩
  case clamped =>
    rcases plain with rfl | rfl | rfl | rfl | rfl | rfl | rfl | rfl | rfl | rfl | rfl <;> exact exec_privCsrWrite rfl ..

end Sys2Proof.Machine

/-!
The sequence unit's steps with no region in the way: a token element accepted, a record written to the ring, a commit copy delivered
(R359, R363, R365 to R368).
-/

namespace Sys2Proof.Machine

/-! ## The two events that read a snapshot -/

theorem exec_tokenElementAccept_eq (s : State) (l reads : Nat) :
    exec (.tokenElementAccept l reads) s =
      .next (if recordsDone (launchAt (acceptToken s l) l) then snapReads reads (acceptToken s l) l else acceptToken s l) := rfl

theorem exec_commitElementDelivery_eq (s : State) (l : Nat) :
    exec (.commitElementDelivery l) s = .next (if recordsDone (launchAt s l) then deliverCommits 16 (snapReads 64 s l) l else s) := rfl

/-- A token element accepted with no read of the snapshot in the same step. -/
theorem exec_tokenElementAccept_unread (s : State) (l : Nat) : exec (.tokenElementAccept l 0) s = .next (acceptToken s l) := congrArg _ (ite_self _)

section
variable {s : State} {l : Nat} {g : GenUnit} (unit : (launchAt s l).gen = some g)
include unit

/-! ## The token element -/

/-- The unit after its head token element `v`, with `r` the elements behind it (R365). -/
def acceptedUnit (s : State) (d : List Byte) (g : GenUnit) (v : Row) (r : List Row) : GenUnit :=
  { g with tokens := r, slots := (acceptSlots s d g v).map (·.1), records := (acceptSlots s d g v).flatMap (·.2), n := g.n + 1, w := 0,
           reading := some 0, seals := [], halves := [], flips := 0 }

theorem acceptToken_accepts {v : Row} {r : List Row} (head : g.tokens = v :: r) (idle : genIdle g = true) (plain : s.cxl.regions = []) :
    (launchAt (acceptToken s l) l).gen = some (acceptedUnit s (launchAt s l).desc g v r) := by
  unfold acceptToken
  simp only [unit, head, idle, if_true, deviceGate_plain plain, modGen, launchAt_modLaunch]
  rfl

theorem acceptToken_waits (rest : g.tokens = [] ∨ genIdle g = false) : acceptToken s l = s := by
  unfold acceptToken
  simp only [unit]
  split
  · next v r head =>
    have busy : genIdle g = false := rest.resolve_left (by rw [head]; exact List.cons_ne_nil v r)
    rw [busy]
    rfl
  · rfl

theorem recordsDone_eq : recordsDone (launchAt s l) = g.records.isEmpty := by
  unfold recordsDone
  rw [unit]
  rfl

theorem exec_tokenElementAccept_waits (waiting : g.records ≠ []) (rest : g.tokens = [] ∨ genIdle g = false) (reads : Nat) :
    exec (.tokenElementAccept l reads) s = .next s := by
  rw [exec_tokenElementAccept_eq, acceptToken_waits unit rest, recordsDone_eq unit, if_neg (mt List.isEmpty_iff.1 waiting)]

/-! ## The ring -/

/-- A record in the ring at its number's place, the produced count after it, and the unit's next record at hand (R367, R368). -/
def recordWritten (s : State) (l : Nat) (g : GenUnit) (b : List Byte) (r : List (List Byte)) : State :=
  modLaunch (devPut (devPut s (gRing (launchAt s l).desc + 16 * (g.produced % gRoom (launchAt s l).desc)) b) (gBatch (launchAt s l).desc + 8)
    (leBytes 8 (g.produced + 1))) l (fun n => { n with gen := some { g with records := r, produced := g.produced + 1 } })

/-- The ring has room where fewer records than it holds are not yet consumed (R368). -/
def RingRoom (s : State) (l : Nat) (g : GenUnit) : Prop :=
  (g.produced : Int) - devLe s (gBatch (launchAt s l).desc + 64) 8 < gRoom (launchAt s l).desc

theorem writeRecord_writes {b : List Byte} {r : List (List Byte)} (record : g.records = b :: r) (plain : s.cxl.regions = []) (room : RingRoom s l g) :
    writeRecord s l = recordWritten s l g b r := by
  unfold writeRecord
  simp only [unit, record, deviceGate_plain plain]
  exact if_pos room

theorem writeRecord_full {b : List Byte} {r : List (List Byte)} (record : g.records = b :: r) (plain : s.cxl.regions = []) (full : ¬ RingRoom s l g) :
    writeRecord s l = s := by
  unfold writeRecord
  simp only [unit, record, deviceGate_plain plain]
  exact if_neg full

/-! ## Commit copies -/

/-- A launch with its one commit copy at the tail of its FIFO (R363). -/
def commitPushed (g : GenUnit) (i : Nat) (v : Row) (n : Launch) : Launch :=
  { n with gen := some { g with commits := [] }, fifoData := mput n.fifoData i (mget n.fifoData i [] ++ [v]),
           pushed := mput n.pushed i (mget n.pushed i 0 + 1) }

theorem snapReads_over (past : g.reading = none) (fuel : Nat) : snapReads fuel s l = s := by
  cases fuel with
  | zero => rfl
  | succ fuel =>
    unfold snapReads
    simp only [unit, past]

theorem deliverCommits_none (empty : g.commits = []) (fuel : Nat) : deliverCommits fuel s l = s := by
  cases fuel with
  | zero => rfl
  | succ fuel =>
    unfold deliverCommits
    simp only [unit, empty]

theorem deliverCommits_one {i : Nat} {v : Row} (one : g.commits = [(i, v)]) (room : (mget (launchAt s l).fifoData i []).length < 64) (fuel : Nat) :
    deliverCommits (fuel + 1) s l = modLaunch s l (fun _ => commitPushed g i v (launchAt s l)) := by
  unfold deliverCommits
  simp only [unit, one, if_pos room]
  exact deliverCommits_none (g := { g with commits := [] }) (by rw [launchAt_modLaunch, if_pos rfl]) rfl fuel

theorem exec_commitElementDelivery_one {i : Nat} {v : Row} (written : g.records = []) (past : g.reading = none) (one : g.commits = [(i, v)])
    (room : (mget (launchAt s l).fifoData i []).length < 64) :
    exec (.commitElementDelivery l) s = .next (modLaunch s l (fun _ => commitPushed g i v (launchAt s l))) := by
  rw [exec_commitElementDelivery_eq, recordsDone_eq unit, if_pos (List.isEmpty_iff.2 written), snapReads_over unit past, deliverCommits_one unit one room]

end

/-- Settles O43: each event is the unit's one operation on the unit that the launch holds. -/
theorem sequenceUnitSteps : Obligations.SequenceUnitSteps := by
  intro s l reads g n unit
  refine ⟨fun v r head idle plain => ?accept, fun waiting rest => ?wait, fun b r record plain => ⟨fun room => ?write, fun full => ?full⟩,
    fun i v written past one room => ?deliver⟩
  case accept =>
    exact ⟨acceptToken s l, acceptedUnit s n.desc g v r, exec_tokenElementAccept_unread s l, acceptToken_accepts unit head idle plain,
      rfl, rfl, rfl, rfl, rfl, rfl⟩
  case wait => exact exec_tokenElementAccept_waits unit waiting rest reads
  case write => exact congrArg _ (writeRecord_writes unit record plain room)
  case full => exact congrArg _ (writeRecord_full unit record plain full)
  case deliver =>
    refine ⟨_, exec_commitElementDelivery_one unit written past one room, ?_⟩
    rw [launchAt_modLaunch, if_pos rfl]
    exact ⟨mget_mput_same .., rfl, mget_mput_same ..⟩

end Sys2Proof.Machine

/-!
Bring-up: reset, trained memory, the image verified and measured, and the Yards started on their sites (R410 to R416, R425, R426).
-/

namespace Sys2Proof.Machine

/-! ## Memory and image -/

section
variable {s : State}

theorem memoryTrained_clears (training : s.sec.boot = .memory) :
    memoryTrained s = modSec { s with dev := [], marks := s.marks.filter (fun m => m.struct != 0x18), cxl := { s.cxl with regions := [] } }
      (fun c => { c with boot := .verify }) := if_pos training

/-- The record of a sub-channel that fails training, kept in the security block (log 83). -/
def trainingRecord (s : State) (sub : Nat) : Entry := ⟨recordFor s 2 0 (7, 0, 0, 0) 0x18 2 sub 0 1 0x7F, 0⟩

theorem trainingFailure_recovers (training : s.sec.boot = .memory) (sub : Nat) :
    trainingFailure s sub = modSec s (fun c => { c with boot := .recovery, records := c.records ++ [trainingRecord s sub] }) := if_pos training

theorem verifyImage_recovers (verifying : s.sec.boot = .verify) (bad : bootSlot s = none) :
    verifyImage s = modSec s (fun c => { c with boot := .recovery }) := by
  unfold verifyImage
  rw [if_neg (not_not_intro verifying), bad]

/-- An image copied into the service reserve, at an address no rule gives (R412, log 24). -/
def imageCopied (s : State) (img conf : List Byte) : State :=
  let gib := clampTo 1 16 (Sys2Proof.Config.imageReserve conf)
  devPut (setIo s 0x813 (BitVec.ofNat 64 gib)) (2 ^ 39 - gib * 2 ^ 30 + Sys2Proof.Config.imageOffset % (gib * 2 ^ 30 - img.length)) img

theorem imageCopied_sec (s : State) (img conf : List Byte) : (imageCopied s img conf).sec = s.sec := devPut_sec ..

theorem measBytes_congr {t : State} (sec : t.sec = s.sec) (i : Nat) : measBytes t i = measBytes s i := by
  unfold measBytes
  rw [sec]

/-- Extending one register leaves the bytes of the others. -/
theorem measBytes_extendMeas_ne {i k : Nat} (other : k ≠ i) (v : List Byte) : measBytes (extendMeas s i v) k = measBytes s k := by
  unfold measBytes
  rw [meas_extendMeas, if_neg other]

theorem slotLe_congr {t : State} (flash : t.sec.flash = s.sec.flash) (k off n : Nat) : slotLe t k off n = slotLe s k off n := by
  unfold slotLe slotBytes
  rw [flash]

/-- The image of slot `k` copied, and M0 and M1 extended by it and its configuration section (R412, R414, R416). -/
def imageTaken (s : State) (k : Nat) : State :=
  extendMeas (extendMeas (imageCopied s (slotImage s k) (sectionOf s k 2)) 0 (sha256 (slotImage s k))) 1 (sha256 (sectionOf s k 2))

theorem imageTaken_flash (s : State) (k : Nat) : (imageTaken s k).sec.flash = s.sec.flash := by
  show (imageCopied s (slotImage s k) (sectionOf s k 2)).sec.flash = _
  rw [imageCopied_sec]

theorem imageTaken_svnFuse (s : State) (k : Nat) : (imageTaken s k).sec.svnFuse = s.sec.svnFuse := by
  show (imageCopied s (slotImage s k) (sectionOf s k 2)).sec.svnFuse = _
  rw [imageCopied_sec]

theorem meas_imageTaken (s : State) (k : Nat) :
    mget (imageTaken s k).sec.meas 0 0 = BitVec.ofNat 256 (leNat (sha256 (measBytes s 0 ++ sha256 (slotImage s k)))) ∧
    mget (imageTaken s k).sec.meas 1 0 = BitVec.ofNat 256 (leNat (sha256 (measBytes s 1 ++ sha256 (sectionOf s k 2)))) := by
  unfold imageTaken
  constructor
  · rw [meas_extendMeas, if_neg (by decide), meas_extendMeas, if_pos rfl, measBytes_congr (imageCopied_sec ..)]
  · rw [meas_extendMeas, if_pos rfl, measBytes_extendMeas_ne (by decide), measBytes_congr (imageCopied_sec ..)]

theorem verifyImage_boots {k : Nat} (verifying : s.sec.boot = .verify) (boots : bootSlot s = some k) :
    verifyImage s = modSec (imageTaken s k) (fun c =>
      { c with boot := .yards, slot := k, svn := slotLe (imageTaken s k) k 4 2, build := slotLe (imageTaken s k) k 8 8, length := (slotImage s k).length }) := by
  unfold verifyImage
  rw [if_neg (not_not_intro verifying), boots]
  rfl

theorem bootSlot_a : bootSlot s = some 0 ↔ slotVerifies s 0 = true ∧ (slotVerifies s 1 = true → slotLe s 1 4 2 ≤ slotLe s 0 4 2) := by
  unfold bootSlot
  cases slotVerifies s 0 <;> cases slotVerifies s 1 <;> simp

end

/-! ## The self-tests over -/

/-- Where no site failed each Yard has its mapped site (R425, R426). -/
theorem assignSites_sound (s : State) {bad : Nat → Bool} (sound : ∀ k, bad k = false) (ys taken : List Nat) :
    assignSites s bad ys taken = ys.map (fun y => (y, some (mappedSite s y))) := by
  induction ys with
  | nil => rfl
  | cons y ys ih =>
    unfold assignSites
    rw [sound, ih]
    rfl

/-- A Yard that has just begun to run on a site (R18, R425). -/
def RunsOn (s : State) (y site : Nat) : Prop := (yardAt s y).status = .running ∧ (yardAt s y).ycycle = 0 ∧ (yardAt s y).site = site

theorem RunsOn.congr {s t : State} {y site : Nat} (yards : t.yards = s.yards) (runs : RunsOn s y site) : RunsOn t y site := by
  unfold RunsOn yardAt
  rw [yards]
  exact runs

/-- Yard `y` running on site `k` from cycle 0 at its clock floor (R18, log 90). -/
def yardStarted (s : State) (y k : Nat) : State :=
  modYard s y (fun _ => { yardInit with status := .running, site := k, since := s.mcycle, floor := max 512 (fld (ioCsr s (0x820 + y)) 0 11) })

/-- A Yard started on a site writes its own Yard and its Stables alone. -/
theorem startYard_frame (s : State) (y k : Nat) :
    (startYard s (y, some k)).sstore = s.sstore ∧ (startYard s (y, some k)).yards = (yardStarted s y k).yards := by
  unfold startYard
  refine foldl_keep (fun t : State => t.sstore = s.sstore ∧ t.yards = (yardStarted s y k).yards) _ ?_ _ (yardStarted s y k) ⟨rfl, rfl⟩
  exact fun _ _ kept => kept

theorem runsOn_yardStarted (s : State) (y k : Nat) : RunsOn (yardStarted s y k) y k := by
  unfold RunsOn yardStarted
  rw [yardAt_modYard, if_pos rfl]
  exact ⟨rfl, rfl, rfl⟩

theorem yardAt_yardStarted_ne (s : State) {y n : Nat} (k : Nat) (other : n ≠ y) : yardAt (yardStarted s y k) n = yardAt s n := by
  unfold yardStarted
  rw [yardAt_modYard, if_neg other]

/-- The Yards of a list started one after another, each on its site. -/
def yardsStarted (site : Nat → Nat) (ys : List Nat) (s : State) : State := (ys.map (fun y => (y, some (site y)))).foldl startYard s

theorem yardsStarted_cons (site : Nat → Nat) (y : Nat) (ys : List Nat) (s : State) :
    yardsStarted site (y :: ys) s = yardsStarted site ys (startYard s (y, some (site y))) := by
  unfold yardsStarted
  rw [List.map_cons, List.foldl_cons]

theorem yardsStarted_sstore (site : Nat → Nat) (ys : List Nat) (s : State) : (yardsStarted site ys s).sstore = s.sstore := by
  induction ys generalizing s with
  | nil => rfl
  | cons y ys ih => rw [yardsStarted_cons, ih, (startYard_frame s y (site y)).1]

/-- Every Yard of the list runs on its site, and one that ran so before still does. -/
theorem runsOn_yardsStarted (site : Nat → Nat) (ys : List Nat) (s : State) (n : Nat) (runs : n ∈ ys ∨ RunsOn s n (site n)) :
    RunsOn (yardsStarted site ys s) n (site n) := by
  induction ys generalizing s with
  | nil => exact runs.resolve_left List.not_mem_nil
  | cons y ys ih =>
    rw [yardsStarted_cons]
    refine ih _ ?_
    by_cases same : n = y
    · subst same
      exact .inr ((runsOn_yardStarted s n (site n)).congr (startYard_frame s n (site n)).2)
    · refine runs.imp (fun member => (List.mem_cons.1 member).resolve_left same) fun runs => RunsOn.congr (startYard_frame s y (site y)).2 ?_
      unfold RunsOn
      rw [yardAt_yardStarted_ne s (site y) same]
      exact runs

theorem modSec_sstore (s : State) (f : Sec → Sec) : (modSec s f).sstore = s.sstore := rfl

theorem modSec_yards (s : State) (f : Sec → Sec) : (modSec s f).yards = s.yards := rfl

/-- Entering the control context changes no Yard, no service store and nothing of the security block. -/
theorem enterControl_frame (s : State) : (enterControl s).yards = s.yards ∧ (enterControl s).sstore = s.sstore ∧ (enterControl s).sec = s.sec := by
  unfold enterControl
  split
  · exact ⟨rfl, rfl, rfl⟩
  · exact ite_both (fun t : State => t.yards = s.yards ∧ t.sstore = s.sstore ∧ t.sec = s.sec) ⟨rfl, rfl, rfl⟩ ⟨rfl, rfl, rfl⟩

/-- With no failed site the Yards are started on their mapped sites over the loaded stores. -/
theorem selfTestsDone_sound {s : State} (tested : s.sec.boot = .yards) :
    selfTestsDone s 0 = enterControl (modSec (yardsStarted (mappedSite s) (List.range 6) (loadServiceStores s)) (fun c => { c with boot := .loaded })) := by
  unfold selfTestsDone
  rw [if_neg (not_not_intro tested), assignSites_sound s Nat.zero_testBit]
  rfl

/-- Settles O45: each event of bring-up is its one update of the state. -/
theorem bringUpComplete : Obligations.BringUpComplete := by
  intro s sub
  refine ⟨⟨moduleReset s, rfl, rfl, rfl, rfl, rfl, rfl, rfl, rfl, rfl, rfl, rfl, rfl⟩, fun training => ?trained, fun training => ?failed,
    fun verifying bad => ?bad, fun k verifying boots => ?boots, bootSlot_a, fun tested => ?tested⟩
  case trained => exact ⟨_, congrArg Host.Outcome.next (memoryTrained_clears training), rfl, rfl, rfl⟩
  case failed => exact ⟨_, trainingRecord s sub, congrArg Host.Outcome.next (trainingFailure_recovers training sub), rfl, rfl⟩
  case bad => exact congrArg _ (verifyImage_recovers verifying bad)
  case boots =>
    obtain ⟨m0, m1⟩ := meas_imageTaken s k
    exact ⟨_, congrArg Host.Outcome.next (verifyImage_boots verifying boots), rfl, rfl, slotLe_congr (imageTaken_flash s k) k 4 2, imageTaken_svnFuse s k, m0, m1⟩
  case tested =>
    let u := modSec (yardsStarted (mappedSite s) (List.range 6) (loadServiceStores s)) (fun c => { c with boot := .loaded })
    obtain ⟨yards, sstore, sec⟩ := enterControl_frame u
    refine ⟨enterControl u, congrArg Host.Outcome.next (selfTestsDone_sound tested), congrArg Sec.boot sec, ?_, fun y known => ?_⟩
    · rw [sstore, modSec_sstore, yardsStarted_sstore]
    · exact (runsOn_yardsStarted (mappedSite s) (List.range 6) _ y (.inl (List.mem_range.2 known))).congr (yards.trans (modSec_yards ..))

end Sys2Proof.Machine

/-!
The mailbox: what the shared command does with a payload, each command's own effect, and what is taken in recovery (R413 to R419, R425).
-/

namespace Sys2Proof.Machine

/-! ## The shared vendor command -/

theorem all_bne {l : List Nat} {opcode : Nat} : l.all (· != opcode) = true ↔ opcode ∉ l := by
  rw [List.all_bne', Bool.not_eq_true', List.contains_eq_mem, decide_eq_false_iff_not]

section
variable {s : State} {opcode : Nat} {data : List Byte} {lengthOk : Bool} {run : State → State}

theorem vendorCommand_closed (closed : mailboxOpen s = false) : vendorCommand s opcode data lengthOk run = s := if_pos (by rw [closed]; rfl)

/-- A command that the mailbox takes leaves its payload, then is refused in recovery, answered Invalid Input or run (R418, R419). -/
theorem vendorCommand_open (opened : mailboxOpen s = true) :
    vendorCommand s opcode data lengthOk run =
      if s.sec.boot = .recovery ∧ opcode ∉ [0xC100, 0xC101, 0xC110, 0xC111] then mailboxDone (ringDoorbell s opcode data) opcode 3 []
      else if lengthOk = true then run (ringDoorbell s opcode data) else mailboxDone (ringDoorbell s opcode data) opcode 2 [] := by
  unfold vendorCommand
  simp only [opened, all_bne]
  cases lengthOk <;> rfl

theorem vendorCommand_refused (opened : mailboxOpen s = true) (recovery : s.sec.boot = .recovery) (untaken : opcode ∉ [0xC100, 0xC101, 0xC110, 0xC111]) :
    vendorCommand s opcode data lengthOk run = mailboxDone (ringDoorbell s opcode data) opcode 3 [] :=
  (vendorCommand_open opened).trans (if_pos ⟨recovery, untaken⟩)

theorem vendorCommand_invalid (opened : mailboxOpen s = true) (up : s.sec.boot ≠ .recovery) (wrong : ¬ lengthOk = true) :
    vendorCommand s opcode data lengthOk run = mailboxDone (ringDoorbell s opcode data) opcode 2 [] :=
  (vendorCommand_open opened).trans ((if_neg fun h => up h.1).trans (if_neg wrong))

theorem vendorCommand_runs (opened : mailboxOpen s = true) (taken : s.sec.boot ≠ .recovery ∨ opcode ∈ [0xC100, 0xC101, 0xC110, 0xC111])
    (right : lengthOk = true) : vendorCommand s opcode data lengthOk run = run (ringDoorbell s opcode data) :=
  (vendorCommand_open opened).trans ((if_neg fun h => taken.elim (· h.1) h.2).trans (if_pos right))

end

/-! ## Each command's own effect -/

/-- The offset and length of an image chunk that R419 allows. -/
def ChunkLegal (off n : Nat) : Prop := off % 8 = 0 ∧ n % 8 = 0 ∧ 8 ≤ n ∧ n ≤ 65528 ∧ off + n ≤ 0x1FF0000

section
variable (s : State) {data : List Byte} {first count v slot : Nat}

theorem writeChunk_writes (legal : ChunkLegal (leNat (data.take 4)) (leNat ((data.drop 4).take 4))) :
    writeChunk s data = mailboxDone (modSec s (fun c =>
      { c with flash := writeBytes c.flash (spareSlot s * 0x2000000 + leNat (data.take 4)) (data.drop 8) })) 0xC110 0 [] := by
  obtain ⟨off, n, least, most, fits⟩ := legal
  exact if_neg (by omega)

theorem writeChunk_illegal (illegal : ¬ ChunkLegal (leNat (data.take 4)) (leNat ((data.drop 4).take 4))) :
    writeChunk s data = mailboxDone s 0xC110 2 [] := by
  unfold ChunkLegal at illegal
  exact if_pos (by omega)

theorem commitImage_verified (verified : slotVerifies s (spareSlot s) = true) :
    commitImage s =
      if s.sec.boot = .recovery then moduleReset (mailboxDone s 0xC111 0 (slotBytes s (spareSlot s) 4 2))
      else mailboxDone s 0xC111 0 (slotBytes s (spareSlot s) 4 2) := if_pos verified

theorem commitImage_unverified (unverified : slotVerifies s (spareSlot s) = false) : commitImage s = mailboxDone s 0xC111 2 [] :=
  if_neg (by rw [unverified]; exact Bool.false_ne_true)

theorem advanceVersion_running (running : v = s.sec.svn) :
    advanceVersion s v = mailboxDone (modSec s (fun c => { c with svnFuse := max c.svnFuse v })) 0xC112 0 [] := if_pos running

theorem advanceVersion_other (other : v ≠ s.sec.svn) : advanceVersion s v = mailboxDone s 0xC112 2 [] := if_neg other

/-- The entry of the error log at a slot counted modulo its size, zeros where it holds none (R402, R404). -/
def errorEntry (s : State) (i : Nat) : List Byte :=
  let e := devRead s (fld (ioCsr s 0x812) 16 48 * 65536 + 32 * (i % max 1 (fld (ioCsr s 0x812) 0 16))) 32
  if byteAt e 15 / 16 = 0 then List.replicate 32 0 else e

theorem readErrorLog_entries (placed : ioCsr s 0x812 ≠ 0) (least : count ≠ 0) (most : count ≤ 2048) :
    readErrorLog s first count = mailboxDone s 0xC120 0 ((List.range count).flatMap (fun i => errorEntry s (first + i))) :=
  if_neg fun illegal => illegal.elim placed (·.elim least (Nat.not_lt.2 most))

theorem readErrorLog_illegal (illegal : ioCsr s 0x812 = 0 ∨ count = 0 ∨ 2048 < count) : readErrorLog s first count = mailboxDone s 0xC120 2 [] :=
  if_pos illegal

theorem readHang_record (inside : slot < 16) :
    readHang s slot = mailboxDone s 0xC121 0
      (if ioCsr s 0x814 = 0 then List.replicate 4096 0 else devRead s (fld (ioCsr s 0x814) 16 48 * 65536 + 4096 * slot) 4096) := by
  unfold readHang
  rw [if_neg (Nat.not_le.2 inside)]
  split <;> rfl

/-- The entry of the lost-line ring at a number, zeros where no ring is placed (R352). -/
def lostEntry (s : State) (i : Nat) : List Byte :=
  if ioCsr s 0x815 = 0 then List.replicate 16 0 else devRead s (fld (ioCsr s 0x815) 16 48 * 65536 + 16 * (i % 4096)) 16

theorem readLost_entries (least : count ≠ 0) (most : count ≤ 4094) :
    readLost s first count = mailboxDone s 0xC122 0 (leBytes 8 (ioCsr s 0x816).toNat ++ leBytes 8 (ioCsr s 0x817).toNat ++
      (List.range count).flatMap (fun i => lostEntry s (first + i))) := if_neg (by omega)

end

/-! ## Opcodes outside the vendor commands -/

section
variable {s : State} {opcode : Nat}

theorem standardCommand_closed (closed : mailboxOpen s = false) (data : List Byte) : standardCommand s opcode data = s :=
  if_pos (by rw [closed]; rfl)

theorem standardCommand_answers (opened : mailboxOpen s = true) (up : s.sec.boot ≠ .recovery) (standard : opcode < 0xC000)
    (known : Sys2Proof.Config.standardOpcode opcode = true) (data : List Byte) :
    standardCommand s opcode data = mailboxDone (ringDoorbell s opcode data) opcode (Sys2Proof.Config.standardAnswer opcode data).1
      (Sys2Proof.Config.standardAnswer opcode data).2 := by
  unfold standardCommand
  rw [if_neg (by simp [opened, standard])]
  exact if_neg (by simp [ringDoorbell, modSec, up, known])

theorem exec_mailboxUnsupported_answers (opened : mailboxOpen s = true) (unknown : unsupported s opcode = true) :
    exec (.mailboxUnsupported opcode) s = .next (mailboxDone (ringDoorbell s opcode []) opcode 3 []) :=
  congrArg _ (if_pos (by rw [opened, unknown]; rfl))

theorem exec_mailboxUnsupported_closed (closed : mailboxOpen s = false) : exec (.mailboxUnsupported opcode) s = .next s :=
  congrArg _ (if_neg (by rw [closed]; exact Bool.false_ne_true))

theorem unsupported_vendor (up : s.sec.boot ≠ .recovery) (vendor : 0xC000 ≤ opcode) (unknown : opcode ∉ vendorOpcodes) :
    unsupported s opcode = true := by
  unfold unsupported
  rw [if_neg up, if_pos vendor]
  exact all_bne.2 unknown

theorem unsupported_recovery (recovery : s.sec.boot = .recovery) (untaken : opcode ∉ [0xC100, 0xC101, 0xC110, 0xC111]) :
    unsupported s opcode = true := by
  unfold unsupported
  rw [if_pos recovery]
  exact all_bne.2 untaken

/-- In recovery the mailbox is reached over CXL.io, linked or not (R425). -/
theorem mailboxOpen_recovery (recovery : s.sec.boot = .recovery) (idle : s.sec.quote = none) : mailboxOpen s = true := by
  unfold mailboxOpen
  rw [recovery, idle]
  rfl

end

/-! ## Together -/

/-- Settles O46: a command that is taken is its own effect on the rung doorbell, and any other is its refusal. -/
theorem mailboxCommandsComplete : Obligations.MailboxCommandsComplete := by
  intro s data opcode
  refine ⟨fun opened up => ?normal, fun recovery idle => ?recovery, fun closed => ?closed, fun nonce waits => ?quote⟩
  case normal =>
    have runs {op : Nat} {data : List Byte} {ok : Bool} {run : State → State} (right : ok = true) :
        vendorCommand s op data ok run = run (ringDoorbell s op data) := vendorCommand_runs opened (.inl up) right
    have invalid {op : Nat} {data : List Byte} {ok : Bool} {run : State → State} (wrong : ¬ ok = true) :
        vendorCommand s op data ok run = mailboxDone (ringDoorbell s op data) op 2 [] := vendorCommand_invalid opened up wrong
    have chunk : (decide (8 ≤ data.length) && data.length == 8 + leNat ((data.drop 4).take 4)) = true ↔
        8 ≤ data.length ∧ data.length = 8 + leNat ((data.drop 4).take 4) := by simp
    refine ⟨fun len => ?_, fun len legal => ?_, fun len running => ?_, fun len legal => ?_, fun len inside => ?_, fun len legal => ?_,
      fun len => ?_, fun len => ?_, fun len => ?_, fun len => ?_, fun len => ?_, fun len => ?_, fun illegal len => ?_, fun other len => ?_,
      ?_, fun full => ⟨?_, ?_⟩, fun len illegal => ?_, fun verified => ?_, fun unverified => ?_, fun standard known => ?_, fun vendor unknown => ?_⟩
    · exact congrArg _ (runs (beq_iff_eq.2 len))
    · exact congrArg _ ((runs (chunk.2 len)).trans (writeChunk_writes (ringDoorbell s 0xC110 data) legal))
    · exact congrArg _ ((runs (beq_iff_eq.2 len)).trans (advanceVersion_running (ringDoorbell s 0xC112 data) running))
    · obtain ⟨placed, least, most⟩ := legal
      exact congrArg _ ((runs (beq_iff_eq.2 len)).trans (readErrorLog_entries (ringDoorbell s 0xC120 data) placed least most))
    · exact congrArg _ ((runs (beq_iff_eq.2 len)).trans (readHang_record (ringDoorbell s 0xC121 data) inside))
    · exact congrArg _ ((runs (beq_iff_eq.2 len)).trans (readLost_entries (ringDoorbell s 0xC122 data) legal.1 legal.2))
    · exact congrArg _ (invalid (mt beq_iff_eq.1 len))
    · exact congrArg _ (invalid (mt chunk.1 len))
    · exact congrArg _ (invalid (mt beq_iff_eq.1 len))
    · exact congrArg _ (invalid (mt beq_iff_eq.1 len))
    · exact congrArg _ (invalid (mt beq_iff_eq.1 len))
    · exact congrArg _ (invalid (mt beq_iff_eq.1 len))
    · exact congrArg _ ((runs (chunk.2 len)).trans (writeChunk_illegal (ringDoorbell s 0xC110 data) illegal))
    · exact congrArg _ ((runs (beq_iff_eq.2 len)).trans (advanceVersion_other (ringDoorbell s 0xC112 data) other))
    · exact congrArg _ (runs rfl)
    · exact congrArg _ (invalid (mt List.isEmpty_iff.1 full))
    · exact congrArg _ (invalid (mt List.isEmpty_iff.1 full))
    · exact congrArg _ ((runs (beq_iff_eq.2 len)).trans (readErrorLog_illegal (ringDoorbell s 0xC120 data) illegal))
    · exact congrArg _ ((runs rfl).trans ((commitImage_verified (ringDoorbell s 0xC111 []) verified).trans (if_neg up)))
    · exact congrArg _ ((runs rfl).trans (commitImage_unverified (ringDoorbell s 0xC111 []) unverified))
    · exact congrArg _ (standardCommand_answers opened up standard known data)
    · exact exec_mailboxUnsupported_answers opened (unsupported_vendor up vendor unknown)
  case recovery =>
    have opened := mailboxOpen_recovery recovery idle
    refine ⟨fun untaken => ?_, fun verified => ?_, ?_⟩
    · exact exec_mailboxUnsupported_answers opened (unsupported_recovery recovery untaken)
    · exact congrArg _ ((vendorCommand_runs opened (.inr (by decide)) rfl).trans ((commitImage_verified (ringDoorbell s 0xC111 []) verified).trans (if_pos recovery)))
    · exact congrArg _ (vendorCommand_refused opened recovery (by decide))
  case closed =>
    refine ⟨?_, ?_, ?_, ?_, ?_, ?_, ?_, ?_, congrArg _ (standardCommand_closed closed data), exec_mailboxUnsupported_closed closed⟩
    all_goals exact congrArg _ (vendorCommand_closed closed)
  case quote =>
    unfold formQuote
    rw [waits]

end Sys2Proof.Machine

/-!
The step invariant right after reset, and the one command that raises the security-version fuse (R402, R414, R419, R424).
-/

namespace Sys2Proof.Machine

/-- Settles O48: right after reset every memory and the fault buffer are empty. -/
theorem invariantAtReset : Obligations.InvariantAtReset := ⟨reset_memories, Nat.zero_le _⟩

/-! ## What one instruction keeps -/

/-- Every instruction and event but the two that write flash or the fuse keeps the invariant, the fuse counter and the flash. -/
theorem exec_keeps {n : Nat} {f : List Host.Cell} {i : Instr} {s : State} (advance : ∀ data, i ≠ .advanceSecurityVersion data)
    (chunk : ∀ data, i ≠ .writeImageChunk data) (h : s.Good n f) : KeepsGood n f (exec i s) := by
  cases i with
  | nop p => exact execNop_keeps p s h
  | bar p group => exact execBar_keeps p group s h
  | rdv p group => exact execRdv_keeps p group s h
  | waitdImm p count => exact execWaitdImm_keeps p count s h
  | waitdScalar p a => exact execWaitdScalar_keeps p a s h
  | fence p scope => exact execFence_keeps p scope s h
  | semsig p c sem => exact execSemsig_keeps p c sem s h
  | semsigScalar p c a => exact execSemsigScalar_keeps p c a s h
  | semwait p c sem => exact execSemwait_keeps p c sem s h
  | yield p => exact execYield_keeps p s h
  | svc p code => exact execSvc_keeps p code s h
  | trap p code => exact execTrap_keeps p code s h
  | halt p => exact execHalt_keeps p s h
  | probe p b a => exact execProbe_keeps p b a s h
  | discard p b a => exact execDiscard_keeps p b a s h
  | exit p => exact execExit_keeps p s h
  | add p d a b => exact execAdd_keeps p d a b s h
  | sub p d a b => exact execSub_keeps p d a b s h
  | mul p d a b => exact execMul_keeps p d a b s h
  | mulh p d a b => exact execMulh_keeps p d a b s h
  | mulhs p d a b => exact execMulhs_keeps p d a b s h
  | div p d a b => exact execDiv_keeps p d a b s h
  | divs p d a b => exact execDivs_keeps p d a b s h
  | rem p d a b => exact execRem_keeps p d a b s h
  | and p d a b => exact execAnd_keeps p d a b s h
  | or p d a b => exact execOr_keeps p d a b s h
  | xor p d a b => exact execXor_keeps p d a b s h
  | andn p d a b => exact execAndn_keeps p d a b s h
  | shl p d a b => exact execShl_keeps p d a b s h
  | shr p d a b => exact execShr_keeps p d a b s h
  | sar p d a b => exact execSar_keeps p d a b s h
  | rotl p d a b => exact execRotl_keeps p d a b s h
  | min p d a b => exact execMin_keeps p d a b s h
  | max p d a b => exact execMax_keeps p d a b s h
  | mins p d a b => exact execMins_keeps p d a b s h
  | maxs p d a b => exact execMaxs_keeps p d a b s h
  | addsh p d a b sh => exact execAddsh_keeps p d a b sh s h
  | clz p d a => exact execClz_keeps p d a s h
  | popc p d a => exact execPopc_keeps p d a s h
  | sel p d a b pc => exact execSel_keeps p d a b pc s h
  | addi p d a psel imm => exact execAddi_keeps p d a psel imm s h
  | mulImm p d a psel imm => exact execMulImm_keeps p d a psel imm s h
  | andImm p d a psel imm => exact execAndImm_keeps p d a psel imm s h
  | orImm p d a psel imm => exact execOrImm_keeps p d a psel imm s h
  | xorImm p d a psel imm => exact execXorImm_keeps p d a psel imm s h
  | shlImm p d a psel imm => exact execShlImm_keeps p d a psel imm s h
  | shrImm p d a psel imm => exact execShrImm_keeps p d a psel imm s h
  | sarImm p d a psel imm => exact execSarImm_keeps p d a psel imm s h
  | rotlImm p d a psel imm => exact execRotlImm_keeps p d a psel imm s h
  | minImm p d a psel imm => exact execMinImm_keeps p d a psel imm s h
  | maxImm p d a psel imm => exact execMaxImm_keeps p d a psel imm s h
  | minsImm p d a psel imm => exact execMinsImm_keeps p d a psel imm s h
  | maxsImm p d a psel imm => exact execMaxsImm_keeps p d a psel imm s h
  | cmpeq p pd a b => exact execCmpeq_keeps p pd a b s h
  | cmpne p pd a b => exact execCmpne_keeps p pd a b s h
  | cmplt p pd a b => exact execCmplt_keeps p pd a b s h
  | cmplts p pd a b => exact execCmplts_keeps p pd a b s h
  | cmple p pd a b => exact execCmple_keeps p pd a b s h
  | cmples p pd a b => exact execCmples_keeps p pd a b s h
  | cmpeqImm p pd a psel imm => exact execCmpeqImm_keeps p pd a psel imm s h
  | cmpneImm p pd a psel imm => exact execCmpneImm_keeps p pd a psel imm s h
  | cmpltImm p pd a psel imm => exact execCmpltImm_keeps p pd a psel imm s h
  | cmpltsImm p pd a psel imm => exact execCmpltsImm_keeps p pd a psel imm s h
  | cmpleImm p pd a psel imm => exact execCmpleImm_keeps p pd a psel imm s h
  | cmplesImm p pd a psel imm => exact execCmplesImm_keeps p pd a psel imm s h
  | li p d psel imm => exact execLi_keeps p d psel imm s h
  | liLong p d imm => exact execLiLong_keeps p d imm s h
  | pset p pd a => exact execPset_keeps p pd a s h
  | pand p pd pa pb inva invb => exact execPand_keeps p pd pa pb inva invb s h
  | por p pd pa pb inva invb => exact execPor_keeps p pd pa pb inva invb s h
  | pxor p pd pa pb inva invb => exact execPxor_keeps p pd pa pb inva invb s h
  | pnot p pd pa => exact execPnot_keeps p pd pa s h
  | br p target => exact execBr_keeps p target s h
  | brScalar p a => exact execBrScalar_keeps p a s h
  | bc p a b cond target => exact execBc_keeps p a b cond target s h
  | call p d target => exact execCall_keeps p d target s h
  | ret p a => exact execRet_keeps p a s h
  | loopScalar p a len => exact execLoopScalar_keeps p a len s h
  | loopNbound p n len => exact execLoopNbound_keeps p n len s h
  | loopImm p count len => exact execLoopImm_keeps p count len s h
  | lexit p => exact execLexit_keeps p s h
  | lidx p d idx => exact execLidx_keeps p d idx s h
  | csrr p d csr => exact execCsrr_keeps p d csr s h
  | csrw p a csr => exact execCsrw_keeps p a csr s h
  | csrwImm p imm csr => exact execCsrwImm_keeps p imm csr s h
  | nbnd p n a => exact execNbnd_keeps p n a s h
  | nbndImm p n imm => exact execNbndImm_keeps p n imm s h
  | vadd p vd va vb => exact execVadd_keeps p vd va vb s h
  | vsub p vd va vb => exact execVsub_keeps p vd va vb s h
  | vmul p vd va vb => exact execVmul_keeps p vd va vb s h
  | vmin p vd va vb => exact execVmin_keeps p vd va vb s h
  | vmax p vd va vb => exact execVmax_keeps p vd va vb s h
  | vfma p vd va vb vc => exact execVfma_keeps p vd va vb vc s h
  | vfms p vd va vb vc => exact execVfms_keeps p vd va vb vc s h
  | vfnma p vd va vb vc => exact execVfnma_keeps p vd va vb vc s h
  | vaddScalar p vd va sb => exact execVaddScalar_keeps p vd va sb s h
  | vsubScalar p vd va sb => exact execVsubScalar_keeps p vd va sb s h
  | vmulScalar p vd va sb => exact execVmulScalar_keeps p vd va sb s h
  | vminScalar p vd va sb => exact execVminScalar_keeps p vd va sb s h
  | vmaxScalar p vd va sb => exact execVmaxScalar_keeps p vd va sb s h
  | vfmaScalar p vd va sb vc => exact execVfmaScalar_keeps p vd va sb vc s h
  | vfmsScalar p vd va sb vc => exact execVfmsScalar_keeps p vd va sb vc s h
  | vfnmaScalar p vd va sb vc => exact execVfnmaScalar_keeps p vd va sb vc s h
  | vabs p vd va => exact execVabs_keeps p vd va s h
  | vneg p vd va => exact execVneg_keeps p vd va s h
  | vrcp p vd va => exact execVrcp_keeps p vd va s h
  | vrsq p vd va => exact execVrsq_keeps p vd va s h
  | vexp2 p vd va => exact execVexp2_keeps p vd va s h
  | vlog2 p vd va => exact execVlog2_keeps p vd va s h
  | vclamp p vd va slo shi => exact execVclamp_keeps p vd va slo shi s h
  | vsel p vd va vb vc => exact execVsel_keeps p vd va vb vc s h
  | vcmpeqF p vd va vb => exact execVcmpeqF_keeps p vd va vb s h
  | vcmpeqI p vd va vb => exact execVcmpeqI_keeps p vd va vb s h
  | vcmpltF p vd va vb => exact execVcmpltF_keeps p vd va vb s h
  | vcmpltSi p vd va vb => exact execVcmpltSi_keeps p vd va vb s h
  | vcmpltUi p vd va vb => exact execVcmpltUi_keeps p vd va vb s h
  | vcmpleF p vd va vb => exact execVcmpleF_keeps p vd va vb s h
  | vcmpleSi p vd va vb => exact execVcmpleSi_keeps p vd va vb s h
  | vcmpleUi p vd va vb => exact execVcmpleUi_keeps p vd va vb s h
  | viaddB p vd va vb => exact execViaddB_keeps p vd va vb s h
  | viaddH p vd va vb => exact execViaddH_keeps p vd va vb s h
  | viaddW p vd va vb => exact execViaddW_keeps p vd va vb s h
  | visubB p vd va vb => exact execVisubB_keeps p vd va vb s h
  | visubH p vd va vb => exact execVisubH_keeps p vd va vb s h
  | visubW p vd va vb => exact execVisubW_keeps p vd va vb s h
  | vimulB p vd va vb => exact execVimulB_keeps p vd va vb s h
  | vimulH p vd va vb => exact execVimulH_keeps p vd va vb s h
  | vimulW p vd va vb => exact execVimulW_keeps p vd va vb s h
  | vimacB p vd va vb vc => exact execVimacB_keeps p vd va vb vc s h
  | vimacH p vd va vb vc => exact execVimacH_keeps p vd va vb vc s h
  | vimacW p vd va vb vc => exact execVimacW_keeps p vd va vb vc s h
  | vand p vd va vb => exact execVand_keeps p vd va vb s h
  | vor p vd va vb => exact execVor_keeps p vd va vb s h
  | vxor p vd va vb => exact execVxor_keeps p vd va vb s h
  | vpopc p vd va => exact execVpopc_keeps p vd va s h
  | viaddBScalar p vd va sb => exact execViaddBScalar_keeps p vd va sb s h
  | viaddHScalar p vd va sb => exact execViaddHScalar_keeps p vd va sb s h
  | viaddWScalar p vd va sb => exact execViaddWScalar_keeps p vd va sb s h
  | visubBScalar p vd va sb => exact execVisubBScalar_keeps p vd va sb s h
  | visubHScalar p vd va sb => exact execVisubHScalar_keeps p vd va sb s h
  | visubWScalar p vd va sb => exact execVisubWScalar_keeps p vd va sb s h
  | vimulBScalar p vd va sb => exact execVimulBScalar_keeps p vd va sb s h
  | vimulHScalar p vd va sb => exact execVimulHScalar_keeps p vd va sb s h
  | vimulWScalar p vd va sb => exact execVimulWScalar_keeps p vd va sb s h
  | vimacBScalar p vd va sb vc => exact execVimacBScalar_keeps p vd va sb vc s h
  | vimacHScalar p vd va sb vc => exact execVimacHScalar_keeps p vd va sb vc s h
  | vimacWScalar p vd va sb vc => exact execVimacWScalar_keeps p vd va sb vc s h
  | vshlB p vd va amt => exact execVshlB_keeps p vd va amt s h
  | vshlH p vd va amt => exact execVshlH_keeps p vd va amt s h
  | vshlW p vd va amt => exact execVshlW_keeps p vd va amt s h
  | vshrB p vd va amt => exact execVshrB_keeps p vd va amt s h
  | vshrH p vd va amt => exact execVshrH_keeps p vd va amt s h
  | vshrW p vd va amt => exact execVshrW_keeps p vd va amt s h
  | vsarB p vd va amt => exact execVsarB_keeps p vd va amt s h
  | vsarH p vd va amt => exact execVsarH_keeps p vd va amt s h
  | vsarW p vd va amt => exact execVsarW_keeps p vd va amt s h
  | vcvt p vd va sfmt dfmt => exact execVcvt_keeps p vd va sfmt dfmt s h
  | vcvtK p vd va sfmt dfmt => exact execVcvtK_keeps p vd va sfmt dfmt s h
  | vpack p vd va vb ew3 => exact execVpack_keeps p vd va vb ew3 s h
  | vunpk p vd va ew3 part => exact execVunpk_keeps p vd va ew3 part s h
  | vperm p vd va vb => exact execVperm_keeps p vd va vb s h
  | vshuf p vd va vb pattern => exact execVshuf_keeps p vd va vb pattern s h
  | vbcastScalar p vd sa ew => exact execVbcastScalar_keeps p vd sa ew s h
  | vbcastElement p vd va idx ew => exact execVbcastElement_keeps p vd va idx ew s h
  | vextrImm p sd va idx ew => exact execVextrImm_keeps p sd va idx ew s h
  | vextrScalar p sd va si ew => exact execVextrScalar_keeps p sd va si ew s h
  | vinsImm p vd va sa idx ew => exact execVinsImm_keeps p vd va sa idx ew s h
  | vinsScalar p vd va sa si ew => exact execVinsScalar_keeps p vd va sa si ew s h
  | vmov p vd va => exact execVmov_keeps p vd va s h
  | vrng p vd sseed sseq spos draw => exact execVrng_keeps p vd sseed sseq spos draw s h
  | vrngF p vd sseed sseq spos draw => exact execVrngF_keeps p vd sseed sseq spos draw s h
  | tapp p tap seq va rows => exact execTapp_keeps p tap seq va rows s h
  | taps p tap seq va rows sc => exact execTaps_keeps p tap seq va rows sc s h
  | tapld p tap sa => exact execTapld_keeps p tap sa s h
  | taprd p sd tap what => exact execTaprd_keeps p sd tap what s h
  | vredsumF p vd va => exact execVredsumF_keeps p vd va s h
  | vredsumI p vd va => exact execVredsumI_keeps p vd va s h
  | vredmaxF p vd va => exact execVredmaxF_keeps p vd va s h
  | vredmaxSi p vd va => exact execVredmaxSi_keeps p vd va s h
  | vredminF p vd va => exact execVredminF_keeps p vd va s h
  | vredminSi p vd va => exact execVredminSi_keeps p vd va s h
  | vargmax p vd va => exact execVargmax_keeps p vd va s h
  | vscanF p vd va => exact execVscanF_keeps p vd va s h
  | vscanI p vd va => exact execVscanI_keeps p vd va s h
  | ksetImm p kd axis format block value => exact execKsetImm_keeps p kd axis format block value s h
  | ksetScalar p kd axis format block sa => exact execKsetScalar_keeps p kd axis format block sa s h
  | kmov p kd ka => exact execKmov_keeps p kd ka s h
  | kmul p kd ka kb => exact execKmul_keeps p kd ka kb s h
  | kaddeImm p kd ka step => exact execKaddeImm_keeps p kd ka step s h
  | kaddeScalar p kd ka sb => exact execKaddeScalar_keeps p kd ka sb s h
  | kmaxe p kd ka kb => exact execKmaxe_keeps p kd ka kb s h
  | kcvtBf16 p kd ka => exact execKcvtBf16_keeps p kd ka s h
  | kcvtE8m0 p kd ka => exact execKcvtE8m0_keeps p kd ka s h
  | kbindTile p tile ks axis block => exact execKbindTile_keeps p tile ks axis block s h
  | kbindBank p cm bank ks axis block => exact execKbindBank_keeps p cm bank ks axis block s h
  | kunbindTile p tile => exact execKunbindTile_keeps p tile s h
  | kunbindBank p cm bank => exact execKunbindBank_keeps p cm bank s h
  | krdRow p vd ks => exact execKrdRow_keeps p vd ks s h
  | krdScalar p sd ks entry sel => exact execKrdScalar_keeps p sd ks entry sel s h
  | kwrRow p kd va => exact execKwrRow_keeps p kd va s h
  | kwrScalar p kd sa entry => exact execKwrScalar_keeps p kd sa entry s h
  | kgen p kd va axis block format => exact execKgen_keeps p kd va axis block format s h
  | mmaL6 p vd abay aoff bbay boff alane blane sg sc => exact execMmaL6_keeps p vd abay aoff bbay boff alane blane sg sc s h
  | mmaI8 p vd abay aoff bbay boff alane blane sg sc => exact execMmaI8_keeps p vd abay aoff bbay boff alane blane sg sc s h
  | mmaE4m3 p vd abay aoff bbay boff alane blane sg sc => exact execMmaE4m3_keeps p vd abay aoff bbay boff alane blane sg sc s h
  | mmaE5m2 p vd abay aoff bbay boff alane blane sg sc => exact execMmaE5m2_keeps p vd abay aoff bbay boff alane blane sg sc s h
  | mmaE4e5 p vd abay aoff bbay boff alane blane sg sc => exact execMmaE4e5_keeps p vd abay aoff bbay boff alane blane sg sc s h
  | mmaE5e4 p vd abay aoff bbay boff alane blane sg sc => exact execMmaE5e4_keeps p vd abay aoff bbay boff alane blane sg sc s h
  | mmaBf16 p vd abay aoff bbay boff alane blane sg sc => exact execMmaBf16_keeps p vd abay aoff bbay boff alane blane sg sc s h
  | mmaFp16 p vd abay aoff bbay boff alane blane sg sc => exact execMmaFp16_keeps p vd abay aoff bbay boff alane blane sg sc s h
  | mmazL6 p vd abay aoff bbay boff alane blane sg sc => exact execMmazL6_keeps p vd abay aoff bbay boff alane blane sg sc s h
  | mmazI8 p vd abay aoff bbay boff alane blane sg sc => exact execMmazI8_keeps p vd abay aoff bbay boff alane blane sg sc s h
  | mmazE4m3 p vd abay aoff bbay boff alane blane sg sc => exact execMmazE4m3_keeps p vd abay aoff bbay boff alane blane sg sc s h
  | mmazE5m2 p vd abay aoff bbay boff alane blane sg sc => exact execMmazE5m2_keeps p vd abay aoff bbay boff alane blane sg sc s h
  | mmazE4e5 p vd abay aoff bbay boff alane blane sg sc => exact execMmazE4e5_keeps p vd abay aoff bbay boff alane blane sg sc s h
  | mmazE5e4 p vd abay aoff bbay boff alane blane sg sc => exact execMmazE5e4_keeps p vd abay aoff bbay boff alane blane sg sc s h
  | mmazBf16 p vd abay aoff bbay boff alane blane sg sc => exact execMmazBf16_keeps p vd abay aoff bbay boff alane blane sg sc s h
  | mmazFp16 p vd abay aoff bbay boff alane blane sg sc => exact execMmazFp16_keeps p vd abay aoff bbay boff alane blane sg sc s h
  | mxhint p burst => exact execMxhint_keeps p burst s h
  | cmode p mode mask => exact execCmode_keeps p mode mask s h
  | cloadRow p vs cm first wfmt => exact execCloadRow_keeps p vs cm first wfmt s h
  | cloadRound p bay off lane cm first wfmt => exact execCloadRound_keeps p bay off lane cm first wfmt s h
  | cswap p mask => exact execCswap_keeps p mask s h
  | cmacRow p mask va abits asigned wacc => exact execCmacRow_keeps p mask va abits asigned wacc s h
  | cmacRound p mask bay off lane abits asigned wacc => exact execCmacRound_keeps p mask bay off lane abits asigned wacc s h
  | cread p vd cm half => exact execCread_keeps p vd cm half s h
  | creadK p vd cm half => exact execCreadK_keeps p vd cm half s h
  | cclr p mask => exact execCclr_keeps p mask s h
  | cchk p bank cm => exact execCchk_keeps p bank cm s h
  | ld p vd w kd delay => exact execLd_keeps p vd w kd delay s h
  | ldr p vd bay off lane => exact execLdr_keeps p vd bay off lane s h
  | ldkStream p kd w delay => exact execLdkStream_keeps p kd w delay s h
  | ldkRound p kd bay off lane => exact execLdkRound_keeps p kd bay off lane s h
  | ldsRound p sd bay off8 lane => exact execLdsRound_keeps p sd bay off8 lane s h
  | ldsStream p sd w delay => exact execLdsStream_keeps p sd w delay s h
  | popVector p vd q delay => exact execPopVector_keeps p vd q delay s h
  | popScalar p sd q delay => exact execPopScalar_keeps p sd q delay s h
  | fill p tok tile w => exact execFill_keeps p tok tile w s h
  | st p w vs ks => exact execSt_keeps p w vs ks s h
  | str p bay off lane vs => exact execStr_keeps p bay off lane vs s h
  | stkStream p w ks => exact execStkStream_keeps p w ks s h
  | stkRound p bay off lane ks => exact execStkRound_keeps p bay off lane ks s h
  | stsRound p bay off8 lane a => exact execStsRound_keeps p bay off8 lane a s h
  | stsStream p w a => exact execStsStream_keeps p w a s h
  | pushVector p q vs => exact execPushVector_keeps p q vs s h
  | pushScalar p q a => exact execPushScalar_keeps p q a s h
  | spill p tok tile w => exact execSpill_keeps p tok tile w s h
  | movpRound p bay off lane port => exact execMovpRound_keeps p bay off lane port s h
  | movpScalar p a port lane => exact execMovpScalar_keeps p a port lane s h
  | xfer p frm dest lane fromaddr toaddr => exact execXfer_keeps p frm dest lane fromaddr toaddr s h
  | redsVector p vs t op ty sem => exact execRedsVector_keeps p vs t op ty sem s h
  | redsScalar p a t op ty sem => exact execRedsScalar_keeps p a t op ty sem s h
  | scfgTable p w entry => exact execScfgTable_keeps p w entry s h
  | scfgScalar p w word a => exact execScfgScalar_keeps p w word a s h
  | sadv p w dim steps => exact execSadv_keeps p w dim steps s h
  | srst p w => exact execSrst_keeps p w s h
  | yardCycle => exact execYardCycle_keeps s h
  | rewindRestore c => exact execRewindRestore_keeps c s h
  | segmentEntry c => exact execSegmentEntry_keeps c s h
  | yieldBundle c => exact execYieldBundle_keeps c s h
  | deadlineExpiry c => exact execDeadlineExpiry_keeps c s h
  | checkRetest c => exact execCheckRetest_keeps c s h
  | offdieLoadLanding c id => exact execOffdieLoadLanding_keeps c id s h
  | offcoreAccessPerform c id => exact execOffcoreAccessPerform_keeps c id s h
  | pushAccepted c id => exact execPushAccepted_keeps c id s h
  | tokenComplete c id => exact execTokenComplete_keeps c id s h
  | probeAnswer c id => exact execProbeAnswer_keeps c id s h
  | rendezvousRelease l group => exact execRendezvousRelease_keeps l group s h
  | barrierRelease l group yard => exact execBarrierRelease_keeps l group yard s h
  | redsApply stable => exact execRedsApply_keeps stable s h
  | mxwinWrite c code => exact execMxwinWrite_keeps c code s h
  | mxwinTakesEffect stable => exact execMxwinTakesEffect_keeps stable s h
  | dxBackref c => exact execDxBackref_keeps c s h
  | dxCopy c => exact execDxCopy_keeps c s h
  | txTranspose c => exact execTxTranspose_keeps c s h
  | hxSha256 c => exact execHxSha256_keeps c s h
  | qxConvert c => exact execQxConvert_keeps c s h
  | stationJobEnd stable id => exact execStationJobEnd_keeps stable id s h
  | arrayCold stable => exact execArrayCold_keeps stable s h
  | shadowFillAccept c cm => exact execShadowFillAccept_keeps c cm s h
  | shadowFillEnd c cm => exact execShadowFillEnd_keeps c cm s h
  | hangTimeout c => exact execHangTimeout_keeps c s h
  | hostWrite addr data => exact execHostWrite_keeps addr data s h
  | hostRead addr len excl => exact execHostRead_keeps addr len excl s h
  | queueResume q seq => exact execQueueResume_keeps q seq s h
  | queueEnd q seq => exact execQueueEnd_keeps q seq s h
  | queueCancel q seq => exact execQueueCancel_keeps q seq s h
  | placementDecision => exact execPlacementDecision_keeps s h
  | launchRunStart l => exact execLaunchRunStart_keeps l s h
  | contextRelease c => exact execContextRelease_keeps c s h
  | launchCompletion l => exact execLaunchCompletion_keeps l s h
  | swapOut l yard => exact execSwapOut_keeps l yard s h
  | swapOutSave l yard => exact execSwapOutSave_keeps l yard s h
  | dramMeterWindow l => exact execDramMeterWindow_keeps l s h
  | auditVerdict stall replay sig => exact execAuditVerdict_keeps stall replay sig s h
  | scrubPass => exact execScrubPass_keeps s h
  | sieveAgeing => exact execSieveAgeing_keeps s h
  | linkCrcError struct owner retries => exact execLinkCrcError_keeps struct owner retries s h
  | repairRequest v => exact execRepairRequest_keeps v s h
  | repairCopy => exact execRepairCopy_keeps s h
  | yardLost yard cause => exact execYardLost_keeps yard cause s h
  | thermalTrip yard => exact execThermalTrip_keeps yard s h
  | yardActivate site yard => exact execYardActivate_keeps site yard s h
  | yardDeclareLost yard => exact execYardDeclareLost_keeps yard s h
  | yardSelfTestDone yard passed => exact execYardSelfTestDone_keeps yard passed s h
  | degrArrayFailed stall => exact execDegrArrayFailed_keeps stall s h
  | degrMacroFailed stall cm partner => exact execDegrMacroFailed_keeps stall cm partner s h
  | degrClear stall => exact execDegrClear_keeps stall s h
  | rqCompact => exact execRqCompact_keeps s h
  | rqExpand => exact execRqExpand_keeps s h
  | rqMove => exact execRqMove_keeps s h
  | rqMakeAbsent => exact execRqMakeAbsent_keeps s h
  | rqMakeResident => exact execRqMakeResident_keeps s h
  | rqJobEnd => exact execRqJobEnd_keeps s h
  | hostMemwr addr data => exact execHostMemwr_keeps addr data s h
  | birsp region => exact execBirsp_keeps region s h
  | regionWindowEnd region => exact execRegionWindowEnd_keeps region s h
  | hostSnoop line inval => exact execHostSnoop_keeps line inval s h
  | gpfPhase1 => exact execGpfPhase1_keeps s h
  | hostHotReset => exact execHostHotReset_keeps s h
  | hostLinkDown => exact execHostLinkDown_keeps s h
  | tableSweep => exact execTableSweep_keeps s h
  | linkRetrained => exact execLinkRetrained_keeps s h
  | tokenElementAccept l reads => exact execTokenElementAccept_keeps l reads s h
  | commitElementDelivery l => exact execCommitElementDelivery_keeps l s h
  | ringRecordWrite l => exact execRingRecordWrite_keeps l s h
  | freeFaultEntry => exact execFreeFaultEntry_keeps s h
  | firmwareRequestPost v => exact execFirmwareRequestPost_keeps v s h
  | openQueues v => exact execOpenQueues_keeps v s h
  | eventClear v => exact execEventClear_keeps v s h
  | fbstatOverflowClear v => exact execFbstatOverflowClear_keeps v s h
  | suspectClear n v => exact execSuspectClear_keeps n v s h
  | regionEntryWrite v => exact execRegionEntryWrite_keeps v s h
  | svdataAccess c wr v => exact execSvdataAccess_keeps c wr v s h
  | measurementExtend v => exact execMeasurementExtend_keeps v s h
  | hashRegistration addr => exact execHashRegistration_keeps addr s h
  | clockFloorChange yard => exact execClockFloorChange_keeps yard s h
  | privCsrWrite c n v => exact execPrivCsrWrite_keeps c n v s h
  | eventTimer => exact execEventTimer_keeps s h
  | controlContextEntry => exact execControlContextEntry_keeps s h
  | quote data => exact execQuote_keeps data s h
  | certificate data => exact execCertificate_keeps data s h
  | writeImageChunk data => exact absurd rfl (chunk data)
  | commitImage data => exact execCommitImage_keeps data s h
  | advanceSecurityVersion data => exact absurd rfl (advance data)
  | readErrorLog data => exact execReadErrorLog_keeps data s h
  | readHangRecord data => exact execReadHangRecord_keeps data s h
  | readLostLineRing data => exact execReadLostLineRing_keeps data s h
  | mailboxStandardCommand opcode data => exact execMailboxStandardCommand_keeps opcode data s h
  | mailboxUnsupported opcode => exact execMailboxUnsupported_keeps opcode s h
  | moduleReset => exact execModuleReset_keeps s h
  | memoryTrained => exact execMemoryTrained_keeps s h
  | trainingFailure sub => exact execTrainingFailure_keeps sub s h
  | imageVerify => exact execImageVerify_keeps s h
  | bringupSelfTestDone failed => exact execBringupSelfTestDone_keeps failed s h
  | tapldCopyComplete c => exact execTapldCopyComplete_keeps c s h
  | registrationEnd => exact execRegistrationEnd_keeps s h

/-- No instruction with an encoding is an event; so each keeps them. -/
theorem exec_keeps_encoded {n : Nat} {f : List Host.Cell} (i : Instr) (s : State) (encoded : encode i ≠ none) (h : s.Good n f) :
    KeepsGood n f (exec i s) := by
  refine exec_keeps ?_ ?_ h
  · rintro data rfl
    exact encoded rfl
  · rintro data rfl
    exact encoded rfl

/-! ## What one step does to the fuse -/

/-- No item of the agenda changes the fuse counter. -/
theorem step_agenda_svnFuse {s t : State} {w : Work} {r : List Work} (inv : s.Inv) (agenda : s.agenda = w :: r) (next : step s = .next t) :
    t.sec.svnFuse = s.sec.svnFuse := by
  have run : step s = runWork exec { s with agenda := r } w := by
    unfold step
    rw [agenda]
  obtain ⟨-, fuse, -⟩ := runWork_keeps exec _ w exec_keeps_encoded (good_self (s := { s with agenda := r }) inv) t (run ▸ next)
  exact fuse

/-- No event but the command itself changes the fuse counter; a chunk of an image changes only the flash. -/
theorem exec_svnFuse {s t : State} {i : Instr} (inv : s.Inv) (advance : ∀ data, i ≠ .advanceSecurityVersion data) (next : exec i s = .next t) :
    t.sec.svnFuse = s.sec.svnFuse := by
  by_cases chunk : ∃ data, i = .writeImageChunk data
  · obtain ⟨data, rfl⟩ := chunk
    obtain ⟨-, -, fuse, -⟩ := execWriteImageChunk_keeps data s (good_self inv) next
    exact fuse
  · obtain ⟨-, fuse, -⟩ := exec_keeps advance (fun data h => chunk ⟨data, h⟩) (good_self inv) t next
    exact fuse

/-- A mailbox command's answer leaves the fuse counter. -/
theorem mailboxDone_svnFuse (s : State) (opcode code : Nat) (out : List Byte) : (mailboxDone s opcode code out).sec.svnFuse = s.sec.svnFuse := by
  unfold mailboxDone
  dsimp only
  split <;> split <;> rfl

theorem advanceVersion_svnFuse (s : State) (v : Nat) :
    (advanceVersion s v).sec.svnFuse = if v = s.sec.svn then max s.sec.svnFuse v else s.sec.svnFuse := by
  split
  · next running =>
    rw [advanceVersion_running s running, mailboxDone_svnFuse]
    rfl
  · next other => rw [advanceVersion_other s other, mailboxDone_svnFuse]

/-- The command leaves the counter or raises it to the running version (R414, R419). -/
theorem exec_advanceSecurityVersion_svnFuse {s t : State} {data : List Byte} (next : exec (.advanceSecurityVersion data) s = .next t) :
    t.sec.svnFuse = s.sec.svnFuse ∨ t.sec.svnFuse = max s.sec.svnFuse s.sec.svn := by
  obtain rfl : vendorCommand s 0xC112 data (data.length == 2) (fun s => advanceVersion s (leNat data)) = t := Host.Outcome.next.inj next
  by_cases opened : mailboxOpen s = true
  · rw [vendorCommand_open opened]
    split
    · exact .inl (mailboxDone_svnFuse ..)
    · split
      · rw [advanceVersion_svnFuse]
        split
        · next running => exact .inr (congrArg (max s.sec.svnFuse) running)
        · exact .inl rfl
      · exact .inl (mailboxDone_svnFuse ..)
  · rw [vendorCommand_closed (Bool.not_eq_true _ ▸ opened)]
    exact .inl rfl

/-- Settles O50: an agenda item and every other event keep the counter, so the step is the command's, which only raises it. -/
theorem fuseOnlyByCommand : Obligations.FuseOnlyByCommand := by
  intro s t inv next changed
  obtain ⟨-, waits, idles⟩ := stepRunsDecoded
  cases agenda : s.agenda with
  | cons w r => exact absurd (step_agenda_svnFuse inv agenda next) changed
  | nil =>
    cases inbox : s.inbox with
    | nil => exact absurd (exec_svnFuse inv (by rintro data ⟨⟩) ((idles s agenda inbox).symm.trans next)) changed
    | cons i r =>
      have run : exec i { s with inbox := r } = .next t := (waits s i r agenda inbox).symm.trans next
      by_cases command : ∃ data, i = .advanceSecurityVersion data
      · obtain ⟨data, rfl⟩ := command
        have raised : t.sec.svnFuse = max s.sec.svnFuse s.sec.svn :=
          (exec_advanceSecurityVersion_svnFuse (s := { s with inbox := r }) run).resolve_left changed
        exact ⟨rfl, ⟨data, r, rfl⟩, by omega, by omega⟩
      · exact absurd (exec_svnFuse (s := { s with inbox := r }) inv (fun data same => command ⟨data, same⟩) run) changed

end Sys2Proof.Machine

/-!
Every step keeps the invariant (R21, R24, R242, R345, R353, R402, R410, R413).
-/

namespace Sys2Proof.Machine

/-- Every instruction and event keeps the invariant, the two that write flash or the fuse among them. -/
theorem exec_inv {s t : State} {i : Instr} (inv : s.Inv) (next : exec i s = .next t) : t.Inv := by
  by_cases advance : ∃ data, i = .advanceSecurityVersion data
  · obtain ⟨data, rfl⟩ := advance
    obtain ⟨_, kept, -⟩ := execAdvanceSecurityVersion_keeps data s (good_self inv) next
    exact kept
  by_cases chunk : ∃ data, i = .writeImageChunk data
  · obtain ⟨data, rfl⟩ := chunk
    obtain ⟨_, kept, -⟩ := execWriteImageChunk_keeps data s (good_self inv) next
    exact kept
  obtain ⟨kept, -⟩ := exec_keeps (fun data same => advance ⟨data, same⟩) (fun data same => chunk ⟨data, same⟩) (good_self inv) t next
  exact kept

/-- An item of the agenda keeps the invariant. -/
theorem step_agenda_inv {s t : State} {w : Work} {r : List Work} (inv : s.Inv) (agenda : s.agenda = w :: r) (next : step s = .next t) : t.Inv := by
  have run : step s = runWork exec { s with agenda := r } w := by
    unfold step
    rw [agenda]
  obtain ⟨kept, -⟩ := runWork_keeps exec _ w exec_keeps_encoded (good_self (s := { s with agenda := r }) inv) t (run ▸ next)
  exact kept

/-- Settles O49: a step is an item of the agenda, the next event or a reference period, and each keeps the invariant. -/
theorem stepKeepsInvariant : Obligations.StepKeepsInvariant := by
  intro s t inv next
  obtain ⟨-, waits, idles⟩ := stepRunsDecoded
  cases agenda : s.agenda with
  | cons w r => exact step_agenda_inv inv agenda next
  | nil =>
    cases inbox : s.inbox with
    | nil => exact exec_inv inv ((idles s agenda inbox).symm.trans next)
    | cons i r => exact exec_inv (s := { s with inbox := r }) inv ((waits s i r agenda inbox).symm.trans next)

end Sys2Proof.Machine

/-!
An operation whose predicate is false, and the predicate field of a decoded one (R26, R75, R76, R94).
-/

namespace Sys2Proof.Machine

/-! ## Findings of the dispatch checks -/

/-- Findings of the dispatch checks alone: no wait, and each fault illegal for its context or out of its grant (R26, R103). -/
structure Dispatched (f : Found) : Prop where
  codes : ∀ g ∈ f.1, g.1 = 1 ∨ g.1 = 2
  unwaiting : f.2 = []

theorem dispatched_fine : Dispatched fine := ⟨List.forall_mem_nil _, rfl⟩

theorem dispatched_need (b : Bool) {code : Nat} (h : code = 1 ∨ code = 2) : Dispatched (need b code) := by
  cases b
  · exact ⟨fun g hg => List.mem_singleton.1 hg ▸ h, rfl⟩
  · exact dispatched_fine

theorem dispatched_legal (b : Bool) : Dispatched (illegalUnless b) := dispatched_need b (.inl rfl)

theorem dispatched_granted (b : Bool) : Dispatched (need b 2) := dispatched_need b (.inr rfl)

theorem Dispatched.both {f g : Found} (hf : Dispatched f) (hg : Dispatched g) : Dispatched (both f g) :=
  ⟨fun a ha => (List.mem_append.1 ha).elim (hf.codes a) (hg.codes a), by rw [Machine.both, hf.unwaiting, hg.unwaiting]; rfl⟩

/-- What is settled from them: nothing, or one of their faults (R93). -/
theorem Dispatched.settle {f : Found} (h : Dispatched f) (c : Ctx) :
    settle c f = .ok ∨ ∃ code info, (code = 1 ∨ code = 2) ∧ settle c f = .fault code info := by
  have low : ∀ g ∈ f.1, g.1 < 256 := fun g hg => by have := h.codes g hg; omega
  have hard : f.1.filter (fun g => g.1 < 256) = f.1 := List.filter_eq_self.2 fun g hg => decide_eq_true (low g hg)
  have soft : f.1.filter (fun g => 256 ≤ g.1) = [] := List.filter_eq_nil_iff.2 fun g hg => by have := low g hg; simpa
  have settled : Machine.settle c f = outcome f.1 [] [] := by
    unfold Machine.settle
    rw [hard, soft, h.unwaiting]
    simp
  have found := lowest_spec f.1
  rw [settled]
  unfold outcome
  revert found
  cases lowest f.1 with
  | none => exact fun _ => .inl rfl
  | some g => exact fun ⟨found, _⟩ => .inr ⟨g.1, g.2, h.codes g found, rfl⟩

/-! ## Operations with a false predicate -/

/-- A check that passes or finds a dispatch check's fault. -/
def OnlyDispatched (ck : Check) : Prop := ck = .ok ∨ ∃ code info, (code = 1 ∨ code = 2) ∧ ck = .fault code info

/-- With a false predicate only what always holds of an operation and its operands' grants are checked (R26, R75). -/
theorem common_off {s : State} {p : BitVec 5} {dst src : List (BitVec 13)} {ks : List (BitVec 8)} {always rest : Found}
    (dispatched : Dispatched always) (hp : predTrue (me s) p = false) : OnlyDispatched (common s p dst src ks always rest) := by
  have checks : common s p dst src ks always rest =
      settle (me s) (both always (need ((dst ++ src).all (vOk (me s)) && ks.all (kOk (me s))) 2)) := by
    simp [common, hp]
  rw [checks]
  exact (dispatched.both (dispatched_granted _)).settle (me s)

/-- Every instruction with an encoding runs under its predicate, behind a check that without it is a dispatch check (R75). -/
theorem exec_performs {i : Instr} (s : State) (encoded : encode i ≠ none) :
    ∃ ck eff, exec i s = perform s ck i.predField eff ∧ (predTrue (me s) i.predField = false → OnlyDispatched ck) := by
  cases i
  case yardCycle | rewindRestore | segmentEntry | yieldBundle | deadlineExpiry | checkRetest | offdieLoadLanding | offcoreAccessPerform
    | pushAccepted | tokenComplete | probeAnswer | rendezvousRelease | barrierRelease | redsApply | mxwinWrite | mxwinTakesEffect
    | dxBackref | dxCopy | txTranspose | hxSha256 | qxConvert | stationJobEnd | arrayCold | shadowFillAccept | shadowFillEnd | hangTimeout
    | hostWrite | hostRead | queueResume | queueEnd | queueCancel | placementDecision | launchRunStart | contextRelease | launchCompletion
    | swapOut | swapOutSave | dramMeterWindow | auditVerdict | scrubPass | sieveAgeing | linkCrcError | repairRequest | repairCopy
    | yardLost | thermalTrip | yardActivate | yardDeclareLost | yardSelfTestDone | degrArrayFailed | degrMacroFailed | degrClear
    | rqCompact | rqExpand | rqMove | rqMakeAbsent | rqMakeResident | rqJobEnd | hostMemwr | birsp | regionWindowEnd | hostSnoop
    | gpfPhase1 | hostHotReset | hostLinkDown | tableSweep | linkRetrained | tokenElementAccept | commitElementDelivery
    | ringRecordWrite | freeFaultEntry | firmwareRequestPost | openQueues | eventClear | fbstatOverflowClear | suspectClear
    | regionEntryWrite | svdataAccess | measurementExtend | hashRegistration | clockFloorChange | privCsrWrite | eventTimer
    | controlContextEntry | quote | certificate | writeImageChunk | commitImage | advanceSecurityVersion | readErrorLog | readHangRecord
    | readLostLineRing | mailboxStandardCommand | mailboxUnsupported | moduleReset | memoryTrained | trainingFailure | imageVerify
    | bringupSelfTestDone | tapldCopyComplete | registrationEnd => exact absurd rfl encoded
  case fence | yield | csrr | csrw | csrwImm | tapld => exact ⟨_, _, by unfold exec; rfl, common_off (dispatched_legal _)⟩
  case semsig | semwait | taprd | ksetImm | ksetScalar | kmov | kmul | kaddeImm | kaddeScalar | kmaxe | kcvtBf16 | kcvtE8m0 | kbindTile
    | kbindBank | kunbindTile | kunbindBank | kwrRow | kwrScalar | kgen | mmaL6 | mmaI8 | mmaE4m3 | mmaE5m2 | mmaE4e5 | mmaE5e4 | mmaBf16
    | mmaFp16 | mmazL6 | mmazI8 | mmazE4m3 | mmazE5m2 | mmazE4e5 | mmazE5e4 | mmazBf16 | mmazFp16 | cmode | cloadRow | cloadRound | cswap
    | cmacRow | cmacRound | cread | creadK | cclr | cchk | ld | ldkRound | ldsStream | st | stkStream | stsStream | redsVector
    | redsScalar | scfgTable | scfgScalar | sadv | srst => exact ⟨_, _, by unfold exec; rfl, common_off (dispatched_granted _)⟩
  case tapp | ldkStream => exact ⟨_, _, by unfold exec; rfl, common_off ((dispatched_granted _).both (dispatched_granted _))⟩
  case taps =>
    exact ⟨_, _, by unfold exec; rfl, common_off ((dispatched_granted _).both ((dispatched_granted _).both (dispatched_granted _)))⟩
  case xfer => exact ⟨_, _, by unfold exec; rfl, common_off ((dispatched_legal _).both (dispatched_granted _))⟩
  case fill | spill =>
    exact ⟨_, _, by unfold exec; rfl, common_off ((dispatched_granted _).both ((dispatched_granted _).both dispatched_fine))⟩
  all_goals exact ⟨_, _, by unfold exec; rfl, common_off dispatched_fine⟩

/-- An operation of W or C runs as the instruction it is. -/
theorem runX_eq (x : XOp) (s : State) : runX x s = exec x.instr s := by cases x <;> rfl

theorem predField_instr (o : SlotOp) : o.instr.predField = o.predField := by
  cases o with
  | ins i => rfl
  | wc x => cases x <;> rfl

/-- A slot operation runs as the instruction it is. -/
theorem runOp_eq (o : SlotOp) (s : State) : runOp exec o s = exec o.instr s := by
  cases o with
  | ins i => rfl
  | wc x => exact runX_eq x s

/-- An encoded slot operation whose predicate is false changes nothing or raises a dispatch check's fault. -/
theorem runOp_off {s : State} {o : SlotOp} (encoded : o.enc ≠ none) (off : predTrue (me s) o.predField = false) :
    runOp exec o s = .next s ∨ ∃ code info, (code = 1 ∨ code = 2) ∧ runOp exec o s = .next (raiseHere s code info) := by
  rw [← predField_instr] at off
  obtain ⟨ck, eff, runs, dispatched⟩ := exec_performs s (o.encode_instr ▸ encoded)
  rw [runOp_eq, runs]
  obtain rfl | ⟨code, info, which, rfl⟩ := dispatched off
  · exact .inl (perform_off rfl off)
  · exact .inr ⟨code, info, which, rfl⟩

/-! ## Predicate fields -/

/-- Y's three bits name p0 to p7 without inversion. -/
theorem yField_lt (p : BitVec 3) : (0#2 ++ p).toNat < 8 := by
  rw [BitVec.toNat_append]
  have := p.isLt
  simpa

/-- No legal field value has the predicate (!p0) (R75, R76). -/
theorem wf_of_predField {i : Instr} (h : i.predField = 0b10000#5) : i.wf = false := by
  cases i
  case nop | bar | rdv | waitdImm | waitdScalar | fence | semsig | semsigScalar | semwait | yield | svc | trap | halt | probe | discard
    | exit => exact absurd (congrArg BitVec.toNat h ▸ yField_lt _) (by decide)
  all_goals cases h
  all_goals rfl

theorem predField_rawY {x : BitVec 24} {i : Instr} (h : rawY x = some i) : i.predField.toNat < 8 := by
  unfold rawY at h
  split at h <;> cases h <;> exact yField_lt _

/-- What a field decodes to was read from it, and has legal field values. -/
theorem decodeField_legal {slot : Nat} {x ext : BitVec 64} {o : SlotOp} (h : decodeField slot x ext = .ok o) :
    rawField slot x ext = some o ∧ o.wf = true := by
  unfold decodeField at h
  split at h
  · cases h
  split at h
  · cases h
  next i raw =>
  split at h
  · cases h
  next legal =>
  have same : i = o := by
    split at h
    · cases h
    · split at h
      · cases h
      · split at h <;> cases h
        rfl
  subst same
  exact ⟨raw, by simpa using legal⟩

/-- Settles O54: an operation with a false predicate is behind the dispatch checks alone; and no decoded one names (!p0). -/
theorem falsePredicateDoesNothing : Obligations.FalsePredicateDoesNothing := by
  refine ⟨fun s o encoded off => runOp_off encoded off, fun slot x ext o decoded => ?_⟩
  obtain ⟨raw, legal⟩ := decodeField_legal decoded
  refine ⟨fun inverted => ?_, ?_⟩
  · rw [← predField_instr] at inverted
    rw [← o.wf_instr, wf_of_predField inverted] at legal
    cases legal
  · rintro rfl
    obtain ⟨i, read, rfl⟩ := Option.map_eq_some_iff.1 raw
    exact predField_rawY read

end Sys2Proof.Machine

/-!
Forms of the service store outside it, the ordering operations, scale arithmetic and tags, and stream registers.
-/

namespace Sys2Proof.Machine

/-! ## Service-only forms outside the service store -/

/-- Faults of their own, of codes above 0x01. -/
def AboveIllegal (f : Found) : Prop := ∀ g ∈ f.1, 1 < g.1 ∧ g.1 < 256

theorem aboveIllegal_fine : AboveIllegal fine := List.forall_mem_nil _

theorem aboveIllegal_waitIf (b : Bool) (w : Wait) (n : Nat) : AboveIllegal (waitIf b w n) := by cases b <;> exact List.forall_mem_nil _

theorem aboveIllegal_need (b : Bool) {code : Nat} (low : 1 < code) (high : code < 256) : AboveIllegal (need b code) := by
  cases b
  · exact fun g hg => List.mem_singleton.1 hg ▸ ⟨low, high⟩
  · exact aboveIllegal_fine

theorem AboveIllegal.both {f g : Found} (hf : AboveIllegal f) (hg : AboveIllegal g) : AboveIllegal (both f g) :=
  fun a ha => (List.mem_append.1 ha).elim (hf a) (hg a)

/-- An operation that its context makes illegal raises fault 0x01 whatever its predicate, where all else that it may raise has a higher
code (R93, R103). -/
theorem exec_illegal {i : Instr} {s : State} {p : BitVec 5} {legal : Bool} {rest : Found} {eff : State → State} (illegal : legal = false)
    (above : AboveIllegal rest) (runs : exec i s = perform s (checkI s i) p eff)
    (checks : checkI s i = common s p [] [] [] (illegalUnless legal) rest) : exec i s = .next (raiseHere s 1 0) := by
  have first : illegalUnless legal = ([(1, 0)], []) := congrArg illegalUnless illegal
  have under : AboveIllegal (if predTrue (me s) p then rest else fine) := by
    split
    · exact above
    · exact aboveIllegal_fine
  have settled : settle (me s) (both (illegalUnless legal) (if predTrue (me s) p then rest else fine)) = .fault 1 0 := by
    have found : ∀ g ∈ (both (illegalUnless legal) (if predTrue (me s) p then rest else fine)).1, g = (1, 0) ∨ 1 < g.1 ∧ g.1 < 256 := by
      rw [first]
      exact fun g hg => (List.mem_cons.1 hg).imp_right (under g)
    refine settle_fault (by rw [first]; exact List.mem_cons_self) (fun g hg => ?_) (fun g hg => ?_) (by decide)
    · rcases found g hg with rfl | higher
      · exact ⟨Nat.le_refl 1, fun _ => rfl⟩
      · omega
    · rcases found g hg with rfl | higher <;> omega
  rw [runs, checks, common_nil_eq, settled]
  rfl

/-- What TAPLD finds of its entry: nothing, or faults 0x02, 0x14 and 0x30. -/
theorem aboveIllegal_tapldFound (s : State) (w : Word) : AboveIllegal (tapldFound s w) := by
  unfold tapldFound
  dsimp only
  split
  · exact aboveIllegal_waitIf _ _ _
  · refine (aboveIllegal_need _ (by decide) (by decide)).both ((aboveIllegal_need _ (by decide) (by decide)).both ?_)
    split
    · exact fun g hg => List.mem_singleton.1 hg ▸ ⟨show 1 < 0x30 by decide, show 0x30 < 256 by decide⟩
    · exact aboveIllegal_fine

/-- Settles O8: each form is illegal in its place, and what else it may raise has a higher code. -/
theorem serviceOnlyFormsFault : Obligations.ServiceOnlyFormsFault := by
  intro s p q d a csr imm tap user privileged
  have number : (decide (csr.toNat < 0x800) || isSvc s.cur.ctx) = false := by
    rw [user, Bool.or_false]
    exact decide_eq_false (by omega)
  refine ⟨?csrr, ?csrw, ?csrwImm, ?tapld, ?fence⟩
  case csrr => apply exec_illegal number (aboveIllegal_waitIf _ _ _) <;> rfl
  case csrw | csrwImm => apply exec_illegal number aboveIllegal_fine <;> rfl
  case tapld => apply exec_illegal user (aboveIllegal_tapldFound _ _) <;> rfl
  case fence => apply exec_illegal user aboveIllegal_fine <;> rfl

/-! ## Ordering operations -/

theorem waitdFound_fine {s : State} {n : Nat} (h : lateSet s s.cur.cycle n = []) : waitdFound s n = fine := by
  unfold waitdFound
  rw [h]

theorem fence_legal {s : State} {scope : BitVec 4} (h : scope.toNat ≠ 9 ∨ isSvc s.cur.ctx = true) :
    illegalUnless (scope != 9 || isSvc s.cur.ctx) = fine := by
  have legal : (scope != 9 || isSvc s.cur.ctx) = true := by
    rw [Bool.or_eq_true, bne_iff_ne]
    exact h.imp_left fun other same => other (congrArg BitVec.toNat same)
  rw [legal]
  rfl

/-- A FENCE that its place allows (R141). -/
theorem exec_fence {s : State} {p : BitVec 3} {scope : BitVec 4} (hp : predTrue (me s) (0#2 ++ p) = true)
    (legal : scope.toNat ≠ 9 ∨ isSvc s.cur.ctx = true) : exec (.fence p scope) s = .next (addFence s scope.toNat) := by
  apply exec_checked hp (common_nil (fence_legal legal) rfl)
  rfl

/-- Settles O12: each operation's check is over by its hypotheses. -/
theorem orderingOperationsComplete : Obligations.OrderingOperationsComplete := by
  refine ⟨fun s p count a scope hp => ⟨?nop, fun settled => ?waitd, fun settled => ?waitdScalar, fun near => ?fenceNear, fun far legal => ?fenceFar⟩,
    fun s p c sem a hp => ⟨fun granted => ?semsig, fun granted => ?semsigScalar⟩⟩
  case nop => apply exec_usable hp (usable_nil s) <;> rfl
  case waitd =>
    apply exec_checked hp (common_nil rfl (waitdFound_fine settled))
    rfl
  case waitdScalar =>
    apply exec_checked hp (common_nil rfl (waitdFound_fine settled))
    rfl
  case fenceNear => rw [exec_fence hp (.inl (by omega)), addFence, if_pos near]
  case fenceFar => rw [exec_fence hp legal, addFence, if_neg (by omega)]
  case semsig =>
    apply exec_checked hp (common_nil (need_ok granted 2) rfl)
    rfl
  case semsigScalar =>
    apply exec_checked hp (common_nil rfl (need_ok granted 2))
    rfl

/-! ## Scale registers -/

theorem setFmt_one {s : State} {k : BitVec 8} (h : kfmt (kreg (me s) k.toNat) ≠ 0) : setFmt s [k] = fine :=
  need_ok (by simpa using h) 6

theorem setFmt_two {s : State} {k l : BitVec 8} (hk : kfmt (kreg (me s) k.toNat) ≠ 0) (hl : kfmt (kreg (me s) l.toNat) ≠ 0) :
    setFmt s [k, l] = fine := need_ok (by simpa using ⟨hk, hl⟩) 6

/-- The row that KRD writes: the entries, and the descriptor above them (R175). -/
theorem scaleRow_eq (k : KReg) : scaleRow k = (k.desc ++ k.entries).setWidth 4096 := by
  apply BitVec.eq_of_toNat_eq
  rw [scaleRow, BitVec.toNat_ofNat, BitVec.toNat_setWidth, BitVec.toNat_append, ← Nat.shiftLeft_add_eq_or_of_lt k.entries.isLt,
    Nat.add_comm]

theorem krd_scalar (k : KReg) (sel : BitVec 1) (n : Nat) :
    BitVec.ofNat 64 (if sel = 1 then k.desc.toNat else n) = if sel = 1 then k.desc.setWidth 64 else BitVec.ofNat 64 n := by
  rw [apply_ite (BitVec.ofNat 64), ofNat_toNat_setWidth]

/-- Settles O24: each operation's checks are its operands', the grant of what it writes and, for arithmetic, the formats of its sources. -/
theorem scaleOperationsComplete : Obligations.ScaleOperationsComplete := by
  intro s p kd ka kb vd va axis format block value step sa entry sel hp
  dsimp only
  simp only [← BitVec.setWidth_eq_extractLsb' (show 1024 ≤ 4096 by decide), ← scaleRow_eq, ← krd_scalar]
  refine ⟨fun granted => ⟨?ksetImm, ?ksetScalar, ?kwrScalar, fun hu => ⟨?kwrRow, ?kgen⟩,
    fun hu => ⟨?kmov, fun set => ⟨?kaddeImm, ?kaddeScalar, ?kcvtBf16, ?kcvtE8m0⟩⟩, fun hu setA setB => ⟨?kmul, ?kmaxe⟩⟩,
    fun hu => ?krdRow, fun hu => ?krdScalar⟩
  case ksetImm | ksetScalar | kwrScalar =>
    apply exec_checked hp (common_nil (scale_granted granted) rfl)
    rfl
  case kwrRow | kgen | kmov =>
    apply exec_checked hp (common_ok hu (scale_granted granted) rfl)
    rfl
  case kaddeImm | kaddeScalar | kcvtBf16 | kcvtE8m0 =>
    apply exec_checked hp (common_ok hu (scale_granted granted) (setFmt_one set))
    rfl
  case kmul | kmaxe =>
    apply exec_checked hp (common_ok hu (scale_granted granted) (setFmt_two setA setB))
    rfl
  case krdRow | krdScalar => apply exec_usable hp hu <;> rfl

/-! ## Binding tags -/

/-- Settles O25: the checks are the grant of what is tagged, the register's, and its format. -/
theorem bindingOperationsComplete : Obligations.BindingOperationsComplete := by
  intro s p tile cm bank ks axis block hp
  refine ⟨fun granted => ⟨fun ⟨hu, set⟩ => ?bindTile, ?unbindTile⟩, fun granted => ⟨fun ⟨hu, set⟩ => ?bindBank, ?unbindBank⟩⟩
  case bindTile =>
    apply exec_checked hp (common_ok hu (need_ok (decide_eq_true granted) 2) (setFmt_one set))
    rfl
  case unbindTile =>
    apply exec_checked hp (common_nil (need_ok (decide_eq_true granted) 2) rfl)
    rfl
  case bindBank =>
    apply exec_checked hp (common_ok hu (macro_granted granted) (setFmt_one set))
    rfl
  case unbindBank =>
    apply exec_checked hp (common_nil (macro_granted granted) rfl)
    rfl

/-! ## Stream registers -/

theorem entry_exists {s : State} {entry : BitVec 12} {d : List Word} (h : (myLaunch s).streams[entry.toNat]? = some d) :
    need (decide (entry.toNat < (myLaunch s).streams.length)) 2 = fine :=
  need_ok (decide_eq_true (List.getElem?_eq_some_iff.1 h).1) 2

/-- Settles O30: the checks are the register's grant and what the operation names of its descriptor or the table. -/
theorem streamConfigurationCompletes : Obligations.StreamConfigurationCompletes := by
  intro s p wn entry word a dim steps d hp granted
  refine ⟨fun named => ?table, fun format => ?scalar, fun inside => ?advance, ?reset⟩
  case table =>
    have read : nth (myLaunch s).streams entry.toNat [] = d := by
      rw [nth, List.getD_eq_getElem?_getD, named, Option.getD_some]
    rw [← read]
    apply exec_checked hp (common_nil (stream_granted granted) (entry_exists named))
    rfl
  case scalar =>
    have legal : need (word != 0 || fmtOk (fld (sreg (me s) a.toNat) 16 5)) 1 = fine :=
      need_ok (Bool.or_eq_true_iff.2 (format.imp_left bne_iff_ne.2)) 1
    apply exec_checked hp (common_nil (stream_granted granted) legal)
    rfl
  case advance =>
    apply exec_checked hp (common_nil (stream_granted granted) (need_ok (decide_eq_true inside) 2))
    rfl
  case reset =>
    apply exec_checked hp (common_nil (stream_granted granted) rfl)
    rfl

end Sys2Proof.Machine

/-!
CSR access, the taps, and the state after module reset.
-/

namespace Sys2Proof.Machine

/-! ## CSR access -/

/-- The CSR numbers that the running context may name (R37, R103). -/
theorem csr_legal {s : State} {csr : BitVec 12} (h : csr.toNat < 0x800 ∨ isSvc s.cur.ctx = true) :
    illegalUnless (decide (csr.toNat < 0x800) || isSvc s.cur.ctx) = fine := need_ok (by simpa using h) 1

/-- An instruction whose check faults raises that fault at its bundle and slot. -/
theorem exec_faults {i : Instr} {s : State} {p : BitVec 5} {ck : Check} {eff : State → State} {code info : Nat} (check : ck = .fault code info)
    (runs : exec i s = perform s ck p eff) : exec i s = .next (raiseHere s code info) := runs.trans (perform_fault check)

/-- An instruction whose check waits freezes its context. -/
theorem exec_waits {i : Instr} {s : State} {p : BitVec 5} {ck : Check} {eff : State → State} {w : Wait} (check : ck = .wait w)
    (runs : exec i s = perform s ck p eff) : exec i s = .next (freezeHere s w) := runs.trans (perform_wait check)

/-- Until the value of an I/O-die register has come back its CSRR freezes the context (R134). -/
theorem exec_csrr_waits {s : State} {p : BitVec 5} {d : BitVec 6} {csr : BitVec 12} (hp : predTrue (me s) p = true)
    (legal : csr.toNat < 0x800 ∨ isSvc s.cur.ctx = true) (far : 0x808 ≤ csr.toNat) (pending : (me s).probeOk = false) :
    exec (.csrr p d csr) s = .next (freezeHere s .csr) := by
  have check : checkI s (.csrr p d csr) = .wait .csr := by
    refine (common_nil_true hp (csr_legal legal) (waitIf (decide (0x808 ≤ csr.toNat) && !(me s).probeOk) .csr 0)).trans ?_
    rw [decide_eq_true far, pending]
    exact settle_unboarded 0 rfl
  apply exec_waits check
  rfl

/-- A CSRR of a register at hand (R134). -/
theorem exec_csrr {s : State} {p : BitVec 5} (d : BitVec 6) {csr : BitVec 12} (hp : predTrue (me s) p = true)
    (legal : csr.toNat < 0x800 ∨ isSvc s.cur.ctx = true) (at_hand : csr.toNat < 0x808 ∨ (me s).probeOk = true) :
    exec (.csrr p d csr) s = .next (emitS (csrReadEffect s csr.toNat) 1 d (csrRead s s.cur.ctx csr.toNat)) := by
  have answered : (decide (0x808 ≤ csr.toNat) && !(me s).probeOk) = false := by
    rw [Bool.and_eq_false_iff, decide_eq_false_iff_not, Bool.not_eq_false', Nat.not_le]
    exact at_hand
  apply exec_checked hp (common_nil (csr_legal legal) (waitIf_no answered .csr 0))
  rfl

/-- The numbers of the user registers that are read and written (R37). -/
def UserCsr (n : Nat) : Prop := 0x020 ≤ n ∧ n ≤ 0x029 ∨ n = 0x030

/-- The numbers of the privileged registers that are read and written (R412). -/
def PrivCsr (n : Nat) : Prop :=
  0x800 ≤ n ∧ n ≤ 0x801 ∨ 0x810 ≤ n ∧ n ≤ 0x817 ∧ n ≠ 0x813 ∨ 0x820 ≤ n ∧ n ≤ 0x825 ∨ n = 0x828 ∨ 0x830 ≤ n ∧ n ≤ 0x836 ∨
    0x840 ≤ n ∧ n ≤ 0x844 ∨ 0x850 ≤ n ∧ n ≤ 0x852 ∨ n = 0x858 ∨ 0x860 ≤ n ∧ n ≤ 0x873 ∨ n = 0x883 ∨ n = 0x8B1 ∨
    0x8C0 ≤ n ∧ n ≤ 0x8C1

theorem csrReadable_number {csr : BitVec 12} (h : csrReadable csr = true) :
    let n := csr.toNat
    UserCsr n ∨ n ≤ 3 ∨ 0x010 ≤ n ∧ n ≤ 0x012 ∨ n = 0x040 ∨ n = 0x041 ∨ n = 0x050 ∨ PrivCsr n ∨ n = 0x802 ∨ n = 0x803 ∨ n = 0x813 ∨
      n = 0x829 ∨ 0x845 ≤ n ∧ n ≤ 0x848 ∨ n = 0x880 ∨ 0x890 ≤ n ∧ n ≤ 0x8AF ∨ n = 0x8C2 := by
  simp only [csrReadable, csrUser, csrUserWritable, csrPriv, csrPrivWriteOnly, Bool.or_eq_true, Bool.and_eq_true, decide_eq_true_eq,
    beq_iff_eq, Bool.not_eq_true', ← Bool.not_eq_true] at h
  unfold UserCsr PrivCsr
  omega

theorem csrWritable_number {csr : BitVec 12} (h : csrWritable csr = true) :
    let n := csr.toNat
    UserCsr n ∨ PrivCsr n ∨ n = 0x808 ∨ n = 0x849 ∨ n = 0x881 ∨ n = 0x882 ∨ n = 0x8B0 := by
  simp only [csrWritable, csrUserWritable, csrPriv, csrPrivReadOnly, Bool.or_eq_true, Bool.and_eq_true, decide_eq_true_eq,
    beq_iff_eq, Bool.not_eq_true', ← Bool.not_eq_true] at h
  unfold UserCsr PrivCsr
  omega

/-- Settles O7: the accesses by their checks, the numbers that decode by the decoder's legal field values. -/
theorem csrAccessCompletes : Obligations.CsrAccessCompletes := by
  refine ⟨fun s p d a csr imm hp legal => ⟨exec_csrr d hp legal, exec_csrr_waits hp legal, ?write, ?writeImm, fun user => ?effect,
    rfl, rfl, rfl, rfl, rfl, rfl, rfl⟩, fun slot x ext o p d a csr imm decoded => ⟨?reads, ?writes⟩, fun s c slot e bad => ?fetch⟩
  case write | writeImm =>
    apply exec_checked hp (common_nil (csr_legal legal) rfl)
    rfl
  case effect =>
    unfold csrReadEffect
    exact if_neg (by omega)
  case reads =>
    rintro rfl
    obtain ⟨-, fields⟩ := decodeField_legal decoded
    exact csrReadable_number (Bool.and_eq_true_iff.1 fields).2
  case writes =>
    obtain ⟨-, fields⟩ := decodeField_legal decoded
    rintro (rfl | rfl)
    · exact csrWritable_number (Bool.and_eq_true_iff.1 fields).2
    · exact csrWritable_number (Bool.and_eq_true_iff.1 fields).2
  case fetch =>
    unfold fetchSlot
    rw [bad]

/-! ## Taps -/

/-- Tiles that are unlocked one by one are unlocked together (R201). -/
theorem unlocked_tiles {c : Ctx} {l : List Nat} (write : Bool) (h : ∀ j ∈ l, Unlocked c [j] (if write then [j] else [])) :
    Unlocked c l.eraseDups (if write then l.eraseDups else []) := by
  intro o ho pending earlier
  have one := fun j hj => h j hj o ho pending earlier
  cases kind : o.kind with
  | spill k t _ _ _ =>
    simp only [kind] at one ⊢
    cases write with
    | false => exact List.not_mem_nil
    | true => exact fun ht => one t (List.mem_eraseDups.1 ht) List.mem_cons_self
  | fill k t _ _ =>
    simp only [kind] at one ⊢
    have free : t ∉ l.eraseDups := fun ht => (one t (List.mem_eraseDups.1 ht)).1 List.mem_cons_self
    refine ⟨free, ?_⟩
    cases write with
    | false => exact List.not_mem_nil
    | true => exact free
  | _ => trivial

section
variable {s : State} {va : BitVec 13} {rows : BitVec 11}

theorem tapGrant_fine {on : Bool} (owned : (me s).grant.taps ≠ 0)
    (inside : on = true → vnum va + (rows.toNat + 1) ≤ 64 * (me s).grant.tiles) : tapGrant s va rows on = fine := by
  have range : (!on || decide (vnum va + (rows.toNat + 1) ≤ 64 * (me s).grant.tiles)) = true := by
    cases on
    · rfl
    · exact decide_eq_true (inside rfl)
  rw [tapGrant, need_ok (bne_iff_ne.2 owned), need_ok range, both_fine]

theorem tapFound_fine {tap seq : BitVec 3} {write : Bool} (carried : seq.toNat ≤ fld (tapOf (me s) tap.toNat).cfg 15 3)
    (whole : (rows.toNat + 1) * 128 = (tapOf (me s) tap.toNat).dim)
    (unlocked : ∀ j ∈ (List.range (rows.toNat + 1)).map (fun r => (vnum va + r) / 64), Unlocked (me s) [j] (if write then [j] else []))
    (sound : SoundRows s ((List.range (rows.toNat + 1)).map (vnum va + ·))) : tapFound s tap seq va rows write = fine := by
  refine allOf_fine ?_
  simp only [List.forall_mem_cons]
  exact ⟨need_ok (decide_eq_true carried) 2, need_ok (decide_eq_true whole) 2, locks_fine (unlocked_tiles write unlocked),
    poisonRows_fine sound, List.forall_mem_nil _⟩

/-- TAPS is checked for its first row and, where the tap steers, for its range (R184, log 108). -/
theorem tapsGrant_fine {on : Bool} (owned : (me s).grant.taps ≠ 0) (first : vnum va < 64 * (me s).grant.tiles)
    (inside : on = true → vnum va + (rows.toNat + 1) ≤ 64 * (me s).grant.tiles) :
    both (need (vOk (me s) va) 2) (tapGrant s va rows on) = fine := by
  rw [need_ok (show vOk (me s) va = true from decide_eq_true first), tapGrant_fine owned inside, both_fine]

end

/-- The findings of TAPLD in a legal entry: its poison (R181, R384). -/
theorem tapldFound_entry {s : State} {w : Word} (copied : (me s).probeOk = true) (entry : TapEntry s w) :
    tapldFound s w = (poisonIn s 0x18 0 64 (tapEntryAddr s w % 2 ^ 39) 36864).elim fine (fun i => ([(0x30, i)], [])) := by
  obtain ⟨low, high, step, position, arms, enable, reserved⟩ := entry
  have zero : s.dev.all (fun e => e.2 == 0 || !(decide (tapEntryAddr s w ≤ e.1 ∧ e.1 < tapEntryAddr s w + 36864) &&
      tapReserved (readLe s.dev (tapEntryAddr s w) 2) (e.1 - tapEntryAddr s w))) = true := by
    rw [List.all_eq_true]
    intro e he
    rw [Bool.or_eq_true, Bool.not_eq_true', Bool.and_eq_false_iff, decide_eq_false_iff_not, beq_iff_eq]
    by_cases inside : tapEntryAddr s w ≤ e.1 ∧ e.1 < tapEntryAddr s w + 36864
    · cases byte : tapReserved (readLe s.dev (tapEntryAddr s w) 2) (e.1 - tapEntryAddr s w) with
      | false => exact .inr (.inr rfl)
      | true => exact .inl (reserved e he inside.1 inside.2 byte)
    · exact .inr (.inl inside)
  have side : fld w 18 1 ≤ 1 := by have := (w.extractLsb' 18 1).isLt; unfold fld; omega
  have fields : decide (128 ≤ readLe s.dev (tapEntryAddr s w) 2 ∧ readLe s.dev (tapEntryAddr s w) 2 ≤ 8192 ∧
      readLe s.dev (tapEntryAddr s w) 2 % 128 = 0 ∧ fld w 18 1 ≤ 1 ∧
      readLe s.dev (tapEntryAddr s w + 3) 1 ≤ 7 ∧ readLe s.dev (tapEntryAddr s w + 8) 1 ≤ 1) = true :=
    decide_eq_true ⟨low, high, step, side, arms, enable⟩
  unfold tapldFound
  simp only [copied, position, fields, zero, beq_self_eq_true, Bool.not_true, Bool.false_eq_true, if_false, Bool.and_self, need_true,
    both_fine]
  cases poisonIn s 0x18 0 64 (tapEntryAddr s w % 2 ^ 39) 36864 <;> rfl

theorem settle_one (c : Ctx) {code info : Nat} (h : code < 256) : settle c ([(code, info)], []) = .fault code info := by
  have soft : ¬ 256 ≤ code := by omega
  simp [settle, outcome, lowest, h, soft]

/-- Settles O23: the taps' checks by their hypotheses; TAPLD's by whether its entry holds poison. -/
theorem tapOperationsComplete : Obligations.TapOperationsComplete := by
  intro s p tap seq va rows sc sd sa what hp
  dsimp only
  simp only [← BitVec.setWidth_eq_extractLsb' (show 32 ≤ 64 by decide)]
  refine ⟨fun owned carried whole inside sound => ⟨fun hu unlocked => ?tapp, fun unlocked steer => ?taps⟩, fun owned still first => ?still,
    fun owned => ?taprd, fun svc copied entry => ⟨fun i bad => ?poison, fun clean => ?tapld⟩⟩
  case tapp =>
    apply exec_checked hp (common_ok hu (tapGrant_fine owned fun _ => inside) (tapFound_fine (write := false) carried whole unlocked sound))
    rfl
  case taps =>
    have check : checkI s (.taps p tap seq va rows sc) = .ok := by
      refine common_nil (tapsGrant_fine owned (by omega) fun _ => inside) ?_
      rw [if_pos (show steers s tap = true from steer)]
      exact tapFound_fine (write := true) carried whole unlocked sound
    change perform s (checkI s (.taps p tap seq va rows sc)) p _ = _
    rw [perform_ok check hp]
    exact congrArg _ (if_pos steer)
  case still =>
    have check : checkI s (.taps p tap seq va rows sc) = .ok := by
      refine common_nil (tapsGrant_fine owned first fun steer => absurd steer (by rw [steers, still]; decide)) ?_
      rw [steers, still]
      rfl
    change perform s (checkI s (.taps p tap seq va rows sc)) p _ = _
    rw [perform_ok check hp]
    exact congrArg _ (if_neg (by rw [steers, still]; decide))
  case taprd =>
    apply exec_checked hp (common_nil (need_ok (bne_iff_ne.2 owned) 2) rfl)
    rfl
  case poison =>
    have check : checkI s (.tapld p tap sa) = .fault 0x30 i := by
      refine (common_nil_true hp (by rw [svc, illegalUnless_true]) (tapldFound s (sreg (me s) sa.toNat))).trans ?_
      rw [tapldFound_entry copied entry, bad]
      exact settle_one (me s) (by decide)
    apply exec_faults check
    rfl
  case tapld =>
    have check : checkI s (.tapld p tap sa) = .ok :=
      common_nil (by rw [svc, illegalUnless_true]) (by rw [tapldFound_entry copied entry, clean, Option.elim_none])
    apply exec_checked hp check
    rfl

/-! ## Module reset -/

/-- Settles O47: the fields of the state after reset, read one by one. -/
theorem resetState : Obligations.ResetState := by
  refine ⟨rfl, fun _ => rfl, fun _ => rfl, fun _ => rfl, fun _ => rfl, by decide, by decide, by decide, by decide, fun _ => rfl,
    fun _ => (by decide : regValid 0 = false), rfl, rfl, rfl⟩

end Sys2Proof.Machine

/-!
The views of the vector file, in reading and in landing (R28, R29, R152).
-/

namespace Sys2Proof.Machine

/-! ## Elements of packed values -/

theorem testBit_elem (c x j i : Nat) : (elem c x j).testBit i = (decide (i < c) && x.testBit (c * j + i)) := by
  rw [elem, Nat.testBit_mod_two_pow, Nat.testBit_shiftRight]

theorem elem_lt (c x j : Nat) : elem c x j < 2 ^ c := Nat.mod_lt _ (Nat.two_pow_pos c)

/-- An element within an element. -/
theorem elem_elem (x j b : Nat) (h : b < 8) : elem 8 (elem 64 x j) b = elem 8 x (8 * j + b) := by
  refine Nat.eq_of_testBit_eq fun i => ?_
  rw [testBit_elem, testBit_elem, testBit_elem]
  by_cases hi : i < 8
  · rw [decide_eq_true hi, decide_eq_true (show 8 * b + i < 64 by omega), show 64 * j + (8 * b + i) = 8 * (8 * j + b) + i by omega,
      Bool.true_and, Bool.true_and]
  · rw [decide_eq_false hi, Bool.false_and, Bool.false_and]

/-- Words whose bytes are the same are the same. -/
theorem elem_eq_of_bytes {x y j : Nat} (h : ∀ b < 8, elem 8 x (8 * j + b) = elem 8 y (8 * j + b)) : elem 64 x j = elem 64 y j := by
  refine Nat.eq_of_testBit_eq fun i => ?_
  rw [testBit_elem, testBit_elem]
  by_cases hi : i < 64
  · have byte := congrArg (fun n => n.testBit (i % 8)) (h (i / 8) (by omega))
    simp only [testBit_elem, decide_eq_true (show i % 8 < 8 by omega), Bool.true_and] at byte
    rw [show 8 * (8 * j + i / 8) + i % 8 = 64 * j + i by omega] at byte
    rw [byte]
  · rw [decide_eq_false hi, Bool.false_and, Bool.false_and]

theorem testBit_pack {c : Nat} (hc : 0 < c) (n : Nat) (f : Nat → Nat) (i : Nat) :
    (pack c n f).testBit i = (decide (i < c * n) && (f (i / c)).testBit (i % c)) := by
  induction n generalizing f i with
  | zero => simp [pack]
  | succ n ih =>
    rw [pack, Nat.testBit_or, Nat.testBit_shiftLeft, ih, Nat.testBit_mod_two_pow]
    by_cases low : i < c
    · have high : ¬ i ≥ c := by omega
      have inside : i < c * (n + 1) := Nat.lt_of_lt_of_le low (Nat.le_mul_of_pos_right c (Nat.succ_pos n))
      simp [low, high, inside, Nat.div_eq_of_lt low, Nat.mod_eq_of_lt low]
    · obtain ⟨k, rfl⟩ := Nat.exists_eq_add_of_le (Nat.le_of_not_lt low)
      have inside : c + k < c * (n + 1) ↔ k < c * n := by rw [Nat.mul_succ]; omega
      simp [inside, Nat.add_div_left k hc]

theorem getLsbD_rowOf {c n : Nat} (hc : 0 < c) (h : c * n = 4096) (f : Nat → Nat) {i : Nat} (hi : i < 4096) :
    (rowOf c n f).getLsbD i = (f (i / c)).testBit (i % c) := by
  rw [rowOf, BitVec.getLsbD_ofNat, testBit_pack hc, h, decide_eq_true hi, Bool.true_and, Bool.true_and]

/-- Element `e` of a row built from its elements. -/
theorem elem_rowOf {c n : Nat} (hc : 0 < c) (h : c * n = 4096) (f : Nat → Nat) {e : Nat} (he : e < n) :
    elem c (rowOf c n f).toNat e = f e % 2 ^ c := by
  refine Nat.eq_of_testBit_eq fun i => ?_
  rw [testBit_elem, Nat.testBit_mod_two_pow]
  by_cases hi : i < c
  · have inside : c * e + i < 4096 := h ▸ Nat.lt_of_lt_of_le (Nat.add_lt_add_left hi _) (Nat.mul_le_mul_left c he)
    rw [BitVec.testBit_toNat, getLsbD_rowOf hc h f inside, Nat.mul_add_div hc, Nat.div_eq_of_lt hi, Nat.add_zero,
      Nat.mul_add_mod, Nat.mod_eq_of_lt hi]
  · rw [decide_eq_false hi, Bool.false_and, Bool.false_and]

/-! ## Masked rows and cells -/

theorem testBit_maskByte (b : Bool) {i : Nat} (h : i < 8) : (if b = true then 255 else 0 : Nat).testBit i = b := by
  cases b
  · exact Nat.zero_testBit i
  · rw [if_pos rfl, show 255 = 2 ^ 8 - 1 from rfl, Nat.testBit_two_pow_sub_one, decide_eq_true h]

/-- A masked row has the new bytes that its mask names and the old ones beside them. -/
theorem elem_blend (old new : Row) (m : BitVec 512) {q : Nat} (hq : q < 512) :
    elem 8 (blend old new m).toNat q = if m.getLsbD q then elem 8 new.toNat q else elem 8 old.toNat q := by
  refine Nat.eq_of_testBit_eq fun i => ?_
  rw [apply_ite (fun n => Nat.testBit n i), testBit_elem, testBit_elem, testBit_elem]
  by_cases hi : i < 8
  · have mask : (byteMask m).getLsbD (8 * q + i) = m.getLsbD q := by
      rw [byteMask, getLsbD_rowOf (by decide) rfl _ (by omega), show (8 * q + i) / 8 = q by omega, testBit_maskByte _ (by omega)]
    rw [BitVec.testBit_toNat, BitVec.testBit_toNat, BitVec.testBit_toNat, blend, BitVec.getLsbD_or, BitVec.getLsbD_and, BitVec.getLsbD_and,
      BitVec.getLsbD_not, mask, decide_eq_true hi, decide_eq_true (show 8 * q + i < 4096 by omega)]
    cases m.getLsbD q <;> simp
  · simp [hi]

/-- A byte mask of a cell, moved to the cell. -/
theorem testBit_cellMask (m j q : Nat) {i : Nat} (hi : i < 8) :
    (decide (8 * q + i ≥ 64 * j) && (pack 8 8 (fun i => if m.testBit i then 255 else 0)).testBit (8 * q + i - 64 * j)) =
      (decide (q / 8 = j) && m.testBit (q % 8)) := by
  rw [testBit_pack (by decide)]
  by_cases own : q / 8 = j
  · rw [show 8 * q + i - 64 * j = 8 * (q % 8) + i by omega, decide_eq_true (show 8 * q + i ≥ 64 * j by omega),
      decide_eq_true (show 8 * (q % 8) + i < 8 * 8 by omega), decide_eq_true own, show (8 * (q % 8) + i) / 8 = q % 8 by omega,
      testBit_maskByte _ (by omega), Bool.true_and]
  · have apart : (decide (8 * q + i ≥ 64 * j) && decide (8 * q + i - 64 * j < 8 * 8)) = false := by
      rw [Bool.and_eq_false_iff, decide_eq_false_iff_not, decide_eq_false_iff_not]
      omega
    rw [← Bool.and_assoc, apart, decide_eq_false own, Bool.false_and, Bool.false_and]

/-- A row with a cell written has in it the bytes that the mask names, and every other byte stands. -/
theorem elem_setCell (r : Row) {j : Nat} (hj : j < 64) (v m : Nat) {q : Nat} (hq : q < 512) :
    elem 8 (setCell r j v m).toNat q = if q / 8 = j ∧ m.testBit (q % 8) = true then elem 8 v (q % 8) else elem 8 r.toNat q := by
  have small : pack 8 8 (fun i => if m.testBit i then 255 else 0) <<< (64 * j) < 2 ^ 4096 := by
    refine Nat.lt_pow_two_of_testBit _ fun i hi => ?_
    rw [Nat.testBit_shiftLeft, testBit_pack (by decide), decide_eq_false (show ¬ i - 64 * j < 8 * 8 by omega), Bool.false_and,
      Bool.and_false]
  refine Nat.eq_of_testBit_eq fun i => ?_
  rw [apply_ite (fun n => Nat.testBit n i), testBit_elem, testBit_elem, testBit_elem]
  by_cases hi : i < 8
  · have value : (decide (8 * q + i ≥ 64 * j) && (v.testBit (8 * q + i - 64 * j) &&
        (pack 8 8 (fun i => if m.testBit i then 255 else 0)).testBit (8 * q + i - 64 * j))) =
          (v.testBit (8 * q + i - 64 * j) && (decide (q / 8 = j) && m.testBit (q % 8))) := by
      rw [Bool.and_left_comm, testBit_cellMask m j q hi]
    rw [setCell, BitVec.toNat_ofNat, Nat.testBit_mod_two_pow, Nat.testBit_or, Nat.testBit_and, Nat.sub_sub, Nat.add_comm 1,
      Nat.testBit_two_pow_sub_succ small, Nat.testBit_shiftLeft, Nat.testBit_shiftLeft, Nat.testBit_and, value,
      testBit_cellMask m j q hi, decide_eq_true (show 8 * q + i < 4096 by omega)]
    by_cases own : q / 8 = j
    · rw [show 8 * q + i - 64 * j = 8 * (q % 8) + i by omega]
      cases m.testBit (q % 8) <;> simp [own, hi]
    · simp [own, hi]
  · simp [hi]

/-! ## Rows of a view -/

/-- The column of the cell that element `k` of register `n` is in a column or diagonal view. -/
def viewCol (n d k : Nat) : Nat := if d = 1 then n % 64 else (k + n % 64) % 64

theorem viewCol_lt (n d k : Nat) : viewCol n d k < 64 := by
  unfold viewCol
  split <;> omega

/-- Rows changed one after another, each by its own place. -/
theorem mget_foldl_mset (m : Map Row) (base : Nat) (g : Nat → Row → Row) (r n : Nat) :
    mget ((List.range n).foldl (fun rs e => mset rs (base + e) (g e (mget rs (base + e) 0)) 0) m) r 0 =
      if base ≤ r ∧ r < base + n then g (r - base) (mget m r 0) else mget m r 0 := by
  induction n with
  | zero => rw [if_neg (by omega)]; rfl
  | succ n ih =>
    rw [List.range_succ, List.foldl_append, List.foldl_cons, List.foldl_nil, mget_mset]
    by_cases last : r = base + n
    · subst last
      rw [if_pos rfl, ih, if_neg (by omega), if_pos (by omega), Nat.add_sub_cancel_left]
    · rw [if_neg last, ih]
      exact if_congr (by omega) rfl rfl

/-- A row of the vector file after a write of a row view. -/
theorem vrow_writeView_row (c : Ctx) (n : Nat) (v : Row) (m : BitVec 512) (r : Nat) :
    vrow (writeView c n 0 v m) r = if r = n then blend (vrow c n) v m else vrow c r := mget_mset ..

/-- A row of the vector file after a write of a column or diagonal view: in the tile of the view, one cell (R29). -/
theorem vrow_writeView_tile (c : Ctx) (n : Nat) {d : Nat} (hd : d ≠ 0) (v : Row) (m : BitVec 512) (r : Nat) :
    vrow (writeView c n d v m) r = if n / 64 * 64 ≤ r ∧ r < n / 64 * 64 + 64 then
      setCell (vrow c r) (viewCol n d (r - n / 64 * 64)) (elem 64 v.toNat (r - n / 64 * 64)) (fld m (8 * (r - n / 64 * 64)) 8)
      else vrow c r := by
  obtain ⟨k, rfl⟩ := Nat.exists_eq_succ_of_ne_zero hd
  exact mget_foldl_mset c.vrows (n / 64 * 64) (fun e row => setCell row (viewCol n (k + 1) e) (elem 64 v.toNat e) (fld m (8 * e) 8)) r 64

/-- The byte `q` of row `r` after a masked write of a view: where the mask names it, the byte of the element whose cell it lies in (R29). -/
theorem elem_writeView_tile (c : Ctx) (n : Nat) {d : Nat} (hd : d ≠ 0) (v : Row) (m : BitVec 512) (r : Nat) {q : Nat} (hq : q < 512) :
    let e := r - n / 64 * 64
    elem 8 (vrow (writeView c n d v m) r).toNat q =
      if (n / 64 * 64 ≤ r ∧ r < n / 64 * 64 + 64) ∧ q / 8 = viewCol n d e ∧ m.getLsbD (8 * e + q % 8) = true then
        elem 8 v.toNat (8 * e + q % 8) else elem 8 (vrow c r).toNat q := by
  intro e
  rw [vrow_writeView_tile c n hd]
  by_cases inside : n / 64 * 64 ≤ r ∧ r < n / 64 * 64 + 64
  · have mask : (fld m (8 * e) 8).testBit (q % 8) = m.getLsbD (8 * e + q % 8) := by
      rw [fld, BitVec.testBit_toNat, BitVec.getLsbD_extractLsb', decide_eq_true (show q % 8 < 8 by omega), Bool.true_and]
    rw [if_pos inside, elem_setCell _ (viewCol_lt n d _) _ _ hq, elem_elem _ _ _ (Nat.mod_lt _ (by decide)), mask]
    exact if_congr (by simp [inside, e]) rfl rfl
  · rw [if_neg inside, if_neg (fun h => inside h.1)]

theorem elem_writeView_row (c : Ctx) (n : Nat) (v : Row) (m : BitVec 512) (r : Nat) {q : Nat} (hq : q < 512) :
    elem 8 (vrow (writeView c n 0 v m) r).toNat q =
      if r = n ∧ m.getLsbD q = true then elem 8 v.toNat q else elem 8 (vrow c r).toNat q := by
  rw [vrow_writeView_row]
  by_cases own : r = n
  · subst own
    rw [if_pos rfl, elem_blend _ _ _ hq]
    exact if_congr (by simp) rfl rfl
  · rw [if_neg own, if_neg (fun h => own h.1)]

/-! ## A landing row -/

theorem vrow_logRows (x : Ctx) (rows : List Nat) (r : Nat) : vrow (logRows x rows) r = vrow x r :=
  foldl_keep (fun y : Ctx => vrow y r = vrow x r) _ (fun y n hy => by rw [logUnit_frame]; exact hy) rows x rfl

theorem ctxOf_clearRows (s : State) (c reg dir : Nat) (m : BitVec 512) (i : Nat) : ctxOf (clearRows s c reg dir m) i = ctxOf s i := by
  unfold clearRows
  split <;> rfl

/-- A landing result with a mask is written through its view; one without changes no row. -/
theorem ctxOf_landEff_row {s : State} {c : Nat} {f : Flight} {n d : Nat} {v : Row} {m : BitVec 512} (h : f.eff = .row n d v m) :
    ctxOf (landEff s c f) c = if m = 0 then ctxOf s c else writeView (logRows (ctxOf s c) (viewRows n d)) n d v m := by
  unfold landEff
  rw [h, ctxOf_modCtx_self, ctxOf_clearRows]

/-- The bytes of a row after a landing in a row view. -/
theorem elem_landEff_row {s : State} {c : Nat} {f : Flight} {n : Nat} {v : Row} {m : BitVec 512} (h : f.eff = .row n 0 v m) (r : Nat)
    {q : Nat} (hq : q < 512) : elem 8 (vrow (ctxOf (landEff s c f) c) r).toNat q =
      if r = n ∧ m.getLsbD q = true then elem 8 v.toNat q else elem 8 (vrow (ctxOf s c) r).toNat q := by
  rw [ctxOf_landEff_row h]
  split
  · next empty => simp [empty]
  · rw [elem_writeView_row _ _ _ _ _ hq, vrow_logRows]

/-- The bytes of a row after a landing in a column or diagonal view. -/
theorem elem_landEff_tile {s : State} {c : Nat} {f : Flight} {n d : Nat} {v : Row} {m : BitVec 512} (h : f.eff = .row n d v m) (hd : d ≠ 0)
    (r : Nat) {q : Nat} (hq : q < 512) :
    let e := r - n / 64 * 64
    elem 8 (vrow (ctxOf (landEff s c f) c) r).toNat q =
      if (n / 64 * 64 ≤ r ∧ r < n / 64 * 64 + 64) ∧ q / 8 = viewCol n d e ∧ m.getLsbD (8 * e + q % 8) = true then
        elem 8 v.toNat (8 * e + q % 8) else elem 8 (vrow (ctxOf s c) r).toNat q := by
  intro e
  rw [ctxOf_landEff_row h]
  split
  · next empty => simp [empty]
  · rw [elem_writeView_tile _ _ hd _ _ _ hq, vrow_logRows]

theorem elem_readView_tile (c : Ctx) (n : Nat) {d e : Nat} (hd : d = 1 ∨ d = 2) (he : e < 64) :
    elem 64 (readView c n d).toNat e = elem 64 (vrow c (n / 64 * 64 + e)).toNat (viewCol n d e) := by
  rcases hd with rfl | rfl
  · exact (elem_rowOf (by decide) rfl _ he).trans (Nat.mod_eq_of_lt (elem_lt ..))
  · exact (elem_rowOf (by decide) rfl _ he).trans (Nat.mod_eq_of_lt (elem_lt ..))

/-- Settles O57: a row view is its row; the other views take one cell of each row of a tile, in reading and in landing. -/
theorem vectorViewsReadAndWrite : Obligations.VectorViewsReadAndWrite := by
  intro s c n d e hd he
  by_cases row : d = 0
  · subst row
    refine ⟨rfl, fun f v m h => ⟨fun b hb => ?_, fun r j hj outside => ?_⟩⟩
    · refine (elem_landEff_row h n (q := 8 * e + b) (by omega)).trans (if_congr (by simp) rfl rfl)
    · refine elem_eq_of_bytes fun b hb => ?_
      rw [elem_landEff_row h r (by omega), if_neg fun own => outside j hj (by rw [own.1]; rfl)]
  · intro at'
    have cell : ∀ k, at' k = (n / 64 * 64 + k, viewCol n d k) := fun k => if_neg row
    rw [cell e]
    refine ⟨elem_readView_tile _ _ (by omega) he, fun f v m h => ⟨fun b hb => ?_, fun r j hj outside => ?_⟩⟩
    · have col := viewCol_lt n d e
      refine (elem_landEff_tile h row (n / 64 * 64 + e) (q := 8 * viewCol n d e + b) (by omega)).trans ?_
      rw [Nat.add_sub_cancel_left, show (8 * viewCol n d e + b) / 8 = viewCol n d e by omega,
        show (8 * viewCol n d e + b) % 8 = b by omega]
      exact if_congr (by simp [he]) rfl rfl
    · refine elem_eq_of_bytes fun b hb => ?_
      rw [elem_landEff_tile h row r (by omega), if_neg]
      rintro ⟨⟨low, high⟩, own, -⟩
      refine outside (r - n / 64 * 64) (by omega) ?_
      rw [cell, Nat.add_sub_cancel' low, ← own, show (8 * j + b) / 8 = j by omega]

end Sys2Proof.Machine

/-!
The compute-in-memory operations (R219 to R226).
-/

namespace Sys2Proof.Machine

section
variable {s : State}

theorem cim_idle {mask : BitVec 8} {a b c : Bool} (idle : Idle s mask a b c) (fill : NoFill (me s) mask) :
    allOf [busyFound s mask a b c, fillFound (me s) mask] = fine := by
  rw [busyFound_fine idle, fillFound_fine fill]
  rfl

theorem mac_idle {mask : BitVec 8} (idle : Idle s mask true false false) (parity : GoodParity s mask) :
    allOf [busyFound s mask true false false, parityFound s mask] = fine := by
  rw [busyFound_fine idle, parityFound_fine parity]
  rfl

/-- A shadow bank in weights mode waits for its fill; a scratch macro has none to wait for (R219, R220). -/
theorem fill_unless_scratch {mask : BitVec 8} {scr : Bool} (fill : scr = false → NoFill (me s) mask) :
    (if scr then fine else fillFound (me s) mask) = fine := by
  cases scr
  · exact fillFound_fine (fill rfl)
  · rfl

/-- What CLOAD finds beside its operands and its traffic (R221). -/
theorem cload_idle {cm : BitVec 3} {first : BitVec 8} {wfmt : BitVec 5} {more : List Found}
    (fits : first.toNat + 64 / containerBits wfmt.toNat ≤ 256)
    (idle : Idle s (cmMask cm) (macroOf (me s) cm.toNat).scratch (!(macroOf (me s) cm.toNat).scratch) false)
    (fill : (macroOf (me s) cm.toNat).scratch = false → NoFill (me s) (cmMask cm)) (rest : ∀ f ∈ more, f = fine) :
    allOf (need (decide (first.toNat + 64 / containerBits wfmt.toNat ≤ 256)) 2 ::
      busyFound s (cmMask cm) (macroOf (me s) cm.toNat).scratch (!(macroOf (me s) cm.toNat).scratch) false ::
      (if (macroOf (me s) cm.toNat).scratch then fine else fillFound (me s) (cmMask cm)) :: more) = fine := by
  refine allOf_fine ?_
  simp only [List.forall_mem_cons]
  exact ⟨need_ok (decide_eq_true fits) 2, busyFound_fine idle, fill_unless_scratch fill, rest⟩

theorem creadkFound_fine {cm : BitVec 3} (current : tagCurrent (me s) (bankTag cm.toNat 0) = true)
    (fits : (if tagAxis (me s) (bankTag cm.toNat 0) = 1 ∧ tagBlock (me s) (bankTag cm.toNat 0) ≤ 128 then
      256 / tagBlock (me s) (bankTag cm.toNat 0) else 1) = blocksOf (macroOf (me s) cm.toNat))
    (sound : SoundTag s (bankTag cm.toNat 0)) : creadkFound s cm = fine := by
  have split : creadkFound s cm = both (need (blocksOf (macroOf (me s) cm.toNat) == blocksOf (macroOf (me s) cm.toNat)) 6)
      (poisonTag s (bankTag cm.toNat 0)) := by
    unfold creadkFound
    dsimp only
    rw [fits]
    unfold blocksOf
    cases (macroOf (me s) cm.toNat).time.split <;> simp [current]
  rw [split, beq_self_eq_true, need_true, both_fine, poisonTag_fine sound]

/-- A shadow bank's check waits for its fill (R226). -/
theorem cchk_idle {cm : BitVec 3} {bank : BitVec 1} (idle : Idle s (cmMask cm) (bank == 0) (bank == 1) false)
    (fill : bank = 1 → (macroOf (me s) cm.toNat).scratch = false → NoFill (me s) (cmMask cm)) :
    allOf [busyFound s (cmMask cm) (bank == 0) (bank == 1) false,
      (if bank == 1 && !(macroOf (me s) cm.toNat).scratch then fillFound (me s) (cmMask cm) else fine)] = fine := by
  have pending : (if bank == 1 && !(macroOf (me s) cm.toNat).scratch then fillFound (me s) (cmMask cm) else fine) = fine := by
    refine ite_eq_right_iff.2 fun waits => fillFound_fine ?_
    rw [Bool.and_eq_true, beq_iff_eq, Bool.not_eq_true'] at waits
    exact fill waits.1 waits.2
  rw [busyFound_fine idle, pending]
  rfl

end

/-- Settles O33: each operation's checks are its macros' grant and their parts', and the effects are the model's own; a row of
activations is read from vector rows that the bookkeeping of the macros leaves. -/
theorem cimOperationsComplete : Obligations.CimOperationsComplete := by
  intro s p vd vs va mode mask cm first wfmt wacc bay off lane abits asigned half bank hp
  refine ⟨fun granted => ⟨fun idle fill => ⟨?cmode, ?cswap⟩, fun idle parity => ⟨fun hu => ?cmacRow, fun free => ?cmacRound⟩, fun idle => ?cclr⟩,
    fun granted => ⟨fun fits idle fill => ⟨fun hu => ?cloadRow, fun free => ?cloadRound⟩, fun hu acc => ?cread,
      fun hu acc current split sound => ?creadK, fun idle fill => ?cchk⟩⟩
  case cmode | cswap =>
    apply exec_checked hp (common_nil (macros_granted granted) (cim_idle idle fill))
    rfl
  case cmacRow =>
    have kept : ∀ n m, readVec (me (fixSplits (occupy (occupy s mask true false false n) mask false false true m) mask)) va = readVec (me s) va :=
      fun n m => readVec_congr (by simp) va
    refine (exec_checked hp (common_ok hu (macros_granted granted) (mac_idle idle parity)) (by rfl)).trans ?_
    simp only [kept]
  case cmacRound =>
    have check : allOf [trafficFound s (loadTraffic s bay (off.toNat * 64) 512 lane 2 8), busyFound s mask true false false,
        parityFound s mask] = fine := by
      rw [allOf_cons, trafficFound_fine free, both_fine, mac_idle idle parity]
    apply exec_checked hp (common_nil (macros_granted granted) check)
    rfl
  case cclr =>
    apply exec_checked hp (common_nil (macros_granted granted) (busyFound_fine idle))
    rfl
  case cloadRow =>
    apply exec_checked hp (common_ok hu (macro_granted granted) (cload_idle fits idle fill (List.forall_mem_nil _)))
    rfl
  case cloadRound =>
    apply exec_checked hp (common_nil (macro_granted granted)
      (cload_idle fits idle fill (List.forall_mem_singleton.2 (trafficFound_fine free))))
    rfl
  case cread =>
    apply exec_checked hp (common_ok hu (macro_granted granted) (accFound_fine acc))
    rfl
  case creadK =>
    have check : allOf [accFound s cm, creadkFound s cm] = fine := by
      rw [accFound_fine acc, creadkFound_fine current split sound]
      rfl
    apply exec_checked hp (common_ok hu (macro_granted granted) check)
    rfl
  case cchk =>
    refine (exec_checked hp (common_nil (macro_granted granted) (cchk_idle idle fill)) (by rfl)).trans ?_
    simp only [modMe_cur, checkBank_cur]

end Sys2Proof.Machine

/-!
The matrix products: their checks, their sums and result rows, and the hint of a burst (R213 to R218, R272, R273).
-/

namespace Sys2Proof.Machine

/-! ## Checks of a matrix product -/

/-- What an accumulating product finds beside its rows' grant (R213, R384). -/
theorem mma_ready {s : State} {v : Nat} {vd : BitVec 11} {abay : BitVec 3} {aoff : BitVec 12} {bbay : BitVec 3} {boff : BitVec 12}
    {alane blane : BitVec 4} {sc : BitVec 1} (ready : MmaReady s v vd abay aoff bbay boff alane blane sc)
    (sound : SoundRows s ((List.range (mmaRows v (sc == 1#1))).map (vd.toNat + ·))) :
    allOf [mmaFound s v vd abay aoff bbay boff alane blane sc, poisonRows s ((List.range (mmaRows v (sc == 1#1))).map (vd.toNat + ·))] = fine := by
  rw [mmaFound_fine ready, poisonRows_fine sound]
  rfl

/-! ## Sums -/

theorem readAtIssue_unmarked {s : State} (h : s.marks = []) (ranges : List (Nat × Nat)) (lands : Nat) (go : State → State) :
    readAtIssue s ranges lands go = go s := by
  have corrected : correctAll s (markHit 0x0B (stableOf s.cur.ctx) 512 ranges) = s := by
    unfold correctAll
    rw [h]
    rfl
  unfold readAtIssue
  simp [h, corrected]

theorem me_warmArray (s : State) : me (warmArray s) = me s := by
  unfold warmArray
  dsimp only
  split <;> rfl

/-- One output of a product, from the rows of its operands in the round. -/
def mmaCell (s : State) (v : Nat) (vd : BitVec 11) (abay : BitVec 3) (aoff : BitVec 12) (bbay : BitVec 3) (boff : BitVec 12) (sg : BitVec 2)
    (sc : BitVec 1) (i j : Nat) : BitVec 48 × Bool × Flags5 :=
  mmaOut (me s) v vd.toNat sg (sc == 1) i j
    (operandRow (roundRead s (stableOf s.cur.ctx) abay.toNat (aoff.toNat * 64) 1024) (mmaK v) i)
    (operandRow (roundRead s (stableOf s.cur.ctx) bbay.toNat (boff.toNat * 64) 1024) (mmaK v) j)

theorem nth_map_range {α : Type} (f : Nat → α) (d : α) {k n : Nat} (h : n < k) : nth ((List.range k).map f) n d = f n := by
  rw [nth, List.getD_eq_getElem?_getD, List.getElem?_map, List.getElem?_range h]
  rfl

/-- The 256 outputs of a product, by row and column. -/
def mmaCells (s : State) (v : Nat) (vd : BitVec 11) (abay : BitVec 3) (aoff : BitVec 12) (bbay : BitVec 3) (boff : BitVec 12) (sg : BitVec 2)
    (sc : BitVec 1) : List (BitVec 48 × Bool × Flags5) :=
  (List.range 256).map (fun n => mmaCell s v vd abay aoff bbay boff sg sc (n / 16) (n % 16))

/-- A product whose operands are undamaged puts its outputs in flight, and nothing else. -/
theorem flight_runMma {s : State} (h : s.marks = []) (v : Nat) (add : Bool) (vd : BitVec 11) (abay : BitVec 3) (aoff : BitVec 12) (bbay : BitVec 3)
    (boff : BitVec 12) (sg : BitVec 2) (sc : BitVec 1) :
    let o := mmaCells s v vd abay aoff bbay boff sg sc
    (me (runMma s v add vd abay aoff bbay boff sg sc)).flight = (me s).flight ++ [⟨s.cur.cycle + 11, s.cur.slot, (me s).ord, s.cur.pc,
      .mma vd.toNat (if mmaFp32 v (sc == 1) then 1 else 0) (o.map (·.1)) (o.map (·.2.1)) add (o.foldl (fun f x => f ||| x.2.2) 0)⟩] := by
  intro o
  have rows : ∀ (d : List Byte) {i : Nat}, i < 16 → nth ((List.range 16).map (operandRow d (mmaK v))) i [] = operandRow d (mmaK v) i :=
    fun d i hi => nth_map_range _ _ hi
  have outputs : o = (List.range 256).map (fun n => mmaOut (me s) v vd.toNat sg (sc == 1) (n / 16) (n % 16)
      (nth ((List.range 16).map (operandRow (roundRead s (stableOf s.cur.ctx) abay.toNat (aoff.toNat * 64) 1024) (mmaK v))) (n / 16) [])
      (nth ((List.range 16).map (operandRow (roundRead s (stableOf s.cur.ctx) bbay.toNat (boff.toNat * 64) 1024) (mmaK v))) (n % 16) [])) := by
    refine List.map_congr_left fun n hn => ?_
    have := List.mem_range.1 hn
    rw [rows _ (by omega), rows _ (by omega)]
    rfl
  unfold runMma
  dsimp only
  rw [← outputs, me_warmArray, me_modStable, readAtIssue_unmarked h, me_emit]

theorem mmaCells_sum (s : State) (v : Nat) (vd : BitVec 11) (abay : BitVec 3) (aoff : BitVec 12) (bbay : BitVec 3) (boff : BitVec 12) (sg : BitVec 2)
    (sc : BitVec 1) {i j : Nat} (hi : i < 16) (hj : j < 16) {α : Type} (f : BitVec 48 × Bool × Flags5 → α) (d : α) :
    nth ((mmaCells s v vd abay aoff bbay boff sg sc).map f) (16 * i + j) d = f (mmaCell s v vd abay aoff bbay boff sg sc i j) := by
  rw [mmaCells, List.map_map, nth_map_range _ _ (by omega), Function.comp_apply, show (16 * i + j) / 16 = i by omega,
    show (16 * i + j) % 16 = j by omega]

/-- An unscaled INT8 output: the exact sum, never a NaN, no flag (R53, R54). -/
theorem mmaOut_int8 (c : Ctx) (vd : Nat) (sg : BitVec 2) (i j : Nat) (a b : List Nat) :
    mmaOut c 1 vd sg false i j a b =
      (BitVec.ofInt 48 ((a.zipWith (fun x y => int8Val (bit sg 1) x * int8Val (bit sg 0) y) b).foldl (· + ·) 0), false, 0) := rfl

/-! ## Result rows -/

/-- Results scheduled one after another all join those in flight. -/
theorem flight_scheduled {α : Type} (c : Nat) (f : Flight) (due : Nat) (e : α → Eff) (l : List α) (s : State) :
    (ctxOf (l.foldl (fun s a => scheduleEff s c due f (e a)) s) c).flight =
      (ctxOf s c).flight ++ l.map (fun a => { f with due := due, eff := e a }) := by
  induction l generalizing s with
  | nil => exact (List.append_nil _).symm
  | cons a l ih =>
    rw [List.foldl_cons, ih, scheduleEff, ctxOf_modCtx_self, List.append_assoc]
    rfl

/-- Each result row of a product lands in the cycle after its last step (R188, R214). -/
theorem mem_flight_finishMma {s : State} {c rd kind : Nat} {f : Flight} {parts : List (BitVec 48)} {nan : List Bool} {add : Bool} {fl : Flags5}
    (h : f.eff = .mma rd kind parts nan add fl) {e : Nat × Row} (he : e ∈ (mmaRowsOf (ctxOf s c) rd kind parts nan add).1) :
    { f with due := f.due + 1, eff := .row e.1 0 e.2 allBytes } ∈ (ctxOf (finishMma s c f) c).flight := by
  have row : { f with due := f.due + 1, eff := .row e.1 0 e.2 allBytes } ∈
      (ctxOf ((mmaRowsOf (ctxOf s c) rd kind parts nan add).1.foldl
        (fun s e => scheduleEff s c (f.due + 1) f (.row e.1 0 e.2 allBytes)) s) c).flight := by
    rw [flight_scheduled c f (f.due + 1) (fun e : Nat × Row => .row e.1 0 e.2 allBytes)]
    exact List.mem_append_right _ (List.mem_map_of_mem he)
  unfold finishMma
  rw [h]
  dsimp only
  split
  · exact row
  · rw [scheduleEff, ctxOf_modCtx_self]
    exact List.mem_append_left _ row

theorem mmaRowsOf_int {x : Ctx} {rd : Nat} {parts : List (BitVec 48)} {nan : List Bool} {add : Bool} (sound : ∀ i, nth nan i false = false) {r : Nat}
    (hr : r < 4) : (rd + r, rowOf 64 64 (fun n => (BitVec.signExtend 64 (if add then nth parts (64 * r + n) 0 +
        BitVec.ofNat 48 (elem 64 (vrow x (rd + r)).toNat n) else nth parts (64 * r + n) 0)).toNat)) ∈ (mmaRowsOf x rd 0 parts nan add).1 := by
  unfold mmaRowsOf
  rw [if_pos rfl]
  refine List.mem_map.2 ⟨r, List.mem_range.2 hr, ?_⟩
  simp only [sound, Bool.false_eq_true, if_false]

theorem mmaRowsOf_float (x : Ctx) (rd : Nat) (parts : List (BitVec 48)) (nan : List Bool) (add : Bool) {r : Nat} (hr : r < 2) :
    ∃ w, (rd + r, w) ∈ (mmaRowsOf x rd 1 parts nan add).1 ∧ ∀ n < 128, elem 32 w.toNat n =
      (if add then (fadd (lane (vrow x (rd + r)) n) ((nth parts (128 * r + n) 0).truncate 32)).1
        else ((nth parts (128 * r + n) 0).truncate 32 : BitVec 32)).toNat := by
  refine ⟨_, List.mem_map.2 ⟨r, List.mem_range.2 hr, rfl⟩, fun n hn => ?_⟩
  rw [rowOfLanes, elem_rowOf (by decide) rfl _ hn, nth_map_range _ _ (by omega), show (128 * r + n) / 128 = r by omega,
    show (128 * r + n) % 128 = n by omega, Nat.mod_eq_of_lt (BitVec.isLt _), apply_ite Prod.fst]

/-! ## The hint of a burst -/

theorem setHint_zero (s : State) : setHint s 0 = modStable s (stableOf s.cur.ctx) (fun t => { t with hints := mdel t.hints s.cur.ctx }) := rfl

theorem setHint_burst (s : State) {n : Nat} (h : n ≠ 0) :
    setHint s n = modStable (if (stableAt s (stableOf s.cur.ctx)).warm then s else modYard s (yardOf s.cur.ctx) (fun r => { r with owed := r.owed + 64 }))
      (stableOf s.cur.ctx) (fun t => { t with warm := true, hints := mput t.hints s.cur.ctx (yardNow s s.cur.ctx + n) }) := by
  unfold setHint
  rw [if_neg h]
  dsimp only
  split
  · rfl
  · rw [yardNow, yardAt_modYard, if_pos rfl]
    rfl

/-- Settles O32: each form by its checks; the sums by the outputs in flight, the result rows by the last step, and the hint. -/
theorem matrixOperationsComplete : Obligations.MatrixOperationsComplete := by
  refine ⟨fun s p vd abay aoff bbay boff alane blane sg sc hp => ⟨
      fun ready => ⟨fun sound => ?mmaL6, ?mmazL6⟩, fun ready => ⟨fun sound => ?mmaI8, ?mmazI8⟩,
      fun ready => ⟨fun sound => ?mmaE4m3, ?mmazE4m3⟩, fun ready => ⟨fun sound => ?mmaE5m2, ?mmazE5m2⟩,
      fun ready => ⟨fun sound => ?mmaE4e5, ?mmazE4e5⟩, fun ready => ⟨fun sound => ?mmaE5e4, ?mmazE5e4⟩,
      fun ready => ⟨fun sound => ?mmaBf16, ?mmazBf16⟩, fun ready => ⟨fun sound => ?mmaFp16, ?mmazFp16⟩,
      fun v add unmarked => ⟨?sums, ?int8⟩, fun c f rd parts nan add fl => ⟨fun eff sound r hr => ?ints, fun eff r hr => ?floats⟩⟩,
    fun s p burst hp => ⟨fun some => ?hint, fun none => ?hintEnds⟩⟩
  case mmaL6 | mmaI8 | mmaE4m3 | mmaE5m2 | mmaE4e5 | mmaE5e4 | mmaBf16 | mmaFp16 =>
    apply exec_checked hp (common_nil (mmaRows_granted ready) (mma_ready ready sound))
    rfl
  case mmazL6 | mmazI8 | mmazE4m3 | mmazE5m2 | mmazE4e5 | mmazE5e4 | mmazBf16 | mmazFp16 =>
    apply exec_checked hp (common_nil (mmaRows_granted ready) (mmaFound_fine ready))
    rfl
  case sums =>
    have kind : (if sc = 1 ∨ 3 ≤ v then 1 else 0) = if mmaFp32 v (sc == 1) then 1 else 0 := if_congr (by simp [mmaFp32]) rfl rfl
    rw [kind]
    exact ⟨_, _, _, _, flight_runMma unmarked .., rfl, rfl, fun i hi j hj => ⟨mmaCells_sum s v vd abay aoff bbay boff sg sc hi hj _ _,
      mmaCells_sum s v vd abay aoff bbay boff sg sc hi hj _ _⟩⟩
  case int8 =>
    rintro rfl rfl i j
    exact mmaOut_int8 ..
  case ints => exact mem_flight_finishMma eff (mmaRowsOf_int sound hr)
  case floats =>
    obtain ⟨w, mem, lanes⟩ := mmaRowsOf_float (ctxOf s c) rd parts nan add hr
    exact ⟨w, mem_flight_finishMma eff mem, lanes⟩
  case hint =>
    have positive : burst.toNat ≠ 0 := fun zero => some (BitVec.eq_of_toNat_eq zero)
    rw [← setHint_burst s positive]
    apply exec_checked hp (common_nil rfl rfl)
    rfl
  case hintEnds =>
    subst none
    rw [← setHint_zero]
    apply exec_checked hp (common_nil rfl rfl)
    rfl

end Sys2Proof.Machine

/-!
Releases of groups, array windows, clock floors, the module's timers and region windows (R40, R137, R138, R272, R321, R347, R394, R395, R409,
R429).
-/

namespace Sys2Proof.Machine

/-! ## Barrier releases -/

/-- One member of a barrier's release (R138). -/
def barStep (n g : Nat) (ms : List Nat) (s : State) (m : Nat) : State :=
  if ms.all (fun d => (ctxOf s d).launch == n && barArrived s d g (ordinal (ctxOf s m) g)) then
    modCtx s m (fun x => { x with barOpen := mput x.barOpen g (max (ordinal (ctxOf s m) g + 1) (mget x.barOpen g 0)) }) else s

theorem releaseBar_eq (s : State) (n g yard : Nat) : releaseBar s n g yard =
    ((membersOf (launchAt s n) g).filter (fun m => yardOf m == yard)).foldl (barStep n g (membersOf (launchAt s n) g)) s := rfl

/-- Two states whose contexts differ in the released ordinals alone. -/
def BarFrame (s t : State) : Prop := ∀ c, ∃ b, ctxOf t c = { ctxOf s c with barOpen := b }

section
variable {n g : Nat} {ms : List Nat}

theorem BarFrame.step {s t : State} (h : BarFrame s t) (m : Nat) : BarFrame s (barStep n g ms t m) := by
  intro c
  obtain ⟨b, same⟩ := h c
  unfold barStep
  split
  · rw [ctxOf_modCtx]
    split
    · next own =>
      subst own
      exact ⟨_, by rw [same]⟩
    · exact ⟨b, same⟩
  · exact ⟨b, same⟩

theorem BarFrame.arrived {s t : State} (h : BarFrame s t) {m k : Nat} (arrived : barArrived s m g k = true) : barArrived t m g k = true := by
  obtain ⟨b, same⟩ := h m
  unfold barArrived at *
  rw [same]
  exact arrived

/-- A release takes back no ordinal. -/
theorem barOpen_barStep_le (s : State) (m c : Nat) : mget (ctxOf s c).barOpen g 0 ≤ mget (ctxOf (barStep n g ms s m) c).barOpen g 0 := by
  unfold barStep
  split
  · rw [ctxOf_modCtx]
    split
    · next own =>
      subst own
      rw [mget_mput_same]
      exact Nat.le_max_right ..
    · exact Nat.le_refl _
  · exact Nat.le_refl _

/-- A member is released past an ordinal at which every member has arrived. -/
theorem barOpen_barStep {s t : State} (h : BarFrame s t) {m : Nat}
    (all : ∀ d ∈ ms, (ctxOf s d).launch = n ∧ barArrived s d g (ordinal (ctxOf s m) g) = true) :
    ordinal (ctxOf s m) g < mget (ctxOf (barStep n g ms t m) m).barOpen g 0 := by
  have ordinals : ordinal (ctxOf t m) g = ordinal (ctxOf s m) g := by
    obtain ⟨b, same⟩ := h m
    rw [same]
    rfl
  have arrived : ms.all (fun d => (ctxOf t d).launch == n && barArrived t d g (ordinal (ctxOf t m) g)) = true := by
    rw [List.all_eq_true]
    intro d hd
    obtain ⟨launch, there⟩ := all d hd
    obtain ⟨b, same⟩ := h d
    rw [Bool.and_eq_true, beq_iff_eq, ordinals, same]
    exact ⟨launch, h.arrived there⟩
  unfold barStep
  rw [if_pos arrived, ctxOf_modCtx_self, mget_mput_same, ordinals]
  exact Nat.lt_of_lt_of_le (Nat.lt_succ_self _) (Nat.le_max_left ..)

end

theorem barOpen_releaseBar {s : State} {n g yard m : Nat} (member : m ∈ membersOf (launchAt s n) g) (here : yardOf m = yard)
    (all : ∀ d ∈ membersOf (launchAt s n) g, (ctxOf s d).launch = n ∧ barArrived s d g (ordinal (ctxOf s m) g) = true) :
    ordinal (ctxOf s m) g < mget (ctxOf (releaseBar s n g yard) m).barOpen g 0 := by
  have listed : m ∈ (membersOf (launchAt s n) g).filter (fun m => yardOf m == yard) := List.mem_filter.2 ⟨member, by simpa using here⟩
  obtain ⟨before, after, split⟩ := List.append_of_mem listed
  rw [releaseBar_eq, split, List.foldl_append, List.foldl_cons]
  refine foldl_keep (fun t => ordinal (ctxOf s m) g < mget (ctxOf t m).barOpen g 0) _
    (fun t d h => Nat.lt_of_lt_of_le h (barOpen_barStep_le ..)) after _ (barOpen_barStep ?_ all)
  exact foldl_keep (BarFrame s) _ (fun t d h => h.step d) before s (fun c => ⟨_, rfl⟩)

/-! ## Array windows -/

theorem writeMxwin_eq {s : State} {c : Nat} (code : BitVec 2) (free : slotOf c = 1 → primaryPlaced s (stableOf c) = false) :
    writeMxwin s c code = putMxwin s (stableOf c) code := by
  unfold writeMxwin
  rw [if_neg]
  rintro ⟨secondary, placed⟩
  rw [free secondary] at placed
  cases placed

theorem stableAt_takeMxwin {s : State} {sb : Nat} {v : BitVec 2} (pending : (stableAt s sb).mxPending = some v)
    (due : (yardAt s (sb / 16)).ycycle % 8 = 0) : stableAt (takeMxwin s sb) sb = { stableAt s sb with mxwin := v, mxPending := none } := by
  unfold takeMxwin
  rw [stableAt_modStable, if_pos rfl, pending]
  exact if_pos due

/-- An array goes cold where nothing keeps it warm (R272). -/
theorem coolArray_idle {s : State} {sb : Nat} (warm : (stableAt s sb).warm = true)
    (hints : ∀ h ∈ (stableAt s sb).hints, h.2 < (yardAt s (sb / 16)).ycycle)
    (last : ∀ m, (stableAt s sb).lastMma = some m → m + 512 < (yardAt s (sb / 16)).ycycle) : coolArray s sb =
      modYard (modStable s sb (fun t => { t with warm := false })) (sb / 16) (fun r => { r with ramps := r.ramps ++ [(4, 128, false)] }) := by
  have unhinted : (stableAt s sb).hints.all (fun h => decide (h.2 < (yardAt s (sb / 16)).ycycle)) = true :=
    List.all_eq_true.2 fun h hh => decide_eq_true (hints h hh)
  unfold coolArray
  dsimp only
  rw [warm, unhinted]
  cases mma : (stableAt s sb).lastMma with
  | none => rfl
  | some m => exact if_pos (decide_eq_true (last m mma))

/-! ## Clock floors -/

theorem modYard_congr {s : State} {n : Nat} {f g : Yard → Yard} (h : f (yardAt s n) = g (yardAt s n)) : modYard s n f = modYard s n g := by
  unfold modYard
  rw [h]

theorem takeFloor_due {n : Nat} {y : Yard} {f : Nat × Nat} (next : y.floorNext = some f) (multiple : n % 1024 = 0) (earlier : f.2 < n) :
    takeFloor n y = { y with floor := f.1, floorNext := none } := by
  unfold takeFloor
  rw [next]
  exact if_pos ⟨multiple, earlier⟩

theorem takeFloor_between {n : Nat} (h : n % 1024 ≠ 0) (y : Yard) : takeFloor n y = y := by
  unfold takeFloor
  split
  · exact if_neg fun due => h due.1
  · rfl

/-! ## The control context -/

theorem serveEvents_enters {s : State} {g : Nat} (booted : booted s = true) (pending : eventPending s = true) (stall : controlStall s = some g)
    (free : s.control = false) (unserved : (ctxOf s (4 * g + 2)).inSvc = false) :
    serveEvents s = { enterService s (4 * g + 2) 0x03 0 0 with control := true } := by
  unfold serveEvents enterControl
  rw [booted, pending, stall]
  dsimp only
  rw [free, unserved]
  rfl

/-! ## Region windows -/

/-- The end of a region's window, after what it does to an idle contested region (R347). -/
def flipsReturned (s : State) (i : Nat) : State :=
  modCxl s (fun x => { x with regions := mput x.regions i (setField (mget x.regions i 0) 0 3 0), active := x.active.filter (· != i) })

theorem region_flipsReturned (s : State) (i : Nat) : region (flipsReturned s i) i = setField (region s i) 0 3 0 := mget_mput_same ..

theorem closeWindow_eq (s : State) (i : Nat) : ∃ u, closeWindow s i = flipsReturned u i := ⟨_, rfl⟩

/-- A region contested with no line flip in it all through the window (R347). -/
theorem closeWindow_idle {s : State} {i : Nat} (contested : regState (region s i) = 3) (calm : s.cxl.active.any (· == i) = false)
    (unflipped : ∀ f ∈ s.cxl.flips, f.region ≠ i) : closeWindow s i = flipsReturned (calmRegion s i) i := by
  have none : s.cxl.flips.any (fun f => f.region == i) = false := List.any_eq_false.2 fun f hf => by simpa using unflipped f hf
  unfold closeWindow
  dsimp only
  rw [contested, calm, none]
  rfl

theorem regState_endContest (s : State) (i : Nat) : regState (region (endContest s i) i) = 0 := by
  unfold endContest
  dsimp only
  rw [region_setRegState, regState_setState]

theorem calmRegion_unheld {s : State} {i : Nat} (h : ∀ e ∈ s.cxl.directory, inRegion (region s i) e.1 = false) : calmRegion s i = endContest s i := by
  have none : s.cxl.directory.filter (fun e => inRegion (region s i) e.1) = [] :=
    List.filter_eq_nil_iff.2 fun e he => ne_true_of_eq_false (h e he)
  unfold calmRegion
  rw [none]

/-- Host-held lines are snooped back: a flip of the whole region is under way (R347). -/
theorem calmRegion_held {s : State} {i : Nat} (h : ∃ e ∈ s.cxl.directory, inRegion (region s i) e.1 = true) :
    ∃ f ∈ (calmRegion s i).cxl.flips, f.region = i ∧ f.line = none := by
  obtain ⟨e, he, inside⟩ := h
  have held : e ∈ s.cxl.directory.filter (fun e => inRegion (region s i) e.1) := List.mem_filter.2 ⟨he, inside⟩
  unfold calmRegion
  split
  · next none =>
    rw [none] at held
    cases held
  · exact ⟨_, List.mem_append_right _ List.mem_cons_self, rfl, rfl⟩

/-- Settles O35: each release, window, floor and timer by the condition that its event tests. -/
theorem releasesAndWindowsComplete : Obligations.ReleasesAndWindowsComplete := by
  intro s l c group yard stable code
  refine ⟨rfl, ⟨_, rfl, fun m member here all => barOpen_releaseBar member here all⟩, fun free => ?mxwin, fun v pending due => ?mxwinDue,
    fun warm hints last => ?cold, fun f next => ⟨fun multiple earlier => ?floor, fun between => ?noFloor⟩, rfl, rfl, fun multiple => ?timer,
    fun between => ?noTimer, fun g boot pending stall free unserved => ?control, _, rfl, ?flips, fun contested calm unflipped => ⟨fun unheld => ?owned, fun held => ?snooped⟩⟩
  case mxwin => exact congrArg _ (writeMxwin_eq _ free)
  case mxwinDue =>
    have taken := stableAt_takeMxwin pending due
    exact ⟨_, rfl, by rw [taken], by rw [taken]⟩
  case cold =>
    refine ⟨_, congrArg Host.Outcome.next (coolArray_idle warm hints last), ?_, ?_⟩
    · rw [stableAt_modYard, stableAt_modStable, if_pos rfl]
    · rw [yardAt_modYard, if_pos rfl, yardAt_modStable]
  case floor => exact congrArg _ (modYard_congr (takeFloor_due next multiple earlier))
  case noFloor =>
    refine ⟨_, rfl, ?_⟩
    rw [yardAt_modYard, if_pos rfl, takeFloor_between between]
  case timer => exact congrArg _ (if_pos multiple)
  case noTimer => exact congrArg _ (if_neg between)
  case control => exact congrArg _ (serveEvents_enters boot pending stall free unserved)
  case flips =>
    obtain ⟨u, ended⟩ := closeWindow_eq s code
    rw [ended, region_flipsReturned, regFlips_setFlips]
  case owned =>
    rw [closeWindow_idle contested calm unflipped, region_flipsReturned, regState_setFlips, calmRegion_unheld unheld, regState_endContest]
  case snooped =>
    rw [closeWindow_idle contested calm unflipped]
    exact calmRegion_held held

end Sys2Proof.Machine

/-!
A launch runs, ends and leaves, its held contexts resume, and swap-outs take effect (R40, R318, R323, R325, R332, R333, R334).
-/

namespace Sys2Proof.Machine

/-! ## Folds over contexts -/

/-- `foldl_reaches` among states that meet an invariant. -/
theorem foldl_reaches_under {α β : Type} (I P : β → Prop) (f : β → α → β) {a : α} (inv : ∀ b x, I b → I (f b x)) (reach : ∀ b, I b → P (f b a))
    (keep : ∀ b x, I b → P b → P (f b x)) : ∀ (l : List α) (b : β), I b → a ∈ l → P (l.foldl f b)
  | x :: r, b, hb, ha => by
    rw [List.foldl_cons]
    rcases List.mem_cons.1 ha with rfl | ha
    · exact (foldl_keep (fun b => I b ∧ P b) f (fun b x h => ⟨inv b x h.1, keep b x h.1 h.2⟩) r _ ⟨inv b a hb, reach b hb⟩).2
    · exact foldl_reaches_under I P f inv reach keep r _ (inv b x hb) ha

/-- A fold that updates one context after another, a second time without further change, updates the contexts of its list. -/
theorem ctxOf_foldl_update (I : State → Prop) (f : State → Nat → State) (F : Nat → Ctx → Ctx) (inv : ∀ t a, I t → I (f t a))
    (upd : ∀ t a, I t → ∀ c, ctxOf (f t a) c = if c = a then F a (ctxOf t a) else ctxOf t c) (idem : ∀ a x, F a (F a x) = F a x) :
    ∀ (l : List Nat) (s : State), I s → ∀ c, ctxOf (l.foldl f s) c = if c ∈ l then F c (ctxOf s c) else ctxOf s c
  | [], _, _, _ => rfl
  | a :: r, s, hs, c => by
    rw [List.foldl_cons, ctxOf_foldl_update I f F inv upd idem r _ (inv s a hs), upd s a hs]
    by_cases same : c = a
    · subst same
      simp [idem]
    · simp [same]

/-- The contexts and the launches agree in two states. -/
structure SameSlots (t s : State) : Prop where
  ctxs : t.ctxs = s.ctxs
  launches : t.launches = s.launches

theorem SameSlots.refl (s : State) : SameSlots s s := ⟨rfl, rfl⟩

theorem SameSlots.trans {t u s : State} (h : SameSlots t u) (k : SameSlots u s) : SameSlots t s :=
  ⟨h.ctxs.trans k.ctxs, h.launches.trans k.launches⟩

theorem SameSlots.ctxOf {t s : State} (h : SameSlots t s) (c : Nat) : ctxOf t c = ctxOf s c := by unfold Machine.ctxOf; rw [h.ctxs]

theorem SameSlots.launchAt {t s : State} (h : SameSlots t s) (n : Nat) : launchAt t n = launchAt s n := by
  unfold Machine.launchAt; rw [h.launches]

/-- What a fold of such steps leaves. -/
theorem sameSlots_foldl {α : Type} {f : State → α → State} (h : ∀ t a, SameSlots (f t a) t) (l : List α) (s : State) :
    SameSlots (l.foldl f s) s :=
  foldl_keep (SameSlots · s) f (fun t a k => (h t a).trans k) l s (.refl s)

/-! ## The start -/

section
variable {s : State} {n : Nat}

/-- A sequence unit that is opened, with no snapshot or commit under way, leaves nothing for a launch's start to do (R358, R363). -/
theorem startUnit_ready (ready : ∀ g, (launchAt s n).gen = some g → g.opened = true ∧ g.reading = none ∧ g.commits = []) :
    deliverCommits 16 (snapReads 64 (openUnit s n) n) n = s := by
  cases unit : (launchAt s n).gen with
  | none => simp [openUnit, snapReads, deliverCommits, unit]
  | some g =>
    obtain ⟨opened, past, delivered⟩ := ready g unit
    have begun : openUnit s n = s := by simp [openUnit, unit, opened]
    rw [begun, snapReads_over unit past, deliverCommits_none unit delivered]

theorem mayGo_ready (starting : (launchAt s n).state = .starting) (prepared : (launchAt s n).prepared = true)
    (loaded : (launchAt s n).taploads = []) (ready : ∀ g, (launchAt s n).gen = some g → g.opened = true ∧ g.reading = none ∧ g.commits = [])
    (placed : ∀ c ∈ launchCtxs (launchAt s n), (ctxOf s c).status = .placed) : mayGo s n = true := by
  have unit : (launchAt s n).gen.elim true (fun g => g.opened && g.reading.isNone && g.commits.isEmpty) = true := by
    cases found : (launchAt s n).gen with
    | none => rfl
    | some g =>
      obtain ⟨opened, past, delivered⟩ := ready g found
      simp [opened, past, delivered]
  have all : (launchCtxs (launchAt s n)).all (fun c => (ctxOf s c).status == .placed) = true :=
    List.all_eq_true.2 (fun c hc => beq_iff_eq.2 (placed c hc))
  unfold mayGo
  dsimp only
  rw [unit, all, starting, prepared, loaded]
  rfl

end

/-- The contexts and the Yards, which tell what the write of a window finds, agree in two states. -/
structure SameWindows (t s : State) : Prop where
  ctxs : t.ctxs = s.ctxs
  yards : t.yards = s.yards

theorem writeWindow_sameWindows {t s : State} (h : SameWindows t s) (l : Launch) (sb : Nat) : SameWindows (writeWindow t l sb) s :=
  ite_both (SameWindows · s) h ⟨h.ctxs, h.yards⟩

theorem SameWindows.yardAt {t s : State} (h : SameWindows t s) (y : Nat) : yardAt t y = yardAt s y := by
  unfold Machine.yardAt; rw [h.yards]

theorem SameWindows.primaryPlaced {t s : State} (h : SameWindows t s) (sb : Nat) : primaryPlaced t sb = primaryPlaced s sb := by
  unfold Machine.primaryPlaced Machine.ctxOf; rw [h.ctxs]

/-- The window of a Stable back at code 0, or on its way there (R40). -/
def WindowReset (s t : State) (sb : Nat) : Prop :=
  if (yardAt s (sb / 16)).ycycle % 8 = 0 then (stableAt t sb).mxwin = 0 ∧ (stableAt t sb).mxPending = none else (stableAt t sb).mxPending = some 0

theorem windowReset_putMxwin {t s : State} (h : SameWindows t s) (sb : Nat) : WindowReset s (putMxwin t sb 0) sb := by
  unfold WindowReset putMxwin
  rw [stableAt_modStable, if_pos rfl, h.yardAt]
  split
  · exact ⟨rfl, rfl⟩
  · rfl

theorem windowReset_writeWindow {t s : State} (h : SameWindows t s) {l : Launch} {sb : Nat} (free : l.openCls = false ∨ primaryPlaced s sb = false) :
    WindowReset s (writeWindow t l sb) sb := by
  unfold writeWindow
  rw [h.primaryPlaced, if_neg (by rcases free with h | h <;> simp [h])]
  exact windowReset_putMxwin h sb

theorem writeWindow_keeps {t s : State} (h : SameWindows t s) {l : Launch} {sb : Nat} (d : Nat) (reset : WindowReset s t sb) :
    WindowReset s (writeWindow t l d) sb := by
  refine ite_both (WindowReset s · sb) reset ?_
  by_cases same : sb = d
  · exact same ▸ windowReset_putMxwin h sb
  · unfold WindowReset putMxwin
    rw [stableAt_modStable, if_neg same]
    exact reset

/-- The windows of a starting launch's Stables written (R40). -/
def windowed (s : State) (l : Launch) : State := (launchStables l).foldl (fun s sb => writeWindow s l sb) s

theorem windowed_sameWindows (s : State) (l : Launch) : SameWindows (windowed s l) s :=
  foldl_keep (SameWindows · s) _ (fun _ sb h => writeWindow_sameWindows h l sb) _ s ⟨rfl, rfl⟩

theorem windowReset_windowed (s : State) {l : Launch} {sb : Nat} (on : sb ∈ launchStables l) (free : l.openCls = false ∨ primaryPlaced s sb = false) :
    WindowReset s (windowed s l) sb :=
  foldl_reaches_under (SameWindows · s) (WindowReset s · sb) _ (fun _ d h => writeWindow_sameWindows h l d)
    (fun _ h => windowReset_writeWindow h free) (fun _ d h => writeWindow_keeps h d) _ s ⟨rfl, rfl⟩ on

/-- A context's first bundle issues from the next Yard cycle on (R318). -/
def runCtx (s : State) (c : Nat) : State := modCtx s c (fun x => { x with status := .running, seenYard := yardNow s c })

theorem goLaunch_eq (s : State) (n : Nat) : goLaunch s n =
    let l := launchAt s n
    modLaunch ((launchCtxs l).foldl runCtx (windowed (writeCommit0 s n) l)) n (fun l => { l with state := .running }) := rfl

theorem ctxOf_goLaunch (s : State) {n c : Nat} (on : c ∈ launchCtxs (launchAt s n)) :
    let u := writeCommit0 s n
    ctxOf (goLaunch s n) c = { ctxOf u c with status := .running, seenYard := yardNow u c } := by
  intro u
  have windows := windowed_sameWindows u (launchAt s n)
  rw [goLaunch_eq, ctxOf_modLaunch, ctxOf_foldl_update (fun t => t.yards = u.yards) runCtx
    (fun c x => { x with status := .running, seenYard := yardNow u c }) (fun _ _ h => h) ?_ (fun _ _ => rfl) _ _ windows.yards, if_pos on]
  · unfold ctxOf
    rw [windows.ctxs]
  · intro t a h c
    unfold runCtx yardNow Machine.yardAt
    rw [ctxOf_modCtx, h]

theorem windowReset_goLaunch (s : State) {n sb : Nat} (on : sb ∈ launchStables (launchAt s n)) :
    let u := writeCommit0 s n
    (launchAt s n).openCls = false ∨ primaryPlaced u sb = false → WindowReset u (goLaunch s n) sb := by
  intro u free
  have kept : ((launchCtxs (launchAt s n)).foldl runCtx (windowed u (launchAt s n))).stables = (windowed u (launchAt s n)).stables :=
    foldl_keep (fun t : State => t.stables = (windowed u (launchAt s n)).stables) runCtx (fun _ _ h => h) _ _ rfl
  have reset := windowReset_windowed u on free
  unfold WindowReset stableAt at reset ⊢
  rw [goLaunch_eq, modLaunch_stables, kept]
  exact reset

/-! ## Slots freed -/

/-- What a freed slot keeps: its taps and a fault not yet delivered (R308, R354, log 102, log 136). -/
def slotFreed (x : Ctx) : Ctx := { ctxInit with taps := x.taps, raised := x.raised }

theorem ctxOf_clearSlot (s : State) (c d : Nat) : ctxOf (clearSlot s c) d = if d = c then slotFreed (ctxOf s c) else ctxOf s d := ctxOf_modCtx ..

theorem launchAt_clearSlot (s : State) (c n : Nat) : launchAt (clearSlot s c) n = launchAt s n := rfl

/-- A context's pins released and its slot cleared (R318, R339). -/
def freeSlot (s : State) (c : Nat) : State := clearSlot (releasePins s c) c

theorem launchAt_freeSlot (s : State) (c n : Nat) : launchAt (freeSlot s c) n = launchAt s n := launchAt_releasePins ..

theorem ctxOf_freeSlot (s : State) (c d : Nat) : ctxOf (freeSlot s c) d = if d = c then slotFreed (ctxOf s c) else ctxOf s d := by
  unfold freeSlot
  rw [ctxOf_clearSlot, ctxOf_releasePins, ctxOf_releasePins, if_pos rfl]
  split <;> rfl

theorem releaseSaved_sameSlots (s : State) (l : Launch) : SameSlots (releaseSaved s l) s :=
  sameSlots_foldl (fun _ _ => sameSlots_foldl (fun _ _ => ⟨setPins_ctxs .., setPins_launches ..⟩) _ _) _ s

/-- The slots of an ending launch freed, with its pins and its damaged words (R318, R339). -/
def slotsFreed (s : State) (n : Nat) : State :=
  let s := (launchHeld s n).foldl freeSlot (releaseSaved s (launchAt s n))
  { s with marks := s.marks.filter (fun m => !(m.owner / 2 ^ 10 == savedOwner n 0 / 2 ^ 10 || m.owner / 2 ^ 10 == savedStable n 0 / 2 ^ 10)) }

theorem launchAt_slotsFreed (s : State) (n : Nat) : launchAt (slotsFreed s n) n = launchAt s n :=
  foldl_keep (fun t => launchAt t n = launchAt s n) freeSlot (fun t c h => (launchAt_freeSlot t c n).trans h) (launchHeld s n) _
    ((releaseSaved_sameSlots s _).launchAt n)

theorem ctxOf_slotsFreed (s : State) {n c : Nat} (held : c ∈ launchHeld s n) : ctxOf (slotsFreed s n) c = slotFreed (ctxOf s c) := by
  have fold := ctxOf_foldl_update (fun _ => True) freeSlot (fun _ => slotFreed) (fun _ _ _ => trivial) (fun t a _ => ctxOf_freeSlot t a)
    (fun _ _ => rfl) (launchHeld s n) (releaseSaved s (launchAt s n)) trivial c
  rw [if_pos held, (releaseSaved_sameSlots ..).ctxOf] at fold
  exact fold

/-! ## The end -/

/-- A sequence unit that has ended with its records written leaves nothing to do (R361, R368). -/
theorem finishUnit_done {s : State} {n : Nat} (done : ∀ g, (launchAt s n).gen = some g → g.ending = true ∧ g.records = []) (fuel : Nat) :
    finishUnit fuel s n = s := by
  cases fuel with
  | zero => rfl
  | succ k =>
    cases unit : (launchAt s n).gen with
    | none => simp [finishUnit, writeRecords, waitingRecords, unit]
    | some g => simp [finishUnit, writeRecords, waitingRecords, unit, done g unit]

theorem unitDone_done {l : Launch} (done : ∀ g, l.gen = some g → g.ending = true ∧ g.records = []) : unitDone l = true := by
  cases unit : l.gen with
  | none => simp [unitDone, unit]
  | some g => simp [unitDone, unit, done g unit]

theorem completeLaunch_settled {s : State} {n : Nat} (ending : (launchAt s n).state = .ending) (quiet : ∀ c ∈ launchHeld s n, settled s c = true)
    (done : ∀ g, (launchAt s n).gen = some g → g.ending = true ∧ g.records = []) :
    completeLaunch s n = advanceQueues (retire (slotsFreed s n) n) := by
  have waits : ¬ ((launchAt s n).state ≠ .ending ∨ (launchHeld s n).all (settled s) = false) := by
    simp only [ending, List.all_eq_true.2 quiet]
    decide
  unfold completeLaunch
  rw [if_neg waits, finishUnit_done done]
  dsimp only
  rw [unitDone_done done]
  rfl

/-! ## A launch that is gone -/

theorem mfind_mdel {α : Type} (m : Map α) (n k : Nat) (gone : mfind m k = none ∨ k = n) : mfind (mdel m n) k = none := by
  induction m with
  | nil => rfl
  | cons e r ih =>
    obtain ⟨j, u⟩ := e
    have tail : mfind r k = none ∨ k = n := gone.imp_left (fun h => by
      unfold mfind at h
      split at h
      · cases h
      · exact h)
    by_cases same : j = n
    · simpa [mdel, same] using ih tail
    · have other : j ≠ k := by
        rcases gone with h | rfl
        · rintro rfl
          simp [mfind] at h
        · exact same
      simpa [mdel, same, mfind, other] using ih tail

theorem mfind_retire (s : State) (n k : Nat) (gone : mfind s.launches k = none ∨ k = n) : mfind (retire s n).launches k = none := by
  have kept : (retire s n).launches = mdel s.launches n := by
    unfold retire setToken
    dsimp only
    repeat' split
    all_goals simp
  rw [kept]
  exact mfind_mdel _ _ _ gone

/-- The head of a queue is a launch of the machine. -/
theorem headOf_mem {s : State} {q n : Nat} {l : Launch} (head : headOf s q = some (n, l)) : (n, l) ∈ s.launches := by
  refine foldl_keep_mem (fun b => ∀ e, b = some e → e ∈ s.launches) _ _ none ?_ nofun _ head
  intro b a ha hb e he
  have mem := (List.mem_filter.1 ha).1
  cases b with
  | none => exact Option.some.inj he ▸ mem
  | some b =>
    dsimp only at he
    split at he
    · exact Option.some.inj he ▸ mem
    · exact hb e he

theorem mfind_modLaunch (s : State) (n k : Nat) (f : Launch → Launch) :
    mfind (modLaunch s n f).launches k = if k = n then some (f (launchAt s n)) else mfind s.launches k := mfind_mput ..

theorem mfind_retireWith (s : State) (n status fault k : Nat) (gone : mfind s.launches k = none) :
    mfind (retireWith s n status fault).launches k = none := by
  refine mfind_retire _ n k ?_
  rw [mfind_modLaunch]
  split
  · next same => exact .inr same
  · exact .inl gone

/-- A key that finds nothing stands in no entry. -/
theorem not_mem_of_mfind_none {α : Type} {m : Map α} {k : Nat} (gone : mfind m k = none) (v : α) : (k, v) ∉ m := by
  induction m with
  | nil => exact List.not_mem_nil
  | cons e r ih =>
    obtain ⟨j, u⟩ := e
    unfold mfind at gone
    split at gone
    · cases gone
    · next other =>
      intro mem
      rcases List.mem_cons.1 mem with same | mem
      · exact other (congrArg Prod.fst same).symm
      · exact ih gone mem

/-- A number that names no launch names none once the heads are looked at. -/
theorem mfind_advanceQueue (q k : Nat) : ∀ (fuel : Nat) (s : State), mfind s.launches k = none → mfind (advanceQueue fuel s q).launches k = none
  | 0, _, gone => gone
  | fuel + 1, s, gone => by
    have changed {n : Nat} {l : Launch} (head : headOf s q = some (n, l)) (f : Launch → Launch) : mfind (modLaunch s n f).launches k = none := by
      have other : k ≠ n := by
        rintro rfl
        exact not_mem_of_mfind_none gone _ (headOf_mem head)
      rw [mfind_modLaunch, if_neg other]
      exact gone
    unfold advanceQueue
    split
    · exact gone
    · next n l head =>
      dsimp only
      split
      · exact mfind_advanceQueue q k fuel _ (mfind_retireWith s n 3 0 k gone)
      split
      · exact gone
      split
      · exact changed head _
      · exact changed head _

theorem mfind_advanceQueues (s : State) (k : Nat) (gone : mfind s.launches k = none) : mfind (advanceQueues s).launches k = none :=
  foldl_keep (fun t => mfind t.launches k = none) _
    (fun t _ h => foldl_keep (fun t => mfind t.launches k = none) _ (fun t q h => mfind_advanceQueue q k _ t h) _ t h) _ s gone

/-! ## Commands of a queue -/

/-- A held context that runs on from a Yard cycle (R333). -/
def resumed (y : Nat) (x : Ctx) : Ctx := { unhold x with seenYard := y }

def resumeHeld (s : State) (c : Nat) : State := modCtx s c (resumed (yardNow s c))

theorem queueResume_named {s : State} {q seq n : Nat} (named : namedLaunch s q seq (fun l => l.state == .running) = some n) :
    queueResume s q seq = ((launchHeld s n).filter (resumable s)).foldl resumeHeld s := by
  unfold queueResume
  rw [named]
  rfl

/-- Resume lets the held contexts that may run on do so (R333). -/
theorem ctxOf_queueResume {s : State} {q seq n c : Nat} (named : namedLaunch s q seq (fun l => l.state == .running) = some n)
    (held : c ∈ launchHeld s n) :
    ctxOf (queueResume s q seq) c = if resumable s c then resumed (yardNow s c) (ctxOf s c) else ctxOf s c := by
  rw [queueResume_named named, ctxOf_foldl_update (fun t => t.yards = s.yards) resumeHeld (fun c => resumed (yardNow s c)) (fun _ _ h => h)
    ?_ (fun _ _ => rfl) _ s rfl]
  · simp only [List.mem_filter, held, true_and]
  · intro t a h d
    rw [resumeHeld, ctxOf_modCtx]
    unfold yardNow Machine.yardAt
    rw [h]

/-- A launch that is not over and ends freezes each of its contexts, then has its state, status and fault set (R318, R332). -/
theorem endLaunch_live {s : State} {n : Nat} (live : ¬ ((launchAt s n).state = .ended ∨ (launchAt s n).state = .ending)) (status code stall slot pc : Nat) :
    ∃ top, endLaunch s n status code stall slot pc = modLaunch ((launchHeld s n).foldl endCtx s) n (fun l =>
      { l with state := .ending, status := status, fault := code, faultStall := stall, faultSlot := slot, faultPc := pc, maxCycle := top }) :=
  ⟨_, if_neg live⟩

/-- Every context that a launch holds when it is ended has ended (R318). -/
theorem status_endCtxs {s : State} {n c : Nat} (held : c ∈ launchHeld s n) : (ctxOf ((launchHeld s n).foldl endCtx s) c).status = .ended :=
  foldl_reaches (fun t => (ctxOf t c).status = .ended) endCtx (fun t => status_endCtx t c) (fun _ d => endCtx_keeps_ended d) _ s held

/-! ## The swap-out of a Yard -/

/-- A context that a swap-out freezes, its capture dropped (R325). -/
def frozenCtx (s : State) (c : Nat) : State := modCtx (dropCapture s c) c (fun x => { x with frozen := true })

theorem ctxOf_frozenCtx (s : State) (c d : Nat) : ctxOf (frozenCtx s c) d = if d = c then { ctxOf s c with frozen := true } else ctxOf s d := by
  rw [frozenCtx, ctxOf_modCtx, ctxOf_dropCapture, ctxOf_dropCapture]

theorem ctxOf_moveMarks (s : State) (kind : Nat → Bool) (a b d : Nat) : ctxOf (moveMarks s kind a b) d = ctxOf s d := rfl

theorem launchAt_moveMarks (s : State) (kind : Nat → Bool) (a b d : Nat) : launchAt (moveMarks s kind a b) d = launchAt s d := rfl

theorem mem_heldOn {s : State} {n yard c : Nat} : c ∈ heldOn s n yard ↔ c ∈ launchHeld s n ∧ yardOf c = yard := by
  simp [heldOn, List.mem_filter]

/-- A launch whose Yard a swap-out asks for (R323, R325). -/
def swapAskedOf (s : State) (yard : Nat) (l : Launch) : Launch :=
  { l with state := .swapping, since := if l.state = .running then s.mcycle else l.since,
           swapAsked := if l.swapAsked.any (· == yard) then l.swapAsked else yard :: l.swapAsked }

theorem swapFreeze_running {s : State} {n yard : Nat} (running : (launchAt s n).state = .running) (area : recSave (launchAt s n).record ≠ 0)
    (stands : yard ∈ (launchAt s n).yards) (left : yard ∉ (launchAt s n).swapDone) :
    swapFreeze s n yard = modLaunch ((heldOn s n yard).foldl frozenCtx s) n (swapAskedOf ((heldOn s n yard).foldl frozenCtx s) yard) := by
  have begins : ((launchAt s n).state = .running ∨ (launchAt s n).state = .swapping) ∧ recSave (launchAt s n).record ≠ 0 ∧
      (launchAt s n).yards.any (· == yard) = true ∧ (launchAt s n).swapDone.all (· != yard) = true := by
    refine ⟨.inl running, area, List.any_eq_true.2 ⟨yard, stands, beq_self_eq_true _⟩, List.all_eq_true.2 (fun y hy => ?_)⟩
    rw [bne_iff_ne]
    rintro rfl
    exact left hy
  unfold swapFreeze
  exact if_pos begins

theorem swapFreeze_no_area {s : State} {n yard : Nat} (noArea : recSave (launchAt s n).record = 0) : swapFreeze s n yard = s := by
  unfold swapFreeze
  exact if_neg (fun ⟨_, area, _⟩ => area noArea)

/-- Freezing contexts changes neither the launches nor the module's cycle. -/
theorem frozenCtxs_frame (l : List Nat) (s : State) : (l.foldl frozenCtx s).launches = s.launches ∧ (l.foldl frozenCtx s).mcycle = s.mcycle := by
  refine foldl_keep (fun t : State => t.launches = s.launches ∧ t.mcycle = s.mcycle) frozenCtx (fun t c h => ?_) l s ⟨rfl, rfl⟩
  rw [frozenCtx, dropCapture_frame]
  exact h

theorem devPut_sameSlots (s : State) (a : Nat) (data : List Byte) : SameSlots (devPut s a data) s := ⟨devPut_ctxs .., devPut_launches ..⟩

theorem moveMarks_sameSlots (s : State) (kind : Nat → Bool) (a b : Nat) : SameSlots (moveMarks s kind a b) s := ⟨rfl, rfl⟩

theorem saveStable_sameSlots (s : State) (n j : Nat) : SameSlots (saveStable s n j) s := by
  unfold saveStable
  extract_lets l sb a u v
  have extents : SameSlots u s := sameSlots_foldl (fun _ _ => devPut_sameSlots ..) _ s
  exact (sameSlots_foldl (fun _ _ => devPut_sameSlots ..) _ v).trans ((moveMarks_sameSlots u ..).trans extents)

/-- The words of a context written to its block (R327). -/
theorem savedWords_sameSlots (a : Nat) (x : Ctx) (l : List Nat) (s : State) :
    SameSlots (l.foldl (fun s off => devPut s (a + off) (savedBytes x off)) s) s :=
  sameSlots_foldl (fun _ _ => devPut_sameSlots ..) _ _

/-- The swap-out's place in a launch: its Yards, those it asks for and those done. -/
structure SameSwap (k l : Launch) : Prop where
  yards : k.yards = l.yards
  swapAsked : k.swapAsked = l.swapAsked
  swapDone : k.swapDone = l.swapDone

/-- What a context's save leaves: its slot freed, and the swap-out's place in its launch (R325). -/
theorem saveCtx_frame (s : State) (n c : Nat) :
    (∀ d, ctxOf (saveCtx s n c) d = if d = c then slotFreed (ctxOf s c) else ctxOf s d) ∧ SameSwap (launchAt (saveCtx s n c) n) (launchAt s n) := by
  unfold saveCtx
  extract_lets x a s1 s2 t s3
  have block : SameSlots s2 s := (devPut_sameSlots ..).trans (savedWords_sameSlots a x _ s)
  have slots (d : Nat) : ctxOf (moveMarks s3 ctxStruct c (savedOwner n x.k)) d = ctxOf s d :=
    (ctxOf_moveMarks ..).trans ((ctxOf_modLaunch ..).trans (block.ctxOf d))
  constructor
  · intro d
    rw [ctxOf_clearSlot, slots, slots]
  · have launch : launchAt s2 n = launchAt s n := block.launchAt n
    rw [launchAt_clearSlot, launchAt_moveMarks, launchAt_modLaunch, if_pos rfl, launch]
    exact ⟨rfl, rfl, rfl⟩

theorem SameSwap.trans {k l m : Launch} (h : SameSwap k l) (j : SameSwap l m) : SameSwap k m :=
  ⟨h.yards.trans j.yards, h.swapAsked.trans j.swapAsked, h.swapDone.trans j.swapDone⟩

theorem commitFrozen_no_snap {s : State} {c : Nat} (whole : (ctxOf s c).snap = none) : commitFrozen s c = s := by
  unfold commitFrozen
  rw [whole]
  rfl

theorem commitFrozens_no_snap {s : State} : ∀ {l : List Nat}, (∀ c ∈ l, (ctxOf s c).snap = none) → l.foldl commitFrozen s = s
  | [], _ => rfl
  | c :: r, whole => by
    rw [List.foldl_cons, commitFrozen_no_snap (whole c List.mem_cons_self)]
    exact commitFrozens_no_snap (fun d hd => whole d (List.mem_cons_of_mem _ hd))

/-- The Yards that a swap-out has still to save are all quiet (R325). -/
theorem swapQuiet_all {s : State} {n : Nat} (quiet : ∀ y ∈ (launchAt s n).swapAsked, y ∉ (launchAt s n).swapDone →
      (∀ c ∈ heldOn s n y, (ctxOf s c).snap = none ∧ settled s c = true) ∧
        ∀ sb ∈ launchStables (launchAt s n), sb / 16 = y → stableQuiet s (launchAt s n).semmask sb = true) : swapQuiet s n = true := by
  unfold swapQuiet
  refine List.all_eq_true.2 (fun y hy => ?_)
  obtain ⟨asked, left⟩ := List.mem_filter.1 hy
  obtain ⟨contexts, stables⟩ := quiet y asked (fun h => by simpa using List.all_eq_true.1 left y h)
  refine Bool.and_eq_true_iff.2 ⟨List.all_eq_true.2 (fun c hc => ?_), List.all_eq_true.2 (fun sb hsb => ?_)⟩
  · obtain ⟨snap, settled⟩ := contexts c hc
    rw [snap, settled]
    rfl
  · obtain ⟨on, here⟩ := List.mem_filter.1 hsb
    exact stables sb on (beq_iff_eq.1 here)

/-- A launch swapped out of one more Yard (R318, R323, log 69). -/
def swappedOut (yard : Nat) (l : Launch) : Launch :=
  let done := yard :: l.swapDone
  { l with swapDone := done, state := if l.yards.all (fun y => done.any (· == y)) then .swapped
                                      else if l.swapAsked.all (fun y => done.any (· == y)) then .running else .swapping }

theorem done_all {yard : Nat} {ys done : List Nat} : ys.all (fun y => (yard :: done).any (· == y)) = true ↔ ∀ y ∈ ys, y = yard ∨ y ∈ done := by
  simp [List.all_eq_true, @eq_comm _ yard]

theorem swappedOut_last {yard : Nat} {l : Launch} (last : ∀ y ∈ l.yards, y = yard ∨ y ∈ l.swapDone) : (swappedOut yard l).state = .swapped :=
  if_pos (done_all.2 last)

theorem swappedOut_rest {yard : Nat} {l : Launch} (rest : ∃ y ∈ l.yards, y ≠ yard ∧ y ∉ l.swapDone)
    (asked : ∀ y ∈ l.swapAsked, y = yard ∨ y ∈ l.swapDone) : (swappedOut yard l).state = .running := by
  obtain ⟨y, stands, other, left⟩ := rest
  have more : ¬ (l.yards.all (fun y => (yard :: l.swapDone).any (· == y)) = true) := fun h => (done_all.1 h y stands).elim other left
  exact (if_neg more).trans (if_pos (done_all.2 asked))

/-- What a swap-out saves on a Yard: its Stables' blocks, then its contexts with their slots (R325, R327). -/
def yardSaved (s : State) (n yard : Nat) : State :=
  (heldOn s n yard).foldl (fun s c => saveCtx s n c)
    (((List.range (stableCount (launchAt s n))).filter (fun j => stableOfLocal (launchAt s n) j / 16 == yard)).foldl (fun s j => saveStable s n j) s)

theorem ctxOf_yardSaved (s : State) {n yard c : Nat} (held : c ∈ heldOn s n yard) : ctxOf (yardSaved s n yard) c = slotFreed (ctxOf s c) := by
  unfold yardSaved
  rw [ctxOf_foldl_update (fun _ => True) _ (fun _ => slotFreed) (fun _ _ _ => trivial) (fun t a _ => (saveCtx_frame t n a).1) (fun _ _ => rfl) _ _ trivial,
    if_pos held, (sameSlots_foldl (fun t j => saveStable_sameSlots t n j) _ s).ctxOf]

theorem launchAt_yardSaved (s : State) (n yard : Nat) : SameSwap (launchAt (yardSaved s n yard) n) (launchAt s n) := by
  refine foldl_keep (fun t => SameSwap (launchAt t n) (launchAt s n)) _ (fun t c h => (saveCtx_frame t n c).2.trans h) _ _ ?_
  rw [(sameSlots_foldl (fun t j => saveStable_sameSlots t n j) _ s).launchAt]
  exact ⟨rfl, rfl, rfl⟩

theorem swapSave_quiet {s : State} {n yard : Nat} (swapping : (launchAt s n).state = .swapping) (asked : yard ∈ (launchAt s n).swapAsked)
    (left : yard ∉ (launchAt s n).swapDone) (saves : ∀ c ∈ heldOn s n yard, mayCommit s c = true)
    (whole : ∀ c ∈ heldOn s n yard, (ctxOf s c).snap = none) (quiet : swapQuiet s n = true) :
    swapSave s n yard = modLaunch (yardSaved s n yard) n (swappedOut yard) := by
  have goes : ¬ ((launchAt s n).state ≠ .swapping ∨ (launchAt s n).swapAsked.all (· != yard) = true ∨ (launchAt s n).swapDone.any (· == yard) = true ∨
      (heldOn s n yard).all (mayCommit s) = false) := by
    rintro (h | h | h | h)
    · exact h swapping
    · simpa using List.all_eq_true.1 h yard asked
    · obtain ⟨y, hy, same⟩ := List.any_eq_true.1 h
      exact left (beq_iff_eq.1 same ▸ hy)
    · exact Bool.noConfusion ((List.all_eq_true.2 saves).symm.trans h)
  unfold swapSave
  rw [if_neg goes, commitFrozens_no_snap whole]
  exact if_pos quiet

/-- Settles O39, by the folds over a launch's contexts. -/
theorem launchEventsComplete : Obligations.LaunchEventsComplete := by
  unfold Obligations.LaunchEventsComplete
  intro s n yard q seq l
  refine ⟨?_, ?_, ?_, ?_, ?_, ?_, ?_, ?_⟩
  · intro starting prepared loaded ready placed u
    have starts : runStart s n = goLaunch s n := by
      unfold runStart
      rw [if_neg (not_not_intro starting), if_pos prepared, startUnit_ready ready]
      exact if_pos (mayGo_ready starting prepared loaded ready placed)
    refine ⟨goLaunch s n, congrArg Host.Outcome.next starts, ?_, fun c hc => ctxOf_goLaunch s hc, fun sb hsb => windowReset_goLaunch s hsb⟩
    rw [goLaunch_eq, launchAt_modLaunch, if_pos rfl]
  · intro ending quiet done
    refine ⟨slotsFreed s n, congrArg Host.Outcome.next (completeLaunch_settled ending quiet done), launchAt_slotsFreed s n,
      fun c hc => ⟨_, ctxOf_slotsFreed s hc⟩, mfind_advanceQueues _ n (mfind_retire _ n n (.inr rfl))⟩
  · exact fun named => ⟨queueResume s q seq, rfl, fun c hc => ctxOf_queueResume named hc⟩
  · intro named notEnded notEnding
    obtain ⟨top, ended⟩ := endLaunch_live (s := s) (n := n) (not_or_intro notEnded notEnding) 4 0 0 0 0
    refine ⟨endLaunch s n 4 0 0 0 0, ?_, ?_⟩
    · show Host.Outcome.next (queueEnd s q seq) = _
      unfold queueEnd
      rw [named]
    · rw [ended, launchAt_modLaunch, if_pos rfl]
      exact ⟨rfl, rfl, rfl, fun c hc => status_endCtxs hc⟩
  · intro named
    show Host.Outcome.next (queueCancel s q seq) = _
    unfold queueCancel
    rw [named]
  · intro running area stands left
    obtain ⟨launches, mcycle⟩ := frozenCtxs_frame (heldOn s n yard) s
    have launch : launchAt ((heldOn s n yard).foldl frozenCtx s) n = l := by unfold launchAt; rw [launches]; rfl
    refine ⟨_, congrArg Host.Outcome.next (swapFreeze_running running area stands left), ?_, ?_, fun c => ?_⟩
    · rw [launchAt_modLaunch, if_pos rfl]
      rfl
    · rw [launchAt_modLaunch, if_pos rfl, launch, swapAskedOf, mcycle]
      exact if_pos running
    · rw [ctxOf_modLaunch, ctxOf_foldl_update (fun _ => True) frozenCtx (fun _ x => { x with frozen := true }) (fun _ _ _ => trivial)
        (fun t a _ => ctxOf_frozenCtx t a) (fun _ _ => rfl) _ s trivial]
      simp only [mem_heldOn]
  · exact fun noArea => congrArg Host.Outcome.next (swapFreeze_no_area noArea)
  · intro swapping asked left saves quiet
    have whole : ∀ c ∈ heldOn s n yard, (ctxOf s c).snap = none := fun c hc => ((quiet yard asked left).1 c hc).1
    have kept := launchAt_yardSaved s n yard
    refine ⟨_, congrArg Host.Outcome.next (swapSave_quiet swapping asked left saves whole (swapQuiet_all quiet)), fun c hc => ⟨(ctxOf s c).taps, ?_⟩, ?_⟩
    · rw [ctxOf_modLaunch]
      exact ctxOf_yardSaved s hc
    · rw [launchAt_modLaunch, if_pos rfl]
      refine ⟨congrArg (yard :: ·) kept.swapDone, fun last => swappedOut_last ?_, fun rest all => swappedOut_rest ?_ ?_⟩
      · rw [kept.yards, kept.swapDone]; exact last
      · rw [kept.yards, kept.swapDone]; exact rest
      · rw [kept.swapAsked, kept.swapDone]; exact all

end Sys2Proof.Machine

/-!
Yards lost and activated, degraded units, repairs, rewinds, link errors and audit verdicts (R16, R383, R385, R388, R392, R393, R397 to R401).
-/

namespace Sys2Proof.Machine

/-! ## A Yard lost -/

/-- No capture's replay runs in a context (R391). -/
def Unrun (s : State) (c : Nat) : Prop := ∀ e ∈ s.rel.captures, e.2.run ≠ some c

theorem unrun_of_not_replaying {s : State} {c : Nat} (own : replaying s c = false) : Unrun s c := by
  intro e he run
  have absent : s.rel.captures.find? (fun e => e.2.run == some c) = none := Option.isSome_eq_false_iff.1 own |> Option.isNone_iff_eq_none.1
  exact List.find?_eq_none.1 absent e he (beq_iff_eq.2 run)

/-- The end of another context's replay. -/
theorem endRun_other {s : State} {c d : Nat} (other : c ≠ d) (sig : Option Word) (unrun : Unrun s c) :
    ctxOf (endRun s d sig) c = ctxOf s c ∧ Unrun (endRun s d sig) c := by
  unfold endRun
  split
  · exact ⟨rfl, unrun⟩
  · next g k found =>
    refine ⟨ctxOf_modCtx_other _ _ _ c other, fun e he => ?_⟩
    rcases mem_mput _ _ _ e he with rfl | he
    · nofun
    · exact unrun e he

/-- Replays that end leave a context that runs none. -/
theorem endRuns_other {s : State} {c : Nat} (l : List Nat) (others : c ∉ l) (unrun : Unrun s c) :
    ctxOf (l.foldl (fun s d => endRun s d none) s) c = ctxOf s c ∧ Unrun (l.foldl (fun s d => endRun s d none) s) c := by
  refine foldl_keep_mem (fun t => ctxOf t c = ctxOf s c ∧ Unrun t c) _ l s (fun t d hd ⟨kept, free⟩ => ?_) ⟨rfl, unrun⟩
  obtain ⟨same, still⟩ := endRun_other (ne_of_mem_of_not_mem hd others).symm none free
  exact ⟨same.trans kept, still⟩

theorem ctxOf_loseCaptures {s : State} {c : Nat} (y : Nat) (own : replaying s c = false) : ctxOf (loseCaptures s y) c = ctxOf s c := by
  have unrun := unrun_of_not_replaying own
  unfold loseCaptures
  extract_lets s1 mine s2
  have absent {u : State} (free : Unrun u c) (l : List (Nat × Capture)) (part : ∀ e ∈ l, e ∈ u.rel.captures) : c ∉ l.filterMap (fun e => e.2.run) := by
    intro mem
    obtain ⟨e, he, run⟩ := List.mem_filterMap.1 mem
    exact free e (part e he) run
  obtain ⟨first, free⟩ : ctxOf s1 c = ctxOf s c ∧ Unrun s1 c :=
    endRuns_other _ (fun mem => absent unrun _ (fun _ he => he) (List.mem_filter.1 mem).1) unrun
  obtain ⟨second, -⟩ : ctxOf s2 c = ctxOf s1 c ∧ Unrun s2 c :=
    endRuns_other _ (absent free _ (fun _ he => (List.mem_filter.1 he).1)) free
  exact second.trans first

/-- A context lost with its launch's fault 0x32 to deliver (R399). -/
def LostWith (c launch : Nat) (x : Ctx) : Prop :=
  x.status = .lost ∧ x.ops = [] ∧ x.flight = [] ∧ ∃ f ∈ x.raised, f.ctx = c ∧ f.code = 0x32 ∧ f.launch = launch

/-- The same of a context of a state. -/
def LostIn (c launch : Nat) (s : State) : Prop := LostWith c launch (ctxOf s c)

/-- A context of a lost Yard (R354, R399). -/
def loseCtx (s : State) (c : Nat) : State := modCtx s c (fun x =>
  { x with status := .lost, ops := [], flight := [], raised := x.raised ++ [raisedAt s c 0x32 0 0xFF x.pc x.ccycle] })

theorem launch_modCtx (s : State) (c d : Nat) {f : Ctx → Ctx} (kept : ∀ x, (f x).launch = x.launch) :
    (ctxOf (modCtx s d f) c).launch = (ctxOf s c).launch := by
  rw [ctxOf_modCtx]
  split
  · next same => rw [kept, same]
  · rfl

theorem launch_loseCtx (s : State) (c d : Nat) : (ctxOf (loseCtx s d) c).launch = (ctxOf s c).launch := by
  refine launch_modCtx s c d ?_
  exact fun _ => rfl

section
variable {s : State} {c launch : Nat}

theorem lostIn_loseCtx (of : (ctxOf s c).launch = launch) : LostIn c launch (loseCtx s c) := by
  unfold LostIn loseCtx
  rw [ctxOf_modCtx, if_pos rfl]
  exact ⟨rfl, rfl, rfl, raisedAt s c 0x32 0 0xFF (ctxOf s c).pc (ctxOf s c).ccycle, List.mem_append_right _ (List.mem_singleton.2 rfl), rfl, rfl, of⟩

theorem lostIn_modCtx (d : Nat) {f : Ctx → Ctx} (keeps : ∀ x, LostWith c launch x → LostWith c launch (f x)) (lost : LostIn c launch s) :
    LostIn c launch (modCtx s d f) := by
  unfold LostIn at lost ⊢
  rw [ctxOf_modCtx]
  split
  · next same => exact keeps _ (same ▸ lost)
  · exact lost

theorem lostIn_modStable (sb : Nat) (f : Stable → Stable) (lost : LostIn c launch s) : LostIn c launch (modStable s sb f) := lost

theorem loseCtx_keeps_lost (d : Nat) (lost : LostIn c launch s) : LostIn c launch (loseCtx s d) :=
  lostIn_modCtx d (fun _ ⟨_, _, _, f, raised, of⟩ => ⟨rfl, rfl, rfl, f, List.mem_append_left _ raised, of⟩) lost

theorem dropAccess_keeps_lost (d : Nat) (op : Option Nat) (lost : LostIn c launch s) : LostIn c launch (dropAccess s d op) := by
  cases op with
  | none => exact lost
  | some id =>
    refine lostIn_modCtx d (fun x ⟨status, ops, flight, raised⟩ => ⟨status, ?_, flight, raised⟩)
      (lostIn_modCtx d (fun x ⟨status, ops, flight, raised⟩ => ⟨status, ?_, flight, raised⟩) lost)
    · rw [ops]; rfl
    · rw [ops]; rfl

end

/-- The handlers of a Yard gone with it leave its contexts lost. -/
theorem endHandlers_keeps_lost {s : State} {y i launch : Nat} (lost : LostIn (128 * y + 2 * i) launch s) :
    LostIn (128 * y + 2 * i) launch (endHandlers s y) := by
  unfold endHandlers
  extract_lets served control s1
  refine foldl_keep_mem (LostIn (128 * y + 2 * i) launch) _ served s (fun t d hd h => ?_) lost
  obtain ⟨j, -, rfl⟩ := List.mem_map.1 (List.mem_filter.1 hd).1
  have handled : LostIn (128 * y + 2 * i) launch (modCtx t (128 * y + 2 * j) (fun x => { x with inSvc := false })) := lostIn_modCtx _ (fun _ h => h) h
  unfold LostIn at handled ⊢
  rw [ctxOf_modCtx_other _ _ _ _ (by omega)]
  exact handled

/-- Lost packets leave a lost context lost. -/
theorem dropPackets_keeps_lost {s : State} {c launch : Nat} (l : List (Nat × Packet)) (lost : LostIn c launch s) :
    LostIn c launch (l.foldl (fun s p => dropAccess s p.2.sender p.2.access) s) :=
  foldl_keep (LostIn c launch) _ (fun _ _ h => dropAccess_keeps_lost _ _ h) l s lost

theorem mem_yardHolders {s : State} {y c : Nat} : c ∈ yardHolders s y ↔
    (∃ i < 64, c = 128 * y + 2 * i) ∧ (ctxOf s c).status ≠ .absent ∧ (ctxOf s c).status ≠ .ended ∧ (ctxOf s c).status ≠ .lost := by
  unfold yardHolders
  rw [List.mem_filter, List.mem_map]
  refine and_congr ⟨fun ⟨i, hi, same⟩ => ⟨i, List.mem_range.1 hi, same.symm⟩, fun ⟨i, hi, same⟩ => ⟨i, List.mem_range.2 hi, same.symm⟩⟩ ?_
  cases (ctxOf s c).status <;> simp

/-- Each context of a launch on a lost Yard is lost with its fault to deliver (R399). -/
theorem lostIn_loseYard {s : State} {y c : Nat} (cause : Nat) (holds : c ∈ yardHolders s y) (own : replaying s c = false) :
    LostIn c (ctxOf s c).launch (loseYard s y cause) := by
  obtain ⟨⟨i, hi, place⟩, present⟩ := mem_yardHolders.1 holds
  have kept := ctxOf_loseCaptures y own
  unfold loseYard
  extract_lets s1 cs s2 f s3 s4 s5 s6 s7
  have still : c ∈ cs := by
    refine mem_yardHolders.2 ⟨⟨i, hi, place⟩, ?_⟩
    rw [show ctxOf s1 c = ctxOf s c from kept]
    exact present
  have launch : (ctxOf s3 c).launch = (ctxOf s c).launch := by
    refine (launch_modCtx s2 c (128 * y) ?_).trans (congrArg Ctx.launch kept)
    exact fun _ => rfl
  have lost4 : LostIn c (ctxOf s c).launch s4 :=
    foldl_reaches_under (fun t => (ctxOf t c).launch = (ctxOf s c).launch) (LostIn c (ctxOf s c).launch) loseCtx
      (fun t d h => (launch_loseCtx t c d).trans h) (fun _ h => lostIn_loseCtx h) (fun _ d _ h => loseCtx_keeps_lost d h) cs s3 launch still
  have lost5 : LostIn c (ctxOf s c).launch s5 := by
    rw [place] at lost4 ⊢
    exact endHandlers_keeps_lost lost4
  have lost6 : LostIn c (ctxOf s c).launch s6 := foldl_keep (LostIn c (ctxOf s c).launch) _ (fun _ _ h => dropPackets_keeps_lost _ h) _ s5 lost5
  have lost7 : LostIn c (ctxOf s c).launch s7 := foldl_keep (LostIn c (ctxOf s c).launch) _ (fun _ _ h => lostIn_modStable _ _ h) _ s6 lost6
  unfold LostIn
  rw [ctxOf_postEvent]
  exact lost7

theorem loseYard_event (s : State) (y cause : Nat) : bit (ioCsr (loseYard s y cause) 0x8C0) 6 = true := by
  unfold loseYard postEvent
  simp [bit]

theorem declareLost_running {s : State} {y : Nat} (running : (yardAt s y).status = .running) (cause : Nat) : declareLost s y cause = loseYard s y cause :=
  if_pos running

/-! ## A Yard activated -/

theorem activateSite_free {s : State} {site y : Nat} (logical : y < 6) (lost : (yardAt s y).status = .lost)
    (free : ∀ e ∈ s.yards, e.1 ≠ y → e.2.status = .running ∨ e.2.status = .activating → e.2.site ≠ site) :
    activateSite s site y = modYard s y (fun x => { x with status := .activating, site := site }) := by
  have unused : s.yards.any (fun e => e.1 != y && (e.2.status == .running || e.2.status == .activating) && e.2.site == site) = false := by
    refine List.any_eq_false.2 (fun e he used => ?_)
    simp only [Bool.and_eq_true, bne_iff_ne, Bool.or_eq_true, beq_iff_eq] at used
    obtain ⟨⟨other, live⟩, same⟩ := used
    exact free e he other live same
  unfold activateSite
  exact if_pos ⟨logical, lost, unused⟩

/-- A key whose entries are all filtered out reads as the default. -/
theorem mget_filter_out {α : Type} (m : Map α) {p : Nat × α → Bool} {k : Nat} (out : ∀ v, p (k, v) = false) (d : α) : mget (m.filter p) k d = d := by
  induction m with
  | nil => rfl
  | cons e r ih =>
    obtain ⟨j, v⟩ := e
    rw [List.filter_cons]
    split
    · next kept =>
      have other : j ≠ k := fun same => by simp [same, out] at kept
      rw [mget, if_neg other]
      exact ih
    · exact ih

section
variable {s : State} {y : Nat} (activating : (yardAt s y).status = .activating)
include activating

theorem yardAt_selfTestDone_passed : let x := yardAt (selfTestDone s y true) y
    x.status = .running ∧ x.ycycle = 0 ∧ x.since = s.mcycle := by
  unfold selfTestDone
  rw [if_neg (not_not_intro activating), if_pos rfl]
  dsimp only
  rw [(putRecord_run ..).yardAt, yardAt_modYard, if_pos rfl]
  exact ⟨rfl, rfl, rfl⟩

theorem yardAt_selfTestDone_failed : (yardAt (selfTestDone s y false) y).status = .lost := by
  unfold selfTestDone
  rw [if_neg (not_not_intro activating), if_neg Bool.false_ne_true]
  dsimp only
  rw [(putRecord_run ..).yardAt, yardAt_modYard, if_pos rfl]

/-- A Yard whose self-test has passed holds no context but a lost one, or one with a fault yet to deliver (R354, R399). -/
theorem ctxOf_selfTestDone_passed {k : Nat} (inYard : k < 128) (present : (ctxOf s (128 * y + k)).status ≠ .lost)
    (delivered : (ctxOf s (128 * y + k)).raised = []) : (ctxOf (selfTestDone s y true) (128 * y + k)).status = .absent := by
  unfold selfTestDone
  rw [if_neg (not_not_intro activating), if_pos rfl]
  dsimp only
  rw [(putRecord_run ..).ctxOf, ctxOf_modYard]
  have emptied := mget_filter_out s.ctxs (k := 128 * y + k)
    (p := fun e => e.1 / 128 != y || (ctxOf s e.1).status == .lost || !(ctxOf s e.1).raised.isEmpty) (fun _ => ?_) ctxInit
  · exact congrArg Ctx.status emptied
  · have same : (128 * y + k) / 128 = y := by omega
    simp [same, present, delivered]

end

/-! ## Degraded units -/

/-- A macro's entry, its checksums carried over to another form of its weights (R401). -/
def reformEntry (was is : Nat → Bool) (m : Nat × Macro) : Nat × Macro :=
  if was m.1 = is m.1 then m
  else (m.1, { m.2 with active := reformSums (was m.1) (is m.1) m.2.active, shadow := reformSums (was m.1) (is m.1) m.2.shadow })

/-- The weights of two macros agree. -/
structure SameRows (m n : Macro) : Prop where
  active : m.active.rows = n.active.rows
  shadow : m.shadow.rows = n.shadow.rows

theorem SameRows.trans {l m n : Macro} (h : SameRows l m) (k : SameRows m n) : SameRows l n := ⟨h.active.trans k.active, h.shadow.trans k.shadow⟩

theorem reformEntry_key (was is : Nat → Bool) (m : Nat × Macro) : (reformEntry was is m).1 = m.1 := by
  unfold reformEntry
  split <;> rfl

theorem reformEntry_rows (was is : Nat → Bool) (m : Nat × Macro) : SameRows (reformEntry was is m).2 m.2 := by
  unfold reformEntry
  split
  · exact ⟨rfl, rfl⟩
  · exact ⟨rfl, rfl⟩

theorem mget_reformed (was is : Nat → Bool) (k : Nat) : ∀ l : Map Macro, SameRows (mget (l.map (reformEntry was is)) k macroInit) (mget l k macroInit)
  | [] => ⟨rfl, rfl⟩
  | m :: r => by
    rw [List.map_cons, mget, mget, reformEntry_key]
    split
    · exact reformEntry_rows was is m
    · exact mget_reformed was is k r

/-- Carrying checksums over keeps the weights (R401). -/
theorem macroOf_reformMacros (was is : Nat → Bool) (x : Ctx) (k : Nat) : SameRows (macroOf (reformMacros was is x) k) (macroOf x k) :=
  mget_reformed was is k x.macros

theorem macroOf_changeNibbles (s : State) (g : Nat) (f : Stall → Stall) (d k : Nat) :
    SameRows (macroOf (ctxOf (changeNibbles s g f) d) k) (macroOf (ctxOf s d) k) := by
  unfold changeNibbles
  refine foldl_keep (fun u => SameRows (macroOf (ctxOf u d) k) (macroOf (ctxOf s d) k)) _ (fun u c h => ?_) _ _ ⟨rfl, rfl⟩
  rw [ctxOf_modCtx]
  split
  · next same => exact (macroOf_reformMacros ..).trans (same ▸ h)
  · exact h

theorem stallAt_changeNibbles (s : State) (g : Nat) (f : Stall → Stall) : stallAt (changeNibbles s g f) g = f (stallAt s g) := by
  simp [changeNibbles]

/-! ## Repairs -/

section
variable {s : State} {w : Word} (idle : s.rel.repair = 0)
include idle

/-- A repair request drains the Stable of its Stall, clamped to 191 (R398, log 53). -/
theorem requestRepair_idle : requestRepair s w =
    let v := setField w 6 8 (min 191 (fld w 6 8))
    modStable (modRel s (fun r => { r with repair := 1, target := v, noSpare := false })) (min 191 (fld w 6 8) / 2) (fun t => { t with draining := true }) := by
  have clamped : fld (setField w 6 8 (min 191 (fld w 6 8))) 6 8 = min 191 (fld w 6 8) := by
    rw [fld_setField _ _ (by decide)]
    omega
  unfold requestRepair
  rw [if_neg (not_not_intro idle)]
  dsimp only
  rw [clamped]

theorem target_requestRepair : let t := requestRepair s w
    t.rel.repair = 1 ∧ fld t.rel.target 0 6 = fld w 0 6 ∧ fld t.rel.target 6 8 = min 191 (fld w 6 8) ∧ fld t.rel.target 14 16 = fld w 14 16 ∧
      (stableAt t (min 191 (fld w 6 8) / 2)).draining = true := by
  intro t
  have target : t.rel.target = setField w 6 8 (min 191 (fld w 6 8)) := by rw [show t = _ from requestRepair_idle idle]; rfl
  rw [target, fld_setField_ne _ _ (by decide), fld_setField _ _ (by decide), fld_setField_ne _ _ (by decide)]
  refine ⟨?_, rfl, by omega, rfl, ?_⟩
  · rw [show t = _ from requestRepair_idle idle]; rfl
  · rw [show t = _ from requestRepair_idle idle, stableAt_modStable, if_pos rfl]

end

/-- A context of a Stable under repair, as the repair's end finds it (R398). -/
def thawed (held : Bool) (now : Nat) (x : Ctx) : Ctx := if held then x else { x with frozen := false, seenYard := now }

/-- A context resumed after a repair, unless a swap-out holds it (R325, R398). -/
def thawCtx (s : State) (c : Nat) : State := if swapFrozen s c then s else modCtx s c (fun x => { x with frozen := false, seenYard := yardNow s c })

theorem ctxOf_thawCtx (s : State) (c d : Nat) :
    ctxOf (thawCtx s c) d = if d = c then thawed (swapFrozen s c) (yardNow s c) (ctxOf s c) else ctxOf s d := by
  unfold thawCtx thawed
  split
  · split
    · next same => rw [same]
    · rfl
  · rw [ctxOf_modCtx]

/-- What tells whether a swap-out holds a context agrees in two states. -/
structure SameHolds (t s : State) : Prop where
  launches : t.launches = s.launches
  yards : t.yards = s.yards
  launch : ∀ c, (ctxOf t c).launch = (ctxOf s c).launch

theorem SameHolds.swapFrozen {t s : State} (h : SameHolds t s) (c : Nat) : swapFrozen t c = swapFrozen s c := by
  unfold Machine.swapFrozen launchAt
  rw [h.launch, h.launches]

theorem SameHolds.yardNow {t s : State} (h : SameHolds t s) (c : Nat) : yardNow t c = yardNow s c := by
  unfold Machine.yardNow yardAt
  rw [h.yards]

theorem thawCtx_sameHolds {t s : State} (h : SameHolds t s) (c : Nat) : SameHolds (thawCtx t c) s := by
  refine ite_both (SameHolds · s) h ⟨h.launches, h.yards, fun d => (launch_modCtx t d c ?_).trans (h.launch d)⟩
  exact fun _ => rfl

/-- A Stable whose repair is over (R398). -/
def repairedStable (noSpare : Bool) (t : Stable) : Stable := { t with draining := false, failed := t.failed || noSpare }

theorem repairedStable_marks (noSpare : Bool) (t : Stable) :
    (repairedStable noSpare t).draining = false ∧ (noSpare = true → (repairedStable noSpare t).failed = true) := by
  refine ⟨rfl, ?_⟩
  rintro rfl
  exact Bool.or_true _

theorem endRepair_eq (s : State) (sb : Nat) (noSpare : Bool) : endRepair s sb noSpare =
    modRel (modStable ((stableCtxs sb).foldl thawCtx s) sb (repairedStable noSpare)) (fun r => { r with repair := 0, noSpare := noSpare }) := by
  unfold endRepair
  rfl

theorem ctxOf_modRel (s : State) (f : Rel → Rel) (c : Nat) : ctxOf (modRel s f) c = ctxOf s c := rfl

theorem stableAt_modRel (s : State) (f : Rel → Rel) (sb : Nat) : stableAt (modRel s f) sb = stableAt s sb := rfl

theorem rel_modRel (s : State) (f : Rel → Rel) : (modRel s f).rel = f s.rel := rfl

/-- The end of a repair resumes the Stable's contexts, but for those that a swap-out holds (R398, log 99). -/
theorem frozen_endRepair (s : State) {sb d : Nat} (on : d ∈ stableCtxs sb) (noSpare : Bool) :
    (ctxOf (endRepair s sb noSpare) d).frozen = (swapFrozen s d && (ctxOf s d).frozen) := by
  have fold := ctxOf_foldl_update (SameHolds · s) thawCtx (fun c => thawed (swapFrozen s c) (yardNow s c)) (fun _ c h => thawCtx_sameHolds h c)
    (fun t c h d => by rw [ctxOf_thawCtx, h.swapFrozen, h.yardNow]) (fun c x => by unfold thawed; split <;> rfl) (stableCtxs sb) s ⟨rfl, rfl, fun _ => rfl⟩ d
  rw [endRepair_eq, ctxOf_modRel, ctxOf_modStable, fold, if_pos on, thawed]
  cases swapFrozen s d <;> rfl

theorem endRepair_stable (s : State) (sb : Nat) (noSpare : Bool) : let t := endRepair s sb noSpare
    t.rel.repair = 0 ∧ t.rel.noSpare = noSpare ∧ (stableAt t sb).draining = false ∧ (noSpare = true → (stableAt t sb).failed = true) := by
  dsimp only
  rw [endRepair_eq, stableAt_modRel, stableAt_modStable, if_pos rfl, rel_modRel]
  exact ⟨rfl, rfl, repairedStable_marks ..⟩

theorem remap_copyUnit (s : State) (struct g row : Nat) (spare : Nat × Nat) :
    mget (stallAt (copyUnit s struct g row spare) (remapStall struct g)).remap spare.2 0 = BitVec.ofNat 32 (2 ^ 31 + row * 2 ^ 12 + spare.1) := by
  unfold copyUnit modRel
  extract_lets u v side keys
  have remap : ∃ x : Stall, stallAt v (remapStall struct g) = { x with remap := mput x.remap spare.2 (BitVec.ofNat 32 (2 ^ 31 + row * 2 ^ 12 + spare.1)) } :=
    ⟨_, (stallAt_modStall ..).trans (if_pos rfl)⟩
  obtain ⟨x, remap⟩ := remap
  show mget (stallAt v (remapStall struct g)).remap spare.2 0 = _
  rw [remap]
  exact mget_mput_same ..

section
variable {s : State}

theorem copyRepair_drains (drains : s.rel.repair = 1) : copyRepair s =
    if (stableCtxs (fld s.rel.target 6 8 / 2)).all (fun c => atRest (ctxOf s c)) = true then modRel s (fun r => { r with repair := 2 }) else s := by
  unfold copyRepair
  simp only [drains]

theorem copyRepair_copies (copies : s.rel.repair = 2) {i : Nat × Nat}
    (spare : freeSpare s (fld s.rel.target 0 6) (fld s.rel.target 6 8) (fld s.rel.target 14 16) = some i) :
    copyRepair s = modRel (copyUnit s (fld s.rel.target 0 6) (fld s.rel.target 6 8) (fld s.rel.target 14 16) i)
      (fun r => { r with repair := 3, spare := i.1 }) := by
  unfold copyRepair
  simp only [copies, spare]

theorem copyRepair_full (copies : s.rel.repair = 2)
    (full : freeSpare s (fld s.rel.target 0 6) (fld s.rel.target 6 8) (fld s.rel.target 14 16) = none) :
    copyRepair s = endRepair s (fld s.rel.target 6 8 / 2) true := by
  unfold copyRepair
  simp only [copies, full]

theorem copyRepair_serves (serves : s.rel.repair = 3) : ∃ record detail,
    copyRepair s = endRepair (putRecord s record detail) (fld s.rel.target 6 8 / 2) false := by
  unfold copyRepair
  simp only [serves]
  exact ⟨_, _, rfl⟩

end

/-! ## Rewinds -/

section
variable {s : State} {c : Nat} (rewound : (ctxOf s c).status = .rewound)
include rewound

/-- The cycles that a restore takes, counted, and the rerun after the last (R385). -/
theorem rewindStep_later (later : (ctxOf s c).rewind ≠ 1) : rewindStep s c =
    if (ctxOf s c).restores ≤ 1 then rerun s c else modCtx s c (fun x => { x with restores := x.restores - 1 }) := by
  unfold rewindStep
  exact (if_neg (not_not_intro rewound)).trans (if_neg later)

variable (first : (ctxOf s c).rewind = 1) (quiet : rewindQuiet s c = true)
include first quiet

theorem rewindStep_quiet : rewindStep s c =
    if ((damagedLog s c).isSome || overrun (ctxOf s c)) = true then
      exhaustRewind (findBad s (fun m => (m.struct == 5 || m.struct == 6) && m.owner == c) true) c
    else restoreRun s c := by
  unfold rewindStep
  refine (if_neg (not_not_intro rewound)).trans ((if_pos first).trans (if_neg ?_))
  rw [quiet]
  exact Bool.false_ne_true

theorem rewindStep_restores (whole : damagedLog s c = none) (fits : overrun (ctxOf s c) = false) : rewindStep s c = restoreRun s c := by
  rw [rewindStep_quiet rewound first quiet, whole, fits]
  rfl

theorem rewindStep_exhausted (lost : damagedLog s c ≠ none ∨ overrun (ctxOf s c) = true) :
    rewindStep s c = exhaustRewind (findBad s (fun m => (m.struct == 5 || m.struct == 6) && m.owner == c) true) c := by
  refine (rewindStep_quiet rewound first quiet).trans (if_pos ?_)
  rcases lost with damaged | runs
  · rw [Option.isSome_iff_ne_none.2 damaged]
    rfl
  · rw [runs]
    exact Bool.or_true _

end

theorem ctxOf_restoreRun {s : State} {c : Nat} {n : Snapshot} (snap : (ctxOf s c).snap = some n) :
    ∃ y, ctxOf (restoreRun s c) c = { fromSnapshot y n with rewind := 2, restores := 15 + ceilDiv (ctxOf s c).charge 256 } := by
  unfold restoreRun
  dsimp only
  rw [(correctAll_run ..).ctxOf, snap]
  dsimp only
  exact ⟨_, ctxOf_modCtx_self ..⟩

/-- A context whose segment runs again (R385). -/
def rerunning (now : Nat) (x : Ctx) : Ctx := { x with status := .running, rewind := 3, restores := 0, consumed := none, seenYard := now }

theorem ctxOf_rerun (s : State) (c : Nat) : ctxOf (rerun s c) c = rerunning (yardNow s c) (ctxOf s c) := by
  have runs : ctxOf (modCtx s c (rerunning (yardNow s c))) c = rerunning (yardNow s c) (ctxOf s c) := ctxOf_modCtx_self ..
  unfold rerun
  dsimp only
  split
  · exact runs
  · exact runs

/-- The station jobs of the snapshot run again beside a rerun (R387, log 113). -/
theorem jobs_rerun {s : State} {c : Nat} {n : Snapshot} (idle : (stableAt s (stableOf c)).jobs = []) (snap : (ctxOf s c).snap = some n) :
    (stableAt (rerun s c) (stableOf c)).jobs.map (·.id) = n.jobs.map (·.id) := by
  have snap : (ctxOf (modCtx s c (rerunning (yardNow s c))) c).snap = some n := (congrArg Ctx.snap (ctxOf_modCtx_self ..)).trans snap
  unfold rerun
  dsimp only
  split
  · next absent => exact nomatch snap.symm.trans absent
  · next m found =>
    obtain rfl : n = m := Option.some.inj (snap.symm.trans found)
    rw [stableAt_modStable, if_pos rfl, stableAt_modCtx, idle]
    simp

/-! ## Audit verdicts -/

/-- The suspects of a verdict stay through its record. -/
theorem stallAt_auditRecord (s : State) (k : Capture) (kind : Nat) (orig : Word) (a b : Nat × Word) (g : Nat) :
    stallAt (auditRecord s k kind orig a b) g = stallAt s g := by
  unfold auditRecord stallAt
  rw [(putRecord_run ..).2.2.1]

theorem suspect_suspectStall (s : State) (g : Nat) : (stallAt (suspectStall s g) g).suspect = true := by
  rw [suspectStall, stallAt_modStall, if_pos rfl]

theorem suspectStall_keeps {s : State} {i : Nat} (g : Nat) (suspect : (stallAt s i).suspect = true) : (stallAt (suspectStall s g) i).suspect = true := by
  rw [suspectStall, stallAt_modStall]
  split
  · rfl
  · exact suspect

/-- An audit closed: its capture is gone (R392). -/
def auditClosed (s : State) (g : Nat) : State := { s with rel := { s.rel with captures := mdel s.rel.captures g } }

theorem mfind_auditClosed (s : State) (g : Nat) : mfind (auditClosed s g).rel.captures g = none := mfind_mdel _ _ _ (.inr rfl)

theorem stallAt_auditClosed (s : State) (g i : Nat) : stallAt (auditClosed s g) i = stallAt s i := rfl

/-- A capture put in a Stall's place. -/
def putCapture (s : State) (g : Nat) (k : Capture) : State := { s with rel := { s.rel with captures := mput s.rel.captures g k } }

theorem mfind_putCapture (s : State) (g : Nat) (k : Capture) : mfind (putCapture s g k).rel.captures g = some k := (mfind_mput ..).trans (if_pos rfl)

section
variable {s : State} {g rep : Nat} {w o : Word} {k : Capture} (found : mfind s.rel.captures g = some k) (sig : k.sig = some o)
include found

/-- The run that has ended with a signature is judged (R392). -/
theorem exec_auditVerdict_ended (ended : k.ended = some (rep, w)) :
    exec (.auditVerdict g rep w.toNat) s = .next (auditVerdict (putCapture s g { k with ended := none }) g rep w) := by
  have named : (mfind s.rel.captures g).any (fun k => k.ended == some (rep, BitVec.ofNat 64 w.toNat)) = true := by
    rw [found, Option.any_some, ended, BitVec.ofNat_toNat, BitVec.setWidth_eq]
    exact beq_self_eq_true _
  have judged : judgeRun s g = auditVerdict (putCapture s g { k with ended := none }) g rep w := by
    unfold judgeRun
    simp only [found, ended]
    rfl
  exact congrArg Host.Outcome.next ((if_pos named).trans judged)

include sig

theorem auditVerdict_first (runs : k.runs = []) :
    auditVerdict s g rep w = if w = o then auditClosed s g else putCapture s g { k with runs := [(rep, w)] } := by
  unfold auditVerdict
  simp only [found, sig, runs]
  rfl

section
variable {r : Nat × Word} {rest : List (Nat × Word)} (runs : k.runs = r :: rest)
include runs

/-- A third run equal to the original makes the second suspect (R393). -/
theorem auditVerdict_equal (same : w = o) :
    auditVerdict s g rep w = auditClosed (auditRecord (suspectStall s r.1) k 0 o r (rep, w)) g := by
  unfold auditVerdict
  simp only [found, sig, runs]
  exact if_pos same

/-- A third run equal to the second makes the original suspect (R393). -/
theorem auditVerdict_majority (differs : w ≠ o) (same : w = r.2) :
    auditVerdict s g rep w = auditClosed (auditRecord (suspectStall s g) k 1 o r (rep, w)) g := by
  unfold auditVerdict
  simp only [found, sig, runs]
  exact (if_neg differs).trans (if_pos same)

/-- Three runs that all differ are all suspect (R393). -/
theorem auditVerdict_none_equal (differs : w ≠ o) (other : w ≠ r.2) :
    auditVerdict s g rep w = auditClosed (auditRecord (suspectStall (suspectStall (suspectStall s g) r.1) rep) k 3 o r (rep, w)) g := by
  unfold auditVerdict
  simp only [found, sig, runs]
  exact (if_neg differs).trans (if_neg other)

/-- The suspects of a third run (R393). -/
theorem auditVerdict_third : let t := auditVerdict s g rep w
    mfind t.rel.captures g = none ∧ (w = o → (stallAt t r.1).suspect = true) ∧ (w ≠ o → (stallAt t g).suspect = true) ∧
      (w ≠ o → w ≠ r.2 → (stallAt t r.1).suspect = true ∧ (stallAt t rep).suspect = true) := by
  dsimp only
  by_cases same : w = o
  · rw [auditVerdict_equal found sig runs same, stallAt_auditClosed, stallAt_auditRecord]
    exact ⟨mfind_auditClosed _ g, fun _ => suspect_suspectStall s r.1, fun h => absurd same h, fun h => absurd same h⟩
  by_cases majority : w = r.2
  · rw [auditVerdict_majority found sig runs same majority]
    simp only [stallAt_auditClosed, stallAt_auditRecord]
    exact ⟨mfind_auditClosed _ g, fun h => absurd h same, fun _ => suspect_suspectStall s g, fun _ h => absurd majority h⟩
  · rw [auditVerdict_none_equal found sig runs same majority]
    simp only [stallAt_auditClosed, stallAt_auditRecord]
    exact ⟨mfind_auditClosed _ g, fun h => absurd h same, fun _ => suspectStall_keeps _ (suspectStall_keeps _ (suspect_suspectStall s g)),
      fun _ _ => ⟨suspectStall_keeps _ (suspect_suspectStall _ r.1), suspect_suspectStall _ rep⟩⟩

end

end

/-- Settles O41, by the folds over a Yard's contexts and a Stable's, and by the cases of a verdict. -/
theorem yardsAndRepairComplete : Obligations.YardsAndRepairComplete := by
  unfold Obligations.YardsAndRepairComplete
  intro s y site cause g m p v c retries pass x
  refine ⟨?_, ?_, ?_, ?_, ?_, ?_, ?_, ?_, ?_, ?_, ?_, ?_, ?_, ?_, ?_⟩
  · intro running
    refine ⟨_, _, _, congrArg Host.Outcome.next (declareLost_running running 4), congrArg Host.Outcome.next (declareLost_running running 5),
      congrArg Host.Outcome.next (declareLost_running running cause), rfl, rfl, rfl, fun c holds own => ?_, loseYard_event s y cause⟩
    exact lostIn_loseYard cause holds own
  · exact fun logical lost free => congrArg Host.Outcome.next (activateSite_free logical lost free)
  · intro activating
    refine ⟨selfTestDone s y pass, rfl, ?_, ?_⟩
    · rintro rfl
      obtain ⟨running, cycle, since⟩ := yardAt_selfTestDone_passed activating
      exact ⟨running, cycle, since, fun k inYard present delivered => ctxOf_selfTestDone_passed activating inYard present delivered⟩
    · rintro rfl
      exact yardAt_selfTestDone_failed activating
  · refine ⟨failArray s (g / 2), rfl, ?_⟩
    rw [failArray, stableAt_modStable, if_pos rfl]
  · refine ⟨failMacro s g m p, rfl, ?_⟩
    unfold failMacro
    rw [stallAt_changeNibbles]
    exact ⟨rfl, rfl, fun d k => ⟨(macroOf_changeNibbles s g _ d k).active, (macroOf_changeNibbles s g _ d k).shadow⟩⟩
  · refine ⟨clearDegraded s g, rfl, ?_⟩
    unfold clearDegraded
    rw [stallAt_modStable, stallAt_changeNibbles, stableAt_modStable, if_pos rfl]
    exact ⟨rfl, rfl, rfl⟩
  · intro idle inRange
    obtain ⟨begun, struct, stall, row, drains⟩ := target_requestRepair (w := BitVec.ofNat 64 v) idle
    rw [Nat.min_eq_right (by omega)] at stall drains
    exact ⟨_, rfl, begun, struct, stall, row, drains⟩
  · intro idle beyond
    obtain ⟨begun, -, stall, -, drains⟩ := target_requestRepair (w := BitVec.ofNat 64 v) idle
    rw [Nat.min_eq_left (by omega)] at stall drains
    exact ⟨_, rfl, begun, stall, drains⟩
  · exact fun busy => congrArg Host.Outcome.next (if_pos busy)
  · intro struct h row resumed
    have ends (u : State) (same : SameHolds u s) (frozen : ∀ d, (ctxOf u d).frozen = (ctxOf s d).frozen) (noSpare : Bool) :
        resumed (endRepair u (h / 2) noSpare) := by
      intro d on
      rw [frozen_endRepair u on, same.swapFrozen, frozen]
    refine ⟨?_, ?_, ?_, ?_⟩
    · exact fun drains rests => congrArg Host.Outcome.next ((copyRepair_drains drains).trans (if_pos (List.all_eq_true.2 rests)))
    · rintro drains ⟨d, on, runs⟩
      refine congrArg Host.Outcome.next ((copyRepair_drains drains).trans (if_neg (fun rests => ?_)))
      exact Bool.noConfusion (runs.symm.trans (List.all_eq_true.1 rests d on))
    · refine fun copies => ⟨fun i spare => ?_, fun full => ?_⟩
      · exact ⟨_, congrArg Host.Outcome.next (copyRepair_copies copies spare), rfl, remap_copyUnit ..⟩
      · obtain ⟨finished, noSpare, -, failed⟩ := endRepair_stable s (h / 2) true
        exact ⟨_, congrArg Host.Outcome.next (copyRepair_full copies full), finished, noSpare, failed rfl, ends s ⟨rfl, rfl, fun _ => rfl⟩ (fun _ => rfl) true⟩
    · intro serves
      obtain ⟨record, detail, done⟩ := copyRepair_serves serves
      have kept := putRecord_run s record detail
      obtain ⟨finished, -, drained, -⟩ := endRepair_stable (putRecord s record detail) (h / 2) false
      refine ⟨_, congrArg Host.Outcome.next done, finished, drained, ends _ ⟨kept.2.2.2.2.1, kept.2.2.2.1, fun d => ?_⟩ (fun d => ?_) false⟩
      · rw [kept.ctxOf]
      · rw [kept.ctxOf]
  · intro rewound first quiet
    refine ⟨fun n whole fits snap => ?_, fun lost => ?_⟩
    · obtain ⟨z, restored⟩ := ctxOf_restoreRun snap
      refine ⟨restoreRun s c, congrArg Host.Outcome.next (rewindStep_restores rewound first quiet whole fits), ?_⟩
      rw [restored]
      exact ⟨rfl, rfl, rfl, rfl, rfl, rfl, rfl, rfl, rfl, rfl, rfl, rfl⟩
    · exact congrArg Host.Outcome.next (rewindStep_exhausted rewound first quiet lost)
  · intro rewound later
    refine ⟨fun more => ?_, fun last => ⟨rerun s c, ?_, ctxOf_rerun s c, fun idle n snap => jobs_rerun idle snap⟩⟩
    · exact congrArg Host.Outcome.next ((rewindStep_later rewound later).trans (if_neg (Nat.not_le.2 more)))
    · exact congrArg Host.Outcome.next ((rewindStep_later rewound later).trans (if_pos last))
  · exact fun few => congrArg Host.Outcome.next (if_pos few)
  · exact fun many running => congrArg Host.Outcome.next ((if_neg (Nat.not_le.2 many)).trans (declareLost_running running 1))
  · intro k o rep w found sig ended
    have judged := mfind_putCapture s g { k with ended := none }
    refine ⟨_, exec_auditVerdict_ended found ended, fun runs same => ?_, fun runs differs => ?_, fun r rest runs => ?_⟩
    · rw [auditVerdict_first judged sig runs, if_pos same]
      exact ⟨mfind_auditClosed _ g, rfl⟩
    · rw [auditVerdict_first judged sig runs, if_neg differs]
      exact ⟨mfind_putCapture .., rfl⟩
    · exact auditVerdict_third judged sig runs

end Sys2Proof.Machine
